-- ==== Sys2Proof/Word.lean ====
section
/-! DEFINITION. The plain words of the model: bytes, the floating-point words as bits, and the two shapes of sparse
storage (a byte memory and a keyed map). Their operations stand in Machine/Store.lean. -/

namespace Sys2Proof

/-- Eight bits. -/
abbrev Byte := BitVec 8

/-- An FP32 value as its bits (R92). -/
abbrev F32 := BitVec 32

/-- An FP16 or BF16 value as its bits (R92). -/
abbrev F16 := BitVec 16

/-- A byte memory: (address, byte) pairs at strictly rising addresses, none of them 0; an unlisted address reads 0. -/
abbrev Mem := List Host.Cell

/-- A sparse map from numbers: (key, value) pairs at strictly rising keys, none of them the map's default. -/
abbrev SMap (α : Type) := List (Nat × α)

end Sys2Proof
end

