-- ==== Sys2Proof/Syntax.lean ====
section
/-! DEFINITION. The commands of the block: one constructor of `Instr` per row of spec/opcode_table.json, with the row's
operands. Three kinds of operand occur: the fields of a host command, a transport message or a Terwen instruction; the
place an event happens at (a site, a port, a session); and what only the outside can supply (converter codes, measured
values, the outcome of a signature check, another device's message): see notes/assumptions/4.md. -/

namespace Sys2Proof

/-! ### Host commands -/

/-- What every host command carries beside its fields: the session it comes on and the tag that its answer echoes (R390). -/
structure Hdr where
  session : Nat
  tag : BitVec 16
  deriving DecidableEq, Repr

/-- *Submission fields* (R395), as the command carries them. -/
structure SubmitF where
  prio : BitVec 8
  kvPolicy : BitVec 8
  depthMax : BitVec 8
  pad : BitVec 8
  variant : BitVec 16
  topK : BitVec 16
  promptLen : BitVec 32
  maxNew : BitVec 32
  stop : BitVec 32
  ttft : BitVec 32
  itl : BitVec 32
  temp : F16
  topP : F16
  seed : BitVec 64
  deriving DecidableEq, Repr

/-- *VX-20 request record* (R285), 40 B. -/
structure Vx20Rec where
  version : BitVec 16
  prio : BitVec 8
  flags : BitVec 8
  request : BitVec 32
  promptLen : BitVec 32
  maxNew : BitVec 32
  stop : BitVec 32
  deadline : BitVec 32
  temp : F16
  topP : F16
  topK : BitVec 16
  pad : BitVec 16
  seed : BitVec 64
  deriving DecidableEq, Repr

/-- One layer of a steering variant: the scale α and the vector v (R283). -/
structure VarLayer where
  alpha : F32
  v : List F16
  deriving DecidableEq, Repr

/-- A certificate chain (R466, R469) and what its DER says: whether its X.509 signatures hold from the first certificate to the last anchor's
key, the public key of the first certificate, that of the anchor it ends at, and its Otost role extension. X.509 itself is outside the spec
(notes/assumptions/4.md). -/
structure Chain where
  der : List Byte
  valid : Bool
  key : Nat × Nat
  root : Nat × Nat
  ext : Option (List Byte)
  deriving DecidableEq, Repr

/-- One entry of *Anchor table* (R472). -/
structure AnchorEntry where
  roles : BitVec 8
  pad : BitVec 56
  key : BitVec 256
  deriving DecidableEq, Repr

/-- *Transition record* (R472): its fields, signer chain and signature. -/
structure LcRecord where
  magic : BitVec 16
  from_ : BitVec 8
  to_ : BitVec 8
  count : BitVec 32
  serial : BitVec 64
  hasTable : BitVec 8
  pad : BitVec 56
  table : List AnchorEntry
  chain : Chain
  sig : List Byte
  deriving DecidableEq, Repr

/-- A firmware image (R474): what its header says, whose layout the spec does not give (notes/assumptions/15.md), its signer chain, and all of
its bytes; no bytes while flash is being written. -/
structure FwImage where
  magic : BitVec 32
  format : Nat
  svn : Nat
  bodyLen : Nat
  entries : List Nat
  chain : Chain
  bytes : List Byte
  deriving DecidableEq, Repr

/-! ### Schedules and packages: what the staged bytes spell (notes/assumptions/5.md) -/

/-- The programs of one core in a schedule image: 128-bit words (R167, R189). -/
structure CoreProg where
  site : Nat
  normal : List (BitVec 128)
  wide : List (BitVec 128)
  wideBase : Nat
  deriving DecidableEq, Repr

/-- A reduction-table entry (R151): port codes 0 local, 1 north, 2 south, 3 east, 4 west. -/
structure RedNode where
  site : Nat
  tree : Nat
  parent : Nat
  order : List Nat
  deriving DecidableEq, Repr

/-- The destination every packet of one use of a tree carries (R157, R205). -/
structure RedUse where
  tree : Nat
  use : Nat
  tile : Nat
  seg : Nat
  flits : Nat
  deriving DecidableEq, Repr

/-- What a route table is indexed by (R28): a site of the device, another device, an HBM4 stack, the far-memory controllers from a
channel on, the host port. -/
inductive Dest where
  | site (n : Nat)
  | device (n : Nat)
  | stack (n : Nat)
  | far (channel : Nat)
  | host
  deriving DecidableEq, Repr

/-- A route-table entry (R28, R304): the output port of a router for a destination (5 the far port, R26), and the flow where it is a
flight port. -/
structure RouteEntry where
  site : Nat
  dest : Dest
  port : Nat
  flow : Nat
  deriving DecidableEq, Repr

/-- The tables that an image holds once per variant. -/
structure VariantTables where
  red : List RedNode
  uses : List RedUse
  routes : List RouteEntry
  deriving DecidableEq, Repr

/-- A run of the slot plan (R270), with the instance it is mapped to (R317). -/
structure PlanRun where
  prefill : Bool
  first : Nat
  len : Nat
  inst : Nat
  deriving DecidableEq, Repr

/-- A slot schedule entry (R303) of a port and variant: the word of *Slot schedule entry*. -/
structure SlotEntry where
  port : Nat
  wide : Bool
  word : BitVec 64
  deriving DecidableEq, Repr

/-- A tile recorded by the placement section for a logical array of a site (R75), with its placed outlier list (R202). -/
structure TilePlace where
  site : Nat
  la : Nat
  ww : Nat
  oaddr : Nat
  ocount : Nat
  deriving DecidableEq, Repr

/-- A streamed-tile image recorded by the placement section (R201); `tile` is the resident tile of the held package whose target-level
map is its source (R346), if it is one. -/
structure StreamPlace where
  addr : Nat
  ww : Nat
  tile : Option Nat
  oaddr : Nat
  ocount : Nat
  deriving DecidableEq, Repr

/-- The width recorded for an operand range (R76). -/
structure OpWidth where
  site : Nat
  addr : Nat
  bytes : Nat
  aw : Nat
  deriving DecidableEq, Repr

/-- KV geometry of a layer (R230) and its page stride (R228). -/
structure LayerGeom where
  layer : Nat
  heads : Nat
  dim : Nat
  stride : Nat
  deriving DecidableEq, Repr

/-- The core that owns a phase of a layer (R228). -/
structure PageOwner where
  layer : Nat
  phase : Nat
  dev : Nat
  site : Nat
  deriving DecidableEq, Repr

/-- What the image records of one device of the flight. -/
structure DevPlace where
  dev : Nat
  enabled : Nat
  shard : Nat
  inst : Nat
  nearGran : Nat
  farGran : Nat
  ptMib : Nat
  deriving DecidableEq, Repr

/-- The threshold of a layer tag on a core (R59). -/
structure LayerLim where
  site : Nat
  ltag : Nat
  limit : Nat
  deriving DecidableEq, Repr

/-- The capacity of the routed layer whose occupancy table lies at `occ` of a site (R182, R212). -/
structure ExpertCap where
  site : Nat
  occ : Nat
  cap : Nat
  deriving DecidableEq, Repr

/-- The fixed facts of the flight that an image names (R171, R185, R308, R317). -/
structure ImageHead where
  tag : Nat
  format : Nat
  device : Nat
  flightSize : Nat
  shape : Nat
  dims : Nat × Nat × Nat
  lenNormal : Nat
  lenWide : Nat
  sigOk : Bool
  entry : Nat
  exit : Nat
  root : Nat
  parentPort : Nat
  depth : Nat
  childPorts : List Nat
  barCut : Nat
  barFwd : Nat
  vocab : Nat
  layers : Nat
  hidden : Nat
  secure : Bool
  deriving DecidableEq, Repr

/-- A device's schedule image (*Sections of a device schedule image*). -/
structure Image where
  head : ImageHead
  cores : List CoreProg
  normal : VariantTables
  wide : VariantTables
  limits : List LayerLim
  caps : List ExpertCap
  slots : List SlotEntry
  plan : List PlanRun
  tiles : List TilePlace
  streams : List StreamPlace
  widths : List OpWidth
  geoms : List LayerGeom
  owners : List PageOwner
  devs : List DevPlace
  sampling : List Nat
  deriving DecidableEq, Repr

/-- An outlier list entry (R115). -/
structure Outlier where
  group : Nat
  col : Nat
  row : Nat
  value : Byte
  deriving DecidableEq, Repr

/-- The home of a tile (R334). -/
inductive Home where
  | resident (la : Nat)
  | near (addr : Nat)
  | far (addr : Nat)
  deriving DecidableEq, Repr

/-- A tile of a package: the shard that the placement map assigns it to, target levels (key 512 × row + column), master weights (key 1,024 × column
+ row, two's complement), outlier list, weight scales per output column. -/
structure Tile where
  shard : Nat
  lcore : Nat
  home : Home
  ww : Nat
  ltag : Nat
  levels : Mem
  master : Mem
  outliers : List Outlier
  oaddr : Nat
  wscale : SMap F16
  deriving DecidableEq, Repr

/-- A block of a package that the device has (*Block types*): its type, its shard (0xFFFF common), the SM3 of its ciphertext, which the index
gives. -/
structure PkgBlock where
  typ : Nat
  shard : Nat
  digest : BitVec 256
  deriving DecidableEq, Repr

/-- The rotation seeds of a layer in block order, and where their near-memory copy lies (R84, R85, R88, R333). -/
structure SeedList where
  layer : Nat
  addr : Nat
  words : List (BitVec 64)
  deriving DecidableEq, Repr

/-- A package as the loader has opened it for this device (R329 to R331): the header's numbers, the blocks that the device has, reference digests
by shard (one for version 1), the digest of what was delivered (R470), and what its plaintexts hold (`tables` are the constants that are
activation and KV scale tables); `fits` is as in `PkgFile`. -/
structure Package where
  version : Nat
  fmtLevel : Nat
  pkgId : BitVec 64
  shard : Nat
  blocks : List PkgBlock
  fits : Bool
  refs : List (Nat × BitVec 256)
  delivered : BitVec 256
  seeds : List SeedList
  rotations : List (Nat × Nat)
  tiles : List Tile
  constants : List (Nat × List Byte)
  tables : List Nat
  deriving DecidableEq, Repr

/-- Where a part of a package lies in the staged bytes. -/
structure Part where
  off : Nat
  len : Nat
  deriving DecidableEq, Repr

/-- A place in the plaintext of a block: the block by its place in the index, the offset. -/
structure InBlock where
  block : Nat
  off : Nat
  deriving DecidableEq, Repr

/-- The header of *Model package* (R329, R331), whose byte layout the spec does not give: its numbers, the parts, its reserved bytes. -/
structure PkgHead where
  version : Nat
  pkgId : BitVec 64
  shards : Nat
  blocks : Nat
  fmtLevel : Nat
  refs : Part
  index : Part
  envelopes : Part
  sig : Part
  reserved : List Byte
  deriving DecidableEq, Repr

/-- What the placement map says of a tile (*Block types*, type 1): shard, logical core, home, weight width, layer tag, and where in the other
blocks its levels, its master weights, its outlier list with the number of entries, and its weight scales lie. -/
structure MapTile where
  shard : Nat
  lcore : Nat
  home : Home
  ww : Nat
  ltag : Nat
  levels : InBlock
  master : InBlock
  olist : InBlock
  ocount : Nat
  oaddr : Nat
  scales : InBlock
  deriving DecidableEq, Repr

/-- The seeds of a layer (*Block types*, type 7): where their near-memory copy lies, where they lie in the package, how many. -/
structure MapSeeds where
  layer : Nat
  addr : Nat
  at_ : InBlock
  count : Nat
  deriving DecidableEq, Repr

/-- A layer constant (*Block types*, type 6): its near-memory address, where it lies in the package, its length. -/
structure MapConst where
  addr : Nat
  at_ : InBlock
  len : Nat
  deriving DecidableEq, Repr

/-- How the staged bytes of a package are read where the spec gives no byte layout (notes/assumptions/5.md): the header, what the signer's
certificates say, what the placement map spells, the rotated widths with their divisors (R84), the constants that are scale tables, and
whether the blocks fit a generation slot, whose size the spec does not state. -/
structure PkgFile where
  head : PkgHead
  signer : Chain
  fits : Bool
  tiles : List MapTile
  seeds : List MapSeeds
  rotations : List (Nat × Nat)
  constants : List MapConst
  tables : List Nat
  deriving DecidableEq, Repr

/-! ### Transport -/

/-- *Transport header* (R382), and the encapsulation and the host address that the message came with (R381). -/
structure MsgHdr where
  ver : BitVec 8
  typ : Nat
  stream : Nat
  flags : BitVec 8
  session : Nat
  len : Nat
  seq : Nat
  ack : Nat
  sack : BitVec 64
  udp : Bool
  host : BitVec 128
  deriving DecidableEq, Repr

/-- The role of a peer's certificate (R386, R469). -/
inductive Role where
  | operator
  | tenant (t : Nat)
  deriving DecidableEq, Repr

/-- A HELLO (R384): the versions offered, the chain, the ephemeral point, the nonce, and the encapsulation and the host address it came
with. -/
structure Hello where
  versions : List Byte
  chain : Chain
  eph : List Byte
  nonce : BitVec 256
  udp : Bool
  host : BitVec 128
  deriving DecidableEq, Repr

/-- A received Ethernet frame as the MAC sees it (R380, R381), with the FEC codewords corrected and uncorrectable that it came in (R377). -/
structure Frame where
  dst : BitVec 48
  etype : BitVec 16
  len : Nat
  fcsOk : Bool
  isPause : Bool
  isPfc : Bool
  ipDst : BitVec 128
  ipExt : Bool
  ipProto : Nat
  icmpType : Nat
  udpPort : Nat
  fecCorr : Nat
  fecUncorr : Nat
  deriving DecidableEq, Repr

/-! ### Network, reduction and flight messages -/

/-- A network packet (R177): destination counter and address, data, the codewords of it that carry poison, the two
lockage bits of R305, and whether the security block sent it (R372). -/
structure Packet where
  sig : Nat
  addr : Nat
  data : List Byte
  poison : List Nat
  secure : Bool
  /-- A core write reaches the same word in the same cycle (R365). -/
  conflict : Bool
  deriving DecidableEq, Repr

/-- One data flit of a reduction packet with its packet's header (R153). -/
structure RedFlit where
  tree : Nat
  use : Nat
  tile : Nat
  seg : Nat
  flits : Nat
  k : Nat
  pairs : List (F32 × F32)
  deriving DecidableEq, Repr

/-- *Vote flags* (R309). -/
structure VoteFlags where
  wide : Bool
  throttle : Bool
  halt : Bool
  incomplete : Bool
  deriving DecidableEq, Repr

/-- An end cause for a barge (R268): the index, the status code of R261, and the steering variant that came poisoned (R284; 0 for none). -/
structure EndCause where
  barge : Nat
  status : Nat
  variant : Nat
  deriving DecidableEq, Repr

/-- A reduction node that faces a flight port (R172): variant, tree, the port, whether the port leads to its parent (or to a child), and
the flight port by which its tree leaves the device toward the root (none where its climb ends on the device). -/
structure FaceNode where
  wide : Bool
  tree : Nat
  port : Nat
  up : Bool
  leaves : Option Nat
  deriving DecidableEq, Repr

/-- What a device reports with its arrival: the staged schedule tag (R172; 0 where none is valid) with the roots of its trees (variant, tree) and
the nodes of its routers that face a flight port, the generations that it holds staged, each with whether its programming has stopped (R342), those
that its slots hold in `STAGED`, `PROGRAMMING` or `HELD` (R283), the preconditions of R336, a maintenance in progress, whether the programming of
the replacement has completed (R343) and whether a tile found no array (R339), the generation that its arrays hold and that serves (0 for none), and
whether a slot's contents are absent (R338). -/
structure DevReport where
  dev : Nat
  tag : Nat
  roots : List (Bool × Nat)
  faces : List FaceNode
  gens : List (Nat × Bool)
  slots : List Nat
  temp : Bool
  holdup : Bool
  maint : Bool
  done : Bool
  unplaced : Bool
  held : Nat
  absent : Bool
  deriving DecidableEq, Repr

/-- A barrier arrival (R309): flags, children missing, end causes, the reports of the devices below. -/
structure Arrival where
  flags : VoteFlags
  missing : Nat
  causes : List EndCause
  reports : List DevReport
  deriving DecidableEq, Repr

/-- The release (R311): boundary time, variant, stretch factor (0 for none), halt, grace, persistent-WIDE, the ORed flags and the
children missing (*FLK_VOTE*), expulsions and returns of devices (R321, R322), end causes, and the reports on which every device
checks an activation and a commit (R172, R342). -/
structure Release where
  time : Nat
  wide : Bool
  stretch : Nat
  halt : Bool
  grace : Bool
  persist : Bool
  flags : VoteFlags
  missing : Nat
  expel : List Nat
  rejoin : List Nat
  causes : List EndCause
  reports : List DevReport
  deriving DecidableEq, Repr

/-- The acceptance of one barge's step as the exit device broadcasts it (R266). -/
structure Accept where
  barge : Nat
  a : Nat
  depth : Nat
  tokens : List (BitVec 32)
  processed : Nat
  noToken : Bool
  deriving DecidableEq, Repr

/-- What a command of the flight asks (R172, R243, R267, R278, R279, R283, R342, R389); `compat` is the request number of a VX-20 record (R285). -/
inductive BargeCmd where
  | submit (f : SubmitF) (prompt : List (BitVec 32)) (compat : Option (BitVec 32))
  | cancel (i : Nat)
  | park (i : Nat)
  | resume (i : Nat)
  | prefixMap (donor recipient p : Nat)
  | trim (i t : Nat)
  | release (i : Nat)
  | varLoad (i gen : Nat) (data : List VarLayer)
  | varUnload (i : Nat)
  | commit (gen : Nat) (retire : Bool) (mask timeout : Nat) (tag : Option Nat)
  | activate (tag lockage : Nat)
  | close (session : Nat)
  deriving DecidableEq, Repr

/-- A staged command of the flight with the session that sent it (R265). -/
structure Staged where
  session : Nat
  tag : BitVec 16
  tenant : Nat
  body : BargeCmd
  deriving DecidableEq, Repr

/-- A device's digest message (R320). -/
structure DigestMsg where
  dev : Nat
  shard : Nat
  inst : Nat
  gen : Nat
  round : Nat
  dW : BitVec 256
  dV : BitVec 256
  derived : Option (BitVec 256)
  deriving DecidableEq, Repr

/-- The time-stamp exchange of a correction (R301), by the device's time base in 1/16 ns: when the parent's reply came, when the next request
leaves. -/
structure TimeStamps where
  received : Nat
  next : Nat
  deriving DecidableEq, Repr

/-- What the entry device tells the exit device of a flight session (R383): number, tenant, version, encapsulation and host address, the key
and the IV of the output stream. -/
structure FlightSession where
  number : Nat
  tenant : Nat
  ver : BitVec 8
  udp : Bool
  host : BitVec 128
  key : List Byte
  iv : List Byte
  deriving DecidableEq, Repr

/-- What a control message carries (R306). `closed` tells the entry device that the exit device has closed a flight session (R398). A time stamp
holds when the request left by the child's time base and, in the reply, the parent's time, both in 1/16 ns (R301). -/
inductive CtlBody where
  | arrival (a : Arrival)
  | release (r : Release)
  | timestamp (sent : Nat) (parent : Option Nat)
  | acceptance (l : List Accept)
  | commands (l : List Staged)
  | digest (d : DigestMsg)
  | lane (lane : Nat) (atOnce : Bool)
  | session (n : FlightSession)
  | closed (session : Nat)
  deriving DecidableEq, Repr

/-- A control message (R296): its sequence number, the last number it acknowledges, the flight key under which it is sealed where its body is
one that R478 protects, its body. -/
structure CtlMsg where
  seq : BitVec 8
  ack : BitVec 8
  key : Option (BitVec 128)
  body : CtlBody
  deriving DecidableEq, Repr

/-- A bulk packet that ends in a received frame (R295, R304, R305): the flow of its slots, the frames before this one that hold bytes of
it, its destination. -/
structure BulkPacket where
  lockage : BitVec 2
  flow : Nat
  before : Nat
  crcOk : Bool
  dev : Nat
  site : Nat
  pkt : Packet
  deriving DecidableEq, Repr

/-- A frame as received (R294, R295): its 3,840 bytes before correction, the bytes on the spare lane, and what its slots spell once it is
corrected: the control slot's message and the bulk packets that end in the frame. -/
structure FlightFrame where
  bytes : List Byte
  spare : List Byte
  ctl : Option CtlMsg
  bulk : List BulkPacket
  deriving DecidableEq, Repr

/-! ### Calibration and sensing -/

/-- *Correction table entry* (R112). -/
structure CorrEntry where
  gain1 : F16
  gain2 : F16
  gain4 : F16
  off1 : F16
  off2 : F16
  off4 : F16
  wscale : F16
  sigma : F16
  deriving DecidableEq, Repr

/-- What the calibration of a physical column found (R431, R432): the trim code that the reference asks for, which may lie outside its range,
and the gain error at midscale trim in 1/10,000. -/
structure ColFound where
  col : Nat
  trim : Int
  gainErr : Int
  deriving DecidableEq, Repr

/-- What the calibration of a converter found (R431, R434): the reference and offset trims asked for, which may lie outside their range, and its
DNL in 1/1,000 LSB. -/
structure ConvFound where
  k : Nat
  ref : Int
  off : Int
  dnl : Nat
  deriving DecidableEq, Repr

/-- What a calibration of one array measured (R434): its physical columns, its converters, the correction entries per physical column, the
mean column gain now. -/
structure ArrayCal where
  site : Nat
  arr : Nat
  cols : List ColFound
  convs : List ConvFound
  entries : SMap CorrEntry
  meanGain : F32
  deriving DecidableEq, Repr

/-- A housekeeping sample (R444): channel and 14-bit code. -/
structure Sample where
  chan : Nat
  code : BitVec 14
  deriving DecidableEq, Repr

/-- The readings of one system scan (R445, R449): the 32 conversions of the on-die diodes, two of each in channel order, the temperatures
formed in 1/16 °C of channels 0 to 17, and the codes of channels 22 to 31. -/
structure Scan where
  raw : List (BitVec 14)
  diodes : List Int
  codes : List (BitVec 14)
  deriving DecidableEq, Repr

/-- What the boot's tests find (R476, R477): the collector's self-test and the health test of the random source pass, the management set is complete
(R424). -/
structure BootTest where
  collector : Bool
  random : Bool
  managed : Bool
  deriving DecidableEq, Repr

/-- A verify failure of array programming (R339): a cell at a logical row and column. -/
structure VerifyFail where
  row : Nat
  col : Nat
  deriving DecidableEq, Repr

/-- The start of a die's wave (R335): the die, and whether the target levels of the wave come poisoned (R343, R361). -/
structure WaveRun where
  die : Nat
  poisoned : Bool
  deriving DecidableEq, Repr

/-- How the programming of one tile went (R339): the cells that failed verification, or that its target levels came poisoned (R361), so that
nothing was programmed. -/
structure TileRun where
  fails : List VerifyFail
  poisoned : Bool
  deriving DecidableEq, Repr

/-- The copy of a maintenance (R345): the calibration of the spare and how its programming went. -/
structure MaintCopy where
  cal : ArrayCal
  run : TileRun
  deriving DecidableEq, Repr

/-- How step 3 of a maintenance went (R345): the cells of a rewrite that failed verification (R339); its target levels came poisoned
(R361). -/
structure MaintEnd where
  fails : List VerifyFail
  poisoned : Bool
  deriving DecidableEq, Repr

/-- What identifies a neighbour in formation (R478): its chain and its `SEC_ANCHOR_DIGEST`. -/
structure PeerId where
  chain : Chain
  anchors : BitVec 256
  deriving DecidableEq, Repr

/-- What the root sends as formation completes: its time base (R301), and the flight key encrypted to this device (R478). -/
structure FormRoot where
  time : Nat
  key : List Byte
  deriving DecidableEq, Repr

/-- A control message that is resent (R296): the port and the sequence number. -/
structure Resend where
  port : Nat
  seq : BitVec 8
  deriving DecidableEq, Repr

/-! ### Terwen operands -/

/-- The fields every instruction carries (R189), and the site of the core that issues it. -/
structure Issue where
  site : Nat
  pred : BitVec 4
  lvl : BitVec 2
  aff : Bool
  deriving DecidableEq, Repr

/-- *Format E*. -/
structure EvalF where
  amask : BitVec 18
  ww : BitVec 3
  aw : BitVec 3
  sc : BitVec 2
  dr : Bool
  half : Bool
  ltag : BitVec 8
  tile : BitVec 7
  tstep : BitVec 4
  zt : Bool
  opa : BitVec 20
  ops : BitVec 16
  deriving DecidableEq, Repr

/-- *Format F*. -/
structure FillF where
  la : BitVec 5
  mstr : BitVec 32
  mbase : BitVec 48
  deriving DecidableEq, Repr

/-- *Format D*. -/
structure DescF where
  la : BitVec 5
  ww : BitVec 3
  oaddr : BitVec 14
  ocount : BitVec 13
  deriving DecidableEq, Repr

/-- *Format A*. -/
structure AccF where
  td : BitVec 7
  ta : BitVec 7
  tstep : BitVec 4
  vr : BitVec 5
  q : BitVec 2
  fmt : BitVec 3
  dsel : Bool
  spa : BitVec 20
  sps : BitVec 16
  tree : BitVec 8
  use : BitVec 8
  ustep : BitVec 4
  flm1 : BitVec 3
  segq : BitVec 3
  deriving DecidableEq, Repr

/-- *Format V*; bits [99:64] hold either `IMM32` or `SPA` and `SPS`. -/
structure VecF where
  vd : BitVec 5
  va : BitVec 5
  vb : BitVec 5
  vc : BitVec 5
  nm1 : BitVec 5
  t : BitVec 3
  t2 : BitVec 3
  aux : BitVec 9
  hi : BitVec 36
  deriving DecidableEq, Repr

/-- *Format X*. -/
structure RouteF where
  xm1 : BitVec 10
  km1 : BitVec 3
  t0 : BitVec 10
  ntm1 : BitVec 10
  scores : BitVec 20
  out : BitVec 20
  occ : BitVec 20
  deriving DecidableEq, Repr

/-- `LDV`, `STV`, `LDG`, `STG` (*Move and network fields*). -/
structure LdStF where
  reg : BitVec 5
  nm1 : BitVec 5
  spa : BitVec 20
  sps : BitVec 16
  deriving DecidableEq, Repr

/-- `COPY`. -/
structure CopyF where
  gm1 : BitVec 11
  dst : BitVec 20
  dsts : BitVec 16
  spa : BitVec 20
  sps : BitVec 16
  deriving DecidableEq, Repr

/-- `MRD`, `MWR`. -/
structure MemF where
  sig : BitVec 4
  gm1 : BitVec 14
  sp : BitVec 20
  sstep : BitVec 10
  mbase : BitVec 48
  mstep : BitVec 16
  deriving DecidableEq, Repr

/-- `MGATH`. -/
structure GathF where
  sig : BitVec 4
  rm1 : BitVec 10
  idx : BitVec 20
  rgm1 : BitVec 10
  mbase : BitVec 48
  dst : BitVec 14
  deriving DecidableEq, Repr

/-- `NRECV`. -/
structure RecvF where
  sig : BitVec 4
  expect : BitVec 16
  gm1 : BitVec 14
  spa : BitVec 20
  sps : BitVec 16
  deriving DecidableEq, Repr

/-- `NSEND`. -/
structure SendF where
  dcnt : BitVec 4
  ddev : BitVec 9
  dcore : BitVec 9
  gm1 : BitVec 14
  spa : BitVec 20
  sps : BitVec 16
  dst : BitVec 20
  deriving DecidableEq, Repr

/-- *Format T*. -/
structure AttF where
  gs : BitVec 5
  layer : BitVec 8
  kvh : BitVec 4
  gm1 : BitVec 4
  dh : BitVec 2
  poff : BitVec 12
  psm1 : BitVec 10
  a : BitVec 20
  b : BitVec 20
  pph : BitVec 10
  imm : BitVec 14
  deriving DecidableEq, Repr

/-- *Format B*. -/
structure BrgF where
  gd : BitVec 5
  gs : BitVec 5
  pd : BitVec 3
  slot : BitVec 10
  srcg : Bool
  sstep : BitVec 4
  x8 : BitVec 8
  x12 : BitVec 12
  a : BitVec 20
  b : BitVec 20
  deriving DecidableEq, Repr

/-- Which memory a scrub or a reload concerns. -/
inductive Region where
  | near
  | far
  | spm (site : Nat)
  deriving DecidableEq, Repr

/-- The block a reload from the package copy brings back (R361, R363): a tile's master weights or target levels, or a
block of constants. -/
inductive ReloadKind where
  | master (tile : Nat)
  | levels (tile : Nat)
  | constants (n : Nat)
  deriving DecidableEq, Repr

/-- How a reload ends: the block is reloaded, or the copy reads poisoned, or its tag fails (R363). -/
inductive ReloadEnd where
  | done
  | poison
  | badTag
  deriving DecidableEq, Repr

/-! ### The commands -/

/-- The commands of the block, in the order of spec/opcode_table.json. -/
inductive Instr where
  | regRead (h : Hdr) (addr count : Nat)
  | regWrite (h : Hdr) (addr count : Nat) (words : List (BitVec 32))
  | stageOpen (h : Hdr) (kind size : Nat)
  | stageData (h : Hdr) (kind offset : Nat) (bytes : List Byte)
  | stageClose (h : Hdr) (kind : Nat) (digest : BitVec 256)
  | form (h : Hdr)
  | formationTrainTimeout
  | schedValidate (h : Hdr)
  | schedValidationDone (img : Image)
  | schedActivate (h : Hdr) (tag lockage : Nat)
  | pkgLoad (h : Hdr) (gen shard : Nat)
  | pkgLoadDone (pkg : PkgFile)
  | genDiscard (h : Hdr) (slot : Nat)
  | genCommit (h : Hdr) (gen mode mask timeout tagValid tag : Nat)
  | drainTimeout
  | waveStart (run : WaveRun)
  | wavePreconditionRecheck (die : Nat)
  | progWaitTimeout (die : Nat)
  | arrayProgramDone (site arr : Nat) (fails : List VerifyFail)
  | spareTileStep (site : Nat) (run : TileRun)
  | arrayMaint (h : Hdr) (lcore la action : Nat)
  | maintCopyDone (copy : MaintCopy)
  | maintStep3Done (cal : ArrayCal) (run : MaintEnd)
  | submit (h : Hdr) (f : SubmitF) (prompt : List (BitVec 32))
  | cancel (h : Hdr) (index : Nat)
  | park (h : Hdr) (index : Nat)
  | resume (h : Hdr) (index : Nat)
  | prefixMap (h : Hdr) (donor recipient p : Nat)
  | trim (h : Hdr) (index t : Nat)
  | release (h : Hdr) (index : Nat)
  | varLoad (h : Hdr) (index gen layers length : Nat) (data : List VarLayer)
  | varUnload (h : Hdr) (index : Nat)
  | power (h : Hdr) (state : Nat)
  | powerStateEntry
  | elapsed (h : Hdr) (seconds : Nat)
  | calibrate (h : Hdr) (scope site : Nat)
  | calibrationDone (cals : List ArrayCal) (bandgap : List Int)
  | fence (h : Hdr) (site kind : Nat)
  | selfTest (h : Hdr) (site unit : Nat)
  | sluiceSelfTestDone (site : Nat) (pass : Bool)
  | sigRead (h : Hdr) (first count : Nat)
  | attest (h : Hdr) (nonce : BitVec 256)
  | lifecycle (h : Hdr) (r : LcRecord)
  | fwInstall (h : Hdr) (img : FwImage)
  | fwInstallDone (readBackOk : Bool)
  | vx20Request (h : Hdr) (r : Vx20Rec) (prompt : List (BitVec 32))
  | vx20Abort (h : Hdr) (request : BitVec 32)
  | vx20RegRead (h : Hdr) (addr count : Nat)
  | hello (m : Hello)
  | confirm (session : Nat) (sA : List Byte)
  | confirmTimeout (session : Nat)
  | data (m : MsgHdr) (tag : List Byte) (payload : List Byte)
  | ack (m : MsgHdr) (tag : List Byte)
  | probe (m : MsgHdr) (tag : List Byte)
  | close (m : MsgHdr) (tag : List Byte) (payload : List Byte)
  | ackTimer (session stream : Nat)
  | retransmitTimeout (session stream seq : Nat)
  | idleTimeout (session : Nat)
  | linkHoldTimeout
  | hostFrameReceive (f : Frame)
  | neighborSolicitation (target : BitVec 128)
  | echoRequest (dst : BitVec 128)
  | hostLaneFailure (lane : Nat)
  | hostLinkDown
  | aryConvRotWrite (site : Nat)
  | flkHaltReqWrite
  | fclChipResetWrite (key : BitVec 16)
  | pendingClear (n : Nat)
  | fclSrcCfgWrite (n : Nat) (value : BitVec 32)
  | fclSigEraseWrite (n : BitVec 32)
  | hptRetrainWrite
  | spmPwrWrite (site : Nat) (mode : BitVec 2)
  | marchDestructive (site : Nat)
  | marchPreserving (site : Nat)
  | marchTestDone (site : Nat) (fails : List Nat)
  | hkaQueueRead
  | errorCounterRead (addr : Nat)
  | registerWrite (addr : Nat) (value : BitVec 64)
  | nop (c : Issue)
  | loop (c : Issue) (trip : BitVec 16) (body : BitVec 12)
  | barrier (c : Issue)
  | wopen (c : Issue)
  | wclose (c : Issue)
  | waits (c : Issue) (k : BitVec 4)
  | waitr (c : Issue) (tree use : BitVec 8) (ustep : BitVec 4)
  | lidx (c : Issue) (gd : BitVec 5)
  | sysv (c : Issue) (gd : BitVec 5) (index : BitVec 8)
  | li (c : Issue) (gd : BitVec 5) (imm : BitVec 64)
  | add (c : Issue) (gd ga gb : BitVec 5)
  | addi (c : Issue) (gd ga : BitVec 5) (imm : BitVec 64)
  | sub (c : Issue) (gd ga gb : BitVec 5)
  | mul (c : Issue) (gd ga gb : BitVec 5)
  | and (c : Issue) (gd ga gb : BitVec 5)
  | or (c : Issue) (gd ga gb : BitVec 5)
  | xor (c : Issue) (gd ga gb : BitVec 5)
  | shl (c : Issue) (gd ga : BitVec 5) (sh : BitVec 6)
  | shr (c : Issue) (gd ga : BitVec 5) (sh : BitVec 6)
  | sar (c : Issue) (gd ga : BitVec 5) (sh : BitVec 6)
  | cmp (c : Issue) (pd : BitVec 3) (ga gb : BitVec 5) (fn : BitVec 4)
  | cmpi (c : Issue) (pd : BitVec 3) (ga : BitVec 5) (imm : BitVec 64) (fn : BitVec 4)
  | plog (c : Issue) (pd pa pb : BitVec 3) (fn : BitVec 4)
  | eval (c : Issue) (f : EvalF)
  | fill (c : Issue) (f : FillF) (tagFails : List Nat)
  | fillDone (site la : Nat)
  | sdesc (c : Issue) (f : DescF)
  | aclr (c : Issue) (f : AccF)
  | amrg (c : Issue) (f : AccF)
  | aaddv (c : Issue) (f : AccF)
  | asetv (c : Issue) (f : AccF)
  | aldv (c : Issue) (f : AccF)
  | astv (c : Issue) (f : AccF)
  | alds (c : Issue) (f : AccF)
  | asts (c : Issue) (f : AccF)
  | ares (c : Issue) (f : AccF)
  | rsend (c : Issue) (f : AccF)
  | vadd (c : Issue) (f : VecF)
  | vsub (c : Issue) (f : VecF)
  | vmul (c : Issue) (f : VecF)
  | vfma (c : Issue) (f : VecF)
  | vmax (c : Issue) (f : VecF)
  | vmin (c : Issue) (f : VecF)
  | vadds (c : Issue) (f : VecF)
  | vmuls (c : Issue) (f : VecF)
  | vabs (c : Issue) (f : VecF)
  | vneg (c : Issue) (f : VecF)
  | vcvt (c : Issue) (f : VecF)
  | vexp (c : Issue) (f : VecF)
  | vrcp (c : Issue) (f : VecF)
  | vrsq (c : Issue) (f : VecF)
  | vsilu (c : Issue) (f : VecF)
  | vsigm (c : Issue) (f : VecF)
  | vsum (c : Issue) (f : VecF)
  | vmaxr (c : Issue) (f : VecF)
  | vtopk (c : Issue) (f : VecF)
  | vrms (c : Issue) (f : VecF)
  | vrope (c : Issue) (f : VecF)
  | vhad (c : Issue) (f : VecF)
  | vqnt (c : Issue) (f : VecF)
  | vbc (c : Issue) (f : VecF)
  | vroute (c : Issue) (f : RouteF)
  | ldv (c : Issue) (f : LdStF)
  | stv (c : Issue) (f : LdStF)
  | ldg (c : Issue) (f : LdStF)
  | stg (c : Issue) (f : LdStF)
  | copy (c : Issue) (f : CopyF)
  | mrd (c : Issue) (f : MemF)
  | mwr (c : Issue) (f : MemF)
  | mgath (c : Issue) (f : GathF)
  | nrecv (c : Issue) (f : RecvF)
  | nsend (c : Issue) (f : SendF)
  | attKvw (c : Issue) (f : AttF)
  | attRun (c : Issue) (f : AttF) (tagFails : List Nat)
  | attMrg (c : Issue) (f : AttF)
  | attFin (c : Issue) (f : AttF)
  | attRcmp (c : Issue) (f : AttF)
  | brgSlot (c : Issue) (f : BrgF)
  | brgInfo (c : Issue) (f : BrgF)
  | brgVar (c : Issue) (f : BrgF)
  | brgSamp (c : Issue) (f : BrgF)
  | brgAcpt (c : Issue) (f : BrgF)
  | brgEmit (c : Issue) (f : BrgF)
  | sluiceCorrection (site : Nat) (codes : List Byte) (checkDelta : Int)
  | masterColumnArrival (site arr : Nat) (poisoned : Bool)
  | arbitrationStart (site : Nat)
  | peerCheck (site : Nat) (poisoned : Bool) (checkDelta : Int)
  | arbitrationVerdict (site : Nat) (codes : List Byte)
  | spareProgramDone (site arr : Nat)
  | convHandover (site arr : Nat) (relieved : ConvFound)
  | netPacketArrival (site : Nat) (p : Packet)
  | reductionFlitArrival (site port : Nat) (f : RedFlit)
  | barrierArrivalSend
  | barrierForwardDeadline
  | rootDecision
  | barrierCutoff
  | releaseReceive (r : Release)
  | barrierLost
  | lockageBoundary
  | spillCopyDone (barge layer page : Nat)
  | restoreCopyDone (barge layer page : Nat) (tagFails : List Nat)
  | graceQuantumEnd
  | collectorCopyMismatch
  | signatureCommit
  | cpMismatch (pair : Nat)
  | cpSelfTestDone (pair : Nat) (pass0 pass1 : Bool)
  | cpPeriodicSelfTest (pair : Nat) (pass : Bool)
  | flightFrameReceive (port : Nat) (f : FlightFrame)
  | controlMessageReceive (port : Nat) (m : CtlMsg)
  | controlRetransmit (m : Resend)
  | laneCorrectionCheck (port lane corrected : Nat)
  | laneLockLoss (port lane : Nat)
  | timeBaseCorrection (x : TimeStamps)
  | digestRoundStart
  | digestReady (ready : Bool)
  | digestCompare (msgs : List DigestMsg)
  | boot (found : BootTest) (fwOk : Bool) (img : FwImage) (failStacks failChannels : List Nat) (marchFails : List (Nat × List Nat))
      (external : List Nat) (badRecord : List Nat)
  | pwrEnRise
  | pwrEnFall
  | resetNAssert
  | resetNRelease
  | vinInRange
  | vinUndervoltage
  | vinOvervoltage
  | pwmSyncLock (khz : Nat)
  | pwmSyncLoss
  | tamper (cause : BitVec 3)
  | rngHealthFail
  | systemScan (sc : Scan)
  | hkaTimerTrigger (samples : List Sample) (pending : Bool)
  | hkaPwmTrigger (samples : List Sample) (pending : Bool)
  | hkaStageRotation (pass : Bool)
  | diodeCheck
  | ageTick
  | ageRecordCommit
  | ageEstimation (gains : List (Nat × Nat × F32))
  | calStatsFit (site arr col : Nat)
  | calBatchCommit (badReadBack : List Nat)
  | holdupCapMeasure (drop : BitVec 16)
  | patrolScrub (r : Region) (addr : Nat) (err : BitVec 80)
  | blockReloadDone (slot : Nat) (k : ReloadKind) (e : ReloadEnd)
  | stackFailure (stack : Nat)
  | channelFailure (channel : Nat)
  | hostLinkUp (pmd : Nat)
  | flightPortTrained (port peerDev peerPort : Nat) (peer : PeerId) (cap : BitVec 32) (root : FormRoot)
  | rngHealthRecovery
  deriving DecidableEq, Repr

end Sys2Proof
end

