-- ==== Sys2Proof/WellFormed.lean ====
section
/-! DEFINITION. Well-formed commands: the places that a command names exist on the device, and a list has the length the command
gives. Every meaning answers for ill-formed commands too, as notes/assumptions/7.md says. -/

namespace Sys2Proof

/-- A site of the two dies (R10). -/
def siteOk (n : Nat) : Bool := decide (n < 544)

/-- A physical array of a core: 16 resident arrays, the spare, two streamed arrays (R163, R164). -/
def arrOk (n : Nat) : Bool := decide (n < 19)

/-- A streamed logical array (R163). -/
def streamOk (la : Nat) : Bool := la == 16 || la == 17

/-- A physical column, spare columns included (R39). -/
def colOk (n : Nat) : Bool := decide (n < 528)

/-- A flight port (R289). -/
def portOk (n : Nat) : Bool := decide (n < 6)

/-- A port code of a router (R151). -/
def meshPortOk (n : Nat) : Bool := decide (n < 5)

/-- A lane of a flight port: eight working lanes and the spare (R292). -/
def laneOk (n : Nat) : Bool := decide (n < 9)

/-- A lane of the host port (R377). -/
def hostLaneOk (n : Nat) : Bool := decide (n < 8)

/-- One of the two dies (R10). -/
def dieOk (n : Nat) : Bool := decide (n < 2)

/-- A near-memory stack (R349). -/
def stackOk (n : Nat) : Bool := decide (n < 8)

/-- A far-memory channel (R353). -/
def channelOk (n : Nat) : Bool := decide (n < 32)

/-- A control pair (R422). -/
def pairOk (n : Nat) : Bool := decide (n < 4)

/-- The words of a register write, as many as it names (R393). -/
def wordsOk (count : Nat) (words : List (BitVec 32)) : Bool := decide (words.length = count)

/-- Whether a command is well formed. -/
def wellFormed (i : Instr) : Bool :=
  match i with
  | .regRead _ _ _ => true
  | .regWrite _ _ count words => wordsOk count words
  | .stageOpen _ _ _ => true
  | .stageData _ _ _ _ => true
  | .stageClose _ _ _ => true
  | .form _ => true
  | .formationTrainTimeout => true
  | .schedValidate _ => true
  | .schedValidationDone _ => true
  | .schedActivate _ _ _ => true
  | .pkgLoad _ _ _ => true
  | .pkgLoadDone _ => true
  | .genDiscard _ _ => true
  | .genCommit _ _ _ _ _ _ _ => true
  | .drainTimeout => true
  | .waveStart run => dieOk run.die
  | .wavePreconditionRecheck die => dieOk die
  | .progWaitTimeout die => dieOk die
  | .arrayProgramDone site arr _ => siteOk site && arrOk arr
  | .spareTileStep site _ => siteOk site
  | .arrayMaint _ _ _ _ => true
  | .maintCopyDone _ => true
  | .maintStep3Done _ _ => true
  | .submit _ _ _ => true
  | .cancel _ _ => true
  | .park _ _ => true
  | .resume _ _ => true
  | .prefixMap _ _ _ _ => true
  | .trim _ _ _ => true
  | .release _ _ => true
  | .varLoad _ _ _ _ _ _ => true
  | .varUnload _ _ => true
  | .power _ _ => true
  | .powerStateEntry => true
  | .elapsed _ _ => true
  | .calibrate _ _ _ => true
  | .calibrationDone _ _ => true
  | .fence _ _ _ => true
  | .selfTest _ _ _ => true
  | .sluiceSelfTestDone site _ => siteOk site
  | .sigRead _ _ _ => true
  | .attest _ _ => true
  | .lifecycle _ _ => true
  | .fwInstall _ _ => true
  | .fwInstallDone _ => true
  | .vx20Request _ _ _ => true
  | .vx20Abort _ _ => true
  | .vx20RegRead _ _ _ => true
  | .hello _ => true
  | .confirm _ _ => true
  | .confirmTimeout _ => true
  | .data _ _ _ => true
  | .ack _ _ => true
  | .probe _ _ => true
  | .close _ _ _ => true
  | .ackTimer _ _ => true
  | .retransmitTimeout _ _ _ => true
  | .idleTimeout _ => true
  | .linkHoldTimeout => true
  | .hostFrameReceive _ => true
  | .neighborSolicitation _ => true
  | .echoRequest _ => true
  | .hostLaneFailure lane => hostLaneOk lane
  | .hostLinkDown => true
  | .aryConvRotWrite site => siteOk site
  | .flkHaltReqWrite => true
  | .fclChipResetWrite _ => true
  | .pendingClear _ => true
  | .fclSrcCfgWrite _ _ => true
  | .fclSigEraseWrite _ => true
  | .hptRetrainWrite => true
  | .spmPwrWrite site _ => siteOk site
  | .marchDestructive site => siteOk site
  | .marchPreserving site => siteOk site
  | .marchTestDone site _ => siteOk site
  | .hkaQueueRead => true
  | .errorCounterRead _ => true
  | .registerWrite _ _ => true
  | .nop c => siteOk c.site
  | .loop c _ _ => siteOk c.site
  | .barrier c => siteOk c.site
  | .wopen c => siteOk c.site
  | .wclose c => siteOk c.site
  | .waits c _ => siteOk c.site
  | .waitr c _ _ _ => siteOk c.site
  | .lidx c _ => siteOk c.site
  | .sysv c _ _ => siteOk c.site
  | .li c _ _ => siteOk c.site
  | .add c _ _ _ => siteOk c.site
  | .addi c _ _ _ => siteOk c.site
  | .sub c _ _ _ => siteOk c.site
  | .mul c _ _ _ => siteOk c.site
  | .and c _ _ _ => siteOk c.site
  | .or c _ _ _ => siteOk c.site
  | .xor c _ _ _ => siteOk c.site
  | .shl c _ _ _ => siteOk c.site
  | .shr c _ _ _ => siteOk c.site
  | .sar c _ _ _ => siteOk c.site
  | .cmp c _ _ _ _ => siteOk c.site
  | .cmpi c _ _ _ _ => siteOk c.site
  | .plog c _ _ _ _ => siteOk c.site
  | .eval c _ => siteOk c.site
  | .fill c _ _ => siteOk c.site
  | .fillDone site la => siteOk site && streamOk la
  | .sdesc c _ => siteOk c.site
  | .aclr c _ => siteOk c.site
  | .amrg c _ => siteOk c.site
  | .aaddv c _ => siteOk c.site
  | .asetv c _ => siteOk c.site
  | .aldv c _ => siteOk c.site
  | .astv c _ => siteOk c.site
  | .alds c _ => siteOk c.site
  | .asts c _ => siteOk c.site
  | .ares c _ => siteOk c.site
  | .rsend c _ => siteOk c.site
  | .vadd c _ => siteOk c.site
  | .vsub c _ => siteOk c.site
  | .vmul c _ => siteOk c.site
  | .vfma c _ => siteOk c.site
  | .vmax c _ => siteOk c.site
  | .vmin c _ => siteOk c.site
  | .vadds c _ => siteOk c.site
  | .vmuls c _ => siteOk c.site
  | .vabs c _ => siteOk c.site
  | .vneg c _ => siteOk c.site
  | .vcvt c _ => siteOk c.site
  | .vexp c _ => siteOk c.site
  | .vrcp c _ => siteOk c.site
  | .vrsq c _ => siteOk c.site
  | .vsilu c _ => siteOk c.site
  | .vsigm c _ => siteOk c.site
  | .vsum c _ => siteOk c.site
  | .vmaxr c _ => siteOk c.site
  | .vtopk c _ => siteOk c.site
  | .vrms c _ => siteOk c.site
  | .vrope c _ => siteOk c.site
  | .vhad c _ => siteOk c.site
  | .vqnt c _ => siteOk c.site
  | .vbc c _ => siteOk c.site
  | .vroute c _ => siteOk c.site
  | .ldv c _ => siteOk c.site
  | .stv c _ => siteOk c.site
  | .ldg c _ => siteOk c.site
  | .stg c _ => siteOk c.site
  | .copy c _ => siteOk c.site
  | .mrd c _ => siteOk c.site
  | .mwr c _ => siteOk c.site
  | .mgath c _ => siteOk c.site
  | .nrecv c _ => siteOk c.site
  | .nsend c _ => siteOk c.site
  | .attKvw c _ => siteOk c.site
  | .attRun c _ _ => siteOk c.site
  | .attMrg c _ => siteOk c.site
  | .attFin c _ => siteOk c.site
  | .attRcmp c _ => siteOk c.site
  | .brgSlot c _ => siteOk c.site
  | .brgInfo c _ => siteOk c.site
  | .brgVar c _ => siteOk c.site
  | .brgSamp c _ => siteOk c.site
  | .brgAcpt c _ => siteOk c.site
  | .brgEmit c _ => siteOk c.site
  | .sluiceCorrection site _ _ => siteOk site
  | .masterColumnArrival site arr _ => siteOk site && arrOk arr
  | .arbitrationStart site => siteOk site
  | .peerCheck site _ _ => siteOk site
  | .arbitrationVerdict site _ => siteOk site
  | .spareProgramDone site arr => siteOk site && arrOk arr
  | .convHandover site arr _ => siteOk site && arrOk arr
  | .netPacketArrival site _ => siteOk site
  | .reductionFlitArrival site port _ => siteOk site && meshPortOk port
  | .barrierArrivalSend => true
  | .barrierForwardDeadline => true
  | .rootDecision => true
  | .barrierCutoff => true
  | .releaseReceive _ => true
  | .barrierLost => true
  | .lockageBoundary => true
  | .spillCopyDone _ _ _ => true
  | .restoreCopyDone _ _ _ _ => true
  | .graceQuantumEnd => true
  | .collectorCopyMismatch => true
  | .signatureCommit => true
  | .cpMismatch pair => pairOk pair
  | .cpSelfTestDone pair _ _ => pairOk pair
  | .cpPeriodicSelfTest pair _ => pairOk pair
  | .flightFrameReceive port _ => portOk port
  | .controlMessageReceive port _ => portOk port
  | .controlRetransmit m => portOk m.port
  | .laneCorrectionCheck port lane _ => portOk port && laneOk lane
  | .laneLockLoss port lane => portOk port && laneOk lane
  | .timeBaseCorrection _ => true
  | .digestRoundStart => true
  | .digestReady _ => true
  | .digestCompare _ => true
  | .boot _ _ _ _ _ _ _ _ => true
  | .pwrEnRise => true
  | .pwrEnFall => true
  | .resetNAssert => true
  | .resetNRelease => true
  | .vinInRange => true
  | .vinUndervoltage => true
  | .vinOvervoltage => true
  | .pwmSyncLock _ => true
  | .pwmSyncLoss => true
  | .tamper _ => true
  | .rngHealthFail => true
  | .systemScan _ => true
  | .hkaTimerTrigger _ _ => true
  | .hkaPwmTrigger _ _ => true
  | .hkaStageRotation _ => true
  | .diodeCheck => true
  | .ageTick => true
  | .ageRecordCommit => true
  | .ageEstimation _ => true
  | .calStatsFit site arr col => siteOk site && arrOk arr && colOk col
  | .calBatchCommit _ => true
  | .holdupCapMeasure _ => true
  | .patrolScrub _ _ _ => true
  | .blockReloadDone _ _ _ => true
  | .stackFailure stack => stackOk stack
  | .channelFailure channel => channelOk channel
  | .hostLinkUp _ => true
  | .flightPortTrained port _ _ _ _ _ => portOk port
  | .rngHealthRecovery => true

end Sys2Proof
end

