-- ==== Sys2Proof/Decode.lean ====
section
/-! DEFINITION. Words of spec/opcode_table.json: its rows give no bits (they are commands of a block), so no word spells a command.
The 128-bit words of step programs, which the device itself fetches, are decoded in Machine/Terwen.lean (`decodeWord`). -/

namespace Sys2Proof

/-- The command that a word spells by the table's bits: none, for no row gives bits. -/
def decodeTableWord (_nbits _w : Nat) : Option Instr := none

end Sys2Proof
end

