-- ==== Sys2Proof/Machine/Store.lean ====
section
/-! DEFINITION. The operations over the two shapes of sparse storage: byte memories (`Mem`, unlisted bytes read 0) and keyed
maps (`SMap`, unlisted keys hold a default). Both keep one canonical form: keys strictly rising, no entry equal to what an
unlisted key reads as. -/

namespace Sys2Proof

/-! ### Keyed maps -/

/-- The value at key `k`; `d` is the map's default. -/
def SMap.get {α : Type} (m : SMap α) (d : α) (k : Nat) : α :=
  match m with
  | [] => d
  | (k', v) :: t => if k' = k then v else SMap.get t d k

/-- The map without key `k`. -/
def SMap.erase {α : Type} (m : SMap α) (k : Nat) : SMap α :=
  m.filter (fun c => c.1 != k)

/-- Sets key `k` whatever the value. -/
def SMap.insert {α : Type} (m : SMap α) (k : Nat) (v : α) : SMap α :=
  m.filter (fun c => decide (c.1 < k)) ++ (k, v) :: m.filter (fun c => decide (k < c.1))

/-- Sets key `k`; a value equal to the default `d` removes the entry. -/
def SMap.put {α : Type} [DecidableEq α] (m : SMap α) (d : α) (k : Nat) (v : α) : SMap α :=
  if v = d then SMap.erase m k else SMap.insert m k v

/-- The canonical form of a keyed map with default `d`. -/
def SMap.wf {α : Type} [DecidableEq α] (m : SMap α) (d : α) : Bool :=
  decide (m.Pairwise (fun a b => a.1 < b.1)) && m.all (fun c => decide (c.2 ≠ d))

/-- Applies `f` to the value of key `k`. -/
def SMap.upd {α : Type} [DecidableEq α] (m : SMap α) (d : α) (k : Nat) (f : α → α) : SMap α :=
  SMap.put m d k (f (SMap.get m d k))

/-! ### Byte memories -/

/-- One byte. -/
def Mem.get (m : Mem) (a : Nat) : Byte := SMap.get m 0 a

/-- The memory with the bytes `bs` from address `a` on. -/
def Mem.write (m : Mem) (a : Nat) (bs : List Byte) : Mem :=
  m.filter (fun c => decide (c.1 < a)) ++
    ((bs.zipIdx a).map (fun x => (x.2, x.1))).filter (fun c => decide (c.2 ≠ 0)) ++
    m.filter (fun c => decide (a + bs.length ≤ c.1))

/-- The canonical form of a byte memory. -/
def Mem.wf (m : Mem) : Bool := SMap.wf m 0

/-- Sorted by address. -/
def sortCells (m : Mem) : Mem := m.mergeSort (fun a b => decide (a.1 ≤ b.1))

/-- A byte list in the canonical form of a memory. -/
def canonMem (m : Mem) : Mem :=
  if Mem.wf m then m
  else if Mem.wf (sortCells m) then sortCells m
  else m.foldl (fun u c => SMap.put u 0 c.1 c.2) []

/-- The bytes from `a` on that a rising list of cells gives, `n` of them. -/
def Mem.expand (m : Mem) (a n : Nat) : List Byte :=
  match n with
  | 0 => []
  | n + 1 =>
    match m with
    | [] => 0 :: Mem.expand [] (a + 1) n
    | (k, b) :: t => if k = a then b :: Mem.expand t (a + 1) n else 0 :: Mem.expand ((k, b) :: t) (a + 1) n

/-- `n` bytes from address `a` on. -/
def Mem.read (m : Mem) (a n : Nat) : List Byte :=
  Mem.expand (m.filter (fun c => decide (a ≤ c.1) && decide (c.1 < a + n))) a n

/-- Clears `n` bytes from address `a` on. -/
def Mem.clear (m : Mem) (a n : Nat) : Mem :=
  m.filter (fun c => decide (c.1 < a) || decide (a + n ≤ c.1))

/-! ### Words in bytes, little-endian -/

/-- The number that bytes spell, least significant first. -/
def ofLE (bs : List Byte) : Nat :=
  match bs with
  | [] => 0
  | b :: t => b.toNat + 256 * ofLE t

/-- The `n` low bytes of a number, least significant first. -/
def toLE (n v : Nat) : List Byte :=
  match n with
  | 0 => []
  | n + 1 => BitVec.ofNat 8 v :: toLE n (v / 256)

/-- The number of `n` bytes at `a`. -/
def Mem.readNat (m : Mem) (a n : Nat) : Nat := ofLE (Mem.read m a n)

/-- Writes the `n` low bytes of `v` at `a`. -/
def Mem.writeNat (m : Mem) (a n v : Nat) : Mem := Mem.write m a (toLE n v)

/-- A list cut into pieces of `n` elements; `fuel` bounds the pieces. -/
def chunks {α : Type} (n : Nat) (l : List α) (fuel : Nat) : List (List α) :=
  match fuel with
  | 0 => []
  | fuel + 1 => if l.isEmpty then [] else l.take n :: chunks n (l.drop n) fuel

/-- The words of `n` bytes that a byte list holds. -/
def wordsOf (n : Nat) (bs : List Byte) : List Nat := (chunks n bs (bs.length / n)).map ofLE

/-- The bytes of words of `n` bytes each. -/
def bytesOf (n : Nat) (ws : List Nat) : List Byte := ws.flatMap (toLE n)

/-- A two's-complement value of `n` bits. -/
def signed (n v : Nat) : Int := if v % 2 ^ n < 2 ^ (n - 1) then (v % 2 ^ n : Nat) else (v % 2 ^ n : Nat) - (2 ^ n : Nat)

/-- Bits `hi` to `lo` of a number. -/
def bitsOf (v hi lo : Nat) : Nat := v / 2 ^ lo % 2 ^ (hi + 1 - lo)

/-- `v` with bits `hi` to `lo` set to `x`. -/
def setBits (v hi lo x : Nat) : Nat :=
  v - bitsOf v hi lo * 2 ^ lo + x % 2 ^ (hi + 1 - lo) * 2 ^ lo

end Sys2Proof
end

