-- ==== Sys2Proof/Machine/Sm3.lean ====
section
/-! DEFINITION. SM3, the hash that R466 names (GB/T 32905; the standard is outside the spec: notes/assumptions/8.md), over byte
lists. -/

namespace Sys2Proof

/-- One expansion word W_j of SM3. -/
def sm3P1 (x : BitVec 32) : BitVec 32 := x ^^^ x.rotateLeft 15 ^^^ x.rotateLeft 23

/-- The message words W_0 to W_67 from the sixteen of a block, the latest first. -/
def sm3Expand (rev : List (BitVec 32)) (n : Nat) : List (BitVec 32) :=
  match n with
  | 0 => rev
  | n + 1 =>
    let w := fun k => rev.getD (k - 1) 0
    let x := sm3P1 (w 16 ^^^ w 9 ^^^ (w 3).rotateLeft 15) ^^^ (w 13).rotateLeft 7 ^^^ w 6
    sm3Expand (x :: rev) n

/-- The registers of SM3's compression. -/
structure Sm3 where
  a : BitVec 32
  b : BitVec 32
  c : BitVec 32
  d : BitVec 32
  e : BitVec 32
  f : BitVec 32
  g : BitVec 32
  h : BitVec 32
  deriving DecidableEq, Repr

/-- Round `j` of the compression, with W_j and W_(j+4). -/
def sm3Round (v : Sm3) (j : Nat) (w w4 : BitVec 32) : Sm3 :=
  let t : BitVec 32 := if j < 16 then 0x79cc4519 else 0x7a879d8a
  let ss1 := (v.a.rotateLeft 12 + v.e + t.rotateLeft (j % 32)).rotateLeft 7
  let ss2 := ss1 ^^^ v.a.rotateLeft 12
  let ff := if j < 16 then v.a ^^^ v.b ^^^ v.c else (v.a &&& v.b) ||| (v.a &&& v.c) ||| (v.b &&& v.c)
  let gg := if j < 16 then v.e ^^^ v.f ^^^ v.g else (v.e &&& v.f) ||| (~~~v.e &&& v.g)
  let tt1 := ff + v.d + ss2 + (w ^^^ w4)
  let tt2 := gg + v.h + ss1 + w
  { a := tt1, b := v.a, c := v.b.rotateLeft 9, d := v.c, e := tt2 ^^^ tt2.rotateLeft 9 ^^^ tt2.rotateLeft 17, f := v.e,
    g := v.f.rotateLeft 19, h := v.g }

/-- The compression of one block of sixteen words. -/
def sm3Block (v : Sm3) (blk : List (BitVec 32)) : Sm3 :=
  let ws := (sm3Expand blk.reverse 52).reverse
  let r := ((ws.zip (ws.drop 4)).zipIdx.take 64).foldl (fun s x => sm3Round s x.2 x.1.1 x.1.2) v
  { a := v.a ^^^ r.a, b := v.b ^^^ r.b, c := v.c ^^^ r.c, d := v.d ^^^ r.d, e := v.e ^^^ r.e, f := v.f ^^^ r.f, g := v.g ^^^ r.g,
    h := v.h ^^^ r.h }

/-- The big-endian number of bytes. -/
def ofBE (bs : List Byte) : Nat := bs.foldl (fun n b => 256 * n + b.toNat) 0

/-- The `n` low bytes of a number, most significant first. -/
def toBE (n v : Nat) : List Byte := (toLE n v).reverse

/-- The 32 bytes of SM3 over a message. -/
def sm3 (msg : List Byte) : List Byte :=
  let zeros := (119 - msg.length % 64) % 64
  let padded := msg ++ 0x80 :: (List.replicate zeros 0 ++ toBE 8 (8 * msg.length))
  let v := (chunks 64 padded (padded.length / 64)).foldl
    (fun v b => sm3Block v ((chunks 4 b 16).map (fun w => BitVec.ofNat 32 (ofBE w))))
    ⟨0x7380166f, 0x4914b2b9, 0x172442d7, 0xda8a0600, 0xa96f30bc, 0x163138aa, 0xe38dee4d, 0xb0fb0e4e⟩
  [v.a, v.b, v.c, v.d, v.e, v.f, v.g, v.h].flatMap (fun w => toBE 4 w.toNat)

end Sys2Proof
end

