-- ==== Sys2Proof/Machine/Sm4.lean ====
section
/-! DEFINITION. SM4 and SM4-GCM, which R466 names (GB/T 32907, GB/T 17964; the standards are outside the spec: notes/assumptions/41.md), over
byte lists. -/

namespace Sys2Proof

/-! ### The block cipher -/

/-- The S-box in rows of 16 bytes, the first of a row lowest. -/
def sm4Rows : List Nat :=
  [0x052cfb28c214b616b73de1ccfee990d6, 0x99068649261344aac304be2a769a672b, 0x62accfed430b54337a98ef91f450429c,
    0xa63f8f75fa94df8095e808c9a91cb3e4, 0xa84f85e6193c5983ba1773f3fca70747, 0x359d56704b0febf88bda6471b2816b68,
    0x877821013b7c2225a2d158635e0e241e, 0x9ec8c4a0e702364c5227d39f574600d4, 0xa11561f9cef2f7a3b538c740d28abfea,
    0xe3b18cf5303293ad551a349ba45daee0, 0x6f4e530dab2329c060ca66822ee2f61d, 0x515b6c6d726aff032f8efdde4537dbd5,
    0xd85a101f415cd9117fbcddbb92af1b8d, 0xb0b4e5b812d0742dbd7bcda58831c10a, 0x84c66ec509f1b9657e77960c4a976989,
    0x4839cbd73e5fee79204ddc3aec7df018]

/-- A byte through the S-box. -/
def sm4Sbox (b : Nat) : Nat := sm4Rows.getD (b / 16) 0 / 2 ^ (8 * (b % 16)) % 256

/-- The S-box on the four bytes of a word. -/
def sm4Tau (x : BitVec 32) : BitVec 32 :=
  let b := fun (k : Nat) => sm4Sbox (x.toNat / 2 ^ (8 * k) % 256) * 2 ^ (8 * k)
  BitVec.ofNat 32 (b 0 + b 1 + b 2 + b 3)

/-- The constant of round `i` of the key schedule: bytes 7 (4 i + j) mod 256. -/
def sm4Ck (i : Nat) : BitVec 32 :=
  BitVec.ofNat 32 ((List.range 4).foldl (fun a j => 256 * a + 7 * (4 * i + j) % 256) 0)

/-- The four words that a round works on. -/
structure Sm4 where
  a : BitVec 32
  b : BitVec 32
  c : BitVec 32
  d : BitVec 32
  deriving DecidableEq, Repr

/-- The words of 16 bytes, each big-endian. -/
def sm4Words (bs : List Byte) : Sm4 :=
  let w := fun k => BitVec.ofNat 32 (ofBE ((bs.drop (4 * k)).take 4))
  ⟨w 0, w 1, w 2, w 3⟩

/-- The round keys from round `i` on, `n` of them. -/
def sm4Keys (k : Sm4) (i n : Nat) : List (BitVec 32) :=
  match n with
  | 0 => []
  | n + 1 =>
    let t := sm4Tau (k.b ^^^ k.c ^^^ k.d ^^^ sm4Ck i)
    let r := k.a ^^^ t ^^^ t.rotateLeft 13 ^^^ t.rotateLeft 23
    r :: sm4Keys ⟨k.b, k.c, k.d, r⟩ (i + 1) n

/-- The round keys of a 128-bit key. -/
def sm4Schedule (key : List Byte) : List (BitVec 32) :=
  let k := sm4Words key
  sm4Keys ⟨k.a ^^^ 0xa3b1bac6, k.b ^^^ 0x56aa3350, k.c ^^^ 0x677d9197, k.d ^^^ 0xb27022dc⟩ 0 32

/-- A round. -/
def sm4Round (x : Sm4) (rk : BitVec 32) : Sm4 :=
  let t := sm4Tau (x.b ^^^ x.c ^^^ x.d ^^^ rk)
  ⟨x.b, x.c, x.d, x.a ^^^ t ^^^ t.rotateLeft 2 ^^^ t.rotateLeft 10 ^^^ t.rotateLeft 18 ^^^ t.rotateLeft 24⟩

/-- A block of 16 bytes encrypted under round keys. -/
def sm4Block (rks : List (BitVec 32)) (bs : List Byte) : List Byte :=
  let x := rks.foldl sm4Round (sm4Words bs)
  [x.d, x.c, x.b, x.a].flatMap (fun w => toBE 4 w.toNat)

/-! ### Galois counter mode -/

/-- The bytes of two lists, xored as far as both go. -/
def xorBytes (a b : List Byte) : List Byte := a.zipWith (fun x y => x ^^^ y) b

/-- The product in GF(2^128) of the mode: bit 127 is the coefficient of 1; `v` is the multiple that bit `n` - 1 of `x` adds. -/
def ghashMul (x v n : Nat) : Nat :=
  match n with
  | 0 => 0
  | n + 1 => (if x.testBit n then v else 0) ^^^ ghashMul x (if v % 2 = 1 then v / 2 ^^^ 0xE1 * 2 ^ 120 else v / 2) n

/-- Bytes filled up with zeros to whole blocks of 16. -/
def padBlock (bs : List Byte) : List Byte := bs ++ List.replicate ((16 - bs.length % 16) % 16) 0

/-- GHASH of associated data and ciphertext under the hash key. -/
def ghash (h : Nat) (aad ct : List Byte) : Nat :=
  let bs := padBlock aad ++ padBlock ct ++ toBE 8 (8 * aad.length) ++ toBE 8 (8 * ct.length)
  (chunks 16 bs (bs.length / 16)).foldl (fun y b => ghashMul (y ^^^ ofBE b) h 128) 0

/-- Bytes xored with the key stream of counter mode from counter `c` on; `fuel` bounds the blocks. -/
def gcmCtr (rks : List (BitVec 32)) (iv : List Byte) (c : Nat) (bs : List Byte) (fuel : Nat) : List Byte :=
  match fuel with
  | 0 => []
  | fuel + 1 =>
    if bs.isEmpty then []
    else xorBytes (bs.take 16) (sm4Block rks (iv ++ toBE 4 c)) ++ gcmCtr rks iv (c + 1) (bs.drop 16) fuel

/-- The 16-byte tag of a ciphertext and associated data. -/
def gcmTag (key iv aad ct : List Byte) : List Byte :=
  let rks := sm4Schedule key
  let h := ofBE (sm4Block rks (List.replicate 16 0))
  xorBytes (toBE 16 (ghash h aad ct)) (sm4Block rks (iv ++ toBE 4 1))

/-- SM4-GCM with a 12-byte nonce: the ciphertext, followed by its tag. -/
def gcmSeal (key iv aad pt : List Byte) : List Byte :=
  let ct := gcmCtr (sm4Schedule key) iv 2 pt pt.length
  ct ++ gcmTag key iv aad ct

/-- The plaintext of a sealed message; none where its tag fails. -/
def gcmOpen (key iv aad bs : List Byte) : Option (List Byte) :=
  let ct := bs.take (bs.length - 16)
  if 16 ≤ bs.length ∧ bs.drop (bs.length - 16) = gcmTag key iv aad ct then some (gcmCtr (sm4Schedule key) iv 2 ct ct.length) else none

end Sys2Proof
end

