-- ==== Sys2Proof/Config.lean ====
section
/-! DEFINITION. What the spec leaves free: the free values (opaque: nothing in Lean can see a value of one), the secrets
and draws of the security block, and what the spec names but does not lay out. -/

namespace Sys2Proof

/-- The n-th free value (notes/assumptions/3.md): every value that the spec leaves open after an operation that goes on
is the next one, counted by `State.freeCtr`. -/
opaque Config.freeValue : Nat → BitVec 64

/-- Which of two zeros of different sign `VMAX`, `VMIN` and `VMAXR` give: the spec orders values only (R206). -/
opaque Config.secondZero : F32 → F32 → Bool

/-- What `VROUTE` writes for a choice that it cannot make, since the experts below capacity are fewer than k: of the scores, the
occupancy, the slots still to come and the place of the record. R182 keeps every accepted schedule out of this case, and the spec
states no record for it (R212). -/
opaque Config.shortRecord : List F32 → List Nat → Nat → Nat → BitVec 64

/-- Of the programming of an array that is cut short, by the n-th free value: whether the cell with a key has its new level (R411 says only
that the current cell is completed; the spec gives no order of the cells). -/
opaque Config.cellProgrammed : Nat → Nat → Bool

/-- The device's certificate chain in DER (R468), fixed at manufacture; it names the device's public key, serial and part number. -/
opaque Config.certificate : List Byte

/-- The 256-bit device secret in the fuses of the security block (R468). -/
opaque Config.deviceSecret : BitVec 256

/-- The SM3 digest of the Otost root public key in the fuses of the security block (R468). -/
opaque Config.otostDigest : BitVec 256

/-- The n-th draw of the security block's random source, counted by `State.freeCtr`: nonces, ephemeral keys, the flight key. -/
opaque Config.random : Nat → BitVec 256

/-- The tenant root of the n-th draw (R479): a value of the security block's random source, which no command reads. -/
opaque Config.tenantRoot : Nat → BitVec 256

/-- The bytes of a VX-20 token record (R285), whose layout the spec does not give: of the request number, the first output index,
the lockage and the tokens. -/
opaque Config.vx20Tokens : List Nat → List Byte

end Sys2Proof
end

