-- ==== Sys2Proof/Machine/RegFam.lean ====
section
/-! DEFINITION. What a management register is (R12, R13): its addresses, its fields with their access codes, ranges and
reset values. The registers themselves stand in Machine/Regs.lean. -/

namespace Sys2Proof.Machine

/-- *Register access codes* (R12). -/
inductive Access where
  | ro
  | rw
  | wo
  | w1c
  | w1s
  | rsc
  deriving DecidableEq, Repr

/-- A field of a register: bits `hi` to `lo`, access, reset value, and its defined range (R13). -/
structure RegField where
  name : String
  hi : Nat
  lo : Nat
  acc : Access
  reset : Nat
  min : Nat
  max : Nat
  deriving DecidableEq, Repr

/-- A register or a family of registers: element (i, j) lies at `base + s1 * i + s2 * j` for i < n1, j < n2; `wide` marks a
64-bit register (R12), `nv` one whose value a reset keeps (R408). -/
structure RegFam where
  name : String
  base : Nat
  s1 : Nat
  n1 : Nat
  s2 : Nat
  n2 : Nat
  wide : Bool
  nv : Bool
  fields : List RegField
  deriving DecidableEq, Repr

namespace Reg

/-- A field whose every value is in range. -/
def fld (name : String) (hi lo : Nat) (acc : Access) (reset : Nat) : RegField :=
  ⟨name, hi, lo, acc, reset, 0, 2 ^ (hi + 1 - lo) - 1⟩

/-- A field whose defined range is `min` to `max`. -/
def fldR (name : String) (hi lo : Nat) (acc : Access) (reset min max : Nat) : RegField :=
  ⟨name, hi, lo, acc, reset, min, max⟩

/-- The layout of an error counter (R412): `COUNT` in [30:0] and `SAT` in [31], read and cleared together. -/
def errFields : List RegField :=
  [⟨"SAT", 31, 31, .rsc, 0, 0, 1⟩, ⟨"COUNT", 30, 0, .rsc, 0, 0, 0x7FFFFFFF⟩]

end Reg

end Sys2Proof.Machine
end

