-- ==== Sys2Proof/Machine/Regs.lean ====
section
/-! DEFINITION. The management registers, one constant per register (family), with the address, the fields, the access
codes, the reset values and the ranges of spec/'s register tables (R12, R13, R501); the reset values that the spec leaves
to fuses or non-volatile memory are the model's choices (notes/assumptions/2.md). -/

namespace Sys2Proof.Machine.Reg

/-- `DEV_CORE_MAPn` (R17, 01_cell_to_flight.md). -/
def DEV_CORE_MAPn : RegFam :=
  ⟨"DEV_CORE_MAPn", 0x100, 0x0, 1, 0x4, 17, false, false,
    [fld "SITE_EN" 31 0 .ro 0]⟩

/-- `DEV_CORE_COUNT` (R17, 01_cell_to_flight.md). -/
def DEV_CORE_COUNT : RegFam :=
  ⟨"DEV_CORE_COUNT", 0x180, 0x0, 1, 0x0, 1, false, false,
    [fld "ENABLED" 9 0 .ro 0]⟩

/-- `DEV_LCORE_SITEn` (R18, 01_cell_to_flight.md). -/
def DEV_LCORE_SITEn : RegFam :=
  ⟨"DEV_LCORE_SITEn", 0x1000, 0x0, 1, 0x4, 512, false, false,
    [fld "VALID" 31 31 .ro 0, fld "SITE" 9 0 .ro 0]⟩

/-- `ARY_STATEa` (R71, 02_resident_and_streamed_arrays.md). -/
def ARY_STATEa : RegFam :=
  ⟨"ARY_STATEa", 0x1000000, 0x10000, 544, 0x100, 19, false, false,
    [fld "STATE" 18 16 .ro 0, fld "LOGICAL" 12 8 .ro 0, fld "KIND" 1 0 .ro 0]⟩

/-- `ARY_PROG_CYCLESa` (R71, 02_resident_and_streamed_arrays.md). -/
def ARY_PROG_CYCLESa : RegFam :=
  ⟨"ARY_PROG_CYCLESa", 0x1000004, 0x10000, 544, 0x100, 19, false, true,
    [fld "CYCLES" 23 0 .ro 0]⟩

/-- `ARY_AGEa` (R71, 02_resident_and_streamed_arrays.md). -/
def ARY_AGEa : RegFam :=
  ⟨"ARY_AGEa", 0x1000008, 0x10000, 544, 0x100, 19, true, true,
    [fld "AGE_MS" 63 0 .ro 0]⟩

/-- `ARY_DRIFT_COEFa` (R71, 02_resident_and_streamed_arrays.md). -/
def ARY_DRIFT_COEFa : RegFam :=
  ⟨"ARY_DRIFT_COEFa", 0x1000010, 0x10000, 544, 0x100, 19, false, true,
    [fld "NU" 15 0 .ro 7193]⟩

/-- `ARY_SPAREa` (R71, 02_resident_and_streamed_arrays.md). -/
def ARY_SPAREa : RegFam :=
  ⟨"ARY_SPAREa", 0x1000014, 0x10000, 544, 0x100, 19, false, true,
    [fld "COL_USED" 21 6 .ro 0, fld "ROWS_USED" 5 0 .ro 0]⟩

/-- `ARY_CONVa` (R71, 02_resident_and_streamed_arrays.md). -/
def ARY_CONVa : RegFam :=
  ⟨"ARY_CONVa", 0x1000018, 0x10000, 544, 0x100, 19, false, true,
    [fld "FAILED" 24 16 .ro 0, fld "SPARE_FIXED" 4 4 .ro 0, fld "SPARE_SLOT" 3 0 .ro 8]⟩

/-- `ARY_GAIN1_SUBPHASESa` (R71, 02_resident_and_streamed_arrays.md). -/
def ARY_GAIN1_SUBPHASESa : RegFam :=
  ⟨"ARY_GAIN1_SUBPHASESa", 0x1000020, 0x10000, 544, 0x100, 19, true, false,
    [fld "COUNT" 63 0 .ro 0]⟩

/-- `ARY_GAIN2_SUBPHASESa` (R71, 02_resident_and_streamed_arrays.md). -/
def ARY_GAIN2_SUBPHASESa : RegFam :=
  ⟨"ARY_GAIN2_SUBPHASESa", 0x1000028, 0x10000, 544, 0x100, 19, true, false,
    [fld "COUNT" 63 0 .ro 0]⟩

/-- `ARY_GAIN4_SUBPHASESa` (R71, 02_resident_and_streamed_arrays.md). -/
def ARY_GAIN4_SUBPHASESa : RegFam :=
  ⟨"ARY_GAIN4_SUBPHASESa", 0x1000030, 0x10000, 544, 0x100, 19, true, false,
    [fld "COUNT" 63 0 .ro 0]⟩

/-- `ARY_FILL_STALLSa` (R71, 02_resident_and_streamed_arrays.md). -/
def ARY_FILL_STALLSa : RegFam :=
  ⟨"ARY_FILL_STALLSa", 0x1000038, 0x10000, 544, 0x100, 19, false, false,
    errFields⟩

/-- `ARY_SPARE_DEFERa` (R71, 02_resident_and_streamed_arrays.md). -/
def ARY_SPARE_DEFERa : RegFam :=
  ⟨"ARY_SPARE_DEFERa", 0x100003c, 0x10000, 544, 0x100, 19, false, false,
    errFields⟩

/-- `ARY_INDIRn` (R72, 02_resident_and_streamed_arrays.md). -/
def ARY_INDIRn : RegFam :=
  ⟨"ARY_INDIRn", 0x1002000, 0x10000, 544, 0x4, 18, false, false,
    [fld "PHYS" 4 0 .ro 0]⟩

/-- `ARY_LAYER_STEPSn` (R72, 02_resident_and_streamed_arrays.md). -/
def ARY_LAYER_STEPSn : RegFam :=
  ⟨"ARY_LAYER_STEPSn", 0x1002100, 0x10000, 544, 0x4, 256, false, false,
    [fld "STEPS" 31 0 .ro 0]⟩

/-- `ARY_LAYER_LIMn` (R72, 02_resident_and_streamed_arrays.md). -/
def ARY_LAYER_LIMn : RegFam :=
  ⟨"ARY_LAYER_LIMn", 0x1002500, 0x10000, 544, 0x4, 256, false, false,
    [fld "LIMIT" 31 0 .ro 4294967295]⟩

/-- `ARY_WIDE_REQ` (R72, 02_resident_and_streamed_arrays.md). -/
def ARY_WIDE_REQ : RegFam :=
  ⟨"ARY_WIDE_REQ", 0x1002900, 0x10000, 544, 0x0, 1, false, false,
    [fld "LAYER" 15 8 .ro 0, fld "REQ" 0 0 .ro 0]⟩

/-- `ARY_CONV_ROT` (R72, 02_resident_and_streamed_arrays.md). -/
def ARY_CONV_ROT : RegFam :=
  ⟨"ARY_CONV_ROT", 0x1002904, 0x10000, 544, 0x0, 1, false, false,
    [fld "RUN" 0 0 .w1s 0]⟩

/-- `SLU_STATE` (R139, 04_sluice_correction_and_audit.md). -/
def SLU_STATE : RegFam :=
  ⟨"SLU_STATE", 0x1004000, 0x10000, 544, 0x0, 1, false, false,
    [fld "RESOLVING" 9 8 .ro 0, fld "AUDIT_BY_PEER" 2 2 .ro 0, fld "CHECKER" 1 0 .ro 0]⟩

/-- `SLU_PEER` (R139, 04_sluice_correction_and_audit.md). -/
def SLU_PEER : RegFam :=
  ⟨"SLU_PEER", 0x1004004, 0x10000, 544, 0x0, 1, false, false,
    [fld "VALID" 31 31 .ro 0, fld "SITE" 9 0 .ro 0]⟩

/-- `SLU_AUDIT_CTL` (R139, 04_sluice_correction_and_audit.md). -/
def SLU_AUDIT_CTL : RegFam :=
  ⟨"SLU_AUDIT_CTL", 0x1004008, 0x10000, 544, 0x0, 1, false, false,
    [fldR "REL_LOG2" 28 24 .rw 8 4 16, fldR "KAPPA" 23 16 .rw 96 16 255, fldR "PERIOD_LOG2" 12 8 .rw 12 8 20, fld "ENABLE" 0 0 .rw 1]⟩

/-- `SLU_SUBSTn` (R139, 04_sluice_correction_and_audit.md). -/
def SLU_SUBSTn : RegFam :=
  ⟨"SLU_SUBSTn", 0x1004010, 0x10000, 544, 0x4, 4, false, false,
    [fld "VALID" 31 31 .ro 0, fld "ARRAY" 20 16 .ro 0, fld "COLUMN" 9 0 .ro 0]⟩

/-- `SLU_OLISTa` (R139, 04_sluice_correction_and_audit.md). -/
def SLU_OLISTa : RegFam :=
  ⟨"SLU_OLISTa", 0x1004040, 0x10000, 544, 0x4, 19, false, false,
    [fld "ADDR" 31 18 .ro 0, fld "COUNT" 12 0 .ro 0]⟩

/-- `SLU_INV_Ga` (R139, 04_sluice_correction_and_audit.md). -/
def SLU_INV_Ga : RegFam :=
  ⟨"SLU_INV_Ga", 0x10040a0, 0x10000, 544, 0x4, 19, false, false,
    [fld "INV_G" 31 0 .ro 1065353216]⟩

/-- `RTR_REDn` (R160, 05_accumulators_and_reduction.md). -/
def RTR_REDn : RegFam :=
  ⟨"RTR_REDn", 0x100c800, 0x10000, 544, 0x8, 32, true, false,
    [fld "VALID" 63 63 .ro 0, fld "TREE" 55 48 .ro 0, fld "PARENT" 38 36 .ro 0, fld "ORDER" 32 18 .ro 32767]⟩

/-- `FLK_LEN_NORMAL` (R185, 06_terwen_programming_model.md). -/
def FLK_LEN_NORMAL : RegFam :=
  ⟨"FLK_LEN_NORMAL", 0x21000, 0x0, 1, 0x0, 1, false, false,
    [fld "LEN8" 23 0 .ro 0]⟩

/-- `FLK_LEN_WIDE` (R185, 06_terwen_programming_model.md). -/
def FLK_LEN_WIDE : RegFam :=
  ⟨"FLK_LEN_WIDE", 0x21004, 0x0, 1, 0x0, 1, false, false,
    [fld "LEN8" 23 0 .ro 0]⟩

/-- `FLK_LOCKAGE` (R185, 06_terwen_programming_model.md). -/
def FLK_LOCKAGE : RegFam :=
  ⟨"FLK_LOCKAGE", 0x21008, 0x0, 1, 0x0, 1, true, false,
    [fld "NUMBER" 63 0 .ro 0]⟩

/-- `FLK_LOCK_STATE` (R185, 06_terwen_programming_model.md). -/
def FLK_LOCK_STATE : RegFam :=
  ⟨"FLK_LOCK_STATE", 0x21010, 0x0, 1, 0x0, 1, false, false,
    [fld "ACTIVE" 2 2 .ro 0, fld "GRACE_LAST" 1 1 .ro 0, fld "VARIANT" 0 0 .ro 0]⟩

/-- `FLK_GRACE` (R185, 06_terwen_programming_model.md). -/
def FLK_GRACE : RegFam :=
  ⟨"FLK_GRACE", 0x21014, 0x0, 1, 0x0, 1, false, false,
    errFields⟩

/-- `FLK_INCOMPLETE` (R185, 06_terwen_programming_model.md). -/
def FLK_INCOMPLETE : RegFam :=
  ⟨"FLK_INCOMPLETE", 0x21020, 0x0, 1, 0x0, 1, false, false,
    errFields⟩

/-- `FLK_GRACE_LIMIT` (R185, 06_terwen_programming_model.md). -/
def FLK_GRACE_LIMIT : RegFam :=
  ⟨"FLK_GRACE_LIMIT", 0x21018, 0x0, 1, 0x0, 1, false, false,
    [fldR "LIMIT" 10 0 .rw 16 1 1024]⟩

/-- `FLK_GRACE_WINDOW` (R185, 06_terwen_programming_model.md). -/
def FLK_GRACE_WINDOW : RegFam :=
  ⟨"FLK_GRACE_WINDOW", 0x2101c, 0x0, 1, 0x0, 1, false, false,
    [fld "COUNT" 10 0 .ro 0]⟩

/-- `WGT_SCHED_STATE` (R186, 06_terwen_programming_model.md). -/
def WGT_SCHED_STATE : RegFam :=
  ⟨"WGT_SCHED_STATE", 0xb0800, 0x0, 1, 0x0, 1, false, false,
    [fld "STATUS" 15 8 .ro 0, fld "STAGED" 1 0 .ro 0]⟩

/-- `WGT_SCHED_ERR` (R186, 06_terwen_programming_model.md). -/
def WGT_SCHED_ERR : RegFam :=
  ⟨"WGT_SCHED_ERR", 0xb0804, 0x0, 1, 0x0, 1, false, false,
    [fld "SITE" 25 16 .ro 0, fld "INDEX" 13 0 .ro 0]⟩

/-- `WGT_SCHED_ACTIVE_TAG` (R186, 06_terwen_programming_model.md). -/
def WGT_SCHED_ACTIVE_TAG : RegFam :=
  ⟨"WGT_SCHED_ACTIVE_TAG", 0xb0808, 0x0, 1, 0x0, 1, false, false,
    [fld "TAG" 31 0 .ro 0]⟩

/-- `WGT_SCHED_STAGED_TAG` (R186, 06_terwen_programming_model.md). -/
def WGT_SCHED_STAGED_TAG : RegFam :=
  ⟨"WGT_SCHED_STAGED_TAG", 0xb080c, 0x0, 1, 0x0, 1, false, false,
    [fld "TAG" 31 0 .ro 0]⟩

/-- `WGT_CORE_PROGn` (R186, 06_terwen_programming_model.md). -/
def WGT_CORE_PROGn : RegFam :=
  ⟨"WGT_CORE_PROGn", 0xb1000, 0x0, 1, 0x4, 544, false, false,
    [fld "VALID" 31 31 .ro 0, fld "WIDE_BASE" 21 14 .ro 0, fld "WIDE_LEN" 13 0 .ro 0]⟩

/-- `MEM_KV_PT_BASE` (R257, 08_attention_and_kv_pages.md). -/
def MEM_KV_PT_BASE : RegFam :=
  ⟨"MEM_KV_PT_BASE", 0x92000, 0x0, 1, 0x0, 1, true, false,
    [fld "BASE" 39 21 .rw 0]⟩

/-- `MEM_KV_NEAR_BASE` (R257, 08_attention_and_kv_pages.md). -/
def MEM_KV_NEAR_BASE : RegFam :=
  ⟨"MEM_KV_NEAR_BASE", 0x92010, 0x0, 1, 0x0, 1, true, false,
    [fld "BASE" 39 21 .rw 0]⟩

/-- `MEM_KV_FAR_BASE` (R257, 08_attention_and_kv_pages.md). -/
def MEM_KV_FAR_BASE : RegFam :=
  ⟨"MEM_KV_FAR_BASE", 0x92020, 0x0, 1, 0x0, 1, true, false,
    [fld "BASE" 39 21 .rw 0]⟩

/-- `MEM_KV_PT_SIZE` (R257, 08_attention_and_kv_pages.md). -/
def MEM_KV_PT_SIZE : RegFam :=
  ⟨"MEM_KV_PT_SIZE", 0x92008, 0x0, 1, 0x0, 1, false, false,
    [fldR "MIB" 15 0 .rw 0 64 32768]⟩

/-- `MEM_KV_NEAR_GRAN` (R257, 08_attention_and_kv_pages.md). -/
def MEM_KV_NEAR_GRAN : RegFam :=
  ⟨"MEM_KV_NEAR_GRAN", 0x92018, 0x0, 1, 0x0, 1, false, false,
    [fldR "GRANULES" 25 0 .rw 0 0 20971520]⟩

/-- `MEM_KV_FAR_GRAN` (R257, 08_attention_and_kv_pages.md). -/
def MEM_KV_FAR_GRAN : RegFam :=
  ⟨"MEM_KV_FAR_GRAN", 0x92028, 0x0, 1, 0x0, 1, false, false,
    [fldR "GRANULES" 25 0 .rw 0 0 33554432]⟩

/-- `MEM_KV_FREE_NEAR` (R257, 08_attention_and_kv_pages.md). -/
def MEM_KV_FREE_NEAR : RegFam :=
  ⟨"MEM_KV_FREE_NEAR", 0x92030, 0x0, 1, 0x0, 1, false, false,
    [fld "FREE" 25 0 .ro 0]⟩

/-- `MEM_KV_FREE_FAR` (R257, 08_attention_and_kv_pages.md). -/
def MEM_KV_FREE_FAR : RegFam :=
  ⟨"MEM_KV_FREE_FAR", 0x92034, 0x0, 1, 0x0, 1, false, false,
    [fld "FREE" 25 0 .ro 0]⟩

/-- `MEM_KV_WATER` (R257, 08_attention_and_kv_pages.md). -/
def MEM_KV_WATER : RegFam :=
  ⟨"MEM_KV_WATER", 0x92038, 0x0, 1, 0x0, 1, false, false,
    [fld "HIGH" 31 16 .rw 64, fld "LOW" 15 0 .rw 32]⟩

/-- `MEM_KV_LOOKAHEAD` (R257, 08_attention_and_kv_pages.md). -/
def MEM_KV_LOOKAHEAD : RegFam :=
  ⟨"MEM_KV_LOOKAHEAD", 0x9203c, 0x0, 1, 0x0, 1, false, false,
    [fldR "LOCKAGES" 6 0 .rw 4 1 64]⟩

/-- `SEQ_ROLE` (R286, 09_barges_admission_speculation.md). -/
def SEQ_ROLE : RegFam :=
  ⟨"SEQ_ROLE", 0xa0000, 0x0, 1, 0x0, 1, false, false,
    [fld "EXIT" 24 16 .ro 0, fld "ENTRY" 8 0 .ro 0]⟩

/-- `SEQ_COUNT0` (R286, 09_barges_admission_speculation.md). -/
def SEQ_COUNT0 : RegFam :=
  ⟨"SEQ_COUNT0", 0xa0010, 0x0, 1, 0x0, 1, false, false,
    [fld "HIGH" 29 16 .ro 0, fld "LOW" 13 0 .ro 0]⟩

/-- `SEQ_COUNT1` (R286, 09_barges_admission_speculation.md). -/
def SEQ_COUNT1 : RegFam :=
  ⟨"SEQ_COUNT1", 0xa0014, 0x0, 1, 0x0, 1, false, false,
    [fld "HIGH" 29 16 .ro 0, fld "LOW" 13 0 .ro 0]⟩

/-- `SEQ_COUNT2` (R286, 09_barges_admission_speculation.md). -/
def SEQ_COUNT2 : RegFam :=
  ⟨"SEQ_COUNT2", 0xa0018, 0x0, 1, 0x0, 1, false, false,
    [fld "HIGH" 29 16 .ro 8192, fld "LOW" 13 0 .ro 0]⟩

/-- `SEQ_SLOTS` (R286, 09_barges_admission_speculation.md). -/
def SEQ_SLOTS : RegFam :=
  ⟨"SEQ_SLOTS", 0xa0020, 0x0, 1, 0x0, 1, false, false,
    [fld "RUNS" 26 16 .ro 0, fld "OCCUPIED" 10 0 .ro 0]⟩

/-- `SEQ_COMPAT` (R286, 09_barges_admission_speculation.md). -/
def SEQ_COMPAT : RegFam :=
  ⟨"SEQ_COMPAT", 0xa0024, 0x0, 1, 0x0, 1, false, false,
    [fld "ENABLE" 31 31 .rw 1, fld "POLICY" 18 16 .rw 1, fld "COUNT" 10 0 .ro 0]⟩

/-- `SEQ_ADMIT` (R286, 09_barges_admission_speculation.md). -/
def SEQ_ADMIT : RegFam :=
  ⟨"SEQ_ADMIT", 0xa0028, 0x0, 1, 0x0, 1, false, false,
    [fld "WIDE_LEN" 0 0 .ro 0]⟩

/-- `SEQ_QUOTA_DEF_SLOTS` (R286, 09_barges_admission_speculation.md). -/
def SEQ_QUOTA_DEF_SLOTS : RegFam :=
  ⟨"SEQ_QUOTA_DEF_SLOTS", 0xa0030, 0x0, 1, 0x0, 1, false, false,
    [fldR "LIMIT" 25 0 .rw 1024 0 1024]⟩

/-- `SEQ_QUOTA_DEF_GRAN` (R286, 09_barges_admission_speculation.md). -/
def SEQ_QUOTA_DEF_GRAN : RegFam :=
  ⟨"SEQ_QUOTA_DEF_GRAN", 0xa0034, 0x0, 1, 0x0, 1, false, false,
    [fld "LIMIT" 25 0 .rw 67108863]⟩

/-- `SEQ_PLAN_RUNn` (R286, 09_barges_admission_speculation.md). -/
def SEQ_PLAN_RUNn : RegFam :=
  ⟨"SEQ_PLAN_RUNn", 0xa0400, 0x0, 1, 0x4, 1024, false, false,
    [fld "VALID" 31 31 .ro 0, fld "KIND" 30 30 .ro 0, fld "FIRST" 19 10 .ro 0, fld "LENM1" 9 0 .ro 0]⟩

/-- `SEQ_QUOTAn` (R286, 09_barges_admission_speculation.md). -/
def SEQ_QUOTAn : RegFam :=
  ⟨"SEQ_QUOTAn", 0xa2000, 0x0, 1, 0x10, 1024, false, false,
    [fld "VALID" 31 31 .rw 0, fld "TENANT" 15 0 .rw 0]⟩

/-- `SEQ_QUOTA_SLOTSn` (R286, 09_barges_admission_speculation.md). -/
def SEQ_QUOTA_SLOTSn : RegFam :=
  ⟨"SEQ_QUOTA_SLOTSn", 0xa2004, 0x0, 1, 0x10, 1024, false, false,
    [fldR "SLOTS" 10 0 .rw 0 0 1024]⟩

/-- `SEQ_QUOTA_GRANn` (R286, 09_barges_admission_speculation.md). -/
def SEQ_QUOTA_GRANn : RegFam :=
  ⟨"SEQ_QUOTA_GRANn", 0xa2008, 0x0, 1, 0x10, 1024, false, false,
    [fld "GRANULES" 25 0 .rw 0]⟩

/-- `SEQ_QUOTA_RSVn` (R286, 09_barges_admission_speculation.md). -/
def SEQ_QUOTA_RSVn : RegFam :=
  ⟨"SEQ_QUOTA_RSVn", 0xa200c, 0x0, 1, 0x10, 1024, false, false,
    []⟩

/-- `SEQ_VARn` (R286, 09_barges_admission_speculation.md). -/
def SEQ_VARn : RegFam :=
  ⟨"SEQ_VARn", 0xa8000, 0x0, 1, 0x4, 4096, false, false,
    [fld "LOADED" 31 31 .ro 0, fld "POISONED" 30 30 .ro 0, fld "GENERATION" 23 16 .ro 0, fld "TENANT" 15 0 .ro 0]⟩

/-- `FLK_PORTp_STATE` (R325, 10_flight_links_and_replicas.md). -/
def FLK_PORTp_STATE : RegFam :=
  ⟨"FLK_PORTp_STATE", 0x20000, 0x100, 6, 0x0, 1, false, false,
    [fld "PEER_DEV" 31 23 .ro 0, fld "PEER_PORT" 22 20 .ro 0, fld "FAILED_LANES" 16 8 .ro 0, fld "SPARED" 7 4 .ro 15, fld "STATE" 2 0 .ro 0]⟩

/-- `FLK_PORTp_LANE_LIM` (R325, 10_flight_links_and_replicas.md). -/
def FLK_PORTp_LANE_LIM : RegFam :=
  ⟨"FLK_PORTp_LANE_LIM", 0x20004, 0x100, 6, 0x0, 1, false, false,
    [fldR "LIMIT" 31 0 .rw 100000 1 4294967295]⟩

/-- `FLK_FORM` (R326, 10_flight_links_and_replicas.md). -/
def FLK_FORM : RegFam :=
  ⟨"FLK_FORM", 0x22000, 0x0, 1, 0x0, 1, false, false,
    [fld "DZM1" 15 12 .rw 0, fld "DYM1" 11 8 .rw 0, fld "DXM1" 7 4 .rw 0, fld "SHAPE" 1 0 .rw 0]⟩

/-- `FLK_COORD` (R326, 10_flight_links_and_replicas.md). -/
def FLK_COORD : RegFam :=
  ⟨"FLK_COORD", 0x22004, 0x0, 1, 0x0, 1, false, false,
    [fld "DEVNUM" 24 16 .ro 0, fld "Z" 11 8 .rw 0, fld "Y" 7 4 .rw 0, fld "X" 3 0 .rw 0]⟩

/-- `FLK_FLIGHT_STATE` (R326, 10_flight_links_and_replicas.md). -/
def FLK_FLIGHT_STATE : RegFam :=
  ⟨"FLK_FLIGHT_STATE", 0x22008, 0x0, 1, 0x0, 1, false, false,
    [fld "ROOT" 24 16 .ro 0, fld "DEPTH" 15 12 .ro 0, fld "STATE" 2 0 .ro 0]⟩

/-- `FLK_VER_CAP` (R326, 10_flight_links_and_replicas.md). -/
def FLK_VER_CAP : RegFam :=
  ⟨"FLK_VER_CAP", 0x2200c, 0x0, 1, 0x0, 1, false, false,
    [fld "SPF_MAX" 31 24 .ro 2, fld "SPF_MIN" 23 16 .ro 1, fld "FP_MAX" 15 8 .ro 2, fld "FP_MIN" 7 0 .ro 1]⟩

/-- `FLK_VER_FLIGHT` (R326, 10_flight_links_and_replicas.md). -/
def FLK_VER_FLIGHT : RegFam :=
  ⟨"FLK_VER_FLIGHT", 0x22010, 0x0, 1, 0x0, 1, false, false,
    [fld "SPF_MAX" 31 24 .ro 0, fld "SPF_MIN" 23 16 .ro 0, fld "FP_MAX" 15 8 .ro 0, fld "FP_MIN" 7 0 .ro 0]⟩

/-- `FLK_VOTE` (R326, 10_flight_links_and_replicas.md). -/
def FLK_VOTE : RegFam :=
  ⟨"FLK_VOTE", 0x22014, 0x0, 1, 0x0, 1, false, false,
    [fld "MISSING" 31 24 .ro 0, fld "QUIET" 23 20 .ro 0, fld "PERSIST" 5 5 .ro 0, fld "GRACE" 4 4 .ro 0, fld "INCOMPLETE" 3 3 .ro 0,
      fld "HALT" 2 2 .ro 0, fld "THROTTLE" 1 1 .ro 0, fld "WIDE" 0 0 .ro 0]⟩

/-- `FLK_HALT_REQ` (R326, 10_flight_links_and_replicas.md). -/
def FLK_HALT_REQ : RegFam :=
  ⟨"FLK_HALT_REQ", 0x22018, 0x0, 1, 0x0, 1, false, false,
    [fld "REQ" 0 0 .w1s 0]⟩

/-- `FLK_WIDE_LIMIT` (R326, 10_flight_links_and_replicas.md). -/
def FLK_WIDE_LIMIT : RegFam :=
  ⟨"FLK_WIDE_LIMIT", 0x2201c, 0x0, 1, 0x0, 1, false, false,
    [fldR "CLEAR" 26 16 .rw 64 0 1024, fldR "SET" 10 0 .rw 512 1 1024]⟩

/-- `FLK_WIDE_WINDOW` (R326, 10_flight_links_and_replicas.md). -/
def FLK_WIDE_WINDOW : RegFam :=
  ⟨"FLK_WIDE_WINDOW", 0x22020, 0x0, 1, 0x0, 1, false, false,
    [fld "COUNT" 10 0 .ro 0]⟩

/-- `FLK_BAR_CUT` (R326, 10_flight_links_and_replicas.md). -/
def FLK_BAR_CUT : RegFam :=
  ⟨"FLK_BAR_CUT", 0x22024, 0x0, 1, 0x0, 1, false, false,
    [fld "OFF8" 15 0 .ro 0]⟩

/-- `FLK_BAR_FWD` (R326, 10_flight_links_and_replicas.md). -/
def FLK_BAR_FWD : RegFam :=
  ⟨"FLK_BAR_FWD", 0x22028, 0x0, 1, 0x0, 1, false, false,
    [fld "OFF8" 15 0 .ro 0]⟩

/-- `FLK_TIME` (R326, 10_flight_links_and_replicas.md). -/
def FLK_TIME : RegFam :=
  ⟨"FLK_TIME", 0x22030, 0x0, 1, 0x0, 1, true, false,
    [fld "TICKS" 63 0 .ro 0]⟩

/-- `FLK_SYNC_OFFSET` (R326, 10_flight_links_and_replicas.md). -/
def FLK_SYNC_OFFSET : RegFam :=
  ⟨"FLK_SYNC_OFFSET", 0x22038, 0x0, 1, 0x0, 1, false, false,
    [fld "OFFSET" 15 0 .ro 0]⟩

/-- `FLK_REPLICA` (R326, 10_flight_links_and_replicas.md). -/
def FLK_REPLICA : RegFam :=
  ⟨"FLK_REPLICA", 0x22040, 0x0, 1, 0x0, 1, false, false,
    [fld "STATE" 24 24 .ro 0, fld "INSTANCE" 23 20 .ro 0, fld "SHARD" 15 0 .ro 0]⟩

/-- `FLK_DIGEST_PERIOD` (R326, 10_flight_links_and_replicas.md). -/
def FLK_DIGEST_PERIOD : RegFam :=
  ⟨"FLK_DIGEST_PERIOD", 0x22044, 0x0, 1, 0x0, 1, false, false,
    [fldR "PERIOD" 15 0 .rw 256 1 65535]⟩

/-- `FLK_DIGEST_Wn` (R326, 10_flight_links_and_replicas.md). -/
def FLK_DIGEST_Wn : RegFam :=
  ⟨"FLK_DIGEST_Wn", 0x22060, 0x0, 1, 0x4, 8, false, false,
    [fld "WORD" 31 0 .ro 0]⟩

/-- `FLK_DIGEST_Vn` (R326, 10_flight_links_and_replicas.md). -/
def FLK_DIGEST_Vn : RegFam :=
  ⟨"FLK_DIGEST_Vn", 0x22080, 0x0, 1, 0x4, 8, false, false,
    [fld "WORD" 31 0 .ro 0]⟩

/-- `WGT_GEN_ACTIVE` (R347, 11_weight_packages_and_generations.md). -/
def WGT_GEN_ACTIVE : RegFam :=
  ⟨"WGT_GEN_ACTIVE", 0xb0000, 0x0, 1, 0x0, 1, false, false,
    [fld "GEN" 7 0 .ro 0]⟩

/-- `WGT_GEN_SLOTn` (R347, 11_weight_packages_and_generations.md). -/
def WGT_GEN_SLOTn : RegFam :=
  ⟨"WGT_GEN_SLOTn", 0xb0010, 0x0, 1, 0x4, 2, false, true,
    [fld "ABSENT" 28 28 .ro 0, fld "STATE" 27 24 .ro 0, fld "STATUS" 23 16 .ro 0, fld "PKG_VER" 9 8 .ro 0, fld "GEN" 7 0 .ro 0]⟩

/-- `WGT_PROG_STATE` (R347, 11_weight_packages_and_generations.md). -/
def WGT_PROG_STATE : RegFam :=
  ⟨"WGT_PROG_STATE", 0xb0020, 0x0, 1, 0x0, 1, false, false,
    [fld "STATUS" 31 24 .ro 0, fld "STATE" 23 22 .ro 0, fld "WAVE" 19 16 .ro 15, fld "ARRAYS_LEFT" 13 0 .ro 0]⟩

/-- `WGT_PROG_WAIT` (R347, 11_weight_packages_and_generations.md). -/
def WGT_PROG_WAIT : RegFam :=
  ⟨"WGT_PROG_WAIT", 0xb0024, 0x0, 1, 0x0, 1, false, false,
    [fldR "MS" 15 0 .rw 1000 1 60000]⟩

/-- `WGT_REPL` (R347, 11_weight_packages_and_generations.md). -/
def WGT_REPL : RegFam :=
  ⟨"WGT_REPL", 0xb0028, 0x0, 1, 0x0, 1, false, false,
    [fld "INST_MASK" 31 16 .ro 0, fld "GEN" 15 8 .ro 0, fld "MODE" 5 5 .ro 0, fld "HOLD" 4 4 .ro 0, fld "PHASE" 2 0 .ro 0]⟩

/-- `WGT_DRAIN_LEFT` (R347, 11_weight_packages_and_generations.md). -/
def WGT_DRAIN_LEFT : RegFam :=
  ⟨"WGT_DRAIN_LEFT", 0xb002c, 0x0, 1, 0x0, 1, false, false,
    [fld "LOCKAGES" 19 0 .ro 0]⟩

/-- `WGT_INST_GENn` (R347, 11_weight_packages_and_generations.md). -/
def WGT_INST_GENn : RegFam :=
  ⟨"WGT_INST_GENn", 0xb0040, 0x0, 1, 0x4, 16, false, false,
    [fld "WITHHELD" 8 8 .ro 0, fld "GEN" 7 0 .ro 0]⟩

/-- `WGT_MAINT` (R347, 11_weight_packages_and_generations.md). -/
def WGT_MAINT : RegFam :=
  ⟨"WGT_MAINT", 0xb0080, 0x0, 1, 0x0, 1, false, false,
    [fld "LCORE" 30 22 .ro 0, fld "ACTION" 21 20 .ro 0, fld "STATUS" 19 12 .ro 0, fld "LA" 11 8 .ro 0, fld "STEP" 2 0 .ro 0]⟩

/-- `MEM_STACKs_STATE` (R374, 12_near_far_memory_and_scratchpads.md). -/
def MEM_STACKs_STATE : RegFam :=
  ⟨"MEM_STACKs_STATE", 0x90000, 0x40, 8, 0x0, 1, false, false,
    [fld "STATE" 2 0 .ro 0]⟩

/-- `MEM_FARc_STATE` (R374, 12_near_far_memory_and_scratchpads.md). -/
def MEM_FARc_STATE : RegFam :=
  ⟨"MEM_FARc_STATE", 0x91000, 0x20, 32, 0x0, 1, false, false,
    [fld "STATE" 2 0 .ro 0]⟩

/-- `MEM_SCRUB` (R374, 12_near_far_memory_and_scratchpads.md). -/
def MEM_SCRUB : RegFam :=
  ⟨"MEM_SCRUB", 0x93000, 0x0, 1, 0x0, 1, false, false,
    [fld "ENABLE" 31 31 .rw 1, fldR "FAR_HOURS" 15 8 .rw 24 1 168, fldR "NEAR_HOURS" 7 0 .rw 24 1 168]⟩

/-- `MEM_POISON_LAST` (R374, 12_near_far_memory_and_scratchpads.md). -/
def MEM_POISON_LAST : RegFam :=
  ⟨"MEM_POISON_LAST", 0x93008, 0x0, 1, 0x0, 1, true, false,
    [fld "MEM" 57 56 .ro 0, fld "ADDR" 47 0 .ro 0]⟩

/-- `SPM_PWR` (R375, 12_near_far_memory_and_scratchpads.md). -/
def SPM_PWR : RegFam :=
  ⟨"SPM_PWR", 0x1008000, 0x10000, 544, 0x0, 1, false, false,
    [fld "STATE" 9 8 .ro 0, fldR "MODE" 1 0 .rw 0 0 2]⟩

/-- `SPM_MARCH` (R375, 12_near_far_memory_and_scratchpads.md). -/
def SPM_MARCH : RegFam :=
  ⟨"SPM_MARCH", 0x1008004, 0x10000, 544, 0x0, 1, false, false,
    [fldR "TEST" 1 0 .wo 0 1 2]⟩

/-- `SPM_MARCH_STATE` (R375, 12_near_far_memory_and_scratchpads.md). -/
def SPM_MARCH_STATE : RegFam :=
  ⟨"SPM_MARCH_STATE", 0x1008008, 0x10000, 544, 0x0, 1, false, false,
    [fld "FAIL_VALID" 31 31 .ro 0, fld "FAIL_WORD" 30 16 .ro 0, fld "FAIL_COUNT" 15 8 .ro 0, fld "STATE" 2 0 .ro 0]⟩

/-- `SPM_REMAPn` (R375, 12_near_far_memory_and_scratchpads.md). -/
def SPM_REMAPn : RegFam :=
  ⟨"SPM_REMAPn", 0x1008010, 0x10000, 544, 0x4, 8, false, false,
    [fld "VALID" 31 31 .ro 0, fld "WORD" 13 0 .ro 0]⟩

/-- `SPM_SECURE` (R375, 12_near_far_memory_and_scratchpads.md). -/
def SPM_SECURE : RegFam :=
  ⟨"SPM_SECURE", 0x1008040, 0x10000, 544, 0x0, 1, false, false,
    [fld "WIPES" 31 16 .ro 0, fld "EN" 0 0 .ro 0]⟩

/-- `HPT_LINK_STATE` (R400, 13_host_port_and_transport.md). -/
def HPT_LINK_STATE : RegFam :=
  ⟨"HPT_LINK_STATE", 0x10000, 0x0, 1, 0x0, 1, false, false,
    [fld "FAILED_LANES" 23 16 .ro 0, fld "PMD" 15 8 .ro 0, fld "LANES" 7 4 .ro 0, fld "STATE" 2 0 .ro 0]⟩

/-- `HPT_PMD_ADV` (R400, 13_host_port_and_transport.md). -/
def HPT_PMD_ADV : RegFam :=
  ⟨"HPT_PMD_ADV", 0x10004, 0x0, 1, 0x0, 1, false, false,
    [fld "ADV" 13 0 .rw 16383]⟩

/-- `HPT_CTL` (R400, 13_host_port_and_transport.md). -/
def HPT_CTL : RegFam :=
  ⟨"HPT_CTL", 0x10008, 0x0, 1, 0x0, 1, false, false,
    [fld "UDP_EN" 2 2 .rw 1, fld "ETH_EN" 1 1 .rw 1, fld "RETRAIN" 0 0 .w1s 0]⟩

/-- `HPT_LANE_MAP` (R400, 13_host_port_and_transport.md). -/
def HPT_LANE_MAP : RegFam :=
  ⟨"HPT_LANE_MAP", 0x1000c, 0x0, 1, 0x0, 1, false, false,
    [fld "LANE" 2 0 .rw 0]⟩

/-- `HPT_MAC_LO` (R400, 13_host_port_and_transport.md). -/
def HPT_MAC_LO : RegFam :=
  ⟨"HPT_MAC_LO", 0x10010, 0x0, 1, 0x0, 1, false, false,
    [fld "MAC" 31 0 .rw 0]⟩

/-- `HPT_MAC_HI` (R400, 13_host_port_and_transport.md). -/
def HPT_MAC_HI : RegFam :=
  ⟨"HPT_MAC_HI", 0x10014, 0x0, 1, 0x0, 1, false, false,
    [fld "MAC" 15 0 .rw 2]⟩

/-- `HPT_ETYPE` (R400, 13_host_port_and_transport.md). -/
def HPT_ETYPE : RegFam :=
  ⟨"HPT_ETYPE", 0x10018, 0x0, 1, 0x0, 1, false, false,
    [fld "TYPE" 15 0 .rw 34997]⟩

/-- `HPT_IP6n` (R400, 13_host_port_and_transport.md). -/
def HPT_IP6n : RegFam :=
  ⟨"HPT_IP6n", 0x10020, 0x0, 1, 0x4, 4, false, false,
    [fld "ADDR" 31 0 .rw 0]⟩

/-- `HPT_UDP_PORT` (R400, 13_host_port_and_transport.md). -/
def HPT_UDP_PORT : RegFam :=
  ⟨"HPT_UDP_PORT", 0x10030, 0x0, 1, 0x0, 1, false, false,
    [fldR "PORT" 15 0 .rw 47020 1 65535]⟩

/-- `HPT_MTU` (R400, 13_host_port_and_transport.md). -/
def HPT_MTU : RegFam :=
  ⟨"HPT_MTU", 0x10034, 0x0, 1, 0x0, 1, false, false,
    [fldR "BYTES" 15 0 .rw 9000 1500 9000]⟩

/-- `HPT_RETX` (R400, 13_host_port_and_transport.md). -/
def HPT_RETX : RegFam :=
  ⟨"HPT_RETX", 0x10038, 0x0, 1, 0x0, 1, false, false,
    [fldR "RTO_US" 31 16 .rw 100 10 10000, fldR "MAX" 7 0 .rw 12 1 32]⟩

/-- `HPT_TIMEOUTS` (R400, 13_host_port_and_transport.md). -/
def HPT_TIMEOUTS : RegFam :=
  ⟨"HPT_TIMEOUTS", 0x1003c, 0x0, 1, 0x0, 1, false, false,
    [fldR "IDLE_S" 31 16 .rw 60 1 3600, fldR "LINK_HOLD_MS" 15 0 .rw 2000 100 60000]⟩

/-- `HPT_SESSIONS` (R400, 13_host_port_and_transport.md). -/
def HPT_SESSIONS : RegFam :=
  ⟨"HPT_SESSIONS", 0x10040, 0x0, 1, 0x0, 1, false, false,
    [fld "FLIGHT" 29 16 .ro 0, fld "LOCAL" 10 0 .ro 0]⟩

/-- `FCL_STATE` (R427, 14_faults_counters_containment.md). -/
def FCL_STATE : RegFam :=
  ⟨"FCL_STATE", 0x30000, 0x0, 1, 0x0, 1, false, false,
    [fld "LAST_RESET" 17 16 .ro 0, fld "ERR_N" 8 8 .ro 1, fld "SAFE_CAUSE" 7 4 .ro 0, fld "SERVICE" 2 0 .ro 0]⟩

/-- `FCL_SAT_LAST` (R427, 14_faults_counters_containment.md). -/
def FCL_SAT_LAST : RegFam :=
  ⟨"FCL_SAT_LAST", 0x30008, 0x0, 1, 0x0, 1, false, false,
    [fld "ADDR" 31 0 .ro 0]⟩

/-- `FCL_CHIP_RESET` (R427, 14_faults_counters_containment.md). -/
def FCL_CHIP_RESET : RegFam :=
  ⟨"FCL_CHIP_RESET", 0x30010, 0x0, 1, 0x0, 1, false, false,
    [fldR "KEY" 15 0 .wo 0 42435 42435]⟩

/-- `FCL_SIG_STATE` (R427, 14_faults_counters_containment.md). -/
def FCL_SIG_STATE : RegFam :=
  ⟨"FCL_SIG_STATE", 0x30020, 0x0, 1, 0x0, 1, false, true,
    [fld "FULL" 24 24 .ro 0, fld "BUFFERED" 23 16 .ro 0, fld "COMMITTED" 10 0 .ro 0]⟩

/-- `FCL_SIG_FIRST` (R427, 14_faults_counters_containment.md). -/
def FCL_SIG_FIRST : RegFam :=
  ⟨"FCL_SIG_FIRST", 0x30024, 0x0, 1, 0x0, 1, false, true,
    [fld "NUMBER" 31 0 .ro 0]⟩

/-- `FCL_SIG_NEXT` (R427, 14_faults_counters_containment.md). -/
def FCL_SIG_NEXT : RegFam :=
  ⟨"FCL_SIG_NEXT", 0x30028, 0x0, 1, 0x0, 1, false, true,
    [fld "NUMBER" 31 0 .ro 0]⟩

/-- `FCL_SIG_ERASE` (R427, 14_faults_counters_containment.md). -/
def FCL_SIG_ERASE : RegFam :=
  ⟨"FCL_SIG_ERASE", 0x3002c, 0x0, 1, 0x0, 1, false, false,
    [fld "NUMBER" 31 0 .wo 0]⟩

/-- `FCL_CP_STATE` (R427, 14_faults_counters_containment.md). -/
def FCL_CP_STATE : RegFam :=
  ⟨"FCL_CP_STATE", 0x30040, 0x0, 1, 0x0, 1, false, false,
    [fld "PAIR" 7 0 .ro 0]⟩

/-- `FCL_SRCn_CFG` (R427, 14_faults_counters_containment.md). -/
def FCL_SRCn_CFG : RegFam :=
  ⟨"FCL_SRCn_CFG", 0x31000, 0x0, 1, 0x8, 256, false, false,
    [fld "MASK" 15 8 .rw 0, fld "SEV" 1 0 .rw 0]⟩

/-- `FCL_SRCn_STAT` (R427, 14_faults_counters_containment.md). -/
def FCL_SRCn_STAT : RegFam :=
  ⟨"FCL_SRCn_STAT", 0x31004, 0x0, 1, 0x8, 256, false, false,
    [fld "PENDING" 31 31 .w1c 0, fld "FIRST_UNIT" 25 16 .ro 0, fld "LAST_UNIT" 9 0 .ro 0]⟩

/-- `RTR_FENCE` (R428, 14_faults_counters_containment.md). -/
def RTR_FENCE : RegFam :=
  ⟨"RTR_FENCE", 0x100c000, 0x10000, 544, 0x0, 1, false, false,
    [fld "CAUSE" 9 8 .ro 0, fld "PENDING" 5 4 .ro 0, fld "STATE" 1 0 .ro 0]⟩

/-- `HKA_CTL` (R460, 15_calibration_sensing_power.md). -/
def HKA_CTL : RegFam :=
  ⟨"HKA_CTL", 0x40000, 0x0, 1, 0x0, 1, false, false,
    [fld "TIMER_EN" 31 31 .rw 0, fldR "TIMER_US" 19 0 .rw 1000 1 1000000]⟩

/-- `HKA_PWM` (R460, 15_calibration_sensing_power.md). -/
def HKA_PWM : RegFam :=
  ⟨"HKA_PWM", 0x40004, 0x0, 1, 0x0, 1, false, false,
    [fld "EN" 31 31 .rw 0, fldR "STAGE" 20 16 .rw 0 0 23, fld "EDGE" 12 12 .rw 0, fld "DELAY8" 10 0 .rw 0]⟩

/-- `HKA_CHn_CFG` (R460, 15_calibration_sensing_power.md). -/
def HKA_CHn_CFG : RegFam :=
  ⟨"HKA_CHn_CFG", 0x40100, 0x0, 1, 0x10, 32, false, false,
    [fldR "GROUP" 1 0 .rw 0 0 2]⟩

/-- `HKA_CHn_WIN` (R460, 15_calibration_sensing_power.md). -/
def HKA_CHn_WIN : RegFam :=
  ⟨"HKA_CHn_WIN", 0x40104, 0x0, 1, 0x10, 32, false, false,
    [fld "EN" 31 31 .rw 0, fld "HIGH" 29 16 .rw 16383, fld "LOW" 13 0 .rw 0]⟩

/-- `HKA_CHn_LAST` (R460, 15_calibration_sensing_power.md). -/
def HKA_CHn_LAST : RegFam :=
  ⟨"HKA_CHn_LAST", 0x40108, 0x0, 1, 0x10, 32, false, false,
    [fld "OUT" 31 31 .ro 0, fld "CODE" 13 0 .ro 0]⟩

/-- `HKA_QUEUE` (R460, 15_calibration_sensing_power.md). -/
def HKA_QUEUE : RegFam :=
  ⟨"HKA_QUEUE", 0x40400, 0x0, 1, 0x0, 1, false, false,
    [fld "VALID" 31 31 .rsc 0, fld "TRIG" 30 29 .rsc 0, fld "CHAN" 28 24 .rsc 0, fld "SEQ" 23 14 .rsc 0, fld "CODE" 13 0 .rsc 0]⟩

/-- `HKA_QUEUE_STATE` (R460, 15_calibration_sensing_power.md). -/
def HKA_QUEUE_STATE : RegFam :=
  ⟨"HKA_QUEUE_STATE", 0x40404, 0x0, 1, 0x0, 1, false, false,
    [fld "COUNT" 9 0 .ro 0]⟩

/-- `HKA_STAGE` (R460, 15_calibration_sensing_power.md). -/
def HKA_STAGE : RegFam :=
  ⟨"HKA_STAGE", 0x40408, 0x0, 1, 0x0, 1, false, false,
    [fld "FIXED" 4 4 .ro 0, fld "SPARE_FOR" 3 0 .ro 0]⟩

/-- `THM_DIODEn` (R461, 15_calibration_sensing_power.md). -/
def THM_DIODEn : RegFam :=
  ⟨"THM_DIODEn", 0x48000, 0x0, 1, 0x4, 18, false, false,
    [fld "VALID" 31 31 .ro 0, fld "FAILED" 30 30 .ro 0, fld "TEMP" 15 0 .ro 0]⟩

/-- `THM_TJd` (R461, 15_calibration_sensing_power.md). -/
def THM_TJd : RegFam :=
  ⟨"THM_TJd", 0x48080, 0x0, 1, 0x4, 2, false, false,
    [fld "VALID_COUNT" 19 16 .ro 0, fld "TEMP" 15 0 .ro 0]⟩

/-- `THM_STATE` (R461, 15_calibration_sensing_power.md). -/
def THM_STATE : RegFam :=
  ⟨"THM_STATE", 0x48090, 0x0, 1, 0x0, 1, false, false,
    [fld "POWER_THROTTLE" 3 3 .ro 0, fld "SHUTDOWN" 2 2 .ro 0, fld "THROTTLE" 1 1 .ro 0, fld "WARN" 0 0 .ro 0]⟩

/-- `THM_STRETCH` (R461, 15_calibration_sensing_power.md). -/
def THM_STRETCH : RegFam :=
  ⟨"THM_STRETCH", 0x48094, 0x0, 1, 0x0, 1, false, false,
    [fldR "FACTOR" 3 0 .rw 2 1 8]⟩

/-- `CAL_STATE` (R462, 15_calibration_sensing_power.md). -/
def CAL_STATE : RegFam :=
  ⟨"CAL_STATE", 0x50000, 0x0, 1, 0x0, 1, false, false,
    [fld "STATUS" 31 24 .ro 0, fld "SCOPE" 19 16 .ro 0, fld "SITE" 9 0 .ro 0]⟩

/-- `CAL_AGE` (R462, 15_calibration_sensing_power.md). -/
def CAL_AGE : RegFam :=
  ⟨"CAL_AGE", 0x50004, 0x0, 1, 0x0, 1, false, false,
    [fld "STATE" 1 0 .ro 0]⟩

/-- `CAL_AGE_CTL` (R462, 15_calibration_sensing_power.md). -/
def CAL_AGE_CTL : RegFam :=
  ⟨"CAL_AGE_CTL", 0x50008, 0x0, 1, 0x0, 1, false, false,
    [fldR "OFF_FACTOR" 20 16 .rw 1 1 24, fldR "WAIT_S" 11 0 .rw 30 1 3600]⟩

/-- `CAL_STATS_CTL` (R462, 15_calibration_sensing_power.md). -/
def CAL_STATS_CTL : RegFam :=
  ⟨"CAL_STATS_CTL", 0x5000c, 0x0, 1, 0x0, 1, false, false,
    [fldR "MIN_AUDITS" 15 8 .rw 64 16 255, fld "ENABLE" 0 0 .rw 1]⟩

/-- `CAL_BANDGAP` (R462, 15_calibration_sensing_power.md). -/
def CAL_BANDGAP : RegFam :=
  ⟨"CAL_BANDGAP", 0x50010, 0x0, 1, 0x0, 1, false, false,
    [fld "OK" 17 16 .ro 3, fld "DEV" 15 0 .ro 0]⟩

/-- `CAL_STOREd` (R462, 15_calibration_sensing_power.md). -/
def CAL_STOREd : RegFam :=
  ⟨"CAL_STOREd", 0x50020, 0x0, 1, 0x4, 2, false, true,
    [fld "HALF" 31 31 .ro 0, fld "USED_PCT" 6 0 .ro 0]⟩

/-- `ARY_CAL_METHOD` (R463, 15_calibration_sensing_power.md). -/
def ARY_CAL_METHOD : RegFam :=
  ⟨"ARY_CAL_METHOD", 0x1002908, 0x10000, 544, 0x0, 1, false, false,
    [fld "CAL_DONE" 31 31 .ro 0, fld "METHOD" 18 0 .rw 0]⟩

/-- `PWR_STATE` (R464, 15_calibration_sensing_power.md). -/
def PWR_STATE : RegFam :=
  ⟨"PWR_STATE", 0x60000, 0x0, 1, 0x0, 1, false, false,
    [fld "CHANGING" 8 8 .ro 0, fld "TARGET" 6 4 .ro 1, fld "STATE" 2 0 .ro 1]⟩

/-- `PWR_HOLDUP` (R464, 15_calibration_sensing_power.md). -/
def PWR_HOLDUP : RegFam :=
  ⟨"PWR_HOLDUP", 0x60004, 0x0, 1, 0x0, 1, false, false,
    [fld "ENERGY_MJ" 31 16 .ro 0, fld "VOLT" 15 0 .ro 0]⟩

/-- `PWR_HOLDUP_CAP` (R464, 15_calibration_sensing_power.md). -/
def PWR_HOLDUP_CAP : RegFam :=
  ⟨"PWR_HOLDUP_CAP", 0x60008, 0x0, 1, 0x0, 1, false, true,
    [fld "UF" 15 0 .ro 4000]⟩

/-- `PWR_INPUT` (R464, 15_calibration_sensing_power.md). -/
def PWR_INPUT : RegFam :=
  ⟨"PWR_INPUT", 0x6000c, 0x0, 1, 0x0, 1, false, false,
    [fld "POWER_W" 31 16 .ro 0, fld "VOLT" 15 0 .ro 0]⟩

/-- `SEC_LC_STATE` (R483, 16_identity_attestation_lifecycle.md). -/
def SEC_LC_STATE : RegFam :=
  ⟨"SEC_LC_STATE", 0x70000, 0x0, 1, 0x0, 1, false, true,
    [fld "COUNT" 13 8 .ro 0, fld "STATE" 2 0 .ro 0]⟩

/-- `SEC_FW` (R483, 16_identity_attestation_lifecycle.md). -/
def SEC_FW : RegFam :=
  ⟨"SEC_FW", 0x70004, 0x0, 1, 0x0, 1, false, true,
    [fld "INSTALL" 25 24 .ro 0, fld "BOOT_SOURCE" 16 16 .ro 0, fld "SVN_MIN" 13 8 .ro 0, fld "SVN" 5 0 .ro 0]⟩

/-- `SEC_SERIAL` (R483, 16_identity_attestation_lifecycle.md). -/
def SEC_SERIAL : RegFam :=
  ⟨"SEC_SERIAL", 0x70008, 0x0, 1, 0x0, 1, true, false,
    [fld "SERIAL" 63 0 .ro 0]⟩

/-- `SEC_CERT_LEN` (R483, 16_identity_attestation_lifecycle.md). -/
def SEC_CERT_LEN : RegFam :=
  ⟨"SEC_CERT_LEN", 0x70010, 0x0, 1, 0x0, 1, false, false,
    [fld "BYTES" 13 0 .ro 0]⟩

/-- `SEC_RNG` (R483, 16_identity_attestation_lifecycle.md). -/
def SEC_RNG : RegFam :=
  ⟨"SEC_RNG", 0x70014, 0x0, 1, 0x0, 1, false, false,
    [fld "OK" 0 0 .ro 1]⟩

/-- `SEC_TAMPER` (R483, 16_identity_attestation_lifecycle.md). -/
def SEC_TAMPER : RegFam :=
  ⟨"SEC_TAMPER", 0x70018, 0x0, 1, 0x0, 1, false, true,
    [fld "CAUSE" 2 0 .ro 0]⟩

/-- `SEC_FW_MEASn` (R483, 16_identity_attestation_lifecycle.md). -/
def SEC_FW_MEASn : RegFam :=
  ⟨"SEC_FW_MEASn", 0x70020, 0x0, 1, 0x4, 8, false, false,
    [fld "WORD" 31 0 .ro 0]⟩

/-- `SEC_ANCHOR_DIGESTn` (R483, 16_identity_attestation_lifecycle.md). -/
def SEC_ANCHOR_DIGESTn : RegFam :=
  ⟨"SEC_ANCHOR_DIGESTn", 0x70040, 0x0, 1, 0x4, 8, false, false,
    [fld "WORD" 31 0 .ro 0]⟩

/-- `SEC_ANCHOR_ROLESn` (R483, 16_identity_attestation_lifecycle.md). -/
def SEC_ANCHOR_ROLESn : RegFam :=
  ⟨"SEC_ANCHOR_ROLESn", 0x70100, 0x40, 8, 0x0, 1, false, true,
    [fld "ROLES" 2 0 .ro 0]⟩

/-- `SEC_ANCHOR_KEYnw` (R483, 16_identity_attestation_lifecycle.md). -/
def SEC_ANCHOR_KEYnw : RegFam :=
  ⟨"SEC_ANCHOR_KEYnw", 0x70104, 0x40, 8, 0x4, 8, false, true,
    [fld "KEY_DIGEST" 31 0 .ro 0]⟩

/-- `SEC_CERTn` (R483, 16_identity_attestation_lifecycle.md). -/
def SEC_CERTn : RegFam :=
  ⟨"SEC_CERTn", 0x78000, 0x0, 1, 0x4, 2048, false, false,
    [fld "DER" 31 0 .ro 0]⟩

/-- `DEV_SIDEBAND` (R499, 17_module_electrical_ordering.md). -/
def DEV_SIDEBAND : RegFam :=
  ⟨"DEV_SIDEBAND", 0x200, 0x0, 1, 0x0, 1, false, false,
    [fld "SYNC_KHZ" 19 8 .ro 0, fld "SYNC_LOCK" 2 2 .ro 0, fld "RESET_N" 1 1 .ro 1, fld "PWR_EN" 0 0 .ro 1]⟩

/-- `CNT_QUANT_NONFINITE` (R103, 03_widths_rotations_scales.md). -/
def CNT_QUANT_NONFINITE : RegFam :=
  ⟨"CNT_QUANT_NONFINITE", 0x80300, 0x0, 1, 0x0, 1, false, false,
    errFields⟩

/-- `CNT_ASCALE_CLAMP` (R103, 03_widths_rotations_scales.md). -/
def CNT_ASCALE_CLAMP : RegFam :=
  ⟨"CNT_ASCALE_CLAMP", 0x80304, 0x0, 1, 0x0, 1, false, false,
    errFields⟩

/-- `CNT_KV_SCALE_CLAMP` (R103, 03_widths_rotations_scales.md). -/
def CNT_KV_SCALE_CLAMP : RegFam :=
  ⟨"CNT_KV_SCALE_CLAMP", 0x80308, 0x0, 1, 0x0, 1, false, false,
    errFields⟩

/-- `CNT_FP8_SAT` (R103, 03_widths_rotations_scales.md). -/
def CNT_FP8_SAT : RegFam :=
  ⟨"CNT_FP8_SAT", 0x8030c, 0x0, 1, 0x0, 1, false, false,
    errFields⟩

/-- `SLU_AUDITS` (R139, 04_sluice_correction_and_audit.md). -/
def SLU_AUDITS : RegFam :=
  ⟨"SLU_AUDITS", 0x1004100, 0x10000, 544, 0x0, 1, true, false,
    [fld "COUNT" 63 0 .ro 0]⟩

/-- `SLU_PEER_AUDITS` (R139, 04_sluice_correction_and_audit.md). -/
def SLU_PEER_AUDITS : RegFam :=
  ⟨"SLU_PEER_AUDITS", 0x1004108, 0x10000, 544, 0x0, 1, true, false,
    [fld "COUNT" 63 0 .ro 0]⟩

/-- `SLU_DISAGREE` (R139, 04_sluice_correction_and_audit.md). -/
def SLU_DISAGREE : RegFam :=
  ⟨"SLU_DISAGREE", 0x1004110, 0x10000, 544, 0x0, 1, false, false,
    errFields⟩

/-- `SLU_TRANSIENT` (R139, 04_sluice_correction_and_audit.md). -/
def SLU_TRANSIENT : RegFam :=
  ⟨"SLU_TRANSIENT", 0x1004114, 0x10000, 544, 0x0, 1, false, false,
    errFields⟩

/-- `SLU_PERMANENT` (R139, 04_sluice_correction_and_audit.md). -/
def SLU_PERMANENT : RegFam :=
  ⟨"SLU_PERMANENT", 0x1004118, 0x10000, 544, 0x0, 1, false, false,
    errFields⟩

/-- `SLU_CHECKER` (R139, 04_sluice_correction_and_audit.md). -/
def SLU_CHECKER : RegFam :=
  ⟨"SLU_CHECKER", 0x100411c, 0x10000, 544, 0x0, 1, false, false,
    errFields⟩

/-- `SLU_AUDIT_LATE` (R139, 04_sluice_correction_and_audit.md). -/
def SLU_AUDIT_LATE : RegFam :=
  ⟨"SLU_AUDIT_LATE", 0x1004120, 0x10000, 544, 0x0, 1, false, false,
    errFields⟩

/-- `SLU_RESOLVE_CARRIED` (R139, 04_sluice_correction_and_audit.md). -/
def SLU_RESOLVE_CARRIED : RegFam :=
  ⟨"SLU_RESOLVE_CARRIED", 0x1004124, 0x10000, 544, 0x0, 1, false, false,
    errFields⟩

/-- `SLU_SUBST_FULL` (R139, 04_sluice_correction_and_audit.md). -/
def SLU_SUBST_FULL : RegFam :=
  ⟨"SLU_SUBST_FULL", 0x1004128, 0x10000, 544, 0x0, 1, false, false,
    errFields⟩

/-- `RTR_RED_PACKETS` (R160, 05_accumulators_and_reduction.md). -/
def RTR_RED_PACKETS : RegFam :=
  ⟨"RTR_RED_PACKETS", 0x100c900, 0x10000, 544, 0x0, 1, true, false,
    [fld "COUNT" 63 0 .ro 0]⟩

/-- `RTR_RED_ABANDONED` (R160, 05_accumulators_and_reduction.md). -/
def RTR_RED_ABANDONED : RegFam :=
  ⟨"RTR_RED_ABANDONED", 0x100c908, 0x10000, 544, 0x0, 1, false, false,
    errFields⟩

/-- `RTR_RED_STRAY` (R160, 05_accumulators_and_reduction.md). -/
def RTR_RED_STRAY : RegFam :=
  ⟨"RTR_RED_STRAY", 0x100c90c, 0x10000, 544, 0x0, 1, false, false,
    errFields⟩

/-- `CNT_KV_TENANT` (R258, 08_attention_and_kv_pages.md). -/
def CNT_KV_TENANT : RegFam :=
  ⟨"CNT_KV_TENANT", 0x80320, 0x0, 1, 0x0, 1, false, false,
    errFields⟩

/-- `CNT_KV_MISSING` (R258, 08_attention_and_kv_pages.md). -/
def CNT_KV_MISSING : RegFam :=
  ⟨"CNT_KV_MISSING", 0x80324, 0x0, 1, 0x0, 1, false, false,
    errFields⟩

/-- `CNT_KV_ALLOC_FAR` (R258, 08_attention_and_kv_pages.md). -/
def CNT_KV_ALLOC_FAR : RegFam :=
  ⟨"CNT_KV_ALLOC_FAR", 0x80328, 0x0, 1, 0x0, 1, false, false,
    errFields⟩

/-- `CNT_KV_FAR_READ` (R258, 08_attention_and_kv_pages.md). -/
def CNT_KV_FAR_READ : RegFam :=
  ⟨"CNT_KV_FAR_READ", 0x8032c, 0x0, 1, 0x0, 1, false, false,
    errFields⟩

/-- `CNT_KV_RCMP_SKIP` (R258, 08_attention_and_kv_pages.md). -/
def CNT_KV_RCMP_SKIP : RegFam :=
  ⟨"CNT_KV_RCMP_SKIP", 0x80330, 0x0, 1, 0x0, 1, false, false,
    errFields⟩

/-- `CNT_KV_INTEGRITY` (R258, 08_attention_and_kv_pages.md). -/
def CNT_KV_INTEGRITY : RegFam :=
  ⟨"CNT_KV_INTEGRITY", 0x80334, 0x0, 1, 0x0, 1, false, false,
    errFields⟩

/-- `CNT_KV_SPILLED` (R258, 08_attention_and_kv_pages.md). -/
def CNT_KV_SPILLED : RegFam :=
  ⟨"CNT_KV_SPILLED", 0x80338, 0x0, 1, 0x0, 1, true, false,
    [fld "COUNT" 63 0 .ro 0]⟩

/-- `CNT_KV_RESTORED` (R258, 08_attention_and_kv_pages.md). -/
def CNT_KV_RESTORED : RegFam :=
  ⟨"CNT_KV_RESTORED", 0x80340, 0x0, 1, 0x0, 1, true, false,
    [fld "COUNT" 63 0 .ro 0]⟩

/-- `CNT_KV_RCMP` (R258, 08_attention_and_kv_pages.md). -/
def CNT_KV_RCMP : RegFam :=
  ⟨"CNT_KV_RCMP", 0x80348, 0x0, 1, 0x0, 1, true, false,
    [fld "COUNT" 63 0 .ro 0]⟩

/-- `CNT_SEQ_TTFT_MISS` (R287, 09_barges_admission_speculation.md). -/
def CNT_SEQ_TTFT_MISS : RegFam :=
  ⟨"CNT_SEQ_TTFT_MISS", 0x80350, 0x0, 1, 0x0, 1, false, false,
    errFields⟩

/-- `CNT_SEQ_ITL_MISS` (R287, 09_barges_admission_speculation.md). -/
def CNT_SEQ_ITL_MISS : RegFam :=
  ⟨"CNT_SEQ_ITL_MISS", 0x80354, 0x0, 1, 0x0, 1, false, false,
    errFields⟩

/-- `CNT_SEQ_LATE_CANCEL` (R287, 09_barges_admission_speculation.md). -/
def CNT_SEQ_LATE_CANCEL : RegFam :=
  ⟨"CNT_SEQ_LATE_CANCEL", 0x80358, 0x0, 1, 0x0, 1, false, false,
    errFields⟩

/-- `CNT_SEQ_ADMIT_REJECT` (R287, 09_barges_admission_speculation.md). -/
def CNT_SEQ_ADMIT_REJECT : RegFam :=
  ⟨"CNT_SEQ_ADMIT_REJECT", 0x8035c, 0x0, 1, 0x0, 1, false, false,
    errFields⟩

/-- `CNT_SPEC_BACKOFF` (R287, 09_barges_admission_speculation.md). -/
def CNT_SPEC_BACKOFF : RegFam :=
  ⟨"CNT_SPEC_BACKOFF", 0x80360, 0x0, 1, 0x0, 1, false, false,
    errFields⟩

/-- `CNT_SPEC_DRAFTED` (R287, 09_barges_admission_speculation.md). -/
def CNT_SPEC_DRAFTED : RegFam :=
  ⟨"CNT_SPEC_DRAFTED", 0x80368, 0x0, 1, 0x0, 1, true, false,
    [fld "COUNT" 63 0 .ro 0]⟩

/-- `CNT_SPEC_ACCEPTED` (R287, 09_barges_admission_speculation.md). -/
def CNT_SPEC_ACCEPTED : RegFam :=
  ⟨"CNT_SPEC_ACCEPTED", 0x80370, 0x0, 1, 0x0, 1, true, false,
    [fld "COUNT" 63 0 .ro 0]⟩

/-- `CNT_TOKENS` (R287, 09_barges_admission_speculation.md). -/
def CNT_TOKENS : RegFam :=
  ⟨"CNT_TOKENS", 0x80378, 0x0, 1, 0x0, 1, true, false,
    [fld "COUNT" 63 0 .ro 0]⟩

/-- `FLK_PORTp_FEC_CORR` (R325, 10_flight_links_and_replicas.md). -/
def FLK_PORTp_FEC_CORR : RegFam :=
  ⟨"FLK_PORTp_FEC_CORR", 0x20008, 0x100, 6, 0x0, 1, true, false,
    [fld "COUNT" 63 0 .ro 0]⟩

/-- `FLK_PORTp_FEC_UNCORR` (R325, 10_flight_links_and_replicas.md). -/
def FLK_PORTp_FEC_UNCORR : RegFam :=
  ⟨"FLK_PORTp_FEC_UNCORR", 0x20010, 0x100, 6, 0x0, 1, false, false,
    errFields⟩

/-- `FLK_PORTp_CTRL_RETX` (R325, 10_flight_links_and_replicas.md). -/
def FLK_PORTp_CTRL_RETX : RegFam :=
  ⟨"FLK_PORTp_CTRL_RETX", 0x20014, 0x100, 6, 0x0, 1, false, false,
    errFields⟩

/-- `FLK_PORTp_DROP` (R325, 10_flight_links_and_replicas.md). -/
def FLK_PORTp_DROP : RegFam :=
  ⟨"FLK_PORTp_DROP", 0x20018, 0x100, 6, 0x0, 1, false, false,
    errFields⟩

/-- `FLK_WIDE_LOCKAGES` (R327, 10_flight_links_and_replicas.md). -/
def FLK_WIDE_LOCKAGES : RegFam :=
  ⟨"FLK_WIDE_LOCKAGES", 0x220a0, 0x0, 1, 0x0, 1, true, false,
    [fld "COUNT" 63 0 .ro 0]⟩

/-- `FLK_DIGEST_VOID` (R327, 10_flight_links_and_replicas.md). -/
def FLK_DIGEST_VOID : RegFam :=
  ⟨"FLK_DIGEST_VOID", 0x220a8, 0x0, 1, 0x0, 1, false, false,
    errFields⟩

/-- `FLK_DIGEST_LATE` (R327, 10_flight_links_and_replicas.md). -/
def FLK_DIGEST_LATE : RegFam :=
  ⟨"FLK_DIGEST_LATE", 0x220ac, 0x0, 1, 0x0, 1, false, false,
    errFields⟩

/-- `FLK_DIGEST_PEER_DIFF` (R327, 10_flight_links_and_replicas.md). -/
def FLK_DIGEST_PEER_DIFF : RegFam :=
  ⟨"FLK_DIGEST_PEER_DIFF", 0x220b0, 0x0, 1, 0x0, 1, false, false,
    errFields⟩

/-- `FLK_EXPEL` (R327, 10_flight_links_and_replicas.md). -/
def FLK_EXPEL : RegFam :=
  ⟨"FLK_EXPEL", 0x220b4, 0x0, 1, 0x0, 1, false, false,
    errFields⟩

/-- `WGT_WAVE_DEFER` (R347, 11_weight_packages_and_generations.md). -/
def WGT_WAVE_DEFER : RegFam :=
  ⟨"WGT_WAVE_DEFER", 0xb0100, 0x0, 1, 0x0, 1, false, false,
    errFields⟩

/-- `WGT_REPL_RETIRED` (R347, 11_weight_packages_and_generations.md). -/
def WGT_REPL_RETIRED : RegFam :=
  ⟨"WGT_REPL_RETIRED", 0xb0104, 0x0, 1, 0x0, 1, false, false,
    errFields⟩

/-- `WGT_PKG_REJECT` (R347, 11_weight_packages_and_generations.md). -/
def WGT_PKG_REJECT : RegFam :=
  ⟨"WGT_PKG_REJECT", 0xb0108, 0x0, 1, 0x0, 1, false, false,
    errFields⟩

/-- `MEM_STACKs_CE` (R374, 12_near_far_memory_and_scratchpads.md). -/
def MEM_STACKs_CE : RegFam :=
  ⟨"MEM_STACKs_CE", 0x90008, 0x40, 8, 0x0, 1, true, false,
    [fld "COUNT" 63 0 .ro 0]⟩

/-- `MEM_STACKs_UE` (R374, 12_near_far_memory_and_scratchpads.md). -/
def MEM_STACKs_UE : RegFam :=
  ⟨"MEM_STACKs_UE", 0x90010, 0x40, 8, 0x0, 1, false, false,
    errFields⟩

/-- `MEM_FARc_CE` (R374, 12_near_far_memory_and_scratchpads.md). -/
def MEM_FARc_CE : RegFam :=
  ⟨"MEM_FARc_CE", 0x91008, 0x20, 32, 0x0, 1, true, false,
    [fld "COUNT" 63 0 .ro 0]⟩

/-- `MEM_FARc_UE` (R374, 12_near_far_memory_and_scratchpads.md). -/
def MEM_FARc_UE : RegFam :=
  ⟨"MEM_FARc_UE", 0x91010, 0x20, 32, 0x0, 1, false, false,
    errFields⟩

/-- `MEM_POISON_CREATED` (R374, 12_near_far_memory_and_scratchpads.md). -/
def MEM_POISON_CREATED : RegFam :=
  ⟨"MEM_POISON_CREATED", 0x93010, 0x0, 1, 0x0, 1, false, false,
    errFields⟩

/-- `MEM_POISON_CONSUMED` (R374, 12_near_far_memory_and_scratchpads.md). -/
def MEM_POISON_CONSUMED : RegFam :=
  ⟨"MEM_POISON_CONSUMED", 0x93014, 0x0, 1, 0x0, 1, false, false,
    errFields⟩

/-- `MEM_FAR_TAG_FAIL` (R374, 12_near_far_memory_and_scratchpads.md). -/
def MEM_FAR_TAG_FAIL : RegFam :=
  ⟨"MEM_FAR_TAG_FAIL", 0x93018, 0x0, 1, 0x0, 1, false, false,
    errFields⟩

/-- `SPM_CE` (R375, 12_near_far_memory_and_scratchpads.md). -/
def SPM_CE : RegFam :=
  ⟨"SPM_CE", 0x1008100, 0x10000, 544, 0x0, 1, true, false,
    [fld "COUNT" 63 0 .ro 0]⟩

/-- `SPM_UE` (R375, 12_near_far_memory_and_scratchpads.md). -/
def SPM_UE : RegFam :=
  ⟨"SPM_UE", 0x1008108, 0x10000, 544, 0x0, 1, false, false,
    errFields⟩

/-- `SPM_NET_SUPERSEDED` (R375, 12_near_far_memory_and_scratchpads.md). -/
def SPM_NET_SUPERSEDED : RegFam :=
  ⟨"SPM_NET_SUPERSEDED", 0x100810c, 0x10000, 544, 0x0, 1, false, false,
    errFields⟩

/-- `SPM_SEND_SUPERSEDED` (R375, 12_near_far_memory_and_scratchpads.md). -/
def SPM_SEND_SUPERSEDED : RegFam :=
  ⟨"SPM_SEND_SUPERSEDED", 0x1008110, 0x10000, 544, 0x0, 1, false, false,
    errFields⟩

/-- `SPM_SECURE_DROP` (R375, 12_near_far_memory_and_scratchpads.md). -/
def SPM_SECURE_DROP : RegFam :=
  ⟨"SPM_SECURE_DROP", 0x1008114, 0x10000, 544, 0x0, 1, false, false,
    errFields⟩

/-- `SPM_NET_DROP` (R375, 12_near_far_memory_and_scratchpads.md). -/
def SPM_NET_DROP : RegFam :=
  ⟨"SPM_NET_DROP", 0x1008118, 0x10000, 544, 0x0, 1, false, false,
    errFields⟩

/-- `HPT_RX_MSGS` (R401, 13_host_port_and_transport.md). -/
def HPT_RX_MSGS : RegFam :=
  ⟨"HPT_RX_MSGS", 0x10100, 0x0, 1, 0x0, 1, true, false,
    [fld "COUNT" 63 0 .ro 0]⟩

/-- `HPT_TX_MSGS` (R401, 13_host_port_and_transport.md). -/
def HPT_TX_MSGS : RegFam :=
  ⟨"HPT_TX_MSGS", 0x10108, 0x0, 1, 0x0, 1, true, false,
    [fld "COUNT" 63 0 .ro 0]⟩

/-- `HPT_FEC_CORR` (R401, 13_host_port_and_transport.md). -/
def HPT_FEC_CORR : RegFam :=
  ⟨"HPT_FEC_CORR", 0x10110, 0x0, 1, 0x0, 1, true, false,
    [fld "COUNT" 63 0 .ro 0]⟩

/-- `HPT_FEC_UNCORR` (R401, 13_host_port_and_transport.md). -/
def HPT_FEC_UNCORR : RegFam :=
  ⟨"HPT_FEC_UNCORR", 0x10118, 0x0, 1, 0x0, 1, false, false,
    errFields⟩

/-- `HPT_RX_DISCARD` (R401, 13_host_port_and_transport.md). -/
def HPT_RX_DISCARD : RegFam :=
  ⟨"HPT_RX_DISCARD", 0x1011c, 0x0, 1, 0x0, 1, false, false,
    errFields⟩

/-- `HPT_AUTH_FAIL` (R401, 13_host_port_and_transport.md). -/
def HPT_AUTH_FAIL : RegFam :=
  ⟨"HPT_AUTH_FAIL", 0x10120, 0x0, 1, 0x0, 1, false, false,
    errFields⟩

/-- `HPT_RETX_COUNT` (R401, 13_host_port_and_transport.md). -/
def HPT_RETX_COUNT : RegFam :=
  ⟨"HPT_RETX_COUNT", 0x10124, 0x0, 1, 0x0, 1, false, false,
    errFields⟩

/-- `HPT_HELLO_REJECT` (R401, 13_host_port_and_transport.md). -/
def HPT_HELLO_REJECT : RegFam :=
  ⟨"HPT_HELLO_REJECT", 0x10128, 0x0, 1, 0x0, 1, false, false,
    errFields⟩

/-- `HPT_CMD_REJECT` (R401, 13_host_port_and_transport.md). -/
def HPT_CMD_REJECT : RegFam :=
  ⟨"HPT_CMD_REJECT", 0x1012c, 0x0, 1, 0x0, 1, false, false,
    errFields⟩

/-- `HPT_PAUSE_RX` (R401, 13_host_port_and_transport.md). -/
def HPT_PAUSE_RX : RegFam :=
  ⟨"HPT_PAUSE_RX", 0x10130, 0x0, 1, 0x0, 1, false, false,
    errFields⟩

/-- `HPT_OUTPUT_OVERFLOW` (R401, 13_host_port_and_transport.md). -/
def HPT_OUTPUT_OVERFLOW : RegFam :=
  ⟨"HPT_OUTPUT_OVERFLOW", 0x10134, 0x0, 1, 0x0, 1, false, false,
    errFields⟩

/-- `FCL_SRCn_COUNT` (R427, 14_faults_counters_containment.md). -/
def FCL_SRCn_COUNT : RegFam :=
  ⟨"FCL_SRCn_COUNT", 0x32000, 0x0, 1, 0x4, 256, false, false,
    errFields⟩

/-- `FCL_SIG_DROPPED` (R427, 14_faults_counters_containment.md). -/
def FCL_SIG_DROPPED : RegFam :=
  ⟨"FCL_SIG_DROPPED", 0x30030, 0x0, 1, 0x0, 1, false, false,
    errFields⟩

/-- `FCL_SIG_SUPPRESSED` (R427, 14_faults_counters_containment.md). -/
def FCL_SIG_SUPPRESSED : RegFam :=
  ⟨"FCL_SIG_SUPPRESSED", 0x30034, 0x0, 1, 0x0, 1, false, false,
    errFields⟩

/-- `HKA_QUEUE_OVF` (R460, 15_calibration_sensing_power.md). -/
def HKA_QUEUE_OVF : RegFam :=
  ⟨"HKA_QUEUE_OVF", 0x40410, 0x0, 1, 0x0, 1, false, false,
    errFields⟩

/-- `HKA_TRIG_MISSED` (R460, 15_calibration_sensing_power.md). -/
def HKA_TRIG_MISSED : RegFam :=
  ⟨"HKA_TRIG_MISSED", 0x40414, 0x0, 1, 0x0, 1, false, false,
    errFields⟩

/-- `CAL_CRC_FAIL` (R462, 15_calibration_sensing_power.md). -/
def CAL_CRC_FAIL : RegFam :=
  ⟨"CAL_CRC_FAIL", 0x50100, 0x0, 1, 0x0, 1, false, false,
    errFields⟩

/-- `CAL_STATS_UPDATES` (R462, 15_calibration_sensing_power.md). -/
def CAL_STATS_UPDATES : RegFam :=
  ⟨"CAL_STATS_UPDATES", 0x50108, 0x0, 1, 0x0, 1, true, false,
    [fld "COUNT" 63 0 .ro 0]⟩

/-- `PWR_HOLDUP_DEFER` (R464, 15_calibration_sensing_power.md). -/
def PWR_HOLDUP_DEFER : RegFam :=
  ⟨"PWR_HOLDUP_DEFER", 0x60100, 0x0, 1, 0x0, 1, false, false,
    errFields⟩

/-- `SEC_ATTESTS` (R483, 16_identity_attestation_lifecycle.md). -/
def SEC_ATTESTS : RegFam :=
  ⟨"SEC_ATTESTS", 0x70300, 0x0, 1, 0x0, 1, true, false,
    [fld "COUNT" 63 0 .ro 0]⟩

/-- `SEC_LC_REJECT` (R483, 16_identity_attestation_lifecycle.md). -/
def SEC_LC_REJECT : RegFam :=
  ⟨"SEC_LC_REJECT", 0x70308, 0x0, 1, 0x0, 1, false, false,
    errFields⟩

/-- `CNT_ACC_OVERFLOW` (R161, 05_accumulators_and_reduction.md). -/
def CNT_ACC_OVERFLOW : RegFam :=
  ⟨"CNT_ACC_OVERFLOW", 0x80310, 0x0, 1, 0x0, 1, false, false,
    errFields⟩

/-- `CNT_EXPERT_OVERFLOW` (R187, 06_terwen_programming_model.md). -/
def CNT_EXPERT_OVERFLOW : RegFam :=
  ⟨"CNT_EXPERT_OVERFLOW", 0x80314, 0x0, 1, 0x0, 1, false, false,
    errFields⟩

/-- `CNT_SLOT_REPEAT` (R187, 06_terwen_programming_model.md). -/
def CNT_SLOT_REPEAT : RegFam :=
  ⟨"CNT_SLOT_REPEAT", 0x80318, 0x0, 1, 0x0, 1, false, false,
    errFields⟩

/-- `RTR_NET_UNARMED` (R187, 06_terwen_programming_model.md). -/
def RTR_NET_UNARMED : RegFam :=
  ⟨"RTR_NET_UNARMED", 0x100c910, 0x10000, 544, 0x0, 1, false, false,
    errFields⟩

/-- `RTR_FENCE_DROP` (R428, 14_faults_counters_containment.md). -/
def RTR_FENCE_DROP : RegFam :=
  ⟨"RTR_FENCE_DROP", 0x100c914, 0x10000, 544, 0x0, 1, false, false,
    errFields⟩

/-- `SEQ_TABLEn` (R260, 09_barges_admission_speculation.md). -/
def SEQ_TABLEn : RegFam :=
  ⟨"SEQ_TABLEn", 0x400000, 0x0, 1, 0x4, 131072, false, false,
    [fld "WORD" 31 0 .ro 0]⟩

/-- The registers of the `DEV_` block. -/
def blockDEV : List RegFam :=
  [DEV_CORE_MAPn, DEV_CORE_COUNT, DEV_LCORE_SITEn, DEV_SIDEBAND]

/-- The registers of the `ARY_` block. -/
def blockARY : List RegFam :=
  [ARY_STATEa, ARY_PROG_CYCLESa, ARY_AGEa, ARY_DRIFT_COEFa, ARY_SPAREa, ARY_CONVa, ARY_GAIN1_SUBPHASESa, ARY_GAIN2_SUBPHASESa] ++
  [ARY_GAIN4_SUBPHASESa, ARY_FILL_STALLSa, ARY_SPARE_DEFERa, ARY_INDIRn, ARY_LAYER_STEPSn, ARY_LAYER_LIMn, ARY_WIDE_REQ, ARY_CONV_ROT] ++
  [ARY_CAL_METHOD]

/-- The registers of the `SLU_` block. -/
def blockSLU : List RegFam :=
  [SLU_STATE, SLU_PEER, SLU_AUDIT_CTL, SLU_SUBSTn, SLU_OLISTa, SLU_INV_Ga, SLU_AUDITS, SLU_PEER_AUDITS] ++
  [SLU_DISAGREE, SLU_TRANSIENT, SLU_PERMANENT, SLU_CHECKER, SLU_AUDIT_LATE, SLU_RESOLVE_CARRIED, SLU_SUBST_FULL]

/-- The registers of the `RTR_` block. -/
def blockRTR : List RegFam :=
  [RTR_REDn, RTR_FENCE, RTR_RED_PACKETS, RTR_RED_ABANDONED, RTR_RED_STRAY, RTR_NET_UNARMED, RTR_FENCE_DROP]

/-- The registers of the `FLK_` block. -/
def blockFLK : List RegFam :=
  [FLK_LEN_NORMAL, FLK_LEN_WIDE, FLK_LOCKAGE, FLK_LOCK_STATE, FLK_GRACE, FLK_INCOMPLETE, FLK_GRACE_LIMIT, FLK_GRACE_WINDOW] ++
  [FLK_PORTp_STATE, FLK_PORTp_LANE_LIM, FLK_FORM, FLK_COORD, FLK_FLIGHT_STATE, FLK_VER_CAP, FLK_VER_FLIGHT, FLK_VOTE] ++
  [FLK_HALT_REQ, FLK_WIDE_LIMIT, FLK_WIDE_WINDOW, FLK_BAR_CUT, FLK_BAR_FWD, FLK_TIME, FLK_SYNC_OFFSET, FLK_REPLICA] ++
  [FLK_DIGEST_PERIOD, FLK_DIGEST_Wn, FLK_DIGEST_Vn, FLK_PORTp_FEC_CORR, FLK_PORTp_FEC_UNCORR, FLK_PORTp_CTRL_RETX, FLK_PORTp_DROP,
    FLK_WIDE_LOCKAGES] ++
  [FLK_DIGEST_VOID, FLK_DIGEST_LATE, FLK_DIGEST_PEER_DIFF, FLK_EXPEL]

/-- The registers of the `WGT_` block. -/
def blockWGT : List RegFam :=
  [WGT_SCHED_STATE, WGT_SCHED_ERR, WGT_SCHED_ACTIVE_TAG, WGT_SCHED_STAGED_TAG, WGT_CORE_PROGn, WGT_GEN_ACTIVE, WGT_GEN_SLOTn, WGT_PROG_STATE] ++
  [WGT_PROG_WAIT, WGT_REPL, WGT_DRAIN_LEFT, WGT_INST_GENn, WGT_MAINT, WGT_WAVE_DEFER, WGT_REPL_RETIRED, WGT_PKG_REJECT]

/-- The registers of the `MEM_` block. -/
def blockMEM : List RegFam :=
  [MEM_KV_PT_BASE, MEM_KV_NEAR_BASE, MEM_KV_FAR_BASE, MEM_KV_PT_SIZE, MEM_KV_NEAR_GRAN, MEM_KV_FAR_GRAN, MEM_KV_FREE_NEAR, MEM_KV_FREE_FAR] ++
  [MEM_KV_WATER, MEM_KV_LOOKAHEAD, MEM_STACKs_STATE, MEM_FARc_STATE, MEM_SCRUB, MEM_POISON_LAST, MEM_STACKs_CE, MEM_STACKs_UE] ++
  [MEM_FARc_CE, MEM_FARc_UE, MEM_POISON_CREATED, MEM_POISON_CONSUMED, MEM_FAR_TAG_FAIL]

/-- The registers of the `SEQ_` block. -/
def blockSEQ : List RegFam :=
  [SEQ_ROLE, SEQ_COUNT0, SEQ_COUNT1, SEQ_COUNT2, SEQ_SLOTS, SEQ_COMPAT, SEQ_ADMIT, SEQ_QUOTA_DEF_SLOTS] ++
  [SEQ_QUOTA_DEF_GRAN, SEQ_PLAN_RUNn, SEQ_QUOTAn, SEQ_QUOTA_SLOTSn, SEQ_QUOTA_GRANn, SEQ_QUOTA_RSVn, SEQ_VARn, SEQ_TABLEn]

/-- The registers of the `SPM_` block. -/
def blockSPM : List RegFam :=
  [SPM_PWR, SPM_MARCH, SPM_MARCH_STATE, SPM_REMAPn, SPM_SECURE, SPM_CE, SPM_UE, SPM_NET_SUPERSEDED] ++
  [SPM_SEND_SUPERSEDED, SPM_SECURE_DROP, SPM_NET_DROP]

/-- The registers of the `HPT_` block. -/
def blockHPT : List RegFam :=
  [HPT_LINK_STATE, HPT_PMD_ADV, HPT_CTL, HPT_LANE_MAP, HPT_MAC_LO, HPT_MAC_HI, HPT_ETYPE, HPT_IP6n] ++
  [HPT_UDP_PORT, HPT_MTU, HPT_RETX, HPT_TIMEOUTS, HPT_SESSIONS, HPT_RX_MSGS, HPT_TX_MSGS, HPT_FEC_CORR] ++
  [HPT_FEC_UNCORR, HPT_RX_DISCARD, HPT_AUTH_FAIL, HPT_RETX_COUNT, HPT_HELLO_REJECT, HPT_CMD_REJECT, HPT_PAUSE_RX, HPT_OUTPUT_OVERFLOW]

/-- The registers of the `FCL_` block. -/
def blockFCL : List RegFam :=
  [FCL_STATE, FCL_SAT_LAST, FCL_CHIP_RESET, FCL_SIG_STATE, FCL_SIG_FIRST, FCL_SIG_NEXT, FCL_SIG_ERASE, FCL_CP_STATE] ++
  [FCL_SRCn_CFG, FCL_SRCn_STAT, FCL_SRCn_COUNT, FCL_SIG_DROPPED, FCL_SIG_SUPPRESSED]

/-- The registers of the `HKA_` block. -/
def blockHKA : List RegFam :=
  [HKA_CTL, HKA_PWM, HKA_CHn_CFG, HKA_CHn_WIN, HKA_CHn_LAST, HKA_QUEUE, HKA_QUEUE_STATE, HKA_STAGE] ++
  [HKA_QUEUE_OVF, HKA_TRIG_MISSED]

/-- The registers of the `THM_` block. -/
def blockTHM : List RegFam :=
  [THM_DIODEn, THM_TJd, THM_STATE, THM_STRETCH]

/-- The registers of the `CAL_` block. -/
def blockCAL : List RegFam :=
  [CAL_STATE, CAL_AGE, CAL_AGE_CTL, CAL_STATS_CTL, CAL_BANDGAP, CAL_STOREd, CAL_CRC_FAIL, CAL_STATS_UPDATES]

/-- The registers of the `PWR_` block. -/
def blockPWR : List RegFam :=
  [PWR_STATE, PWR_HOLDUP, PWR_HOLDUP_CAP, PWR_INPUT, PWR_HOLDUP_DEFER]

/-- The registers of the `SEC_` block. -/
def blockSEC : List RegFam :=
  [SEC_LC_STATE, SEC_FW, SEC_SERIAL, SEC_CERT_LEN, SEC_RNG, SEC_TAMPER, SEC_FW_MEASn, SEC_ANCHOR_DIGESTn] ++
  [SEC_ANCHOR_ROLESn, SEC_ANCHOR_KEYnw, SEC_CERTn, SEC_ATTESTS, SEC_LC_REJECT]

/-- The registers of the `CNT_` block. -/
def blockCNT : List RegFam :=
  [CNT_QUANT_NONFINITE, CNT_ASCALE_CLAMP, CNT_KV_SCALE_CLAMP, CNT_FP8_SAT, CNT_KV_TENANT, CNT_KV_MISSING, CNT_KV_ALLOC_FAR, CNT_KV_FAR_READ] ++
  [CNT_KV_RCMP_SKIP, CNT_KV_INTEGRITY, CNT_KV_SPILLED, CNT_KV_RESTORED, CNT_KV_RCMP, CNT_SEQ_TTFT_MISS, CNT_SEQ_ITL_MISS, CNT_SEQ_LATE_CANCEL] ++
  [CNT_SEQ_ADMIT_REJECT, CNT_SPEC_BACKOFF, CNT_SPEC_DRAFTED, CNT_SPEC_ACCEPTED, CNT_TOKENS, CNT_ACC_OVERFLOW, CNT_EXPERT_OVERFLOW, CNT_SLOT_REPEAT]

/-- Every management register of the manual. -/
def all : List RegFam :=
  blockDEV ++ blockARY ++ blockSLU ++ blockRTR ++ blockFLK ++ blockWGT ++ blockMEM ++ blockSEQ ++ blockSPM ++ blockHPT ++ blockFCL ++ blockHKA ++
    blockTHM ++ blockCAL ++ blockPWR ++ blockSEC ++ blockCNT

end Sys2Proof.Machine.Reg
end

