-- ==== Sys2Proof/Machine/Float.lean ====
section
/-! DEFINITION. Floating-point values, formats and arithmetic (R92 to R96, R206, R207). A finite value is a sign and an exact
dyadic m × 2^e; every operation computes exactly and rounds once. -/

namespace Sys2Proof.Machine

/-- A floating-point value: NaN, an infinity, or ±m × 2^e (m = 0 is a signed zero). -/
inductive Num where
  | nan
  | inf (neg : Bool)
  | fin (neg : Bool) (m : Nat) (e : Int)
  deriving DecidableEq, Repr

/-- The formats of *Digital formats* (R92). -/
inductive Fmt where
  | fp32
  | bf16
  | fp16
  | e4m3
  | e5m2
  | fp64
  deriving DecidableEq, Repr

/-- Mantissa bits of a format. -/
def Fmt.man : Fmt → Nat
  | .fp32 => 23
  | .bf16 => 7
  | .fp16 => 10
  | .e4m3 => 3
  | .e5m2 => 2
  | .fp64 => 52

/-- Exponent bits of a format. -/
def Fmt.exp : Fmt → Nat
  | .fp32 => 8
  | .bf16 => 8
  | .fp16 => 5
  | .e4m3 => 4
  | .e5m2 => 5
  | .fp64 => 11

/-- Bytes of a format. -/
def Fmt.bytes : Fmt → Nat
  | .fp32 => 4
  | .bf16 => 2
  | .fp16 => 2
  | .e4m3 => 1
  | .e5m2 => 1
  | .fp64 => 8

/-- The exponent of the unit in the last place of the subnormals: 1 − bias − mantissa bits. -/
def Fmt.quantum (f : Fmt) : Int := 2 - (2 : Int) ^ (f.exp - 1) - f.man

/-- The magnitude code of infinity; in E4M3 the code of its NaN, which no finite value may reach. -/
def Fmt.infCode (f : Fmt) : Nat :=
  match f with
  | .e4m3 => 0x7F
  | f => (2 ^ f.exp - 1) * 2 ^ f.man

/-- The bit of the sign. -/
def Fmt.signBit (f : Fmt) : Nat := 2 ^ (f.exp + f.man)

/-- The canonical NaN (R92, R95). -/
def Fmt.nanCode (f : Fmt) : Nat :=
  match f with
  | .e4m3 => 0x7F
  | f => f.infCode + 2 ^ (f.man - 1)

/-- The value that bits of a format encode. -/
def Fmt.decode (f : Fmt) (bits : Nat) : Num :=
  let neg := bits / f.signBit % 2 == 1
  let mag := bits % f.signBit
  let ex := mag / 2 ^ f.man
  let mn := mag % 2 ^ f.man
  if f = .e4m3 then
    if mag = 0x7F then .nan
    else if ex = 0 then .fin neg mn f.quantum else .fin neg (mn + 2 ^ f.man) (f.quantum + (ex - 1 : Nat))
  else if mag > f.infCode then .nan
  else if mag = f.infCode then .inf neg
  else if ex = 0 then .fin neg mn f.quantum
  else .fin neg (mn + 2 ^ f.man) (f.quantum + (ex - 1 : Nat))

/-- Rounding modes: to nearest with ties to even; away from zero in magnitude (toward +∞ for a positive value). -/
inductive Rnd where
  | near
  | up
  deriving DecidableEq, Repr

/-- `m ÷ 2^d` rounded to an integer. -/
def roundShift (r : Rnd) (m d : Nat) : Nat :=
  let q := m / 2 ^ d
  let rem := m % 2 ^ d
  match r with
  | .near =>
    if 2 * rem > 2 ^ d then q + 1
    else if 2 * rem = 2 ^ d then q + q % 2
    else q
  | .up => if rem = 0 then q else q + 1

/-- The magnitude code of m × 2^e in a format whose exponent range has no upper limit (R93, R94). -/
def Fmt.roundCode (f : Fmt) (r : Rnd) (m : Nat) (e : Int) : Nat :=
  if m = 0 then 0
  else
    let qe := max ((Nat.log2 m : Int) + e - f.man) f.quantum
    let q := if qe ≤ e then m * 2 ^ (e - qe).toNat else roundShift r m (qe - e).toNat
    q + (qe - f.quantum).toNat * 2 ^ f.man

/-- Whether rounding to the format saturates (R94): the FP8 formats saturate, and an infinity counts in E4M3. -/
def Fmt.saturates (f : Fmt) (x : Num) : Bool :=
  match f, x with
  | .e4m3, .inf _ => true
  | .e4m3, .fin _ m e => decide (f.infCode ≤ f.roundCode .near m e)
  | .e5m2, .fin _ m e => decide (f.infCode ≤ f.roundCode .near m e)
  | _, _ => false

/-- The bits of a value rounded to a format (R93 to R95). -/
def Fmt.encodeR (f : Fmt) (r : Rnd) (x : Num) : Nat :=
  match x with
  | .nan => f.nanCode
  | .inf neg => (if f = .e4m3 then 0x7E else f.infCode) + (if neg then f.signBit else 0)
  | .fin neg m e =>
    let c := f.roundCode r m e
    let c := if f.infCode ≤ c then (if f = .e4m3 ∨ f = .e5m2 then f.infCode - 1 else f.infCode) else c
    c + (if neg then f.signBit else 0)

/-- Rounding to nearest with ties to even. -/
def Fmt.encode (f : Fmt) (x : Num) : Nat := f.encodeR .near x

/-- A value rounded to a format, as a value. -/
def Fmt.round (f : Fmt) (x : Num) : Num := f.decode (f.encode x)

/-! ### Exact operations on values -/

/-- The signed mantissa of a finite value at exponent `e'` at most its own. -/
def alignTo (neg : Bool) (m : Nat) (e e' : Int) : Int :=
  let v : Int := (m * 2 ^ (e - e').toNat : Nat)
  if neg then -v else v

/-- The value of a signed mantissa. -/
def Num.ofInt (v : Int) (e : Int) (zeroNeg : Bool) : Num :=
  if v = 0 then .fin zeroNeg 0 e else .fin (decide (v < 0)) v.natAbs e

/-- x + y; an exact zero sum of nonzero terms is +0. -/
def Num.add (x y : Num) : Num :=
  match x, y with
  | .nan, _ => .nan
  | _, .nan => .nan
  | .inf a, .inf b => if a = b then .inf a else .nan
  | .inf a, _ => .inf a
  | _, .inf b => .inf b
  | .fin a m e, .fin b n d =>
    let k := min e d
    Num.ofInt (alignTo a m e k + alignTo b n d k) k (a && b)

/-- −x. -/
def Num.neg (x : Num) : Num :=
  match x with
  | .nan => .nan
  | .inf a => .inf (!a)
  | .fin a m e => .fin (!a) m e

/-- |x|. -/
def Num.abs (x : Num) : Num :=
  match x with
  | .nan => .nan
  | .inf _ => .inf false
  | .fin _ m e => .fin false m e

/-- x × y. -/
def Num.mul (x y : Num) : Num :=
  match x, y with
  | .nan, _ => .nan
  | _, .nan => .nan
  | .inf a, .inf b => .inf (a != b)
  | .inf a, .fin b n _ => if n = 0 then .nan else .inf (a != b)
  | .fin a m _, .inf b => if m = 0 then .nan else .inf (a != b)
  | .fin a m e, .fin b n d => .fin (a != b) (m * n) (e + d)

/-- Bits of a quotient or a root: more than any format keeps, with the last one sticky. -/
def divBits : Nat := 320

/-- m ÷ n as a dyadic whose last bit says whether a remainder is left. -/
def divDyadic (m : Nat) (e : Int) (n : Nat) (d : Int) : Nat × Int :=
  let k := divBits + Nat.log2 n
  let q := m * 2 ^ k / n
  let sticky := if m * 2 ^ k % n = 0 then 0 else 1
  (2 * q + sticky, e - d - k - 1)

/-- x ÷ y. -/
def Num.div (x y : Num) : Num :=
  match x, y with
  | .nan, _ => .nan
  | _, .nan => .nan
  | .inf _, .inf _ => .nan
  | .inf a, .fin b _ _ => .inf (a != b)
  | .fin a _ _, .inf b => .fin (a != b) 0 0
  | .fin a m e, .fin b n d =>
    if n = 0 then (if m = 0 then .nan else .inf (a != b))
    else let (q, k) := divDyadic m e n d
      .fin (a != b) q k

/-- The integer square root, bit by bit from bit `k` − 1 down. -/
def isqrtFrom (n k acc : Nat) : Nat :=
  match k with
  | 0 => acc
  | k + 1 => let t := acc + 2 ^ k
    isqrtFrom n k (if t * t ≤ n then t else acc)

/-- ⌊√n⌋. -/
def isqrt (n : Nat) : Nat := isqrtFrom n (Nat.log2 n / 2 + 1) 0

/-- √x of a value that is not negative, with a sticky last bit; a negative value gives NaN, √(−0) = −0. -/
def Num.sqrt (x : Num) : Num :=
  match x with
  | .nan => .nan
  | .inf a => if a then .nan else .inf false
  | .fin a m e =>
    if m = 0 then .fin a 0 0
    else if a then .nan
    else
      let odd := e % 2 == 1
      let m' := (if odd then 2 * m else m) * 2 ^ (2 * divBits)
      let e' := (if odd then e - 1 else e) / 2 - divBits
      let r := isqrt m'
      .fin false (2 * r + (if r * r = m' then 0 else 1)) (e' - 1)

/-- Whether x is a number below y; false where either is a NaN. -/
def Num.lt (x y : Num) : Bool :=
  match x, y with
  | .nan, _ => false
  | _, .nan => false
  | .inf a, .inf b => a && !b
  | .inf a, _ => a
  | _, .inf b => !b
  | .fin a m e, .fin b n d =>
    let k := min e d
    decide (alignTo a m e k < alignTo b n d k)

/-- Whether x and y are numbers of equal value. -/
def Num.eqv (x y : Num) : Bool :=
  match x, y with
  | .nan, _ => false
  | _, .nan => false
  | _, _ => !Num.lt x y && !Num.lt y x

/-- Whether the value is a NaN. -/
def Num.isNan (x : Num) : Bool :=
  match x with
  | .nan => true
  | _ => false

/-- Whether the value is finite. -/
def Num.isFin (x : Num) : Bool :=
  match x with
  | .fin _ _ _ => true
  | _ => false

/-- Whether the value is ±0. -/
def Num.isZero (x : Num) : Bool :=
  match x with
  | .fin _ m _ => m == 0
  | _ => false

/-- The nearest integer, ties to even, of a finite value; 0 of any other. -/
def Num.toIntR (x : Num) : Int :=
  match x with
  | .fin neg m e =>
    let q : Int := (if 0 ≤ e then m * 2 ^ e.toNat else roundShift .near m (-e).toNat : Nat)
    if neg then -q else q
  | _ => 0

/-- An integer as a value. -/
def Num.int (v : Int) : Num := .fin (decide (v < 0)) v.natAbs 0

/-! ### FP32 arithmetic on bits -/

/-- The value of an FP32 word. -/
def F32.num (x : F32) : Num := Fmt.fp32.decode x.toNat

/-- A value rounded to FP32. -/
def F32.of (x : Num) : F32 := BitVec.ofNat 32 (Fmt.fp32.encode x)

/-- The value of an FP16 word. -/
def F16.num (x : F16) : Num := Fmt.fp16.decode x.toNat

/-- A value rounded to FP16. -/
def F16.of (x : Num) : F16 := BitVec.ofNat 16 (Fmt.fp16.encode x)

/-- The value of a BF16 word. -/
def BF16.num (x : F16) : Num := Fmt.bf16.decode x.toNat

/-- A value rounded to BF16. -/
def BF16.of (x : Num) : F16 := BitVec.ofNat 16 (Fmt.bf16.encode x)

/-- An FP16 word widened exactly to FP32. -/
def F32.ofF16 (x : F16) : F32 := F32.of (F16.num x)

/-- An integer in FP32. -/
def F32.ofInt (v : Int) : F32 := F32.of (Num.int v)

/-- FP32 addition, to nearest with ties to even. -/
def F32.add (x y : F32) : F32 := F32.of (Num.add (F32.num x) (F32.num y))

/-- FP32 subtraction. -/
def F32.sub (x y : F32) : F32 := F32.of (Num.add (F32.num x) (Num.neg (F32.num y)))

/-- FP32 multiplication. -/
def F32.mul (x y : F32) : F32 := F32.of (Num.mul (F32.num x) (F32.num y))

/-- FP32 division. -/
def F32.div (x y : F32) : F32 := F32.of (Num.div (F32.num x) (F32.num y))

/-- x × y + z with one rounding. -/
def F32.fma (x y z : F32) : F32 := F32.of (Num.add (Num.mul (F32.num x) (F32.num y)) (F32.num z))

/-- FP32 square root. -/
def F32.sqrt (x : F32) : F32 := F32.of (Num.sqrt (F32.num x))

/-- The larger of two, a NaN in either giving the canonical NaN (R206); equal values give the first. -/
def Num.larger (x y : Num) : Num := if x.isNan || y.isNan then .nan else if Num.lt x y then y else x

/-- The smaller of two, NaN as for the larger. -/
def Num.smaller (x y : Num) : Num := if x.isNan || y.isNan then .nan else if Num.lt y x then y else x

/-- The canonical FP32 NaN. -/
def F32.nan : F32 := 0x7FC00000

/-- FP32 1. -/
def F32.one : F32 := 0x3F800000

/-- Whether an FP32 word is finite. -/
def F32.isFin (x : F32) : Bool := (F32.num x).isFin

/-- Whether an FP32 word is ±0. -/
def F32.isZero (x : F32) : Bool := (F32.num x).isZero

/-- Whether an FP32 word is a NaN. -/
def F32.isNan (x : F32) : Bool := (F32.num x).isNan

/-- A left-to-right FP32 sum from +0. -/
def F32.sumL (xs : List F32) : F32 := xs.foldl F32.add 0

end Sys2Proof.Machine
end

