-- ==== Sys2Proof/Machine/BlockState.lean ====
section
/-! DEFINITION. The state of the device beyond its cores, as plain data: KV pages (chapter 08), barges (09), the flight (10),
generations and programming (11), the host port (13), the fault collector (14), calibration and power (15), the security
block (16), pins (17). Registers stand in `State.regs`. -/

namespace Sys2Proof.Machine

/-! ### KV pages -/

/-- A spill or restore copy of a page (R250, R251): the page by barge, layer and local index, the frames it reads and the fresh
frames it fills, whether it has completed. -/
structure Copy where
  spill : Bool
  barge : Nat
  layer : Nat
  page : Nat
  source : List Nat
  target : List Nat
  done : Bool
  deriving DecidableEq, Repr

/-- A staged recompression (R254, R255): the page, its INT4 granule, its scale granule (number, whether far) and slot, and the FP8 frames it
replaces. -/
structure Rcmp where
  barge : Nat
  layer : Nat
  page : Nat
  data : Nat
  scale : Nat × Bool
  slot : Nat
  old : List Nat
  deriving DecidableEq, Repr

/-- A command with what the entry device keeps of it: whether one boundary has passed since it was taken (R243, R285), and
whether the list of a lockage holds it (R265). -/
structure Queued where
  cmd : Staged
  seen : Bool
  listed : Bool
  deriving DecidableEq, Repr

/-- The page manager: valid level-3 entries by virtual granule (2^25 × identifier + virtual address ÷ 2^15, R237, R238); where the level-2 and
level-3 tables lie, as 4 KiB units of the page-table region plus 1, by 2 × (256 × identifier + layer) for a level-2 table and 2 × (2^16 ×
identifier + 2^8 × layer + level-2 index) + 1 for a level-3 table (notes/assumptions/26.md); the next stack of each die's rotation (R242),
copies and recompressions, 4 KiB units of far memory whose tag has failed (R253, R360), the version counter of each far granule (R250). -/
structure Kv where
  l3 : SMap (BitVec 64)
  tabs : SMap Nat
  rotor : SMap Nat
  copies : List Copy
  rcmps : List Rcmp
  badTags : List Nat
  versions : SMap (BitVec 64)
  deriving DecidableEq, Repr

/-! ### Barges -/

/-- The states of a barge (R261, R262). -/
inductive BState where
  | free
  | admitted
  | prefill
  | decode
  | spilled
  | ended
  deriving DecidableEq, Repr

/-- A barge: the fields of *Barge entry* with the full 64-bit lockage numbers (R271), and what every device keeps beside them:
the prompt (until `PREFILL` ends), the output count, the request number of a VX-20 record, the times of the deadlines (R273, in
8 ns ticks), the repeats in a row (R175), the run it holds in the lockage. -/
structure Barge where
  state : BState
  endStatus : Nat
  lateCancel : Bool
  prio : Nat
  compat : Bool
  kvPolicy : Nat
  length : Nat
  tenant : Nat
  generation : Nat
  allRun : Nat
  specOff : Nat
  zeroRun : Nat
  depthMax : Nat
  depth : Nat
  variant : Nat
  promptLen : Nat
  maxNew : Nat
  stop : Nat
  ttft : Nat
  itl : Nat
  topP : F16
  temp : F16
  session : Nat
  topK : Nat
  seed : BitVec 64
  accepted : Nat
  drafted : Nat
  lastSlot : Nat
  entered : Nat
  prompt : List (BitVec 32)
  outCount : Nat
  request : BitVec 32
  admitTime : Nat
  firstSent : Bool
  lastSent : Nat
  spilledAt : Nat
  repeats : Nat
  runFirst : Nat
  runLen : Nat
  deriving DecidableEq, Repr

/-- What `BRG.ACPT` has staged for a slot (R222), and whether `BRG.EMIT` has handed it on. -/
structure AccSlot where
  slot : Nat
  a : Nat
  tokens : List (BitVec 32)
  emitted : Bool
  deriving DecidableEq, Repr

/-- A steering variant (R283): loaded; unloaded because a read met poison (R284); generation, tenant, contents, and the digest of the contents
at the load (R320). -/
structure Variant where
  loaded : Bool
  poisoned : Bool
  gen : Nat
  tenant : Nat
  data : List VarLayer
  digest : BitVec 256
  deriving DecidableEq, Repr

/-- The sequence table and what stands beside it: commands taken and waiting for their boundary (R265), admissions held by a
replacement (R343), slots sampled in the lockage with whether they gave a token (R175), acceptances staged by this device and
those broadcast by the exit device (R266), tokens handed over and not yet sent (R397), variants, `SEQ_COMPAT` as it is in force (R286). -/
structure Seq where
  barges : SMap Barge
  queue : List Queued
  held : List Staged
  sampled : List (Nat × Bool)
  accepts : List AccSlot
  results : List Accept
  outbox : List (Nat × List (BitVec 32))
  variants : SMap Variant
  compatNow : Nat
  deriving DecidableEq, Repr

/-! ### The flight -/

/-- A command whose answer waits: session, opcode and tag. -/
structure Reply where
  session : Nat
  op : Nat
  tag : BitVec 16
  deriving DecidableEq, Repr

/-- A control message waiting for its acknowledgement, and how often it has been resent (R296). -/
structure TxCtl where
  msg : CtlMsg
  resends : Nat
  deriving DecidableEq, Repr

/-- A flight port: sequence numbers of the control messages, messages unacknowledged, the last number received, a lane
switch that takes effect after the boundary (R297), the frames received since the last bad one (R295; none where there has been no bad
frame) and whether the last check of the spare lane's copy found a difference (R297). -/
structure Port where
  next : BitVec 8
  waiting : List TxCtl
  lastRx : BitVec 8
  switchLane : Option Nat
  sinceBad : Option Nat
  spareBad : Bool
  deriving DecidableEq, Repr

/-- The place of the device in the barrier tree (R308): the root, its own depth, the port to its parent, the ports to its
children. -/
structure Tree where
  root : Nat
  depth : Nat
  parent : Option Nat
  children : List Nat
  deriving DecidableEq, Repr

/-- A schedule activation that waits for its lockage (R172), or for the done boundary of a replacement (`atDone`). -/
structure Activation where
  session : Nat
  tag : BitVec 16
  sched : Nat
  lockage : Nat
  atDone : Bool
  deriving DecidableEq, Repr

/-- Digest rounds (R319 to R322): the period in force, the lockage of the round's start, the round number, void, ready, the last
completed message, consecutive misses per device (root), the barges that held slots per instance in this round and the two before
it, the expelled devices, those that the next release expels and those that it takes back, the digest messages that have come. -/
structure Digest where
  period : Nat
  start : Nat
  round : Nat
  void : Bool
  ready : Bool
  own : Option DigestMsg
  misses : SMap Nat
  touched : List (List (Nat × Nat))
  expelled : List Nat
  expelling : List Nat
  rejoin : List Nat
  got : List DigestMsg
  deriving DecidableEq, Repr

/-- The flight as this device sees it. `arrivals` are the children's arrivals of the lockage, `sent` that its own has left, `late` that it left
under the deadline of R309, `release` the release that the coming boundary applies, `causes` end causes waiting for an arrival (R268) and
`relCauses` those that wait at the root for a release (R311); `wideHist` and `graceHist` the last 1,024 lockages, latest first (R176, R313);
`cmdsIn` and `accIn` the broadcasts held (R266); `reports` those of the last release; `votes` whether the last 15 votes carried `WIDE`, latest first
(R310); `syncLost` an offset beyond 100 ns since formation (R302), `lost` a barrier lost since (R316); `cap` the version ranges of the devices met
while forming (R324), `key` the flight key (R478), `chainBad` a peer whose identity was refused (R478); `forming` who is to be answered; `stretch`
the factor of the current lockage (R452); `phase` by how much the time base has slewed beyond its whole ticks, in 1/16 ns, `stamp` the time stamps
of an exchange whose reply has come, when the request left and the parent's time (R301); `hung` the cores that the last grace quantum found hung
(R420). -/
structure Flt where
  ports : List Port
  tree : Tree
  arrivals : List (Nat × Arrival)
  sent : Bool
  late : Bool
  release : Option Release
  causes : List EndCause
  relCauses : List EndCause
  wideHist : List Bool
  graceHist : List Bool
  overrunTold : Bool
  cmdsIn : Bool
  accIn : Bool
  reports : List DevReport
  activation : Option Activation
  start : Nat
  graced : Bool
  key : Option (BitVec 128)
  votes : List Bool
  syncLost : Bool
  lost : Bool
  cap : BitVec 32
  chainBad : Bool
  forming : Option Reply
  stretch : Nat
  phase : Int
  stamp : Option (Nat × Nat)
  hung : List Nat
  digest : Digest
  deriving DecidableEq, Repr

/-! ### Generations and programming -/

/-- A generation slot's contents and what its non-volatile state records beside `WGT_GEN_SLOTn` (R333, R338): the shard and the
digest over header, references, index and signature as delivered (R470), the load in progress (who asked, N, shard, refill),
whether a block that could not be reloaded leaves it unable to program (R363), the derived reference of a version 1 package
(R331), whether target levels have come poisoned and must be reloaded before a wave or step goes on (R343, R361), the tiles whose master
weights could not be reloaded (R363). -/
structure Gen where
  pkg : Option Package
  pkgId : BitVec 64
  shard : Nat
  delivered : BitVec 256
  loading : Option (Reply × Nat × Nat × Bool)
  broken : Bool
  derived : BitVec 256
  reload : Bool
  noMaster : List Nat
  deriving DecidableEq, Repr

/-- Programming of one die (R335, R336): the wave in progress or next to start, the arrays of it not yet done (site, array), whether
it waits on a precondition, whether it has stopped, whether wave 7 is over. -/
structure DieProg where
  wave : Nat
  todo : List (Nat × Nat)
  waiting : Bool
  stopped : Bool
  done : Bool
  deriving DecidableEq, Repr

/-- A programming of a generation (R335 to R339): the slot, whether it resumes one that stopped (R337), both dies, tiles that failed and
wait for the spare step (site, tile), those that it has placed (site, logical array, physical array), those left without an array;
`erase` is the life-cycle transition that waits for every array to be programmed to level 8, with who is to be answered and what becomes
of the anchor table (R473), where that is what this programming does. -/
structure Prog where
  slot : Nat
  erase : Option (Reply × LcRecord × Nat)
  resumed : Bool
  dies : List DieProg
  spares : List (Nat × Nat)
  placed : List (Nat × Nat × Nat)
  unplaced : List Nat
  complete : Bool
  deriving DecidableEq, Repr

/-- A replacement (R342, R343): its mask, generation and mode, the phase (1 draining, 2 programming, 3 stopped), the lockages left before the
drain timeout, whether that has come, the schedule to activate at Bd. `WGT_REPL` and `WGT_DRAIN_LEFT` show the oldest. -/
structure Repl where
  mask : Nat
  gen : Nat
  retire : Bool
  phase : Nat
  left : Nat
  timedOut : Bool
  tag : Option Nat
  deriving DecidableEq, Repr

/-- A maintenance beyond `WGT_MAINT` (R345): who asked, the site, the array in service and the spare, whether the copy is complete,
whether the programming of the current step (of step 1 before the copy is complete) waits on a precondition. -/
structure Maint where
  reply : Reply
  site : Nat
  arr : Nat
  spare : Nat
  copied : Bool
  waiting : Bool
  deriving DecidableEq, Repr

/-! ### The host port -/

/-- A DATA message sent and not acknowledged (R388), which a resend repeats unchanged: `acks` is its `ACK` and `SACK` where it acknowledges a
stream (R382: an answer acknowledges the command stream), `wire` the message as sent: header, ciphertext and tag (R382, R387). -/
structure OutMsg where
  seq : Nat
  bytes : List Byte
  more : Bool
  acks : Option (Nat × BitVec 64)
  wire : List Byte
  resends : Nat
  sacked : Bool
  deriving DecidableEq, Repr

/-- A sending stream: next SEQ, messages unacknowledged, messages that wait for the window. -/
structure TxStream where
  next : Nat
  sent : List OutMsg
  waiting : List (List Byte × Bool)
  deriving DecidableEq, Repr

/-- A receiving stream: the next SEQ expected, messages received ahead of it, messages unacknowledged so far, the message
assembled. -/
structure RxStream where
  next : Nat
  early : List (Nat × Bool × List Byte)
  unacked : Nat
  buf : List Byte
  deriving DecidableEq, Repr

/-- The keys and the IVs of a session's streams (R384). -/
structure SessionKeys where
  kCmd : List Byte
  kAns : List Byte
  kOut : List Byte
  ivCmd : List Byte
  ivAns : List Byte
  ivOut : List Byte
  deriving DecidableEq, Repr

/-- The device's side of a session's opening (R384): its ephemeral point, its nonce, the confirmation value that it sends and the one that it
expects. -/
structure Share where
  eph : List Byte
  nonce : BitVec 256
  sB : List Byte
  sA : List Byte
  deriving DecidableEq, Repr

/-- A session (R383 to R388): number, version, role, whether CONFIRM has come, the host's nonce, encapsulation and host address, the keys, the
device's side of the opening, streams, the control counter, commands taken from its stream whose row has not run, and the tags of commands
taken and not answered. -/
structure Session where
  number : Nat
  ver : BitVec 8
  role : Role
  isOpen : Bool
  nonce : BitVec 256
  udp : Bool
  host : BitVec 128
  keys : SessionKeys
  share : Share
  cmd : RxStream
  ans : TxStream
  out : TxStream
  ctl : Nat
  taken : List (List Byte)
  unanswered : List (BitVec 16)
  stopped : Bool
  closing : Bool
  deriving DecidableEq, Repr

/-- A staging area (R394). -/
structure Area where
  isOpen : Bool
  closed : Bool
  busy : Bool
  size : Nat
  bytes : Mem
  deriving DecidableEq, Repr

/-- What leaves the host port outside a session's data streams: the answers to HELLO with their payload, control messages as sent (`wire`) with
their counter (R387), each to its encapsulation and host address (R381), answers to neighbours. -/
inductive Sent where
  | helloAck (udp : Bool) (host : BitVec 128) (status : Nat) (ver : BitVec 8) (session : Nat) (payload : List Byte)
  | ack (udp : Bool) (host : BitVec 128) (session stream counter next : Nat) (sack : BitVec 64) (wire : List Byte)
  | close (udp : Bool) (host : BitVec 128) (session counter reason : Nat) (wire : List Byte)
  | neighborAdvertisement (target : BitVec 128)
  | echoReply (dst : BitVec 128)
  deriving DecidableEq, Repr

/-- The host port: sessions, staging areas (schedule, package, firmware), what has been sent outside the data streams since the reset,
oldest first, the status and data of the latest register access over the management network, the configuration in force (R400; none
before the first training): the values of `portRegs`, and the flight sessions that the device has closed as their exit device and has not yet
reported to the entry device (R398). -/
structure Hpt where
  sessions : List Session
  areas : List Area
  sent : List Sent
  status : Nat
  data : List (BitVec 32)
  config : List Nat
  closings : List Nat
  deriving DecidableEq, Repr

/-- Commands that wait for an event: who is to be answered. `passed` are the sites whose sluice has passed its self-test and whose
checker is active from the next boundary (R426); `marches` the sites under a march test, with whether it preserves contents; `install` the
generation slot that the loader writes out at step 5 of the next boundary (R334, R338) and `switches` the tiles that then move to a spare
array (site, logical array, physical array; R164, R339); `owed` the generation slots and sites whose outlier lists wait for the end of a march test
(R370); `left` the arrays that stopped maintenances have left in `PROGRAMMING` (site, logical
array, physical array; R345). -/
structure Jobs where
  validate : Option Reply
  calibrate : Option Reply
  calScope : Nat
  calSite : Nat
  selfTests : List (Nat × Reply)
  passed : List Nat
  fences : List (Nat × Reply)
  power : Option Reply
  fw : Option Reply
  fwImage : Option FwImage
  marches : List (Nat × Bool)
  install : Option Nat
  switches : List (Nat × Nat × Nat)
  owed : List (Nat × Nat)
  left : List (Nat × Nat × Nat)
  deriving DecidableEq, Repr

/-! ### The fault collector -/

/-- A signature record (R414 to R416): everything that *CPER record as written* is built from. -/
structure SigRec where
  number : Nat
  src : Nat
  unit : Nat
  sev : Nat
  kind : Nat
  payload : List Byte
  lockage : Nat
  time : Nat
  count : Nat
  devNo : Nat
  gen : Nat
  lc : Nat
  sched : Nat
  deriving DecidableEq, Repr

/-- A control pair (R422): a self-test runs; the time of the last mismatch; whether that came within 10 s of the one before. -/
structure Pair where
  testing : Bool
  last : Option Nat
  again : Bool
  deriving DecidableEq, Repr

/-- The collector beyond its registers: the buffer and the partition of signature records, the time of the last capture per
source and unit, interrupts and traps delivered per control pair, resets that reactions have asked for, a host port reset. -/
structure Fcl where
  buffer : List SigRec
  store : List SigRec
  lastCap : SMap Nat
  irqs : SMap Nat
  nmis : SMap Nat
  chipReset : Bool
  safeReq : Bool
  hostReset : Bool
  pairs : List Pair
  deriving DecidableEq, Repr

/-! ### Calibration, sensing, power -/

/-- A record of the calibration store (R438). -/
structure CalRec where
  typ : Nat
  arr : Nat
  site : Nat
  seq : Nat
  payload : List Byte
  deriving DecidableEq, Repr

/-- The calibration store of a die (R438, R440): the records of the active half in order, the records waiting for a batch, the
next sequence number, the bytes of the active half that records with a bad read-back take (R440). -/
structure CalStore where
  recs : List CalRec
  waiting : List CalRec
  next : Nat
  lost : Nat
  deriving DecidableEq, Repr

/-- An entry of the housekeeping queue (R447). -/
structure HkaEntry where
  trig : Nat
  chan : Nat
  seq : Nat
  code : Nat
  deriving DecidableEq, Repr

/-- Sensing beyond its registers: the products of voltage and current codes of the last scans, latest first (R452); thermal
conditions of each die (R451); diodes' runs of deviating comparisons (R450); the die whose band-gap is measured next (R430); the
queue and the triggers counted per group (R447); corrections that statistics have ready for the next boundary (R437). -/
structure Sense where
  products : List Nat
  warn : List Bool
  throttle : List Bool
  shutdown : List Bool
  diodesLow : List Bool
  streaks : SMap Nat
  bandgapDie : Nat
  queue : List HkaEntry
  timerSeq : Nat
  pwmSeq : Nat
  overTrip : Bool
  fits : List (Nat × Nat × Nat × CorrEntry)
  deriving DecidableEq, Repr

/-- Power and pins: VIN in range, the device powered (from the rise of PWR_EN until OFF is complete), the boot done, OFF by `POWER` with
PWR_EN still high (R494), whether input power has stayed applied since the last boot (R441), the states still to enter of a transition in
progress, programs to stop at the next boundary (R459). `pwrEn` and `resetN` are the levels at the pins PWR_EN and RESET_N, which `DEV_SIDEBAND`
shows as last sampled (R487), `lowMs` the milliseconds, counted up to 10, since PWR_EN fell (R494). -/
structure Pow where
  vin : Bool
  pwrEn : Bool
  resetN : Bool
  lowMs : Nat
  on : Bool
  booted : Bool
  offLatch : Bool
  kept : Bool
  path : List Nat
  toIdle : Bool
  deriving DecidableEq, Repr

/-- The security block beyond its registers: the flash image (none before the first boot), tenant root present, the fused device secret, the
fused digest of the Otost root public key, the secret blown (R468, R473), how often tenant keys have been drawn afresh (R479), recovery to be
reported. -/
structure Sec where
  flash : Option FwImage
  root : Bool
  secret : BitVec 256
  otost : BitVec 256
  blown : Bool
  rootDraws : Nat
  recovered : Bool
  deriving DecidableEq, Repr

end Sys2Proof.Machine
end

