-- ==== Sys2Proof/Machine/CoreState.lean ====
section
/-! DEFINITION. The state of one core site as plain data: the architectural state of a Terwen core (R163), its arrays
(chapter 02), sluice (chapter 04), reduction contexts (R154) and what the core has in flight. Registers of the site's
`ARY_`, `SLU_`, `SPM_` and `RTR_` blocks stand with all other registers in `State.regs`. -/

namespace Sys2Proof.Machine

/-- One level of the loop stack (R168): where the body starts, its length, the trip count, the current index. -/
structure Loop where
  start : Nat
  len : Nat
  trip : Nat
  i : Nat
  deriving DecidableEq, Repr

/-- An armed signal counter (R177): its number, its range, the packets expected and those counted. -/
structure Arm where
  k : Nat
  base : Nat
  bytes : Nat
  expect : Nat
  count : Nat
  deriving DecidableEq, Repr

/-- What a core's issue does: no program runs; instructions issue; a wait or the barrier holds issue (R192, R195); the
barrier has been reached. -/
inductive Run where
  | idle
  | issue
  | waitSig (k : Nat)
  | waitRed (tree use : Nat)
  | barrier
  | arrived
  deriving DecidableEq, Repr

/-- The descriptor of a logical array (R202). -/
structure Desc where
  ww : Nat
  oaddr : Nat
  ocount : Nat
  deriving DecidableEq, Repr

/-- What an array holds: nothing, tile `n` of generation slot `slot`, or the streamed image recorded at an address. -/
inductive Holds where
  | none
  | gen (slot n : Nat)
  | image (addr : Nat)
  deriving DecidableEq, Repr

/-- A retirement in progress (R41): a row or a column, the logical element, the spare that stands in, and whether the spare's
programming has started and completed. -/
structure Retire where
  isRow : Bool
  elem : Nat
  spare : Nat
  started : Bool
  done : Bool
  deriving DecidableEq, Repr

/-- The running statistics of a physical column (R437): n, Σr, ΣE, Σr·E, ΣE², Σr² and the sum of the sensitivities m, held
exactly. -/
structure ColStats where
  n : Nat
  r : Num
  e : Num
  re : Num
  ee : Num
  rr : Num
  m : Num
  deriving DecidableEq, Repr

/-- An audit drawn for an array (R123): the logical column, whether its master column has arrived, and whether it came
poisoned (R361). -/
structure Draw where
  col : Nat
  arrived : Bool
  poisoned : Bool
  deriving DecidableEq, Repr

/-- A fill, in progress (R67) or waiting in the array unit's queue (R68): the logical and the physical array, the source address of
the image, whether the image carries poison (R361), whether a part of it never comes (R28, R417), and when it started. -/
structure FillIn where
  la : Nat
  phys : Nat
  src : Nat
  bad : Bool
  cut : Bool
  since : Nat
  deriving DecidableEq, Repr

/-- One physical array: cell levels (key 528 × physical row + physical column; of a streamed array the image's bytes, two cells
in a byte), what it holds, whether its image came poisoned, the row remap (logical row to
spare row; 0 none) and the column steering (logical column to spare column; 0 none), retirements, correction table, trims,
the audit's state, a streamed array's fill, column statistics, the mean gain and the generation of its last completed programming
(R337, R443). -/
structure Arr where
  cells : Mem
  holds : Holds
  bad : Bool
  rowMap : SMap Nat
  steer : SMap Nat
  retire : List Retire
  corr : SMap CorrEntry
  colTrim : SMap (BitVec 10)
  convRef : SMap (BitVec 10)
  convOff : SMap (BitVec 10)
  evals : Nat
  suspended : Bool
  owed : Bool
  draw : Option Draw
  fill : Option FillIn
  stats : SMap ColStats
  meanGain : F32
  gen : Nat
  deriving DecidableEq, Repr

/-- What one array of an evaluation drives and is corrected with: what the array holds, whether that is no usable tile (R361, R503),
whether its outlier list came poisoned (R361; in either case every column delivers NaN), the operand's integers and scale, the weir gain
of every sub-phase in drive order (0 gain 1, 1 gain 1/2, 2 gain 1/4), the drive sums, the outlier list, and the table, steering and
substitutions (physical column, master column). Operand, descriptor and list are those of the issue, which R179 protects; `holds`, `lost`,
`steer`, `corr` and `subst` are those of the evaluation's start (R114). -/
structure EvalArr where
  la : Nat
  phys : Nat
  holds : Holds
  lost : Bool
  badList : Bool
  q : List Int
  sa : F16
  gains : List Nat
  dsums : List Int
  outliers : List Outlier
  steer : SMap Nat
  corr : SMap CorrEntry
  subst : List (Nat × List Int)
  deriving DecidableEq, Repr

/-- An evaluation between its issue and its last code: S, P, the destination tile, whether it has stalled for a fill (R68), when it
started. -/
structure EvalIn where
  f : EvalF
  s : Nat
  p : Nat
  tile : Nat
  stalled : Bool
  since : Nat
  arrays : List EvalArr
  deriving DecidableEq, Repr

/-- An instruction in the queue of the array unit (R192), with its index in the program: an evaluation, a fill or a descriptor that has not
started. -/
inductive ArrItem where
  | eval (pc : Nat) (e : EvalIn)
  | fill (pc : Nat) (w : FillIn)
  | desc (pc la : Nat) (d : Desc)
  deriving DecidableEq, Repr

/-- A column under arbitration (R127): physical and logical column, A, C1, T, the integers that the column's cells encode, and the weights of its
output (R123). -/
structure ArbCol where
  phys : Nat
  col : Nat
  a : F32
  c1 : Int
  tol : F32
  master : List Int
  weights : List Int
  deriving DecidableEq, Repr

/-- An arbitration that waits for or runs in a resolution window (R129, R130): the audited evaluation as the core retains it, `rep` its
repeat with the table, G and 1 ÷ G that the repeat starts with, `replaced` that the array has lost the audited tile since (R131). -/
structure Arb where
  arr : Nat
  cols : List ArbCol
  ev : EvalArr
  f : EvalF
  s : Nat
  p : Nat
  codes : List Byte
  evalNo : Nat
  lockage : Nat
  invG : F32
  replaced : Bool
  rep : Option (EvalArr × F32 × F32)
  byPeer : Option Nat
  carried : Nat
  starved : Bool
  running : Bool
  checker2 : Option Nat
  c2 : List Int
  deriving DecidableEq, Repr

/-- An occupied substitution slot (R133). -/
structure Subst where
  slot : Nat
  arr : Nat
  col : Nat
  logical : Nat
  master : List Int
  deriving DecidableEq, Repr

/-- A reduction context of a router (R154): the use, and the data flits that each child has delivered, by port code and flit. -/
structure RedCtx where
  tree : Nat
  use : Nat
  got : List (Nat × RedFlit)
  merged : Nat
  deriving DecidableEq, Repr

/-- A write of a core to device memory that other cores see from the next boundary (R215), with the codewords of it that
carry poison. -/
structure Posted where
  site : Nat
  addr : Nat
  data : List Byte
  poison : List Nat
  deriving DecidableEq, Repr

/-- A packet that has left a core or a memory and has not arrived: the device and site it goes to, the site that issued the
transfer, the router of this device at which it enters the mesh. -/
structure InFlight where
  dev : Nat
  site : Nat
  source : Nat
  entry : Nat
  pkt : Packet
  deriving DecidableEq, Repr

/-- Where a reduction flit goes next: a port of a router of this device, or out of a flight port. -/
inductive Hop where
  | router (site port : Nat)
  | flight (port : Nat)
  deriving DecidableEq, Repr

/-- A reduction flit on its way. -/
structure FlitMsg where
  hop : Hop
  flit : RedFlit
  deriving DecidableEq, Repr

/-- A core site. `g` are the general registers, `p` the predicates (bit n is p_n), `v` the vector registers (byte 1,024 × r + b), `tiles` the
accumulator memory (byte 4,096 × t + b) with the entries that carry poison (512 × t + i, R362), `spm` the scratchpad with its poisoned codewords
(address ÷ 8), `arms` the armed counters, `held` the packets held at the local port (R178), each with the site that issued its transfer, `desc` the
descriptors, `arrQ` the array unit's queue (R192), `evals` the evaluations in flight, `redHold` the merged flits that the root holds until an
earlier wait has completed (R150), `redOver` the uses that this router has completed, `redIn` those whose delivery into this core's tiles is
complete, `redWaited` those whose wait has completed, `layers` the running gain-step counts (R58), `drift` the drift gains G of R107 (1 where none
is listed), `relist` the logical arrays whose poisoned outlier list the loader rewrites (R361), `blockReset` a block reset that the next boundary
carries out (R407), `peerTold` that the lack of a peer has been raised and none has qualified since (R128), `auditCtl` the value of `SLU_AUDIT_CTL`
in effect in this lockage (R139). -/
structure Core where
  run : Run
  pc : Nat
  loops : List Loop
  window : Bool
  g : SMap (BitVec 64)
  p : BitVec 8
  v : Mem
  tiles : Mem
  tilePoison : List Nat
  spm : Mem
  spmPoison : List Nat
  arms : List Arm
  held : List (Nat × Packet)
  desc : SMap Desc
  arrQ : List ArrItem
  evals : List EvalIn
  arrs : SMap Arr
  arbs : List Arb
  substs : List Subst
  layers : SMap Nat
  drift : SMap F32
  relist : List Nat
  reds : List RedCtx
  redHold : List RedFlit
  redOver : List (Nat × Nat)
  redIn : List (Nat × Nat)
  redWaited : List (Nat × Nat)
  blockReset : Bool
  peerTold : Bool
  auditCtl : Nat
  deriving DecidableEq, Repr

end Sys2Proof.Machine
end

