-- ==== Sys2Proof/Machine/State.lean ====
section
/-! DEFINITION. The state of the machine: one device of the flight, and the queue of commands that wait. -/

namespace Sys2Proof.Machine

/-- The schedules (R171, R172): the active one, the validated staged one, with its tag. -/
structure SchedState where
  active : Option Image
  staged : Option Image
  deriving DecidableEq, Repr

/-- The device. `pending` is the queue of commands, first in first out. `freeCtr` counts the free values used: it is the model's
own field, not the spec's (notes/assumptions/3.md). `regs` holds every management register by address (a register that shows
other state is computed when it is read: Machine/Views.lean), `siteEn` the fused map of enabled sites (R17), `cores` the core
sites, `mem` device memory by address (near from 0, far from 0x8000_0000_0000; R200) with `poison`, its poisoned codewords
(address ÷ 8), and `latent`, the stored bits in error of a codeword that no read has met (R355), `slots` the token slots of the
lockage (barge + 1 per slot, R271), `net` packets and `flits` reduction flits under way, `posted` writes of cores to device memory
that others see from the next boundary (R215). -/
structure State where
  pending : List Instr
  freeCtr : Nat
  regs : SMap (BitVec 64)
  siteEn : BitVec 544
  cores : SMap Core
  mem : Mem
  poison : List Nat
  latent : SMap (BitVec 80)
  sched : SchedState
  gens : List Gen
  slots : SMap Nat
  net : List InFlight
  flits : List FlitMsg
  posted : List Posted
  kv : Kv
  seq : Seq
  flt : Flt
  prog : Option Prog
  repls : List Repl
  maint : Option Maint
  hpt : Hpt
  jobs : Jobs
  fcl : Fcl
  cal : List CalStore
  sense : Sense
  pow : Pow
  sec : Sec
  deriving DecidableEq, Repr

/-- Why the machine stops. -/
inductive Fault where
  /-- Raised by an access to device memory outside the two populated regions of R200, which the spec says do not exist as
  memory. Safe: the machine stops where the loader of the hardware has refused the program. -/
  | noSuchAddress (addr : Nat)
  deriving DecidableEq, Repr

/-- Why a command has no meaning. -/
inductive Refusal where
  /-- Raised by an arm of `exec` that has no meaning yet. Safe: nothing is claimed of it. -/
  | notModelled (mnemonic : String)
  deriving DecidableEq, Repr

/-- What a meaning answers. -/
abbrev Out := Host.Outcome State Fault Refusal

/-! ### Reset -/

/-- No schedule of the barrier tree beyond the device itself. -/
def treeReset : Tree := ⟨0, 0, none, []⟩

/-- A flight port at reset. -/
def portReset : Port := ⟨0, [], 0xFF, none, none, false⟩

/-- Digest rounds at reset. -/
def digestReset : Digest := ⟨256, 0, 0, false, false, none, [], [], [], [], [], []⟩

/-- The flight at reset: `UNFORMED`. -/
def fltReset : Flt :=
  { ports := List.replicate 6 portReset, tree := treeReset, arrivals := [], sent := false, late := false, release := none, causes := [],
    relCauses := [], wideHist := [], graceHist := [], overrunTold := false, cmdsIn := false, accIn := false, reports := [],
    activation := none, start := 0, graced := false, key := none, votes := [], syncLost := false, lost := false,
    cap := 0, chainBad := false, forming := none, stretch := 0, phase := 0, stamp := none, hung := [], digest := digestReset }

/-- An empty generation slot. -/
def genReset : Gen := ⟨none, 0, 0, 0, none, false, 0, false, []⟩

/-- A closed staging area. -/
def areaReset : Area := ⟨false, false, false, 0, []⟩

/-- The host port at reset. -/
def hptReset : Hpt := ⟨[], List.replicate 3 areaReset, [], 0, [], [], []⟩

/-- No command waits for an event. -/
def jobsReset : Jobs := ⟨none, none, 0, 0, [], [], [], none, none, none, [], none, [], [], []⟩

/-- The collector at reset. -/
def fclReset : Fcl := ⟨[], [], [], [], [], false, false, false, List.replicate 4 ⟨false, none, false⟩⟩

/-- Sensing at reset. -/
def senseReset : Sense :=
  ⟨[], [false, false], [false, false], [false, false], [false, false], [], 0, [], 0, 0, false, []⟩

/-- The sequence table at reset. -/
def seqReset : Seq := ⟨[], [], [], [], [], [], [], [], 0x80010000⟩

/-- The page manager at reset. -/
def kvReset : Kv := ⟨[], [], [], [], [], [], []⟩

/-- The enabled sites of the model's device: grade A, position 16 of every row of 17 disabled (notes/assumptions/2.md). -/
def siteEnReset : BitVec 544 :=
  BitVec.ofNat 544 ((List.range 544).foldl (fun m s => if s % 17 = 16 then m else m + 2 ^ s) 0)

/-- The machine right after reset: every register at its reset value (nothing listed in `regs`), memories zero, no program, the
queue empty, boot not yet run. -/
def State.reset : State :=
  { pending := [], freeCtr := 0, regs := [], siteEn := siteEnReset, cores := [], mem := [], poison := [], latent := [],
    sched := ⟨none, none⟩, gens := [genReset, genReset], slots := [], net := [], flits := [], posted := [], kv := kvReset,
    seq := seqReset, flt := fltReset, prog := none, repls := [], maint := none, hpt := hptReset, jobs := jobsReset,
    fcl := fclReset, cal := [⟨[], [], 0, 0⟩, ⟨[], [], 0, 0⟩], sense := senseReset,
    pow := ⟨true, true, true, 0, true, false, false, false, [], false⟩, sec := ⟨none, true, Config.deviceSecret, Config.otostDigest, false, 0,
      false⟩ }

end Sys2Proof.Machine
end

