-- ==== Sys2Proof/Machine/Trans.lean ====
section
/-! DEFINITION. The correctly rounded functions of R207, R210 and R107: e^x, 1 ÷ x, 1 ÷ √x, x ÷ (1 + e^−x), 1 ÷ (1 + e^−x),
sine, cosine and log10. Each is evaluated in fixed point with far more bits than any format keeps and rounded once by the
format (notes/assumptions/11.md). -/

namespace Sys2Proof.Machine

/-- Fraction bits of the fixed-point evaluation. -/
def fixBits : Nat := 320

/-- One in fixed point. -/
def fixOne : Int := 2 ^ fixBits

/-- a × b in fixed point, rounded down. -/
def fixMul (a b : Int) : Int := a * b / fixOne

/-- Terms of a series whose (j + 1)-th term is the j-th times `x` over `den (j + 1)`, `fuel` of them, added up. -/
def fixSeries (x : Int) (den : Nat → Int) (fuel j : Nat) (term acc : Int) : Int :=
  match fuel with
  | 0 => acc
  | fuel + 1 => if term = 0 then acc else
      let t := fixMul term x / den (j + 1)
      fixSeries x den fuel (j + 1) t (acc + t)

/-- Σ z^(2j+1) ÷ (2j + 1) in fixed point, `fuel` terms from the j-th on: the inverse hyperbolic tangent. -/
def fixAtanh (z2 : Int) (fuel j : Nat) (power acc : Int) : Int :=
  match fuel with
  | 0 => acc
  | fuel + 1 => if power = 0 then acc else fixAtanh z2 fuel (j + 1) (fixMul power z2) (acc + power / (2 * j + 1))

/-- artanh(n ÷ d) for 0 ≤ n ÷ d ≤ 1/3. -/
def atanhRatio (n d : Nat) : Int :=
  let z := fixOne * n / d
  fixAtanh (fixMul z z) 220 0 z 0

/-- ln 2. -/
def ln2 : Int := 2 * atanhRatio 1 3

/-- ln 10. -/
def ln10 : Int := 3 * ln2 + 2 * atanhRatio 1 9

/-- A finite value in fixed point, rounded down; the values passed have magnitudes the fraction holds. -/
def toFix (neg : Bool) (m : Nat) (e : Int) : Int :=
  let k := e + fixBits
  let v : Int := (if 0 ≤ k then m * 2 ^ k.toNat else m / 2 ^ (-k).toNat : Nat)
  if neg then -v else v

/-- e^x of a fixed-point x, as m × 2^e. -/
def expFix (x : Int) : Nat × Int :=
  let k := x / ln2
  let r := x - k * ln2
  let v := fixSeries r (fun j => j) 120 0 fixOne fixOne
  (v.toNat, k - fixBits)

/-- Beyond this magnitude e^x and e^−x lie outside every format's range. -/
def expLimit : Int := 1000 * fixOne

/-- A finite argument in fixed point, held within ±1000. -/
def expArg (neg : Bool) (m : Nat) (e : Int) : Int :=
  if m ≠ 0 ∧ 12 < (Nat.log2 m : Int) + e then (if neg then -expLimit else expLimit)
  else max (-expLimit) (min expLimit (toFix neg m e))

/-- e^x. -/
def Num.exp (x : Num) : Num :=
  match x with
  | .nan => .nan
  | .inf a => if a then .fin false 0 0 else .inf false
  | .fin a m e => let (q, k) := expFix (expArg a m e)
    .fin false q k

/-- 1 ÷ x. -/
def Num.rcp (x : Num) : Num := Num.div (.fin false 1 0) x

/-- 1 ÷ √x (special values as R207 states). -/
def Num.rsqrt (x : Num) : Num :=
  match x with
  | .nan => .nan
  | .inf a => if a then .nan else .fin false 0 0
  | .fin a m e =>
    if m = 0 then .inf a
    else if a then .nan
    else
      let odd := e % 2 == 1
      let m' := if odd then 2 * m else m
      let e' := (if odd then e - 1 else e) / 2
      let n := 2 ^ (2 * (divBits + Nat.log2 m'))
      let q := n / m'
      let r := isqrt q
      let exact := r * r * m' == n
      .fin false (2 * r + (if exact then 0 else 1)) (-e' - (divBits + Nat.log2 m') - 1)

/-- 1 + e^−x of a finite x. -/
def onePlusExpNeg (neg : Bool) (m : Nat) (e : Int) : Num :=
  let (q, k) := expFix (-(expArg neg m e))
  Num.add (.fin false 1 0) (.fin false q k)

/-- 1 ÷ (1 + e^−x), its limits at ±∞. -/
def Num.sigm (x : Num) : Num :=
  match x with
  | .nan => .nan
  | .inf a => if a then .fin false 0 0 else .fin false 1 0
  | .fin a m e => Num.div (.fin false 1 0) (onePlusExpNeg a m e)

/-- x ÷ (1 + e^−x), its limits at ±∞ (R207). -/
def Num.silu (x : Num) : Num :=
  match x with
  | .nan => .nan
  | .inf a => if a then .fin true 0 0 else .inf false
  | .fin a m e => Num.div (.fin a m e) (onePlusExpNeg a m e)

/-- log10(n ÷ d) of a ratio at least 1, as a value. -/
def log10Ratio (n d : Nat) : Num :=
  let k := Nat.log2 (n / d)
  -- n ÷ d = 2^k × y with 1 ≤ y < 2, and ln y = 2 artanh((y − 1) ÷ (y + 1))
  let den := d * 2 ^ k
  let l := k * ln2 + 2 * atanhRatio (n - den) (n + den)
  Num.ofInt (l * fixOne / ln10) (-fixBits) false

/-- The sine or cosine series of a fixed-point angle. -/
def trigFix (x : Int) (cosine : Bool) : Int :=
  let x2 := -(fixMul x x)
  if cosine then fixSeries x2 (fun j => (2 * j - 1) * (2 * j)) 200 0 fixOne fixOne
  else fixSeries x2 (fun j => (2 * j) * (2 * j + 1)) 200 0 x x

/-- The cosine of a finite angle below 2π in magnitude. -/
def Num.cosSmall (x : Num) : Num :=
  match x with
  | .fin a m e => Num.ofInt (trigFix (toFix a m e) true) (-fixBits) false
  | _ => .nan

/-- The sine of a finite angle below 2π in magnitude; below 2^−80 it is the angle less a sticky bit. -/
def Num.sinSmall (x : Num) : Num :=
  match x with
  | .fin a m e =>
    if m = 0 then .fin a 0 0
    else if (Nat.log2 m : Int) + e < -80 then .fin a (m * 2 ^ 64 - 1) (e - 64)
    else Num.ofInt (trigFix (toFix a m e) false) (-fixBits) false
  | _ => .nan

/-- 2π in FP64. -/
def twoPi64 : Num := Fmt.fp64.decode 0x401921FB54442D18

/-- The remainder of a finite value on division by 2π in FP64, towards zero, which FP64 holds exactly. That the divisor is 2π rounded to FP64, and
that the remainder has the angle's sign, is the model's choice: R210 says only "reduced modulo 2π in FP64" (notes/assumptions/11.md). -/
def Num.mod2Pi (x : Num) : Num :=
  match x, twoPi64 with
  | .fin a m e, .fin _ n d =>
    let k := min e d
    .fin a ((m * 2 ^ (e - k).toNat) % (n * 2 ^ (d - k).toNat)) k
  | _, _ => .nan

/-- The cosine and sine of the rotary angle p × f (R210): the exact product rounded once to FP64 and reduced modulo
2π there (notes/assumptions/11.md), each function rounded once to FP32. -/
def ropeCosSin (p : Nat) (f : F32) : F32 × F32 :=
  let r := Num.mod2Pi (Fmt.fp64.round (Num.mul (Num.int p) (F32.num f)))
  (F32.of (Num.cosSmall r), F32.of (Num.sinSmall r))

end Sys2Proof.Machine
end

