-- ==== Sys2Proof/Machine/Ops.lean ====
section
/-! DEFINITION. The named operations over the state: registers, cores, memories, counters, fault raises and free values. -/

namespace Sys2Proof.Machine

/-! ### Registers -/

/-- The address of element (i, j) of a register family. -/
def RegFam.addr (f : RegFam) (i j : Nat) : Nat := f.base + f.s1 * i + f.s2 * j

/-- The reset value that the fields of a register give. -/
def RegFam.resetWord (f : RegFam) : Nat := f.fields.foldl (fun a x => a + x.reset * 2 ^ x.lo) 0

/-- Default severity of a fault source (R403, R404; the tables of R140, R162, R188, R259, R288, R328, R348, R376, R402, R429, R465 and
R484): 0 INFO, 1 MINOR, 2 MAJOR, 3 FATAL. -/
def srcSeverity (n : Nat) : Nat :=
  if [0x03, 0x04, 0x05, 0x06, 0x10, 0x12, 0x1A, 0x1B, 0x1C, 0x1D, 0x20, 0x23, 0x29, 0x31, 0x32, 0x33, 0x35, 0x37].contains n then 2
  else if [0x40, 0x41, 0x42, 0x50, 0x51, 0x5A, 0x5B, 0x5C, 0x5E, 0x68].contains n then 2
  else if [0x74, 0x77, 0x78, 0x7B, 0x7E, 0x7F, 0x80, 0x91, 0x92, 0x93].contains n then 2
  else if [0x34, 0x72, 0x81, 0x90].contains n then 3
  else if [0x00, 0x11, 0x18, 0x28, 0x44, 0x48, 0x5F, 0x60, 0x70, 0x94].contains n then 0
  else 1

/-- Whether a source number is taken (R403). -/
def srcTaken (n : Nat) : Bool :=
  n ≤ 0x06 || (0x10 ≤ n && n ≤ 0x13) || (0x18 ≤ n && n ≤ 0x1D) || (0x20 ≤ n && n ≤ 0x24) || (0x28 ≤ n && n ≤ 0x29) ||
  (0x30 ≤ n && n ≤ 0x37) || (0x40 ≤ n && n ≤ 0x44) || (0x48 ≤ n && n ≤ 0x49) || (0x50 ≤ n && n ≤ 0x51) ||
  (0x58 ≤ n && n ≤ 0x60) || (0x68 ≤ n && n ≤ 0x6B) || (0x70 ≤ n && n ≤ 0x81) || (0x90 ≤ n && n ≤ 0x94)

/-- Default reaction mask of a source (*Default reaction masks*). -/
def srcMask (n : Nat) : Nat :=
  if n = 0x06 then 0x75
  else if n = 0x05 then 0x71
  else if n = 0x34 then 0x52
  else match srcSeverity n with
    | 0 => 0x00
    | 1 => 0x41
    | 2 => 0x51
    | _ => 0xD2

/-- The reset value of element (i, j): the fields' values, but for the registers whose reset depends on the index (R71, R72,
R283, R404). -/
def RegFam.default (f : RegFam) (j : Nat) : Nat :=
  if f.base = Reg.ARY_STATEa.base then
    if j < 16 then j * 2 ^ 8 else if j = 16 then 1 * 2 ^ 16 + 0x1F * 2 ^ 8 + 1 else (j - 1) * 2 ^ 8 + 2
  else if f.base = Reg.ARY_INDIRn.base then (if j < 16 then j else j + 1)
  else if f.base = Reg.FCL_SRCn_CFG.base then
    if srcTaken j then srcMask j * 2 ^ 8 + srcSeverity j else 0
  else if f.base = Reg.SEQ_VARn.base then (if j = 0 then 2 ^ 31 else 0)
  else if f.base = Reg.ARY_DRIFT_COEFa.base then (if j < 17 then f.resetWord else 0)
  else f.resetWord

/-- The stored value of element (i, j) of a register family. -/
def State.reg (s : State) (f : RegFam) (i j : Nat) : Nat :=
  (SMap.get s.regs (BitVec.ofNat 64 (f.default j)) (f.addr i j)).toNat

/-- Stores a register's value. -/
def State.setReg (s : State) (f : RegFam) (i j v : Nat) : State :=
  { s with regs := SMap.put s.regs (BitVec.ofNat 64 (f.default j)) (f.addr i j) (BitVec.ofNat 64 v) }

/-- Bits `hi` to `lo` of a register. -/
def State.rf (s : State) (f : RegFam) (i j hi lo : Nat) : Nat := bitsOf (s.reg f i j) hi lo

/-- Sets bits `hi` to `lo` of a register. -/
def State.setRf (s : State) (f : RegFam) (i j hi lo v : Nat) : State :=
  s.setReg f i j (setBits (s.reg f i j) hi lo v)

/-- Adds to a register field that wraps at its width, the form of the 64-bit throughput counters (R412, R413). -/
def State.wide (s : State) (f : RegFam) (i j n : Nat) : State := s.setReg f i j ((s.reg f i j + n) % 2 ^ 64)

/-- Adds to a 24-bit or narrower field that sticks at its largest value. -/
def State.stick (s : State) (f : RegFam) (i j hi lo n : Nat) : State :=
  s.setRf f i j hi lo (min (2 ^ (hi + 1 - lo) - 1) (s.rf f i j hi lo + n))

/-! ### Free values -/

/-- The next free value, `w` bits of it. -/
def State.free (s : State) (w : Nat) : BitVec w := (Config.freeValue s.freeCtr).setWidth w

/-- Moves on to the next free value. -/
def State.nextFree (s : State) : State := { s with freeCtr := s.freeCtr + 1 }

/-! ### Sites and cores -/

/-- The number of core sites (R10). -/
def nSites : Nat := 544

/-- The die of a site (R10). -/
def dieOf (site : Nat) : Nat := site / 272

/-- Whether a site is enabled (R16, R17). -/
def State.enabled (s : State) (site : Nat) : Bool := decide (site < nSites) && s.siteEn.getLsbD site

/-- The enabled sites in ascending order, which carry the logical cores in order (R10, R18). -/
def State.sites (s : State) : List Nat := (List.range nSites).filter s.enabled

/-- The logical core number of a site. -/
def State.lcoreOf (s : State) (site : Nat) : Nat := ((List.range site).filter s.enabled).length

/-- The site of a logical core. -/
def State.siteOf (s : State) (lcore : Nat) : Option Nat := s.sites[lcore]?

/-- The correction entry before calibration has written one (notes/assumptions/6.md): the nominal transfer of R55. -/
def corrDefault : CorrEntry := ⟨0x55C3, 0x55C3, 0x55C3, 0, 0, 0, 0, 0x330A⟩

/-- No statistics. -/
def statsDefault : ColStats :=
  ⟨0, Num.int 0, Num.int 0, Num.int 0, Num.int 0, Num.int 0, Num.int 0⟩

/-- An array that has never been programmed. -/
def arrDefault : Arr :=
  { cells := [], holds := .none, bad := false, rowMap := [], steer := [], retire := [], corr := [], colTrim := [], convRef := [],
    convOff := [], evals := 0, suspended := false, owed := false, draw := none, fill := none, stats := [], meanGain := F32.one, gen := 0 }

/-- A core as reset leaves it. -/
def coreDefault : Core :=
  { run := .idle, pc := 0, loops := [], window := false, g := [], p := 0, v := [], tiles := [], tilePoison := [], spm := [], spmPoison := [],
    arms := [], held := [], desc := [], arrQ := [], evals := [], arrs := [], arbs := [], substs := [], layers := [], drift := [], relist := [],
      reds := [],
    redHold := [], redOver := [], redIn := [], redWaited := [],
    blockReset := false, peerTold := false, auditCtl := 0x08600C01 }

/-- Whether a march test runs on a site; its bank then serves no other access (R370). -/
def State.marching (s : State) (site : Nat) : Bool := s.jobs.marches.any (fun m => m.1 == site)

/-- The core of a site. -/
def State.core (s : State) (site : Nat) : Core := SMap.get s.cores coreDefault site

/-- Sets the core of a site. -/
def State.setCore (s : State) (site : Nat) (c : Core) : State :=
  { s with cores := SMap.put s.cores coreDefault site c }

/-- Applies `f` to the core of a site. -/
def State.updCore (s : State) (site : Nat) (f : Core → Core) : State := s.setCore site (f (s.core site))

/-- A physical array of a core. -/
def Core.arr (c : Core) (a : Nat) : Arr := SMap.get c.arrs arrDefault a

/-- Sets a physical array. -/
def Core.setArr (c : Core) (a : Nat) (x : Arr) : Core := { c with arrs := SMap.put c.arrs arrDefault a x }

/-- The physical array that serves a logical array (R164). -/
def State.phys (s : State) (site la : Nat) : Nat := s.rf Reg.ARY_INDIRn site la 4 0

/-- The devices of the flight (R289): 1 for a Single flight, the product of the dimensions otherwise. -/
def State.flightSize (s : State) : Nat :=
  if s.rf Reg.FLK_FORM 0 0 1 0 = 0 then 1
  else (s.rf Reg.FLK_FORM 0 0 7 4 + 1) * (s.rf Reg.FLK_FORM 0 0 11 8 + 1) * (s.rf Reg.FLK_FORM 0 0 15 12 + 1)

/-- The device's number in the flight. -/
def State.devNo (s : State) : Nat := s.rf Reg.FLK_COORD 0 0 24 16

/-! ### Architectural registers of a core (R163) -/

/-- A general register; g0 reads 0. -/
def Core.gr (c : Core) (n : Nat) : BitVec 64 := if n = 0 then 0 else SMap.get c.g 0 n

/-- Writes a general register; writes to g0 are discarded. -/
def Core.setGr (c : Core) (n : Nat) (v : BitVec 64) : Core := if n = 0 then c else { c with g := SMap.put c.g 0 n v }

/-- A predicate. -/
def Core.pr (c : Core) (n : Nat) : Bool := c.p.getLsbD n

/-- Writes a predicate. -/
def Core.setPr (c : Core) (n : Nat) (b : Bool) : Core :=
  { c with p := BitVec.ofNat 8 (setBits c.p.toNat n n (if b then 1 else 0)) }

/-- The bytes of `n` vector registers from register `r` on. -/
def Core.vreg (c : Core) (r n : Nat) : List Byte := Mem.read c.v (1024 * r) (1024 * n)

/-- Writes bytes from the start of vector register `r` on; nothing lies beyond v31. -/
def Core.setVreg (c : Core) (r : Nat) (bs : List Byte) : Core :=
  { c with v := Mem.write c.v (1024 * r) (bs.take (32768 - 1024 * r)) }

/-! ### The scratchpad -/

/-- The size of a scratchpad. -/
def spmSize : Nat := 0x100000

/-- Whether a range touches a codeword of a list of poisoned codewords. -/
def poisonIn (l : List Nat) (a n : Nat) : Bool := l.any (fun w => decide (a < 8 * w + 8 ∧ 8 * w < a + n))

/-- Poison stays with a codeword until the whole codeword is overwritten (R356, R366). -/
def unpoison (l : List Nat) (a n : Nat) : List Nat := l.filter (fun w => decide (8 * w < a ∨ a + n < 8 * w + 8))

/-- Adds a codeword to a rising list of poisoned codewords. -/
def addPoison (l : List Nat) (w : Nat) : List Nat :=
  l.filter (fun x => decide (x < w)) ++ w :: l.filter (fun x => decide (w < x))

/-- The poisoned codewords of a range, as offsets in codewords from its start. -/
def poisonOf (l : List Nat) (a n : Nat) : List Nat :=
  (l.filter (fun w => decide (a ≤ 8 * w ∧ 8 * w < a + n))).map (fun w => w - a / 8)

/-- The raw bytes of a range of the scratchpad, as a move carries them. -/
def Core.sp (c : Core) (a n : Nat) : List Byte := Mem.read c.spm a n

/-- Whether a range of the scratchpad touches a poisoned codeword. -/
def Core.spPoisoned (c : Core) (a n : Nat) : Bool := poisonIn c.spmPoison a n

/-- The bytes that a consumer reads: those of a poisoned codeword read 0x7FC0 in every 16-bit unit (R362). -/
def Core.spRead (c : Core) (a n : Nat) : List Byte :=
  if c.spPoisoned a n then
    ((c.sp a n).zipIdx a).map (fun x =>
      if c.spmPoison.contains (x.2 / 8) then (if x.2 % 2 = 0 then 0xC0 else 0x7F) else x.1)
  else c.sp a n

/-- Writes bytes of the scratchpad; nothing lies beyond its 1 MiB. -/
def Core.setSp (c : Core) (a : Nat) (bs : List Byte) : Core :=
  { c with spm := Mem.write c.spm a (bs.take (spmSize - a)), spmPoison := unpoison c.spmPoison a bs.length }

/-- Writes whole codewords with the poison they carry (R362). -/
def Core.moveSp (c : Core) (a : Nat) (bs : List Byte) (poison : List Nat) : Core :=
  let c := c.setSp a bs
  { c with spmPoison := poison.foldl (fun l w => if 8 * (w + a / 8) < spmSize then addPoison l (w + a / 8) else l) c.spmPoison }

/-- The capacities of routed layers on a site (R212). -/
def Core.loadCaps (c : Core) (im : Image) (site : Nat) : Core :=
  (im.caps.filter (fun e => e.site == site)).foldl (fun (c : Core) e => c.setSp e.occ (toLE 2 e.cap)) c

/-! ### Accumulator tiles (R141, R143) -/

/-- `n` entries of a tile from entry `first` on, as (S, E). -/
def Core.entries (c : Core) (t first n : Nat) : List (F32 × F32) :=
  (chunks 8 (Mem.read c.tiles (4096 * t + 8 * first) (8 * n)) n).map
    (fun b => (BitVec.ofNat 32 (ofLE (b.take 4)), BitVec.ofNat 32 (ofLE (b.drop 4))))

/-- The bytes of entries in the layout of *Tile layout*. -/
def entryBytes (es : List (F32 × F32)) : List Byte := es.flatMap (fun e => toLE 4 e.1.toNat ++ toLE 4 e.2.toNat)

/-- Writes the raw bytes of entries from entry `first` of a tile on, without poison. -/
def Core.setTileBytes (c : Core) (t first : Nat) (bs : List Byte) : Core :=
  { c with
    tiles := Mem.write c.tiles (4096 * t + 8 * first) (bs.take (524288 - (4096 * t + 8 * first)))
    tilePoison := unpoison c.tilePoison (4096 * t + 8 * first) bs.length }

/-- Writes entries from entry `first` of a tile on. -/
def Core.setEntries (c : Core) (t first : Nat) (es : List (F32 × F32)) : Core := c.setTileBytes t first (entryBytes es)

/-! ### Device memory (R200, R215) -/

/-- The largest address of the populated region that an address lies in (*Device memory space*). -/
def regionEnd (a : Nat) : Option Nat :=
  if a ≤ 0x009FFFFFFFFF then some 0x009FFFFFFFFF
  else if 0x800000000000 ≤ a ∧ a ≤ 0x80FFFFFFFFFF then some 0x80FFFFFFFFFF
  else none

/-- The first address of that region. -/
def regionStart (a : Nat) : Nat := if a ≤ 0x009FFFFFFFFF then 0 else 0x800000000000

/-- Whether a range lies wholly inside one populated region. -/
def inRegion (a n : Nat) : Bool :=
  match regionEnd a with
  | some e => decide (a + n ≤ e + 1)
  | none => false

/-- The first address of far memory. -/
def farBase : Nat := 0x800000000000

/-- Where a near-memory address lies (R350): stack, address within the stack, channel and pseudo-channel. -/
structure NearLoc where
  stack : Nat
  addr : Nat
  chan : Nat
  pseudo : Nat
  deriving DecidableEq, Repr

/-- The location of a near-memory address (R350): its granule goes to a stack of its die half, the 256 B unit to a pseudo-channel. -/
def nearLoc (a : Nat) : NearLoc :=
  let h := if a < 0x5000000000 then 0 else 1
  let o := a - h * 0x5000000000
  let n := o / 32768
  let idx := o % 32768 / 256 % 64
  { stack := 4 * h + n % 4, addr := n / 4 * 32768 + o % 32768, chan := idx / 2, pseudo := idx % 2 }

/-- Where a far-memory address lies (R353): channel, user offset, raw offset of its byte, raw offset of the 16 check bits of its codeword. -/
structure FarLoc where
  chan : Nat
  user : Nat
  raw : Nat
  check : Nat
  deriving DecidableEq, Repr

/-- The location of a far-memory address (R353): 4 KiB units go to the channels in turn; 256 B of data and then the 64 B of their check bits, two
bytes a codeword in codeword order, take 320 B of raw storage. -/
def farLoc (a : Nat) : FarLoc :=
  let f := a - farBase
  let q := f / 4096 / 32 * 4096 + f % 4096
  { chan := f / 4096 % 32, user := q, raw := q / 256 * 320 + q % 256, check := q / 256 * 320 + 256 + q % 256 / 8 * 2 }

/-- The stack on which a near-memory address lies (R350). -/
def stackOf (a : Nat) : Nat := (nearLoc a).stack

/-- The far channel on which an address lies (R353). -/
def channelOf (a : Nat) : Nat := (farLoc a).chan

/-- Whether an address lies on a stack or channel in `FAILED` (R351). -/
def State.dead (s : State) (a : Nat) : Bool :=
  if a < farBase then s.rf Reg.MEM_STACKs_STATE (stackOf a) 0 2 0 == 3 else s.rf Reg.MEM_FARc_STATE (channelOf a) 0 2 0 == 3

/-- Whether some stack or channel is in `FAILED`. -/
def State.anyDead (s : State) : Bool :=
  (List.range 8).any (fun k => s.rf Reg.MEM_STACKs_STATE k 0 2 0 == 3) ||
  (List.range 32).any (fun k => s.rf Reg.MEM_FARc_STATE k 0 2 0 == 3)

/-- Whether a range touches a stack or channel in `FAILED`. -/
def State.deadIn (s : State) (a n : Nat) : Bool :=
  s.anyDead && (List.range ((a + n - 1) / 4096 - a / 4096 + 1)).any (fun k => s.dead ((a / 4096 + k) * 4096))

/-- The bytes that a write leaves at its addresses: a write to a failed stack or channel is discarded. -/
def State.landing (s : State) (a : Nat) (bs : List Byte) : List Byte :=
  if s.anyDead then (bs.zipIdx a).map (fun x => if s.dead x.2 then Mem.get s.mem x.2 else x.1) else bs

/-- The bits in error of the codewords that a write of `n` bytes does not cover whole: one covered whole is written anew. -/
def unspoil (l : SMap (BitVec 80)) (a n : Nat) : SMap (BitVec 80) := l.filter (fun x => decide (8 * x.1 < a ∨ a + n < 8 * x.1 + 8))

/-- Writes device memory, with the poison the data carries; a codeword only partly written keeps its poison. -/
def State.memWrite (s : State) (a : Nat) (bs : List Byte) (poison : List Nat) : State :=
  { s with
    mem := Mem.write s.mem a (s.landing a bs)
    latent := unspoil s.latent a bs.length
    poison := poison.foldl (fun l w => addPoison l (w + a / 8)) (unpoison s.poison a bs.length) }

/-- The memory and its poison as a core sees them: its own writes of this lockage included (R215). -/
def State.memOf (s : State) (site : Nat) : Mem × List Nat :=
  (s.posted.filter (fun p => p.site == site)).foldl
    (fun m p => (Mem.write m.1 p.addr p.data, p.poison.foldl (fun l w => addPoison l (w + p.addr / 8))
      (unpoison m.2 p.addr p.data.length))) (s.mem, s.poison)

/-- Clears bytes of device memory and their poison. -/
def State.memClear (s : State) (a n : Nat) : State :=
  if s.anyDead then s.memWrite a (List.replicate n 0) []
  else { s with mem := Mem.clear s.mem a n, poison := unpoison s.poison a n, latent := unspoil s.latent a n }

/-- The 512 codewords of the 4 KiB unit of far memory `u` are poisoned: its tag has failed (R360). -/
def State.poisonUnit (s : State) (u : Nat) : State :=
  let w0 := (farBase / 4096 + u) * 512
  { s with poison := s.poison.filter (fun w => decide (w < w0)) ++ (List.range 512).map (fun w => w0 + w) ++
      s.poison.filter (fun w => decide (w0 + 512 ≤ w)) }

/-- The codewords of the 32 KiB granule at an address are poisoned (R253). -/
def State.poisonGranule (s : State) (a : Nat) : State :=
  { s with poison := s.poison.filter (fun w => decide (8 * w < a)) ++ (List.range 4096).map (fun w => a / 8 + w) ++
      s.poison.filter (fun w => decide (a + 32768 ≤ 8 * w)) }

/-- The poisoned codewords of a range, as offsets in codewords from its start, by a list of poisoned codewords and the failed stacks and
channels (R351). -/
def State.poisonAt (s : State) (l : List Nat) (a n : Nat) : List Nat :=
  if s.anyDead then (List.range (n / 8)).filter (fun w => s.dead (a + 8 * w) || l.contains (a / 8 + w)) else poisonOf l a n

/-- Whether a range of device memory reads poisoned somewhere, as a core sees it (R351). -/
def State.memPoisoned (s : State) (site a n : Nat) : Bool := poisonIn (s.memOf site).2 a n || s.deadIn a n

/-- A range of device memory as a core reads it: bytes and poisoned codewords; those on a failed stack or channel read poisoned
(R351). -/
def State.memRead (s : State) (site a n : Nat) : List Byte × List Nat :=
  let m := s.memOf site
  (Mem.read m.1 a n, s.poisonAt m.2 a n)

end Sys2Proof.Machine
end

