-- ==== Sys2Proof/Machine/Views.lean ====
section
/-! DEFINITION. Register addresses (R12, R501) and what a register reads as: its stored value, or for a register that shows other
state the value computed from it. -/

namespace Sys2Proof.Machine

/-! ### Addresses -/

/-- The element and the half of a register family at an address. -/
def RegFam.find (f : RegFam) (addr : Nat) : Option (Nat × Nat × Nat) :=
  if addr < f.base then none
  else
    let d := addr - f.base
    let i := if f.n1 ≤ 1 then 0 else d / f.s1
    let r := d - i * f.s1
    let j := if f.n2 ≤ 1 then 0 else r / f.s2
    let o := r - j * f.s2
    if i < f.n1 ∧ j < f.n2 ∧ (o = 0 ∨ (f.wide ∧ o = 4)) then some (i, j, o / 4) else none

/-- The registers of the block whose span holds an address (*Register blocks*); none outside every block. -/
def blockOf (addr : Nat) : Option (List RegFam) :=
  if addr < 0x10000 then some Reg.blockDEV
  else if addr < 0x20000 then some Reg.blockHPT
  else if addr < 0x30000 then some Reg.blockFLK
  else if addr < 0x40000 then some Reg.blockFCL
  else if addr < 0x48000 then some Reg.blockHKA
  else if addr < 0x50000 then some Reg.blockTHM
  else if addr < 0x60000 then some Reg.blockCAL
  else if addr < 0x70000 then some Reg.blockPWR
  else if addr < 0x80000 then some Reg.blockSEC
  else if addr < 0x90000 then some Reg.blockCNT
  else if addr < 0xA0000 then some Reg.blockMEM
  else if addr < 0xB0000 then some Reg.blockSEQ
  else if addr < 0xC0000 then some Reg.blockWGT
  else if 0x400000 ≤ addr ∧ addr < 0x480000 then some [Reg.SEQ_TABLEn]
  else if 0x1000000 ≤ addr ∧ addr < 0x1000000 + 544 * 0x10000 then
    match addr % 0x10000 / 0x4000 with
    | 0 => some Reg.blockARY
    | 1 => some Reg.blockSLU
    | 2 => some Reg.blockSPM
    | _ => some Reg.blockRTR
  else none

/-- The site whose `ARY_`, `SLU_`, `SPM_` or `RTR_` span holds an address. -/
def siteOfAddr (addr : Nat) : Option Nat := if 0x1000000 ≤ addr ∧ addr < 0x1000000 + 544 * 0x10000 then some ((addr - 0x1000000) / 0x10000) else none

/-- The register of a list at an address: family, element, half. -/
def findReg (l : List RegFam) (addr : Nat) : Option (RegFam × Nat × Nat × Nat) :=
  match l with
  | [] => none
  | f :: t =>
    match f.find addr with
    | some (i, j, h) => some (f, i, j, h)
    | none => findReg t addr

/-- The register at an address. -/
def regAt (addr : Nat) : Option (RegFam × Nat × Nat × Nat) := (blockOf addr).bind (fun l => findReg l addr)

/-! ### The barge window (R260, R261) -/

/-- The code of a barge state. -/
def BState.code (b : BState) : Nat :=
  match b with
  | .free => 0
  | .admitted => 1
  | .prefill => 2
  | .decode => 3
  | .spilled => 4
  | .ended => 5

/-- A free entry. -/
def bargeFree : Barge :=
  { state := .free, endStatus := 0, lateCancel := false, prio := 0, compat := false, kvPolicy := 0, length := 0, tenant := 0,
    generation := 0, allRun := 0, specOff := 0, zeroRun := 0, depthMax := 0, depth := 0, variant := 0, promptLen := 0, maxNew := 0,
    stop := 0, ttft := 0, itl := 0, topP := 0, temp := 0, session := 0, topK := 0, seed := 0, accepted := 0, drafted := 0,
    lastSlot := 0, entered := 0, prompt := [], outCount := 0, request := 0, admitTime := 0, firstSent := false, lastSent := 0,
    spilledAt := 0, repeats := 0, runFirst := 0, runLen := 0 }

/-- The barge at an index. -/
def State.barge (s : State) (n : Nat) : Barge := SMap.get s.seq.barges bargeFree n

/-- Sets a barge. -/
def State.setBarge (s : State) (n : Nat) (b : Barge) : State :=
  { s with seq := { s.seq with barges := SMap.put s.seq.barges bargeFree n b } }

/-- 1 for true. -/
def bit (b : Bool) : Nat := if b then 1 else 0

/-- Word `k` of the entry of barge `n` (*Barge entry*). -/
def Barge.word (b : Barge) (n k : Nat) : Nat :=
  if b.state = .free then 0
  else
    match k with
    | 0 => b.kvPolicy % 8 * 2 ^ 12 + bit b.compat * 2 ^ 11 + b.prio % 8 * 2 ^ 8 + bit b.lateCancel * 2 ^ 7 + b.endStatus % 8 * 2 ^ 4 +
        b.state.code
    | 1 => if b.length = 2 ^ 20 then 2 ^ 20 else b.length
    | 2 => b.tenant * 2 ^ 16 + n
    | 3 => b.allRun * 2 ^ 27 + b.specOff * 2 ^ 20 + b.zeroRun * 2 ^ 16 + b.depthMax * 2 ^ 11 + b.depth * 2 ^ 8 + b.generation
    | 4 => b.variant * 2 ^ 20 + b.promptLen
    | 5 => b.maxNew
    | 6 => b.stop
    | 7 => b.ttft
    | 8 => b.itl
    | 9 => b.topP.toNat * 2 ^ 16 + b.temp.toNat
    | 10 => b.session * 2 ^ 16 + b.topK
    | 11 => b.seed.toNat % 2 ^ 32
    | 12 => b.seed.toNat / 2 ^ 32
    | 13 => b.accepted * 2 ^ 16 + b.drafted
    | 14 => b.lastSlot % 2 ^ 32
    | _ => b.entered % 2 ^ 32

/-- The barges in a state: all entries that the map does not list are free. -/
def State.countState (s : State) (x : BState) : Nat :=
  let n := (s.seq.barges.filter (fun b => b.2.state == x)).length
  if x = .free then 8192 - (s.seq.barges.filter (fun b => b.2.state != .free)).length else n

/-- Whether a barge is live. -/
def Barge.live (b : Barge) : Bool := b.state != .free && b.state != .ended

/-- A steering variant; entry 0 is the identity and loaded (R283). -/
def State.variant (s : State) (n : Nat) : Variant :=
  SMap.get s.seq.variants (if n = 0 then ⟨true, false, 0, 0, [], 0⟩ else ⟨false, false, 0, 0, [], 0⟩) n

/-! ### Sessions -/

/-- Open sessions of the flight kind (R383). -/
def State.flightSessions (s : State) : Nat := (s.hpt.sessions.filter (fun x => x.isOpen && decide (x.number < 15360))).length

/-- Open local sessions. -/
def State.localSessions (s : State) : Nat := (s.hpt.sessions.filter (fun x => x.isOpen && decide (15360 ≤ x.number))).length

/-! ### Values computed on a read -/

/-- The node entry `n` of a router's table (*RTR_REDn*). -/
def redWord (n : RedNode) : Nat :=
  2 ^ 63 + n.tree * 2 ^ 48 + n.parent * 2 ^ 36 +
  ((List.range 5).foldl (fun a k => a + n.order.getD k 7 * 2 ^ (18 + 3 * k)) 0)

/-- Whether some pending source holds reaction `bit` of its mask (R404, R406). -/
def State.holding (s : State) (b : Nat) : Bool :=
  (List.range 0xA0).any (fun n => s.rf Reg.FCL_SRCn_STAT 0 n 31 31 == 1 && (s.rf Reg.FCL_SRCn_CFG 0 n 15 8).testBit b)

/-- Whether the device is in the safe state (R411). -/
def State.safe (s : State) : Bool := s.rf Reg.FCL_STATE 0 0 2 0 == 3

/-- Whether ERR_N is low (R409). -/
def State.errLow (s : State) : Bool := s.pow.on && (!s.pow.booted || s.safe || s.holding 4)

/-! ### Service level (R423) -/

/-- Whether a control pair has failed. -/
def State.pairFailed (s : State) (q : Nat) : Bool := s.rf Reg.FCL_CP_STATE 0 0 (2 * q + 1) (2 * q) == 3

/-- Whether a die still has a working control pair (R31). -/
def State.dieWorks (s : State) (die : Nat) : Bool := !(s.pairFailed (2 * die) && s.pairFailed (2 * die + 1))

/-- Whether a core is healthy (R423). -/
def State.healthy (s : State) (site : Nat) : Bool :=
  s.enabled site && s.rf Reg.RTR_FENCE site 0 1 0 == 0 && s.rf Reg.SPM_MARCH_STATE site 0 2 0 != 4 && s.dieWorks (dieOf site)

/-- Whether a stack serves: in `UP`, or in the self-refresh that DOZE and TOWPATH put it into (notes/assumptions/31.md). -/
def State.stackUp (s : State) (k : Nat) : Bool :=
  let st := s.rf Reg.MEM_STACKs_STATE k 0 2 0
  st == 2 || (st == 4 && decide (2 ≤ s.rf Reg.PWR_STATE 0 0 2 0))

/-- Whether a die can compute: at least one stack that serves and at least 32 healthy cores. -/
def State.dieComputes (s : State) (die : Nat) : Bool :=
  (List.range 4).any (fun k => s.stackUp (4 * die + k)) && decide (32 ≤ (s.sites.filter (fun x => dieOf x == die && s.healthy x)).length)

/-- Whether every unit is in service: cores, memories, control pairs, host lanes, flight ports, arrays. -/
def State.fullService (s : State) : Bool :=
  s.sites.all s.healthy && !s.anyDead && s.rf Reg.FCL_CP_STATE 0 0 7 0 == 0 && s.rf Reg.HPT_LINK_STATE 0 0 23 16 == 0 &&
  (List.range 6).all (fun p => s.rf Reg.FLK_PORTp_STATE p 0 2 0 != 3) &&
  s.sites.all (fun x => (List.range 19).all (fun a => s.rf Reg.ARY_STATEa x a 18 16 != 6))

/-- The service level that the units give: 0 `FULL`, 1 `COMPUTE`, 2 `MANAGEMENT_ONLY`, which is all that a recovery boot gives (R477;
notes/assumptions/30.md). -/
def State.serviceNow (s : State) : Nat :=
  if s.rf Reg.SEC_FW 0 0 16 16 = 1 then 2 else if s.fullService then 0 else if s.dieComputes 0 || s.dieComputes 1 then 1 else 2

/-- `FCL_STATE.SERVICE` as it reads: the current level; the stored field is the level whose effects hold (R424). -/
def State.serviceShown (s : State) : Nat :=
  if s.safe || !s.pow.booted then s.rf Reg.FCL_STATE 0 0 2 0 else s.serviceNow

/-! ### Values computed on a read -/

/-- The anchor table in its 320 bytes (R472). -/
def State.anchorBytes (s : State) : List Byte :=
  (List.range 8).flatMap (fun n => toLE 8 (s.reg Reg.SEC_ANCHOR_ROLESn n 0) ++
    (List.range 8).flatMap (fun w => toLE 4 (s.reg Reg.SEC_ANCHOR_KEYnw n w)))

/-- The device's certificate chain (R468), at most 8,192 bytes (*SEC_CERT_LEN*). -/
def deviceChain : List Byte := Config.certificate.take 8192

/-- What element (i, j) of a register family reads as. -/
def State.view (s : State) (f : RegFam) (i j : Nat) : Nat :=
  if f.base = Reg.SEQ_TABLEn.base then (s.barge (j / 16)).word (j / 16) (j % 16)
  else if f.base = Reg.DEV_CORE_MAPn.base then (s.siteEn.extractLsb' (32 * j) 32).toNat
  else if f.base = Reg.DEV_CORE_COUNT.base then s.sites.length
  else if f.base = Reg.DEV_LCORE_SITEn.base then
    match s.siteOf j with
    | some x => 2 ^ 31 + x
    | none => 0
  else if f.base = Reg.RTR_REDn.base then
    match (s.sched.active.map (fun im => if s.rf Reg.FLK_LOCK_STATE 0 0 0 0 = 1 then im.wide.red else im.normal.red)).bind
        (fun l => (l.filter (fun n => n.site == i))[j]?) with
    | some n => redWord n
    | none => f.resetWord
  else if f.base = Reg.WGT_CORE_PROGn.base then
    match s.sched.active.bind (fun im => im.cores.find? (fun p => p.site == j)) with
    | some p => 2 ^ 31 + p.wideBase / 64 % 256 * 2 ^ 14 + p.wide.length
    | none => 0
  else if f.base = Reg.SLU_SUBSTn.base then
    match (s.core i).substs.find? (fun u => u.slot == j) with
    | some u => 2 ^ 31 + u.arr * 2 ^ 16 + u.col
    | none => 0
  else if f.base = Reg.SEQ_COUNT0.base then s.countState .prefill * 2 ^ 16 + s.countState .admitted
  else if f.base = Reg.SEQ_COUNT1.base then s.countState .spilled * 2 ^ 16 + s.countState .decode
  else if f.base = Reg.SEQ_COUNT2.base then s.countState .free * 2 ^ 16 + s.countState .ended
  else if f.base = Reg.SEQ_SLOTS.base then
    (match s.sched.active with | some im => im.plan.length | none => 0) * 2 ^ 16 + s.slots.length
  else if f.base = Reg.SEQ_PLAN_RUNn.base then
    match s.sched.active.bind (fun im => im.plan[j]?) with
    | some r => 2 ^ 31 + bit r.prefill * 2 ^ 30 + r.first * 2 ^ 10 + (r.len - 1)
    | none => 0
  else if f.base = Reg.SEQ_COMPAT.base then
    setBits (s.reg f i j) 10 0 (s.seq.barges.filter (fun b => b.2.compat && b.2.live)).length
  else if f.base = Reg.SEQ_VARn.base then
    let v := s.variant j
    bit v.loaded * 2 ^ 31 + bit v.poisoned * 2 ^ 30 + (if v.loaded then v.gen * 2 ^ 16 + v.tenant else 0)
  else if f.base = Reg.HPT_SESSIONS.base then s.flightSessions * 2 ^ 16 + s.localSessions
  else if f.base = Reg.FCL_STATE.base then setBits (setBits (s.reg f i j) 2 0 s.serviceShown) 8 8 (bit s.errLow)
  else if f.base = Reg.FCL_SIG_STATE.base then
    bit (s.fcl.store.length == 1024) * 2 ^ 24 + s.fcl.buffer.length * 2 ^ 16 + s.fcl.store.length
  else if f.base = Reg.FCL_SIG_FIRST.base then ((s.fcl.store ++ s.fcl.buffer).map (fun r => r.number)).foldl min (s.reg Reg.FCL_SIG_NEXT 0 0)
  else if f.base = Reg.HKA_QUEUE_STATE.base then s.sense.queue.length
  else if f.base = Reg.HKA_QUEUE.base then
    match s.sense.queue with
    | e :: _ => 2 ^ 31 + e.trig * 2 ^ 29 + e.chan * 2 ^ 24 + e.seq % 1024 * 2 ^ 14 + e.code
    | [] => 0
  else if f.base = Reg.SEC_ANCHOR_DIGESTn.base then ofLE (((sm3 s.anchorBytes).drop (4 * j)).take 4)
  else if f.base = Reg.SEC_CERT_LEN.base then deviceChain.length
  else if f.base = Reg.SEC_CERTn.base then ofLE ((deviceChain.drop (4 * j)).take 4)
  else s.reg f i j

end Sys2Proof.Machine
end

