-- ==== Sys2Proof/Machine/Wire.lean ====
section
/-! DEFINITION. Transport messages as bytes (R382, R384, R387): header, nonce, seal. -/

namespace Sys2Proof.Machine

/-- *Transport header*, 24 B. -/
def headBytes (ver typ stream flags session len seq ack : Nat) (sack : BitVec 64) : List Byte :=
  toLE 1 ver ++ toLE 1 typ ++ toLE 1 stream ++ toLE 1 flags ++ toLE 2 session ++ toLE 2 len ++ toLE 4 seq ++ toLE 4 ack ++ toLE 8 sack.toNat

/-- The header of a message that has come. -/
def msgHead (m : MsgHdr) : List Byte := headBytes m.ver.toNat m.typ m.stream m.flags.toNat m.session m.len m.seq m.ack m.sack

/-- The nonce of a message (R387): the stream's IV with its last 4 bytes XORed with SEQ; for ACK, PROBE and CLOSE the first byte XORed with 1
too. -/
def nonceOf (iv : List Byte) (seq : Nat) (control : Bool) : List Byte :=
  xorBytes iv ((if control then 1 else 0) :: (List.replicate 7 0 ++ toLE 4 seq))

/-- The six parts of 84 bytes of key material (R384). -/
def keysOf (l : List Byte) : SessionKeys :=
  let part := fun (off len : Nat) => (l.drop off).take len
  ⟨part 0 16, part 16 16, part 32 16, part 48 12, part 60 12, part 72 12⟩

/-- The plaintext of a message of the host; none where its tag fails (R382). Its DATA and control messages go under the command stream's key. -/
def Session.opened (x : Session) (m : MsgHdr) (control : Bool) (payload tag : List Byte) : Option (List Byte) :=
  gcmOpen x.keys.kCmd (nonceOf x.keys.ivCmd m.seq control) (msgHead m) (payload ++ tag)

/-- *Transport header*, `SACK`: bit i says that `ACK` + 1 + i has been received. -/
def RxStream.sack (r : RxStream) : BitVec 64 := r.early.foldl (fun v e => v ||| ((1 : BitVec 64) <<< (e.1 - r.next - 1))) 0

/-- What a stream's DATA messages acknowledge: an answer the command stream, an output message none (R382). -/
def Session.acks (x : Session) (output : Bool) : Option (Nat × BitVec 64) := if output then none else some (x.cmd.next, x.cmd.sack)

/-- A DATA message of the answer stream or the output stream with a sequence number, sealed under the stream's key (R382, R387). -/
def Session.message (x : Session) (output : Bool) (seq : Nat) (c : List Byte × Bool) : OutMsg :=
  let a := (x.acks output).getD (0, 0)
  let head := headBytes x.ver.toNat 4 (if output then 2 else 1) (bit c.2) x.number (c.1.length + 16) seq a.1 a.2
  { seq := seq, bytes := c.1, more := c.2, acks := x.acks output, resends := 0, sacked := false
    wire := head ++ gcmSeal (if output then x.keys.kOut else x.keys.kAns) (nonceOf (if output then x.keys.ivOut else x.keys.ivAns) seq false)
      head c.1 }

/-- A control message of the device with the next value of its counter, sealed under the answer stream's key (R387). -/
def Session.control (x : Session) (typ stream next : Nat) (sack : BitVec 64) (payload : List Byte) : List Byte :=
  let head := headBytes x.ver.toNat typ stream 0 x.number (payload.length + 16) (x.ctl + 1) next sack
  head ++ gcmSeal x.keys.kAns (nonceOf x.keys.ivAns (x.ctl + 1) true) head payload

/-- The CLOSE message of a session for a reason (R389). -/
def Session.closeMsg (x : Session) (reason : Nat) : Sent :=
  .close x.udp x.host x.number (x.ctl + 1) reason (x.control 6 1 0 0 (toLE 1 reason))

/-- The ACK message for the command stream as it stands. -/
def Session.acking (x : Session) : Sent :=
  .ack x.udp x.host x.number 0 (x.ctl + 1) x.cmd.next x.cmd.sack (x.control 5 0 x.cmd.next x.cmd.sack [])

/-- The HELLO_ACK that opens a session (*Session opening*). -/
def Session.helloAck (x : Session) : Sent :=
  .helloAck x.udp x.host 0 x.ver x.number
    (toLE 1 0 ++ toLE 1 x.ver.toNat ++ toLE 2 x.number ++ toLE 2 deviceChain.length ++ deviceChain ++ x.share.eph ++
      toLE 32 x.share.nonce.toNat ++ x.share.sB)

/-- The HELLO_ACK that refuses a HELLO: the status and the device's highest version (R385). -/
def helloRefusal (udp : Bool) (host : BitVec 128) (status : Nat) : Sent := .helloAck udp host status 0x20 0 (toLE 1 status ++ toLE 1 0x20)

end Sys2Proof.Machine
end

