-- ==== Sys2Proof/Machine/Sessions.lean ====
section
/-! DEFINITION. Sessions of the host port (R383 to R389): finding and changing one, closing it; the configuration of the port that is
in force (R400). -/

namespace Sys2Proof.Machine

/-! ### Sessions -/

/-- The session with a number. -/
def State.session (s : State) (n : Nat) : Option Session := s.hpt.sessions.find? (fun x => x.number == n)

/-- Applies `f` to the session with a number. -/
def State.updSession (s : State) (n : Nat) (f : Session → Session) : State :=
  { s with hpt := { s.hpt with sessions := s.hpt.sessions.map (fun x => if x.number = n then f x else x) } }

/-- Removes a session. -/
def State.dropSession (s : State) (n : Nat) : State :=
  { s with hpt := { s.hpt with sessions := s.hpt.sessions.filter (fun x => x.number != n) } }

/-- Whether a session is a flight session (R383). -/
def isFlight (n : Nat) : Bool := decide (n < 15360)

/-- What leaves the port outside the data streams. -/
def State.emit (s : State) (x : Sent) : State := ({ s with hpt := { s.hpt with sent := s.hpt.sent ++ [x] } }).wide Reg.HPT_TX_MSGS 0 0 1

/-- Both sides discard what a session has not sent or acknowledged (R389): a local session ends; a flight session's close waits for
its boundary in the entry device's queue of commands; an exit device that is not the entry device has it told with its next arrival (R398,
notes/assumptions/25.md). -/
def State.shutSession (s : State) (n : Nat) : State :=
  match s.session n with
  | none => s
  | some x =>
    if isFlight n then
      let empty : TxStream := { next := 0, sent := [], waiting := [] }
      let shut := fun (y : Session) =>
        { y with isOpen := false, closing := true, ctl := y.ctl + 1, ans := empty, out := empty, taken := [], unanswered := [] }
      let s := s.updSession n shut
      let tenant := match x.role with
        | .tenant t => t
        | .operator => 0
      if s.rf Reg.SEQ_ROLE 0 0 8 0 ≠ s.devNo then { s with hpt := { s.hpt with closings := s.hpt.closings ++ [n] } }
      else { s with seq := { s.seq with queue := s.seq.queue ++
        [{ cmd := { session := n, tag := 0, tenant := tenant, body := .close n }, seen := false, listed := false }] } }
    else s.dropSession n

/-- The device closes a session for a reason (R389): its CLOSE leaves. -/
def State.closeSession (s : State) (n reason : Nat) : State :=
  match s.session n with
  | none => s
  | some x => if x.closing then s else (s.emit (x.closeMsg reason)).shutSession n

/-- Closes every open session of a kind. -/
def State.closeAll (s : State) (reason : Nat) (sel : Session → Bool) : State :=
  ((s.hpt.sessions.filter (fun x => sel x && x.isOpen)).map (fun x => x.number)).foldl (fun s n => s.closeSession n reason) s

/-! ### The port -/

/-- The registers whose writes wait for a retraining (R400): MAC, EtherType, IPv6 address, UDP port, MTU, enables. -/
def portRegs : List (RegFam × Nat) :=
  [(Reg.HPT_MAC_LO, 0), (Reg.HPT_MAC_HI, 0), (Reg.HPT_ETYPE, 0), (Reg.HPT_IP6n, 0), (Reg.HPT_IP6n, 1), (Reg.HPT_IP6n, 2), (Reg.HPT_IP6n, 3),
    (Reg.HPT_UDP_PORT, 0), (Reg.HPT_MTU, 0), (Reg.HPT_CTL, 0)]

/-- The written values of those registers. -/
def State.portWritten (s : State) : List Nat := portRegs.map (fun r => s.reg r.1 0 r.2)

/-- The value in force of the k-th of them; before the first training it is the register's. -/
def State.portCfg (s : State) (k : Nat) : Nat := (if s.hpt.config.isEmpty then s.portWritten else s.hpt.config).getD k 0

/-- The host link's state (*HPT_LINK_STATE*). -/
def State.linkState (s : State) : Nat := s.rf Reg.HPT_LINK_STATE 0 0 2 0

/-- Whether the host link carries frames. -/
def State.linkUp (s : State) : Bool := s.linkState == 3 || s.linkState == 4

/-- The link leaves what it had resolved and enters a state. -/
def State.unlink (s : State) (st : Nat) : State := ((s.setRf Reg.HPT_LINK_STATE 0 0 15 8 0).setRf Reg.HPT_LINK_STATE 0 0 7 4 0).setRf Reg.HPT_LINK_STATE 0 0 2 0 st

/-- The configuration written takes effect at a retraining by `RETRAIN` or a power-up (R400). -/
def State.loadConfig (s : State) : State :=
  if s.hpt.config.isEmpty || s.rf Reg.HPT_CTL 0 0 0 0 == 1 then
    ({ s with hpt := { s.hpt with config := s.portWritten } }).setRf Reg.HPT_CTL 0 0 0 0 0
  else s

/-- What a tick of the time base does to a link that negotiates: where negotiation has resolved, which the next free value says, training starts
(R377, R400; notes/assumptions/22.md). -/
def State.negotiate (s : State) : State :=
  if s.pow.booted && s.linkState == 1 then
    (if (s.free 1).getLsbD 0 then s.loadConfig.setRf Reg.HPT_LINK_STATE 0 0 2 0 2 else s).nextFree
  else s

end Sys2Proof.Machine
end

