-- ==== Sys2Proof/Machine/Cells.lean ====
section
/-! DEFINITION. Which tiles the resident arrays are programmed with, the non-volatile writes in progress, and what a write that is cut
short leaves (R337, R411, R456). -/

namespace Sys2Proof.Machine

/-! ### Tiles and their arrays -/

/-- The package of a generation slot. -/
def State.pkg (s : State) (slot : Nat) : Option Package := s.gens[slot]?.bind (fun g => g.pkg)

/-- The slot in `HELD`. -/
def State.heldSlot (s : State) : Option Nat := (List.range 2).find? (fun n => s.rf Reg.WGT_GEN_SLOTn 0 n 27 24 == 4)

/-- The resident tiles of a slot's package with the site and the physical array that serves each: (site, array, tile number, tile). -/
def State.placements (s : State) (slot : Nat) : List (Nat × Nat × Nat × Tile) :=
  match s.pkg slot with
  | none => []
  | some p => p.tiles.zipIdx.filterMap (fun t =>
      match t.1.home, s.siteOf t.1.lcore with
      | .resident la, some x => some (x, s.phys x la, t.2, t.1)
      | _, _ => none)

/-- The held tile that a logical array serves: slot, tile number, tile. -/
def State.heldTile (s : State) (site la : Nat) : Option (Nat × Nat × Tile) :=
  match s.heldSlot with
  | none => none
  | some slot =>
    match s.pkg slot with
    | none => none
    | some p => (p.tiles.zipIdx.find? (fun t => t.1.home == .resident la && s.siteOf t.1.lcore == some site)).map (fun t => (slot, t.2, t.1))

/-! ### Cells -/

/-- The physical element that carries a logical row or column. -/
def remapped (m : SMap Nat) (k : Nat) : Nat := if SMap.get m 0 k = 0 then k else SMap.get m 0 k

/-- The cells of an array that hold a tile's target levels under its remap and steering. -/
def Arr.cellsFor (r : Arr) (levels : Mem) : Mem :=
  canonMem (levels.map (fun c => (528 * remapped r.rowMap (c.1 / 512) + remapped r.steer (c.1 % 512), c.2)))

/-- The cells of an array programmed to level 8. -/
def level8 : Mem := (List.range (1056 * 528)).map (fun k => (k, 8))

/-! ### Losing a tile -/

/-- An array loses its tile to a fill or to a loss of its contents: the substitutions of its columns end (R134), a drawn column is dropped (R123). A
pending arbitration stays, and its window looks at what the array then holds (R131). -/
def Core.dropTile (c : Core) (a : Nat) : Core :=
  { c.setArr a { c.arr a with draw := none } with substs := c.substs.filter (fun u => u.arr != a) }

/-- An array is programmed, or an indirection switch takes it out of service: beside that a pending arbitration of it has nothing left to repeat,
whatever the array holds later (R131). -/
def Core.loseTile (c : Core) (a : Nat) : Core :=
  { c.dropTile a with arbs := c.arbs.map (fun (b : Arb) => if b.arr = a then { b with replaced := true } else b) }

/-! ### Writes in progress (R456) -/

/-- The levels that the programming in progress gives an array, and the array's site and number: those of its tile, or level 8 for an
erasure (R473). -/
def State.waveLevels (s : State) (p : Prog) (x : Nat × Nat) : Option Mem :=
  if p.erase.isSome then some level8
  else ((s.placements p.slot).find? (fun e => e.1 == x.1 && e.2.1 == x.2)).map (fun e => ((s.core x.1).arr x.2).cellsFor e.2.2.2.levels)

/-- The array that a maintenance is programming (R345): the spare in step 1, the array of a rewrite in step 3. -/
def State.maintWriting (s : State) : Option (Nat × Nat) :=
  match s.maint with
  | none => none
  | some m =>
    if m.waiting then none
    else if !m.copied then some (m.site, m.spare)
    else if s.rf Reg.WGT_MAINT 0 0 2 0 == 3 && s.rf Reg.ARY_STATEa m.site m.arr 18 16 == 4 then some (m.site, m.arr)
    else none

/-- Whether the programming of a retirement is in progress. -/
def Retire.writing (r : Retire) : Bool := r.started && !r.done

/-- Whether a non-volatile write that takes time is in progress on a die: a wave, a step of a maintenance, a spare element. -/
def State.nvWriting (s : State) (die : Nat) : Bool :=
  (match s.prog with
    | some p => p.dies.zipIdx.any (fun d => d.2 == die && !d.1.todo.isEmpty)
    | none => false) ||
  (match s.maintWriting with
    | some x => dieOf x.1 == die
    | none => false) ||
  s.cores.any (fun c => dieOf c.1 == die && c.2.arrs.any (fun a => a.2.retire.any Retire.writing))

/-! ### A write that is cut short (R411)

The safe state, and a chip reset, stop an array's programming after the cell it is at (notes/assumptions/12.md). -/

/-- An array whose programming is cut short: it holds no tile, and which of its cells have their new level is a free value
(notes/assumptions/3.md). -/
def State.cutArray (s : State) (site a : Nat) (target : Mem) : State :=
  let c := (s.core site).loseTile a
  let r := c.arr a
  let p := Config.cellProgrammed s.freeCtr
  (s.setCore site (c.setArr a { r with
    cells := canonMem (r.cells.filter (fun k => !p k.1) ++ target.filter (fun k => p k.1)), holds := .none })).nextFree

/-- The arrays of the waves in progress are cut short. -/
def State.cutWaves (s : State) : State :=
  match s.prog with
  | none => s
  | some p =>
    let s := (p.dies.flatMap (fun d => d.todo)).foldl (fun (s : State) x =>
      match s.waveLevels p x with
      | some m => s.cutArray x.1 x.2 m
      | none => s) s
    { s with prog := some { p with dies := p.dies.map (fun (d : DieProg) => { d with todo := [] }) } }

/-- The programming step of a maintenance is cut short. -/
def State.cutMaint (s : State) : State :=
  match s.maint, s.maintWriting with
  | some m, some x =>
    let s := match s.heldTile m.site (s.rf Reg.WGT_MAINT 0 0 11 8) with
      | some t => s.cutArray x.1 x.2 (((s.core x.1).arr x.2).cellsFor t.2.2.levels)
      | none => s
    { s with maint := some { m with waiting := true } }
  | _, _ => s

/-- The programming of a spare element is cut short; the element is not in use. -/
def Arr.cutSpare (r : Arr) : Arr := { r with retire := r.retire.map (fun (u : Retire) => if u.writing then { u with started := false } else u) }

/-- Every non-volatile write in progress stops. -/
def State.cutWrites (s : State) : State :=
  let s := s.cutWaves.cutMaint
  if s.cores.any (fun c => c.2.arrs.any (fun a => a.2.retire.any Retire.writing)) then
    { s with cores := s.cores.map (fun c => (c.1, { c.2 with arrs := c.2.arrs.map (fun a => (a.1, a.2.cutSpare)) })) }
  else s

end Sys2Proof.Machine
end

