-- ==== Sys2Proof/Machine/Faults.lean ====
section
/-! DEFINITION. The fault collector (chapter 14): counters that stick and saturate, raises and their reactions, signature records,
the chip reset and the safe state; and the checks of temperature and hold-up energy that other rules call on. -/

namespace Sys2Proof.Machine

/-! ### Time, temperature, hold-up energy -/

/-- The time base in 8 ns ticks. -/
def State.now (s : State) : Nat := s.reg Reg.FLK_TIME 0 0

/-- Whether the on-die diodes of a die meet the programming window (R454): at least 4 valid, each from 15 °C to 85 °C. -/
def State.tempWindow (s : State) (die : Nat) : Bool :=
  let l := ((List.range 8).map (fun k => s.reg Reg.THM_DIODEn 0 (8 * die + k))).filter (fun v => bitsOf v 31 31 == 1)
  decide (4 ≤ l.length) && l.all (fun v => decide (240 ≤ signed 16 v ∧ signed 16 v ≤ 1360))

/-- Whether the hold-up bank stores at least `mj` mJ (R455): ½ C (V² − 40²) with V the latest channel 30 code at 80 V ÷ 2^14 a
code. -/
def State.holdup (s : State) (mj : Nat) : Bool :=
  let c := s.rf Reg.HKA_CHn_LAST 0 30 13 0
  let cap := s.rf Reg.PWR_HOLDUP_CAP 0 0 15 0
  decide (((2 * mj * 1000 * 2 ^ 28 : Nat) : Int) ≤ (cap : Int) * (6400 * (c : Int) * (c : Int) - 1600 * 2 ^ 28))

/-- Whether the effects of a shutdown hold (R453): either die has reached 115 °C and not fallen below 110 °C, or the 10 ms average
of the input power lies above 1,100 W, or one of the two sources has not been cleared. -/
def State.shut (s : State) : Bool :=
  s.sense.shutdown.any (fun b => b) || s.sense.overTrip || s.rf Reg.FCL_SRCn_STAT 0 0x72 31 31 == 1 ||
  s.rf Reg.FCL_SRCn_STAT 0 0x81 31 31 == 1

/-- Whether a non-volatile write may start at all: not under a shutdown (R453), not in the safe state (R411). -/
def State.writesOk (s : State) : Bool := !s.shut && !s.safe

/-- Whether a non-volatile write of a die may start beside the others: they run one at a time (R456), and a die without a control pair that
works has no loader (R31). -/
def State.writeFree (s : State) (die : Nat) : Bool := s.dieWorks die && !s.nvWriting die

/-- The preconditions of a spare element's programming (R42, R454, R456). -/
def State.spareWriteOk (s : State) (die : Nat) : Bool := s.writesOk && s.tempWindow die && s.holdup 10

/-! ### Units -/

/-- The unit number of the device itself (R403). -/
def devUnit : Nat := 0x3FF

/-- Whether the unit of a source is a site. -/
def unitIsSite (src : Nat) : Bool :=
  [0x06, 0x10, 0x11, 0x12, 0x13, 0x18, 0x19, 0x1A, 0x1B, 0x1C, 0x1D, 0x20, 0x21, 0x22, 0x23, 0x24, 0x51, 0x5D, 0x5E, 0x5F, 0x60,
    0x79].contains src

/-- Whether the unit of a source is the host port. -/
def unitIsHost (src : Nat) : Bool := decide (0x68 ≤ src ∧ src ≤ 0x6B)

/-- The die of the unit of a raise; device-wide units go to die 0. The far-memory controllers attach to die 1 (R30). -/
def unitDie (src unit : Nat) : Nat :=
  if unitIsSite src then dieOf unit
  else if 0x02 ≤ src ∧ src ≤ 0x04 then unit / 2 % 2
  else if 0x30 ≤ src ∧ src ≤ 0x31 ∧ unit < 6 then unit / 3
  else if (src = 0x58 ∨ src = 0x5A) ∧ unit < 8 then unit / 4
  else if src = 0x59 ∨ src = 0x5B then 1
  else if (src = 0x73 ∨ src = 0x75) ∧ unit < 16 then unit / 8
  else if src = 0x75 then bit (unit == 24 || unit == 28)
  else if (0x70 ≤ src ∧ src ≤ 0x72) ∨ src = 0x74 ∨ src = 0x78 ∨ src = 0x7A ∨ src = 0x7B ∨ src = 0x7D then unit % 2
  else 0

/-- The pair that holds the duties of pair 0 of a die (R31). -/
def State.dutyPair (s : State) (die : Nat) : Nat :=
  if !s.pairFailed (2 * die) then 2 * die
  else if !s.pairFailed (2 * die + 1) then 2 * die + 1
  else if !s.pairFailed 0 then 0 else 1

/-! ### Signature records (R414 to R416, R502) -/

/-- The payload kind of a source. -/
def payloadKind (src : Nat) : Nat :=
  if 0x18 ≤ src ∧ src ≤ 0x1A then 1
  else if src = 0x58 ∨ src = 0x59 ∨ src = 0x5D then 2
  else if unitIsSite src then 4
  else 3

/-- The registers that payload 3 captures (R502). -/
def unitRegs (src unit : Nat) : List (RegFam × Nat × Nat) :=
  open Reg in
  if src ≤ 0x05 then [(FCL_STATE, 0, 0), (FCL_SAT_LAST, 0, 0), (FCL_SIG_STATE, 0, 0), (FCL_CP_STATE, 0, 0)]
  else if src ≤ 0x29 then [(FLK_LOCK_STATE, 0, 0), (FLK_GRACE_WINDOW, 0, 0), (FLK_VOTE, 0, 0)]
  else if src ≤ 0x31 then [(FLK_PORTp_STATE, unit, 0), (FLK_PORTp_LANE_LIM, unit, 0)]
  else if src ≤ 0x37 then
    [(FLK_FLIGHT_STATE, 0, 0), (FLK_VOTE, 0, 0), (FLK_WIDE_WINDOW, 0, 0), (FLK_SYNC_OFFSET, 0, 0), (FLK_REPLICA, 0, 0)]
  else if src ≤ 0x44 then [(MEM_KV_FREE_NEAR, 0, 0), (MEM_KV_FREE_FAR, 0, 0), (MEM_KV_WATER, 0, 0)]
  else if src ≤ 0x49 then [(SEQ_COUNT0, 0, 0), (SEQ_COUNT1, 0, 0), (SEQ_COUNT2, 0, 0), (SEQ_SLOTS, 0, 0)]
  else if src = 0x50 ∨ src = 0x5C then
    [(WGT_GEN_SLOTn, 0, 0), (WGT_GEN_SLOTn, 0, 1), (WGT_PROG_STATE, 0, 0), (WGT_REPL, 0, 0), (WGT_MAINT, 0, 0)]
  else if src = 0x5A then [(MEM_STACKs_STATE, unit, 0)]
  else if src = 0x5B then [(MEM_FARc_STATE, unit, 0)]
  else if src ≤ 0x6B then [(HPT_LINK_STATE, 0, 0), (HPT_SESSIONS, 0, 0)]
  else if src ≤ 0x72 ∨ src = 0x74 then [(THM_TJd, 0, unit), (THM_STATE, 0, 0)]
  else if src = 0x73 then [(THM_DIODEn, 0, unit)]
  else if src = 0x75 then [(HKA_CHn_WIN, 0, unit), (HKA_CHn_LAST, 0, unit)]
  else if src = 0x76 then [(HKA_QUEUE_STATE, 0, 0)]
  else if src = 0x77 then [(HKA_STAGE, 0, 0)]
  else if src ≤ 0x7C then [(CAL_STATE, 0, 0), (CAL_AGE, 0, 0), (CAL_BANDGAP, 0, 0), (CAL_STOREd, 0, 0), (CAL_STOREd, 0, 1)]
  else if src ≤ 0x81 then [(PWR_STATE, 0, 0), (PWR_HOLDUP, 0, 0), (PWR_HOLDUP_CAP, 0, 0), (PWR_INPUT, 0, 0)]
  else [(SEC_LC_STATE, 0, 0), (SEC_FW, 0, 0), (SEC_RNG, 0, 0), (SEC_TAMPER, 0, 0)]

/-- The bytes of a register's words. -/
def State.regBytes (s : State) (r : RegFam × Nat × Nat) : List Byte := toLE (if r.1.wide then 8 else 4) (s.view r.1 r.2.1 r.2.2)

/-- The index of the instruction at the head of the array unit's queue. -/
def ArrItem.pc (q : ArrItem) : Nat :=
  match q with
  | .eval pc _ => pc
  | .fill pc _ => pc
  | .desc pc _ _ => pc

/-- The heads of the six unit queues (R416): the array unit's as State holds it; where that queue is empty, and of the five queues that are
timing (R192), free values (notes/assumptions/9.md). -/
def State.queueHeads (s : State) (unit : Nat) : List Byte :=
  let free := toLE 12 ((s.free 64).toNat % 2 ^ 48 + (s.nextFree.free 64).toNat % 2 ^ 48 * 2 ^ 48)
  match (s.core unit).arrQ with
  | [] => free
  | q :: _ => toLE 2 q.pc ++ free.drop 2

/-- The payload of a record: kind 2 takes `extra` (syndrome and bit 79). -/
def State.payload (s : State) (src unit : Nat) (extra : List Byte) : List Byte :=
  match payloadKind src with
  | 1 => extra
  | 2 => s.regBytes (Reg.MEM_POISON_LAST, 0, 0) ++ (extra ++ List.replicate 8 0).take 8
  | 3 => (unitRegs src unit).flatMap s.regBytes
  | _ =>
    s.regBytes (Reg.RTR_FENCE, unit, 0) ++ s.regBytes (Reg.SLU_STATE, unit, 0) ++ s.regBytes (Reg.SPM_MARCH_STATE, unit, 0) ++
    s.queueHeads unit ++ List.replicate 8 0 ++ toLE 8 (s.now - s.flt.start) ++
    List.replicate 8 0

/-- The record of a raise. -/
def State.sigRec (s : State) (src unit : Nat) (extra : List Byte) : SigRec :=
  { number := s.reg Reg.FCL_SIG_NEXT 0 0, src := src, unit := unit, sev := s.rf Reg.FCL_SRCn_CFG 0 src 1 0, kind := payloadKind src,
    payload := s.payload src unit extra, lockage := s.reg Reg.FLK_LOCKAGE 0 0, time := s.now,
    count := s.reg Reg.FCL_SRCn_COUNT 0 src, devNo := s.devNo, gen := s.reg Reg.WGT_GEN_ACTIVE 0 0,
    lc := s.rf Reg.SEC_LC_STATE 0 0 2 0, sched := s.reg Reg.WGT_SCHED_ACTIVE_TAG 0 0 }

/-! ### Counters (R412) -/

/-- Adds to an error counter: it sticks at its largest value, and the second component says that `SAT` was set by this. -/
def State.bump (s : State) (f : RegFam) (i j n : Nat) : State × Bool :=
  let c := s.rf f i j 30 0
  if n = 0 then (s, false)
  else if 0x7FFFFFFF ≤ c + n then (s.setReg f i j 0xFFFFFFFF, s.rf f i j 31 31 == 0)
  else (s.setRf f i j 30 0 (c + n), false)

/-- Increments a collector counter; `again` raises what its saturation raises. -/
def State.countWith (again : State → Nat → Nat → State) (s : State) (f : RegFam) (j : Nat) : State :=
  if (s.bump f 0 j 1).2 then again ((s.bump f 0 j 1).1.setReg Reg.FCL_SAT_LAST 0 0 (f.addr 0 j)) 0x00 devUnit
  else (s.bump f 0 j 1).1

/-- The reactions that a raise takes beyond those that hold a level and `CAPTURE` (R404, R406): `fresh` says that the source was
not pending. A disabled site has no block that a reset could act on (R16). -/
def State.react (s : State) (src unit mask : Nat) (fresh : Bool) : State :=
  let duty := s.dutyPair (unitDie src unit)
  let fcl := s.fcl
  let fcl : Fcl := { fcl with
    irqs := if fresh && mask.testBit 0 then SMap.upd fcl.irqs 0 duty (fun n => n + 1) else fcl.irqs
    nmis := if fresh && mask.testBit 1 then SMap.upd fcl.nmis 0 duty (fun n => n + 1) else fcl.nmis
    hostReset := fcl.hostReset || (mask.testBit 2 && unitIsHost src)
    chipReset := fcl.chipReset || (fresh && mask.testBit 3)
    safeReq := fcl.safeReq || (fresh && mask.testBit 7) }
  let s : State := { s with fcl := fcl }
  if mask.testBit 2 && unitIsSite src && s.enabled unit then s.updCore unit (fun c => { c with blockReset := true }) else s

/-- Puts a record into the buffer (R414). -/
def State.putRecord (s : State) (r : SigRec) : State :=
  { (s.setReg Reg.FCL_SIG_NEXT 0 0 ((r.number + 1) % 2 ^ 32)) with fcl := { s.fcl with buffer := s.fcl.buffer ++ [r] } }

/-- `CAPTURE` (R414, R415): at most one record a second per source and unit; a full buffer discards. -/
def State.captureWith (again : State → Nat → Nat → State) (s : State) (src unit : Nat) (extra : List Byte) : State :=
  let key := 1024 * src + unit
  let last := SMap.get s.fcl.lastCap 0 key
  if last ≠ 0 ∧ s.now + 1 < last + 125000000 then s.countWith again Reg.FCL_SIG_SUPPRESSED 0
  else
    let t : State := { s with fcl := { s.fcl with lastCap := SMap.put s.fcl.lastCap 0 key (s.now + 1) } }
    if 64 ≤ s.fcl.buffer.length then again (t.countWith again Reg.FCL_SIG_DROPPED 0) 0x01 devUnit
    else if payloadKind src = 4 then (t.putRecord (s.sigRec src unit extra)).nextFree.nextFree
    else t.putRecord (s.sigRec src unit extra)

/-- A raise (R406): counted, its unit noted, pending, reactions. -/
def State.raiseWith (again : State → Nat → Nat → State) (s : State) (src unit : Nat) (extra : List Byte) : State :=
  let fresh := s.rf Reg.FCL_SRCn_STAT 0 src 31 31 == 0
  let mask := s.rf Reg.FCL_SRCn_CFG 0 src 15 8
  let stat := if fresh then 2 ^ 31 + unit * 2 ^ 16 + unit else setBits (s.reg Reg.FCL_SRCn_STAT 0 src) 9 0 unit
  let t := ((s.countWith again Reg.FCL_SRCn_COUNT src).setReg Reg.FCL_SRCn_STAT 0 src stat).react src unit mask fresh
  if mask.testBit 6 && payloadKind src != 1 then t.captureWith again src unit extra else t

/-- Raises a source. A counter that saturates on the way raises in turn, and one that has saturated raises nothing more, so `fuel`
bounds the chain. -/
def State.raiseN (fuel : Nat) (s : State) (src unit : Nat) (extra : List Byte) : State :=
  match fuel with
  | 0 => s
  | fuel + 1 => s.raiseWith (fun t a b => State.raiseN fuel t a b []) src unit extra

/-- Raises a fault source for a unit (R406). -/
def State.raise (s : State) (src unit : Nat) : State := s.raiseN 5 src unit []

/-- Raises an uncorrectable-codeword source with the syndrome and bit 79 of the codeword. -/
def State.raiseWord (s : State) (src unit syndrome bit79 : Nat) : State := s.raiseN 5 src unit (toLE 2 syndrome ++ toLE 1 bit79)

/-- Adds to an error counter (R412): it sticks, and its saturation raises `FCL_COUNTER_SAT` once. -/
def State.err (s : State) (f : RegFam) (i j n : Nat) : State :=
  let (t, sat) := s.bump f i j n
  if sat then (t.setReg Reg.FCL_SAT_LAST 0 0 (f.addr i j)).raise 0x00 devUnit else t

/-- The hold-up check before a non-volatile write of a die: where the bank is short, `PWR_HOLDUP_DEFER` counts and `PWR_HOLDUP_LOW`
is raised (R456). -/
def State.holdupCheck (s : State) (die mj : Nat) : State :=
  if s.holdup mj then s else (s.err Reg.PWR_HOLDUP_DEFER 0 0 1).raise 0x7D die

/-- An audit capture record, written for every verdict whatever the mask (R415). -/
def State.captureAudit (s : State) (src unit : Nat) (payload : List Byte) : State :=
  if 64 ≤ s.fcl.buffer.length then (s.err Reg.FCL_SIG_DROPPED 0 0 1).raise 0x01 devUnit
  else s.putRecord (s.sigRec src unit payload)

/-! ### Chip reset and safe state (R408, R411) -/

/-- What a reset keeps of a stored register: nothing of a volatile one; of `SEC_FW` only the fused `SVN_MIN` (R483); the spare converter of
*ARY_CONVa* serves no group until the first handover, unless it holds a slot for good (R49, R71). -/
def keepReg (r : Nat × BitVec 64) : Option (Nat × BitVec 64) :=
  match regAt r.1 with
  | some (f, _, _, _) =>
    let idle := setBits r.2.toNat 3 0 8
    if !f.nv then none
    else if f.base = Reg.SEC_FW.base then
      (let w := BitVec.ofNat 64 (bitsOf r.2.toNat 13 8 * 2 ^ 8)
       if w = 0 then none else some (r.1, w))
    else if f.base ≠ Reg.ARY_CONVa.base ∨ bitsOf r.2.toNat 4 4 = 1 then some r
    else if idle = 8 then none
    else some (r.1, BitVec.ofNat 64 idle)
  | none => none

/-- What an array keeps across a chip reset: levels, what it holds, remap and steering, its recorded generation. A retirement that is
pending is dropped, while `ARY_SPAREa`, non-volatile, keeps its claim (notes/assumptions/35.md). -/
def Arr.keep (a : Arr) : Arr :=
  { arrDefault with cells := a.cells, holds := a.holds, rowMap := a.rowMap, steer := a.steer, meanGain := a.meanGain, gen := a.gen }

/-- What a core keeps across a chip reset: its resident arrays. -/
def Core.keep (c : Core) : Core :=
  { coreDefault with arrs := (c.arrs.filter (fun a => decide (a.1 < 17))).foldl (fun m a => SMap.put m arrDefault a.1 a.2.keep) [] }

/-- A generation slot after a reset (R338): its contents are lost. -/
def Gen.keep (g : Gen) (state : Nat) : Gen :=
  if 3 ≤ state then { g with pkg := none, loading := none, broken := false, reload := false, noMaster := [] } else genReset

/-- The chip reset (R408): everything as at power-up but what is kept; `cause` goes into `LAST_RESET`. -/
def State.chipReset (s : State) (cause : Nat) : State :=
  let slot := fun n =>
    let v := s.reg Reg.WGT_GEN_SLOTn 0 n
    if 3 ≤ bitsOf v 27 24 then setBits v 28 28 1 else 0
  let stopped := bitsOf (s.reg Reg.WGT_GEN_SLOTn 0 0) 27 24 == 3 || bitsOf (s.reg Reg.WGT_GEN_SLOTn 0 1) 27 24 == 3
  let s := s.cutWrites
  let t : State := { State.reset with
    pending := s.pending
    freeCtr := s.freeCtr
    regs := s.regs.filterMap keepReg
    siteEn := s.siteEn
    cores := s.cores.foldl (fun m c => SMap.put m coreDefault c.1 c.2.keep) []
    gens := s.gens.zipIdx.map (fun g => g.1.keep (s.rf Reg.WGT_GEN_SLOTn 0 g.2 27 24))
    hpt := { hptReset with sent := (s.hpt.sessions.filter (fun x => x.isOpen)).map (fun x => x.closeMsg 7) }
    fcl := { fclReset with buffer := s.fcl.buffer, store := s.fcl.store }
    cal := s.cal.map (fun c => { c with waiting := [] })
    pow := { s.pow with booted := false, path := [], toIdle := false }
    sec := { s.sec with recovered := s.sec.recovered } }
  let t := (t.setReg Reg.WGT_GEN_SLOTn 0 0 (slot 0)).setReg Reg.WGT_GEN_SLOTn 0 1 (slot 1)
  let t := if stopped then t.setRf Reg.WGT_PROG_STATE 0 0 23 22 3 else t
  let t := t.setRf Reg.DEV_SIDEBAND 0 0 1 0 (s.rf Reg.DEV_SIDEBAND 0 0 1 0)
  t.setRf Reg.FCL_STATE 0 0 17 16 cause

/-- An arbitration that is abandoned for the window; it is carried with its operands (R129, R130). -/
def Arb.abandon (a : Arb) : Arb := { a with running := false, checker2 := none, c2 := [], rep := none }

/-- A core whose issue, arrays and sluice stop: its program ends where it is, evaluations are lost after their sub-phase, its window closes and
an arbitration in it is abandoned. -/
def Core.halt (c : Core) : Core := { c with run := .idle, window := false, arrQ := [], evals := [], arbs := c.arbs.map Arb.abandon }

/-- Stops every core. -/
def State.stopIssue (s : State) : State :=
  { s with cores := s.cores.foldl (fun m c => SMap.put m coreDefault c.1 c.2.halt) [] }

/-- Whether an array programming is in progress: one that has stopped is not (R337). -/
def State.programming (s : State) : Bool :=
  match s.prog with
  | some p => !p.complete && !(p.dies.any (fun d => d.stopped) && p.dies.all (fun d => d.stopped || d.done))
  | none => false

/-- An array programming stops (R337, R411). -/
def State.stopProg (s : State) : State :=
  match s.prog with
  | some p =>
    if p.complete then s
    else ({ s with prog := some { p with dies := p.dies.map (fun (d : DieProg) => { d with stopped := d.stopped || !d.done }) } }).setRf
      Reg.WGT_PROG_STATE 0 0 23 22 3
  | none => s

/-- The flight ports go to `DOWN`. -/
def State.portsDown (s : State) : State := (List.range 6).foldl (fun s p => s.setRf Reg.FLK_PORTp_STATE p 0 2 0 0) s

/-- Entry to the safe state (R411); it is left only by a reset. -/
def State.enterSafe (s : State) (cause : Nat) : State :=
  if s.safe then s
  else ((s.cutWrites.stopIssue.stopProg.portsDown).setRf Reg.FCL_STATE 0 0 2 0 3).setRf Reg.FCL_STATE 0 0 7 4 cause

/-- The host port retrains (R400, R407): every session closes with `RETRAIN`, the link renegotiates; leaving `UP` or `TOWPATH` raises
`HPT_LINK_DOWN` (R402). -/
def State.retrainPort (s : State) : State :=
  let up := s.linkUp
  let s := ((s.closeAll 5 (fun _ => true)).setRf Reg.HPT_CTL 0 0 0 0 1).unlink 1
  if up then s.raise 0x68 devUnit else s

/-- Carries out what reactions have asked for: a chip reset, entry to the safe state, a retraining of the host port (R406, R407). -/
def State.settle (s : State) : State :=
  let s := if s.fcl.hostReset then
      let t := s.retrainPort
      { t with fcl := { t.fcl with hostReset := false } }
    else s
  if s.fcl.chipReset then s.chipReset 3
  else if s.fcl.safeReq then { (s.enterSafe 2) with fcl := { s.fcl with safeReq := false } }
  else s

/-- The answer of a meaning that may have raised a source. -/
def finish (s : State) : Out := .next s.settle

end Sys2Proof.Machine
end

