-- ==== Sys2Proof/Machine/Ecc.lean ====
section
/-! DEFINITION. The codeword of near memory, far memory and scratchpads (R354 to R356, R359): its decoder, and what a read of a word in error
leaves. -/

namespace Sys2Proof.Machine

/-! ### The codeword (R354, R355) -/

/-- The generator g(x) = m1(x) m3(x) of degree 14: m1 = x⁷ + x³ + 1, m3 = x⁷ + x³ + x² + x + 1. -/
def bchGen : Nat := 0x4377

/-- x^n mod g(x), bit j the coefficient of x^j. -/
def bchPow (n : Nat) : Nat :=
  match n with
  | 0 => 1
  | n + 1 =>
    let v := 2 * bchPow n
    if v.testBit 14 then v ^^^ bchGen else v

/-- The power of x that a stored bit below 79 stands for (*Codeword layout*): message bit i at 14 + i, check bit j at j. -/
def bchPos (b : Nat) : Nat := if b ≤ 64 then 14 + b else b - 65

/-- The BCH syndrome of a set of stored bits in error. -/
def bchSyndrome (err : BitVec 80) : Nat :=
  (List.range 79).foldl (fun a b => if err.getLsbD b then a ^^^ bchPow (bchPos b) else a) 0

/-- The parity of all 80 bits of a pattern: true when odd. -/
def oddParity (err : BitVec 80) : Bool := (List.range 80).foldl (fun a b => a ^^ err.getLsbD b) false

/-- What the decoder does (*Decoder actions*): the stored bits that it corrects; none for an uncorrectable word. -/
def bchDecode (syn : Nat) (odd : Bool) : Option (List Nat) :=
  if syn = 0 then some (if odd then [79] else [])
  else if odd then ((List.range 79).find? (fun b => bchPow (bchPos b) == syn)).map (fun b => [b])
  else (List.range 79).findSome? (fun a => ((List.range a).find? (fun b => bchPow (bchPos a) ^^^ bchPow (bchPos b) == syn)).map (fun b => [a, b]))

/-- The errors that remain in a word after its decoding: none for an uncorrectable word. -/
def bchLeft (err : BitVec 80) : Option (BitVec 80) :=
  (bchDecode (bchSyndrome err) (oddParity err)).map (fun l => l.foldl (fun e b => e ^^^ (1 <<< b : BitVec 80)) err)

/-- The check bits of 65 message bits, message bit i at bit i. -/
def bchCheck (msg : BitVec 65) : BitVec 14 :=
  BitVec.ofNat 14 ((List.range 65).foldl (fun a i => if msg.getLsbD i then a ^^^ bchPow (14 + i) else a) 0)

/-- The stored codeword of data and poison. -/
def codeword (data : BitVec 64) (poison : Bool) : BitVec 80 :=
  let m : BitVec 65 := BitVec.ofNat 65 (data.toNat + bit poison * 2 ^ 64)
  let w : BitVec 80 := BitVec.ofNat 80 (m.toNat + (bchCheck m).toNat * 2 ^ 65)
  if oddParity w then w ^^^ (1 <<< 79 : BitVec 80) else w

/-! ### Reading a word in error (R356, R359) -/

/-- Notes a poisoned word: counters and `MEM_POISON_LAST` (R356). -/
def State.notePoison (s : State) (mem addr : Nat) : State :=
  (s.err Reg.MEM_POISON_CREATED 0 0 1).setReg Reg.MEM_POISON_LAST 0 0 (mem * 2 ^ 56 + addr)

/-- The bytes of a word with bits in error. -/
def flipWord (bs : List Byte) (err : BitVec 80) : List Byte := toLE 8 ((BitVec.ofNat 64 (ofLE bs)) ^^^ err.setWidth 64).toNat

/-- The poison of a list after the errors left in word `w` by a miscorrection (R355). -/
def flipPoison (l : List Nat) (w : Nat) (e : BitVec 80) : List Nat :=
  if e.getLsbD 64 then (if l.contains w then l.erase w else addPoison l w) else l

/-- A word of near memory is read with an error pattern: corrected words count, a pattern that is itself a codeword is no error (*Decoder
actions*). -/
def State.nearWord (s : State) (a : Nat) (err : BitVec 80) : State :=
  let k := stackOf a
  let w := a / 8
  match bchLeft err with
  | some e =>
    let s := if e = err then s else s.wide Reg.MEM_STACKs_CE k 0 1
    if e = 0 then s
    else { s with mem := Mem.write s.mem (8 * w) (flipWord (Mem.read s.mem (8 * w) 8) e)
                  poison := flipPoison s.poison w e }
  | none =>
    let s : State := { s with mem := Mem.write s.mem (8 * w) (flipWord (Mem.read s.mem (8 * w) 8) err), poison := addPoison s.poison w }
    ((s.err Reg.MEM_STACKs_UE k 0 1).notePoison 0 (8 * w)).raiseWord 0x58 k (bchSyndrome err) (bit (err.getLsbD 79))

/-- The 16-byte block of far memory at an address reads as two free words: errors in the ciphertext spoil all of it once it is
decrypted (R359; notes/assumptions/3.md). -/
def State.spoilBlock (s : State) (a : Nat) : State :=
  let b := a / 16 * 16
  let v := (s.free 64).toNat + (s.nextFree.free 64).toNat * 2 ^ 64
  { s.nextFree.nextFree with mem := Mem.write s.mem b (toLE 16 v) }

/-- A word of far memory is read with an error pattern. -/
def State.farWord (s : State) (a : Nat) (err : BitVec 80) : State :=
  let k := channelOf a
  let w := a / 16 * 2
  match bchLeft err with
  | some e =>
    let s := if e = err then s else s.wide Reg.MEM_FARc_CE k 0 1
    let s : State := { s with poison := flipPoison s.poison (a / 8) e }
    if e.setWidth 64 = 0 then s else s.spoilBlock a
  | none =>
    let s := s.spoilBlock a
    let s : State := { s with poison := addPoison (addPoison s.poison w) (w + 1) }
    ((s.err Reg.MEM_FARc_UE k 0 1).notePoison 1 (a / 8 * 8)).raiseWord 0x59 k (bchSyndrome err) (bit (err.getLsbD 79))

/-- A word of a scratchpad is read with an error pattern. -/
def State.spmWord (s : State) (site a : Nat) (err : BitVec 80) : State :=
  let w := a / 8
  let c := s.core site
  match bchLeft err with
  | some e =>
    let s := if e = err then s else s.wide Reg.SPM_CE site 0 1
    if e = 0 then s
    else s.setCore site { c with
      spm := Mem.write c.spm (8 * w) (flipWord (Mem.read c.spm (8 * w) 8) e)
      spmPoison := flipPoison c.spmPoison w e }
  | none =>
    let s := s.setCore site { c with
      spm := Mem.write c.spm (8 * w) (flipWord (Mem.read c.spm (8 * w) 8) err), spmPoison := addPoison c.spmPoison w }
    ((s.err Reg.SPM_UE site 0 1).notePoison 2 (site * 2 ^ 20 + 8 * w)).raiseWord 0x5D site (bchSyndrome err) (bit (err.getLsbD 79))

/-- Whether the memory at an address is in service: its stack or channel is `UP`. -/
def State.memUp (s : State) (a : Nat) : Bool :=
  if a < farBase then s.rf Reg.MEM_STACKs_STATE (stackOf a) 0 2 0 == 2 else s.rf Reg.MEM_FARc_STATE (channelOf a) 0 2 0 == 2

/-- A word of near or far memory (address ÷ 8) is read with the stored bits of `err` in error. -/
def State.readWord (s : State) (w : Nat) (err : BitVec 80) : State :=
  if 8 * w < farBase then s.nearWord (8 * w) err else s.farWord (8 * w) err

/-- A read meets the errors that stand in the words of a range: every read decodes (R355, R356). -/
def State.meet (s : State) (a n : Nat) : State :=
  let hit := s.latent.filter (fun x => decide (a < 8 * x.1 + 8 ∧ 8 * x.1 < a + n) && s.memUp (8 * x.1))
  hit.foldl (fun (s : State) x => { s with latent := SMap.erase s.latent x.1 }.readWord x.1 x.2) s

/-- The words that a write covers only in part are read for the merge. -/
def State.meetEdges (s : State) (a n : Nat) : State :=
  let s := if a % 8 = 0 then s else s.meet a 1
  if (a + n) % 8 = 0 then s else s.meet (a + n - 1) 1

end Sys2Proof.Machine
end

