-- ==== Sys2Proof/Machine/CoreOps.lean ====
section
/-! DEFINITION. How a core issues (R168, R169, R189 to R192): predicates, stepped operands, the loop stack, and the issue of
one instruction. -/

namespace Sys2Proof.Machine

/-- Whether the predicate selector lets the instruction run (R190). -/
def Core.on (c : Core) (pred : BitVec 4) : Bool :=
  if pred = 0 then true
  else if pred.toNat ≤ 8 then c.pr (pred.toNat - 1)
  else !c.pr (pred.toNat - 8)

/-- The iteration index of loop level `lvl`, 0 the outermost (R189); the stack holds the innermost loop first. -/
def Core.loopIdx (c : Core) (lvl : Nat) : Nat :=
  match c.loops.reverse[lvl]? with
  | some l => l.i
  | none => 0

/-- The index i by which operands step (R191). -/
def Core.stepIdx (c : Core) (x : Issue) : Nat := if x.aff then c.loopIdx x.lvl.toNat else 0

/-- A stepping address: base + stride × i, the stride signed (R191). -/
def stepAddr (base stride w i : Nat) : Nat := ((base : Int) + signed w stride * (i : Int)).toNat

/-- The loop stack and the next instruction after the one before `pc`: a body that ends branches back or falls out (R168). -/
def stepLoops (ls : List Loop) (pc : Nat) : List Loop × Nat :=
  match ls with
  | [] => ([], pc)
  | l :: t =>
    if pc = l.start + l.len then
      if l.i + 1 < l.trip then ({ l with i := l.i + 1 } :: t, l.start) else stepLoops t pc
    else (l :: t, pc)

/-- Moves a core on to its next instruction. -/
def Core.advance (c : Core) : Core :=
  let (ls, pc) := stepLoops c.loops (c.pc + 1)
  { c with loops := ls, pc := pc }

/-- Whether a core can issue (R192, R417, R453): its site is enabled, its program issues, no shutdown stops it. -/
def State.canIssue (s : State) (site : Nat) : Bool := s.enabled site && decide ((s.core site).run = .issue) && !s.shut

/-- Issues an instruction: `f` where its predicate lets it run, `off` where not (R169), each given the stepping index; then
the core moves on. Where the core cannot issue, nothing happens (notes/assumptions/7.md). -/
def State.issueWith (s : State) (x : Issue) (f off : State → Nat → State) : State :=
  if s.canIssue x.site then
    let i := (s.core x.site).stepIdx x
    let t := if (s.core x.site).on x.pred then f s i else off s i
    t.updCore x.site Core.advance
  else s

/-- Issues an instruction that has no effect when it is predicated off. -/
def State.issue (s : State) (x : Issue) (f : State → Nat → State) : State := s.issueWith x f (fun t _ => t)

/-- Issues an instruction whose effect lies in its core alone. -/
def State.issueCore (s : State) (x : Issue) (f : Core → Nat → Core) : State :=
  s.issue x (fun t i => t.updCore x.site (fun c => f c i))

/-- Whether a reduction packet of a core has not left its router's local port. -/
def State.localFlits (s : State) (site : Nat) : Bool := s.flits.any (fun m => m.hop == .router site 0)

/-- A core that holds at its barrier reaches it once no evaluation is in flight, the array unit's queue is empty and every packet it has
sent has left its router's local port (R195). A fill that goes on after its instruction has released the unit (R201) is not waited for: R195 names
instructions, and whether such a `FILL` has completed the spec does not say (notes/assumptions/7.md). -/
def State.settleBarrier (s : State) (site : Nat) : State :=
  let c := s.core site
  if c.run = .barrier ∧ c.evals.isEmpty ∧ c.arrQ.isEmpty ∧ !s.localFlits site then s.setCore site { c with run := .arrived } else s

/-- A core that waits on a counter goes on once the counter has reached its expected count, and the counter is disarmed; a
counter that is not armed holds nothing up (R177, R196). -/
def Core.settleWaits (c : Core) : Core :=
  match c.run with
  | .waitSig k =>
    match c.arms.find? (fun a => a.k == k) with
    | none => { c with run := .issue }
    | some a => if a.expect ≤ a.count then { c with run := .issue, arms := c.arms.filter (fun b => b.k != k) } else c
  | _ => c

/-- Whether an evaluation that has not delivered, in flight or in the queue, names a tile as its destination. -/
def Core.tileBusy (c : Core) (t : Nat) : Bool :=
  c.evals.any (fun e => e.tile == t) || c.arrQ.any (fun q => match q with
    | .eval _ e => e.tile == t
    | _ => false)

/-- Issues an instruction that touches tiles: while an earlier evaluation has not delivered into one of them it waits (R179),
which leaves everything as it is. -/
def State.issueTiles (s : State) (x : Issue) (tiles : Nat → List Nat) (f off : State → Nat → State) : State :=
  let c := s.core x.site
  if (tiles (c.stepIdx x)).any c.tileBusy then s else s.issueWith x f off

end Sys2Proof.Machine
end

