-- ==== Sys2Proof/Machine/Accum.lean ====
section
/-! DEFINITION. Compensated arithmetic (R144 to R146) and the accumulator instructions, opcodes 0x60 to 0x68 (R203, R204).
`RSEND` stands with the reductions. -/

namespace Sys2Proof.Machine

/-! ### Compensated arithmetic -/

/-- TwoSum (R144): the rounded sum and its rounding error. -/
def twoSum (a b : F32) : F32 × F32 :=
  let s := F32.add a b
  let bp := F32.sub s a
  let ap := F32.sub s bp
  (s, F32.add (F32.sub a ap) (F32.sub b bp))

/-- Whether an FP32 word is ±∞. -/
def F32.isInf (x : F32) : Bool := !(F32.isFin x) && !(F32.isNan x)

/-- The entry that a sum and its new error term give (R145). -/
def settlePair (s e : F32) : F32 × F32 :=
  if !F32.isFin s then ((if F32.isNan s then F32.nan else s), 0)
  else if !F32.isFin e then (F32.add s e, 0)
  else (s, e)

/-- Accumulation of a value into an entry (R144, R145). -/
def accumulate (p : F32 × F32) (x : F32) : F32 × F32 :=
  let (s, e) := twoSum p.1 x
  settlePair s (F32.add p.2 e)

/-- Whether an accumulation counts in `CNT_ACC_OVERFLOW` (R145): the new sum is infinite, all operands were finite. -/
def accumulateOvf (p : F32 × F32) (x : F32) : Bool :=
  F32.isInf (F32.add p.1 x) && F32.isFin p.1 && F32.isFin p.2 && F32.isFin x

/-- Merge of the pair `q` into the pair `p` (R144, R145). -/
def mergePair (p q : F32 × F32) : F32 × F32 :=
  let (s, e) := twoSum p.1 q.1
  settlePair s (F32.add (F32.add p.2 q.2) e)

/-- Whether a merge counts in `CNT_ACC_OVERFLOW`. -/
def mergeOvf (p q : F32 × F32) : Bool :=
  F32.isInf (F32.add p.1 q.1) && F32.isFin p.1 && F32.isFin p.2 && F32.isFin q.1 && F32.isFin q.2

/-- The value that an entry resolves to before the output format (R146). -/
def resolvePair (p : F32 × F32) : F32 := if F32.isZero p.2 then p.1 else F32.add p.1 p.2

/-- Adds to `CNT_ACC_OVERFLOW` (R161). -/
def State.accOvf (s : State) (n : Nat) : State := s.err Reg.CNT_ACC_OVERFLOW 0 0 n

/-- Merges pairs, entry by entry, with the overflows they count. -/
def mergeAll (ps qs : List (F32 × F32)) : List (F32 × F32) × Nat :=
  (ps.zipWith mergePair qs, ((ps.zip qs).filter (fun x => mergeOvf x.1 x.2)).length)

/-- Accumulates values, entry by entry, with the overflows they count. -/
def accumulateAll (ps : List (F32 × F32)) (xs : List F32) : List (F32 × F32) × Nat :=
  (ps.zipWith accumulate xs, ((ps.zip xs).filter (fun x => accumulateOvf x.1 x.2)).length)

/-! ### Instructions -/

/-- A stepping index: base + step × i (R191). -/
def stepIx (base step i : Nat) : Nat := base + step * i

/-- The FP32 words that bytes hold. -/
def f32s (bs : List Byte) : List F32 := (wordsOf 4 bs).map (BitVec.ofNat 32)

/-- The bytes of FP32 words. -/
def f32Bytes (xs : List F32) : List Byte := bytesOf 4 (xs.map BitVec.toNat)

/-- The scratchpad address of a format A instruction. -/
def accAddr (f : AccF) (i : Nat) : Nat := stepAddr f.spa.toNat f.sps.toNat 16 i

/-- The destination tile of a format A instruction. -/
def accDst (f : AccF) (i : Nat) : Nat := stepIx f.td.toNat f.tstep.toNat i

/-- The source tile of a format A instruction. -/
def accSrc (f : AccF) (i : Nat) : Nat := stepIx f.ta.toNat f.tstep.toNat i

/-- Issues an accumulator instruction that touches the tiles `tiles`. -/
def State.issueAcc (s : State) (x : Issue) (tiles : Nat → List Nat) (f : State → Nat → State) : State :=
  s.issueTiles x tiles f (fun t _ => t)

/-- `ACLR`: every entry of `TD` ← (+0, +0). -/
def execAclr (x : Issue) (f : AccF) (s : State) : Out :=
  .next (s.issueAcc x (fun i => [accDst f i]) (fun s i => s.updCore x.site (fun c => c.setEntries (accDst f i) 0 (List.replicate 512 (0, 0)))))

/-- `AMRG`: every entry of `TD` ← merge(`TD`, `TA`). -/
def execAmrg (x : Issue) (f : AccF) (s : State) : Out :=
  finish (s.issueAcc x (fun i => [accDst f i, accSrc f i]) (fun s i =>
    let c := s.core x.site
    let (es, n) := mergeAll (c.entries (accDst f i) 0 512) (c.entries (accSrc f i) 0 512)
    (s.setCore x.site (c.setEntries (accDst f i) 0 es)).accOvf n))

/-- `AADDV`: 256 entries of `TD` accumulate the FP32 values of v`VR`. -/
def execAaddv (x : Issue) (f : AccF) (s : State) : Out :=
  finish (s.issueAcc x (fun i => [accDst f i]) (fun s i =>
    let c := s.core x.site
    let first := 256 * (f.q.toNat % 2)
    let (es, n) := accumulateAll (c.entries (accDst f i) first 256) (f32s (c.vreg f.vr.toNat 1))
    (s.setCore x.site (c.setEntries (accDst f i) first es)).accOvf n))

/-- `ASETV`: the same entries ← (value, +0). -/
def execAsetv (x : Issue) (f : AccF) (s : State) : Out :=
  .next (s.issueAcc x (fun i => [accDst f i]) (fun s i => s.updCore x.site (fun c =>
    c.setEntries (accDst f i) (256 * (f.q.toNat % 2)) ((f32s (c.vreg f.vr.toNat 1)).map (fun v => (v, 0))))))

/-- `ALDV`: 128 entries of `TD` ← the raw pairs in v`VR`. -/
def execAldv (x : Issue) (f : AccF) (s : State) : Out :=
  .next (s.issueAcc x (fun i => [accDst f i]) (fun s i => s.updCore x.site (fun c => c.setTileBytes (accDst f i) (128 * f.q.toNat) (c.vreg f.vr.toNat 1))))

/-- `ASTV`: v`VR` ← the raw pairs of 128 entries of `TA`. -/
def execAstv (x : Issue) (f : AccF) (s : State) : Out :=
  .next (s.issueAcc x (fun i => [accSrc f i]) (fun s i => s.updCore x.site (fun c =>
    c.setVreg f.vr.toNat (Mem.read c.tiles (4096 * accSrc f i + 1024 * f.q.toNat) 1024))))

/-- `ALDS`: `TD` ← 4 KiB at `SPA`, poison carried along (R143, R362). -/
def execAlds (x : Issue) (f : AccF) (s : State) : Out :=
  .next (s.issueAcc x (fun i => [accDst f i]) (fun s i => s.updCore x.site (fun c =>
    let d := c.setTileBytes (accDst f i) 0 (c.sp (accAddr f i) 4096)
    { d with tilePoison :=
        (poisonOf c.spmPoison (accAddr f i) 4096).foldl (fun l w => addPoison l (512 * accDst f i + w)) d.tilePoison })))

/-- `ASTS`: 4 KiB at `SPA` ← `TA`, poison carried along. -/
def execAsts (x : Issue) (f : AccF) (s : State) : Out :=
  .next (s.issueAcc x (fun i => [accSrc f i]) (fun s i => s.updCore x.site (fun c =>
    c.moveSp (accAddr f i) (Mem.read c.tiles (4096 * accSrc f i) 4096) (poisonOf c.tilePoison (4096 * accSrc f i) 4096))))

/-- The formats of `ARES` (*Format A*, `FMT`); 5 to 7 are illegal. -/
def aresFmt (fmt : BitVec 3) : Option Fmt :=
  match fmt.toNat with
  | 0 => some .fp32
  | 1 => some .bf16
  | 2 => some .fp16
  | 3 => some .e4m3
  | 4 => some .e5m2
  | _ => none

/-- FP32 values converted to a format and packed in order, with the number that saturated (R94). -/
def packAs (f : Fmt) (xs : List F32) : List Byte × Nat :=
  (bytesOf f.bytes (xs.map (fun x => f.encode (F32.num x))), (xs.filter (fun x => f.saturates (F32.num x))).length)

/-- `ARES`: resolves the 512 entries of `TA` to `FMT`, into vector registers (an 8-bit result fills half a register and
clears the rest) or the scratchpad (R146, R204). -/
def execAres (x : Issue) (f : AccF) (s : State) : Out :=
  finish (s.issueAcc x (fun i => [accSrc f i]) (fun s i =>
    match aresFmt f.fmt with
    | none => s
    | some fm =>
      let c := s.core x.site
      let (bs, n) := packAs fm ((c.entries (accSrc f i) 0 512).map resolvePair)
      let d := if f.dsel then c.setSp (accAddr f i) bs else c.setVreg f.vr.toNat (bs ++ List.replicate (1024 - bs.length) 0)
      (s.setCore x.site d).err Reg.CNT_FP8_SAT 0 0 n))

end Sys2Proof.Machine
end

