-- ==== Sys2Proof/Machine/Vector.lean ====
section
/-! DEFINITION. The vector instructions, opcodes 0x80 to 0xA8 (R206 to R211), with quantisation (R78 to R82) and the
randomised Walsh–Hadamard rotation (R83 to R86). `VROUTE` stands in Machine/Experts.lean. -/

namespace Sys2Proof.Machine

/-! ### Operands of format V -/

/-- The element types that arithmetic accepts (R206). -/
def vecFmt (t : BitVec 3) : Option Fmt :=
  match t.toNat with
  | 0 => some .fp32
  | 1 => some .bf16
  | 2 => some .fp16
  | _ => none

/-- The floating element types of `VCVT`; code 5 is INT8. -/
def cvtFmt (t : BitVec 3) : Option Fmt :=
  match t.toNat with
  | 0 => some .fp32
  | 1 => some .bf16
  | 2 => some .fp16
  | 3 => some .e4m3
  | 4 => some .e5m2
  | _ => none

/-- The registers of the source group. -/
def vecN (f : VecF) : Nat := f.nm1.toNat + 1

/-- The FP32 scalar `IMM32`. -/
def vecImm (f : VecF) : F32 := f.hi.setWidth 32

/-- The scratchpad address, stepped. -/
def vecAddr (f : VecF) (i : Nat) : Nat := stepAddr (f.hi.toNat % 2 ^ 20) (f.hi.toNat / 2 ^ 20) 16 i

/-- The elements of `n` registers from `r` on, widened exactly to FP32. -/
def Core.elems (c : Core) (fm : Fmt) (r n : Nat) : List F32 :=
  (wordsOf fm.bytes (c.vreg r n)).map (fun w => F32.of (fm.decode w))

/-- Writes FP32 results from register `r` on, each rounded once to the type. -/
def Core.setElems (c : Core) (fm : Fmt) (r : Nat) (xs : List F32) : Core :=
  c.setVreg r (bytesOf fm.bytes (xs.map (fun x => fm.encode (F32.num x))))

/-- Counts a read that consumes poison (R361). -/
def State.consumed (s : State) (b : Bool) : State := if b then s.err Reg.MEM_POISON_CONSUMED 0 0 1 else s

/-! ### Elementwise instructions -/

/-- An elementwise instruction of one source. -/
def State.vec1 (s : State) (x : Issue) (f : VecF) (op : F32 → F32) : State :=
  s.issueCore x (fun c _ =>
    match vecFmt f.t with
    | some fm => c.setElems fm f.vd.toNat ((c.elems fm f.va.toNat (vecN f)).map op)
    | none => c)

/-- An elementwise instruction of two sources. -/
def State.vec2 (s : State) (x : Issue) (f : VecF) (op : F32 → F32 → F32) : State :=
  s.issueCore x (fun c _ =>
    match vecFmt f.t with
    | some fm => c.setElems fm f.vd.toNat
        ((c.elems fm f.va.toNat (vecN f)).zipWith op (c.elems fm f.vb.toNat (vecN f)))
    | none => c)

/-- The larger of two FP32 values; a NaN gives the canonical NaN, and of two zeros of different sign either may be given. -/
def vmaxOp (a b : F32) : F32 :=
  if F32.isNan a || F32.isNan b then F32.nan
  else if Num.lt (F32.num a) (F32.num b) then b
  else if Num.lt (F32.num b) (F32.num a) then a
  else if a = b then a else if Config.secondZero a b then b else a

/-- The smaller of two FP32 values, as for the larger. -/
def vminOp (a b : F32) : F32 :=
  if F32.isNan a || F32.isNan b then F32.nan
  else if Num.lt (F32.num b) (F32.num a) then b
  else if Num.lt (F32.num a) (F32.num b) then a
  else if a = b then a else if Config.secondZero a b then b else a

/-- `VADD`. -/
def execVadd (x : Issue) (f : VecF) (s : State) : Out := .next (s.vec2 x f F32.add)

/-- `VSUB`. -/
def execVsub (x : Issue) (f : VecF) (s : State) : Out := .next (s.vec2 x f F32.sub)

/-- `VMUL`. -/
def execVmul (x : Issue) (f : VecF) (s : State) : Out := .next (s.vec2 x f F32.mul)

/-- `VFMA`: VA × VB + VC with one rounding. -/
def execVfma (x : Issue) (f : VecF) (s : State) : Out :=
  .next (s.issueCore x (fun c _ =>
    match vecFmt f.t with
    | some fm => c.setElems fm f.vd.toNat
        (((c.elems fm f.va.toNat (vecN f)).zip (c.elems fm f.vb.toNat (vecN f))).zipWith
          (fun p z => F32.fma p.1 p.2 z) (c.elems fm f.vc.toNat (vecN f)))
    | none => c))

/-- `VMAX`. -/
def execVmax (x : Issue) (f : VecF) (s : State) : Out := .next (s.vec2 x f vmaxOp)

/-- `VMIN`. -/
def execVmin (x : Issue) (f : VecF) (s : State) : Out := .next (s.vec2 x f vminOp)

/-- `VADDS`: VA + `IMM32`. -/
def execVadds (x : Issue) (f : VecF) (s : State) : Out := .next (s.vec1 x f (fun a => F32.add a (vecImm f)))

/-- `VMULS`: VA × `IMM32`. -/
def execVmuls (x : Issue) (f : VecF) (s : State) : Out := .next (s.vec1 x f (fun a => F32.mul a (vecImm f)))

/-- `VABS`. -/
def execVabs (x : Issue) (f : VecF) (s : State) : Out := .next (s.vec1 x f (fun a => F32.of (Num.abs (F32.num a))))

/-- `VNEG`. -/
def execVneg (x : Issue) (f : VecF) (s : State) : Out := .next (s.vec1 x f (fun a => F32.of (Num.neg (F32.num a))))

/-- A function of R207: the exact value at the widened input, rounded once to the type. -/
def State.vecFn (s : State) (x : Issue) (f : VecF) (fn : Num → Num) : State :=
  s.issueCore x (fun c _ =>
    match vecFmt f.t with
    | some fm => c.setVreg f.vd.toNat (bytesOf fm.bytes
        ((c.elems fm f.va.toNat (vecN f)).map (fun a => fm.encode (fn (F32.num a)))))
    | none => c)

/-- `VEXP`. -/
def execVexp (x : Issue) (f : VecF) (s : State) : Out := .next (s.vecFn x f Num.exp)

/-- `VRCP`. -/
def execVrcp (x : Issue) (f : VecF) (s : State) : Out := .next (s.vecFn x f Num.rcp)

/-- `VRSQ`. -/
def execVrsq (x : Issue) (f : VecF) (s : State) : Out := .next (s.vecFn x f Num.rsqrt)

/-- `VSILU`. -/
def execVsilu (x : Issue) (f : VecF) (s : State) : Out := .next (s.vecFn x f Num.silu)

/-- `VSIGM`. -/
def execVsigm (x : Issue) (f : VecF) (s : State) : Out := .next (s.vecFn x f Num.sigm)

/-- `VBC`: every element ← `IMM32` rounded to the type. -/
def execVbc (x : Issue) (f : VecF) (s : State) : Out :=
  .next (s.issueCore x (fun c _ =>
    match vecFmt f.t with
    | some fm => c.setElems fm f.vd.toNat (List.replicate (1024 / fm.bytes * vecN f) (vecImm f))
    | none => c))

/-! ### Conversion (R93 to R96, R207) -/

/-- A value rounded to a signed integer of `n` bits: saturating, a NaN becomes 0 (R96). -/
def toIntSat (n : Nat) (x : Num) : Int :=
  let lo : Int := -(2 : Int) ^ (n - 1)
  let hi : Int := (2 : Int) ^ (n - 1) - 1
  match x with
  | .nan => 0
  | .inf neg => if neg then lo else hi
  | v => max lo (min hi v.toIntR)

/-- The value that a word of a type encodes: a floating type, or INT8. -/
def typeDecode (t : BitVec 3) (w : Nat) : Num :=
  match cvtFmt t with
  | some fm => fm.decode w
  | none => Num.int (signed 8 w)

/-- The bits of a value converted to a type. -/
def typeEncode (t : BitVec 3) (v : Num) : Nat :=
  match cvtFmt t with
  | some fm => fm.encode v
  | none => (toIntSat 8 v % 256).toNat

/-- Bytes of an element of a type. -/
def typeBytes (t : BitVec 3) : Nat :=
  match cvtFmt t with
  | some fm => fm.bytes
  | none => 1

/-- Whether the conversion of a value to a type saturates an FP8 element (R94). -/
def typeSaturates (t : BitVec 3) (v : Num) : Bool :=
  match cvtFmt t with
  | some fm => fm.saturates v
  | none => false

/-- `VCVT`: converts every element of the group; a partly filled last register is filled with 0. -/
def execVcvt (x : Issue) (f : VecF) (s : State) : Out :=
  finish (s.issue x (fun s _ =>
    if f.t.toNat ≤ 5 ∧ f.t2.toNat ≤ 5 then
      let c := s.core x.site
      let vs := (wordsOf (typeBytes f.t) (c.vreg f.va.toNat (vecN f))).map (typeDecode f.t)
      let bs := bytesOf (typeBytes f.t2) (vs.map (typeEncode f.t2))
      let pad := (1024 - bs.length % 1024) % 1024
      (s.setCore x.site (c.setVreg f.vd.toNat (bs ++ List.replicate pad 0))).err Reg.CNT_FP8_SAT 0 0
        (vs.filter (typeSaturates f.t2)).length
    else s))

/-! ### Reductions (R207) -/

/-- Neighbours combined pair by pair: one level of the tree. -/
def pairUp (op : F32 → F32 → F32) (l : List F32) : List F32 :=
  match l with
  | a :: b :: t => op a b :: pairUp op t
  | l => l

/-- The reduction of R207: each of the 128 lanes folds its elements in order, then the lanes combine in a binary tree. -/
def laneReduce (op : F32 → F32 → F32) (xs : List F32) : F32 :=
  let rows := chunks 128 xs xs.length
  let lanes := match rows with
    | [] => []
    | r :: t => t.foldl (fun a b => a.zipWith op b) r
  match pairUp op (pairUp op (pairUp op (pairUp op (pairUp op (pairUp op (pairUp op lanes)))))) with
  | r :: _ => r
  | [] => 0

/-- A reduction into element 0 of `VD`, the other elements of that register +0. -/
def State.vecReduce (s : State) (x : Issue) (f : VecF) (op : F32 → F32 → F32) : State :=
  s.issueCore x (fun c _ =>
    match vecFmt f.t with
    | some fm => c.setElems fm f.vd.toNat
        (laneReduce op (c.elems fm f.va.toNat (vecN f)) :: List.replicate (1024 / fm.bytes - 1) 0)
    | none => c)

/-- `VSUM`. -/
def execVsum (x : Issue) (f : VecF) (s : State) : Out := .next (s.vecReduce x f F32.add)

/-- `VMAXR`. -/
def execVmaxr (x : Issue) (f : VecF) (s : State) : Out := .next (s.vecReduce x f vmaxOp)

/-- `VRMS`: y = x × ρ × γ with ρ = 1 ÷ √(sum(x²) ÷ L + `IMM32`) (R209). -/
def execVrms (x : Issue) (f : VecF) (s : State) : Out :=
  .next (s.issueCore x (fun c _ =>
    match vecFmt f.t with
    | some fm =>
      let xs := c.elems fm f.va.toNat (vecN f)
      let sum := laneReduce F32.add (xs.map (fun a => F32.mul a a))
      let mean := F32.div sum (F32.ofInt xs.length)
      let rho := F32.of (Num.rsqrt (F32.num (F32.add mean (vecImm f))))
      c.setElems fm f.vd.toNat
        (xs.zipWith (fun a g => F32.mul (F32.mul a rho) g) (c.elems fm f.vb.toNat (vecN f)))
    | none => c))

/-! ### Rotary positions (R210) -/

/-- The head dimension that `AUX[1:0]` or `DH` codes; code 3 is illegal. -/
def headDim (code : Nat) : Option Nat :=
  match code with
  | 0 => some 64
  | 1 => some 128
  | 2 => some 256
  | _ => none

/-- The pairs (2m, 2m + 1) of one head rotated, each result with one rounding to the type. -/
def ropePairs (fm : Fmt) (cs : List (F32 × F32)) (xs : List F32) : List Nat :=
  match cs, xs with
  | (c, n) :: cs, a :: b :: xs =>
    fm.encode (Num.add (Num.mul (F32.num a) (F32.num c)) (Num.neg (Num.mul (F32.num b) (F32.num n)))) ::
    fm.encode (Num.add (Num.mul (F32.num a) (F32.num n)) (Num.mul (F32.num b) (F32.num c))) :: ropePairs fm cs xs
  | _, _ => []

/-- `VROPE`. -/
def execVrope (x : Issue) (f : VecF) (s : State) : Out :=
  .next (s.issueCore x (fun c _ =>
    match vecFmt f.t, headDim (f.aux.toNat % 4) with
    | some fm, some d =>
      let cs := ((c.elems .fp32 f.vb.toNat 1).take (d / 2)).map (ropeCosSin (c.gr f.vc.toNat).toNat)
      let xs := c.elems fm f.va.toNat (vecN f)
      c.setVreg f.vd.toNat (bytesOf fm.bytes ((chunks d xs xs.length).flatMap (ropePairs fm cs)))
    | _, _ => c))

/-! ### Top K (R211) -/

/-- Whether value `a` ranks above value `b`: a greater number, or a number over a NaN. -/
def ranksAbove (a b : F32) : Bool := (!F32.isNan a && F32.isNan b) || Num.lt (F32.num b) (F32.num a)

/-- Inserts an indexed value into a list in descending order, after its equals. -/
def rankInsert (p : Nat × F32) (l : List (Nat × F32)) : List (Nat × F32) :=
  match l with
  | [] => [p]
  | q :: t => if ranksAbove p.2 q.2 then p :: q :: t else q :: rankInsert p t

/-- The first `k` of indexed values in descending order, equal values by ascending index, NaN last. -/
def topK (k : Nat) (xs : List F32) : List (Nat × F32) :=
  (xs.zipIdx.map (fun p => (p.2, p.1))).foldl (fun l p => (rankInsert p l).take k) []

/-- `VTOPK`: K records of index and value at `SPA`. -/
def execVtopk (x : Issue) (f : VecF) (s : State) : Out :=
  .next (s.issueCore x (fun c i =>
    let b := (c.gr f.vb.toNat).toNat % 2 ^ 32
    let recs := topK (f.aux.toNat % 64 + 1) (c.elems .fp32 f.va.toNat (vecN f))
    c.setSp (vecAddr f i) (recs.flatMap (fun r => toLE 4 ((b + r.1) % 2 ^ 32) ++ toLE 4 r.2.toNat))))

/-! ### Rotation (R83 to R86, R208) -/

/-- One step of the generator of R84. -/
def xorshift (s : BitVec 64) : BitVec 64 :=
  let s := s ^^^ (s <<< 13)
  let s := s ^^^ (s >>> 7)
  s ^^^ (s <<< 17)

/-- The signs of a block, `groups` groups of 64 elements; true is negative. -/
def rotSigns (s : BitVec 64) (groups : Nat) : List Bool :=
  match groups with
  | 0 => []
  | g + 1 => let t := xorshift s
    (List.range 64).map t.getLsbD ++ rotSigns t g

/-- One butterfly stage of span `h` over a block: (a, b) ↦ (a + b, a − b). -/
def butterfly (h : Nat) (xs : List F32) : List F32 :=
  (chunks (2 * h) xs xs.length).flatMap (fun p =>
    (p.take h).zipWith F32.add (p.drop h) ++ (p.take h).zipWith F32.sub (p.drop h))

/-- The k stages of H_N in the order of spans 1, 2, 4, …. -/
def hadamard (k : Nat) (xs : List F32) : List F32 := (List.range k).foldl (fun l j => butterfly (2 ^ j) l) xs

/-- One block rotated: D, then H_N, then the factor N^(−1/2) rounded to FP32. -/
def rotateBlock (k : Nat) (seed : BitVec 64) (xs : List F32) : List F32 :=
  let signs := rotSigns seed ((2 ^ k + 63) / 64)
  let dx := xs.zipWith (fun a n => if n then F32.of (Num.neg (F32.num a)) else a) signs
  let factor := F32.of (Num.sqrt (.fin false 1 (-(k : Int))))
  (hadamard k dx).map (fun a => F32.mul a factor)

/-- `VHAD` (R83 to R88, R208): the elements rotated block by block, each block with its own seed read at `SPA`; FP32 results at `VD`. -/
def execVhad (x : Issue) (f : VecF) (s : State) : Out :=
  finish (s.issue x (fun s i =>
    match (if f.t.toNat ≤ 1 then vecFmt f.t else none) with
    | some fm =>
      let c := s.core x.site
      let k := f.aux.toNat % 16
      let xs := c.elems fm f.va.toNat (vecN f)
      let blocks := chunks (2 ^ k) xs xs.length
      let a := vecAddr f i
      let seeds := (wordsOf 8 (c.spRead a (8 * blocks.length))).map (BitVec.ofNat 64)
      let ys := (blocks.zip seeds).flatMap (fun p => rotateBlock k p.2 p.1)
      (s.setCore x.site (c.setElems .fp32 f.vd.toNat ys)).consumed (c.spPoisoned a (8 * blocks.length))
    | none => s))

/-! ### Quantisation (R78 to R82, R208) -/

/-- What a quantisation counts. -/
inductive QuantEvent where
  | none
  | clamp
  | nonfinite
  deriving DecidableEq, Repr

/-- The integers and the FP16 scale of a vector at width `w` (R78 to R82); the scale of a nonzero vector is never 0, the quotient that FP32
rounds to 0 included. -/
def quantise (w : Nat) (xs : List F32) : List Int × F16 × QuantEvent :=
  if xs.any (fun a => !F32.isFin a) then (xs.map (fun _ => 0), 0x7E00, .nonfinite)
  else if w = 1 then
    let sum := laneReduce F32.add (xs.map (fun a => F32.of (Num.abs (F32.num a))))
    let sc := F16.of (F32.num (F32.div sum (F32.ofInt xs.length)))
    let qs := xs.map (fun a => if Num.lt (F32.num a) (Num.int 0) then -1 else 1)
    if (F16.num sc).isFin then (qs, sc, .none) else (qs, 0x7BFF, .clamp)
  else
    let qmax : Int := (2 : Int) ^ (w - 1) - 1
    let m := xs.foldl (fun a b => Num.larger a (Num.abs (F32.num b))) (Num.int 0)
    if m.isZero then (xs.map (fun _ => 0), 0, .none)
    else
      let r := F32.div (F32.of m) (F32.ofInt qmax)
      let big := Num.lt (Num.int 65504) (F32.num r)
      let sc : F16 := if big then 0x7BFF else BitVec.ofNat 16 (max 1 (Fmt.fp16.encodeR .up (F32.num r)))
      let qs := xs.map (fun a => (F32.num (F32.div a (F32.ofF16 sc))).toIntR)
      if big then (qs.map (fun q => max (-qmax) (min qmax q)), sc, .clamp) else (qs, sc, .none)

/-- A signed integer in one byte. -/
def byteOf (v : Int) : Byte := BitVec.ofInt 8 v

/-- The operand blocks of R197: 1,024 integers, the scale, and zeros. -/
def operandBlocks (qs : List Int) (sc : F16) : List Byte :=
  (chunks 1024 qs qs.length).flatMap (fun p =>
    p.map byteOf ++ List.replicate (1024 - p.length) 0 ++ toLE 2 sc.toNat ++ List.replicate 62 0)

/-- `VQNT`: one vector with one scale, written as operand blocks from `SPA`. -/
def execVqnt (x : Issue) (f : VecF) (s : State) : Out :=
  finish (s.issue x (fun s i =>
    match vecFmt f.t with
    | some fm =>
      let c := s.core x.site
      let (qs, sc, ev) := quantise (f.aux.toNat % 8 + 1) (c.elems fm f.va.toNat (vecN f))
      let t := s.setCore x.site (c.setSp (vecAddr f i) (operandBlocks qs sc))
      match ev with
      | .none => t
      | .clamp => t.err Reg.CNT_ASCALE_CLAMP 0 0 1
      | .nonfinite => t.err Reg.CNT_QUANT_NONFINITE 0 0 1
    | none => s))

end Sys2Proof.Machine
end

