-- ==== Sys2Proof/Machine/Experts.lean ====
section
/-! DEFINITION. Routed experts: `VROUTE` (R182 to R184, R212). -/

namespace Sys2Proof.Machine

/-- The barge that holds a token slot in the lockage (R271). -/
def State.slotBarge (s : State) (slot : Nat) : Option Nat :=
  match SMap.get s.slots 0 slot with
  | 0 => none
  | b + 1 => some b

/-- All experts in descending score, equal scores by ascending index, a NaN below every number (R183). -/
def rankExperts (scores : List F32) : List (Nat × F32) := topK scores.length scores

/-- The experts chosen for one slot from a ranking (R183): expert, score, whether the assignment overflowed. `pos` is the
place in the ranking of the head, `used` the occupancy. -/
def chooseExperts (cap k : Nat) (used : List Nat) (rank : List (Nat × F32)) (pos got : Nat) : List (Nat × F32 × Bool) :=
  match rank with
  | [] => []
  | (e, sc) :: t =>
    if got = k then []
    else if used.getD e 0 < cap then (e, sc, decide (k ≤ pos)) :: chooseExperts cap k used t (pos + 1) (got + 1)
    else chooseExperts cap k used t (pos + 1) got

/-- Gate weights (R184): each score divided by their sum, added left to right; NaN where the sum is not finite or 0. -/
def gateWeights (scores : List F32) : List F32 :=
  match scores with
  | [] => []
  | a :: t =>
    let sum := t.foldl F32.add a
    if F32.isFin sum && !F32.isZero sum then scores.map (fun v => F32.div v sum) else scores.map (fun _ => F32.nan)

/-- *Assignment record*. -/
def assignRecord (expert : Nat) (overflow : Bool) (w : F32) : List Byte :=
  toLE 4 (expert + (if overflow then 0x10000 else 0)) ++ toLE 4 w.toNat

/-- The slots of a `VROUTE` in ascending order: records, occupancy and overflow count so far. `rows` gives each slot's scores,
none where the slot is unoccupied. Where full experts leave a slot fewer than k, what its last records hold is not stated
(notes/assumptions/3.md). -/
def routeSlots (cap k : Nat) (rows : List (Option (List F32))) (used : List Nat) (ovf : Nat) : List Byte × List Nat × Nat :=
  match rows with
  | [] => ([], used, ovf)
  | none :: t =>
    let (bs, u, n) := routeSlots cap k t used ovf
    ((List.replicate k (assignRecord 0xFFFF false 0)).flatten ++ bs, u, n)
  | some scores :: t =>
    let chosen := chooseExperts cap k used (rankExperts scores) 0 0
    let ws := gateWeights (chosen.map (fun c => c.2.1))
    let used := chosen.foldl (fun u c => u.set c.1 (u.getD c.1 0 + 1)) used
    let recs := chosen.zipWith (fun c w => assignRecord c.1 c.2.2 w) ws
    let short := (List.range (k - chosen.length)).map (fun i => toLE 8 (Config.shortRecord scores used t.length i).toNat)
    let (bs, u, n) := routeSlots cap k t used (ovf + (chosen.filter (fun c => c.2.2)).length)
    ((recs ++ short).flatten ++ bs, u, n)

/-- `VROUTE` (R183, R184, R212). -/
def execVroute (x : Issue) (f : RouteF) (s : State) : Out :=
  finish (s.issue x (fun s _ =>
    let c := s.core x.site
    let nx := f.xm1.toNat + 1
    let k := f.km1.toNat + 1
    let nt := f.ntm1.toNat + 1
    let occ := f.occ.toNat
    let cap := ofLE (c.spRead occ 2)
    let used := wordsOf 2 (c.spRead (occ + 4) (2 * nx))
    let rows := (List.range nt).map (fun j =>
      if (s.slotBarge (f.t0.toNat + j)).isSome then some (f32s (c.spRead (f.scores.toNat + 4 * nx * j) (4 * nx))) else none)
    let (bs, used', n) := routeSlots cap k rows used 0
    let t := s.setCore x.site ((c.setSp (occ + 4) (bytesOf 2 used')).setSp f.out.toNat bs)
    (t.consumed (c.spPoisoned f.scores.toNat (4 * nx * nt) || c.spPoisoned occ (4 + 2 * nx))).err
      Reg.CNT_EXPERT_OVERFLOW 0 0 n))

end Sys2Proof.Machine
end

