-- ==== Sys2Proof/Machine/Kv.lean ====
section
/-! DEFINITION. KV pages (chapter 08): the page tables, the granule pools, the formats of a page's elements. -/

namespace Sys2Proof.Machine

/-! ### Level-3 entries (R237, R238) -/

/-- The key of a granule: the identifier, equal to the barge's index (R236), and the virtual granule number of *KV virtual address*. -/
def vKey (barge layer page g : Nat) : Nat := 2 ^ 25 * barge + 2 ^ 17 * layer + 4 * page + g

/-- A level-3 entry; 0 where a table on the way is missing or the entry is invalid. -/
def Kv.pte (k : Kv) (key : Nat) : Nat := (SMap.get k.l3 0 key).toNat

/-- Whether an entry is valid. -/
def pteValid (e : Nat) : Bool := e % 2 == 1

/-- The granule that an entry names, as its number and whether it lies in far memory. -/
def pteFrame (e : Nat) : Nat × Bool := (bitsOf e 45 21, bitsOf e 20 20 == 1)

/-- Builds a valid level-3 entry. -/
def pteMake (tenant frame : Nat) (far : Bool) (slot kind fmt : Nat) (shared : Bool) : BitVec 64 :=
  BitVec.ofNat 64 (tenant * 2 ^ 48 + frame * 2 ^ 21 + bit far * 2 ^ 20 + slot * 2 ^ 16 + kind * 2 ^ 6 + fmt * 2 ^ 4 + bit shared * 2 ^ 3 + 1)

/-- Sets an entry. -/
def Kv.setPte (k : Kv) (key : Nat) (e : BitVec 64) : Kv := { k with l3 := SMap.put k.l3 0 key e }

/-- The address of a granule. -/
def granAddr (f : Nat × Bool) : Nat := f.1 * 32768 + (if f.2 then farBase else 0)

/-- A mapped page: format (0 BF16, 1 FP8, 2 INT4), tenant, data granules (number, whether far), scale granule and slot. -/
structure PageAt where
  fmt : Nat
  tenant : Nat
  shared : Bool
  frames : List (Nat × Bool)
  scale : (Nat × Bool) × Nat
  deriving DecidableEq, Repr

/-- The granules that hold a page's data in a format. -/
def dataGranules (fmt : Nat) : Nat :=
  match fmt with
  | 0 => 4
  | 1 => 2
  | _ => 1

/-- The page at a local index; none where an entry that it needs is invalid (R240). -/
def Kv.page (k : Kv) (barge layer page : Nat) : Option PageAt :=
  let e0 := k.pte (vKey barge layer page 0)
  let fmt := bitsOf e0 5 4
  let es := (List.range (if fmt = 2 then 2 else dataGranules fmt)).map (fun g => k.pte (vKey barge layer page g))
  if es.all pteValid then
    some { fmt := fmt, tenant := bitsOf e0 63 48, shared := bitsOf e0 3 3 == 1, frames := (es.take (dataGranules fmt)).map pteFrame,
           scale := if fmt = 2 then (pteFrame (es.getD 1 0), bitsOf (es.getD 1 0) 19 16) else ((0, false), 0) }
  else none

/-- Unmaps a page. -/
def Kv.unmap (k : Kv) (barge layer page : Nat) : Kv :=
  (List.range 4).foldl (fun k g => { k with l3 := SMap.erase k.l3 (vKey barge layer page g) }) k

/-- The pages of a barge that have a mapping: layer and local index, ascending by local index and then layer (R249). -/
def Kv.pagesOf (k : Kv) (barge : Nat) : List (Nat × Nat) :=
  ((k.l3.filter (fun e => e.1 / 2 ^ 25 == barge && e.1 % 4 == 0)).map (fun e => (e.1 % 2 ^ 25 / 2 ^ 17, e.1 % 2 ^ 17 / 4))).mergeSort
    (fun a b => decide (a.2 < b.2 ∨ (a.2 = b.2 ∧ a.1 ≤ b.1)))

/-! ### The tables in near memory (R236 to R238) -/

/-- The address of a unit of the page-table region above the level-1 tables of all 8,192 identifiers (notes/assumptions/26.md). -/
def State.tabAddr (s : State) (u : Nat) : Nat := s.reg Reg.MEM_KV_PT_BASE 0 0 + 0x1000000 + 4096 * u

/-- The address of the entry that names a table: in the level-1 table for a level-2 table, in its level-2 table for a level-3 table. -/
def State.parentOf (s : State) (key : Nat) : Nat :=
  if key % 2 = 0 then s.reg Reg.MEM_KV_PT_BASE 0 0 + 8 * (key / 2)
  else s.tabAddr (SMap.get s.kv.tabs 0 (2 * (key / 512)) - 1) + 8 * (key / 2 % 256)

/-- The keys of the level-2 and the level-3 table of a virtual granule. -/
def tableKeys (key : Nat) : List Nat := [2 * (key / 2 ^ 17), 2 * (key / 512) + 1]

/-- The addresses of the table words that a visit of a page walks through, down to the first missing table. -/
def State.walk (s : State) (barge layer page : Nat) : List Nat :=
  let key := vKey barge layer page 0
  let up := (tableKeys key).map (fun t => SMap.get s.kv.tabs 0 t)
  let fmt := bitsOf (s.kv.pte key) 5 4
  s.parentOf (2 * (key / 2 ^ 17)) ::
  (if up.getD 0 0 = 0 then [] else s.parentOf (2 * (key / 512) + 1) ::
  (if up.getD 1 0 = 0 then [] else
    (List.range (if fmt = 2 then 2 else dataGranules fmt)).map (fun g => s.tabAddr (up.getD 1 0 - 1) + 8 * (key % 512 + g))))

/-! ### Granule pools (R242) -/

/-- The granules of near memory (`far` false) or far memory that hold anything: mapped, being copied into, or staged. -/
def Kv.used (k : Kv) (far : Bool) : List Nat :=
  (k.l3.filterMap (fun e => if (pteFrame e.2.toNat).2 = far then some (pteFrame e.2.toNat).1 else none)) ++
  ((k.copies.filter (fun c => c.spill == far)).flatMap (fun c => c.target)) ++
  k.rcmps.flatMap (fun r => (if far then [] else [r.data]) ++ (if r.scale.2 = far then [r.scale.1] else []))

/-- The first of `cnt` candidates, from the `start`-th on and around, that is not in use; `fuel` bounds the search. -/
def firstFree (cand : Nat → Nat) (cnt start fuel : Nat) (used : List Nat) : Option Nat :=
  match fuel with
  | 0 => none
  | fuel + 1 =>
    if cnt = 0 then none
    else if used.contains (cand (start % cnt)) then firstFree cand cnt (start + 1) fuel used
    else some (cand (start % cnt))

/-- First granule and size of the near or the far pool (R257). -/
def State.pool (s : State) (far : Bool) : Nat × Nat :=
  if far then (s.reg Reg.MEM_KV_FAR_BASE 0 0 / 32768, s.reg Reg.MEM_KV_FAR_GRAN 0 0)
  else (s.reg Reg.MEM_KV_NEAR_BASE 0 0 / 32768, s.reg Reg.MEM_KV_NEAR_GRAN 0 0)

/-- Granules of one die half of near memory. -/
def halfGranules : Nat := 0x5000000000 / 32768

/-- A free granule on stack `k` of a die, none of `taken`: which one is a free value (notes/assumptions/10.md). -/
def State.nearOn (s : State) (die k : Nat) (taken : List Nat) : Option Nat :=
  if s.rf Reg.MEM_STACKs_STATE (4 * die + k) 0 2 0 = 3 then none
  else
    let (p, n) := s.pool false
    let lo := max p (die * halfGranules) - die * halfGranules
    let hi := min (p + n) ((die + 1) * halfGranules) - die * halfGranules
    let m0 := (lo + 3 - k) / 4
    let m1 := (hi + 3 - k) / 4
    let used := taken ++ s.kv.used false
    firstFree (fun m => die * halfGranules + 4 * (m0 + m) + k) (m1 - m0) (s.free 64).toNat (used.length + 1) used

/-- A free near granule for an owner on a die: its stacks in rotation, then those of the other die (R242). -/
def State.allocNear (s : State) (die : Nat) (taken : List Nat) : Option (Nat × State) :=
  let r := SMap.get s.kv.rotor 0 die
  let order := ((List.range 4).map (fun t => (die, (r + t) % 4))) ++ ((List.range 4).map (fun t => (1 - die, t)))
  match order.findSome? (fun x => (s.nearOn x.1 x.2 taken).map (fun f => (x, f))) with
  | some (x, f) =>
    let s := s.nextFree
    some (f, if x.1 = die then { s with kv := { s.kv with rotor := SMap.put s.kv.rotor 0 die ((x.2 + 1) % 4) } } else s)
  | none => none

/-- A free far granule. -/
def State.allocFar (s : State) (taken : List Nat) : Option (Nat × State) :=
  let (p, n) := s.pool true
  let used := taken ++ s.kv.used true
  (firstFree (fun m => p + m) n (s.free 64).toNat (used.length + 1) used).map (fun f => (f, s.nextFree))

/-- The granules of near memory (`far` false) or far memory among some. -/
def granulesIn (far : Bool) (l : List (Nat × Bool)) : List Nat := (l.filter (fun x => x.2 == far)).map (fun x => x.1)

/-- `n` granules for one page: near while there are any, then far (R242). -/
def State.allocData (s : State) (die n : Nat) (got : List (Nat × Bool)) : Option (List (Nat × Bool) × State) :=
  match n with
  | 0 => some (got, s)
  | n + 1 =>
    match s.allocNear die (granulesIn false got) with
    | some (f, t) => State.allocData t die n (got ++ [(f, false)])
    | none =>
      match s.allocFar (granulesIn true got) with
      | some (f, t) => State.allocData t die n (got ++ [(f, true)])
      | none => none

/-- Scale granules in use with the slots taken in each. -/
def Kv.scaleSlots (k : Kv) : List ((Nat × Bool) × Nat) :=
  (k.l3.filterMap (fun e => if bitsOf e.2.toNat 6 6 = 1 then some (pteFrame e.2.toNat, bitsOf e.2.toNat 19 16) else none)) ++
  k.rcmps.map (fun r => (r.scale, r.slot))

/-- A free scale slot: in a scale granule in use, or the first of a new one (R232), near while there is one, then, where `far` allows it, far
(R242). `taken` are granules that the page's data takes. -/
def State.allocSlot (s : State) (far : Bool) (die : Nat) (taken : List (Nat × Bool)) : Option (((Nat × Bool) × Nat) × State) :=
  let full := s.kv.scaleSlots
  let avail := full.flatMap (fun x => ((List.range 16).map (fun n => (x.1, n))).filter (fun y => !full.contains y))
  match avail[(s.free 64).toNat % avail.length]? with
  | some y => some (y, s.nextFree)
  | none =>
    match s.allocNear die (granulesIn false taken) with
    | some (f, t) => some (((f, false), 0), t)
    | none => if far then (s.allocFar (granulesIn true taken)).map (fun x => (((x.1, true), 0), x.2)) else none

/-- Writes the entries of a page. -/
def Kv.setPage (k : Kv) (barge layer page : Nat) (p : PageAt) : Kv :=
  let k := p.frames.zipIdx.foldl (fun k f =>
    k.setPte (vKey barge layer page f.2) (pteMake p.tenant f.1.1 f.1.2 0 0 p.fmt p.shared)) (k.unmap barge layer page)
  if p.fmt = 2 then k.setPte (vKey barge layer page 1) (pteMake p.tenant p.scale.1.1 p.scale.1.2 p.scale.2 1 2 p.shared) else k

/-- Whether a page has a granule in far memory, data or scales. -/
def PageAt.inFar (p : PageAt) : Bool := p.frames.any (fun f => f.2) || (p.fmt == 2 && p.scale.1.2)

/-- Fresh granules for a page in a format, and for INT4 a scale slot (R241, R242). -/
def State.freshPage (s : State) (die fmt tenant : Nat) : Option (PageAt × State) :=
  match s.allocData die (dataGranules fmt) [] with
  | none => none
  | some (fs, t) =>
    let slot := if fmt = 2 then t.allocSlot true die fs else some (((0, false), 0), t)
    slot.map (fun x => ({ fmt := fmt, tenant := tenant, shared := false, frames := fs, scale := x.1 }, x.2))

/-- Far granules that are taken carry no failed tag of what they held. -/
def Kv.freshTags (k : Kv) (fs : List Nat) : Kv := { k with badTags := k.badTags.filter (fun u => !fs.contains (u / 8)) }

/-- Maps a page of fresh granules; one that lies in far memory is counted (R242). -/
def State.placePage (s : State) (barge layer page : Nat) (p : PageAt) : State :=
  let t : State := { s with kv := (s.kv.setPage barge layer page p).freshTags (granulesIn true p.frames) }
  if p.inFar then t.err Reg.CNT_KV_ALLOC_FAR 0 0 1 else t

/-- Maps a new page of a barge in a format for an owner on a die (R241). -/
def State.mapPage (s : State) (die barge layer page fmt tenant : Nat) : State :=
  match s.freshPage die fmt tenant with
  | none => s
  | some (p, t) => t.placePage barge layer page p

/-! ### Geometry and owners (R228, R230) -/

/-- The KV geometry of a layer in the active schedule. -/
def State.geom (s : State) (layer : Nat) : Option LayerGeom :=
  s.sched.active.bind (fun im => im.geoms.find? (fun g => g.layer == layer))

/-- The site of this device that owns a global page of a layer. -/
def State.ownerSite (s : State) (g : LayerGeom) (j : Nat) : Option Nat :=
  (s.sched.active.bind (fun im =>
    im.owners.find? (fun o => o.layer == g.layer && o.phase == j % g.stride && o.dev == s.devNo))).map (fun o => o.site)

/-! ### Elements of a page (R231 to R234) -/

/-- Bytes of `n` elements of a format. -/
def fmtBytes (fmt n : Nat) : Nat :=
  match fmt with
  | 0 => 2 * n
  | 1 => n
  | _ => n / 2

/-- The offset in a page of the head vector of KV head `h` at page position `t`: keys in the first half, values in the second
(R231). -/
def vecOffset (heads dim fmt h t : Nat) (value : Bool) : Nat :=
  (if value then fmtBytes fmt (32 * heads * dim) else 0) + fmtBytes fmt ((h * 32 + t) * dim)

/-- The address of a byte offset of a page. -/
def PageAt.addr (p : PageAt) (o : Nat) : Nat := granAddr (p.frames.getD (o / 32768) (0, false)) + o % 32768

/-- The address of the scales of a head vector (R232). -/
def PageAt.scaleAddr (p : PageAt) (dim h t : Nat) (value : Bool) : Nat :=
  granAddr p.scale.1 + p.scale.2 * 2048 + (h * 32 + t) * (dim / 32) + (if value then 1024 else 0)

/-- The ranges of device memory, address and length, that a visit reads of a page: keys and values of the KV heads `hs` at its first `n` positions,
and their scales. A head's vectors of one half lie in one run (R231, R232). -/
def PageAt.ranges (p : PageAt) (heads dim : Nat) (hs : List Nat) (n : Nat) : List (Nat × Nat) :=
  hs.flatMap (fun h => [false, true].flatMap (fun v =>
    (p.addr (vecOffset heads dim p.fmt h 0 v), fmtBytes p.fmt (n * dim)) ::
    (if p.fmt = 2 then [(p.scaleAddr dim h 0 v, n * (dim / 32))] else [])))

/-- The 4 KiB units of far memory that ranges touch, numbered from its start. -/
def farUnits (rs : List (Nat × Nat)) : List Nat :=
  ((rs.filter (fun r => decide (farBase ≤ r.1))).flatMap (fun r =>
    let u := (r.1 - farBase) / 4096
    (List.range ((r.1 + r.2 - 1 - farBase) / 4096 + 1 - u)).map (fun k => u + k))).eraseDups

/-- The value of an INT4 code under a block scale (R234, R100); a NaN scale gives NaN. -/
def int4Value (scale : Byte) (code : Nat) : F32 := F32.of (Num.mul (Num.int (signed 4 code)) (Fmt.e4m3.decode scale.toNat))

/-- A head vector widened (R97 to R100): its elements, from the bytes of the vector and of its scales. -/
def widen (fmt : Nat) (bs scales : List Byte) : List F32 :=
  match fmt with
  | 0 => (wordsOf 2 bs).map (fun w => F32.of (Fmt.bf16.decode w))
  | 1 => bs.map (fun b => F32.of (Fmt.e4m3.decode b.toNat))
  | _ => (bs.flatMap (fun b => [b.toNat % 16, b.toNat / 16])).zipIdx.map (fun x => int4Value (scales.getD (x.2 / 32) 0) x.1)

/-- What a quantised block gives: its scale, its codes, and the events of R99: scale clamped, non-finite element. DEDUCED: the scale of a
nonzero block is never 0, as R78 says of a vector (notes/assumptions/11.md). -/
def int4Block (xs : List F32) : Byte × List Nat × Bool × Bool :=
  let zeros := xs.map (fun _ => 0)
  if xs.any (fun x => !F32.isFin x) then (0x7F, zeros, false, true)
  else
    let m := xs.foldl (fun a x => Num.larger a (Num.abs (F32.num x))) (.fin false 0 0)
    if m.isZero then (0, zeros, false, false)
    else
      let q := F32.num (F32.div (F32.of m) (F32.ofInt 7))
      let clamp := Num.lt (Num.int 448) q
      let sc := if clamp then 0x7E else max 1 (Fmt.e4m3.encodeR .up q)
      let d := Fmt.e4m3.decode sc
      (BitVec.ofNat 8 sc, xs.map (fun x => ((max (-7) (min 7 (Num.div (F32.num x) d).toIntR)) % 16).toNat), clamp, false)

/-- Pairs of 4-bit codes packed into bytes, the first in the low half (R98). -/
def packNibbles (l : List Nat) : List Byte :=
  match l with
  | a :: b :: t => BitVec.ofNat 8 (a + 16 * b) :: packNibbles t
  | [a] => [BitVec.ofNat 8 a]
  | [] => []

/-- A head vector in a format (R97 to R100): its bytes, the bytes of its scales, and how often an FP8 element saturated, a scale was clamped, a
block was non-finite. -/
def narrow (fmt : Nat) (xs : List F32) : List Byte × List Byte × Nat × Nat × Nat :=
  match fmt with
  | 0 => (bytesOf 2 (xs.map (fun x => Fmt.bf16.encode (F32.num x))), [], 0, 0, 0)
  | 1 => (xs.map (fun x => BitVec.ofNat 8 (Fmt.e4m3.encode (F32.num x))), [], (xs.filter (fun x => Fmt.e4m3.saturates (F32.num x))).length, 0, 0)
  | _ =>
    let bs := (chunks 32 xs (xs.length / 32)).map int4Block
    (bs.flatMap (fun b => packNibbles b.2.1), bs.map (fun b => b.1), 0, (bs.filter (fun b => b.2.2.1)).length,
      (bs.filter (fun b => b.2.2.2)).length)

/-- Counts what a conversion into a page met (R94, R99). -/
def State.countNarrow (s : State) (n : Nat × Nat × Nat) : State :=
  ((s.err Reg.CNT_FP8_SAT 0 0 n.1).err Reg.CNT_KV_SCALE_CLAMP 0 0 n.2.1).err Reg.CNT_QUANT_NONFINITE 0 0 n.2.2

/-! ### End causes (R268) -/

/-- Notes an end cause that this device has detected, to ride its next arrival. -/
def State.addCause (s : State) (c : EndCause) : State :=
  if s.flt.causes.contains c then s else { s with flt := { s.flt with causes := s.flt.causes ++ [c] } }

/-- An end cause that is none of a variant's. -/
def State.endCause (s : State) (barge status : Nat) : State := s.addCause { barge := barge, status := status, variant := 0 }

end Sys2Proof.Machine
end

