-- ==== Sys2Proof/Machine/Attention.lean ====
section
/-! DEFINITION. The attention instructions, opcodes 0xE0 to 0xE4 (R217 to R219; R225 to R235, R239, R240, R252 to R256). -/

namespace Sys2Proof.Machine

/-! ### Operands -/

/-- Bytes of a partial state of one head (R218). -/
def stateBytes (d : Nat) : Nat := 4 * d + 64

/-- The barge of the slot that g`GS` holds; none above 1,023 or unoccupied (R217). -/
def State.attBarge (s : State) (site : Nat) (f : AttF) : Option Nat :=
  let n := ((s.core site).gr f.gs.toNat).toNat
  if n ≤ 1023 then s.slotBarge n else none

/-- An operand address that steps by the size of the operand (*Format T*). -/
def attAddr (base size i : Nat) : Nat := base + size * i

/-- The query position p_q (R217). -/
def attPos (b : Barge) (f : AttF) (i : Nat) : Nat := b.length + f.poff.toNat + i

/-- The BF16 head vectors at a scratchpad address, widened. -/
def Core.heads (c : Core) (a n d : Nat) : List (List F32) :=
  (chunks (2 * d) (c.spRead a (2 * d * n)) n).map (fun b => widen 0 b [])

/-! ### Partial states (R218, R219) -/

/-- A partial state: o, m, l. -/
structure Partial where
  o : List F32
  m : F32
  l : F32
  deriving DecidableEq, Repr

/-- FP32 −∞. -/
def negInf : F32 := 0xFF800000

/-- The empty state. -/
def emptyPartial (d : Nat) : Partial := ⟨List.replicate d 0, negInf, 0⟩

/-- The state of NaNs that R239 writes. -/
def nanPartial (d : Nat) : Partial := ⟨List.replicate d F32.nan, F32.nan, F32.nan⟩

/-- The bytes of a partial state. -/
def Partial.bytes (p : Partial) : List Byte := p.o.flatMap (fun x => toLE 4 x.toNat) ++ toLE 4 p.m.toNat ++ toLE 4 p.l.toNat ++ List.replicate 56 0

/-- The partial state that bytes hold. -/
def readPartial (d : Nat) (bs : List Byte) : Partial :=
  let ws := (wordsOf 4 (bs.take (4 * d + 8))).map (BitVec.ofNat 32)
  ⟨ws.take d, ws.getD d 0, ws.getD (d + 1) 0⟩

/-- e^x as `VEXP`. -/
def F32.exp (x : F32) : F32 := F32.of (Num.exp (F32.num x))

/-- `DH`^(−1/2) as FP32. -/
def headScale (d : Nat) : F32 := F32.of (Num.rsqrt (Num.int d))

/-- q · k, each product exact, summed in ascending order (R218, R235). -/
def dot (q k : List F32) : F32 := F32.sumL (q.zipWith F32.mul k)

/-- The weighted sum of values: Σ w_t × v_t per element, ascending position. -/
def weighted (ws : List F32) (vs : List (List F32)) (d : Nat) : List F32 :=
  (ws.zip vs).foldl (fun acc x => acc.zipWith (fun a v => F32.add a (F32.mul x.1 v)) x.2) (List.replicate d 0)

/-- One page's block of visited positions taken into a head's state (R218). -/
def Partial.block (p : Partial) (d : Nat) (q : List F32) (ks vs : List (List F32)) : Partial :=
  let sc := ks.map (fun k => F32.mul (headScale d) (dot q k))
  let mNew := sc.foldl vmaxOp p.m
  let c := if p.m = negInf then 0 else F32.exp (F32.sub p.m mNew)
  let ws := sc.map (fun x => F32.exp (F32.sub x mNew))
  { o := (p.o.zip (weighted ws vs d)).map (fun x => F32.add (F32.mul x.1 c) x.2), m := mNew,
    l := F32.add (F32.mul p.l c) (F32.sumL ws) }

/-- The merge of states a and b (R219). -/
def Partial.merge (a b : Partial) : Partial :=
  if a.m = negInf ∧ b.m = negInf then emptyPartial a.o.length
  else
    let m := vmaxOp a.m b.m
    let ea := F32.exp (F32.sub a.m m)
    let eb := F32.exp (F32.sub b.m m)
    { o := a.o.zipWith (fun x y => F32.add (F32.mul x ea) (F32.mul y eb)) b.o, m := m,
      l := F32.add (F32.mul a.l ea) (F32.mul b.l eb) }

/-! ### Visits (R239, R240, R252, R253, R361) -/

/-- A page that no visit can use: counted, raised, and its barge ends `FAILED` (R239, R240). -/
def State.kvMissing (s : State) (barge : Nat) : State := ((s.err Reg.CNT_KV_MISSING 0 0 1).raise 0x41 devUnit).endCause barge 7

/-- A tenant mismatch (R239). -/
def State.kvTenant (s : State) (barge : Nat) : State := ((s.err Reg.CNT_KV_TENANT 0 0 1).raise 0x40 devUnit).endCause barge 7

/-- A read of a page in far memory counts (R252). -/
def State.kvFar (s : State) (p : PageAt) : State :=
  if p.inFar then (s.err Reg.CNT_KV_FAR_READ 0 0 1).raise 0x44 devUnit else s

/-- The 4 KiB units of far memory among the ranges of a read whose tag fails, now (`fails`) or since before (R253). -/
def State.failedUnits (s : State) (rs : List (Nat × Nat)) (fails : List Nat) : List Nat :=
  (farUnits rs).filter (fun u => fails.contains u || s.kv.badTags.contains u)

/-- Tag checks of units `l` of a page have failed: the units are remembered (R360), the whole page is poisoned, its granules `fs` (near ones too,
as granule and memory), and every failed check is counted and raised (R253). -/
def State.failUnits (s : State) (fs : List (Nat × Bool)) (l : List Nat) : State :=
  if l.isEmpty then s
  else
    let t := fs.foldl (fun (s : State) f => s.poisonGranule (granAddr f)) s
    let t : State := { t with kv := { t.kv with badTags := t.kv.badTags ++ l.filter (fun u => !t.kv.badTags.contains u) } }
    (t.err Reg.CNT_KV_INTEGRITY 0 0 l.length).raise 0x42 devUnit

/-- Poison somewhere in the page-table region outside the tables that a visit walks through may lie in a version counter or a reference count:
where a free value says so it is met, and the chip resets at once (R361; notes/assumptions/3.md). -/
def State.countersRead (s : State) : State :=
  let a := s.reg Reg.MEM_KV_PT_BASE 0 0
  let e := a + s.rf Reg.MEM_KV_PT_SIZE 0 0 15 0 * 2 ^ 20
  if !s.poison.any (fun w => decide (a ≤ 8 * w ∧ 8 * w < e)) then s
  else if (s.free 1).getLsbD 0 then { s.nextFree.err Reg.MEM_POISON_CONSUMED 0 0 1 with fcl := { s.fcl with chipReset := true } }
  else s.nextFree

/-- Whether one of the ranges of a read, as a core reads them, carries poison. -/
def State.kvPoison (s : State) (site : Nat) (rs : List (Nat × Nat)) : Bool := rs.any (fun r => s.memPoisoned site r.1 r.2)

/-- A read of poisoned data of a page (R361): its barge ends `POISONED`. -/
def State.kvPoisoned (s : State) (barge : Nat) : State := (s.err Reg.MEM_POISON_CONSUMED 0 0 1).endCause barge 4

/-- A walk that meets poison in a table word resets the chip at once (R240, R361). -/
def State.walkCheck (s : State) (site barge layer page : Nat) : State :=
  let s := (s.walk barge layer page).foldl (fun (s : State) a => s.meet a 8) s
  if (s.walk barge layer page).any (fun a => s.memPoisoned site a 8) then
    { s.err Reg.MEM_POISON_CONSUMED 0 0 1 with fcl := { s.fcl with chipReset := true } }
  else s

/-- A head vector of a page, widened. -/
def State.kvVec (s : State) (site : Nat) (g : LayerGeom) (d : Nat) (p : PageAt) (h t : Nat) (value : Bool) : List F32 :=
  let bs := (s.memRead site (p.addr (vecOffset g.heads d p.fmt h t value)) (fmtBytes p.fmt d)).1
  let sc := if p.fmt = 2 then (s.memRead site (p.scaleAddr d h t value) (d / 32)).1 else []
  widen p.fmt bs sc

/-! ### `ATT.KVW` -/

/-- A write of a core to device memory (R215). -/
def State.post (s : State) (site a : Nat) (bs : List Byte) : State :=
  { s with posted := s.posted ++ [{ site := site, addr := a, data := bs, poison := [] }] }

/-- Writes one head vector into a page in the page's format. -/
def State.kvPut (s : State) (site : Nat) (g : LayerGeom) (d : Nat) (p : PageAt) (h t : Nat) (value : Bool) (xs : List F32) : State :=
  let (bs, sc, n) := narrow p.fmt xs
  let s := (s.post site (p.addr (vecOffset g.heads d p.fmt h t value)) bs).countNarrow n
  if p.fmt = 2 then s.post site (p.scaleAddr d h t value) sc else s

/-- `ATT.KVW` (R217, R228, R233, R256). -/
def execAttKvw (x : Issue) (f : AttF) (s : State) : Out :=
  finish (s.issue x (fun s i =>
    match s.attBarge x.site f, headDim f.dh.toNat, s.geom f.layer.toNat with
    | some n, some d, some g =>
      let b := s.barge n
      let pos := attPos b f i
      let stride := f.psm1.toNat + 1
      let j := pos / 32
      if 2 ^ 20 ≤ pos ∨ j % stride ≠ f.pph.toNat then s
      else
        let c := s.core x.site
        let heads := f.gm1.toNat + 1
        let a := attAddr f.a.toNat (4 * d * heads) i
        let s := s.walkCheck x.site n f.layer.toNat (j / stride)
        match s.kv.page n f.layer.toNat (j / stride) with
        | none => s.kvMissing n
        | some p =>
          if p.tenant ≠ b.tenant then s.kvTenant n
          else
            let ks := c.heads a heads d
            let vs := c.heads (a + 2 * d * heads) heads d
            let s := ks.zipIdx.foldl (fun s k => s.kvPut x.site g d p (f.kvh.toNat + k.2) (pos % 32) false k.1) s
            let s := vs.zipIdx.foldl (fun s v => s.kvPut x.site g d p (f.kvh.toNat + v.2) (pos % 32) true v.1) s
            s.consumed (c.spPoisoned a (4 * d * heads))
    | _, _, _ => s))

/-! ### `ATT.RUN` -/

/-- The local indexes of the pages that a visit requires, ascending: the selected pages that hold a position from 0 to `last`. -/
def visitPages (stride phase last : Nat) : List Nat :=
  (List.range (last / 32 / stride + 1)).filter (fun j' => decide ((j' * stride + phase) * 32 ≤ last))

/-- The positions of global page `j` that lie at or below `last`. -/
def visitCount (j last : Nat) : Nat := min 32 (last + 1 - 32 * j)

/-- One page visit of `ATT.RUN`: the heads' states, unless a page is unusable or poisoned. The third component is false once no page is read any
more, the last true where a poisoned page leaves the states open. A page missing or of another tenant gives the NaN state, whatever an
earlier page has met (R239, R240). `fails` are the 4 KiB units of far memory whose tag fails. -/
def State.visitPage (fails : List Nat) (site : Nat) (f : AttF) (g : LayerGeom) (d n last : Nat) (qs : List (List F32))
    (acc : State × List Partial × Bool × Bool) (j' : Nat) : State × List Partial × Bool × Bool :=
  let (s, ps, go, bad) := acc
  if !go then acc
  else
    let stride := f.psm1.toNat + 1
    let s := s.walkCheck site n f.layer.toNat j'
    match s.kv.page n f.layer.toNat j' with
    | none => (s.kvMissing n, ps.map (fun _ => nanPartial d), false, false)
    | some p =>
      if p.tenant ≠ (s.barge n).tenant then (s.kvTenant n, ps.map (fun _ => nanPartial d), false, false)
      else
        let cnt := visitCount (j' * stride + f.pph.toNat) last
        let rs := p.ranges g.heads d [f.kvh.toNat] cnt
        let s := rs.foldl (fun (s : State) r => s.meet r.1 r.2) (if p.inFar then s.countersRead else s)
        let s := (s.kvFar p).failUnits p.frames (s.failedUnits rs fails)
        if s.kvPoison site rs then (s.kvPoisoned n, ps, true, true)
        else
          let ts := List.range cnt
          let ks := ts.map (fun t => s.kvVec site g d p f.kvh.toNat t false)
          let vs := ts.map (fun t => s.kvVec site g d p f.kvh.toNat t true)
          (s, (ps.zip qs).map (fun x => x.1.block d x.2 ks vs), true, bad)

/-- `n` free values of 32 bits. -/
def State.freeWords (s : State) (n : Nat) : List F32 := (List.range n).map (fun k => (Config.freeValue (s.freeCtr + k)).setWidth 32)

/-- A partial state of free values: what a visit that met poison leaves (the spec names no value). -/
def State.freePartials (s : State) (d heads : Nat) : List Partial × State :=
  ((List.range heads).map (fun h =>
    let w := ({ s with freeCtr := s.freeCtr + h * (d + 2) }).freeWords (d + 2)
    ⟨w.take d, w.getD d 0, w.getD (d + 1) 0⟩), { s with freeCtr := s.freeCtr + heads * (d + 2) })

/-- `ATT.RUN` (R217, R218, R225 to R235, R239, R240, R252, R253). -/
def execAttRun (x : Issue) (f : AttF) (tagFails : List Nat) (s : State) : Out :=
  finish (s.issue x (fun s i =>
    match headDim f.dh.toNat with
    | none => s
    | some d =>
      let c := s.core x.site
      let heads := f.gm1.toNat + 1
      let a := attAddr f.a.toNat (2 * d * heads) i
      let out := attAddr f.b.toNat (stateBytes d * heads) i
      let put := fun (s : State) (ps : List Partial) => s.updCore x.site (fun c => c.setSp out (ps.flatMap Partial.bytes))
      let none_ := List.replicate heads (emptyPartial d)
      match s.attBarge x.site f, s.geom f.layer.toNat with
      | some n, some g =>
        let last := min (attPos (s.barge n) f i) (2 ^ 20 - 1)
        let qs := c.heads a heads d
        let s := s.consumed (c.spPoisoned a (2 * d * heads))
        let (s, ps, _, bad) := (visitPages (f.psm1.toNat + 1) f.pph.toNat last).foldl
          (State.visitPage tagFails x.site f g d n last qs) (s, none_, true, false)
        if bad then
          let (ps, s) := s.freePartials d heads
          put s ps
        else put s ps
      | _, _ => put s none_))

/-! ### `ATT.MRG`, `ATT.FIN` -/

/-- The partial states at a scratchpad address. -/
def Core.partials (c : Core) (a n d : Nat) : List Partial :=
  (chunks (stateBytes d) (c.spRead a (stateBytes d * n)) n).map (readPartial d)

/-- `ATT.MRG` (R219). -/
def execAttMrg (x : Issue) (f : AttF) (s : State) : Out :=
  finish (s.issue x (fun s i =>
    match headDim f.dh.toNat with
    | none => s
    | some d =>
      let c := s.core x.site
      let heads := f.gm1.toNat + 1
      let size := stateBytes d * heads
      let a := attAddr f.a.toNat size i
      let b := attAddr f.b.toNat size i
      let ps := (c.partials a heads d).zipWith Partial.merge (c.partials b heads d)
      (s.setCore x.site (c.setSp b (ps.flatMap Partial.bytes))).consumed (c.spPoisoned a size || c.spPoisoned b size)))

/-- o ÷ l, or +0 where l is 0. -/
def Partial.final (p : Partial) : List F32 := if F32.isZero p.l then p.o.map (fun _ => 0) else p.o.map (fun x => F32.div x p.l)

/-- `ATT.FIN`. -/
def execAttFin (x : Issue) (f : AttF) (s : State) : Out :=
  finish (s.issue x (fun s i =>
    match headDim f.dh.toNat with
    | none => s
    | some d =>
      let c := s.core x.site
      let heads := f.gm1.toNat + 1
      let a := attAddr f.a.toNat (stateBytes d * heads) i
      let wide := f.imm.getLsbD 0
      let b := attAddr f.b.toNat ((if wide then 4 else 2) * d * heads) i
      let xs := (c.partials a heads d).flatMap Partial.final
      let bs := if wide then xs.flatMap (fun v => toLE 4 v.toNat) else bytesOf 2 (xs.map (fun v => Fmt.bf16.encode (F32.num v)))
      (s.setCore x.site (c.setSp b bs)).consumed (c.spPoisoned a (stateBytes d * heads))))

/-! ### `ATT.RCMP` -/

/-- Whether an edit that waits for its commit names a barge. -/
def State.editNames (s : State) (n : Nat) : Bool :=
  (s.seq.queue.map (fun q => q.cmd)).any (fun c =>
    match c.body with
    | .prefixMap d r _ => d == n || r == n
    | .trim m _ => m == n
    | .release m => m == n
    | _ => false)

/-- Whether a copy or a recompression of a page is pending. -/
def Kv.busy (k : Kv) (barge layer page : Nat) : Bool :=
  k.copies.any (fun c => c.barge == barge && c.layer == layer && c.page == page) ||
  k.rcmps.any (fun r => r.barge == barge && r.layer == layer && r.page == page)

/-- The head vectors of a whole page: KV head, position, keys or values. -/
def LayerGeom.vectors (g : LayerGeom) : List (Nat × Nat × Bool) :=
  (List.range g.heads).flatMap (fun h => (List.range 32).flatMap (fun t => [(h, t, false), (h, t, true)]))

/-- Recompresses one FP8 page into a fresh near granule and a scale slot (R101, R254); skipped and counted where no slot of a granule in use and
no near granule is free. -/
def State.recompress (s : State) (site : Nat) (g : LayerGeom) (n layer page : Nat) (p : PageAt) : State :=
  let s := (p.ranges g.heads g.dim (List.range g.heads) 32).foldl (fun (s : State) r => s.meet r.1 r.2) s
  if s.kvPoison site (p.ranges g.heads g.dim (List.range g.heads) 32) then s.kvPoisoned n
  else
    match s.allocNear (dieOf site) [] with
    | none => s.err Reg.CNT_KV_RCMP_SKIP 0 0 1
    | some (fr, t) =>
      match t.allocSlot false (dieOf site) [(fr, false)] with
      | none => s.err Reg.CNT_KV_RCMP_SKIP 0 0 1
      | some (sc, t) =>
        let q : PageAt := { fmt := 2, tenant := p.tenant, shared := false, frames := [(fr, false)], scale := sc }
        let t := (LayerGeom.vectors g).foldl (fun t v =>
          let (bs, ss, cnt) := narrow 2 (t.kvVec site g g.dim p v.1 v.2.1 v.2.2)
          let t := t.meetEdges (q.scaleAddr g.dim v.1 v.2.1 v.2.2) ss.length
          ((t.memWrite (q.addr (vecOffset g.heads g.dim 2 v.1 v.2.1 v.2.2)) bs []).memWrite
            (q.scaleAddr g.dim v.1 v.2.1 v.2.2) ss []).countNarrow cnt) t
        { t with kv := { t.kv with rcmps := t.kv.rcmps ++
          [{ barge := n, layer := layer, page := page, data := fr, scale := sc.1, slot := sc.2, old := p.frames.map (fun x => x.1) }] } }

/-- `ATT.RCMP`: at most 4 pages, ascending (R254), in the layer's recorded geometry (R217); a page that it selects and may not take is counted. -/
def execAttRcmp (x : Issue) (f : AttF) (s : State) : Out :=
  finish (s.issue x (fun s _ =>
    match s.attBarge x.site f, s.geom f.layer.toNat with
    | some n, some g =>
      let b := s.barge n
      let layer := f.layer.toNat
      let stride := f.psm1.toNat + 1
      if !b.kvPolicy.testBit 2 then s
      else
        let old := (visitPages stride f.pph.toNat b.length).filter (fun j' =>
          decide (32 * (j' * stride + f.pph.toNat) + 31 + f.imm.toNat < b.length))
        ((old.foldl (fun (acc : State × Nat) j' =>
          let s := acc.1.walkCheck x.site n layer j'
          match s.kv.page n layer j' with
          | none => (s, acc.2)
          | some p =>
            if p.fmt ≠ 1 ∨ 4 ≤ acc.2 ∨ s.kv.rcmps.any (fun r => r.barge == n && r.layer == layer && r.page == j') then (s, acc.2)
            else if p.tenant ≠ b.tenant ∨ p.shared ∨ p.frames.any (fun x => x.2) ∨ s.kv.busy n layer j' ∨ s.editNames n then
              (s.err Reg.CNT_KV_RCMP_SKIP 0 0 1, acc.2)
            else (s.recompress x.site g n layer j' p, acc.2 + 1)) (s, 0)).1)
    | _, _ => s))

end Sys2Proof.Machine
end

