-- ==== Sys2Proof/Machine/Sm2.lean ====
section
/-! DEFINITION. SM2, which R466 names (GB/T 32918, the curve of its part 5; the standard is outside the spec: notes/assumptions/41.md):
signatures, encryption and key agreement over SM3, with the identifier that R466 gives. -/

namespace Sys2Proof

/-! ### The curve -/

/-- The prime of the field. -/
def sm2P : Nat := 0xFFFFFFFEFFFFFFFFFFFFFFFFFFFFFFFFFFFFFFFF00000000FFFFFFFFFFFFFFFF

/-- The coefficient b of y² = x³ − 3 x + b. -/
def sm2B : Nat := 0x28E9FA9E9D9F5E344D5A9E4BCF6509A7F39789F515AB8F92DDBCBD414D940E93

/-- The order n of the group. -/
def sm2Order : Nat := 0xFFFFFFFEFFFFFFFFFFFFFFFFFFFFFFFF7203DF6B21C6052B53BBF40939D54123

/-- A point of the plane, as the coordinates of a key. -/
abbrev EcPoint := Nat × Nat

/-- The generator. -/
def sm2G : EcPoint :=
  (0x32C4AE2C1F1981195F9904466A39C9948FE30BBFF2660BE1715A4589334C74C7, 0xBC3736A2F4F6779C59BDCEE36B692153D0A9877CC62A474002DF32E52139F0A0)

/-- A difference in the field. -/
def fpSub (a b : Nat) : Nat := (a + (sm2P - b % sm2P)) % sm2P

/-- `b` to a power modulo `m`, over the low `n` bits of the exponent. -/
def powMod (m b e n : Nat) : Nat :=
  match n with
  | 0 => 1
  | n + 1 => if e % 2 = 1 then b * powMod m (b * b % m) (e / 2) n % m else powMod m (b * b % m) (e / 2) n

/-- The inverse modulo a prime of 256 bits. -/
def invMod (m a : Nat) : Nat := powMod m (a % m) (m - 2) 256

/-- A point in Jacobian coordinates: x ÷ z², y ÷ z³; infinity where z is 0. -/
structure Jac where
  x : Nat
  y : Nat
  z : Nat
  deriving DecidableEq, Repr

/-- Twice a point. -/
def Jac.dbl (p : Jac) : Jac :=
  let d := p.z * p.z % sm2P
  let g := p.y * p.y % sm2P
  let b := p.x * g % sm2P
  let a := 3 * fpSub p.x d * (p.x + d) % sm2P
  let x := fpSub (a * a) (8 * b)
  ⟨x, fpSub (a * fpSub (4 * b) x) (8 * g * g), 2 * p.y * p.z % sm2P⟩

/-- The sum of two points. -/
def Jac.add (p q : Jac) : Jac :=
  if p.z = 0 then q else if q.z = 0 then p
  else
    let pz := p.z * p.z % sm2P
    let qz := q.z * q.z % sm2P
    let u := p.x * qz % sm2P
    let v := p.y * q.z * qz % sm2P
    let h := fpSub (q.x * pz) u
    let r := fpSub (q.y * p.z * pz) v
    if h = 0 then (if r = 0 then p.dbl else ⟨1, 1, 0⟩)
    else
      let h2 := h * h % sm2P
      let h3 := h * h2 % sm2P
      let w := u * h2 % sm2P
      let x := fpSub (r * r) (h3 + 2 * w)
      ⟨x, fpSub (r * fpSub w x) (v * h3), h * p.z * q.z % sm2P⟩

/-- The low `n` bits of `k` times a point, added to `acc` times 2^n. -/
def Jac.times (k : Nat) (q : Jac) (n : Nat) (acc : Jac) : Jac :=
  match n with
  | 0 => acc
  | n + 1 => Jac.times k q n (if k.testBit n then acc.dbl.add q else acc.dbl)

/-- A point of the plane in Jacobian coordinates. -/
def jacOf (p : EcPoint) : Jac := ⟨p.1, p.2, 1⟩

/-- k times a point. -/
def ecMul (k : Nat) (p : EcPoint) : Jac := Jac.times k (jacOf p) 256 ⟨1, 1, 0⟩

/-- The coordinates of a point; none for infinity. -/
def Jac.plane (p : Jac) : Option EcPoint :=
  if p.z = 0 then none
  else
    let i := invMod sm2P p.z
    some (p.x * i * i % sm2P, p.y * i * i * i % sm2P)

/-- Whether a point lies on the curve. -/
def onCurve (p : EcPoint) : Bool := decide (p.1 < sm2P ∧ p.2 < sm2P ∧ p.2 * p.2 % sm2P = fpSub (p.1 * p.1 * p.1 + sm2B) (3 * p.1))

/-- The public key of a private key. -/
def sm2Public (d : Nat) : EcPoint := (ecMul d sm2G).plane.getD (0, 0)

/-- The coordinates of a point as bytes, 32 big-endian each. -/
def pointBytes (p : EcPoint) : List Byte := toBE 32 p.1 ++ toBE 32 p.2

/-- A point uncompressed, 65 bytes. -/
def pointOut (p : EcPoint) : List Byte := 0x04 :: pointBytes p

/-- The point that 65 bytes spell, where it lies on the curve. -/
def pointIn (bs : List Byte) : Option EcPoint :=
  let p := (ofBE ((bs.drop 1).take 32), ofBE ((bs.drop 33).take 32))
  if bs.length = 65 ∧ bs.head? = some 0x04 ∧ onCurve p then some p else none

/-! ### Signatures -/

/-- The distinguishing identifier "1234567812345678" (R466). -/
def sm2Id : List Byte := [0x31, 0x32, 0x33, 0x34, 0x35, 0x36, 0x37, 0x38, 0x31, 0x32, 0x33, 0x34, 0x35, 0x36, 0x37, 0x38]

/-- The digest Z of an identity and a public key. -/
def sm2Z (p : EcPoint) : List Byte :=
  sm3 (toBE 2 (8 * sm2Id.length) ++ sm2Id ++ toBE 32 (sm2P - 3) ++ toBE 32 sm2B ++ pointBytes sm2G ++ pointBytes p)

/-- The number that is signed for a message. -/
def sm2E (p : EcPoint) (msg : List Byte) : Nat := ofBE (sm3 (sm2Z p ++ msg))

/-- The signature r, s of a number under a private key with the nonce `k`; none where the standard asks for another nonce. -/
def sm2SignWith (d e k : Nat) : Option (Nat × Nat) :=
  match (ecMul k sm2G).plane with
  | none => none
  | some p =>
    let r := (e + p.1) % sm2Order
    let s := invMod sm2Order (1 + d) * (k + (sm2Order - r * d % sm2Order)) % sm2Order
    if r = 0 ∨ r + k = sm2Order ∨ s = 0 then none else some (r, s)

/-- The 64 bytes of the signature over a message with the first nonce that serves: r, then s, big-endian (R466). -/
def sm2Sign (d : Nat) (ks : List Nat) (msg : List Byte) : List Byte :=
  match ks.findSome? (sm2SignWith d (sm2E (sm2Public d) msg)) with
  | some (r, s) => toBE 32 r ++ toBE 32 s
  | none => List.replicate 64 0

/-- Whether 64 bytes are a signature over a message under a public key. -/
def sm2Verify (p : EcPoint) (msg sig : List Byte) : Bool :=
  let r := ofBE (sig.take 32)
  let s := ofBE (sig.drop 32)
  let t := (r + s) % sm2Order
  decide (sig.length = 64 ∧ 1 ≤ r ∧ r < sm2Order ∧ 1 ≤ s ∧ s < sm2Order ∧ t ≠ 0) && onCurve p &&
  (match ((ecMul s sm2G).add (ecMul t p)).plane with
    | some q => decide ((sm2E p msg + q.1) % sm2Order = r)
    | none => false)

/-! ### Key derivation, encryption, key agreement -/

/-- The blocks of the key derivation function from the `ct`-th on: SM3 of the input followed by the counter, 4 B big-endian. -/
def kdfBlocks (z : List Byte) (ct n : Nat) : List Byte :=
  match n with
  | 0 => []
  | n + 1 => sm3 (z ++ toBE 4 ct) ++ kdfBlocks z (ct + 1) n

/-- `len` bytes of the key derivation function of GB/T 32918.3 (R467): the blocks from counter 1 on, cut to length. -/
def kdf (z : List Byte) (len : Nat) : List Byte := (kdfBlocks z 1 ((len + 31) / 32)).take len

/-- The bytes of a message encrypted to a public key with the nonce `k`: point, digest, masked message. -/
def sm2Encrypt (p : EcPoint) (k : Nat) (msg : List Byte) : List Byte :=
  let q := ((ecMul k p).plane).getD (0, 0)
  pointOut (sm2Public k) ++ sm3 (toBE 32 q.1 ++ msg ++ toBE 32 q.2) ++ msg.zipWith (fun a b => a ^^^ b) (kdf (pointBytes q) msg.length)

/-- The message that bytes encrypted to a private key hold; none where the point or the digest is wrong. -/
def sm2Decrypt (d : Nat) (bs : List Byte) : Option (List Byte) :=
  match (pointIn (bs.take 65)).bind (fun c => (ecMul d c).plane) with
  | none => none
  | some q =>
    let body := bs.drop 97
    let msg := body.zipWith (fun a b => a ^^^ b) (kdf (pointBytes q) body.length)
    if sm3 (toBE 32 q.1 ++ msg ++ toBE 32 q.2) = (bs.drop 65).take 32 then some msg else none

/-- The truncated coordinate of the key agreement. -/
def sm2Bar (x : Nat) : Nat := 2 ^ 127 + x % 2 ^ 127

/-- What the responder of a key agreement derives. -/
structure Agreed where
  key : List Byte
  sB : List Byte
  sA : List Byte
  deriving DecidableEq, Repr

/-- What the initiator brings to the key agreement: its public key plus x̄ times its ephemeral point; none where that is infinite, and the
agreement fails. -/
def sm2Initiator (pa ra : EcPoint) : Option EcPoint := ((jacOf pa).add (ecMul (sm2Bar ra.1) ra)).plane

/-- The responder's side of the key agreement: its private key `d` and ephemeral private key `r`, the initiator's public key, ephemeral point
and contribution `q`, `len` bytes of key and both confirmation values. -/
def sm2Agree (d r : Nat) (pa ra q : EcPoint) (len : Nat) : Agreed :=
  let rb := sm2Public r
  let v := ((ecMul ((d + sm2Bar rb.1 * r) % sm2Order) q).plane).getD (0, 0)
  let za := sm2Z pa
  let zb := sm2Z (sm2Public d)
  let inner := sm3 (toBE 32 v.1 ++ za ++ zb ++ pointBytes ra ++ pointBytes rb)
  { key := kdf (pointBytes v ++ za ++ zb) len, sB := sm3 (0x02 :: (toBE 32 v.2 ++ inner)), sA := sm3 (0x03 :: (toBE 32 v.2 ++ inner)) }

end Sys2Proof
end

