-- ==== Sys2Proof/Machine/Keys.lean ====
section
/-! DEFINITION. Keys and certificates of the security block (R466 to R469, R479): digests, the key derivation of R467, the device's key pair and
its signatures, the keys of a tenant, what a peer's chain grants (notes/assumptions/20.md, notes/assumptions/40.md). -/

namespace Sys2Proof.Machine

/-- SM3 over bytes, the first byte lowest. -/
def sm3Val (bs : List Byte) : BitVec 256 := BitVec.ofNat 256 (ofLE (sm3 bs))

/-- The bytes of a digest. -/
def digestBytes (d : BitVec 256) : List Byte := toLE 32 d.toNat

/-! ### The device's own keys -/

/-- The bytes of an ASCII label. -/
def labelBytes (label : String) : List Byte := label.toList.map (fun c => BitVec.ofNat 8 c.toNat)

/-- A derived key (R467): a root secret, an ASCII label and, where the key belongs to a tenant, that tenant in 2 B little-endian. -/
def derivedKey (root : BitVec 256) (label : String) (tenant : Option Nat) (len : Nat) : List Byte :=
  kdf (toBE 32 root.toNat ++ labelBytes label ++ (tenant.map (toLE 2)).getD []) len

/-- The identity private key (R468): KDF(device secret, "ID") reduced into [1, n − 2]; none once the secret is blown (R473). How the reduction is
done is the model's choice (notes/assumptions/40.md). -/
def State.identityPrivate (s : State) : Option Nat :=
  if s.sec.blown then none else some (ofBE (derivedKey s.sec.secret "ID" none 32) % (sm2Order - 2) + 1)

/-- The identity public key, uncompressed; none once the secret is blown. -/
def State.identityPublic (s : State) : Option (List Byte) := s.identityPrivate.map (fun d => pointOut (sm2Public d))

/-- A draw of the random source, `k` draws from now. -/
def State.draw (s : State) (k : Nat) : BitVec 256 := Config.random (s.freeCtr + k)

/-- A private key from a draw: in [1, n − 1]. -/
def privateOf (x : BitVec 256) : Nat := x.toNat % (sm2Order - 1) + 1

/-- The 64 bytes of the device's SM2 signature over a message (R466, R470), under a nonce of the random source; 64 free bytes where there is no
identity key any more (notes/assumptions/3.md). -/
def State.sm2Signed (s : State) (msg : List Byte) : List Byte :=
  match s.identityPrivate with
  | some d => sm2Sign d ((List.range 4).map (fun k => privateOf (s.draw k))) msg
  | none => toLE 32 (s.draw 0).toNat ++ toLE 32 (s.draw 1).toNat

/-- The tenant root in force (R479): that of the last draw; none once it is destroyed (R482). -/
def State.tenantRoot (s : State) : Option (BitVec 256) := if s.sec.root then some (Config.tenantRoot s.sec.rootDraws) else none

/-- A tenant's variant key, the two 128-bit keys of SM4-XTS (R479). -/
def State.variantKey (s : State) (tenant : Nat) : Option (List Byte) := s.tenantRoot.map (fun r => derivedKey r "VAR" (some tenant) 32)

/-- A tenant's spill tag key (R479), of the length of the hash (notes/assumptions/40.md). -/
def State.spillKey (s : State) (tenant : Nat) : Option (List Byte) := s.tenantRoot.map (fun r => derivedKey r "KVT" (some tenant) 32)

/-! ### Chains of others (R469) -/

/-- The SM3 of a public key, over its uncompressed form (notes/assumptions/40.md). -/
def keyDigest (p : EcPoint) : BitVec 256 := sm3Val (pointOut p)

/-- The role and the tenant of the Otost role extension: 1 OPERATOR, 2 TENANT, 3 MODEL_SIGNER; none where the certificate is refused. -/
def certRole (c : Chain) : Option (Nat × Nat) :=
  match c.ext with
  | some [r, z, t0, t1] =>
    let tenant := t0.toNat + 256 * t1.toNat
    if z ≠ 0 ∨ r = 0 ∨ 3 < r.toNat ∨ (r = 2 ∧ tenant = 0) then none else some (r.toNat, tenant)
  | _ => none

/-- Whether a chain ends at the fused Otost root (R468). -/
def State.endsOtost (s : State) (c : Chain) : Bool := c.valid && keyDigest c.root == s.sec.otost

/-- The key digest of an entry of the anchor table. -/
def State.anchorKey (s : State) (n : Nat) : BitVec 256 :=
  BitVec.ofNat 256 (ofLE ((List.range 8).flatMap (fun k => toLE 4 (s.reg Reg.SEC_ANCHOR_KEYnw n k))))

/-- Whether a chain ends at an entry of the anchor table whose role mask permits a role (bit 0 OPERATOR, 1 TENANT, 2 MODEL_SIGNER). -/
def State.endsAnchor (s : State) (c : Chain) (bit_ : Nat) : Bool :=
  c.valid && (List.range 8).any (fun n => (s.reg Reg.SEC_ANCHOR_ROLESn n 0).testBit bit_ && s.anchorKey n == keyDigest c.root)

/-- Whether a chain is accepted for a role in the current life-cycle state: from the anchor table, or in BLANK and RETURNED from the Otost root,
which stands for OPERATOR only (R469). -/
def State.anchorGrants (s : State) (c : Chain) (bit_ : Nat) : Bool :=
  match s.rf Reg.SEC_LC_STATE 0 0 2 0 with
  | 0 => bit_ == 0 && s.endsOtost c
  | 3 => bit_ == 0 && s.endsOtost c
  | 1 => s.endsAnchor c bit_
  | 2 => s.endsAnchor c bit_
  | _ => false

/-! ### Firmware images (R474) -/

/-- The image format that the loader knows (notes/assumptions/15.md). -/
def fwFormat : Nat := 1

/-- The most bytes of an image: 60 MiB, where the signature partition begins in flash (R474). -/
def fwMax : Nat := 0x3C00000

/-- The firmware measurement: SM3 of header and body. -/
def fwMeasure (f : FwImage) : BitVec 256 := sm3Val (f.bytes.take (256 + f.bodyLen))

/-- Whether an image's bytes end with its signer's chain, which ends at the Otost root and carries role OPERATOR, and a signature over all that
precedes it. -/
def State.fwSigned (s : State) (f : FwImage) : Bool :=
  let n := 256 + f.bodyLen + f.chain.der.length
  f.bytes.length == n + 64 && (f.bytes.drop (256 + f.bodyLen)).take f.chain.der.length == f.chain.der &&
  (certRole f.chain).any (fun x => x.1 == 1) && s.endsOtost f.chain && sm2Verify f.chain.key (f.bytes.take n) (f.bytes.drop n)

/-- Whether an image in flash boots (R474, R476). -/
def State.imageBoots (s : State) (f : FwImage) : Bool :=
  f.magic == 0x46574558 && f.format == fwFormat && decide (s.rf Reg.SEC_FW 0 0 13 8 ≤ f.svn ∧ f.svn ≤ 63 ∧ f.bytes.length ≤ fwMax) &&
  s.fwSigned f

end Sys2Proof.Machine
end

