-- ==== Sys2Proof/Machine/Mesh.lean ====
section
/-! DEFINITION. The mesh of a device (R25, R26, R29, R30) and the ways of packets through it (R28). -/

namespace Sys2Proof.Machine

/-! ### The mesh -/

/-- The mesh column of a site (R25). -/
def siteX (site : Nat) : Nat := dieOf site * 34 + site % 272 / 68 % 2 * 17 + site % 17

/-- The mesh row of a site (R25). -/
def siteY (site : Nat) : Nat := site % 272 / 68 / 2 * 4 + site % 68 / 17

/-- The site at mesh coordinates. -/
def siteAt (x y : Nat) : Nat := x / 34 * 272 + (y / 4 * 2 + x % 34 / 17) * 68 + y % 4 * 17 + x % 17

/-- A unit attached to an outer port or a far port (R30): a flight port, an HBM4 stack, the host port, the controllers of eight
far-memory channels from `first` on. -/
inductive Attach where
  | flight (port : Nat)
  | stack (n : Nat)
  | host
  | far (first : Nat)
  deriving DecidableEq, Repr

/-- The unit on an outer port of a router at x = 0 or x = 67 (*Edge attachments*). -/
def sideUnit (x y : Nat) : Attach :=
  let base := if x = 0 then 0 else 3
  match y with
  | 2 => if x = 0 then .host else .far 0
  | 5 => if x = 0 then .host else .far 8
  | 0 => .flight base
  | 1 => .flight base
  | 3 => .flight (base + 1)
  | 4 => .flight (base + 1)
  | _ => .flight (base + 2)

/-- The unit attached to a port of a router, none where the port leads to a router: 1 north, 2 south, 3 east, 4 west, 5 the far port of
the routers at x = 34, y = 2 and 5 (R26, R30). -/
def portUnit (site port : Nat) : Option Attach :=
  let x := siteX site
  let y := siteY site
  match port with
  | 1 => if y = 0 then some (.stack (x / 34 * 4 + x % 34 / 17)) else none
  | 2 => if y = 7 then some (.stack (x / 34 * 4 + 2 + x % 34 / 17)) else none
  | 3 => if x = 67 then some (sideUnit x y) else none
  | 4 => if x = 0 then some (sideUnit x y) else none
  | 5 => if x = 34 ∧ y = 2 then some (.far 16) else if x = 34 ∧ y = 5 then some (.far 24) else none
  | _ => none

/-- The router and its port that a port of 1 to 4 leads to. -/
def portNext (site port : Nat) : Option (Nat × Nat) :=
  let x := siteX site
  let y := siteY site
  match port with
  | 1 => if 0 < y then some (siteAt x (y - 1), 2) else none
  | 2 => if y < 7 then some (siteAt x (y + 1), 1) else none
  | 3 => if x < 67 then some (siteAt (x + 1) y, 4) else none
  | 4 => if 0 < x then some (siteAt (x - 1) y, 3) else none
  | _ => none

/-- What a port of a reduction node leads to (R151): a neighbouring router, over the die bridge where it lies between x = 33 and 34, or a
flight port. -/
def portHop (site port : Nat) : Option Hop :=
  match portNext site port, portUnit site port with
  | some (x, p), _ => some (.router x p)
  | none, some (.flight p) => if port < 5 then some (.flight p) else none
  | _, _ => none

/-! ### The active schedule's tables -/

/-- Whether the current lockage runs the WIDE programs. -/
def State.wideNow (s : State) : Bool := s.rf Reg.FLK_LOCK_STATE 0 0 0 0 == 1

/-- The tables of the current variant. -/
def State.tables (s : State) : Option VariantTables :=
  s.sched.active.map (fun im => if s.wideNow then im.wide else im.normal)

/-- The step along x and then along y from a router toward columns `x0` to `x1` and row `y`, in the default tables (R28); `last` is the port
there. -/
def xyPort (site x0 x1 y last : Nat) : Nat :=
  if siteX site < x0 then 3 else if x1 < siteX site then 4 else if siteY site < y then 2 else if y < siteY site then 1 else last

/-- The port by which a router sends on a packet for a destination (R28): that of its table; where the table has no entry, for a site of
the device and for a memory, along x and then along y, as in the default tables, to a stack over the nearest column that it is attached to
(notes/assumptions/38.md). -/
def State.routePort (s : State) (site : Nat) (d : Dest) : Option Nat :=
  match s.tables.bind (fun t => t.routes.find? (fun r => r.site == site && r.dest == d)) with
  | some r => some r.port
  | none =>
    match d with
    | .site t => some (xyPort site (siteX t) (siteX t) (siteY t) 0)
    | .stack n =>
      let x := n / 4 * 34 + n % 2 * 17
      some (if n % 4 < 2 then xyPort site x (x + 16) 0 1 else xyPort site x (x + 16) 7 2)
    | .far n =>
      let y := if n % 16 < 8 then 2 else 5
      some (if n < 16 then xyPort site 67 67 y 3 else xyPort site 34 34 y 5)
    | _ => none

/-- The way of a packet: the routers that it passes, and the router and port at which it leaves the mesh; none where it never does.
`fuel` bounds the hops. -/
def State.route (s : State) (d : Dest) (site fuel : Nat) : List Nat × Option (Nat × Nat) :=
  match fuel with
  | 0 => ([site], none)
  | fuel + 1 =>
    match s.routePort site d with
    | none => ([site], none)
    | some p =>
      match portNext site p with
      | some (x, _) =>
        let (l, e) := s.route d x fuel
        (site :: l, e)
      | none => ([site], some (site, p))

/-- The router at which what comes in on a flight port enters the mesh: the lower of the two that it is attached to
(notes/assumptions/38.md). -/
def portRouter (p : Nat) : Nat := siteAt (if p < 3 then 0 else 67) ([0, 3, 6].getD (p % 3) 0)

/-- The unit that holds an address of device memory, as route tables name it. -/
def memDest (a : Nat) : Dest := if a < farBase then .stack (stackOf a) else .far (channelOf a / 8 * 8)

/-- What becomes of traffic under the routes: it arrives, at a router and a port of it; a ROUTER_FENCED router discards it (R417); it never
leaves the mesh. -/
inductive Way where
  | arrives (site port : Nat)
  | fenced (site : Nat)
  | lost
  deriving DecidableEq, Repr

/-- The way from a router to a destination, whose last router counts where `whole` says so. -/
def State.way (s : State) (d : Dest) (site : Nat) (whole : Bool) : Way :=
  let (l, e) := s.route d site nSites
  match (if whole then l else l.dropLast).find? (fun x => s.rf Reg.RTR_FENCE x 0 1 0 == 2), e with
  | some x, _ => .fenced x
  | none, some (x, p) => .arrives x p
  | none, none => .lost

/-- The way from a site to the memory of an address: it arrives at the unit's attachment (R30). -/
def State.memWay (s : State) (site a : Nat) : Way :=
  match s.way (memDest a) site true with
  | .arrives x p =>
    match memDest a, portUnit x p with
    | .stack n, some (.stack m) => if n = m then .arrives x p else .lost
    | .far n, some (.far m) => if n = m then .arrives x p else .lost
    | _, _ => .lost
  | w => w

/-- Fields of *Slot schedule entry*. -/
def slotFlow (e : SlotEntry) : Nat := bitsOf e.word.toNat 57 46

/-- Frames of an entry. -/
def slotCount (e : SlotEntry) : Nat := bitsOf e.word.toNat 45 23

/-- The first frame of an entry. -/
def slotFirst (e : SlotEntry) : Nat := bitsOf e.word.toNat 22 0

/-- The flow of a router's entry for a destination (R304). -/
def State.routeFlow (s : State) (site : Nat) (d : Dest) : Nat :=
  match s.tables.bind (fun t => t.routes.find? (fun r => r.site == site && r.dest == d)) with
  | some r => r.flow
  | none => 0

end Sys2Proof.Machine
end

