-- ==== Sys2Proof/Machine/Moves.lean ====
section
/-! DEFINITION. Moves and network, opcodes 0xC0 to 0xD1 (R213 to R216), and the arrival of network packets (R177, R178, R365,
R372, R417). -/

namespace Sys2Proof.Machine

/-! ### Moves within the core -/

/-- The scratchpad address of `LDV`, `STV`, `LDG`, `STG`. -/
def ldstAddr (f : LdStF) (i : Nat) : Nat := stepAddr f.spa.toNat f.sps.toNat 16 i

/-- `LDV`: N registers ← N KiB at any byte address. -/
def execLdv (x : Issue) (f : LdStF) (s : State) : Out :=
  finish (s.issue x (fun s i =>
    let c := s.core x.site
    let n := 1024 * (f.nm1.toNat + 1)
    (s.setCore x.site (c.setVreg f.reg.toNat (c.spRead (ldstAddr f i) n))).consumed (c.spPoisoned (ldstAddr f i) n)))

/-- `STV`: N KiB at any byte address ← N registers. -/
def execStv (x : Issue) (f : LdStF) (s : State) : Out :=
  .next (s.issueCore x (fun c i => c.setSp (ldstAddr f i) (c.vreg f.reg.toNat (f.nm1.toNat + 1))))

/-- `LDG`: g`REG` ← 8 B. -/
def execLdg (x : Issue) (f : LdStF) (s : State) : Out :=
  finish (s.issue x (fun s i =>
    let c := s.core x.site
    (s.setCore x.site (c.setGr f.reg.toNat (BitVec.ofNat 64 (ofLE (c.spRead (ldstAddr f i) 8))))).consumed
      (c.spPoisoned (ldstAddr f i) 8)))

/-- `STG`: 8 B ← g`REG`. -/
def execStg (x : Issue) (f : LdStF) (s : State) : Out :=
  .next (s.issueCore x (fun c i => c.setSp (ldstAddr f i) (toLE 8 (c.gr f.reg.toNat).toNat)))

/-- `COPY`: the source is read whole before the first byte is written; poison moves along (R362). -/
def execCopy (x : Issue) (f : CopyF) (s : State) : Out :=
  .next (s.issueCore x (fun c i =>
    let n := 64 * (f.gm1.toNat + 1)
    let src := stepAddr f.spa.toNat f.sps.toNat 16 i
    c.moveSp (stepAddr f.dst.toNat f.dsts.toNat 16 i) (c.sp src n) (poisonOf c.spmPoison src n)))

/-! ### Packets -/

/-- A range cut into packets of 512 B in ascending address order (R214); `fuel` bounds the packets. -/
def packetsOf (sig addr : Nat) (bs : List Byte) (poison : List Nat) (fuel : Nat) : List Packet :=
  match fuel with
  | 0 => []
  | fuel + 1 =>
    if bs.isEmpty then []
    else
      { sig := sig, addr := addr, data := bs.take 512, poison := poison.filter (fun w => decide (w < 64)),
        secure := false, conflict := false } ::
      packetsOf sig (addr + 512) (bs.drop 512) ((poison.filter (fun w => decide (64 ≤ w))).map (fun w => w - 64)) fuel

/-- A core sends packets to a site of a device. -/
def State.send (s : State) (dev site source : Nat) (ps : List Packet) : State :=
  { s with net := s.net ++ ps.map (fun p => { dev := dev, site := site, source := source, entry := source, pkt := p }) }

/-- Memory sends packets that a core has asked for, each with the address that it is read from: the request finds its way to the memory, and
the packet enters the mesh there (R28, R30); a request that a ROUTER_FENCED router discards brings none (R417). -/
def State.sendMem (s : State) (site : Nat) (ps : List (Nat × Packet)) : State :=
  ps.foldl (fun (s : State) x =>
    match s.memWay site x.1 with
    | .arrives r _ => { s with net := s.net ++ [{ dev := s.devNo, site := site, source := site, entry := r, pkt := x.2 }] }
    | .fenced r => s.err Reg.RTR_FENCE_DROP r 0 1
    | .lost => s) s

/-- A core's write to device memory in packets of 512 B, each on its way to the memory of its address (R28, R214, R215). -/
def State.postMem (s : State) (site a : Nat) (ps : List Packet) : State :=
  ps.zipIdx.foldl (fun (s : State) x =>
    match s.memWay site (a + 512 * x.2) with
    | .arrives _ _ => { s with posted := s.posted ++ [{ site := site, addr := a + 512 * x.2, data := x.1.data, poison := x.1.poison }] }
    | .fenced r => s.err Reg.RTR_FENCE_DROP r 0 1
    | .lost => s) s

/-- The security window of a scratchpad starts here (R372). -/
def windowBase : Nat := 0xF0000

/-- Whether a range overlaps the secure window. -/
def inWindow (a n : Nat) : Bool := decide (windowBase < a + n ∧ a < spmSize)

/-- Writes a packet's data with its poison. -/
def Core.land (c : Core) (p : Packet) : Core := c.moveSp p.addr p.data p.poison

/-- What becomes of a packet at a core's local port when nothing waits ahead of it (R177, R178, R365, R372, R417): written,
discarded and counted, or held until its counter is armed. -/
def State.deliver (s : State) (site source : Nat) (p : Packet) : State :=
  let c := s.core site
  if s.rf Reg.RTR_FENCE site 0 1 0 ≠ 0 then s.err Reg.RTR_FENCE_DROP site 0 1
  else if !s.enabled site then s
  else if s.rf Reg.SPM_PWR site 0 9 8 ≠ 0 then s.err Reg.SPM_NET_DROP site 0 1
  else if p.secure then
    if p.conflict then
      let t := (s.err Reg.SPM_NET_SUPERSEDED site 0 1).raise 0x5F site
      { t with net := t.net ++ [{ dev := t.devNo, site := site, source := source, entry := site,
                                        pkt := { p with conflict := false } }] }
    else s.setCore site (c.land p)
  else if s.rf Reg.SPM_SECURE site 0 0 0 = 1 ∧ inWindow p.addr p.data.length then s.err Reg.SPM_SECURE_DROP site 0 1
  else
    match c.arms.find? (fun a => a.k == p.sig) with
    | none => s.setCore site { c with held := c.held ++ [(source, p)] }
    | some a =>
      if a.base ≤ p.addr ∧ p.addr + p.data.length ≤ a.base + a.bytes then
        let d := { c with arms := c.arms.map (fun (b : Arm) => if b.k = p.sig then { b with count := (b.count + 1) % 65536 } else b) }
        if p.conflict then
          let t := ((s.setCore site d.settleWaits).err Reg.SPM_NET_SUPERSEDED site 0 1).raise 0x5F site
          if source < nSites then t.err Reg.SPM_SEND_SUPERSEDED source 0 1 else t
        else s.setCore site (d.land p).settleWaits
      else (s.err Reg.RTR_NET_UNARMED site 0 1).raise 0x22 site

/-- Packets held at a local port are taken in order while the first finds its counter armed (R178). -/
def State.drainHeld (s : State) (site : Nat) (fuel : Nat) : State :=
  match fuel with
  | 0 => s
  | fuel + 1 =>
    let c := s.core site
    match c.held with
    | [] => s
    | (source, p) :: t =>
      if c.arms.any (fun a => a.k == p.sig) then
        ((s.setCore site { c with held := t }).deliver site source p).drainHeld site fuel
      else s

/-- Whether two packets in flight have one source and one destination, so that they arrive in the order sent (R24). -/
def InFlight.sameWay (a b : InFlight) : Bool := a.source == b.source && a.entry == b.entry && a.dev == b.dev && a.site == b.site

/-- The first packet in flight to a site that reads as `p` and is not behind another of its source (R24); `before` are those already
passed. -/
def firstOf (before l : List InFlight) (dev site : Nat) (p : Packet) : Option InFlight :=
  match l with
  | [] => none
  | m :: t =>
    if m.dev = dev ∧ m.site = site ∧ m.pkt = { p with conflict := false } ∧ !before.any m.sameWay then some m
    else firstOf (before ++ [m]) t dev site p

/-- Whether a packet that reads as `p` is in flight to a site. -/
def State.underWay (s : State) (site : Nat) (p : Packet) : Bool :=
  s.net.any (fun m => decide (m.dev = s.devNo ∧ m.site = site ∧ m.pkt = { p with conflict := false }))

/-- A packet reaches a core's local port; while one is held there, the others wait behind it (R178). -/
def State.atPort (s : State) (site source : Nat) (p : Packet) : State :=
  if s.rf Reg.RTR_FENCE site 0 1 0 = 0 ∧ !(s.core site).held.isEmpty ∧ !p.secure then
    s.updCore site (fun c => { c with held := c.held ++ [(source, p)] })
  else s.deliver site source p

/-- `NET_PACKET_ARRIVAL`: a packet reaches a core's local port, the first that its source has under way there (R24), along the routes of
the schedule (R28); a ROUTER_FENCED router on its way discards it (R417). A packet that no transfer under way accounts for comes from
outside the device. -/
def execNetPacketArrival (site : Nat) (p : Packet) (s : State) : Out :=
  if site < nSites then
    match firstOf [] s.net s.devNo site p with
    | none => if s.underWay site p then .next s else finish (s.atPort site nSites p)
    | some m =>
      match s.way (.site site) m.entry false with
      | .fenced x => finish ({ s with net := s.net.erase m }.err Reg.RTR_FENCE_DROP x 0 1)
      | .arrives x q => if x = site ∧ q = 0 then finish ({ s with net := s.net.erase m }.atPort site m.source p) else .next s
      | .lost => .next s
  else .next s

/-! ### Network instructions -/

/-- `NRECV`: arms a counter with a range and an expected count (R177); packets held for it are then written (R178). -/
def execNrecv (x : Issue) (f : RecvF) (s : State) : Out :=
  finish (s.issue x (fun s i =>
    let c := s.core x.site
    let a : Arm := { k := f.sig.toNat, base := stepAddr f.spa.toNat f.sps.toNat 16 i, bytes := 64 * (f.gm1.toNat + 1),
                     expect := f.expect.toNat, count := 0 }
    (s.setCore x.site { c with arms := c.arms.filter (fun b => b.k != f.sig.toNat) ++ [a] }).drainHeld x.site (c.held.length + 1)))

/-- `NSEND`: the source range is read when it is sent (R180) and goes in packets to the destination core (R214). -/
def execNsend (x : Issue) (f : SendF) (s : State) : Out :=
  .next (s.issue x (fun s i =>
    let c := s.core x.site
    let n := 64 * (f.gm1.toNat + 1)
    let src := stepAddr f.spa.toNat f.sps.toNat 16 i
    let dst := stepAddr f.dst.toNat f.sps.toNat 16 i
    let ps := packetsOf f.dcnt.toNat dst (c.sp src n) (poisonOf c.spmPoison src n) n
    if f.ddev.toNat = s.devNo then
      match s.siteOf f.dcore.toNat with
      | some site => s.send f.ddev.toNat site x.site ps
      | none => s
    else s.send f.ddev.toNat f.dcore.toNat x.site ps))

/-- The memory address of `MRD` and `MWR`, its step in units of 256 B. -/
def memfAddr (f : MemF) (i : Nat) : Nat := ((f.mbase.toNat : Int) + 256 * signed 16 f.mstep.toNat * (i : Int)).toNat

/-- The scratchpad address of `MRD` and `MWR`, its step in granules. -/
def memfSp (f : MemF) (i : Nat) : Nat := ((f.sp.toNat : Int) + 64 * signed 10 f.sstep.toNat * (i : Int)).toNat

/-- An instruction that reaches device memory: it stops where the range it names lies outside every populated region (R200:
the loader refuses such a program). -/
def State.memGuard (s : State) (x : Issue) (addr : Nat → Nat) (n : Nat) (t : State) : Out :=
  let i := (s.core x.site).stepIdx x
  if s.canIssue x.site && (s.core x.site).on x.pred && !inRegion (addr i) n then .fault (.noSuchAddress (addr i)) else finish t

/-- `MRD`: device memory to an armed scratchpad range of the core, in packets (R214). -/
def execMrd (x : Issue) (f : MemF) (s : State) : Out :=
  let n := 64 * (f.gm1.toNat + 1)
  s.memGuard x (memfAddr f) n (s.issue x (fun s i =>
    let s := s.meet (memfAddr f i) n
    let (bs, po) := s.memRead x.site (memfAddr f i) n
    s.sendMem x.site (((packetsOf f.sig.toNat (memfSp f i) bs po n).zipIdx).map (fun p => (memfAddr f i + 512 * p.2, p.1)))))

/-- `MWR`: the source is read when it starts; other cores see the write from the next boundary (R215). -/
def execMwr (x : Issue) (f : MemF) (s : State) : Out :=
  let n := 64 * (f.gm1.toNat + 1)
  s.memGuard x (memfAddr f) n (s.issue x (fun s i =>
    let c := s.core x.site
    s.postMem x.site (memfAddr f i) (packetsOf 0 (memfSp f i) (c.sp (memfSp f i) n) (poisonOf c.spmPoison (memfSp f i) n) n)))

/-- The packets of a gather with the addresses that they are read from: the rows in index order; a row outside the region of the table is
delivered as zeros, as from the table's start. -/
def gatherPackets (s : State) (site sig base dst row : Nat) (idx : List Nat) (n : Nat) : List (Nat × Packet) :=
  match idx with
  | [] => []
  | j :: t =>
    let a := base + j * row
    let (bs, po) := if inRegion a row ∧ regionStart a = regionStart base then s.memRead site a row
      else (List.replicate row 0, [])
    let from_ := if inRegion a row ∧ regionStart a = regionStart base then a else base
    ((packetsOf sig (dst + n * row) bs po row).zipIdx).map (fun p => (from_ + 512 * p.2, p.1)) ++ gatherPackets s site sig base dst row t (n + 1)

/-- `MGATH`: copies rows by unsigned 32-bit indices (R216). -/
def execMgath (x : Issue) (f : GathF) (s : State) : Out :=
  s.memGuard x (fun _ => f.mbase.toNat) 1 (s.issue x (fun s _ =>
    let c := s.core x.site
    let rows := f.rm1.toNat + 1
    let row := 64 * (f.rgm1.toNat + 1)
    let base := f.mbase.toNat
    let idx := wordsOf 4 (c.spRead f.idx.toNat (4 * rows))
    let s := idx.foldl (fun (s : State) j => if inRegion (base + j * row) row then s.meet (base + j * row) row else s) s
    let t := s.sendMem x.site (gatherPackets s x.site f.sig.toNat base (64 * f.dst.toNat) row idx 0)
    let t := t.consumed (c.spPoisoned f.idx.toNat (4 * rows))
    if idx.any (fun j => !(inRegion (base + j * row) row && regionStart (base + j * row) == regionStart base))
    then t.raise 0x24 x.site else t))

end Sys2Proof.Machine
end

