-- ==== Sys2Proof/Machine/Terwen.lean ====
section
/-! DEFINITION. The 128-bit words of step programs (R189 to R193 and the format tables of chapter 07): decoding a word to the
instruction it spells, and the order in which a program issues its instructions. -/

namespace Sys2Proof.Machine

/-- Bits `hi` to `lo` set. -/
def maskBits (hi lo : Nat) : Nat := 2 ^ (hi + 1) - 2 ^ lo

/-- The bits outside [14:0] that an opcode names; none where the opcode is not defined (R193). Every other bit must be 0
(R194, R203, R213, R223). -/
def opcodeFields (opc : Nat) : Option (List (Nat × Nat)) :=
  match opc with
  | 0x00 => some []
  | 0x01 => some [(91, 64)]
  | 0x02 => some []
  | 0x03 => some []
  | 0x04 => some []
  | 0x05 => some [(67, 64)]
  | 0x06 => some [(83, 64)]
  | 0x07 => some [(20, 16)]
  | 0x08 => some [(20, 16), (71, 64)]
  | 0x10 => some [(20, 16), (127, 64)]
  | 0x11 => some [(20, 16), (25, 21), (30, 26)]
  | 0x12 => some [(20, 16), (25, 21), (127, 64)]
  | 0x13 => some [(20, 16), (25, 21), (30, 26)]
  | 0x14 => some [(20, 16), (25, 21), (30, 26)]
  | 0x15 => some [(20, 16), (25, 21), (30, 26)]
  | 0x16 => some [(20, 16), (25, 21), (30, 26)]
  | 0x17 => some [(20, 16), (25, 21), (30, 26)]
  | 0x18 => some [(20, 16), (25, 21), (69, 64)]
  | 0x19 => some [(20, 16), (25, 21), (69, 64)]
  | 0x1A => some [(20, 16), (25, 21), (69, 64)]
  | 0x1B => some [(33, 31), (25, 21), (30, 26), (43, 40)]
  | 0x1C => some [(33, 31), (25, 21), (127, 64), (43, 40)]
  | 0x1D => some [(33, 31), (36, 34), (39, 37), (43, 40)]
  | 0x20 => some [(33, 16), (36, 34), (39, 37), (41, 40), (42, 42), (43, 43), (51, 44), (58, 52), (62, 59), (63, 63), (83, 64), (99, 84)]
  | 0x21 => some [(20, 16), (63, 32), (111, 64)]
  | 0x40 => some [(20, 16), (23, 21), (37, 24), (50, 38)]
  | 0x60 => some [(22, 16), (33, 30)]
  | 0x61 => some [(22, 16), (29, 23), (33, 30)]
  | 0x62 => some [(22, 16), (33, 30), (38, 34), (40, 39)]
  | 0x63 => some [(22, 16), (33, 30), (38, 34), (40, 39)]
  | 0x64 => some [(22, 16), (33, 30), (38, 34), (40, 39)]
  | 0x65 => some [(29, 23), (33, 30), (38, 34), (40, 39)]
  | 0x66 => some [(22, 16), (33, 30), (83, 64), (99, 84)]
  | 0x67 => some [(29, 23), (33, 30), (83, 64), (99, 84)]
  | 0x68 => some [(29, 23), (33, 30), (38, 34), (44, 42), (45, 45), (83, 64), (99, 84)]
  | 0x6C => some [(22, 16), (29, 23), (33, 30), (107, 100), (115, 108), (119, 116), (122, 120), (125, 123)]
  | 0x80 => some [(20, 16), (25, 21), (30, 26), (40, 36), (43, 41)]
  | 0x81 => some [(20, 16), (25, 21), (30, 26), (40, 36), (43, 41)]
  | 0x82 => some [(20, 16), (25, 21), (30, 26), (40, 36), (43, 41)]
  | 0x83 => some [(20, 16), (25, 21), (30, 26), (35, 31), (40, 36), (43, 41)]
  | 0x84 => some [(20, 16), (25, 21), (30, 26), (40, 36), (43, 41)]
  | 0x85 => some [(20, 16), (25, 21), (30, 26), (40, 36), (43, 41)]
  | 0x86 => some [(20, 16), (25, 21), (40, 36), (43, 41), (95, 64)]
  | 0x87 => some [(20, 16), (25, 21), (40, 36), (43, 41), (95, 64)]
  | 0x88 => some [(20, 16), (25, 21), (40, 36), (43, 41)]
  | 0x89 => some [(20, 16), (25, 21), (40, 36), (43, 41)]
  | 0x8A => some [(20, 16), (25, 21), (40, 36), (43, 41), (46, 44)]
  | 0x90 => some [(20, 16), (25, 21), (40, 36), (43, 41)]
  | 0x91 => some [(20, 16), (25, 21), (40, 36), (43, 41)]
  | 0x92 => some [(20, 16), (25, 21), (40, 36), (43, 41)]
  | 0x93 => some [(20, 16), (25, 21), (40, 36), (43, 41)]
  | 0x94 => some [(20, 16), (25, 21), (40, 36), (43, 41)]
  | 0x98 => some [(20, 16), (25, 21), (40, 36), (43, 41)]
  | 0x99 => some [(20, 16), (25, 21), (40, 36), (43, 41)]
  | 0x9B => some [(25, 21), (30, 26), (40, 36), (43, 41), (52, 47), (99, 64)]
  | 0xA0 => some [(20, 16), (25, 21), (30, 26), (40, 36), (43, 41), (95, 64)]
  | 0xA1 => some [(20, 16), (25, 21), (30, 26), (35, 31), (40, 36), (43, 41), (48, 47)]
  | 0xA2 => some [(20, 16), (25, 21), (40, 36), (43, 41), (50, 47), (99, 64)]
  | 0xA3 => some [(25, 21), (40, 36), (43, 41), (49, 47), (99, 64)]
  | 0xA8 => some [(20, 16), (40, 36), (43, 41), (95, 64)]
  | 0xB0 => some [(25, 16), (28, 26), (38, 29), (48, 39), (83, 64), (103, 84), (123, 104)]
  | 0xC0 => some [(20, 16), (25, 21), (83, 64), (99, 84)]
  | 0xC1 => some [(20, 16), (25, 21), (83, 64), (99, 84)]
  | 0xC2 => some [(20, 16), (83, 64), (99, 84)]
  | 0xC3 => some [(20, 16), (83, 64), (99, 84)]
  | 0xC4 => some [(26, 16), (47, 28), (63, 48), (83, 64), (99, 84)]
  | 0xC8 => some [(19, 16), (33, 20), (53, 34), (63, 54), (111, 64), (127, 112)]
  | 0xC9 => some [(33, 20), (53, 34), (63, 54), (111, 64), (127, 112)]
  | 0xCA => some [(19, 16), (29, 20), (53, 34), (63, 54), (111, 64), (125, 112)]
  | 0xD0 => some [(19, 16), (35, 20), (49, 36), (83, 64), (99, 84)]
  | 0xD1 => some [(19, 16), (28, 20), (37, 29), (51, 38), (83, 64), (99, 84), (119, 100)]
  | 0xE0 => some [(20, 16), (28, 21), (32, 29), (36, 33), (38, 37), (50, 39), (60, 51), (83, 64), (113, 104)]
  | 0xE1 => some [(20, 16), (28, 21), (32, 29), (36, 33), (38, 37), (50, 39), (60, 51), (83, 64), (103, 84), (113, 104)]
  | 0xE2 => some [(20, 16), (36, 33), (38, 37), (50, 39), (83, 64), (103, 84)]
  | 0xE3 => some [(20, 16), (36, 33), (38, 37), (50, 39), (83, 64), (103, 84), (114, 114)]
  | 0xE4 => some [(20, 16), (28, 21), (50, 39), (60, 51), (113, 104), (127, 114)]
  | 0xF0 => some [(20, 16), (25, 21), (28, 26), (38, 29), (39, 39), (43, 40)]
  | 0xF1 => some [(20, 16), (25, 21), (38, 29), (39, 39), (43, 40), (47, 44)]
  | 0xF2 => some [(25, 21), (38, 29), (39, 39), (43, 40), (51, 44), (63, 52), (83, 64)]
  | 0xF4 => some [(20, 16), (25, 21), (38, 29), (39, 39), (43, 40), (63, 52), (83, 64), (103, 84)]
  | 0xF5 => some [(20, 16), (25, 21), (38, 29), (39, 39), (43, 40), (83, 64), (103, 84)]
  | 0xF6 => some [(25, 21), (38, 29), (39, 39), (43, 40)]
  | _ => none

/-- Whether a word sets no bit that its opcode does not name. -/
def fieldsOk (w : BitVec 128) (fs : List (Nat × Nat)) : Bool :=
  w &&& ~~~(BitVec.ofNat 128 (fs.foldl (fun a f => a ||| maskBits f.1 f.2) 0x7FFF)) == 0

/-- The common fields (R189). -/
def commonOf (site : Nat) (w : BitVec 128) : Issue :=
  { site := site, pred := w.extractLsb' 8 4, lvl := w.extractLsb' 12 2, aff := w.getLsbD 14 }

/-- The fields of `EvalF`. -/
def evalFOf (w : BitVec 128) : EvalF :=
  { amask := w.extractLsb' 16 18,
    ww := w.extractLsb' 34 3,
    aw := w.extractLsb' 37 3,
    sc := w.extractLsb' 40 2,
    dr := w.getLsbD 42,
    half := w.getLsbD 43,
    ltag := w.extractLsb' 44 8,
    tile := w.extractLsb' 52 7,
    tstep := w.extractLsb' 59 4,
    zt := w.getLsbD 63,
    opa := w.extractLsb' 64 20,
    ops := w.extractLsb' 84 16 }

/-- The fields of `FillF`. -/
def fillFOf (w : BitVec 128) : FillF :=
  { la := w.extractLsb' 16 5,
    mstr := w.extractLsb' 32 32,
    mbase := w.extractLsb' 64 48 }

/-- The fields of `DescF`. -/
def descFOf (w : BitVec 128) : DescF :=
  { la := w.extractLsb' 16 5,
    ww := w.extractLsb' 21 3,
    oaddr := w.extractLsb' 24 14,
    ocount := w.extractLsb' 38 13 }

/-- The fields of `AccF`. -/
def accFOf (w : BitVec 128) : AccF :=
  { td := w.extractLsb' 16 7,
    ta := w.extractLsb' 23 7,
    tstep := w.extractLsb' 30 4,
    vr := w.extractLsb' 34 5,
    q := w.extractLsb' 39 2,
    fmt := w.extractLsb' 42 3,
    dsel := w.getLsbD 45,
    spa := w.extractLsb' 64 20,
    sps := w.extractLsb' 84 16,
    tree := w.extractLsb' 100 8,
    use := w.extractLsb' 108 8,
    ustep := w.extractLsb' 116 4,
    flm1 := w.extractLsb' 120 3,
    segq := w.extractLsb' 123 3 }

/-- The fields of `VecF`. -/
def vecFOf (w : BitVec 128) : VecF :=
  { vd := w.extractLsb' 16 5,
    va := w.extractLsb' 21 5,
    vb := w.extractLsb' 26 5,
    vc := w.extractLsb' 31 5,
    nm1 := w.extractLsb' 36 5,
    t := w.extractLsb' 41 3,
    t2 := w.extractLsb' 44 3,
    aux := w.extractLsb' 47 9,
    hi := w.extractLsb' 64 36 }

/-- The fields of `RouteF`. -/
def routeFOf (w : BitVec 128) : RouteF :=
  { xm1 := w.extractLsb' 16 10,
    km1 := w.extractLsb' 26 3,
    t0 := w.extractLsb' 29 10,
    ntm1 := w.extractLsb' 39 10,
    scores := w.extractLsb' 64 20,
    out := w.extractLsb' 84 20,
    occ := w.extractLsb' 104 20 }

/-- The fields of `LdStF`. -/
def ldStFOf (w : BitVec 128) : LdStF :=
  { reg := w.extractLsb' 16 5,
    nm1 := w.extractLsb' 21 5,
    spa := w.extractLsb' 64 20,
    sps := w.extractLsb' 84 16 }

/-- The fields of `CopyF`. -/
def copyFOf (w : BitVec 128) : CopyF :=
  { gm1 := w.extractLsb' 16 11,
    dst := w.extractLsb' 28 20,
    dsts := w.extractLsb' 48 16,
    spa := w.extractLsb' 64 20,
    sps := w.extractLsb' 84 16 }

/-- The fields of `MemF`. -/
def memFOf (w : BitVec 128) : MemF :=
  { sig := w.extractLsb' 16 4,
    gm1 := w.extractLsb' 20 14,
    sp := w.extractLsb' 34 20,
    sstep := w.extractLsb' 54 10,
    mbase := w.extractLsb' 64 48,
    mstep := w.extractLsb' 112 16 }

/-- The fields of `GathF`. -/
def gathFOf (w : BitVec 128) : GathF :=
  { sig := w.extractLsb' 16 4,
    rm1 := w.extractLsb' 20 10,
    idx := w.extractLsb' 34 20,
    rgm1 := w.extractLsb' 54 10,
    mbase := w.extractLsb' 64 48,
    dst := w.extractLsb' 112 14 }

/-- The fields of `RecvF`. -/
def recvFOf (w : BitVec 128) : RecvF :=
  { sig := w.extractLsb' 16 4,
    expect := w.extractLsb' 20 16,
    gm1 := w.extractLsb' 36 14,
    spa := w.extractLsb' 64 20,
    sps := w.extractLsb' 84 16 }

/-- The fields of `SendF`. -/
def sendFOf (w : BitVec 128) : SendF :=
  { dcnt := w.extractLsb' 16 4,
    ddev := w.extractLsb' 20 9,
    dcore := w.extractLsb' 29 9,
    gm1 := w.extractLsb' 38 14,
    spa := w.extractLsb' 64 20,
    sps := w.extractLsb' 84 16,
    dst := w.extractLsb' 100 20 }

/-- The fields of `AttF`. -/
def attFOf (w : BitVec 128) : AttF :=
  { gs := w.extractLsb' 16 5,
    layer := w.extractLsb' 21 8,
    kvh := w.extractLsb' 29 4,
    gm1 := w.extractLsb' 33 4,
    dh := w.extractLsb' 37 2,
    poff := w.extractLsb' 39 12,
    psm1 := w.extractLsb' 51 10,
    a := w.extractLsb' 64 20,
    b := w.extractLsb' 84 20,
    pph := w.extractLsb' 104 10,
    imm := w.extractLsb' 114 14 }

/-- The fields of `BrgF`. -/
def brgFOf (w : BitVec 128) : BrgF :=
  { gd := w.extractLsb' 16 5,
    gs := w.extractLsb' 21 5,
    pd := w.extractLsb' 26 3,
    slot := w.extractLsb' 29 10,
    srcg := w.getLsbD 39,
    sstep := w.extractLsb' 40 4,
    x8 := w.extractLsb' 44 8,
    x12 := w.extractLsb' 52 12,
    a := w.extractLsb' 64 20,
    b := w.extractLsb' 84 20 }

/-- The instruction that a word with a defined opcode spells on the core of a site. -/
def instrOf (site : Nat) (w : BitVec 128) : Option Instr :=
  let x := commonOf site w
  match (w.extractLsb' 0 8).toNat with
  | 0x00 => some (.nop x)
  | 0x01 => some (.loop x (w.extractLsb' 64 16) (w.extractLsb' 80 12))
  | 0x02 => some (.barrier x)
  | 0x03 => some (.wopen x)
  | 0x04 => some (.wclose x)
  | 0x05 => some (.waits x (w.extractLsb' 64 4))
  | 0x06 => some (.waitr x (w.extractLsb' 64 8) (w.extractLsb' 72 8) (w.extractLsb' 80 4))
  | 0x07 => some (.lidx x (w.extractLsb' 16 5))
  | 0x08 => some (.sysv x (w.extractLsb' 16 5) (w.extractLsb' 64 8))
  | 0x10 => some (.li x (w.extractLsb' 16 5) (w.extractLsb' 64 64))
  | 0x11 => some (.add x (w.extractLsb' 16 5) (w.extractLsb' 21 5) (w.extractLsb' 26 5))
  | 0x12 => some (.addi x (w.extractLsb' 16 5) (w.extractLsb' 21 5) (w.extractLsb' 64 64))
  | 0x13 => some (.sub x (w.extractLsb' 16 5) (w.extractLsb' 21 5) (w.extractLsb' 26 5))
  | 0x14 => some (.mul x (w.extractLsb' 16 5) (w.extractLsb' 21 5) (w.extractLsb' 26 5))
  | 0x15 => some (.and x (w.extractLsb' 16 5) (w.extractLsb' 21 5) (w.extractLsb' 26 5))
  | 0x16 => some (.or x (w.extractLsb' 16 5) (w.extractLsb' 21 5) (w.extractLsb' 26 5))
  | 0x17 => some (.xor x (w.extractLsb' 16 5) (w.extractLsb' 21 5) (w.extractLsb' 26 5))
  | 0x18 => some (.shl x (w.extractLsb' 16 5) (w.extractLsb' 21 5) (w.extractLsb' 64 6))
  | 0x19 => some (.shr x (w.extractLsb' 16 5) (w.extractLsb' 21 5) (w.extractLsb' 64 6))
  | 0x1A => some (.sar x (w.extractLsb' 16 5) (w.extractLsb' 21 5) (w.extractLsb' 64 6))
  | 0x1B => some (.cmp x (w.extractLsb' 31 3) (w.extractLsb' 21 5) (w.extractLsb' 26 5) (w.extractLsb' 40 4))
  | 0x1C => some (.cmpi x (w.extractLsb' 31 3) (w.extractLsb' 21 5) (w.extractLsb' 64 64) (w.extractLsb' 40 4))
  | 0x1D => some (.plog x (w.extractLsb' 31 3) (w.extractLsb' 34 3) (w.extractLsb' 37 3) (w.extractLsb' 40 4))
  | 0x20 => some (.eval x (evalFOf w))
  | 0x21 => some (.fill x (fillFOf w) [])
  | 0x40 => some (.sdesc x (descFOf w))
  | 0x60 => some (.aclr x (accFOf w))
  | 0x61 => some (.amrg x (accFOf w))
  | 0x62 => some (.aaddv x (accFOf w))
  | 0x63 => some (.asetv x (accFOf w))
  | 0x64 => some (.aldv x (accFOf w))
  | 0x65 => some (.astv x (accFOf w))
  | 0x66 => some (.alds x (accFOf w))
  | 0x67 => some (.asts x (accFOf w))
  | 0x68 => some (.ares x (accFOf w))
  | 0x6C => some (.rsend x (accFOf w))
  | 0x80 => some (.vadd x (vecFOf w))
  | 0x81 => some (.vsub x (vecFOf w))
  | 0x82 => some (.vmul x (vecFOf w))
  | 0x83 => some (.vfma x (vecFOf w))
  | 0x84 => some (.vmax x (vecFOf w))
  | 0x85 => some (.vmin x (vecFOf w))
  | 0x86 => some (.vadds x (vecFOf w))
  | 0x87 => some (.vmuls x (vecFOf w))
  | 0x88 => some (.vabs x (vecFOf w))
  | 0x89 => some (.vneg x (vecFOf w))
  | 0x8A => some (.vcvt x (vecFOf w))
  | 0x90 => some (.vexp x (vecFOf w))
  | 0x91 => some (.vrcp x (vecFOf w))
  | 0x92 => some (.vrsq x (vecFOf w))
  | 0x93 => some (.vsilu x (vecFOf w))
  | 0x94 => some (.vsigm x (vecFOf w))
  | 0x98 => some (.vsum x (vecFOf w))
  | 0x99 => some (.vmaxr x (vecFOf w))
  | 0x9B => some (.vtopk x (vecFOf w))
  | 0xA0 => some (.vrms x (vecFOf w))
  | 0xA1 => some (.vrope x (vecFOf w))
  | 0xA2 => some (.vhad x (vecFOf w))
  | 0xA3 => some (.vqnt x (vecFOf w))
  | 0xA8 => some (.vbc x (vecFOf w))
  | 0xB0 => some (.vroute x (routeFOf w))
  | 0xC0 => some (.ldv x (ldStFOf w))
  | 0xC1 => some (.stv x (ldStFOf w))
  | 0xC2 => some (.ldg x (ldStFOf w))
  | 0xC3 => some (.stg x (ldStFOf w))
  | 0xC4 => some (.copy x (copyFOf w))
  | 0xC8 => some (.mrd x (memFOf w))
  | 0xC9 => some (.mwr x (memFOf w))
  | 0xCA => some (.mgath x (gathFOf w))
  | 0xD0 => some (.nrecv x (recvFOf w))
  | 0xD1 => some (.nsend x (sendFOf w))
  | 0xE0 => some (.attKvw x (attFOf w))
  | 0xE1 => some (.attRun x (attFOf w) [])
  | 0xE2 => some (.attMrg x (attFOf w))
  | 0xE3 => some (.attFin x (attFOf w))
  | 0xE4 => some (.attRcmp x (attFOf w))
  | 0xF0 => some (.brgSlot x (brgFOf w))
  | 0xF1 => some (.brgInfo x (brgFOf w))
  | 0xF2 => some (.brgVar x (brgFOf w))
  | 0xF4 => some (.brgSamp x (brgFOf w))
  | 0xF5 => some (.brgAcpt x (brgFOf w))
  | 0xF6 => some (.brgEmit x (brgFOf w))
  | _ => none

/-- The instruction that a program word spells; none where the opcode is undefined or a bit it does not name is set. -/
def decodeWord (site : Nat) (w : BitVec 128) : Option Instr :=
  match opcodeFields (w.extractLsb' 0 8).toNat with
  | some fs => if fieldsOk w fs then instrOf site w else none
  | none => none

/-! ### The order in which a program issues (R168) -/

/-- One issued instruction: its index in the program, the loops around it (innermost first), its word. -/
structure Issued where
  pc : Nat
  loops : List Loop
  word : BitVec 128
  deriving DecidableEq, Repr

/-- The instructions that a program issues from `pc` on, every loop expanded, at most `fuel` of them. -/
def issueOrder (prog : List (BitVec 128)) (fuel pc : Nat) (ls : List Loop) : List Issued :=
  match fuel with
  | 0 => []
  | fuel + 1 =>
    match prog[pc]? with
    | none => []
    | some w =>
      let opc := (w.extractLsb' 0 8).toNat
      if opc = 0x02 then [⟨pc, ls, w⟩]
      else
        let (ls', pc') := stepLoops ls (pc + 1)
        let ls'' := if opc = 0x01 then
            { start := pc', len := (w.extractLsb' 80 12).toNat + 1, trip := (w.extractLsb' 64 16).toNat + 1, i := 0 } :: ls'
          else ls'
        ⟨pc, ls, w⟩ :: issueOrder prog fuel pc' ls''

/-- No lockage is long enough for more instructions than this (R171: the longest is 12,500,000 units of 8 ns, ten core cycles
each, one instruction per cycle). -/
def issueBound : Nat := 125000000

/-- The stepping index of an issued instruction (R191). -/
def Issued.idx (x : Issued) : Nat :=
  if x.word.getLsbD 14 then
    match x.loops.reverse[(x.word.extractLsb' 12 2).toNat]? with
    | some l => l.i
    | none => 0
  else 0

end Sys2Proof.Machine
end

