-- ==== Sys2Proof/Machine/Reduction.lean ====
section
/-! DEFINITION. Fixed-order reduction: the nodes of trees (R151 to R158), `RSEND`
(R205), `WAITR` (R157, R196) and the arrival of flits. -/

namespace Sys2Proof.Machine

/-! ### The active schedule -/

/-- The programs that the active schedule places on a site. -/
def State.coreProg (s : State) (site : Nat) : Option CoreProg :=
  s.sched.active.bind (fun im => im.cores.find? (fun p => p.site == site))

/-- The program of the current variant on a site. -/
def State.program (s : State) (site : Nat) : List (BitVec 128) :=
  match s.coreProg site with
  | some p => if s.wideNow then p.wide else p.normal
  | none => []

/-- The node of a tree in a router. -/
def State.redNode (s : State) (site tree : Nat) : Option RedNode :=
  s.tables.bind (fun t => t.red.find? (fun n => n.site == site && n.tree == tree))

/-- The destination recorded for a use of a tree (R157). -/
def State.redUse (s : State) (tree use : Nat) : Option RedUse :=
  s.tables.bind (fun t => t.uses.find? (fun u => u.tree == tree && u.use == use))

/-- The uses that a core waits for, in the order in which it issues its `WAITR`s. -/
def State.waitOrder (s : State) (site : Nat) : List (Nat × Nat) :=
  ((issueOrder (s.program site) issueBound 0 []).filter (fun x => (x.word.extractLsb' 0 8).toNat == 0x06)).map
    (fun x => ((x.word.extractLsb' 64 8).toNat, (x.word.extractLsb' 72 8).toNat + (x.word.extractLsb' 80 4).toNat * x.idx))

/-- Whether two uses deliver into overlapping segments of one tile. -/
def usesOverlap (a b : RedUse) : Bool :=
  a.tile == b.tile && decide (a.seg < b.seg + 64 * b.flits ∧ b.seg < a.seg + 64 * a.flits)

/-- Whether the root may deliver a use: every earlier `WAITR` on an overlapping segment has completed (R150). -/
def State.rootFree (s : State) (site : Nat) (f : RedFlit) : Bool :=
  match s.redUse f.tree f.use with
  | none => true
  | some u =>
    ((s.waitOrder site).takeWhile (fun w => w != (f.tree, f.use))).all (fun w =>
      (s.core site).redWaited.contains w ||
      match s.redUse w.1 w.2 with
      | some v => !usesOverlap u v
      | none => true)

/-- A core that waits for a use goes on once its delivery is complete (R157). -/
def Core.settleWaitr (c : Core) : Core :=
  match c.run with
  | .waitRed t u =>
    if c.redIn.contains (t, u) then { c with run := .issue, redWaited := c.redWaited ++ [(t, u)] } else c
  | _ => c

/-- Whether deliveries reach the core of a site: it is enabled and not fenced (R417). -/
def State.takesTiles (s : State) (site : Nat) : Bool := s.enabled site && s.rf Reg.RTR_FENCE site 0 1 0 == 0

/-- Delivers the merged flits that the root of a site holds, as far as R150 lets it; a delivery overwrites its segment. One for a fenced core is
discarded at the local port and counted once, with its first flit (R417). -/
def State.drainRoot (s : State) (site : Nat) (fuel : Nat) : State :=
  match fuel with
  | 0 => s
  | fuel + 1 =>
    let c := s.core site
    match c.redHold.find? (s.rootFree site) with
    | none => s
    | some f =>
      let c := { c with redHold := c.redHold.erase f }
      let c := if s.takesTiles site then c.setEntries f.tile (f.seg + 64 * f.k) f.pairs else c
      let s := if f.k = 0 && s.rf Reg.RTR_FENCE site 0 1 0 != 0 then s.err Reg.RTR_FENCE_DROP site 0 1 else s
      let c := if f.k + 1 = f.flits then { c with redIn := c.redIn ++ [(f.tree, f.use)] } else c
      (s.setCore site c.settleWaitr).drainRoot site fuel

/-! ### Nodes -/

/-- Whether a router discards a flit's packet as stray (R158). -/
def State.stray (s : State) (site port : Nat) (f : RedFlit) : Bool :=
  match s.redNode site f.tree, s.redUse f.tree f.use with
  | some n, some u =>
    (s.core site).redOver.contains (f.tree, f.use) || !n.order.contains port || f.seg != u.seg || f.flits != u.flits ||
    (s.core site).reds.any (fun x => x.tree == f.tree && x.use == f.use && x.got.any (fun g => g.1 == port && g.2.k == f.k))
  | _, _ => true

/-- The flits numbered `k` of all children in merge order, when each has arrived (R154). -/
def childFlits (order : List Nat) (got : List (Nat × RedFlit)) (k : Nat) : Option (List RedFlit) :=
  order.mapM (fun p => (got.find? (fun g => g.1 == p && g.2.k == k)).map (fun g => g.2))

/-- The left fold of R154 over the children's flits, with the overflows it counts. -/
def foldFlits (fs : List RedFlit) : List (F32 × F32) × Nat :=
  match fs with
  | [] => ([], 0)
  | f :: t => t.foldl (fun a g => let (ps, n) := mergeAll a.1 g.pairs
    (ps, a.2 + n)) (f.pairs, 0)

/-- A node merges and sends on every flit number that is complete, in order (R154); the root's flits go to its core, the others
to the port toward the parent. `RTR_RED_PACKETS` (R160) counts the packets of the children, all at once when their use is merged completely
(the model's choice, notes/assumptions/32.md). -/
def State.mergeNode (s : State) (site : Nat) (n : RedNode) (tree use fuel : Nat) : State :=
  match fuel with
  | 0 => s
  | fuel + 1 =>
    let c := s.core site
    match c.reds.find? (fun x => x.tree == tree && x.use == use) with
    | none => s
    | some x =>
      match childFlits n.order x.got x.merged with
      | some (f :: t) =>
        let (ps, ovf) := foldFlits (f :: t)
        let out := { f with pairs := ps }
        let others := c.reds.filter (fun y => !(y.tree == tree && y.use == use))
        let full := x.merged + 1 == f.flits
        let c := if full then { c with reds := others, redOver := c.redOver ++ [(tree, use)] }
          else { c with reds := others ++ [{ x with merged := x.merged + 1 }] }
        let c := if n.parent = 0 then { c with redHold := c.redHold ++ [out] } else c
        let s := (s.setCore site c).accOvf ovf
        let s := if full then s.wide Reg.RTR_RED_PACKETS site 0 n.order.length else s
        let s := if n.parent = 0 then s.drainRoot site 64
          else match portHop site n.parent with
            | some h => { s with flits := s.flits ++ [{ hop := h, flit := out }] }
            | none => s
        s.mergeNode site n tree use fuel
      | _ => s

/-- A reduction flit reaches a port of a router (R154, R158, R417). A packet that is discarded counts once, with its first
flit. -/
def State.redArrive (s : State) (site port : Nat) (f : RedFlit) : State :=
  if s.rf Reg.RTR_FENCE site 0 1 0 = 2 then (if f.k = 0 then s.err Reg.RTR_FENCE_DROP site 0 1 else s)
  else if s.stray site port f then
    (if f.k = 0 then (s.err Reg.RTR_RED_STRAY site 0 1).raise 0x21 site else s)
  else
    match s.redNode site f.tree with
    | none => s
    | some n =>
      let c := s.core site
      let x : RedCtx := match c.reds.find? (fun y => y.tree == f.tree && y.use == f.use) with
        | some y => { y with got := y.got ++ [(port, f)] }
        | none => { tree := f.tree, use := f.use, got := [(port, f)], merged := 0 }
      let others := c.reds.filter (fun y => !(y.tree == f.tree && y.use == f.use))
      (s.setCore site { c with reds := others ++ [x] }).mergeNode site n f.tree f.use 8

/-- `REDUCTION_FLIT_ARRIVAL`. -/
def execReductionFlitArrival (site port : Nat) (f : RedFlit) (s : State) : Out :=
  if site < nSites then
    finish (({ s with flits := s.flits.erase { hop := .router site port, flit := f } }.redArrive site port f).settleBarrier site)
  else .next s

/-! ### Instructions -/

/-- The flits of the packet that `RSEND` sends: 64 pairs each, from `SEG` on (R153, R205). -/
def rsendFlits (f : AccF) (i : Nat) (pairs : List (F32 × F32)) : List RedFlit :=
  (chunks 64 pairs 8).zipIdx.map (fun p =>
    { tree := f.tree.toNat, use := stepIx f.use.toNat f.ustep.toNat i, tile := accDst f i, seg := 64 * f.segq.toNat,
      flits := f.flm1.toNat + 1, k := p.2, pairs := p.1 })

/-- Sends a reduction packet into the core's own router, the local port being the node's child. -/
def State.sendRed (s : State) (site : Nat) (fs : List RedFlit) : State :=
  { s with flits := s.flits ++ fs.map (fun f => { hop := .router site 0, flit := f }) }

/-- `RSEND`; predicated off it sends the packet with every pair (+0, +0) (R169, R205). -/
def execRsend (x : Issue) (f : AccF) (s : State) : Out :=
  let n := 64 * (f.flm1.toNat + 1)
  .next (s.issueTiles x (fun i => [accSrc f i])
    (fun s i => s.sendRed x.site (rsendFlits f i ((s.core x.site).entries (accSrc f i) (64 * f.segq.toNat) n)))
    (fun s i => s.sendRed x.site (rsendFlits f i (List.replicate n (0, 0)))))

/-- `WAITR`: waits for the delivery of a use at this core (R157). -/
def execWaitr (x : Issue) (tree use : BitVec 8) (ustep : BitVec 4) (s : State) : Out :=
  .next (s.issue x (fun s i =>
    (s.updCore x.site (fun c => { c with run := .waitRed tree.toNat (stepIx use.toNat ustep.toNat i) }.settleWaitr)).drainRoot
      x.site 64))

end Sys2Proof.Machine
end

