-- ==== Sys2Proof/Machine/Arrays.lean ====
section
/-! DEFINITION. Array evaluation: drives, the weir, fills, descriptors and spare elements (chapter 02; R197 to R202, R503). -/

namespace Sys2Proof.Machine

/-! ### Tiles and master weights -/

/-- The address of a tile's streamed image. -/
def Home.addr? (h : Home) : Option Nat :=
  match h with
  | .resident _ => none
  | .near a => some a
  | .far a => some a

/-- The tile of a slot that the image at an address holds: the one from which the active schedule built it (R346), else the streamed tile that
the placement map puts there (R334). -/
def State.imageTile (s : State) (slot a : Nat) : Option Nat :=
  match s.sched.active.bind (fun im => (im.streams.find? (fun p => p.addr == a)).bind (fun p => p.tile)) with
  | some n => some n
  | none => (s.pkg slot).bind (fun p => p.tiles.findIdx? (fun t => Home.addr? t.home == some a))

/-- The slot and the number of the tile that an array holds. -/
def State.tileNo (s : State) (h : Holds) : Option (Nat × Nat) :=
  match h with
  | .none => none
  | .gen slot n => some (slot, n)
  | .image a => s.heldSlot.bind (fun slot => (s.imageTile slot a).map (fun n => (slot, n)))

/-- The tile that an array holds. -/
def State.tileOf (s : State) (h : Holds) : Option Tile := (s.tileNo h).bind (fun x => (s.pkg x.1).bind (fun p => p.tiles[x.2]?))

/-- Whether the active schedule streams a resident tile of the held package, whose array is then out of service (R346). -/
def State.streamed (s : State) (h : Holds) : Bool :=
  match h with
  | .gen slot n => s.heldSlot == some slot && (match s.sched.active with
    | some im => im.streams.any (fun p => p.tile == some n)
    | none => false)
  | _ => false

/-- The integer weight of a logical output column (or pair) at a logical row, from the master weights (R123). -/
def tileWeight (t : Tile) (col row : Nat) : Int := signed 8 (Mem.get t.master (1024 * col + row)).toNat

/-- The logical column of an outlier (R115). -/
def outlierCol (o : Outlier) : Nat := 64 * o.group + o.col

/-- The integers that the cells of a logical column encode over the 1,024 logical rows (R125): the weight, or the high or the
low part of a pair's weight; 0 at outlier positions. -/
def masterColumn (t : Tile) (pair : Bool) (col : Nat) : List Int :=
  let outs := t.outliers.filter (fun o => outlierCol o == (if pair then col / 2 * 2 else col))
  (List.range 1024).map (fun r =>
    if outs.any (fun o => o.row == r) then 0
    else if pair then
      (let w := tileWeight t (col / 2) r
      if col % 2 = 0 then w / 16 else w % 16)
    else tileWeight t col r)

/-- The integer weights of a logical column's output, those of a pair for either of its columns (R123); 0 at outlier positions. -/
def masterWeights (t : Tile) (pair : Bool) (col : Nat) : List Int :=
  let outs := t.outliers.filter (fun o => outlierCol o == (if pair then col / 2 * 2 else col))
  (List.range 1024).map (fun r => if outs.any (fun o => o.row == r) then 0 else tileWeight t (if pair then col / 2 else col) r)

/-! ### Widths, phases and the weir -/

/-- The width that a width code names (R74). -/
def widthOf (code : Nat) : Nat := code + 1

/-- Whether a weight width code uses cell pairs (R38). -/
def isPair (ww : BitVec 3) : Bool := decide (4 ≤ ww.toNat)

/-- The step k of *Single-cell weight encoding*; 1 for a pair. -/
def stepK (ww : BitVec 3) : Nat :=
  match ww.toNat with
  | 0 => 7
  | 1 => 4
  | 2 => 2
  | _ => 1

/-- The level that encodes a weight in a single cell (R37). -/
def cellLevel (ww : BitVec 3) (w : Int) : Int := 8 + stepK ww * w

/-- *Phases per activation width*. -/
def phases (aw : BitVec 3) : Nat :=
  match aw.toNat + 1 with
  | 1 => 1
  | 2 => 1
  | 3 => 1
  | 4 => 2
  | 5 => 2
  | 6 => 3
  | 7 => 3
  | _ => 4

/-- The sub-phase count S that `SC` codes; 3 is illegal (R223). -/
def subPhases (sc : BitVec 2) : Option Nat :=
  match sc.toNat with
  | 0 => some 1
  | 1 => some 2
  | 2 => some 4
  | _ => none

/-- The drive level of an activation in phase `p` (counted from 0): a 2-bit slice of its magnitude, level 1 at A1; 0 drives
nothing (R44 to R46). -/
def driveLevel (aw : BitVec 3) (q : Int) (p : Nat) : Nat :=
  if q = 0 then 0
  else if aw = 0 then 1
  else q.natAbs % 2 ^ aw.toNat / 4 ^ p % 4

/-- The signed drive of an activation in a phase. -/
def drive (aw : BitVec 3) (p : Nat) (q : Int) : Int :=
  if q < 0 then -(driveLevel aw q p : Int) else driveLevel aw q p

/-- *Weir gain* by active rows: 0 gain 1, 1 gain 1/2, 2 gain 1/4 (R54, R56, R57). -/
def weirGain (active : Nat) : Nat := if active ≤ 256 then 0 else if active ≤ 512 then 1 else 2

/-- The row groups of an operand (R50). -/
def rowGroups (s : Nat) (q : List Int) : List (List Int) := chunks (1024 / s) q s

/-- The drives of every sub-phase in drive order: phases ascending, groups ascending (R50). -/
def subDrives (aw : BitVec 3) (s : Nat) (q : List Int) : List (List Int) :=
  (List.range (phases aw)).flatMap (fun p => (rowGroups s q).map (fun g => g.map (drive aw p)))

/-- The weir gain of every sub-phase. -/
def subGains (aw : BitVec 3) (s : Nat) (q : List Int) : List Nat :=
  (subDrives aw s q).map (fun g => weirGain (g.filter (fun d => d != 0)).length)

/-- The drive sum of every sub-phase (R105). -/
def subSums (aw : BitVec 3) (s : Nat) (q : List Int) : List Int := (subDrives aw s q).map List.sum

/-! ### Descriptors and outlier lists -/

/-- The descriptor of a logical array. -/
def Core.descOf (c : Core) (la : Nat) : Desc := SMap.get c.desc ⟨0, 0, 0⟩ la

/-- The descriptor of a logical array that an evaluation issued now starts with: that of the last `SDESC` still in the array unit's queue, which is
in order (R192, R202). -/
def Core.descAt (c : Core) (la : Nat) : Desc :=
  c.arrQ.foldl (fun d q => match q with
    | .desc _ l e => if l = la then e else d
    | _ => d) (c.descOf la)

/-- Bytes of an outlier list (R115). -/
def olistBytes (count : Nat) : Nat := if count = 0 then 0 else 16 + 3 * count

/-- The group of entry `i` under the group counts. -/
def groupOf (counts : List Nat) (i g : Nat) : Nat :=
  match counts with
  | [] => g
  | n :: t => if i < n then g else groupOf t (i - n) (g + 1)

/-- The entries of an outlier list, in list order (*Outlier list layout*). -/
def readOutliers (bs : List Byte) (count : Nat) : List Outlier :=
  let counts := wordsOf 2 (bs.take 16)
  ((chunks 3 (bs.drop 16) count).zipIdx.map (fun e =>
    let ix := ofLE (e.1.take 2)
    { group := groupOf counts e.2 0, col := ix / 1024, row := ix % 1024, value := e.1.getD 2 0 }))

/-! ### Evaluation -/

/-- The logical arrays that a mask selects, ascending. -/
def maskArrays (m : BitVec 18) : List Nat := (List.range 18).filter m.getLsbD

/-- What one array of an evaluation drives (R105): operand, weir gains, drive sums, outliers, and what belongs to the array as it
stands. A poisoned codeword of the operand reads 0x7FC0 in every 16-bit unit, and its scale NaN (R362). -/
def State.evalArr (s : State) (site : Nat) (f : EvalF) (sc opa la : Nat) : EvalArr :=
  let c := s.core site
  let a := s.phys site la
  let r := c.arr a
  let q := (c.spRead opa 1024).map (fun b => signed 8 b.toNat)
  let sa : F16 := if c.spPoisoned opa 1088 then 0x7E00 else BitVec.ofNat 16 (ofLE (c.sp (opa + 1024) 2))
  let d := c.descAt la
  let n := olistBytes d.ocount
  { la := la, phys := a, holds := r.holds, lost := r.bad || (decide (16 ≤ la) && r.holds == .none)
    badList := c.spPoisoned (64 * d.oaddr) n
    q := q, sa := sa, gains := subGains f.aw sc q, dsums := subSums f.aw sc q
    outliers := readOutliers (c.sp (64 * d.oaddr) n) d.ocount
    steer := r.steer, corr := r.corr
    subst := (c.substs.filter (fun u => u.arr == a)).map (fun u => (u.col, u.master)) }

/-- What an evaluation takes at its start (R114): what its array holds, the table, steering and substitutions. -/
def Core.evalStart (c : Core) (e : EvalArr) : EvalArr :=
  let r := c.arr e.phys
  { e with
    holds := r.holds, lost := r.bad || (decide (16 ≤ e.la) && r.holds == .none), steer := r.steer, corr := r.corr
    subst := (c.substs.filter (fun u => u.arr == e.phys)).map (fun u => (u.col, u.master)) }

/-- Counts the sub-phases of an array at each weir gain, `reads` times (R58). -/
def State.countGains (s : State) (site : Nat) (e : EvalArr) (reads : Nat) : State :=
  let n := fun g => reads * (e.gains.filter (fun x => x == g)).length
  ((s.wide Reg.ARY_GAIN1_SUBPHASESa site e.phys (n 0)).wide Reg.ARY_GAIN2_SUBPHASESa site e.phys (n 1)).wide
    Reg.ARY_GAIN4_SUBPHASESa site e.phys (n 2)

/-- Draws an audit column for an array that has none drawn (R123): uniformly at random among the logical columns, or pairs, that are not
substituted; while audits of the array are suspended (R127) nothing is drawn. -/
def State.drawAudit (s : State) (site a : Nat) (pair : Bool) : State :=
  let c := s.core site
  let r := c.arr a
  if r.draw.isSome || r.suspended then s
  else
    let all := if pair then (List.range 256).map (fun j => 2 * j) else List.range 512
    let free := all.filter (fun j => !c.substs.any (fun u => u.arr == a && (u.logical == j || (pair && u.logical == j + 1))))
    match free[(s.free 64).toNat % free.length]? with
    | some j => (s.setCore site (c.setArr a { r with draw := some ⟨j, false, false⟩ })).nextFree
    | none => s

/-! ### The array unit's queue (R68, R192, R199) -/

/-- Whether an evaluation selects a physical array. -/
def EvalIn.selects (e : EvalIn) (a : Nat) : Bool := e.arrays.any (fun x => x.phys == a)

/-- The selected arrays of an evaluation whose fill is incomplete. -/
def Core.filling (c : Core) (e : EvalIn) : List EvalArr := e.arrays.filter (fun x => (c.arr x.phys).fill.isSome)

/-- An evaluation starts: it takes the tables (R114), clears its entries for `ZT` (R198), counts its sub-phases (R58) and draws an audit
column where an array has none (notes/assumptions/35.md). -/
def State.startEval (s : State) (site : Nat) (e : EvalIn) : State :=
  let c := s.core site
  let e := { e with arrays := e.arrays.map c.evalStart, since := s.reg Reg.FLK_TIME 0 0 }
  let reads := if e.f.dr then 2 else 1
  let steps := reads * (e.arrays.map (fun a => a.gains.sum)).sum
  let pair := isPair e.f.ww
  let c := if e.f.zt then
      c.setEntries e.tile (if pair && e.f.half then 256 else 0) (List.replicate (if pair then 256 else 512) (0, 0))
    else c
  let s := s.setCore site { c with
    evals := c.evals ++ [e], layers := SMap.upd c.layers 0 e.f.ltag.toNat (fun n => n + steps) }
  let s := e.arrays.foldl (fun s a => s.countGains site a reads) s
  e.arrays.foldl (fun s a => s.drawAudit site a.phys pair) s

/-- A fill starts (R67); from then on an array that gets another image has lost its tile. -/
def State.startFill (s : State) (site : Nat) (w : FillIn) : State :=
  let c := s.core site
  let c := if (c.arr w.phys).holds = .image w.src then c else c.dropTile w.phys
  (s.setCore site (c.setArr w.phys { c.arr w.phys with fill := some { w with since := s.reg Reg.FLK_TIME 0 0 } })).setRf
    Reg.ARY_STATEa site w.phys 18 16 5

/-- The descriptor of a logical array is set; `SLU_OLISTa` of the array now mapped to it shows it (R202). -/
def State.setDesc (s : State) (site la : Nat) (d : Desc) : State :=
  (s.updCore site (fun c => { c with desc := SMap.put c.desc ⟨0, 0, 0⟩ la d })).setReg Reg.SLU_OLISTa site (s.phys site la)
    (d.oaddr * 2 ^ 18 + d.ocount)

/-- The array unit starts what stands at the head of its queue, as far as it can (R192): an evaluation once none of its arrays is filling
and no earlier one has still to deliver into its tile (R68, R179), counting a stall once; a fill once no evaluation of its array is in
flight and no earlier fill of it runs (R68); a descriptor at once. `fuel` bounds the instructions started. -/
def State.startArrays (s : State) (site fuel : Nat) : State :=
  match fuel with
  | 0 => s
  | fuel + 1 =>
    let c := s.core site
    match c.arrQ with
    | [] => s
    | .desc _ la d :: t => ((s.setCore site { c with arrQ := t }).setDesc site la d).startArrays site fuel
    | .fill _ w :: t =>
      if (c.arr w.phys).fill.isSome || c.evals.any (fun e => e.selects w.phys) then s
      else ((s.setCore site { c with arrQ := t }).startFill site w).startArrays site fuel
    | .eval pc e :: t =>
      match c.filling e with
      | [] =>
        if c.evals.any (fun b => b.tile == e.tile) then s
        else ((s.setCore site { c with arrQ := t }).startEval site e).startArrays site fuel
      | l =>
        if e.stalled then s
        else l.foldl (fun s a => s.err Reg.ARY_FILL_STALLSa site a.phys 1)
          (s.setCore site { c with arrQ := .eval pc { e with stalled := true } :: t })

/-- Issues an instruction of the array unit that goes through its queue of 8; while that is full, issue stalls (R192), which leaves
everything as it is. -/
def State.issueArr (s : State) (x : Issue) (f : State → Nat → State) : State :=
  if 8 ≤ (s.core x.site).arrQ.length then s else s.issue x (fun s i => (f s i).startArrays x.site 8)

/-- `SDESC`: the descriptor of a logical array, for every evaluation that starts after it (R202). -/
def execSdesc (x : Issue) (f : DescF) (s : State) : Out :=
  .next (s.issueArr x (fun s _ =>
    let d : Desc := { ww := f.ww.toNat, oaddr := f.oaddr.toNat, ocount := f.ocount.toNat }
    s.updCore x.site (fun c => { c with arrQ := c.arrQ ++ [.desc c.pc f.la.toNat d] })))

/-- `EVAL` (R44 to R58, R198, R199): the operands are read, and the evaluation goes into the array unit's queue, from which it starts at
once unless it must wait. An operand block and an outlier list that come poisoned are each a consuming read (R361). -/
def execEval (x : Issue) (f : EvalF) (s : State) : Out :=
  finish (s.issueArr x (fun s i =>
    match subPhases f.sc with
    | none => s
    | some sc =>
      let opa := stepAddr f.opa.toNat f.ops.toNat 16 i
      let las := maskArrays f.amask
      let arrs := las.zipIdx.map (fun p => s.evalArr x.site f sc (opa + 1088 * p.2) p.1)
      let c := s.core x.site
      let ev : EvalIn := { f := f, s := sc, p := phases f.aw, tile := stepIx f.tile.toNat f.tstep.toNat i,
                           stalled := false, since := s.reg Reg.FLK_TIME 0 0, arrays := arrs }
      let relist := (arrs.filter (fun e => e.badList)).map (fun e => e.la)
      let operands := (las.zipIdx.filter (fun p => c.spPoisoned (opa + 1088 * p.2) 1088)).length
      (s.setCore x.site { c with
        arrQ := c.arrQ ++ [.eval c.pc ev], relist := c.relist ++ relist.filter (fun la => !c.relist.contains la) }).err
          Reg.MEM_POISON_CONSUMED 0 0 (operands + relist.length)))

/-! ### Fills -/

/-- Two cells to a byte, the even column in the low half (R201; notes/assumptions/12.md). -/
def packCells (m : Mem) : Mem :=
  match m with
  | [] => []
  | (k, b) :: t =>
    let lo := if k % 2 = 0 then b else b * 16
    match packCells t with
    | (j, c) :: u => if j = k / 2 then (j, lo + c) :: u else (k / 2, lo) :: (j, c) :: u
    | [] => [(k / 2, lo)]

/-- `n` bytes from `a` on replaced by cells given from their start. -/
def spliceMem (m : Mem) (a n : Nat) (cells : Mem) : Mem :=
  m.filter (fun c => decide (c.1 < a)) ++ cells.map (fun c => (c.1 + a, c.2)) ++ m.filter (fun c => decide (a + n ≤ c.1))

/-- The bytes of the streamed image of a tile. -/
def imageCells (t : Tile) : Mem := (canonMem (packCells t.levels)).filter (fun c => decide (c.1 < 262144))

/-- Writes the streamed image of a tile at an address of device memory (R201, R334). -/
def State.writeImage (s : State) (a : Nat) (t : Tile) : State :=
  { s with mem := spliceMem s.mem a 262144 (imageCells t), poison := unpoison s.poison a 262144, latent := unspoil s.latent a 262144 }

/-- Tags of 4 KiB units of a far image have failed on a read: each counts, and its whole unit is poisoned (R360). `fails` are the units'
places in the image. -/
def State.failTags (s : State) (addr : Nat) (fails : List Nat) : State :=
  if addr < farBase then s
  else
    ((List.range 64).filter fails.contains).foldl (fun (s : State) k =>
      (s.poisonUnit ((addr - farBase) / 4096 + k)).err Reg.MEM_FAR_TAG_FAIL 0 0 1) s

/-- The ways of an image's 4 KiB units from memory to a site (R28): each unit that a ROUTER_FENCED router keeps away counts there (R417); the flag
says that a unit never comes. -/
def State.fillWay (s : State) (site addr : Nat) : State × Bool :=
  (List.range 64).foldl (fun (x : State × Bool) k =>
    match x.1.memWay site (addr + 4096 * k) with
    | .arrives r _ =>
      match x.1.way (.site site) r true with
      | .arrives y q => (x.1, x.2 || decide (y ≠ site ∨ q ≠ 0))
      | .fenced y => (x.1.err Reg.RTR_FENCE_DROP y 0 1, true)
      | .lost => (x.1, true)
    | .fenced y => (x.1.err Reg.RTR_FENCE_DROP y 0 1, true)
    | .lost => (x.1, true)) (s, false)

/-- `FILL` (R201): the fill goes into the array unit's queue, from which it starts once R68 lets it, and goes on after the instruction
(R67). `tagFails` are the 4 KiB units of a far image whose tag fails (R360). -/
def execFill (x : Issue) (f : FillF) (tagFails : List Nat) (s : State) : Out :=
  let addr := fun (i : Nat) => ((f.mbase.toNat : Int) + signed 32 f.mstr.toNat * (i : Int)).toNat
  s.memGuard x addr 262144 (s.issueArr x (fun s i =>
    let s := (s.meet (addr i) 262144).failTags (addr i) tagFails
    let bad := s.memPoisoned x.site (addr i) 262144
    let (s, cut) := s.fillWay x.site (addr i)
    let w : FillIn := { la := f.la.toNat, phys := s.phys x.site f.la.toNat, src := addr i, bad := bad, cut := cut, since := 0 }
    (s.updCore x.site (fun c => { c with arrQ := c.arrQ ++ [.fill c.pc w] })).consumed bad))

/-- The correction table with the weight scales of a tile: one per logical column, in pair mode one per pair, in the entry of the
high column (R89, R112). -/
def Arr.loadScales (r : Arr) (t : Tile) : Arr :=
  let pair := decide (4 ≤ t.ww)
  { r with corr := (List.range (if pair then 256 else 512)).foldl (fun m j =>
      let col := if pair then 2 * j else j
      let ph := if SMap.get r.steer 0 col = 0 then col else SMap.get r.steer 0 col
      SMap.upd m corrDefault ph (fun e => { e with wscale := SMap.get t.wscale 0 j })) r.corr }

/-- `FILL_DONE`: the last row of a fill is written, the sluice's table has the scales of the tile, and what has waited for the fill starts
(R68). The array serves, whatever it was before the fill (notes/assumptions/35.md). An image that read poisoned is rebuilt by the loader, so
before the tile's next fill (R361). A fill of which a unit never comes does not end. -/
def execFillDone (site la : Nat) (s : State) : Out :=
  let a := s.phys site la
  let c := s.core site
  match (c.arr a).fill with
  | none => .next s
  | some w =>
    if w.cut then .next s
    else
      let m := (s.memOf site).1
      let cells := (m.filter (fun k => decide (w.src ≤ k.1) && decide (k.1 < w.src + 262144))).map (fun k => (k.1 - w.src, k.2))
      let r := { c.arr a with cells := cells, holds := .image w.src, bad := w.bad, fill := none }
      let r := match s.tileOf (.image w.src) with
        | some t => r.loadScales t
        | none => r
      let t := match w.bad, s.tileOf (.image w.src) with
        | true, some t => s.writeImage w.src t
        | _, _ => s
      finish ((((t.setCore site (c.setArr a r)).setRf Reg.ARY_STATEa site a 18 16 0).startArrays site 8).settleBarrier site)

/-! ### Spare elements (R41 to R43) -/

/-- Requests the retirement of a logical column or row of an array (R41): it claims the lowest-numbered spare that is free
(notes/assumptions/35.md), whose programming starts when its preconditions hold (R42) and no other write of the die is in progress (R456), or raises
the exhaustion of the spares (R43). -/
def State.requestRetire (s : State) (site a : Nat) (isRow : Bool) (elem : Nat) : State :=
  let g := elem / 64
  let used := if isRow then s.rf Reg.ARY_SPAREa site a 5 0 else s.rf Reg.ARY_SPAREa site a (7 + 2 * g) (6 + 2 * g)
  let limit := if isRow then 32 else 2
  if limit ≤ used then s.raise 0x10 site
  else
    let spare := if isRow then 1024 + used else 512 + 2 * g + used
    let ok := s.spareWriteOk (dieOf site)
    let s := s.holdupCheck (dieOf site) 10
    let s := if isRow then s.setRf Reg.ARY_SPAREa site a 5 0 (used + 1)
      else s.setRf Reg.ARY_SPAREa site a (7 + 2 * g) (6 + 2 * g) (used + 1)
    let c := s.core site
    let r := c.arr a
    let s := s.setCore site (c.setArr a { r with
      retire := r.retire ++ [{ isRow := isRow, elem := elem, spare := spare, started := ok && s.writeFree (dieOf site), done := false }] })
    if ok then s else s.err Reg.ARY_SPARE_DEFERa site a 1

/-- The level that encodes the master weight of a tile at a cell (R37, R38); the cells of an outlier hold weight 0 (R116). -/
def masterLevel (t : Tile) (row col : Nat) : Byte :=
  if t.ww < 4 then BitVec.ofInt 8 (cellLevel (BitVec.ofNat 3 t.ww) (tileWeight t col row))
  else
    let w := tileWeight t (col / 2) row
    BitVec.ofInt 8 (if col % 2 = 0 then 8 + w / 16 else w % 16)

/-- What a retirement programs into its spare (R41): the levels of the element's master weights at the physical places that carry the
other element of each cell; nothing where the array holds no tile. -/
def Arr.spareCells (r : Arr) (t : Option Tile) (u : Retire) : Mem :=
  match t with
  | none => []
  | some t =>
    if u.isRow then (List.range 512).map (fun c => (528 * u.spare + remapped r.steer c, masterLevel t u.elem c))
    else (List.range 1024).map (fun w => (528 * remapped r.rowMap w + u.spare, masterLevel t w u.elem))

/-- The programming of a spare element completes; its cells now hold the contents of the element it replaces, from
the digital master weights, and the switch follows at the next boundary (R41). -/
def State.spareDone (s : State) (site arr : Nat) : State :=
  let c := s.core site
  let r := c.arr arr
  match r.retire.find? Retire.writing with
  | none => s
  | some t =>
    let cleared := r.cells.filter (fun k => if t.isRow then k.1 / 528 != t.spare else k.1 % 528 != t.spare)
    let cells := (r.spareCells (s.tileOf r.holds) t).foldl (fun m k => SMap.put m 0 k.1 k.2) cleared
    s.setCore site (c.setArr arr { r with
      cells := if arr < 17 then cells else r.cells
      retire := r.retire.map (fun (u : Retire) => if u.isRow = t.isRow ∧ u.spare = t.spare then { u with done := true } else u) })

/-- `SPARE_PROGRAM_DONE`. While the slot's contents are absent there are no master weights to program from, and a die without a control pair has no
loader (R31). -/
def execSpareProgramDone (site arr : Nat) (s : State) : Out :=
  let h := ((s.core site).arr arr).holds
  .next (if (h != .none && (s.tileOf h).isNone) || !s.dieWorks (dieOf site) then s else s.spareDone site arr)

end Sys2Proof.Machine
end

