-- ==== Sys2Proof/Machine/Sluice.lean ====
section
/-! DEFINITION. The sluice: the correction pipeline (R106 to R110, R117), the live audit (R122 to R127, R132), arbitration
(R128 to R131), column substitution and checker fences (R133 to R136), the capture record (R138). -/

namespace Sys2Proof.Machine

/-! ### The correction pipeline (R106) -/

/-- The drift gain G of an array in the lockage (R107). -/
def Core.gDrift (c : Core) (a : Nat) : F32 := SMap.get c.drift F32.one a

/-- The gain and the offset of a correction entry at a weir gain. -/
def entryAt (e : CorrEntry) (g : Nat) : F16 × F16 :=
  match g with
  | 0 => (e.gain1, e.off1)
  | 1 => (e.gain2, e.off2)
  | _ => (e.gain4, e.off4)

/-- 1 ÷ γ as FP32: 1, 2 or 4. -/
def invGain (g : Nat) : F32 := F32.ofInt ((2 : Int) ^ g)

/-- The value of a physical column after step 5 of one read. `subs` lists, per sub-phase in drive order, the phase, the weir
gain, the drive sum and the code; `k` and `offEnc` are those of R106; `g8` is 8 × G, `invG` 1 ÷ G. -/
def columnValue (e : CorrEntry) (k : Nat) (offEnc : Bool) (g8 invG : F32) (subs : List (Nat × Nat × Int × Int)) : F32 :=
  subs.foldl (fun v x =>
    let (p, g, d, code) := x
    let (gain, off) := entryAt e g
    let y := F32.mul (F32.sub (F32.ofInt code) (F32.ofF16 off)) (F32.ofF16 gain)
    let y := F32.mul y (invGain g)
    let o := if offEnc then F32.mul g8 (F32.ofInt d) else F32.mul (F32.mul 0 g8) (F32.ofInt d)
    let y := F32.div (F32.sub y o) (F32.ofInt k)
    let y := F32.mul y invG
    F32.add v (F32.mul (F32.ofInt ((4 : Int) ^ p)) y)) 0

/-- What the pipeline needs of one read of one array. -/
structure ReadIn where
  f : EvalF
  s : Nat
  p : Nat
  ev : EvalArr
  g : F32
  invG : F32
  codes : Array Byte
  base : Nat
  deriving Repr

/-- The sub-phases of a physical column in one read: phase, weir gain, drive sum, code. -/
def ReadIn.subs (r : ReadIn) (col : Nat) : List (Nat × Nat × Int × Int) :=
  ((r.ev.gains.zip r.ev.dsums).zipIdx).map (fun x =>
    (x.2 / r.s, x.1.1, x.1.2, signed 8 ((r.codes.getD (r.base + x.2 * 528 + col) 0).toNat)))

/-- The physical column that serves a logical one: itself, or the spare that the steering switches to (R40, R41). -/
def steered (m : SMap Nat) (col : Nat) : Nat := if SMap.get m 0 col = 0 then col else SMap.get m 0 col

/-- The exact sum of a column (R125). -/
def exactSum (w q : List Int) : Int := (w.zipWith (fun a b => a * b) q).sum

/-- v of a physical column after step 5, without substitution; `high` says that it is the high column of a pair. -/
def ReadIn.analogue (r : ReadIn) (ph : Nat) (high : Bool) : F32 :=
  let pair := isPair r.f.ww
  columnValue (SMap.get r.ev.corr corrDefault ph) (if pair then 1 else stepK r.f.ww) (!pair || high)
    (F32.mul (F32.ofInt 8) r.g) r.invG (r.subs ph)

/-- v of the physical column that serves logical column `col`: step 5, or the exact sum where the column is substituted
(R110). -/
def ReadIn.value (r : ReadIn) (col : Nat) : F32 :=
  let ph := steered r.ev.steer col
  match r.ev.subst.find? (fun u => u.1 == ph) with
  | some u => F32.ofInt (exactSum u.2 r.ev.q)
  | none => r.analogue ph (col % 2 == 0)

/-- The outlier sum of a logical output (R117), in list order. -/
def outlierSum (pair : Bool) (outs : List Outlier) (q : List Int) (j : Nat) : F32 :=
  (outs.filter (fun o => (if pair then outlierCol o / 2 else outlierCol o) == j)).foldl
    (fun a o => F32.add a (F32.mul (F32.of (Fmt.e4m3.decode o.value.toNat)) (F32.ofInt (q.getD o.row 0)))) 0

/-- Steps 6 to 8 for a logical output of one read (R91). -/
def ReadIn.output (r : ReadIn) (j : Nat) : F32 :=
  if r.ev.lost || r.ev.badList then F32.nan
  else
    let pair := isPair r.f.ww
    let col := if pair then 2 * j else j
    let v := if pair then F32.add (F32.mul (F32.ofInt 16) (r.value col)) (r.value (col + 1)) else r.value col
    let v := F32.add v (outlierSum pair r.ev.outliers r.ev.q j)
    let ws := (SMap.get r.ev.corr corrDefault (steered r.ev.steer col)).wscale
    F32.mul (F32.mul (F32.ofF16 ws) (F32.ofF16 r.ev.sa)) v

/-- FP32 one half. -/
def F32.half : F32 := 0x3F000000

/-- The reads of array `n` of an evaluation with the gain G and 1 ÷ G: one, or two with double-read averaging (R108). -/
def readsOf (g invG : F32) (e : EvalIn) (a : EvalArr) (codes : Array Byte) (n : Nat) : List ReadIn :=
  let reads := if e.f.dr then 2 else 1
  (List.range reads).map (fun r =>
    { f := e.f, s := e.s, p := e.p, ev := a, g := g, invG := invG, codes := codes, base := (n * reads + r) * (e.p * e.s) * 528 })

/-- The mean of two reads, or the one read (step 9; R127). -/
def meanRead (xs : List F32) : F32 :=
  match xs with
  | [a] => a
  | [a, b] => F32.mul (F32.add a b) F32.half
  | _ => F32.nan

/-- The outputs of one array of an evaluation. -/
def arrayOutputs (rs : List ReadIn) (n : Nat) : List F32 :=
  (List.range n).map (fun j => meanRead (rs.map (fun r => r.output j)))

/-! ### Checkers (R125 to R128, R136) -/

/-- Whether a site's checker serves (R128): the site is enabled, not fenced, and its checker is not. -/
def State.checkerOk (s : State) (site : Nat) : Bool :=
  s.enabled site && s.rf Reg.RTR_FENCE site 0 1 0 == 0 && s.rf Reg.SLU_STATE site 0 1 0 != 1

/-- The peer of a core as the last boundary computed it. -/
def State.peer (s : State) (site : Nat) : Option Nat :=
  if s.rf Reg.SLU_PEER site 0 31 31 = 1 then some (s.rf Reg.SLU_PEER site 0 9 0) else none

/-- σ_V (R126). -/
def sigmaV (e : CorrEntry) (k : Nat) (invG : F32) (gains : List Nat) (s : Nat) (dr : Bool) : F32 :=
  let var := gains.zipIdx.foldl (fun v x =>
    let t := F32.mul (F32.ofInt ((4 : Int) ^ (x.2 / s))) (F32.ofF16 e.sigma)
    let t := F32.mul t (F32.ofF16 (entryAt e x.1).1)
    let t := F32.mul t (invGain x.1)
    let t := F32.div (F32.mul t invG) (F32.ofInt k)
    F32.add v (F32.mul t t)) 0
  F32.sqrt (if dr then F32.mul var F32.half else var)

/-- |x|. -/
def F32.abs (x : F32) : F32 := F32.of (Num.abs (F32.num x))

/-- The tolerance T of a column (R126). -/
def State.tolerance (s : State) (site : Nat) (sv : F32) (exact : Int) : F32 :=
  let kappa := F32.div (F32.ofInt (bitsOf (s.core site).auditCtl 23 16)) (F32.ofInt 16)
  let eps := F32.div F32.one (F32.ofInt ((2 : Int) ^ (bitsOf (s.core site).auditCtl 28 24)))
  F32.add (F32.mul kappa sv) (F32.mul eps (F32.abs (F32.ofInt exact)))

/-- Whether a value lies outside T of an exact sum (R127); a difference that is NaN lies outside (notes/assumptions/35.md). -/
def outside (v : F32) (exact : Int) (tol : F32) : Bool :=
  let d := F32.abs (F32.sub v (F32.ofInt exact))
  F32.isNan d || Num.lt (F32.num tol) (F32.num d)

/-- The change of v for a one-LSB code offset in every sub-phase (R437). -/
def sensitivity (e : CorrEntry) (k : Nat) (invG : F32) (gains : List Nat) (s : Nat) : F32 :=
  gains.zipIdx.foldl (fun v x =>
    F32.add v (F32.mul (F32.ofInt ((4 : Int) ^ (x.2 / s)))
      (F32.mul (F32.div (F32.mul (F32.ofF16 (entryAt e x.1).1) (invGain x.1)) (F32.ofInt k)) invG))) 0

/-- Adds an agreeing audit to a column's statistics while they are enabled (R437). -/
def State.auditStats (s : State) (site a col : Nat) (v : F32) (exact : Int) (m : F32) : State :=
  if s.rf Reg.CAL_STATS_CTL 0 0 0 0 = 1 then
    let e := Num.int exact
    let r := Num.add (F32.num v) (Num.neg e)
    s.updCore site (fun c =>
      let x := c.arr a
      c.setArr a { x with stats := SMap.upd x.stats statsDefault col (fun (t : ColStats) =>
        { n := t.n + 1, r := Num.add t.r r, e := Num.add t.e e, re := Num.add t.re (Num.mul r e),
          ee := Num.add t.ee (Num.mul e e), rr := Num.add t.rr (Num.mul r r), m := Num.add t.m (F32.num m) }) })
  else s

/-- Whether the pending arbitrations of a core show in `SLU_STATE.RESOLVING` (R139). -/
def State.showResolving (s : State) (site : Nat) : State :=
  let l := (s.core site).arbs
  s.setRf Reg.SLU_STATE site 0 9 8 (if l.isEmpty then 0 else if l.any (fun a => a.carried != 0) then 2 else 1)

/-! ### The audit of one array of an evaluation -/

/-- Audits the drawn column of an array (R125 to R127): agreeing columns feed the statistics, disagreeing ones go into one
arbitration. An audit of a pair counts once in `SLU_AUDITS` (notes/assumptions/35.md). `checker` is the peer where the core's own checker
is fenced; `delta` is the error of a defective checker. -/
def State.auditArray (s : State) (site : Nat) (e : EvalIn) (rs : List ReadIn) (codes : List Byte) (d : Draw) (t : Tile)
    (checker : Option Nat) (delta : Int) : State :=
  match rs with
  | [] => s
  | r :: _ =>
    let a := r.ev.phys
    let pair := isPair e.f.ww
    let cols := if pair then [d.col, d.col + 1] else [d.col]
    let k := if pair then 1 else stepK e.f.ww
    let judged := cols.map (fun col =>
      let ph := steered r.ev.steer col
      let en := SMap.get r.ev.corr corrDefault ph
      let w := masterColumn t pair col
      let c1 := exactSum w r.ev.q + delta
      let v := meanRead (rs.map (fun x => x.value col))
      let tol := s.tolerance site (sigmaV en k r.invG r.ev.gains r.s e.f.dr) c1
      ((⟨ph, col, v, c1, tol, w, masterWeights t pair col⟩ : ArbCol), sensitivity en k r.invG r.ev.gains r.s))
    let bad := judged.filter (fun x => outside x.1.a x.1.c1 x.1.tol)
    let good := judged.filter (fun x => !outside x.1.a x.1.c1 x.1.tol)
    let s := s.wide Reg.SLU_AUDITS site 0 1
    let s := match checker with
      | some p => s.wide Reg.SLU_PEER_AUDITS p 0 1
      | none => s
    let s := good.foldl (fun s x => s.auditStats site a x.1.phys x.1.a x.1.c1 x.2) s
    let s := s.updCore site (fun c => c.setArr a { c.arr a with draw := none, owed := false })
    if bad.isEmpty then s.drawAudit site a pair
    else
      let arb : Arb :=
        { arr := a, cols := bad.map (fun x => x.1), ev := r.ev, f := e.f, s := e.s, p := e.p, codes := codes,
          evalNo := ((s.core site).arr a).evals, lockage := s.reg Reg.FLK_LOCKAGE 0 0, invG := r.invG, replaced := false, rep := none,
          byPeer := checker, carried := 0, starved := false, running := false, checker2 := none, c2 := [] }
      let s := s.err Reg.SLU_DISAGREE site 0 bad.length
      let s := s.updCore site (fun c =>
        { c.setArr a { c.arr a with suspended := true } with arbs := c.arbs ++ [arb] })
      s.showResolving site

/-- Counts a completed evaluation of an array and audits it when an audit is due (R122, R124, R128, R132, R136). Where the array holds
no usable tile there is no master column to arrive, and the audit moves on under R124 (notes/assumptions/35.md). An array out of service
keeps no count (R346). -/
def State.auditDue (s : State) (site : Nat) (e : EvalIn) (rs : List ReadIn) (codes : List Byte) (delta : Int) (a : Nat) : State :=
  let c := s.core site
  let r := c.arr a
  let n := (r.evals + 1) % 2 ^ 64
  let out := s.streamed r.holds
  let s := if out then s else s.setCore site (c.setArr a { r with evals := n })
  let ctl := bitsOf c.auditCtl
  let hit := n % 2 ^ ctl 12 8 == 0
  if out || ctl 0 0 = 0 then s
  else if r.suspended then
    if hit then s.updCore site (fun c => c.setArr a { c.arr a with owed := true }) else s
  else if !(hit || r.owed) then s
  else
    match s.peer site with
    | none => s
    | some p =>
      let own := s.rf Reg.SLU_STATE site 0 1 0 != 1
      let late := (s.err Reg.SLU_AUDIT_LATE site 0 1).updCore site (fun c => c.setArr a { c.arr a with owed := true })
      if !s.checkerOk p then late
      else
        match r.draw, s.tileOf (match rs with | x :: _ => (if x.ev.lost then Holds.none else x.ev.holds) | [] => Holds.none) with
        | some d, some t =>
          if d.arrived && !d.poisoned then s.auditArray site e rs codes d t (if own then none else some p) delta else late
        | _, _ => late

/-- Delivers an evaluation: each array's outputs accumulate in ascending logical array order (R148, R198). -/
def State.deliverEval (s : State) (site : Nat) (e : EvalIn) (outs : List (List F32)) : State :=
  let pair := isPair e.f.ww
  let n := if pair then 256 else 512
  let first := if pair && e.f.half then 256 else 0
  let c := s.core site
  let (ps, ovf) := outs.foldl (fun a ys => let (ps, k) := accumulateAll a.1 ys
    (ps, a.2 + k)) (c.entries e.tile first n, 0)
  (s.setCore site (c.setEntries e.tile first ps)).accOvf ovf

/-- `SLUICE_CORRECTION`: the codes of the oldest evaluation in flight arrive (R47, R48, R111), and what has waited for it in the array
unit's queue starts. They lie in drive order: array by array, read by read, sub-phase by sub-phase, 528 physical columns each; a missing
code reads 0. -/
def execSluiceCorrection (site : Nat) (codes : List Byte) (checkDelta : Int) (s : State) : Out :=
  let c := s.core site
  match c.evals with
  | [] => .next s
  | e :: rest =>
    let arr := codes.toArray
    let reads := e.arrays.zipIdx.map (fun x =>
      (x.1, readsOf (c.gDrift x.1.phys) (BitVec.ofNat 32 (s.reg Reg.SLU_INV_Ga site x.1.phys)) e x.1 arr x.2, x.2))
    let n := if isPair e.f.ww then 256 else 512
    let s := s.setCore site { c with evals := rest }
    let s := s.deliverEval site e (reads.map (fun x => arrayOutputs x.2.1 n))
    let size := (if e.f.dr then 2 else 1) * (e.p * e.s) * 528
    let s := reads.foldl (fun s x => s.auditDue site e x.2.1 ((codes.drop (x.2.2 * size)).take size) checkDelta x.1.phys) s
    finish ((s.startArrays site 8).settleBarrier site)

/-- Whether the master weights of the tile that an array holds could not be reloaded (R363). -/
def State.masterLost (s : State) (h : Holds) : Bool := (s.tileNo h).any (fun x => (s.gens.getD x.1 genReset).noMaster.contains x.2)

/-- `MASTER_COLUMN_ARRIVAL`: the master column drawn for an array arrives; poisoned, it is fetched again after the loader's
reload, and the audit moves on (R123, R124, R361). One that could not be reloaded does not arrive (R363). -/
def execMasterColumnArrival (site arr : Nat) (poisoned : Bool) (s : State) : Out :=
  let c := s.core site
  match (c.arr arr).draw with
  | none => .next s
  | some d =>
    if s.masterLost (c.arr arr).holds then .next s
    else finish ((s.setCore site (c.setArr arr { c.arr arr with draw := some { d with arrived := true, poisoned := poisoned } })).consumed
      poisoned)

/-! ### Arbitration (R129 to R131) -/

/-- The checker that must compute C2 (R130): the core's peer, or the peer's own peer for an audit made by the peer. -/
def State.secondChecker (s : State) (site : Nat) (a : Arb) : Option Nat :=
  match (match a.byPeer with | some p => s.peer p | none => s.peer site) with
  | some p => if s.checkerOk p then some p else none
  | none => none

/-- Replaces the first arbitration that `sel` picks. -/
def Core.updArb (c : Core) (sel : Arb → Bool) (f : Arb → Arb) : Core :=
  match c.arbs.findIdx? sel with
  | some n => { c with arbs := c.arbs.modify n f }
  | none => c

/-- `ARBITRATION_START`: in the resolution window, with 2,500 ns of it left, the oldest pending arbitration starts when a
checker for C2 qualifies; the repeat evaluation takes the table, G and 1 ÷ G of its own start (R107, R114) and counts in the gain counters
of its array and nowhere else (R58, R129). An array that has lost the audited tile, or is filling, repeats nothing (R131). -/
def execArbitrationStart (site : Nat) (s : State) : Out :=
  let c := s.core site
  if !c.window || c.arbs.any (fun a => a.running) then .next s
  else
    match c.arbs.find? (fun a => (s.secondChecker site a).isSome) with
    | none => .next s
    | some a =>
      let ran := !a.replaced && (c.arr a.arr).fill.isNone && (c.arr a.arr).holds == a.ev.holds
      let r := (c.evalStart a.ev, c.gDrift a.arr, (BitVec.ofNat 32 (s.reg Reg.SLU_INV_Ga site a.arr) : F32))
      let s := s.setCore site (c.updArb (fun b => b == a) (fun b =>
        { b with running := true, checker2 := s.secondChecker site a, c2 := [], rep := if ran then some r else none }))
      .next (if ran then s.countGains site a.ev (if a.f.dr then 2 else 1) else s)

/-- `PEER_CHECK`: the checker of the running arbitration computes C2 from the retained operands and its own fetch of the master
column; a poisoned fetch ends the attempt, which the next window repeats. The check counts once in `SLU_PEER_AUDITS`, for a pair too
(notes/assumptions/35.md). -/
def execPeerCheck (site : Nat) (poisoned : Bool) (checkDelta : Int) (s : State) : Out :=
  let c := s.core site
  match c.arbs.find? (fun a => a.running && a.c2.isEmpty) with
  | none => .next s
  | some a =>
    if poisoned then
      finish ((s.setCore site (c.updArb (fun b => b == a) (fun b => { b with running := false, checker2 := none }))).consumed true)
    else
      let s := s.setCore site (c.updArb (fun b => b == a) (fun b =>
        { b with c2 := a.cols.map (fun x => exactSum x.master a.ev.q + checkDelta) }))
      .next (match a.checker2 with
        | some p => s.wide Reg.SLU_PEER_AUDITS p 0 1
        | none => s)

/-- *Arbitration verdicts*. -/
inductive Verdict where
  | transient
  | permanent
  | checker
  | suspect
  deriving DecidableEq, Repr

/-- The verdict on a column (R130, R131): `rep` is A′ where a repeat ran. -/
def verdictOf (x : ArbCol) (c2 : Int) (rep : Option F32) : Verdict :=
  match rep with
  | none => if x.c1 = c2 then .transient else .checker
  | some v =>
    if x.c1 = c2 then (if outside v c2 x.tol then .permanent else .transient)
    else if outside v c2 x.tol then .suspect else .checker

/-- Two's complement in `n` bytes. -/
def intLE (n : Nat) (v : Int) : List Byte := toLE n (v % (2 : Int) ^ (8 * n)).toNat

/-- A list cut or filled with zeros to `n` bytes. -/
def padTo (n : Nat) (bs : List Byte) : List Byte := bs.take n ++ List.replicate (n - bs.length) 0

/-- A correction entry in its 16 bytes (R112). -/
def entryLE (e : CorrEntry) : List Byte :=
  [e.gain1, e.gain2, e.gain4, e.off1, e.off2, e.off4, e.wscale, e.sigma].flatMap (fun h => toLE 2 h.toNat)

/-- The codes of one physical column over the sub-phases of an array's codes. -/
def codesOf (codes : List Byte) (col n : Nat) : List Byte :=
  let a := codes.toArray
  (List.range n).map (fun i => a.getD (528 * i + col) 0)

/-- A master column in the record: packed INT4 followed by zeros at W1 to W4, otherwise the INT8 weights of the pair (R123). -/
def masterLE (pair : Bool) (w : List Int) : List Byte :=
  if pair then w.map byteOf
  else padTo 1024 ((chunks 2 w 512).map (fun p => BitVec.ofInt 8 (p.getD 0 0 % 16 + 16 * (p.getD 1 0 % 16))))

/-- *Audit capture record* (R138). The width bytes hold the codes n − 1, lockage, 1 ÷ G and table entry are those of the audited
evaluation, and where no repeat ran its codes are those that the verdict brings, which the spec leaves open (notes/assumptions/35.md). -/
def auditRecord (site : Nat) (a : Arb) (x : ArbCol) (v : Verdict) (rep : Option F32) (c2 : Int) (codes2 : List Byte) : List Byte :=
  let reads := if a.f.dr then 2 else 1
  let n := reads * a.p * a.s
  let vc := match v with
    | .transient => 0
    | .permanent => 1
    | .checker => 2
    | .suspect => 3
  toLE 2 site ++ toLE 1 a.arr ++ toLE 1 vc ++ toLE 2 x.phys ++ toLE 2 x.col ++ toLE 8 a.lockage ++ toLE 8 a.evalNo ++
  toLE 1 a.f.ltag.toNat ++ toLE 1 a.f.ww.toNat ++ toLE 1 a.f.aw.toNat ++
  toLE 1 (a.s + 16 * (a.p - 1) + 64 * (if a.f.dr then 1 else 0)) ++
  toLE 4 x.a.toNat ++ toLE 4 (rep.getD F32.nan).toNat ++ toLE 4 (F32.ofInt x.c1).toNat ++ toLE 4 (F32.ofInt c2).toNat ++
  toLE 4 x.tol.toNat ++ toLE 4 a.invG.toNat ++ toLE 4 (a.ev.gains.zipIdx.foldl (fun w g => w + g.1 * 4 ^ g.2) 0) ++
  entryLE (SMap.get a.ev.corr corrDefault x.phys) ++ padTo 32 (a.ev.dsums.flatMap (intLE 2)) ++
  padTo 32 (codesOf a.codes x.phys n) ++ padTo 32 (codesOf codes2 x.phys n) ++ a.ev.q.map byteOf ++
  masterLE (isPair a.f.ww) x.weights

/-- A `PERMANENT` verdict (R133, R135): the column takes a free substitution slot, and its retirement is requested. -/
def State.substitute (s : State) (site : Nat) (a : Arb) (x : ArbCol) : State :=
  let c := s.core site
  let s := match (List.range 4).find? (fun n => !c.substs.any (fun u => u.slot == n)) with
    | some n => s.setCore site { c with
        substs := c.substs ++ [(⟨n, a.arr, x.phys, x.col, x.master⟩ : Subst)] }
    | none => (s.raise 0x1B site).err Reg.SLU_SUBST_FULL site 0 1
  s.requestRetire site a.arr false x.col

/-- Fences a site's checker (R136): its audits go to its peer, and arbitrations that it serves are abandoned for the window
(R130). -/
def State.fenceChecker (s : State) (site : Nat) : State :=
  let s := s.setRf Reg.SLU_STATE site 0 1 0 1
  let s := s.setRf Reg.SLU_STATE site 0 2 2 (if (s.peer site).isSome then 1 else 0)
  { s with cores := s.cores.map (fun kc =>
      (kc.1, { kc.2 with arbs := kc.2.arbs.map (fun (b : Arb) =>
        if b.running ∧ b.checker2 = some site then b.abandon else b) })) }

/-- Carries out the verdict on one column: counters, fault source, capture record, and the verdict's outcome. The unit of the source and
the counter are the audited core's, also where the checker that is fenced is its peer's (notes/assumptions/35.md). -/
def State.applyVerdict (s : State) (site : Nat) (a : Arb) (x : ArbCol) (c2 : Int) (rep : Option F32) (codes2 : List Byte) : State :=
  let v := verdictOf x c2 rep
  let r := auditRecord site a x v rep c2 codes2
  match v with
  | .transient => ((s.err Reg.SLU_TRANSIENT site 0 1).raise 0x18 site).captureAudit 0x18 site r
  | .permanent =>
    (((s.err Reg.SLU_PERMANENT site 0 1).raise 0x19 site).captureAudit 0x19 site r).substitute site a x
  | _ =>
    let s := (((s.err Reg.SLU_CHECKER site 0 1).raise 0x1A site).captureAudit 0x1A site r).fenceChecker (a.byPeer.getD site)
    if v = .suspect then
      s.updCore site (fun (c : Core) => c.setArr a.arr ({ c.arr a.arr with
        draw := some ⟨if isPair a.f.ww then x.col / 2 * 2 else x.col, true, false⟩, owed := true } : Arr))
    else s

/-- `ARBITRATION_VERDICT`: the repeat's codes and C2 are in; every column gets its verdict, and audits of the array resume
(R130 to R132). -/
def execArbitrationVerdict (site : Nat) (codes : List Byte) (s : State) : Out :=
  let c := s.core site
  match c.arbs.find? (fun a => a.running && !a.c2.isEmpty) with
  | none => .next s
  | some a =>
    let e : EvalIn := { f := a.f, s := a.s, p := a.p, tile := 0, stalled := false, since := 0, arrays := [a.ev] }
    let s := s.setCore site { c with arbs := c.arbs.filter (fun b => b != a) }
    let s := s.updCore site (fun c => c.setArr a.arr { c.arr a.arr with suspended := false })
    let s := (a.cols.zip a.c2).foldl (fun s x =>
      let rep := a.rep.map (fun y => meanRead ((readsOf y.2.1 y.2.2 e y.1 codes.toArray 0).map (fun r => r.analogue x.1.phys (x.1.col % 2 == 0))))
      s.applyVerdict site a x.1 x.2 rep codes) s
    finish ((s.drawAudit site a.arr (isPair a.f.ww)).showResolving site)

end Sys2Proof.Machine
end

