-- ==== Sys2Proof/Machine/Calib.lean ====
section
/-! DEFINITION. What a calibration of an array leaves (R431, R432, R434, R436; the paragraph after R49), and the records that the
calibration store is given (R438, R440). -/

namespace Sys2Proof.Machine

/-! ### Records (*Record types*) -/

/-- Type 1: column trims, then converter words. -/
def Arr.trimPayload (r : Arr) : List Byte :=
  (List.range 528).flatMap (fun c => toLE 2 (SMap.get r.colTrim 512 c).toNat) ++
  (List.range 9).flatMap (fun k => toLE 4 ((SMap.get r.convRef 512 k).toNat + (SMap.get r.convOff 512 k).toNat * 2 ^ 16))

/-- Type 2: the correction entries, `WSCALE` 0. -/
def Arr.corrPayload (r : Arr) : List Byte :=
  (List.range 528).flatMap (fun c => entryLE { SMap.get r.corr corrDefault c with wscale := 0 })

/-- Type 3: ν and the mean column gain at programming. -/
def driftPayload (nu : Nat) (gain : F32) : List Byte := toLE 2 nu ++ [0, 0] ++ toLE 4 gain.toNat

/-- Type 5: the effective ages of a die's arrays. -/
def State.agePayload (s : State) (die : Nat) : List Byte :=
  (List.range 272).flatMap (fun k => (List.range 19).flatMap (fun a => toLE 8 (s.reg Reg.ARY_AGEa (272 * die + k) a)))

/-- Appends a record to what a die's store commits next. -/
def State.calAppend (s : State) (die typ arr site : Nat) (payload : List Byte) : State :=
  { s with cal := s.cal.modify die (fun (c : CalStore) =>
      { c with waiting := c.waiting ++ [{ typ := typ, arr := arr, site := site, seq := c.next, payload := payload }], next := c.next + 1 }) }

/-- Appends trims, entries, ν and converter state of an array. -/
def State.calAppendArray (s : State) (site a : Nat) : State :=
  let r := (s.core site).arr a
  let d := dieOf site
  let s := (s.calAppend d 1 a site r.trimPayload).calAppend d 2 a site r.corrPayload
  let s := s.calAppend d 3 a site (driftPayload (s.rf Reg.ARY_DRIFT_COEFa site a 15 0) r.meanGain)
  s.calAppend d 4 a site (toLE 4 (s.reg Reg.ARY_CONVa site a))

/-! ### Converters and columns -/

/-- A converter has failed its check: where it works in a slot, the spare takes the slot for good, or the array fails when the spare is in use
or has failed itself (R49). The spare works once it holds a slot for good. -/
def State.convFailed (s : State) (site a k : Nat) : State :=
  let w := s.reg Reg.ARY_CONVa site a
  let fixed := bitsOf w 4 4 == 1
  if (bitsOf w 24 16).testBit k then s
  else
    let s := s.setRf Reg.ARY_CONVa site a (16 + k) (16 + k) 1
    if k = 8 && !fixed then s
    else if !fixed && !(bitsOf w 24 16).testBit 8 then
      ((s.setRf Reg.ARY_CONVa site a 4 4 1).setRf Reg.ARY_CONVa site a 3 0 k).raise 0x11 site
    else (s.setRf Reg.ARY_STATEa site a 18 16 6).raise 0x12 site

/-- A trim code held within its range (R431). -/
def trimCode (v : Int) : BitVec 10 := BitVec.ofInt 10 (max 0 (min 1023 v))

/-- Whether a converter's trims lie within their range. -/
def convInRange (x : ConvFound) : Bool := decide (0 ≤ x.ref ∧ x.ref ≤ 1023 ∧ 0 ≤ x.off ∧ x.off ≤ 1023)

/-- The check of a converter (R434): DNL within ±0.5 LSB and trims within range. -/
def convPasses (x : ConvFound) : Bool := convInRange x && decide (x.dnl ≤ 500)

/-- Whether an array's method is SELECT (R432). -/
def State.selects (s : State) (site a : Nat) : Bool := s.rf Reg.ARY_CAL_METHOD site 0 a a == 1

/-- Step 1 of R434 on one converter: its trims, held within range. -/
def State.setConvTrims (s : State) (site a : Nat) (x : ConvFound) : State :=
  let c := s.core site
  let r := c.arr a
  s.setCore site (c.setArr a { r with
    convRef := SMap.put r.convRef 512 x.k (trimCode x.ref), convOff := SMap.put r.convOff 512 x.k (trimCode x.off) })

/-- Step 2 of R434 on one converter: one that fails its check is handled as R49 lays down, and where no spare is left for trims out of range
`CAL_TRIM_LIMIT` is raised; under SELECT the spare also replaces, while it is free, a converter whose DNL exceeds ±0.4 LSB (R432). -/
def State.judgeConv (s : State) (site a : Nat) (x : ConvFound) : State :=
  let w := s.reg Reg.ARY_CONVa site a
  let fixed := bitsOf w 4 4 == 1
  let free := !fixed && !(bitsOf w 24 16).testBit 8
  if (bitsOf w 24 16).testBit x.k || decide (9 ≤ x.k) then s
  else if !(convPasses x) then
    let s := s.convFailed site a x.k
    if !(convInRange x) && !free && (fixed || decide (x.k < 8)) then s.raise 0x79 site else s
  else if s.selects site a && decide (400 < x.dnl) && free && decide (x.k < 8) then
    ((s.setRf Reg.ARY_CONVa site a 4 4 1).setRf Reg.ARY_CONVa site a 3 0 x.k).raise 0x11 site
  else s

/-- The logical column that a physical column serves. -/
def Arr.logicalCol (r : Arr) (col : Nat) : Option Nat := (List.range 512).find? (fun l => remapped r.steer l == col)

/-- Step 3 of R434 on one physical column: its trim, held within range; a column in use whose trim would have to leave the range, or under
SELECT one whose gain error exceeds ±2 %, is replaced while a spare is free; without one it stays at the trim limit (R432). -/
def State.calColumn (s : State) (site a : Nat) (x : ColFound) : State :=
  let c := s.core site
  let r := c.arr a
  let out := decide (x.trim < 0 ∨ 1023 < x.trim)
  let s := s.setCore site (c.setArr a { r with colTrim := SMap.put r.colTrim 512 x.col (trimCode x.trim) })
  match r.logicalCol x.col with
  | none => s
  | some l =>
    let g := l / 64
    if r.retire.any (fun u => !u.isRow && u.elem == l) then s
    else if s.rf Reg.ARY_SPAREa site a (7 + 2 * g) (6 + 2 * g) < 2 then
      if out || (s.selects site a && decide (200 < x.gainErr.natAbs)) then s.requestRetire site a false l else s
    else if out then (s.requestRetire site a false l).raise 0x79 site
    else s

/-- ν refitted (R65, R434): (1 − gain now ÷ gain at programming) ÷ log10(1 + t ÷ 1 s), rounded once (notes/assumptions/29.md). -/
def refitNu (now prog : F32) (age : Nat) : F16 :=
  F16.of (Num.div (Num.add (Num.int 1) (Num.neg (Num.div (F32.num now) (F32.num prog)))) (log10Ratio (1000 + age) 1000))

/-- What the steps of R434 leave on one array. An array that holds nothing takes nominal entries; weight scales belong to the tile. -/
def State.calArray (s : State) (x : ArrayCal) : State :=
  let s := x.convs.foldl (fun s v => (s.setConvTrims x.site x.arr v).judgeConv x.site x.arr v) s
  let s := x.cols.foldl (fun s v => s.calColumn x.site x.arr v) s
  let c := s.core x.site
  let r := c.arr x.arr
  let corr := if r.holds = .none then r.corr.foldl (fun m e => SMap.put m corrDefault e.1 { corrDefault with wscale := e.2.wscale }) []
    else x.entries.foldl (fun m e => SMap.put m corrDefault e.1 { e.2 with wscale := (SMap.get m corrDefault e.1).wscale }) r.corr
  let s := s.setCore x.site (c.setArr x.arr { r with corr := corr })
  let age := s.reg Reg.ARY_AGEa x.site x.arr
  let s := if x.arr < 17 ∧ 3600000 ≤ age then
      s.setRf Reg.ARY_DRIFT_COEFa x.site x.arr 15 0 (refitNu x.meanGain r.meanGain age).toNat
    else s
  s.calAppendArray x.site x.arr

/-- Whether a calibration on command runs on a core (R433). -/
def State.calibrating (s : State) (site : Nat) : Bool :=
  s.jobs.calibrate.isSome && ((s.jobs.calScope == 1 && s.jobs.calSite == site) || s.jobs.calScope == 2 || s.jobs.calScope == 3)

/-- `CONV_HANDOVER` (R49, R436): between two evaluations of the array, the repeat of an arbitration among them, the spare converter takes over the
next group while the rotation runs; the converter relieved runs steps 1 and 2 of R434 out of service, and `relieved` is what they find. When it
passes, its trims apply and go to the store; where the spare stays in its slot, that goes to the store too. A die without a control pair calibrates
nothing (R31). -/
def execConvHandover (site arr : Nat) (relieved : ConvFound) (s : State) : Out :=
  let w := s.reg Reg.ARY_CONVa site arr
  if !s.enabled site || !s.dieWorks (dieOf site) || decide (19 ≤ arr) || s.rf Reg.ARY_CONV_ROT site 0 0 0 == 0 || bitsOf w 4 4 == 1 ||
    (bitsOf w 24 16).testBit 8 ||
      (s.core site).evals.any (fun e => e.selects arr) || (s.core site).arbs.any (fun b => b.running && b.arr == arr && b.rep.isSome) ||
      s.calibrating site then .next s
  else
    let cur := bitsOf w 3 0
    let next := if 8 ≤ cur then 0 else (cur + 1) % 8
    let x : ConvFound := { relieved with k := next }
    let s := s.setRf Reg.ARY_CONVa site arr 3 0 next
    let s := if convPasses x then
        let t := s.setConvTrims site arr x
        t.calAppend (dieOf site) 1 arr site ((t.core site).arr arr).trimPayload
      else s
    let s := s.judgeConv site arr x
    finish (if s.rf Reg.ARY_CONVa site arr 4 4 = 1 then s.calAppend (dieOf site) 4 arr site (toLE 4 (s.reg Reg.ARY_CONVa site arr)) else s)

end Sys2Proof.Machine
end

