-- ==== Sys2Proof/Machine/Transport.lean ====
section
/-! DEFINITION. The operations of the host port (chapter 13): sessions, sending streams, answers, closes, output records. Rows of
the transport stand in Machine/Host.lean. -/

namespace Sys2Proof.Machine

/-! ### Status codes (R399) -/

/-- `OK`. -/
def stOk : Nat := 0x00
/-- `E_BAD_FIELD`. -/
def stBadField : Nat := 0x01
/-- `E_RANGE`. -/
def stRange : Nat := 0x02
/-- `E_BUSY`. -/
def stBusy : Nat := 0x03
/-- `E_NO_SPARE`. -/
def stNoSpare : Nat := 0x04
/-- `E_HOLDUP_LOW`. -/
def stHoldup : Nat := 0x05
/-- `E_TEMP_WINDOW`. -/
def stTemp : Nat := 0x06
/-- `E_LIFECYCLE`. -/
def stLifecycle : Nat := 0x07
/-- `E_AUTH`. -/
def stAuth : Nat := 0x08
/-- `E_VERSION`. -/
def stVersion : Nat := 0x09
/-- `E_ADMIT_MEMORY`. -/
def stMemory : Nat := 0x0A
/-- `E_ADMIT_TIME`. -/
def stTime : Nat := 0x0B
/-- `E_LENGTH_LIMIT`. -/
def stLength : Nat := 0x0C
/-- `E_NOT_FOUND`. -/
def stNotFound : Nat := 0x0D
/-- `E_GENERATION`. -/
def stGeneration : Nat := 0x0E
/-- `E_QUOTA`. -/
def stQuota : Nat := 0x0F
/-- `E_FENCED`. -/
def stFenced : Nat := 0x10
/-- `ALREADY_COMPLETE`. -/
def stComplete : Nat := 0x11

/-! ### Streams -/

/-- The most bytes of content that one DATA message of a session carries: the MTU less header, tag and, over UDP, the IPv6 and
UDP headers. -/
def State.maxPayload (s : State) (udp : Bool) : Nat := s.portCfg 8 - 40 - (if udp then 48 else 0)

/-- Moves messages that wait for the window into it (R388): at most 1,024 unacknowledged; SEQ 0xFFFF_FFFF is never sent (R387). `mk` makes the
message of a sequence number. -/
def TxStream.fill (t : TxStream) (mk : Nat → List Byte × Bool → OutMsg) (fuel : Nat) : TxStream :=
  match fuel with
  | 0 => t
  | fuel + 1 =>
    match t.waiting with
    | [] => t
    | c :: w =>
      if t.sent.length < 1024 ∧ t.next < 0xFFFFFFFF then
        TxStream.fill { next := t.next + 1, waiting := w, sent := t.sent ++ [mk t.next c] } mk fuel
      else t

/-- Puts a message's chunks on a stream. -/
def TxStream.push (t : TxStream) (mk : Nat → List Byte × Bool → OutMsg) (size : Nat) (bs : List Byte) : TxStream :=
  let cs := if bs.isEmpty then [[]] else chunks (max 1 size) bs bs.length
  let t : TxStream := { t with waiting := t.waiting ++ cs.zipIdx.map (fun c => (c.1, decide (c.2 + 1 < cs.length))) }
  t.fill mk t.waiting.length

/-- Whether a stream needs a SEQ that is never sent (R387). -/
def TxStream.exhausted (t : TxStream) : Bool := t.next == 0xFFFFFFFF && !t.waiting.isEmpty

/-- Bytes that a stream holds unacknowledged. -/
def TxStream.held (t : TxStream) : Nat := (t.sent.map (fun m => m.bytes.length)).sum + (t.waiting.map (fun m => m.1.length)).sum

/-- Acknowledges the command stream of a session (R388): a control message, one more of the session's counter, which ends the session at its
last value (R387). -/
def State.sendAck (s : State) (n : Nat) : State :=
  match s.session n with
  | none => s
  | some y =>
    if y.ctl + 1 < 0xFFFFFFFF then (s.emit y.acking).updSession n (fun z => { z with ctl := z.ctl + 1 }) else s.closeSession n 6

/-- Sends bytes on the answer stream of a session. -/
def State.sendAnswer (s : State) (n : Nat) (bs : List Byte) : State :=
  match s.session n with
  | none => s
  | some x =>
    let t := x.ans.push (x.message false) (s.maxPayload x.udp) bs
    let s := (s.updSession n (fun y => { y with ans := t })).wide Reg.HPT_TX_MSGS 0 0 (t.sent.length - x.ans.sent.length)
    if t.exhausted then s.closeSession n 6 else s

/-- The answer to a command (R390): header, status, data; a rejection carries none and counts (`HPT_CMD_REJECT`). -/
def State.answer (s : State) (r : Reply) (status : Nat) (data : List Byte) : State :=
  let s := if status = stOk ∨ status = stComplete then s else s.err Reg.HPT_CMD_REJECT 0 0 1
  let s := s.updSession r.session (fun x => { x with unanswered := x.unanswered.erase r.tag })
  let data := if status = stOk then data else []
  s.sendAnswer r.session (toLE 2 (r.op + 0x8000) ++ toLE 2 r.tag.toNat ++ toLE 1 status ++ List.replicate 3 0 ++ toLE 4 data.length ++ data)

/-! ### Output (R397, R398) -/

/-- The output buffer of a flight session. -/
def outBuffer : Nat := 262144

/-- Sends an output message; a full buffer ends the session's output and closes it with `OVERFLOW` (R398). -/
def State.sendOutput (s : State) (n : Nat) (bs : List Byte) : State :=
  match s.session n with
  | none => s
  | some x =>
    if !x.isOpen || x.stopped then s
    else if outBuffer < x.out.held + bs.length then
      ((s.updSession n (fun y => { y with stopped := true })).err Reg.HPT_OUTPUT_OVERFLOW 0 0 1 |>.raise 0x6B devUnit).closeSession n 3
    else
      let t := x.out.push (x.message true) (s.maxPayload x.udp) bs
      let s := (s.updSession n (fun y => { y with out := t })).wide Reg.HPT_TX_MSGS 0 0 (t.sent.length - x.out.sent.length)
      if t.exhausted then s.closeSession n 6 else s

/-- *Output record* of tokens. -/
def tokenRecord (barge first lockage : Nat) (ts : List (BitVec 32)) : List Byte :=
  toLE 1 1 ++ toLE 1 ts.length ++ toLE 2 barge ++ toLE 4 first ++ toLE 4 (lockage % 2 ^ 32) ++ ts.flatMap (fun t => toLE 4 t.toNat)

/-- *Output record* of an end notice (R264). -/
def endRecord (barge length lockage status : Nat) (late : Bool) : List Byte :=
  toLE 1 2 ++ toLE 1 0 ++ toLE 2 barge ++ toLE 4 length ++ toLE 4 (lockage % 2 ^ 32) ++ toLE 1 status ++ toLE 1 (bit late) ++ toLE 2 0

end Sys2Proof.Machine
end

