-- ==== Sys2Proof/Machine/Barges.lean ====
section
/-! DEFINITION. The barge instructions, opcodes 0xF0 to 0xF6 (R220 to R222), and the output that `BRG.EMIT` hands on (R34, R272,
R273, R397). -/

namespace Sys2Proof.Machine

/-! ### Slots -/

/-- The slot that a barge instruction names (*Format B*). -/
def Core.brgSlot (c : Core) (f : BrgF) (i : Nat) : Nat :=
  if f.srcg then (c.gr f.gs.toNat).toNat else f.slot.toNat + f.sstep.toNat * i

/-- The barge of that slot; a slot above 1,023 counts as unoccupied. -/
def State.brgBarge (s : State) (site : Nat) (f : BrgF) (i : Nat) : Option Nat :=
  let n := (s.core site).brgSlot f i
  if n ≤ 1023 then s.slotBarge n else none

/-- Whether the device is the exit device of the active schedule (R265). -/
def State.isExit (s : State) : Bool := s.rf Reg.SEQ_ROLE 0 0 24 16 == s.devNo

/-- Whether the device is the entry device of the active schedule. -/
def State.isEntry (s : State) : Bool := s.rf Reg.SEQ_ROLE 0 0 8 0 == s.devNo

/-- The depth at which a barge verifies in the lockage (R280); 0 outside `DECODE`. -/
def Barge.dNow (b : Barge) : Nat := if b.state = .decode then b.runLen - 1 else 0

/-- `BRG.SLOT`. -/
def execBrgSlot (x : Issue) (f : BrgF) (s : State) : Out :=
  .next (s.issue x (fun s i =>
    let r := s.brgBarge x.site f i
    s.updCore x.site (fun c => (c.setGr f.gd.toNat (match r with
      | some n => BitVec.ofNat 64 n
      | none => BitVec.allOnes 64)).setPr f.pd.toNat r.isSome)))

/-- The value that `BRG.INFO` reads; codes 7 to 15 are illegal and never run (R223). -/
def Barge.info (b : Barge) (k : Nat) : Nat :=
  match k with
  | 0 => b.length
  | 1 => b.generation
  | 2 => b.variant
  | 3 => b.tenant
  | 4 => b.depth
  | 5 => b.prio
  | _ => b.state.code

/-- `BRG.INFO`. -/
def execBrgInfo (x : Issue) (f : BrgF) (s : State) : Out :=
  .next (s.issue x (fun s i =>
    let v := match s.brgBarge x.site f i with
      | some n => (s.barge n).info (f.x8.toNat % 16)
      | none => 0
    s.updCore x.site (fun c => c.setGr f.gd.toNat (BitVec.ofNat 64 v))))

/-! ### `BRG.VAR` (R220, R284) -/

/-- Whether a read of a variant meets poison: it can where near memory holds poison or a stack has failed; where the variant lies is
not stated, so then a free value decides (notes/assumptions/3.md). -/
def State.variantPoison (s : State) : Bool :=
  (s.poison.any (fun w => decide (8 * w < farBase)) || (List.range 8).any (fun k => s.rf Reg.MEM_STACKs_STATE k 0 2 0 == 3)) &&
  (s.free 1).getLsbD 0

/-- A read of variant `v` has met poison: its barges of the tenant end `POISONED`, and the boundary at which that commits unloads it on every
device. -/
def State.variantPoisoned (s : State) (v : Nat) : State :=
  let hit := (s.seq.barges.filter (fun b => b.2.live && b.2.variant == v && b.2.tenant == (s.variant v).tenant)).map (fun b => b.1)
  hit.foldl (fun s n => s.addCause { barge := n, status := 4, variant := v }) s

/-- α × x + v, as two FP32 operations. -/
def steer (l : VarLayer) (xs : List F32) : List F32 :=
  xs.zipIdx.map (fun x => F32.add (F32.mul l.alpha x.1) (F32.of (BF16.num (l.v.getD x.2 0))))

/-- `BRG.VAR`. -/
def execBrgVar (x : Issue) (f : BrgF) (s : State) : Out :=
  finish (s.issue x (fun s i =>
    match s.brgBarge x.site f i with
    | none => s
    | some n =>
      let v := (s.barge n).variant
      if v = 0 then s
      else
        let c := s.core x.site
        let len := 256 * (f.x12.toNat + 1)
        let t := s.consumed (c.spPoisoned f.a.toNat (4 * len))
        let put := fun (t : State) (ys : List F32) => t.updCore x.site (fun c => c.setSp f.a.toNat (ys.flatMap (fun y => toLE 4 y.toNat)))
        if s.variantPoison then
          let u := (t.nextFree.consumed true).variantPoisoned v
          put { u with freeCtr := u.freeCtr + len } ((List.range len).map (fun k => (Config.freeValue (u.freeCtr + k)).setWidth 32))
        else
          match (s.variant v).data[f.x8.toNat]? with
          | some l => put t.nextFree (steer l (f32s (c.spRead f.a.toNat (4 * len))))
          | none => t))

/-! ### `BRG.SAMP` (R175, R221) -/

/-- The cumulative sums of a list, left to right. -/
def cumul (acc : F32) (l : List F32) : List F32 :=
  match l with
  | [] => []
  | a :: t => F32.add acc a :: cumul (F32.add acc a) t

/-- The list up to and with the first candidate whose cumulative probability reaches top-p; all where none does. -/
def cutAt (topP : Num) (l : List (Nat × F32 × F32)) : List (Nat × F32 × F32) :=
  match l with
  | [] => []
  | c :: t => if !(F32.isNan c.2.2) && !(Num.lt (F32.num c.2.2) topP) then [c] else c :: cutAt topP t

/-- The first candidate whose cumulative probability exceeds u, else the last. -/
def drawAt (u : Num) (l : List (Nat × F32)) : Option Nat :=
  match l with
  | [] => none
  | [c] => some c.1
  | c :: t => if Num.lt u (F32.num c.2) then some c.1 else drawAt u t

/-- u of R221 for position `n`. -/
def sampleU (seed : BitVec 64) (n : Nat) : Num :=
  let s := seed ^^^ BitVec.ofNat 64 (n * 0x9E3779B97F4A7C15)
  let s := xorshift (if s = 0 then 1 else s)
  .fin false (s.toNat / 2 ^ 40) (-24)

/-- The token that the candidates give for a barge at position `n`; none where a kept value is NaN. -/
def sampleToken (b : Barge) (n : Nat) (cands : List (Nat × F32)) : Option Nat :=
  let t := F32.ofF16 b.temp
  if F32.isZero t then
    if cands.any (fun c => F32.isNan c.2) then none else cands.head?.map (fun c => c.1)
  else
    let kept := if b.topK = 0 then cands else cands.take b.topK
    if kept.any (fun c => F32.isNan c.2) then none
    else
      let vmax := (kept.head?.map (fun c => c.2)).getD 0
      let es := kept.map (fun c => F32.of (Num.exp (F32.num (F32.div (F32.sub c.2 vmax) t))))
      let sum := F32.sumL es
      let ps := cumul 0 (es.map (fun e => F32.div e sum))
      let stay := cutAt (F16.num b.topP) ((kept.map (fun c => c.1)).zip (es.zip ps))
      let sum' := F32.sumL (stay.map (fun c => c.2.1))
      let qs := cumul 0 (stay.map (fun c => F32.div c.2.1 sum'))
      drawAt (sampleU b.seed n) ((stay.map (fun c => c.1)).zip qs)

/-- `BRG.SAMP`: where there is no token nothing is written and the slot falls under R175. -/
def execBrgSamp (x : Issue) (f : BrgF) (s : State) : Out :=
  finish (s.issue x (fun s i =>
    match s.brgBarge x.site f i with
    | none => s
    | some m =>
      let c := s.core x.site
      let slot := c.brgSlot f i
      let b := s.barge m
      let k := f.x12.toNat + 1
      let ws := wordsOf 4 (c.spRead f.a.toNat (8 * k))
      let cands := (List.range k).map (fun j => (ws.getD (2 * j) 0, (BitVec.ofNat 32 (ws.getD (2 * j + 1) 0) : F32)))
      let tok := sampleToken b (b.length + (slot - b.runFirst)) cands
      let s := s.consumed (c.spPoisoned f.a.toNat (8 * k))
      let s : State := { s with seq := { s.seq with sampled := s.seq.sampled.filter (fun z => z.1 != slot) ++ [(slot, tok.isSome)] } }
      match tok with
      | some t => s.updCore x.site (fun c => (c.setGr f.gd.toNat (BitVec.ofNat 64 t)).setSp f.b.toNat (toLE 4 t))
      | none => s))

/-! ### `BRG.ACPT` (R222) -/

/-- a of R222: 1 + the number of leading drafts that equal the main model's tokens. -/
def accepted (toks drafts : List Nat) : Nat :=
  match toks, drafts with
  | t :: ts, d :: ds => if t = d then accepted ts ds + 1 else 1
  | _, _ => 1

/-- `BRG.ACPT`. -/
def execBrgAcpt (x : Issue) (f : BrgF) (s : State) : Out :=
  finish (s.issue x (fun s i =>
    match s.brgBarge x.site f i with
    | none => s
    | some m =>
      let c := s.core x.site
      let slot := c.brgSlot f i
      let d := (s.barge m).dNow
      let toks := wordsOf 4 (c.spRead f.a.toNat (4 * (d + 1)))
      let drafts := wordsOf 4 (c.spRead f.b.toNat (4 * d))
      let a := accepted toks drafts
      let e : AccSlot := { slot := slot, a := a, tokens := (toks.take a).map (BitVec.ofNat 32), emitted := false }
      let s := s.consumed (c.spPoisoned f.a.toNat (4 * (d + 1)) || c.spPoisoned f.b.toNat (4 * d))
      let s : State := { s with seq := { s.seq with accepts := s.seq.accepts.filter (fun z => z.slot != slot) ++ [e] } }
      s.updCore x.site (fun c => c.setGr f.gd.toNat (BitVec.ofNat 64 a))))

/-! ### Truncation and output (R272, R273, R397) -/

/-- The slots that a barge must get a token from: all of a decode run, position P − 1 of a prefill run (R175, R272). -/
def Barge.tokenSlots (b : Barge) : List Nat :=
  if b.state = .decode then (List.range b.runLen).map (fun k => b.runFirst + k)
  else if b.length < b.promptLen ∧ b.promptLen ≤ b.length + b.runLen then [b.runFirst + (b.promptLen - 1 - b.length)]
  else []

/-- Whether what `BRG.ACPT` stages for a slot is the barge's step: any slot of a decode run, that of position P − 1 of a prefill run. -/
def Barge.stepSlot (b : Barge) (slot : Nat) : Bool :=
  if b.state = .decode then decide (b.runFirst ≤ slot ∧ slot < b.runFirst + b.runLen) else b.tokenSlots.contains slot

/-- Whether some slot of a barge's step has not been sampled yet. -/
def State.unsampled (s : State) (n : Nat) : Bool := (s.barge n).tokenSlots.any (fun k => !s.seq.sampled.any (fun z => z.1 == k))

/-- Whether some slot of a barge's step yields no token (R175). -/
def State.noToken (s : State) (n : Nat) : Bool := (s.barge n).tokenSlots.any (fun k => !s.seq.sampled.contains (k, true))

/-- The position, counted from 1, of the first stop token; 0 where there is none. -/
def stopAt (stop : Nat) (ts : List (BitVec 32)) : Nat :=
  match ts.findIdx? (fun t => t.toNat == stop) with
  | some k => k + 1
  | none => 0

/-- a′ of R272 for a decode barge; a prefill barge emits its one token. 0xFF_FFFF is no stop token (*Barge entry*). -/
def Barge.truncate (b : Barge) (a : Nat) (ts : List (BitVec 32)) : Nat :=
  if b.state ≠ .decode then min a 1
  else
    let st := if b.stop = 0xFFFFFF then 0 else stopAt b.stop (ts.take a)
    let a := if st = 0 then a else min a st
    let a := if b.maxNew = 0 then a else min a (b.maxNew + b.promptLen - (b.length + 1))
    min a (1048576 - b.length)

/-- The output index of a barge's next token; 0 also for a barge that has been trimmed below its prompt (notes/assumptions/24.md). -/
def Barge.outIndex (b : Barge) : Nat := if b.state = .decode then b.length + 1 - b.promptLen else 0

/-- Counts and raises a missed deadline (R273). -/
def State.deadline (s : State) (f : RegFam) (missed : Bool) : State :=
  if missed then (s.err f 0 0 1).raise 0x48 devUnit else s

/-- Ticks of 8 ns in a number of µs. -/
def usTicks (us : Nat) : Nat := 125 * us

/-- Sends the tokens of a barge as an output record of its session, judges the deadlines and counts the tokens. -/
def State.sendTokens (s : State) (n : Nat) (ts : List (BitVec 32)) : State :=
  let b := s.barge n
  let lock := s.reg Reg.FLK_LOCKAGE 0 0
  let bytes := if b.compat then Config.vx20Tokens ([b.request.toNat, b.outIndex, lock] ++ ts.map (fun t => t.toNat))
    else tokenRecord n b.outIndex lock ts
  let s := if b.firstSent then s.deadline Reg.CNT_SEQ_ITL_MISS
      (decide (b.itl ≠ 0xFFFFFF ∧ usTicks b.itl < s.now - b.lastSent))
    else s.deadline Reg.CNT_SEQ_TTFT_MISS (decide (b.ttft ≠ 0xFFFFFFFF ∧ usTicks b.ttft < s.now - b.admitTime))
  let s := s.setBarge n { b with firstSent := true, lastSent := s.now }
  (s.wide Reg.CNT_TOKENS 0 0 ts.length).sendOutput b.session bytes

/-- Whether tokens of a barge below `n` of the same session can still come: a slot of it has not been handed on yet, or its acceptance is not
final. -/
def State.waitsBelow (s : State) (session n : Nat) : Bool :=
  s.seq.outbox.any (fun z => decide (z.1 < n) && (s.barge z.1).session == session && s.unsampled z.1) ||
  s.slots.any (fun z =>
    let m := z.2 - 1
    decide (m < n) && (s.barge m).session == session &&
      !(s.seq.accepts.any (fun e => e.emitted && SMap.get s.slots 0 e.slot == z.2)))

/-- Sends what has been handed over, in ascending barge index (R397): an entry goes once its acceptance is final (R34) and no barge below it of
its session can still come, or at `all`, the boundary. A step that yields no token sends none (R175). -/
def State.flushOutput (s : State) (all : Bool) : State :=
  let l := s.seq.outbox.mergeSort (fun a b => decide (a.1 ≤ b.1))
  let ready := fun (z : Nat × List (BitVec 32)) => all || (!s.unsampled z.1 && !(s.waitsBelow (s.barge z.1).session z.1))
  let t : State := { s with seq := { s.seq with outbox := l.filter (fun z => !ready z) } }
  (l.filter ready).foldl (fun t z => if z.2.isEmpty || s.noToken z.1 then t else t.sendTokens z.1 z.2) t

/-- `BRG.EMIT` (R220): hands on the tokens, after truncation, that `BRG.ACPT` staged for the slot; a prefill barge emits none but at position
P − 1 (R272). -/
def execBrgEmit (x : Issue) (f : BrgF) (s : State) : Out :=
  finish (s.issue x (fun s i =>
    match s.brgBarge x.site f i with
    | none => s
    | some m =>
      let slot := (s.core x.site).brgSlot f i
      match s.seq.accepts.find? (fun e => e.slot == slot && !e.emitted) with
      | none => s
      | some e =>
        let b := s.barge m
        let ts := if b.stepSlot slot then e.tokens.take (b.truncate e.a e.tokens) else []
        let seq : Seq := { s.seq with
          accepts := s.seq.accepts.map (fun z => if z.slot = slot then ({ z with emitted := true } : AccSlot) else z)
          outbox := s.seq.outbox ++ [(m, ts)] }
        ({ s with seq := seq }).flushOutput false))

end Sys2Proof.Machine
end

