-- ==== Sys2Proof/Machine/Digest.lean ====
section
/-! DEFINITION. The digests of a device's weight state (R318, R331): the bytes that are hashed, in the forms that the spec gives them
elsewhere (notes/assumptions/39.md). -/

namespace Sys2Proof.Machine

/-- Bytes of two 4-bit values each, the first in the low half (R98). -/
def nibbles (l : List Nat) (n : Nat) : List Byte := (chunks 2 l n).map (fun p => BitVec.ofNat 8 (p.getD 0 0 % 16 + 16 * (p.getD 1 0 % 16)))

/-- The master weights of a tile as the audit fetches them: a column of 512 B (INT4) for W1 to W4, of 1,024 B (INT8) for W5 to W8
(R123, *Block types*). -/
def Tile.masterBytes (t : Tile) : List Byte :=
  (List.range (if t.ww < 4 then 512 else 256)).flatMap (fun c =>
    let col := (List.range 1024).map (fun r => (Mem.get t.master (1024 * c + r)).toNat)
    if t.ww < 4 then nibbles col 512 else col.map (BitVec.ofNat 8))

/-- The target levels of a tile, 4 bits each in row order (*Block types*). -/
def Tile.levelBytes (t : Tile) : List Byte := nibbles ((List.range 524288).map (fun k => (Mem.get t.levels k).toNat)) 262144

/-- *Outlier list layout* (R115). -/
def olistOf (l : List Outlier) : List Byte :=
  if l.isEmpty then []
  else
    (List.range 8).flatMap (fun g => toLE 2 (l.filter (fun o => o.group == g)).length) ++
    l.flatMap (fun o => toLE 2 (1024 * o.col + o.row) ++ [o.value])

/-- What the loader writes as correction data of a tile: weight scales and outlier list. -/
def Tile.corrBytes (t : Tile) : List Byte :=
  (List.range (if t.ww < 4 then 512 else 256)).flatMap (fun c => toLE 2 (SMap.get t.wscale 0 c).toNat) ++ olistOf t.outliers

/-- The bytes of a seed list, each seed a 64-bit word (R208). -/
def SeedList.bytes (l : SeedList) : List Byte := l.words.flatMap (fun w => toLE 8 w.toNat)

/-- What D_W covers, in the order of R318 and in placement order. -/
def weightBytes (p : Package) : List Byte :=
  p.tiles.flatMap Tile.masterBytes ++ p.tiles.flatMap Tile.levelBytes ++ p.tiles.flatMap Tile.corrBytes ++
  p.tables.flatMap (fun n => match p.constants[n]? with
    | some c => c.2
    | none => []) ++ p.seeds.flatMap SeedList.bytes

/-- D_W of the generation that a package's contents give (R318): the contents are the slot's near-memory copy, from which its arrays were
programmed. -/
def pkgDigest (p : Package) : BitVec 256 := sm3Val (weightBytes p)

/-- The contents of a steering variant as bytes. -/
def variantBytes (l : List VarLayer) : List Byte := l.flatMap (fun x => toLE 4 x.alpha.toNat ++ x.v.flatMap (fun h => toLE 2 h.toNat))

/-- SM3 over the loaded variants in index order, each as index, generation, tenant and the digest of its contents that `dig` gives (R318,
R320). -/
def State.variantDigest (s : State) (dig : Variant → BitVec 256) : BitVec 256 :=
  sm3Val ((s.seq.variants.filter (fun v => v.2.loaded && v.1 != 0)).flatMap (fun v =>
    toLE 2 v.1 ++ toLE 1 v.2.gen ++ toLE 4 v.2.tenant ++ digestBytes (dig v.2)))

/-- D_V: over the contents as they stand. -/
def State.digestV (s : State) : BitVec 256 := s.variantDigest (fun v => sm3Val (variantBytes v.data))

/-- What D_V is compared with: over the digests taken at the loads (R320). -/
def State.refV (s : State) : BitVec 256 := s.variantDigest (fun v => v.digest)

end Sys2Proof.Machine
end

