-- ==== Sys2Proof/Machine/FrameCode.lean ====
section
/-! DEFINITION. The frame code of a flight port (R294): RS(240, 232) over GF(2^8), and the places of its codewords and lanes in a frame.
The byte of a codeword at the lowest address is the coefficient of the highest power (notes/assumptions/37.md). -/

namespace Sys2Proof.Machine

/-! ### GF(2^8) with x^8 + x^4 + x^3 + x^2 + 1 -/

/-- An element times α. -/
def gfDouble (a : Nat) : Nat := if 256 ≤ 2 * a then (2 * a).xor 0x11D else 2 * a

/-- A product. -/
def gfMul (a b : Nat) : Nat :=
  (List.range 8).foldl (fun r i => if b.testBit (7 - i) then (gfDouble r).xor a else gfDouble r) 0

/-- The inverse of an element that is not 0: its power 254 = 2 + 4 + … + 128. -/
def gfInv (a : Nat) : Nat :=
  ((List.range 7).foldl (fun (x : Nat × Nat) _ => (gfMul x.1 x.1, gfMul x.2 (gfMul x.1 x.1))) (a, 1)).2

/-- The value at x of coefficients from the highest power down, after those that gave r. -/
def gfHorner (x : Nat) (l : List Nat) (r : Nat) : Nat :=
  match l, r with
  | [], r => r
  | c :: t, 0 => gfHorner x t c
  | c :: t, r + 1 => gfHorner x t ((gfMul (r + 1) x).xor c)

/-- α^n. -/
def gfAlpha (n : Nat) : Nat := (List.range n).foldl (fun a _ => gfDouble a) 1

/-! ### Polynomials, lowest coefficient first -/

/-- A sum. -/
def polyAdd (a b : List Nat) : List Nat := (List.range (max a.length b.length)).map (fun i => (a.getD i 0).xor (b.getD i 0))

/-- A polynomial times c × x^m. -/
def polyShift (a : List Nat) (c m : Nat) : List Nat := List.replicate m 0 ++ a.map (gfMul c)

/-- The value at x. -/
def polyEval (a : List Nat) (x : Nat) : Nat := gfHorner x a.reverse 0

/-- The first `n` coefficients of a product. -/
def polyMul (a b : List Nat) (n : Nat) : List Nat :=
  (List.range n).map (fun k => (List.range (k + 1)).foldl (fun r i => r.xor (gfMul (a.getD i 0) (b.getD (k - i) 0))) 0)

/-- The formal derivative. -/
def polyDerive (a : List Nat) : List Nat := (List.range (a.length - 1)).map (fun i => if i % 2 = 0 then a.getD (i + 1) 0 else 0)

/-! ### The decoder -/

/-- The eight syndromes of a received word, highest power first. -/
def rsSyndromes (w : List Nat) : List Nat := (List.range 8).map (fun j => gfHorner (gfAlpha j) w 0)

/-- The error locator of a syndrome sequence with its length (Berlekamp and Massey): the locator, the one before its last change with the
discrepancy there and the steps since, and the length. -/
def rsLocate (syn : List Nat) : List Nat × Nat :=
  let r := (List.range 8).foldl (fun (x : List Nat × List Nat × Nat × Nat × Nat) n =>
    let (c, b, d0, m, len) := x
    let d := (List.range (len + 1)).foldl (fun r i => r.xor (gfMul (c.getD i 0) (if i ≤ n then syn.getD (n - i) 0 else 0))) 0
    if d = 0 then (c, b, d0, m + 1, len)
    else
      let c' := polyAdd c (polyShift b (gfMul d (gfInv d0)) m)
      if 2 * len ≤ n then (c', c, d, 1, n + 1 - len) else (c', b, d0, m + 1, len)) ([1], [1], 1, 1, 0)
  (r.1, r.2.2.2.2)

/-- The errors of a received word of 240 bytes as (index, value), at most 4; none where the word is not correctable. -/
def rsErrors (w : List Nat) : Option (List (Nat × Nat)) :=
  if w.all (fun b => b == 0) then some []
  else
    let syn := rsSyndromes w
    if syn.all (fun s => s == 0) then some []
    else
      let (loc, len) := rsLocate syn
      let omega := polyMul syn loc 8
      let errs := ((List.range 240).filter (fun k => polyEval loc (gfInv (gfAlpha k)) == 0)).map (fun k =>
        let x := gfInv (gfAlpha k)
        (239 - k, gfMul (gfAlpha k) (gfMul (polyEval omega x) (gfInv (polyEval (polyDerive loc) x)))))
      let fixed := errs.foldl (fun (w : List Nat) e => w.modify e.1 (fun b => b.xor e.2)) w
      if len ≤ 4 ∧ errs.length = len ∧ (rsSyndromes fixed).all (fun s => s == 0) then some errs else none

/-! ### Frames -/

/-- The places of a codeword's bytes in a frame: its 232 data bytes, those whose place b has ⌊b ÷ 8⌋ mod 16 = c, then its check bytes
(R294). -/
def codewordPlaces (c : Nat) : List Nat := (List.range 30).flatMap (fun g => (List.range 8).map (fun k => 128 * g + 8 * c + k))

/-- The working lane of a byte of a frame. -/
def laneOf (b : Nat) : Nat := b % 8

/-- The places of the bytes that a received frame has corrected; none where some codeword is uncorrectable, which makes the frame bad
(R295). -/
def frameErrors (bytes : List Byte) : Option (List Nat) :=
  ((List.range 16).mapM (fun c =>
    let places := codewordPlaces c
    (rsErrors (places.map (fun b => (bytes.getD b 0).toNat))).map (fun l => l.map (fun e => places.getD e.1 0)))).map List.flatten

/-- The bytes that a working lane carries in a frame. -/
def laneBytes (bytes : List Byte) (lane : Nat) : List Byte :=
  (List.range 480).map (fun k => bytes.getD (8 * k + lane) 0)

end Sys2Proof.Machine
end

