-- ==== Sys2Proof/Machine/Flight.lean ====
section
/-! DEFINITION. The flight (chapter 10): shapes and formation, ports and control messages, lanes, time base, the barrier with its
arrivals and releases, digest rounds. What a release does at its boundary stands in Machine/Boundary.lean. -/

namespace Sys2Proof.Machine

/-! ### Shapes (R289, R290) -/

/-- The sizes of the flight's dimensions. -/
def State.dims (s : State) : Nat × Nat × Nat :=
  let d := fun hi lo => s.rf Reg.FLK_FORM 0 0 hi lo + 1
  match s.rf Reg.FLK_FORM 0 0 1 0 with
  | 0 => (1, 1, 1)
  | 1 => (d 7 4, 1, 1)
  | 2 => (d 7 4, d 11 8, 1)
  | _ => (d 7 4, d 11 8, d 15 12)

/-- The device's coordinates, 0 in a dimension that the shape lacks. -/
def State.coords (s : State) : Nat × Nat × Nat :=
  let (dx, dy, dz) := s.dims
  (if dx = 1 then 0 else s.rf Reg.FLK_COORD 0 0 3 0, if dy = 1 then 0 else s.rf Reg.FLK_COORD 0 0 7 4,
    if dz = 1 then 0 else s.rf Reg.FLK_COORD 0 0 11 8)

/-- The number of the device at coordinates. -/
def devAt (d c : Nat × Nat × Nat) : Nat := c.1 + d.1 * (c.2.1 + d.2.1 * c.2.2)

/-- The axis and the direction of a port (*Flight shapes*). -/
def portDir (shape p : Nat) : Option (Nat × Bool) :=
  match shape with
  | 0 => none
  | 1 => if p < 3 then some (0, true) else some (0, false)
  | 2 => if p < 2 then some (0, true) else if p = 2 then some (1, true) else if p < 5 then some (0, false) else some (1, false)
  | _ => some (p % 3, decide (p < 3))

/-- One step along a dimension of size `d`. -/
def stepCoord (d c : Nat) (plus : Bool) : Nat := if plus then (c + 1) % d else (c + d - 1) % d

/-- The neighbour that a port leads to. -/
def neighbor (shape : Nat) (d c : Nat × Nat × Nat) (p : Nat) : Nat × Nat × Nat :=
  match portDir shape p with
  | some (0, b) => (stepCoord d.1 c.1 b, c.2.1, c.2.2)
  | some (1, b) => (c.1, stepCoord d.2.1 c.2.1 b, c.2.2)
  | some (_, b) => (c.1, c.2.1, stepCoord d.2.2 c.2.2 b)
  | none => c

/-- The port toward device 0 in the default tree (R323): the highest dimension first, the shorter way round, the lowest such port. -/
def defaultParent (shape : Nat) (d c : Nat × Nat × Nat) : Option Nat :=
  let find := fun (axis size x : Nat) =>
    (List.range 6).find? (fun p => portDir shape p == some (axis, decide (size < 2 * x)))
  if c.2.2 ≠ 0 then find 2 d.2.2 c.2.2
  else if c.2.1 ≠ 0 then find 1 d.2.1 c.2.1
  else if c.1 ≠ 0 then find 0 d.1 c.1
  else none

/-- Hops to device 0 in the default tree. -/
def defaultDepth (d c : Nat × Nat × Nat) : Nat :=
  min c.1 (d.1 - c.1) + min c.2.1 (d.2.1 - c.2.1) + min c.2.2 (d.2.2 - c.2.2)

/-- The device's place in the default tree. -/
def State.defaultTree (s : State) : Tree :=
  let shape := s.rf Reg.FLK_FORM 0 0 1 0
  let d := s.dims
  let c := s.coords
  { root := 0, depth := defaultDepth d c, parent := defaultParent shape d c
    children := if shape = 0 then [] else
      (List.range 6).filter (fun p => defaultParent shape d (neighbor shape d c p) == some ((p + 3) % 6)) }

/-- The coordinates of a device number. -/
def devCoords (d : Nat × Nat × Nat) (n : Nat) : Nat × Nat × Nat := (n % d.1, n / d.1 % d.2.1, n / (d.1 * d.2.1))

/-- The device and the port at the other end of a flight port. -/
def State.linkEnd (s : State) (dev port : Nat) : Nat × Nat :=
  (devAt s.dims (neighbor (s.rf Reg.FLK_FORM 0 0 1 0) s.dims (devCoords s.dims dev) port), (port + 3) % 6)

/-! ### Ports and control messages (R294 to R299, R306) -/

/-- The state of the flight: 0 `UNFORMED`, 1 `FORMING`, 2 `FORMED`, 3 `HALTED`. -/
def State.flightState (s : State) : Nat := s.rf Reg.FLK_FLIGHT_STATE 0 0 2 0

/-- Whether lockages run: in a device that is formed or halted, but not in one that has halted alone after it lost the barrier (R315,
R316). -/
def State.inFlight (s : State) : Bool := s.flightState == 2 || (s.flightState == 3 && !s.flt.lost)

/-- Whether a port is `UP`. -/
def State.portUp (s : State) (p : Nat) : Bool := s.rf Reg.FLK_PORTp_STATE p 0 2 0 == 2

/-- A port's state. -/
def State.port (s : State) (p : Nat) : Port := s.flt.ports.getD p portReset

/-- Sets a port's state. -/
def State.setPort (s : State) (p : Nat) (x : Port) : State := { s with flt := { s.flt with ports := s.flt.ports.set p x } }

/-- Whether a control message is one that the flight key protects (R478): session keys, commands with their prompts, acceptance results. -/
def sealedBody (b : CtlBody) : Bool :=
  match b with
  | .session _ => true
  | .commands _ => true
  | .acceptance _ => true
  | _ => false

/-- Sends a control message out of a port that is `UP` (R296), sealed under the flight key where it is one that R478 protects. -/
def State.sendPort (s : State) (p : Nat) (b : CtlBody) : State :=
  if s.portUp p then
    let x := s.port p
    let m : CtlMsg := { seq := x.next, ack := x.lastRx, key := if sealedBody b then s.flt.key else none, body := b }
    s.setPort p { x with next := x.next + 1, waiting := x.waiting ++ [{ msg := m, resends := 0 }] }
  else s

/-- Sends a message down the barrier tree. -/
def State.sendDown (s : State) (b : CtlBody) : State := s.flt.tree.children.foldl (fun s p => s.sendPort p b) s

/-- Starts a flight broadcast: up to the root, or from the root down (R306). -/
def State.broadcast (s : State) (b : CtlBody) : State :=
  match s.flt.tree.parent with
  | some p => s.sendPort p b
  | none => s.sendDown b

/-- A port enters `FAILED` (R296, R299). -/
def State.failPort (s : State) (p : Nat) : State :=
  if s.rf Reg.FLK_PORTp_STATE p 0 2 0 = 3 then s else (s.setRf Reg.FLK_PORTp_STATE p 0 2 0 3).raise 0x31 p

/-- Whether a table's routes or reduction nodes lead to a flight port. -/
def tableUses (v : VariantTables) (p : Nat) : Bool :=
  v.routes.any (fun r => portUnit r.site r.port == some (.flight p)) ||
  v.red.any (fun n => (n.parent :: n.order).any (fun q => portHop n.site q == some (.flight p)))

/-- Whether the active schedule uses a port: in a slot schedule, in the barrier tree, in a route table or in a reduction table (R299). -/
def State.portUsed (s : State) (p : Nat) : Bool :=
  match s.sched.active with
  | some im => im.slots.any (fun e => e.port == p) || s.flt.tree.parent == some p || s.flt.tree.children.contains p ||
      tableUses im.normal p || tableUses im.wide p
  | none => false

/-- Whether the device votes HALT (*Halt requests*). -/
def State.votesHalt (s : State) : Bool :=
  s.rf Reg.FLK_HALT_REQ 0 0 0 0 == 1 || s.flt.syncLost || s.holding 5 || s.shut ||
  (List.range 6).any (fun p => s.rf Reg.FLK_PORTp_STATE p 0 2 0 == 3 && s.portUsed p)

/-! ### The barrier (R309 to R311) -/

/-- End causes that an arrival or a release carries (*Version levels*). -/
def State.causeLimit (s : State) : Nat := if s.rf Reg.FLK_VER_FLIGHT 0 0 15 8 = 1 then 8 else 32

/-- The flight port by which a node's tree leaves the device, its climb within the device followed; `fuel` bounds the nodes. -/
def climbOut (red : List RedNode) (fuel : Nat) (n : RedNode) : Option Nat :=
  match fuel with
  | 0 => none
  | fuel + 1 =>
    match portHop n.site n.parent with
    | some (.flight p) => some p
    | some (.router x _) => (red.find? (fun m => m.site == x && m.tree == n.tree)).bind (fun m => climbOut red fuel m)
    | none => none

/-- The nodes of a reduction table that face a flight port. -/
def facesOf (wide : Bool) (red : List RedNode) : List FaceNode :=
  red.flatMap (fun n => (n.parent :: n.order).filterMap (fun q =>
    match portHop n.site q with
    | some (.flight p) => some { wide := wide, tree := n.tree, port := p, up := q == n.parent, leaves := climbOut red (nSites + 1) n }
    | _ => none))

/-- The roots of a reduction table's trees. -/
def rootsOf (wide : Bool) (red : List RedNode) : List (Bool × Nat) := (red.filter (fun n => n.parent == 0)).map (fun n => (wide, n.tree))

/-- Whether a tree's way toward its root ends, from a node that faces a flight port toward its parent on, over the devices' reports. -/
def State.climbEnds (s : State) (l : List DevReport) (fuel : Nat) (dev : Nat) (f : FaceNode) : Bool :=
  match fuel with
  | 0 => false
  | fuel + 1 =>
    let e := s.linkEnd dev f.port
    let beyond := (l.filter (fun r => r.dev == e.1)).flatMap (fun r => r.faces)
    match beyond.find? (fun g => g.wide == f.wide && g.tree == f.tree && g.port == e.2 && !g.up) with
    | none => true
    | some g =>
      match g.leaves with
      | none => true
      | some p => s.climbEnds l fuel e.1 { f with port := p }

/-- The conditions of R152 that span devices, over the devices' reports (R172): one root to a tree, no cycle, and nodes that face one another
across a flight port agree. A flight port is attached to two routers (R30) and a report names none, so a node that faces one across a port may
stand in either (the model's choice, notes/assumptions/38.md). -/
def State.crossOk (s : State) (l : List DevReport) : Bool :=
  decide (l.flatMap (fun r => r.roots)).Nodup &&
  l.all (fun r => r.faces.all (fun f =>
    let e := s.linkEnd r.dev f.port
    (l.filter (fun q => q.dev == e.1)).any (fun q =>
      q.faces.any (fun g => g.wide == f.wide && g.tree == f.tree && g.port == e.2 && g.up != f.up)) &&
    (!f.up || s.climbEnds l ((l.map (fun q => q.faces.length)).sum + 1) r.dev f)))

/-- The generations that the slots hold in `STAGED`, `PROGRAMMING` or `HELD`. -/
def State.slotGens (s : State) : List Nat :=
  (List.range 2).filterMap (fun n =>
    let w := s.reg Reg.WGT_GEN_SLOTn 0 n
    if 2 ≤ bitsOf w 27 24 then some (bitsOf w 7 0) else none)

/-- Whether a resident tile of the held generation has no array that serves it (R339): the array of its place does not hold it, and the active
schedule does not stream it (R346). -/
def State.heldUnplaced (s : State) : Bool :=
  match s.heldSlot with
  | none => false
  | some n => (s.placements n).any (fun e => ((s.core e.1).arr e.2.1).holds != .gen n e.2.2.1 && !s.streamed (.gen n e.2.2.1))

/-- What the device reports of itself. -/
def State.report (s : State) : DevReport :=
  { dev := s.devNo
    tag := match s.sched.staged with
      | some im => im.head.tag
      | none => 0
    roots := match s.sched.staged with
      | some im => rootsOf false im.normal.red ++ rootsOf true im.wide.red
      | none => []
    faces := match s.sched.staged with
      | some im => facesOf false im.normal.red ++ facesOf true im.wide.red
      | none => []
    slots := s.slotGens
    gens := (List.range 2).filterMap (fun n =>
      let w := s.reg Reg.WGT_GEN_SLOTn 0 n
      if (s.gens.getD n genReset).broken then none
      else if bitsOf w 27 24 = 2 ∧ bitsOf w 28 28 = 0 then some (bitsOf w 7 0, false)
      else if bitsOf w 27 24 = 3 ∧ bitsOf w 28 28 = 0 ∧ s.rf Reg.WGT_PROG_STATE 0 0 23 22 = 3 then some (bitsOf w 7 0, true)
      else none)
    temp := s.tempWindow 0 && s.tempWindow 1
    holdup := s.holdup 3000
    maint := s.maint.isSome
    done := match s.prog with
      | some p => p.complete
      | none => false
    unplaced := match s.prog with
      | some p => !p.unplaced.isEmpty
      | none => s.heldUnplaced
    held := if s.prog.isSome || s.heldUnplaced then 0
      else ((List.range 2).findSome? (fun n =>
        let w := s.reg Reg.WGT_GEN_SLOTn 0 n
        if bitsOf w 27 24 = 4 ∧ bitsOf w 28 28 = 0 then some (bitsOf w 7 0) else none)).getD 0
    absent := (List.range 2).any (fun n => s.rf Reg.WGT_GEN_SLOTn 0 n 28 28 == 1) }

/-- The flags that the device adds to an arrival (*Vote flags*). -/
def State.ownFlags (s : State) (incomplete : Bool) : VoteFlags :=
  { wide := s.sites.any (fun x => s.rf Reg.ARY_WIDE_REQ x 0 0 0 == 1), throttle := s.rf Reg.THM_STATE 0 0 1 1 == 1, halt := s.votesHalt
    incomplete := incomplete }

/-- ORed flags. -/
def orFlags (a b : VoteFlags) : VoteFlags :=
  ⟨a.wide || b.wide, a.throttle || b.throttle, a.halt || b.halt, a.incomplete || b.incomplete⟩

/-- The arrival over the device and its children. -/
def State.arrival (s : State) (incomplete : Bool) : Arrival :=
  let kids := s.flt.arrivals.map (fun a => a.2)
  { flags := kids.foldl (fun f a => orFlags f a.flags) (s.ownFlags incomplete)
    missing := (kids.map (fun a => a.missing)).sum + (s.flt.tree.children.length - kids.length)
    causes := s.flt.causes ++ kids.flatMap (fun a => a.causes)
    reports := s.report :: kids.flatMap (fun a => a.reports) }

/-- Whether every enabled core with a program has executed its `BARRIER`; a fenced core counts as having done so (R309, R417). -/
def State.coresDone (s : State) : Bool :=
  s.cores.all (fun c => c.2.run == .arrived || c.2.run == .idle || !s.enabled c.1 || s.rf Reg.RTR_FENCE c.1 0 1 0 != 0)

/-- Whether a command is an edit. -/
def isEdit (b : BargeCmd) : Bool :=
  match b with
  | .prefixMap _ _ _ => true
  | .trim _ _ => true
  | .release _ => true
  | _ => false

/-- Whether a command is an admission. -/
def isAdmission (b : BargeCmd) : Bool :=
  match b with
  | .submit _ _ _ => true
  | _ => false

/-- Whether a command waits for the second boundary after it was taken: edits (R243) and VX-20 records (R285). -/
def isSlow (b : BargeCmd) : Bool :=
  match b with
  | .submit _ _ (some _) => true
  | b => isEdit b

/-- Whether the list that closes takes a command: one that waits for its second boundary once the first has passed. -/
def Queued.due (q : Queued) : Bool := !q.listed && (q.seen || !isSlow q.cmd.body)

/-- The entry device closes the lockage's command list as its own arrival leaves: what it has taken so far goes out in its broadcast and is
held by the list (R265, R306; notes/assumptions/21.md). -/
def State.closeList (s : State) : State :=
  if s.isEntry && !s.flt.sent then
    let l := (s.seq.queue.filter Queued.due).map (fun q => q.cmd)
    let s : State := { s with seq := { s.seq with queue := s.seq.queue.map (fun (q : Queued) => { q with listed := q.listed || q.due }) } }
    if l.isEmpty then s else s.broadcast (.commands l)
  else s

/-- The acceptance of the step of barge `n`, as the exit device has it: positions processed, tokens after truncation. -/
def State.acceptOf (s : State) (n : Nat) : Accept :=
  let b := s.barge n
  let none_ : Accept := { barge := n, a := 0, depth := b.dNow, tokens := [], processed := 0, noToken := s.noToken n }
  let run := if b.state = .decode then 0 else b.runLen
  if s.noToken n then none_
  else
    match s.seq.accepts.find? (fun z => b.stepSlot z.slot) with
    | some z => { none_ with a := z.a, tokens := z.tokens.take (b.truncate z.a z.tokens), processed := run }
    | none => { none_ with processed := run }

/-- The barges that hold slots in the lockage, ascending. -/
def State.slotBarges (s : State) : List Nat :=
  ((s.slots.map (fun z => z.2 - 1)).eraseDups).mergeSort (fun a b => decide (a ≤ b))

/-- The exit device broadcasts the acceptance results of the lockage (R266); a barge that repeats for the third lockage in a row is an end
cause that it has detected (R175, R268). -/
def State.sendAccepts (s : State) : State :=
  if s.isExit && !s.flt.accIn then
    let l := s.slotBarges.map s.acceptOf
    let s := (l.filter (fun a => a.noToken && (s.barge a.barge).repeats + 1 == 3)).foldl (fun s a => s.endCause a.barge 7) s
    (({ s with seq := { s.seq with results := l } }).broadcast (.acceptance l)) |> fun (s : State) => { s with flt := { s.flt with accIn := true } }
  else s

/-- The closes that the device has made as an exit device go to the entry device (R398). -/
def State.reportClosings (s : State) : State :=
  s.hpt.closings.foldl (fun (s : State) n => s.broadcast (.closed n)) { s with hpt := { s.hpt with closings := [] } }

/-- The arrival leaves (R309): the command list closes, and causes beyond the limit wait for the next arrival. The root keeps its own
until it decides. -/
def State.sendArrival (s : State) (incomplete : Bool) : State :=
  let s := s.reportClosings.closeList
  let a := s.arrival incomplete
  match s.flt.tree.parent with
  | some p =>
    ({ s with flt := { s.flt with sent := true, late := incomplete, causes := a.causes.drop s.causeLimit } }).sendPort p
      (.arrival { a with causes := a.causes.take s.causeLimit })
  | none => { s with flt := { s.flt with sent := true, late := incomplete } }

/-- Whether the device holds the entry broadcast of the lockage (R266). -/
def State.holdsEntry (s : State) : Bool := s.isEntry || s.flt.cmdsIn

/-- `BARRIER_ARRIVAL_SEND`: once the cores are done the exit device broadcasts its results, and once everything is in the arrival
leaves. -/
def execBarrierArrivalSend (s : State) : Out :=
  if s.inFlight && !s.flt.sent && s.coresDone then
    let s := s.sendAccepts
    .next (if s.holdsEntry && s.flt.accIn && decide (s.flt.arrivals.length = s.flt.tree.children.length) then s.sendArrival false else s)
  else .next s

/-- The exit device's results are final once its cores are done; in a lockage that takes its grace quantum, as that ends (R175). -/
def State.acceptsIfDone (s : State) : State := if s.coresDone then s.sendAccepts else s

/-- `BARRIER_FORWARD_DEADLINE`. -/
def execBarrierForwardDeadline (s : State) : Out :=
  .next (if s.inFlight && !s.flt.sent then s.acceptsIfDone.sendArrival true else s)

/-- The length of the current lockage in 8 ns units, stretched (R173, R314, R315, R323, R452): 100 µs while no schedule is active, the NORMAL
length in `HALTED`. -/
def State.curLen (s : State) : Nat :=
  let l := if s.rf Reg.FLK_LOCK_STATE 0 0 2 2 = 0 then 12500
    else if s.wideNow && s.flightState != 3 then s.reg Reg.FLK_LEN_WIDE 0 0 else s.reg Reg.FLK_LEN_NORMAL 0 0
  (l * (8 + s.flt.stretch) + 7) / 8

/-- Whether some replica group has no member left (R321). -/
def State.groupLost (s : State) : Bool :=
  match s.sched.active with
  | none => false
  | some im => im.devs.any (fun d => (im.devs.filter (fun e => e.shard == d.shard)).all (fun e =>
      s.flt.digest.expelled.contains e.dev || s.flt.digest.expelling.contains e.dev))

/-- Consecutive votes without `WIDE`, at most 15. -/
def quiet (votes : List Bool) : Nat := min 15 (votes.takeWhile (fun v => !v)).length

/-- A release reaches the device (R311): noted, the last decision shown, a grace quantum counted and raised (R173), passed on. -/
def State.takeRelease (s : State) (r : Release) : State :=
  let votes := (r.flags.wide :: s.flt.votes).take 15
  let w := min 255 r.missing * 2 ^ 24 + quiet votes * 2 ^ 20 + bit r.persist * 2 ^ 5 + bit r.grace * 2 ^ 4 + bit r.flags.incomplete * 2 ^ 3 +
    bit r.flags.halt * 2 ^ 2 + bit r.flags.throttle * 2 + bit r.flags.wide
  let s : State := { (s.setReg Reg.FLK_VOTE 0 0 w) with flt := { s.flt with release := some r, votes := votes, graced := r.grace } }
  let s := s.sendDown (.release r)
  if r.grace then (s.err Reg.FLK_GRACE 0 0 1).raise 0x28 devUnit else s

/-- Whether the current lockage runs WIDE; the idle lockages of `HALTED` do not (R315). -/
def State.ranWide (s : State) : Bool := s.wideNow && s.flightState == 2

/-- Whether the persistent-WIDE condition holds from the next lockage on (R313), the current lockage counted. -/
def State.persistNext (s : State) : Bool :=
  let n := ((s.ranWide :: s.flt.wideHist).take 1024 |>.filter (fun b => b)).length
  if s.rf Reg.SEQ_ADMIT 0 0 0 0 = 1 then decide (s.rf Reg.FLK_WIDE_LIMIT 0 0 26 16 < n) else decide (s.rf Reg.FLK_WIDE_LIMIT 0 0 10 0 < n)

/-- The root's decision (R310, *Root decision*). -/
def State.rootDecide (s : State) : State :=
  let a := s.arrival (!s.flt.sent || s.flt.late)
  let wide := a.flags.wide || s.flt.votes.any (fun v => v)
  let causes := s.flt.relCauses ++ a.causes
  let r : Release :=
    { time := s.flt.start + s.curLen + (if a.flags.incomplete then 125 else 0)
      wide := wide, stretch := if a.flags.throttle then s.rf Reg.THM_STRETCH 0 0 3 0 else 0
      halt := decide (0 < a.missing) || a.flags.halt || s.groupLost, grace := a.flags.incomplete, persist := s.persistNext
      flags := a.flags, missing := a.missing, expel := s.flt.digest.expelling
      rejoin := s.flt.digest.rejoin
      causes := causes.take s.causeLimit, reports := a.reports }
  ({ s with flt := { s.flt with causes := [], relCauses := causes.drop s.causeLimit } }).takeRelease r

/-- Whether the device is the root of the barrier tree. -/
def State.isRoot (s : State) : Bool := s.flt.tree.parent.isNone

/-- `ROOT_DECISION`: every arrival, its own included, has reached the root. -/
def execRootDecision (s : State) : Out :=
  if s.inFlight && s.isRoot && s.flt.release.isNone && s.flt.sent && decide (s.flt.arrivals.length = s.flt.tree.children.length) then
    finish s.rootDecide
  else .next s

/-- `BARRIER_CUTOFF`: the root decides with what has come. -/
def execBarrierCutoff (s : State) : Out :=
  if s.inFlight && s.isRoot && s.flt.release.isNone then finish (s.acceptsIfDone.closeList.rootDecide) else .next s

/-- `RELEASE_RECEIVE`. -/
def execReleaseReceive (r : Release) (s : State) : Out :=
  if s.inFlight && !s.isRoot && s.flt.release.isNone then finish (s.takeRelease r) else .next s

/-- `BARRIER_LOST` (R316): the device halts alone and rejoins only through formation. -/
def execBarrierLost (s : State) : Out :=
  if s.inFlight && s.flt.release.isNone then
    let s := s.stopIssue.setRf Reg.FLK_FLIGHT_STATE 0 0 2 0 3
    finish (({ s with flt := { s.flt with lost := true } }).raise 0x34 devUnit)
  else .next s

/-! ### Receiving -/

/-- A digest message is kept, the last of each device (R320). -/
def State.keepDigest (s : State) (m : DigestMsg) : State :=
  { s with flt := { s.flt with digest := { s.flt.digest with got := s.flt.digest.got.filter (fun x => x.dev != m.dev) ++ [m] } } }

/-- A flight session as its exit device holds it (R383): the output stream, and the host's messages, under the one key that it has been given
(notes/assumptions/22.md). -/
def exitSession (f : FlightSession) : Session :=
  let empty : TxStream := { next := 1, sent := [], waiting := [] }
  { number := f.number, ver := f.ver, role := if f.tenant = 0 then .operator else .tenant f.tenant, isOpen := true, nonce := 0, udp := f.udp
    host := f.host, keys := ⟨f.key, f.key, f.key, f.iv, f.iv, f.iv⟩, share := ⟨[], 0, [], []⟩, cmd := ⟨0, [], 0, []⟩, ans := empty, out := empty
    ctl := 0, taken := [], unanswered := [], stopped := false, closing := false }

/-- A broadcast is acted upon on its way down. -/
def State.actOn (s : State) (b : CtlBody) : State :=
  match b with
  | .commands l =>
    if s.isEntry then s
    else { s with seq := { s.seq with queue := s.seq.queue ++ l.map (fun c => ({ cmd := c, seen := false, listed := true } : Queued)) }
                  flt := { s.flt with cmdsIn := true } }
  | .acceptance l =>
    if s.isExit then s else { s with seq := { s.seq with results := l }, flt := { s.flt with accIn := true } }
  | .session f =>
    if s.isExit && !s.isEntry && (s.session f.number).isNone then { s with hpt := { s.hpt with sessions := s.hpt.sessions ++ [exitSession f] } }
    else s
  | .closed n => if s.isEntry && ((s.session n).any (fun x => !x.closing)) then s.shutSession n else s
  | .digest m => s.keepDigest m
  | _ => s

/-- A lane's bytes move to the spare, where it is free (R297, R298). -/
def State.spareLane (s : State) (p lane : Nat) : State :=
  if s.rf Reg.FLK_PORTp_STATE p 0 7 4 = 15 then (s.setRf Reg.FLK_PORTp_STATE p 0 7 4 lane).raise 0x30 p else s

/-- Acts on a control message from a port (R306, R309, R311). -/
def State.ctlBody (s : State) (p : Nat) (b : CtlBody) : State :=
  match b with
  | .arrival a =>
    if s.flt.tree.children.contains p && s.flt.release.isNone then
      { s with flt := { s.flt with arrivals := s.flt.arrivals.filter (fun x => x.1 != p) ++ [(p, a)] } }
    else s
  | .release r => if s.flt.tree.parent == some p && s.flt.release.isNone && s.inFlight then s.takeRelease r else s
  | .timestamp sent none => if s.flt.tree.children.contains p then s.sendPort p (.timestamp sent (some (s.now * 128))) else s
  | .timestamp sent (some t) => if s.flt.tree.parent = some p then { s with flt := { s.flt with stamp := some (sent, t) } } else s
  | .lane l true => s.spareLane p l
  | .lane l false => s.setPort p { s.port p with switchLane := some l }
  | b => if s.flt.tree.parent == some p || s.isRoot then (s.sendDown b).actOn b else s.broadcast b

/-- A control message arrives (R296): what it acknowledges leaves the resend list; a message that is not the next in order is not
acted upon (it has been, or it is resent); one that the flight key protects and that is sealed under another is discarded (R478). -/
def State.ctlArrive (s : State) (p : Nat) (m : CtlMsg) : State :=
  let x := s.port p
  let rest := match x.waiting.findIdx? (fun t => t.msg.seq == m.ack) with
    | some k => x.waiting.drop (k + 1)
    | none => x.waiting
  if sealedBody m.body && (m.key.isNone || m.key != s.flt.key) then s
  else if m.seq = x.lastRx + 1 then (s.setPort p { x with waiting := rest, lastRx := m.seq }).ctlBody p m.body
  else s.setPort p { x with waiting := rest }

/-- `CONTROL_MESSAGE_RECEIVE`. -/
def execControlMessageReceive (port : Nat) (m : CtlMsg) (s : State) : Out :=
  if s.portUp port then finish (s.ctlArrive port m) else .next s

/-- `CONTROL_RETRANSMIT`: the message of a sequence number has no acknowledgement after 4 frames and is resent, with the acknowledgement
that now stands; after 8 resends the port fails. -/
def execControlRetransmit (m : Resend) (s : State) : Out :=
  let port := m.port
  let x := s.port port
  match x.waiting.find? (fun t => t.msg.seq == m.seq) with
  | some t =>
    if !s.portUp port then .next s
    else if 8 ≤ t.resends then finish (s.failPort port)
    else
      let again : TxCtl := { msg := { t.msg with ack := x.lastRx }, resends := t.resends + 1 }
      finish ((s.setPort port { x with waiting := x.waiting.map (fun u => if u.msg.seq == m.seq then again else u) }).err
        Reg.FLK_PORTp_CTRL_RETX port 0 1)
  | none => .next s

/-- Whether a bulk packet has bytes in a bad frame: one of the `before` frames before that in which it ends was bad (R295). -/
def Port.spoilt (x : Port) (before : Nat) : Bool :=
  match x.sinceBad with
  | some n => decide (n < before)
  | none => false

/-- A bulk packet that a good frame ends (R295, R305): discarded when its CRC fails or a frame with bytes of it was bad, discarded and counted
when it belongs to another lockage, otherwise on its way: packets of one flow keep their order (R304). -/
def State.bulk (s : State) (port : Nat) (x : Port) (b : BulkPacket) : State :=
  if !b.crcOk || x.spoilt b.before then s
  else if b.lockage.toNat ≠ s.reg Reg.FLK_LOCKAGE 0 0 % 4 then s.err Reg.FLK_PORTp_DROP port 0 1
  else { s with net := s.net ++ [{ dev := b.dev, site := b.site, source := nSites + 1 + 4096 * port + b.flow,
                                   entry := portRouter port, pkt := { b.pkt with conflict := false } }] }

/-- Whether the spare's copy of working lane n mod 8 differs from the lane, in lockage n (R297). -/
def State.copyDiffers (s : State) (f : FlightFrame) : Bool :=
  laneBytes f.bytes (s.reg Reg.FLK_LOCKAGE 0 0 % 8) != (List.range 480).map (fun k => f.spare.getD k 0)

/-- `FLIGHT_FRAME_RECEIVE` (R294, R295, R297, R305). -/
def execFlightFrameReceive (port : Nat) (f : FlightFrame) (s : State) : Out :=
  if !s.portUp port then .next s
  else
    let x := s.port port
    match frameErrors f.bytes with
    | none => finish ((s.setPort port { x with sinceBad := some 0 }).err Reg.FLK_PORTp_FEC_UNCORR port 0 1)
    | some l =>
      let free := s.rf Reg.FLK_PORTp_STATE port 0 7 4 == 15
      let s := s.setPort port { x with sinceBad := x.sinceBad.map (fun n => n + 1), spareBad := free && s.copyDiffers f }
      let s := s.wide Reg.FLK_PORTp_FEC_CORR port 0 l.length
      let s := f.bulk.foldl (fun s b => s.bulk port x b) s
      finish (match f.ctl with
        | some m => s.ctlArrive port m
        | none => s)

/-! ### Bulk slots (R303 to R305, R312, R314) -/

/-- The frames of the current lockage, 19.2 ns each. -/
def State.curFrames (s : State) : Nat := s.curLen * 5 / 12

/-- The frames of the current lockage without those that a stretch adds: the slot schedule runs in them (R314). -/
def State.ownFrames (s : State) : Nat := { s with flt := { s.flt with stretch := 0 } }.curFrames

/-- The slot schedule of a port in the variant that runs (R312). -/
def State.slotsOf (s : State) (p : Nat) : List SlotEntry :=
  match s.sched.active with
  | some im => im.slots.filter (fun e => e.port == p && e.wide == s.wideNow)
  | none => []

/-- Frames of the lockage that a port's slot entries take up, of the entries that `f` chooses. -/
def State.framesOf (s : State) (p : Nat) (f : SlotEntry → Bool) : Nat :=
  (((s.slotsOf p).filter f).map (fun e => min (slotCount e) (s.ownFrames - slotFirst e))).sum

/-- Frames of a port without an entry, those that a stretch adds among them: at flight protocol level 2 their bulk slots carry queued packets
of any flow, at level 1 idle (R304, R314). -/
def State.backfill (s : State) (p : Nat) : Nat :=
  if 2 ≤ s.rf Reg.FLK_VER_FLIGHT 0 0 15 8 then s.curFrames - s.framesOf p (fun _ => true) else 0

/-- The first packets of a flow that fit into bytes of bulk slots. -/
def fitting (room : Nat) (l : List InFlight) : Nat :=
  match l with
  | [] => 0
  | m :: t => if m.pkt.data.length ≤ room then 1 + fitting (room - m.pkt.data.length) t else 0

/-- How many packets of a flow have left a port by the end of the lockage: a free value, at most what its own frames and the backfill carry, 63
slots of 58 B a frame (R294); none where neither serves it. Without frames of its own a flow leaves by backfill alone, where lower flows
go first: none of its packets that were queued behind `limit`, the place of the first packet of a lower flow that stays (R304). `l` are the
flow's packets with their places in the queue. -/
def State.leaving (s : State) (p flow limit : Nat) (l : List (InFlight × Nat)) : Nat :=
  let own := s.framesOf p (fun e => slotFlow e == flow)
  let most := fitting (3654 * (own + s.backfill p)) (l.map (fun x => x.1))
  let ahead := (l.filter (fun x => decide (x.2 < limit))).length
  let n := if own = 0 then min most ahead else most
  (s.free 64).toNat % (n + 1)

/-- The flight port and the flow by which a packet for another device leaves, under the routes. -/
def State.outPort (s : State) (m : InFlight) : Option (Nat × Nat) :=
  match s.way (.device m.dev) m.entry true with
  | .arrives site q =>
    match portUnit site q with
    | some (.flight p) => some (p, s.routeFlow site (.device m.dev))
    | _ => none
  | _ => none

/-- The flows of a port give up what stays behind, ascending; `limit` is as in `State.leaving`. -/
def State.dropFlows (s : State) (p : Nat) (out : List ((InFlight × Nat) × Nat × Nat)) (flows : List Nat) (limit : Nat) : State :=
  match flows with
  | [] => s
  | f :: t =>
    let l := (out.filter (fun x => x.2 == (p, f))).map (fun x => x.1)
    let n := s.leaving p f limit l
    let limit := match l[n]? with
      | some x => min limit x.2
      | none => limit
    (s.nextFree.err Reg.FLK_PORTp_DROP p 0 (l.length - n)).dropFlows p out t limit

/-- Packets for other devices that are still queued as their lockage ends are discarded and counted at their port (R305), those that a
ROUTER_FENCED router has discarded, there (R417). How many of a flow have left before is a free value; within a flow they leave in order
(R304; notes/assumptions/21.md). -/
def State.dropQueued (s : State) : State :=
  let l := (s.net.filter (fun m => m.dev != s.devNo)).zipIdx
  let out := l.filterMap (fun x => (s.outPort x.1).map (fun k => (x, k)))
  let t := l.foldl (fun (t : State) x => match s.way (.device x.1.dev) x.1.entry true with
    | .fenced r => t.err Reg.RTR_FENCE_DROP r 0 1
    | _ => t) { s with net := [] }
  (List.range 6).foldl (fun (t : State) p =>
    let flows := (((out.filter (fun x => x.2.1 == p)).map (fun x => x.2.2)).eraseDups).mergeSort (fun a b => decide (a ≤ b))
    t.dropFlows p out flows out.length) t

/-! ### Lanes (R297, R298, R299) -/

/-- `LANE_CORRECTION_CHECK`: above the limit, the ends agree to move the lane to the spare after the next boundary. -/
def execLaneCorrectionCheck (port lane corrected : Nat) (s : State) : Out :=
  let w := s.reg Reg.FLK_PORTp_STATE port 0
  if s.portUp port && decide (lane < 8) && bitsOf w 7 4 == 15 && bitsOf w 16 8 == 0 && (s.port port).switchLane.isNone &&
      decide (s.reg Reg.FLK_PORTp_LANE_LIM port 0 < corrected) then
    .next ((s.setPort port { s.port port with switchLane := some lane }).sendPort port (.lane lane false))
  else .next s

/-- `LANE_LOCK_LOSS`: the receiver requests the switch and the lane moves to the spare, or the port fails where the spare cannot take it. -/
def execLaneLockLoss (port lane : Nat) (s : State) : Out :=
  let w := s.reg Reg.FLK_PORTp_STATE port 0
  let s' := s.setRf Reg.FLK_PORTp_STATE port 0 (8 + lane) (8 + lane) 1
  if !s.portUp port || decide (8 < lane) || (bitsOf w 16 8).testBit lane then .next s
  else if lane = 8 then finish (if bitsOf w 7 4 = 15 then s' else s'.failPort port)
  else if bitsOf w 7 4 = 15 ∧ !(bitsOf w 16 8).testBit 8 then finish ((s'.spareLane port lane).sendPort port (.lane lane true))
  else if bitsOf w 7 4 = lane then .next s'
  else finish (s'.failPort port)

/-! ### Time base (R301, R302) -/

/-- The offset from the parent in 1/16 ns, positive where the device is ahead: the round trip of an exchange, from the request's leaving to the
reply's arrival, is halved (R301). -/
def timeOffset (sent parent received : Nat) : Int := (2 * ((received : Int) - parent) - ((received : Int) - sent)) / 2

/-- The time base slews by at most 1 ns against a measured offset (R301, R302). -/
def State.slew (s : State) (offset : Int) : State :=
  let s := s.setReg Reg.FLK_SYNC_OFFSET 0 0 ((max (-32768) (min 32767 offset)) % 65536).toNat
  let s : State := { s with flt := { s.flt with phase := s.flt.phase - max (-16) (min 16 offset) } }
  let s : State := if 1600 < offset.natAbs then { s with flt := { s.flt with syncLost := true } } else s
  if 160 < offset.natAbs then s.raise 0x32 devUnit else s

/-- `TIME_BASE_CORRECTION`: an exchange with the parent has brought a reply, and the offset that it measures is corrected; the next request goes
out (R301). -/
def execTimeBaseCorrection (x : TimeStamps) (s : State) : Out :=
  match s.inFlight, s.flt.tree.parent with
  | true, some p =>
    let t := match s.flt.stamp with
      | some (sent, parent) => { s with flt := { s.flt with stamp := none } }.slew (timeOffset sent parent x.received)
      | none => s
    finish (t.sendPort p (.timestamp x.next none))
  | _, _ => .next s

/-- One tick of 8 ns of the time base; a slew of a whole tick adds one or holds one back (R301; notes/assumptions/17.md). -/
def State.tickTime (s : State) : State :=
  if 128 ≤ s.flt.phase then ({ s with flt := { s.flt with phase := s.flt.phase - 128 } }).setReg Reg.FLK_TIME 0 0 (s.now + 2)
  else if s.flt.phase ≤ -128 then { s with flt := { s.flt with phase := s.flt.phase + 128 } }
  else s.setReg Reg.FLK_TIME 0 0 (s.now + 1)

/-- A tick: the time base counts while the device is powered, and a link that negotiates may go over to training. -/
def State.tick (s : State) : State := if !s.pow.on then s else s.tickTime.negotiate

/-! ### Digest rounds (R318 to R322) -/

/-- The package of the generation that the device's arrays hold. -/
def State.heldPkg (s : State) : Option (Nat × Package) :=
  (List.range 2).findSome? (fun n =>
    let w := s.reg Reg.WGT_GEN_SLOTn 0 n
    if bitsOf w 27 24 = 4 then ((s.gens.getD n genReset).pkg).map (fun p => (n, p)) else none)

/-- The words of a digest into a family of eight registers, first word lowest. -/
def State.setWords (s : State) (f : RegFam) (d : BitVec 256) : State :=
  (List.range 8).foldl (fun s k => s.setReg f 0 k (d.toNat / 2 ^ (32 * k) % 2 ^ 32)) s

/-- The replica instance of the plan run that starts at a slot (R317). -/
def State.runInst (s : State) (first : Nat) : Nat :=
  match s.sched.active.bind (fun im => im.plan.find? (fun r => r.first == first)) with
  | some r => r.inst
  | none => 0

/-- `DIGEST_ROUND_START`: at a boundary whose number is a multiple of the period; a round that was void is counted, and the digest of
one that was completed goes to the root and to the members. -/
def execDigestRoundStart (s : State) : Out :=
  let d := s.flt.digest
  if s.inFlight && decide (s.reg Reg.FLK_LOCKAGE 0 0 % d.period = 0) then
    let s := if d.void then s.err Reg.FLK_DIGEST_VOID 0 0 1 else s
    let s := match d.own with
      | some m => if d.ready && !d.void then (s.keepDigest m).broadcast (.digest m) else s
      | none => s
    let n := s.reg Reg.FLK_DIGEST_PERIOD 0 0
    finish { s with flt := { s.flt with digest := { s.flt.digest with
      period := n, start := s.reg Reg.FLK_LOCKAGE 0 0, round := d.round + 1, void := decide (n ≠ d.period), ready := false, own := none
      touched := ((s.slotBarges.map (fun b => (s.runInst (s.barge b).runFirst, b))) :: d.touched).take 3 } } }
  else .next s

/-- `DIGEST_READY`: both digests of the round are formed, or it ends late and is skipped. -/
def execDigestReady (ready : Bool) (s : State) : Out :=
  let d := s.flt.digest
  if !s.inFlight || d.ready then .next s
  else if ready then
    match s.heldPkg with
    | none => .next s
    | some (n, p) =>
      let dW := pkgDigest p
      let m : DigestMsg := { dev := s.devNo, shard := s.rf Reg.FLK_REPLICA 0 0 15 0, inst := s.rf Reg.FLK_REPLICA 0 0 23 20
                             gen := s.rf Reg.WGT_GEN_SLOTn 0 n 7 0, round := d.round, dW := dW, dV := s.digestV
                             derived := if p.version = 1 then some (s.gens.getD n genReset).derived else none }
      let s := (s.setWords Reg.FLK_DIGEST_Wn dW).setWords Reg.FLK_DIGEST_Vn s.digestV
      .next { s with flt := { s.flt with digest := { d with ready := true, own := some m } } }
  else finish ((s.err Reg.FLK_DIGEST_LATE 0 0 1).raise 0x36 devUnit)

/-- The reference D_W for a device's digest (R320): the signed one of its shard, or the one derived at load; none where the root holds no
package of the generation (notes/assumptions/39.md). -/
def State.refW (s : State) (m : DigestMsg) : Option (BitVec 256) :=
  match m.derived with
  | some r => some r
  | none => (List.range 2).findSome? (fun n =>
      if s.rf Reg.WGT_GEN_SLOTn 0 n 7 0 = m.gen then
        ((s.gens.getD n genReset).pkg).bind (fun p => (p.refs.find? (fun r => r.1 == m.shard)).map (fun r => r.2))
      else none)

/-- Whether a device's digests match both references; D_V is not compared at level 1 (*Version levels*). -/
def State.digestOk (s : State) (m : DigestMsg) : Bool :=
  (match s.refW m with
    | some r => m.dW == r
    | none => true) && (s.rf Reg.FLK_VER_FLIGHT 0 0 15 8 == 1 || m.dV == s.refV)

/-- The root judges the devices of the flight: those whose digest differs, or is missing for the second round in a row, are expelled
with the next release; an expelled one that matches returns. -/
def State.judge (s : State) (msgs : List DigestMsg) : State :=
  match s.sched.active with
  | none => s
  | some im =>
    let d := s.flt.digest
    let of := fun (dev : Nat) => msgs.find? (fun m => m.dev == dev)
    let misses := im.devs.foldl (fun (l : SMap Nat) x =>
      SMap.put l 0 x.dev (if (of x.dev).isSome then 0 else SMap.get d.misses 0 x.dev + 1)) d.misses
    let bad := (im.devs.map (fun x => x.dev)).filter (fun dev => match of dev with
      | some m => !s.digestOk m
      | none => decide (2 ≤ SMap.get misses 0 dev))
    let back := d.expelled.filter (fun dev => match of dev with
      | some m => s.digestOk m
      | none => false)
    { s with flt := { s.flt with digest := { d with
      misses := misses, expelling := bad.filter (fun dev => !d.expelled.contains dev), rejoin := back } } }

/-- Differences between the device's own digests and those of the other members of its group (R320, R331); `level` is the flight protocol
level, at 1 of which D_V is not compared. -/
def peerDiffs (level : Nat) (own : DigestMsg) (msgs : List DigestMsg) : Nat :=
  (msgs.filter (fun m => m.shard == own.shard && m.dev != own.dev && m.gen == own.gen &&
    (m.dW != own.dW || (level != 1 && m.dV != own.dV) || m.derived != own.derived))).length

/-- `DIGEST_COMPARE`: the digest messages that have come are compared, the last of them with the command (`msgs`, of other devices); those of
another round than the one that has ended count as not there. -/
def execDigestCompare (msgs : List DigestMsg) (s : State) : Out :=
  if !s.inFlight then .next s
  else
    let s := (msgs.filter (fun m => m.dev != s.devNo)).foldl State.keepDigest s
    let msgs := s.flt.digest.got.filter (fun m => m.round + 1 == s.flt.digest.round)
    let s : State := { s with flt := { s.flt with digest := { s.flt.digest with got := [] } } }
    let own := msgs.find? (fun m => m.dev == s.devNo)
    let s := match own with
      | some m => s.err Reg.FLK_DIGEST_PEER_DIFF 0 0 (peerDiffs (s.rf Reg.FLK_VER_FLIGHT 0 0 15 8) m msgs)
      | none => s
    finish (if s.isRoot then s.judge msgs else s)

/-! ### Formation (R323, R324, R478) -/

/-- Formation ends without a flight. -/
def State.formFail (s : State) (status : Nat) : State :=
  match s.flt.forming with
  | none => s
  | some r => (({ s with flt := { s.flt with forming := none } }).setRf Reg.FLK_FLIGHT_STATE 0 0 2 0 0).answer r status []

/-- The flight key that formation leaves on the device (R478): the root draws it, the others decrypt it from what the root has sent; none where
that does not decrypt to 128 bits. -/
def State.flightKey (s : State) (cipher : List Byte) : Option (BitVec 128) :=
  if s.defaultTree.parent.isNone then some ((s.draw 0).setWidth 128)
  else (s.identityPrivate.bind (fun d => sm2Decrypt d cipher)).bind (fun k => if k.length = 16 then some (BitVec.ofNat 128 (ofLE k)) else none)

/-- Formation completes: default tree, versions, flight key, sequence tables empty, idle lockages from 0. -/
def State.formDone (s : State) (level rootTime : Nat) (key : Option (BitVec 128)) : State :=
  match s.flt.forming with
  | none => s
  | some r =>
    let t := s.defaultTree
    let s := s.setReg Reg.FLK_FLIGHT_STATE 0 0 (t.root * 2 ^ 16 + t.depth * 2 ^ 12 + 2)
    let s := (s.setReg Reg.FLK_VER_FLIGHT 0 0 level).setReg Reg.FLK_LOCKAGE 0 0 0
    let s := if t.parent.isSome then s.setReg Reg.FLK_TIME 0 0 rootTime else s
    let s := (s.setReg Reg.FLK_LOCK_STATE 0 0 0).setReg Reg.FLK_VOTE 0 0 0
    let ports := s.flt.ports
    let s : State := { s with
        flt := { fltReset with ports := ports, tree := t, start := s.now, key := key }
        seq := { s.seq with barges := [], queue := [], held := [], sampled := [], accepts := [], results := [], outbox := [] }
        slots := [], freeCtr := s.freeCtr + 1 }
    (if s.isEntry then s.broadcast (.commands []) else s).answer r stOk []

/-- The flight's levels and whether some device cannot meet them (R324), from the least of the maxima and the largest of the minima. -/
def levelsOf (cap : BitVec 32) : Nat × Bool :=
  let b := fun hi lo => bitsOf cap.toNat hi lo
  (b 31 24 * 2 ^ 24 + b 15 8 * 2 ^ 8, decide (b 23 16 ≤ b 31 24 ∧ b 7 0 ≤ b 15 8))

/-- Version ranges of two sets of devices taken together. -/
def capJoin (a b : BitVec 32) : BitVec 32 :=
  let f := fun (x : BitVec 32) hi lo => bitsOf x.toNat hi lo
  BitVec.ofNat 32 (min (f a 31 24) (f b 31 24) * 2 ^ 24 + max (f a 23 16) (f b 23 16) * 2 ^ 16 + min (f a 15 8) (f b 15 8) * 2 ^ 8 +
    max (f a 7 0) (f b 7 0))

/-- Formation starts: ports train; a single device is formed at once. -/
def State.startForm (s : State) (r : Reply) : State :=
  let cap := BitVec.ofNat 32 (s.reg Reg.FLK_VER_CAP 0 0)
  let s : State := { s with flt := { s.flt with forming := some r, cap := cap, chainBad := false, ports := List.replicate 6 portReset } }
  let s := s.setRf Reg.FLK_FLIGHT_STATE 0 0 2 0 1
  if s.rf Reg.FLK_FORM 0 0 1 0 = 0 then s.formDone (levelsOf cap).1 0 (s.flightKey [])
  else (List.range 6).foldl (fun s p => s.setReg Reg.FLK_PORTp_STATE p 0 0xF1) s

/-- Whether the peer found on a port is the one that R290 puts there. -/
def State.peerOk (s : State) (p : Nat) : Bool :=
  let n := neighbor (s.rf Reg.FLK_FORM 0 0 1 0) s.dims s.coords p
  s.rf Reg.FLK_PORTp_STATE p 0 31 23 == devAt s.dims n && s.rf Reg.FLK_PORTp_STATE p 0 22 20 == (p + 3) % 6

/-- Whether a neighbour's identity is accepted (R478): its chain ends at the Otost root, and its anchor table is the device's. -/
def State.peerTrusted (s : State) (p : PeerId) : Bool := s.endsOtost p.chain && p.anchors == sm3Val s.anchorBytes

/-- Every port has trained: formation completes, or ends with the status of the first check that fails (R323, R324, R478, R481). -/
def State.formEnd (s : State) (root : FormRoot) : State :=
  if s.rf Reg.SEC_RNG 0 0 0 0 = 0 then s.formFail stBusy
  else if !(List.range 6).all s.peerOk then s.formFail stBadField
  else if s.flt.chainBad then s.formFail stAuth
  else if !(levelsOf s.flt.cap).2 then s.formFail stVersion
  else if (s.flightKey root.key).isNone then s.formFail stAuth
  else s.formDone (levelsOf s.flt.cap).1 root.time (s.flightKey root.key)

/-- `FLIGHT_PORT_TRAINED`: `cap` joins the version ranges that the peer passes on, `root` is what the root sends as formation completes. -/
def execFlightPortTrained (port peerDev peerPort : Nat) (peer : PeerId) (cap : BitVec 32) (root : FormRoot) (s : State) : Out :=
  if s.flightState = 1 ∧ port < 6 ∧ s.rf Reg.FLK_PORTp_STATE port 0 2 0 = 1 then
    let s := s.setReg Reg.FLK_PORTp_STATE port 0 (peerDev % 512 * 2 ^ 23 + peerPort % 8 * 2 ^ 20 + 0xF2)
    let s : State := { s with flt := { s.flt with cap := capJoin s.flt.cap cap, chainBad := s.flt.chainBad || !s.peerTrusted peer } }
    finish (if (List.range 6).all s.portUp then s.formEnd root else s)
  else .next s

/-- `FORMATION_TRAIN_TIMEOUT`. -/
def execFormationTrainTimeout (s : State) : Out := if s.flightState = 1 then finish (s.formFail stBusy) else .next s

end Sys2Proof.Machine
end

