-- ==== Sys2Proof/Machine/HostOps.lean ====
section
/-! DEFINITION. How the device takes a host command: the checks that every command shares (R391, R392, R396, R411, R424, R477), and
the entry device's queue of commands of the flight (R265). -/

namespace Sys2Proof.Machine

/-- A row of *Command set*: opcode, who may issue it, whether only the entry device takes it, whether it is marked M. -/
structure CmdRow where
  op : Nat
  operator : Bool
  tenant : Bool
  entry : Bool
  always : Bool
  deriving DecidableEq, Repr

/-- An operator command to any device. -/
def opRow (op : Nat) : CmdRow := ⟨op, true, false, false, false⟩

/-- An operator command to any device, marked M. -/
def opRowM (op : Nat) : CmdRow := ⟨op, true, false, false, true⟩

/-- An operator command to the entry device. -/
def opEntryRow (op : Nat) : CmdRow := ⟨op, true, false, true, false⟩

/-- `ATTEST`, of operators and tenants, marked M. -/
def attestRow : CmdRow := ⟨0x0180, true, true, false, true⟩

/-- A tenant command to the entry device. -/
def tenantRow (op : Nat) : CmdRow := ⟨op, false, true, true, false⟩

/-- The most bytes of a command, header included (R390). -/
def maxCommand : Nat := 4198400

/-- Whether a session speaks version 1.1. -/
def Session.old (x : Session) : Bool := x.ver == 0x11

/-- The tenant of a session; 0 for an operator. -/
def Session.tenantNo (x : Session) : Nat :=
  match x.role with
  | .tenant t => t
  | .operator => 0

/-- Whether the device is running a recovery boot (R477). -/
def State.recovery (s : State) : Bool := s.rf Reg.SEC_FW 0 0 16 16 == 1

/-- Whether only commands marked M are accepted: below IDLE (R392), in the safe state (R411), in management-only service (R424). -/
def State.mgmtOnly (s : State) : Bool := decide (2 ≤ s.rf Reg.PWR_STATE 0 0 2 0) || decide (2 ≤ s.rf Reg.FCL_STATE 0 0 2 0)

/-- Whether the device takes a flight command: it is the entry device of the active schedule, or device 0 for `SCHED_ACTIVATE` while
no schedule is active (R265, R383). -/
def State.takesFlight (s : State) (op : Nat) : Bool := s.isEntry && (s.sched.active.isSome || op == 0x122)

/-- The first of the shared checks that fails (R392, R396), none where all pass; `recov` says that a recovery boot accepts the command
(R477), `enc` that its length, reserved bytes and encodings are good, `range` that its fields are in range. -/
def State.precheck (s : State) (x : Session) (r : CmdRow) (recov enc range : Bool) : Option Nat :=
  if 64 < x.unanswered.length then some stBusy
  else if x.old && decide (0x100 ≤ r.op) then some stVersion
  else if !x.old && decide (r.op < 0x100) then some (if s.recovery then stBusy else stBadField)
  else if s.recovery && !recov then some stBusy
  else if !(match x.role with | .operator => r.operator | .tenant _ => r.tenant) then some stAuth
  else if r.entry && !s.takesFlight r.op then some stBadField
  else if !enc then some stBadField
  else if !range then some stRange
  else if s.mgmtOnly && !r.always then some stBusy
  else none

/-! ### Commands as bytes (R390) -/

/-- The form of a command's fields (*Command set*): its row, their length, whether they may be longer, the places that must be 0. -/
structure CmdForm where
  row : CmdRow
  len : Nat
  longer : Bool
  zeros : List Nat
  deriving DecidableEq, Repr

/-- The forms of the commands of version 1.1 (R396). -/
def cmdForms11 : List CmdForm := [⟨tenantRow 0x0001, 40, true, [30, 31]⟩, ⟨tenantRow 0x0002, 4, false, []⟩, ⟨opRowM 0x0003, 8, false, []⟩]

/-- The forms of *Command set*. -/
def cmdForms20 : List CmdForm :=
  [⟨opRowM 0x0101, 8, false, []⟩, ⟨opRowM 0x0102, 8, true, []⟩, ⟨opRowM 0x0110, 12, false, [1, 2, 3]⟩, ⟨opRowM 0x0111, 12, true, [1, 2, 3]⟩,
    ⟨opRowM 0x0112, 36, false, [1, 2, 3]⟩, ⟨opRow 0x0120, 0, false, []⟩, ⟨opRow 0x0121, 0, false, []⟩,
    ⟨opEntryRow 0x0122, 16, false, [4, 5, 6, 7]⟩, ⟨opRow 0x0130, 4, false, [1]⟩, ⟨opRow 0x0131, 1, false, []⟩,
    ⟨opEntryRow 0x0132, 16, false, [9, 10, 11]⟩, ⟨opRow 0x0133, 4, false, []⟩] ++
  [⟨tenantRow 0x0140, 40, true, [3]⟩, ⟨tenantRow 0x0141, 2, false, []⟩, ⟨tenantRow 0x0142, 2, false, []⟩, ⟨tenantRow 0x0143, 2, false, []⟩,
    ⟨tenantRow 0x0144, 8, false, []⟩, ⟨tenantRow 0x0145, 8, false, [2, 3]⟩, ⟨tenantRow 0x0146, 2, false, []⟩,
    ⟨tenantRow 0x0150, 8, true, [3, 6, 7]⟩, ⟨tenantRow 0x0151, 2, false, []⟩] ++
  [⟨opRowM 0x0160, 1, false, []⟩, ⟨opRowM 0x0161, 8, false, []⟩, ⟨opRow 0x0162, 4, false, [1]⟩, ⟨opRow 0x0170, 3, false, []⟩,
    ⟨opRow 0x0171, 3, false, []⟩, ⟨opRowM 0x0172, 6, false, []⟩, ⟨attestRow, 32, false, []⟩, ⟨opRowM 0x0181, 0x15A, true, []⟩,
    ⟨opRowM 0x0182, 0, false, []⟩]

/-- The opcode and the tag of a command's bytes. -/
def cmdHead (bs : List Byte) : Nat × BitVec 16 := (ofLE (bs.take 2), BitVec.ofNat 16 (ofLE ((bs.drop 2).take 2)))

/-- Whether bytes are a command of a form: `LENGTH` is that of the fields, which are as long as the form says, with zeros where it has them, and the
whole is no longer than a command may be. -/
def CmdForm.fits (f : CmdForm) (bs : List Byte) : Bool :=
  let fields := bs.drop 8
  decide (8 ≤ bs.length ∧ bs.length ≤ maxCommand) && ofLE ((bs.drop 4).take 4) == fields.length &&
  (fields.length == f.len || (f.longer && decide (f.len ≤ fields.length))) && f.zeros.all (fun k => fields.getD k 0 == 0)

/-- The first shared check that fails for a command's bytes as they stand (R391, R392, R396), none where its row is to be run. -/
def State.cmdCheck (s : State) (x : Session) (bs : List Byte) : Option Nat :=
  match (if x.old then cmdForms11 else cmdForms20).find? (fun f => f.row.op == (cmdHead bs).1) with
  | some f => if f.fits bs then none else s.precheck x f.row true false true
  | none =>
    if 64 < x.unanswered.length then some stBusy
    else if x.old then some stVersion
    else if s.recovery then some stBusy
    else some stBadField

/-- Whether a command with an opcode and a tag may be the one that stands next in its session's stream. -/
def Session.isNext (x : Session) (op : Nat) (tag : BitVec 16) : Bool := x.taken.head?.all (fun bs => cmdHead bs == (op, tag))

/-- The session after a command with a tag has been taken from its stream. -/
def Session.take (x : Session) (tag : BitVec 16) : Session :=
  { x with taken := x.taken.drop 1, unanswered := x.unanswered ++ [tag] }

/-- The last message of a command has come (R390): bytes that are no command of the set are answered at once, others wait for their row. -/
def State.cmdArrives (s : State) (n : Nat) (bs : List Byte) : State :=
  match s.session n with
  | none => s
  | some x =>
    let h := cmdHead bs
    match s.cmdCheck { x with unanswered := x.unanswered ++ [h.2] } bs with
    | some st =>
      (s.updSession n (fun y => { y with unanswered := y.unanswered ++ [h.2] })).answer { session := n, op := h.1, tag := h.2 } st []
    | none => s.updSession n (fun y => { y with taken := y.taken ++ [bs] })

/-- Takes a command on an open session: the shared checks, then `run`. On a session that is not open, or whose stream has another command next,
nothing is taken (notes/assumptions/7.md). -/
def State.command (s : State) (h : Hdr) (r : CmdRow) (recov enc range : Bool) (run : State → Session → Reply → State) : Out :=
  match s.session h.session with
  | none => .next s
  | some x =>
    if !x.isOpen || !x.isNext r.op h.tag then .next s
    else
      let t := s.updSession h.session (fun y => y.take h.tag)
      let rep : Reply := { session := h.session, op := r.op, tag := h.tag }
      finish (match s.precheck (x.take h.tag) r recov enc range with
        | some st => t.answer rep st []
        | none => run t x rep)

/-- The opcode that the answer to a flight command echoes. -/
def bodyOp (old : Bool) (b : BargeCmd) : Nat :=
  match b with
  | .submit _ _ _ => if old then 0x0001 else 0x0140
  | .cancel _ => if old then 0x0002 else 0x0141
  | .park _ => 0x0142
  | .resume _ => 0x0143
  | .prefixMap _ _ _ => 0x0144
  | .trim _ _ => 0x0145
  | .release _ => 0x0146
  | .varLoad _ _ _ => 0x0150
  | .varUnload _ => 0x0151
  | .commit _ _ _ _ _ => 0x0132
  | .activate _ _ => 0x0122
  | .close _ => 0

/-- Answers a flight command; only the entry device answers (R265). -/
def State.answerCmd (s : State) (c : Staged) (status : Nat) (data : List Byte) : State :=
  if s.isEntry then
    let old := match s.session c.session with
      | some x => x.old
      | none => false
    s.answer { session := c.session, op := bodyOp old c.body, tag := c.tag } status data
  else s

/-- Whether a `HALTED` flight rejects a command (R315). -/
def haltRejects (b : BargeCmd) : Bool :=
  match b with
  | .submit _ _ _ => true
  | .park _ => true
  | .resume _ => true
  | .varLoad _ _ _ => true
  | .varUnload _ => true
  | b => isEdit b

/-- A command of the flight is rejected; a submission counts (R274). -/
def State.rejectCmd (s : State) (c : Staged) (status : Nat) : State :=
  (if isAdmission c.body then s.err Reg.CNT_SEQ_ADMIT_REJECT 0 0 1 else s).answerCmd c status []

/-- Puts a command into the entry device's queue (R265); in `HALTED` every barge command but cancel is rejected at once (R315). -/
def State.stageCmd (s : State) (h : Hdr) (tenant : Nat) (b : BargeCmd) : State :=
  let c : Staged := { session := h.session, tag := h.tag, tenant := tenant, body := b }
  if s.flightState = 3 && haltRejects b then s.rejectCmd c stBusy
  else { s with seq := { s.seq with queue := s.seq.queue ++ [{ cmd := c, seen := false, listed := false }] } }

/-- Takes a submission: one that its own encodings or ranges keep out counts as a rejected admission (R274). -/
def State.submission (s : State) (h : Hdr) (r : CmdRow) (enc range : Bool) (run : State → Session → Reply → State) : Out :=
  match s.session h.session with
  | none => .next s
  | some x =>
    let y := x.take h.tag
    let t := if x.isOpen && x.isNext r.op h.tag &&
      s.precheck y r false enc range != s.precheck y r false true true then s.err Reg.CNT_SEQ_ADMIT_REJECT 0 0 1 else s
    t.command h r false enc range run

end Sys2Proof.Machine
end

