-- ==== Sys2Proof/Machine/LifeCycle.lean ====
section
/-! DEFINITION. The end of a life-cycle transition (R473), which an erasure of the arrays delays. -/

namespace Sys2Proof.Machine

/-- Writes the anchor table into its registers; missing entries are empty. -/
def State.setAnchors (s : State) (t : List AnchorEntry) : State :=
  (List.range 8).foldl (fun (s : State) n =>
    let e := t.getD n ⟨0, 0, 0⟩
    (List.range 8).foldl (fun (s : State) k => s.setReg Reg.SEC_ANCHOR_KEYnw n k (e.key.toNat / 2 ^ (32 * k) % 2 ^ 32))
      (s.setReg Reg.SEC_ANCHOR_ROLESn n 0 e.roles.toNat)) s

/-- Steps 5 and 6 of R473 and the answer; `kind` says what becomes of the anchor table. What `COUNT` reads after the 64th transition, which its 6
bits cannot hold, the spec does not state: a free value (notes/assumptions/3.md). A device that is RETIRED has no session left. -/
def State.lcFinish (s : State) (rep : Reply) (r : LcRecord) (kind : Nat) : State :=
  let to_ := r.to_.toNat
  let n := s.rf Reg.SEC_LC_STATE 0 0 13 8
  let s := (s.setReg Reg.SEC_LC_STATE 0 0 ((if n = 63 then (s.free 6).toNat else n + 1) * 2 ^ 8 + to_)).nextFree
  let s := if kind = 2 then s.setAnchors [] else if r.hasTable = 1 then s.setAnchors r.table else s
  let s : State := if to_ = 4 then { s with sec := { s.sec with blown := true } } else s
  let s := (s.raise 0x94 devUnit).answer rep stOk []
  if r.to_ = 4 then s.closeAll 8 (fun _ => true) else s

end Sys2Proof.Machine
end

