-- ==== Sys2Proof/Machine/PkgFile.lean ====
section
/-! DEFINITION. A staged package (R329, R331, R332): its parts, key envelopes, signature and blocks as bytes, and what the plaintexts hold. The
order and the widths of the header's numbers are not in the spec, so the header comes read (notes/assumptions/5.md). -/

namespace Sys2Proof.Machine

/-- The bytes of a part. -/
def partBytes (m : Mem) (p : Part) : List Byte := Mem.read m p.off p.len

/-- The header's length (R329, R331). -/
def headLen (version : Nat) : Nat := if version = 1 then 128 else 256

/-- An entry of the block index, 64 B. -/
structure IndexEntry where
  typ : Nat
  shard : Nat
  off : Nat
  len : Nat
  digest : BitVec 256
  reserved : List Byte
  deriving DecidableEq, Repr

/-- The entry that 64 bytes spell (*Model package, version 2*). -/
def indexEntry (bs : List Byte) : IndexEntry :=
  let n := fun (off len : Nat) => ofLE ((bs.drop off).take len)
  { typ := n 0 1, shard := n 4 2, off := n 8 8, len := n 16 8, digest := BitVec.ofNat 256 (n 24 32)
    reserved := (bs.drop 1).take 3 ++ (bs.drop 6).take 2 ++ (bs.drop 56).take 8 }

/-- The block index. -/
def pkgIndex (m : Mem) (h : PkgHead) : List IndexEntry := (chunks 64 (partBytes m h.index) h.blocks).map indexEntry

/-- Whether the device has a block: one tagged with its shard or common to all (R329), in version 1 every one (R331). -/
def IndexEntry.isMine (e : IndexEntry) (version shard : Nat) : Bool := version == 1 || e.shard == shard || e.shard == 0xFFFF

/-- The content key, from the envelope that names the device's identity key (R329, R332). -/
def State.contentKey (s : State) (m : Mem) (h : PkgHead) : Option (List Byte) :=
  match s.identityPrivate with
  | none => none
  | some d =>
    let name := sm3 (pointOut (sm2Public d))
    ((chunks 160 (partBytes m h.envelopes) h.envelopes.len).find? (fun e => e.take 32 == name)).bind (fun e => sm2Decrypt d ((e.drop 32).take 113))

/-- A block decrypted: its SM3 and its tag hold (R330, R332). The index gives the place of the ciphertext, before which the nonce stands and after
which the tag; the mode's associated data are empty (notes/assumptions/5.md). -/
def openBlock (m : Mem) (key : List Byte) (e : IndexEntry) : Option (List Byte) :=
  let ct := Mem.read m e.off e.len
  if sm3Val ct = e.digest ∧ 12 ≤ e.off then gcmOpen key (Mem.read m (e.off - 12) 12) [] (ct ++ Mem.read m (e.off + e.len) 16) else none

/-- The plaintexts of the index's blocks in order, empty for a block that the device does not have; none where one fails. -/
def openBlocks (m : Mem) (key : List Byte) (version shard : Nat) (l : List IndexEntry) : Option (List (List Byte)) :=
  match l with
  | [] => some []
  | e :: t =>
    match (if e.isMine version shard then openBlock m key e else some []), openBlocks m key version shard t with
    | some b, some r => some (b :: r)
    | _, _ => none

/-- What the signature covers: every part before the signature block (R329). -/
def signedParts (m : Mem) (h : PkgHead) : List Byte :=
  Mem.read m 0 (headLen h.version) ++ partBytes m h.refs ++ partBytes m h.index ++ partBytes m h.envelopes

/-- Whether the signature block holds the signer's chain, accepted for MODEL_SIGNER (R469), and a signature that verifies. -/
def State.pkgSigned (s : State) (m : Mem) (f : PkgFile) : Bool :=
  let block := partBytes m f.head.sig
  let n := block.length - 64
  (certRole f.signer).any (fun r => r.1 == 3) && s.anchorGrants f.signer 2 && block.take n == f.signer.der &&
  sm2Verify f.signer.key (signedParts m f.head) (block.drop n)

/-- The reference digests by shard; in version 1 the one digest, which must be SM3 over the ciphertext digests of all blocks (R329, R331). -/
def pkgRefs (m : Mem) (h : PkgHead) : List (Nat × BitVec 256) :=
  (chunks 32 (partBytes m h.refs) h.refs.len).zipIdx.map (fun x => (x.2, BitVec.ofNat 256 (ofLE x.1)))

/-- Whether the one reference digest of version 1 is that of the blocks (R331). -/
def refOk (m : Mem) (h : PkgHead) : Bool :=
  h.version != 1 ||
    (pkgRefs m h).map (fun r => r.2) == [sm3Val ((pkgIndex m h).flatMap (fun e => digestBytes e.digest))]

/-! ### What the plaintexts hold -/

/-- Bytes at a place in the plaintexts. -/
def inPlain (l : List (List Byte)) (x : InBlock) (len : Nat) : List Byte := ((l.getD x.block []).drop x.off).take len

/-- The cells of consecutive bytes from a key on, zeros left out. -/
def cellsFrom (k : Nat) (bs : List Byte) : Mem :=
  match bs with
  | [] => []
  | b :: t => if b = 0 then cellsFrom (k + 1) t else (k, b) :: cellsFrom (k + 1) t

/-- The 4-bit values of bytes, the low half first (R98; notes/assumptions/12.md). -/
def halves (bs : List Byte) : List Byte := bs.flatMap (fun b => [b &&& 0x0F, b >>> 4])

/-- A 4-bit value in two's complement as 8 bits. -/
def widenNibble (b : Byte) : Byte := (b.setWidth 4).signExtend 8

/-- A tile as the placement map places it, with its levels, master weights, outliers and scales from the plaintexts (*Block types*). -/
def tileFrom (l : List (List Byte)) (t : MapTile) : Tile :=
  let outs := if t.ww < 4 then 512 else 256
  let master := inPlain l t.master 262144
  { shard := t.shard, lcore := t.lcore, home := t.home, ww := t.ww, ltag := t.ltag
    levels := cellsFrom 0 (halves (inPlain l t.levels 262144))
    master := cellsFrom 0 (if t.ww < 4 then (halves master).map widenNibble else master)
    outliers := readOutliers (inPlain l t.olist (olistBytes t.ocount)) t.ocount, oaddr := t.oaddr
    wscale := ((wordsOf 2 (inPlain l t.scales (2 * outs))).zipIdx.filter (fun x => x.1 != 0)).map (fun x => (x.2, BitVec.ofNat 16 x.1)) }

/-- Whether a place lies in a block of a type that the device has. -/
def placeOk (index : List IndexEntry) (version shard typ : Nat) (x : InBlock) (len : Nat) : Bool :=
  match index[x.block]? with
  | some e => e.typ == typ && e.isMine version shard && decide (x.off + len ≤ e.len)
  | none => false

/-- Whether what the map says of a tile of the shard lies in its blocks, and the group counts of its outlier list sum to the number of its
entries (R116). -/
def mapTileOk (index : List IndexEntry) (version shard : Nat) (l : List (List Byte)) (t : MapTile) : Bool :=
  t.shard != shard ||
  (placeOk index version shard 2 t.levels 262144 && placeOk index version shard 3 t.master 262144 &&
    placeOk index version shard 5 t.scales (if t.ww < 4 then 1024 else 512) &&
    (t.ocount == 0 || (placeOk index version shard 4 t.olist (olistBytes t.ocount) &&
      (wordsOf 2 (inPlain l t.olist 16)).sum == t.ocount)))

/-- Whether the header, the index and the map are well formed: reserved fields 0, part lengths as their counts say, what the map names in the blocks
(R330, R116). -/
def pkgFormOk (m : Mem) (f : PkgFile) (shard : Nat) (l : List (List Byte)) : Bool :=
  let h := f.head
  let index := pkgIndex m h
  h.reserved.all (fun b => b == 0) && index.all (fun e => e.reserved.all (fun b => b == 0)) && decide (h.index.len = 64 * h.blocks) &&
  (if h.version = 1 then decide (h.refs.len = 32)
    else decide (1 ≤ h.shards ∧ h.shards ≤ 65535) && decide (h.refs.len = 32 * h.shards)) &&
  f.tiles.all (mapTileOk index h.version shard l) &&
  f.seeds.all (fun x => placeOk index h.version shard 7 x.at_ (8 * x.count)) &&
  f.constants.all (fun x => placeOk index h.version shard 6 x.at_ x.len)

/-- The package of a shard that the staged bytes hold, with the plaintexts of its blocks (R332): the tiles that the map assigns to the shard
(R331). -/
def packageFrom (m : Mem) (f : PkgFile) (shard : Nat) (l : List (List Byte)) : Package :=
  let h := f.head
  { version := h.version, fmtLevel := h.fmtLevel, pkgId := h.pkgId, shard := shard
    blocks := ((pkgIndex m h).filter (fun e => e.isMine h.version shard)).map (fun e => ⟨e.typ, e.shard, e.digest⟩)
    fits := f.fits, refs := pkgRefs m h
    delivered := sm3Val (Mem.read m 0 (headLen h.version) ++ partBytes m h.refs ++ partBytes m h.index ++ partBytes m h.sig)
    seeds := f.seeds.map (fun x => ⟨x.layer, x.addr, (wordsOf 8 (inPlain l x.at_ (8 * x.count))).map (BitVec.ofNat 64)⟩)
    rotations := f.rotations
    tiles := (f.tiles.filter (fun t => t.shard == shard)).map (tileFrom l)
    constants := f.constants.map (fun x => (x.addr, inPlain l x.at_ x.len)), tables := f.tables }

/-- The plaintexts of a staged package (R330, R332): none where its signature, its envelope, a block or the digest of version 1 fails. -/
def State.openPackage (s : State) (m : Mem) (f : PkgFile) (shard : Nat) : Option (List (List Byte)) :=
  if s.pkgSigned m f && refOk m f.head then
    (s.contentKey m f.head).bind (fun k => openBlocks m k f.head.version shard (pkgIndex m f.head))
  else none

end Sys2Proof.Machine
end

