-- ==== Sys2Proof/Machine/Weights.lean ====
section
/-! DEFINITION. Weight packages, generation slots, array programming and the maintenance of an array in service (chapter 11). What a
boundary does to a replacement stands in Machine/Boundary.lean. -/

namespace Sys2Proof.Machine

/-! ### Generation slots (R333, R338) -/

/-- The number of a generation slot. -/
def State.slotGen (s : State) (n : Nat) : Nat := s.rf Reg.WGT_GEN_SLOTn 0 n 7 0

/-- The state of a generation slot: 0 `EMPTY`, 1 `VALIDATING`, 2 `STAGED`, 3 `PROGRAMMING`, 4 `HELD`. -/
def State.slotState (s : State) (n : Nat) : Nat := s.rf Reg.WGT_GEN_SLOTn 0 n 27 24

/-- Whether a slot's contents are absent. -/
def State.slotAbsent (s : State) (n : Nat) : Bool := s.rf Reg.WGT_GEN_SLOTn 0 n 28 28 == 1

/-- A generation slot's contents. -/
def State.gen (s : State) (n : Nat) : Gen := s.gens.getD n genReset

/-- Applies `f` to a generation slot's contents. -/
def State.updGen (s : State) (n : Nat) (f : Gen → Gen) : State := { s with gens := s.gens.modify n f }

/-- A slot becomes `EMPTY`. -/
def State.clearSlot (s : State) (n : Nat) : State := (s.setReg Reg.WGT_GEN_SLOTn 0 n 0).updGen n (fun _ => genReset)

/-- Applies `f` to a staging area (0 schedule, 1 package, 2 firmware). -/
def State.updArea (s : State) (k : Nat) (f : Area → Area) : State := { s with hpt := { s.hpt with areas := s.hpt.areas.modify k f } }

/-- A staging area. -/
def State.area (s : State) (k : Nat) : Area := s.hpt.areas.getD k areaReset

/-- Makes the digest round in progress void (R319). -/
def State.voidRound (s : State) : State := { s with flt := { s.flt with digest := { s.flt.digest with void := true } } }

/-! ### Loading a package (R329 to R331) -/

/-- The slot that a load of generation `gen` goes to, and whether it refills it (checks 1 and 2 of *Package load checks*); the status
code where there is none. -/
def State.loadSlot (s : State) (gen : Nat) : Except Nat (Nat × Bool) :=
  let empty := (List.range 2).find? (fun n => s.slotState n == 0)
  let lost := (List.range 2).find? (fun n => s.slotState n != 0 && s.slotGen n == gen && s.slotAbsent n)
  if empty.isNone ∧ lost.isNone then .error stBusy
  else if gen = 0 ∨ (List.range 2).any (fun n => s.slotState n != 0 && s.slotGen n == gen && !s.slotAbsent n) then .error stGeneration
  else
    match lost, empty with
    | some n, _ => .ok (n, true)
    | none, some n => .ok (n, false)
    | none, none => .error stBusy

/-- A rejected load: the staging region is freed, the rejection counted and answered. -/
def State.rejectLoad (s : State) (r : Reply) (status : Nat) : State :=
  ((s.updArea 1 (fun _ => areaReset)).err Reg.WGT_PKG_REJECT 0 0 1).answer r status []

/-- `PKG_LOAD` (R330); with nothing staged there is no package to load (`E_NOT_FOUND`). -/
def execPkgLoad (h : Hdr) (gen shard : Nat) (s : State) : Out :=
  s.command h (opRow 0x0130) false true (decide (gen < 256 ∧ shard < 65536)) (fun s _ r =>
    if (s.area 1).busy then s.answer r stBusy []
    else if !(s.area 1).closed then s.answer r stNotFound []
    else
      match s.loadSlot gen with
      | .error st => s.rejectLoad r st
      | .ok (n, refill) =>
        let s := s.updArea 1 (fun a => { a with busy := true })
        let s := s.updGen n (fun g => { g with loading := some (r, gen, shard, refill) })
        if refill then s else s.setReg Reg.WGT_GEN_SLOTn 0 n (1 * 2 ^ 24 + gen))

/-- The step-program format level that the loader takes: the flight's, or the device's own while no flight is formed. -/
def State.formatLevel (s : State) : Nat :=
  let f := s.rf Reg.FLK_VER_FLIGHT 0 0 31 24
  if f = 0 then s.rf Reg.FLK_VER_CAP 0 0 31 24 else f

/-- Whether one outlier comes before another (R116). -/
def Outlier.before (a b : Outlier) : Bool :=
  decide (a.group < b.group ∨ (a.group = b.group ∧ (a.col < b.col ∨ (a.col = b.col ∧ a.row < b.row))))

/-- The target level at a cell of a tile. -/
def tileLevel (t : Tile) (row col : Nat) : Nat := (Mem.get t.levels (512 * row + col)).toNat

/-- Whether a listed cell encodes weight 0 (R116). -/
def outlierZero (t : Tile) (o : Outlier) : Bool :=
  let c := outlierCol o
  if 4 ≤ t.ww then
    tileWeight t (c / 2) o.row == 0 && tileLevel t o.row c == 8 && tileLevel t o.row (c + 1) == 0
  else tileWeight t c o.row == 0 && tileLevel t o.row c == 8

/-- Whether consecutive elements of a list all satisfy `p`. -/
def chained {α : Type} (p : α → α → Bool) (l : List α) : Bool :=
  match l with
  | [] => true
  | [_] => true
  | a :: b :: t => p a b && chained p (b :: t)

/-- R116 for the entries of the outlier list of a tile. -/
def olistOk (t : Tile) : Bool :=
  chained Outlier.before t.outliers &&
  t.outliers.all (fun o => decide (o.group < 8 ∧ o.col < 64 ∧ o.row < 1024) && o.value != 0x7F && o.value != 0xFF &&
    (decide (t.ww < 4) || o.col % 2 == 0) && outlierZero t o)

/-- R116 for the count and the address of the outlier list of a tile, whose failure gives `E_RANGE`; `secure` says that the window of its
core is enabled. -/
def olistRange (t : Tile) (secure : Bool) : Bool :=
  let n := t.outliers.length
  n == 0 || decide (n ≤ 5242 ∧ 64 * t.oaddr + olistBytes n ≤ (if secure then 0xF0000 else spmSize))

/-- Whether the secure window of a logical core is enabled. -/
def State.secureWindow (s : State) (lcore : Nat) : Bool :=
  match s.siteOf lcore with
  | some x => s.rf Reg.SPM_SECURE x 0 0 0 == 1
  | none => false

/-- Whether a package has a placement map for its shard (R330): a block of type 1, in version 2 tagged with the shard. -/
def pkgPlaced (p : Package) : Bool := p.blocks.any (fun b => b.typ == 1 && (p.version == 1 || b.shard == p.shard))

/-- Check 5 of *Package load checks* on what the package holds: R75, R84, R85, R116, and the limits of version 1 (R331). -/
def pkgFieldsOk (p : Package) : Bool :=
  pkgPlaced p && p.seeds.all (fun l => l.words.all (fun x => x != 0)) &&
  p.rotations.all (fun r => r.2 != 0 && r.1 % r.2 == 0) &&
  p.tiles.all (fun t => decide (t.ww < 8) && olistOk t &&
    (match t.home with
      | .resident la => decide (la < 16)
      | _ => true)) &&
  (p.version != 1 || (p.tiles.all (fun t => decide (t.ww < 4) && t.outliers.isEmpty) && p.seeds.isEmpty))

/-- Whether a tile is resident. -/
def tileResident (t : Tile) : Bool :=
  match t.home with
  | .resident _ => true
  | _ => false

/-- The logical arrays of a logical core that a package needs. -/
def residentOf (p : Package) (lcore : Nat) : Nat := (p.tiles.filter (fun t => t.lcore == lcore && tileResident t)).length

/-- Check 6 of *Package load checks*, and the ranges of R116. -/
def State.pkgRange (s : State) (p : Package) : Bool :=
  p.fits && p.tiles.all (fun t => olistRange t (s.secureWindow t.lcore) &&
    (!(tileResident t) || (decide (t.lcore < s.sites.length) && decide (residentOf p t.lcore ≤ 16))))

/-- The checks of *Package load checks* that need the package: the package that passes them all, else the status of the first that fails. -/
def State.pkgCheck (s : State) (slot shard : Nat) (refill : Bool) (f : PkgFile) : Except Nat Package :=
  let m := (s.area 1).bytes
  if refill && f.head.pkgId != (s.gen slot).pkgId then .error stGeneration
  else if !(f.head.version == 1 || f.head.version == 2) || decide (s.formatLevel < f.head.fmtLevel) then .error stVersion
  else
    match s.openPackage m f shard with
    | none => .error stAuth
    | some l =>
      let p := packageFrom m f shard l
      if !(pkgFormOk m f shard l && pkgFieldsOk p) then .error stBadField
      else if !s.pkgRange p then .error stRange
      else .ok p

/-- `PKG_LOAD_DONE`: the load's checks and decryption end (R7, R330 to R334); a slot in `HELD` serves again from the next boundary, at which
the loader writes out what belongs to it (R334, R338). -/
def execPkgLoadDone (f : PkgFile) (s : State) : Out :=
  match (List.range 2).findSome? (fun n => (s.gen n).loading.map (fun l => (n, l))) with
  | none => .next s
  | some (n, r, gen, shard, refill) =>
    let s := s.updGen n (fun g => { g with loading := none })
    match s.pkgCheck n shard refill f with
    | .error st =>
      let s := if refill then s else s.clearSlot n
      finish ((s.setRf Reg.WGT_GEN_SLOTn 0 n 23 16 st).rejectLoad r st)
    | .ok p =>
      let w := if refill then setBits (s.reg Reg.WGT_GEN_SLOTn 0 n) 28 28 0 else 2 * 2 ^ 24 + gen
      let s := s.setReg Reg.WGT_GEN_SLOTn 0 n (setBits (setBits w 23 16 0) 9 8 p.version)
      let s := s.updGen n (fun g => { g with
        pkg := some p, pkgId := p.pkgId, shard := shard, delivered := p.delivered, broken := false, reload := false, noMaster := []
        derived := if p.version = 1 then pkgDigest p else 0 })
      let s : State := if s.slotState n = 4 then { s with jobs := { s.jobs with install := some n } } else s
      finish ((s.updArea 1 (fun _ => areaReset)).answer r stOk [])

/-- `GEN_DISCARD` (R333). -/
def execGenDiscard (h : Hdr) (slot : Nat) (s : State) : Out :=
  s.command h (opRow 0x0131) false true (decide (slot < 2)) (fun s _ r =>
    if s.slotState slot = 2 then (s.clearSlot slot).answer r stOk [] else s.answer r stBusy [])

/-- `GEN_COMMIT` (R342): taken into the flight; *Commit checks* are made at B0. -/
def execGenCommit (h : Hdr) (gen mode mask timeout tagValid tag : Nat) (s : State) : Out :=
  s.command h (opEntryRow 0x0132) false (decide (gen < 256 ∧ mode < 2 ∧ mask < 65536 ∧ tagValid < 2))
    (decide (1 ≤ timeout ∧ timeout ≤ 1048575)) (fun s _ _ =>
      s.stageCmd h 0 (.commit gen (mode == 1) mask timeout (if tagValid = 1 then some tag else none)))

/-! ### Levels and images -/

/-- The logical element that a physical row or column carries; none where a spare has taken its place or it carries none. -/
def carried (m : SMap Nat) (limit p : Nat) : Option Nat :=
  if p < limit then (if SMap.get m 0 p = 0 then some p else none)
  else (m.find? (fun e => e.2 == p)).map (fun e => e.1)

/-- The target-level map that an array holds. -/
def Arr.levelsNow (r : Arr) : Mem :=
  sortCells (r.cells.filterMap (fun c =>
    match carried r.rowMap 1024 (c.1 / 528), carried r.steer 512 (c.1 % 528) with
    | some row, some col => some (512 * row + col, c.2)
    | _, _ => none))

/-- The loader owes a site under a march test what it would write there: the outlier lists of a slot (2 for none) and the capacities of the
schedule (R370). -/
def State.oweLists (s : State) (slot site : Nat) : State :=
  if s.jobs.owed.contains (slot, site) then s else { s with jobs := { s.jobs with owed := s.jobs.owed ++ [(slot, site)] } }

/-- The loader writes the outlier lists of a package into the scratchpad of a site, those of the logical arrays that `sel` picks; while a march test
runs nothing but the test reaches the banks (R370), and all of them follow its end. -/
def State.writeOutliers (s : State) (slot site : Nat) (sel : Tile → Bool) : State :=
  match s.pkg slot with
  | none => s
  | some p =>
    if s.marching site then s.oweLists slot site
    else (p.tiles.filter (fun t => s.siteOf t.lcore == some site && sel t)).foldl
      (fun s t => s.updCore site (fun c => c.setSp (64 * t.oaddr) (olistOf t.outliers))) s

/-- What the loader writes as a generation becomes held (R334): outlier lists, weight scales, streamed images, and the near-memory copies of
constants and of the layers' seeds (R85, R88, R333). That the copy of the seeds is written then, at an address that the package carries, is the
model's choice (notes/assumptions/12.md). -/
def State.installGen (s : State) (slot : Nat) : State :=
  match s.pkg slot with
  | none => s
  | some p =>
    let s := s.sites.foldl (fun s x => s.writeOutliers slot x (fun _ => true)) s
    let s := p.tiles.zipIdx.foldl (fun (s : State) t =>
      match t.1.home, s.siteOf t.1.lcore with
      | .resident la, some x => s.updCore x (fun c => c.setArr (s.phys x la) ((c.arr (s.phys x la)).loadScales t.1))
      | .near a, _ => s.writeImage a t.1
      | .far a, _ => s.writeImage a t.1
      | _, none => s) s
    (p.constants ++ p.seeds.map (fun (l : SeedList) => (l.addr, SeedList.bytes l))).foldl (fun s c => s.memWrite c.1 c.2 []) s

/-! ### Programming an array (R62, R63, R66, R339) -/

/-- The status fields of `WGT_PROG_STATE`. -/
def State.showProg (s : State) : State :=
  match s.prog with
  | none => s
  | some p =>
    let wave := if p.complete then 15 else
      match (p.dies.filter (fun d => !d.done)).map (fun d => d.wave) with
      | [] => 8
      | w :: t => t.foldl min w
    let st := if p.complete then 0 else if p.dies.any (fun d => d.stopped) then 3 else if p.dies.any (fun d => d.waiting) then 2 else 1
    (s.setRf Reg.WGT_PROG_STATE 0 0 23 22 st).setRf Reg.WGT_PROG_STATE 0 0 19 16 wave

/-- A column, or else a row, of a cell that fails verification goes to a spare within the programming (R339): the array with its
maps, the used columns and rows, and whether spares sufficed. -/
def retireCells (fails : List VerifyFail) (rows cols : List Nat) (r : Arr) (w : Nat) : Arr × Nat × Bool :=
  match fails with
  | [] => (r, w, true)
  | f :: t =>
    if rows.contains f.row || cols.contains f.col then retireCells t rows cols r w
    else
      let g := f.col / 64
      let used := bitsOf w (7 + 2 * g) (6 + 2 * g)
      if used < 2 then
        let r := { r with steer := SMap.put r.steer 0 f.col (512 + 2 * g + used) }
        retireCells t rows (f.col :: cols) r (setBits w (7 + 2 * g) (6 + 2 * g) (used + 1))
      else
        let ru := bitsOf w 5 0
        if ru < 32 then
          retireCells t (f.row :: rows) cols { r with rowMap := SMap.put r.rowMap 0 f.row (1024 + ru) } (setBits w 5 0 (ru + 1))
        else (r, w, false)

/-- Counts a program cycle; from 10,000 on each raises `ARY_WEAR` (R62, R63). -/
def State.countCycle (s : State) (site a : Nat) : State :=
  let n := s.rf Reg.ARY_PROG_CYCLESa site a 23 0
  let s := s.setRf Reg.ARY_PROG_CYCLESa site a 23 0 (min 0xFFFFFF (n + 1))
  if 10000 ≤ n then s.raise 0x13 site else s

/-- Programs an array with a tile of a generation slot: one cycle, its cells under its maps, age 0, the mean column gain measured (a
free value: notes/assumptions/3.md); what belonged to the former contents goes. The second component says that every cell verified; an array
of which one did not holds no tile and records no generation (R337, R339). -/
def State.programArray (s : State) (site a slot n : Nat) (t : Tile) (fails : List VerifyFail) : State × Bool :=
  let c := (s.core site).loseTile a
  let (r, w, ok) := retireCells fails [] [] (c.arr a) (s.reg Reg.ARY_SPAREa site a)
  let r : Arr := { r with
    cells := r.cellsFor t.levels, holds := if ok then .gen slot n else .none, gen := if ok then s.slotGen slot else 0, stats := []
    meanGain := s.free 32
    retire := r.retire.map (fun (x : Retire) => if x.done then { x with started := false, done := false } else x) }
  let s := (s.setCore site (c.setArr a r)).nextFree
  let s := (s.setReg Reg.ARY_SPAREa site a w).setReg Reg.ARY_AGEa site a 0
  let s := (s.countCycle site a).calAppend (dieOf site) 3 a site (driftPayload (s.rf Reg.ARY_DRIFT_COEFa site a 15 0) r.meanGain)
  (s.voidRound, ok)

/-- Programs an array to level 8 (R473): one cycle, age 0, and it holds no tile; R339 is not named for it, so no column or row is retired. -/
def State.eraseArray (s : State) (site a : Nat) : State :=
  let s := s.updCore site (fun c => (c.loseTile a).setArr a { c.arr a with cells := level8, holds := .none, gen := 0, draw := none, stats := [] })
  (s.countCycle site a).setReg Reg.ARY_AGEa site a 0

/-! ### Waves (R335 to R339) -/

/-- The wave in which a physical array is programmed; the array 16 that serves a tile joins the last (notes/assumptions/12.md). -/
def waveOf (a : Nat) : Nat := if a < 16 then a / 2 else 7

/-- Whether an array needs no programming for a tile: it holds the map already (R335), or a resumed programming has done it (R337). -/
def State.skips (s : State) (p : Prog) (e : Nat × Nat × Nat × Tile) : Bool :=
  let r := (s.core e.1).arr e.2.1
  (p.resumed && r.gen == s.slotGen p.slot) || (r.holds != .none && r.levelsNow == e.2.2.2.levels)

/-- Whether an array has failed. -/
def State.arrFailed (s : State) (site a : Nat) : Bool := s.rf Reg.ARY_STATEa site a 18 16 == 6

/-- Starts the programming of a slot; one that had stopped is resumed (R337). -/
def State.startProgramming (s : State) (slot : Nat) : State :=
  let d : DieProg := ⟨0, [], false, false, false⟩
  let p : Prog :=
    { slot := slot, erase := none, resumed := s.rf Reg.WGT_PROG_STATE 0 0 23 22 == 3, dies := [d, d], spares := [], placed := [], unplaced := [],
      complete := false }
  let l := s.placements slot
  let p := { p with spares := (l.filter (fun e => s.arrFailed e.1 e.2.1)).map (fun e => (e.1, e.2.2.1)) }
  let left := (l.filter (fun e => s.arrFailed e.1 e.2.1 || !s.skips p e)).length
  let s : State := { s with prog := some p }
  (s.setReg Reg.WGT_PROG_STATE 0 0 left).showProg

/-- A die with no array left in its wave moves on; the programming is complete once both dies are done and no tile waits for a
spare. An erasure that is complete lets its life-cycle transition go on (R473). -/
def State.settleProg (s : State) (die : Nat) : State :=
  match s.prog with
  | none => s
  | some p =>
    let p := { p with dies := p.dies.modify die (fun d =>
      if d.todo.isEmpty && !d.waiting && !d.done then { d with wave := d.wave + 1, done := decide (7 ≤ d.wave) } else d) }
    let p := { p with complete := p.dies.all (fun d => d.done) && p.spares.isEmpty }
    let s := ({ s with prog := some p }).showProg
    match p.erase with
    | some e => if p.complete then ({ s with prog := none } : State).lcFinish e.1 e.2.1 e.2.2 else s
    | none => s

/-- Applies `f` to a die's programming. -/
def State.updDie (s : State) (die : Nat) (f : DieProg → DieProg) : State :=
  match s.prog with
  | none => s
  | some p => ({ s with prog := some { p with dies := p.dies.modify die f } }).showProg

/-- Whether what a slot programs from must still be reloaded: its data have come poisoned, or are not there (R343, R361, R363). -/
def State.slotWaits (s : State) (slot : Nat) : Bool := (s.gen slot).broken || (s.gen slot).reload || (s.pkg slot).isNone

/-- The target levels of a slot are read poisoned (R361): what programs from it waits until the loader has reloaded the block. -/
def State.levelsPoisoned (s : State) (slot : Nat) : State := (s.updGen slot (fun g => { g with reload := true })).consumed true

/-- The arrays of a die's next wave with the tiles that they get: of an erasure every resident array of every enabled core, else those that
serve a tile of the slot and have not failed. -/
def State.waveArrays (s : State) (p : Prog) (die wave : Nat) : List (Nat × Nat) × List (Nat × Nat × Nat × Tile) :=
  if p.erase.isSome then
    ((s.sites.filter (fun x => dieOf x == die)).flatMap (fun x => ((List.range 17).filter (fun a => waveOf a == wave)).map (fun a => (x, a))), [])
  else
    let l := (s.placements p.slot).filter (fun e => dieOf e.1 == die && waveOf e.2.1 == wave && !s.arrFailed e.1 e.2.1)
    ((l.filter (fun e => !s.skips p e)).map (fun e => (e.1, e.2.1)), l.filter (fun e => s.skips p e))

/-- Starts the die's next wave when its preconditions hold, otherwise the wave waits (R336); a slot that cannot be read waits for its
reload (R343), and a die without a control pair that works has no loader (R31). -/
def State.tryWave (s : State) (die : Nat) : State :=
  match s.prog with
  | none => s
  | some p =>
    match p.dies[die]? with
    | none => s
    | some d =>
      if d.done || d.stopped || p.complete || !s.writesOk || (p.erase.isNone && s.slotWaits p.slot) || !s.writeFree die then s
      else if s.tempWindow die && s.holdup 3000 then
        let (todo, skip) := s.waveArrays p die d.wave
        let s := skip.foldl (fun (s : State) e =>
          s.updCore e.1 (fun c => c.setArr e.2.1 { c.arr e.2.1 with holds := .gen p.slot e.2.2.1, gen := s.slotGen p.slot })) s
        let s := (todo.filter (fun e => !s.arrFailed e.1 e.2)).foldl (fun (s : State) e => s.setRf Reg.ARY_STATEa e.1 e.2 18 16 4) s
        let s := s.updDie die (fun d => { d with todo := todo, waiting := false })
        if todo.isEmpty then s.settleProg die else s
      else if d.waiting then s
      else ((s.updDie die (fun d => { d with waiting := true })).err Reg.WGT_WAVE_DEFER 0 0 1).holdupCheck die 3000

/-- Whether the maintenance in progress waits on a precondition of a die. -/
def State.maintWaits (s : State) (die : Nat) : Bool :=
  match s.maint with
  | some m => m.waiting && dieOf m.site == die
  | none => false

/-- The preconditions of the programming step of a maintenance on a die, with a need of 0.01 J (R345). -/
def State.maintReady (s : State) (die : Nat) : Bool := s.writesOk && s.tempWindow die && s.holdup 20 && s.dieWorks die

/-- The programming step of a maintenance starts once its preconditions hold. -/
def State.tryMaint (s : State) (die : Nat) : State :=
  match s.maint with
  | some m =>
    if m.waiting && dieOf m.site == die && s.maintReady die && !s.nvWriting die then { s with maint := some { m with waiting := false } } else s
  | none => s

/-- A programming step of a maintenance begins: it waits where its preconditions do not hold, which counts once, and while another write of
the die is in progress (R456). -/
def State.beginMaint (s : State) (m : Maint) : State :=
  let die := dieOf m.site
  if s.maintReady die then { s with maint := some { m with waiting := s.nvWriting die } }
  else (({ s with maint := some { m with waiting := true } }).err Reg.WGT_WAVE_DEFER 0 0 1).holdupCheck die 20

/-- `WAVE_START`: a wave whose target levels come poisoned waits for their reload (R343, R361). -/
def execWaveStart (w : WaveRun) (s : State) : Out :=
  finish (match s.prog with
    | some p => if w.poisoned && p.erase.isNone && !s.slotWaits p.slot then s.levelsPoisoned p.slot else s.tryWave w.die
    | none => s)

/-- `WAVE_PRECONDITION_RECHECK`: every 1 ms of a wait. -/
def execWavePreconditionRecheck (die : Nat) (s : State) : Out :=
  let w := match s.prog.bind (fun p => p.dies[die]?) with
    | some d => d.waiting
    | none => false
  finish ((if w then s.tryWave die else s).tryMaint die)

/-- An erasure that has stopped on a precondition: its life-cycle transition is answered with the status and changes the state no further
(notes/assumptions/30.md). -/
def State.lcStop (s : State) (status : Nat) : State :=
  match s.prog.bind (fun p => p.erase) with
  | some e => s.answer e.1 status []
  | none => s

/-- The status that a failed precondition of a die gives. -/
def State.precondStatus (s : State) (die : Nat) : Nat := if s.tempWindow die then stHoldup else stTemp

/-- The end of a maintenance: its status shown and answered. -/
def State.endMaint (s : State) (m : Maint) (step status : Nat) : State :=
  let s : State := { ((s.setRf Reg.WGT_MAINT 0 0 19 12 status).setRf Reg.WGT_MAINT 0 0 2 0 step) with maint := none }
  s.answer m.reply status []

/-- A maintenance stops on a precondition (R345): before step 2 the spare goes back to `SPARE_IDLE`, after it the array stays in `PROGRAMMING`
until a new command for the same array completes it. -/
def State.stopMaint (s : State) (m : Maint) (status : Nat) : State :=
  let la := s.rf Reg.WGT_MAINT 0 0 11 8
  let s : State := if s.rf Reg.WGT_MAINT 0 0 2 0 = 1 then s.setRf Reg.ARY_STATEa m.site m.spare 18 16 1
    else { s with jobs := { s.jobs with left := s.jobs.left ++ [(m.site, la, m.arr)] } }
  (s.endMaint m 5 status).raise 0x50 devUnit

/-- `PROG_WAIT_TIMEOUT`: the wait of a wave, or of a maintenance step, has exceeded `WGT_PROG_WAIT` (R336, R345). -/
def execProgWaitTimeout (die : Nat) (s : State) : Out :=
  let st := s.precondStatus die
  let w := match s.prog.bind (fun p => p.dies[die]?) with
    | some d => d.waiting
    | none => false
  let s := if w then
      (((s.updDie die (fun d => { d with waiting := false })).stopProg.setRf Reg.WGT_PROG_STATE 0 0 31 24 st).raise 0x50 devUnit).lcStop st
    else s
  finish (match s.maint with
    | some m => if m.waiting && dieOf m.site == die && !s.maintReady die then s.stopMaint m st else s
    | none => s)

/-- Takes one from the arrays still to program. -/
def State.arrayLess (s : State) : State := s.setRf Reg.WGT_PROG_STATE 0 0 13 0 (s.rf Reg.WGT_PROG_STATE 0 0 13 0 - 1)

/-- An array of a wave is programmed: the state, and whether every cell verified. -/
def State.waveArray (s : State) (p : Prog) (site arr : Nat) (fails : List VerifyFail) : State × Bool :=
  if p.erase.isSome then (s.eraseArray site arr, true)
  else
    match (s.placements p.slot).find? (fun e => e.1 == site && e.2.1 == arr) with
    | some e => s.programArray site arr p.slot e.2.2.1 e.2.2.2 fails
    | none => (s, true)

/-- `ARRAY_PROGRAM_DONE`: an array of the wave is programmed and verified; `fails` are the cells that failed. A die without a control pair
has no loader (R31). -/
def execArrayProgramDone (site arr : Nat) (fails : List VerifyFail) (s : State) : Out :=
  let die := dieOf site
  match s.prog with
  | none => .next s
  | some p =>
    match p.dies[die]? with
    | some d =>
      if !d.todo.contains (site, arr) || !s.dieWorks die then .next s
      else
        let tiles := ((s.placements p.slot).filter (fun e => e.1 == site && e.2.1 == arr)).map (fun e => (site, e.2.2.1))
        let was := s.arrFailed site arr
        let (s, ok) := s.waveArray p site arr fails
        let s := s.setRf Reg.ARY_STATEa site arr 18 16 (if was || !ok then 6 else if p.erase.isSome &&
          s.rf Reg.ARY_STATEa site arr 12 8 == 0x1F then 1 else 0)
        let s := if ok then s.arrayLess else s.raise 0x12 site
        let s : State := if ok then s else { s with prog := some { p with spares := p.spares ++ tiles } }
        finish ((s.updDie die (fun d => { d with todo := d.todo.filter (fun x => x != (site, arr)) })).settleProg die)
    | none => .next s

/-- The physical array of a site in `SPARE_IDLE`. -/
def State.spareIdle (s : State) (site : Nat) : Option Nat := (List.range 17).find? (fun a => s.rf Reg.ARY_STATEa site a 18 16 == 1)

/-- A tile finds no working array (R339). -/
def State.unplaced (s : State) (p : Prog) (site n : Nat) : State :=
  (({ s with prog := some { p with unplaced := p.unplaced ++ [n] } }).setRf Reg.WGT_PROG_STATE 0 0 31 24 stNoSpare).raise 0x51 site

/-- `SPARE_TILE_STEP`: after the waves, a failed tile is programmed into its core's spare resident array; with poisoned target levels it waits as
`WAVE_START` does. A spare that a resumed programming finds programmed is not programmed again (R337). -/
def execSpareTileStep (site : Nat) (run : TileRun) (s : State) : Out :=
  match s.prog with
  | none => .next s
  | some p =>
    if p.complete || !p.dies.all (fun d => d.done) || !s.writesOk || s.slotWaits p.slot || !s.writeFree (dieOf site) then .next s
    else
      match p.spares.find? (fun x => x.1 == site) with
      | none => .next s
      | some (x, n) =>
        if run.poisoned then finish (s.levelsPoisoned p.slot)
        else
        let p := { p with spares := p.spares.erase (x, n) }
        let s := s.arrayLess
        match s.spareIdle site, (s.placements p.slot).find? (fun e => e.1 == site && e.2.2.1 == n) with
        | some a, some e =>
          let (s, ok) := if s.skips p (site, a, n, e.2.2.2) then
              (s.updCore site (fun c => c.setArr a { c.arr a with holds := .gen p.slot n, gen := s.slotGen p.slot }), true)
            else s.programArray site a p.slot n e.2.2.2 run.fails
          let s := s.setRf Reg.ARY_STATEa site a 18 16 (if ok then 0 else 6)
          let la := match e.2.2.2.home with
            | .resident la => la
            | _ => 0
          finish (if ok then (({ s with prog := some { p with placed := p.placed ++ [(site, la, a)] } } : State)).settleProg (dieOf site)
            else ((s.raise 0x12 site).unplaced p site n).settleProg (dieOf site))
        | _, _ => finish ((s.unplaced p site n).settleProg (dieOf site))

/-- Puts a physical array into the place of a logical one (R345, R339): the one that served it serves none. `SLU_OLISTa` of the array that
comes in shows the descriptor of the logical array, that of the other nothing (R115; notes/assumptions/12.md). -/
def State.switchArray (s : State) (site la a : Nat) : State :=
  let old := s.phys site la
  let d := (s.core site).descOf la
  let s := s.updCore site (fun c => c.loseTile old)
  let s := (s.setReg Reg.SLU_OLISTa site old 0).setReg Reg.SLU_OLISTa site a (d.oaddr * 2 ^ 18 + d.ocount)
  let s := s.setRf Reg.ARY_STATEa site old 12 8 0x1F
  let s := (s.setRf Reg.ARY_STATEa site a 12 8 la).setRf Reg.ARY_STATEa site a 18 16 0
  s.setRf Reg.ARY_INDIRn site la 4 0 a

/-- The done boundary on a device of the mask (R333, R334, R339): the slot becomes `HELD`, a slot held before is emptied; at step 5 tiles
placed in spares switch in and the loader writes what belongs to the generation (R164). -/
def State.finishProgramming (s : State) : State :=
  match s.prog with
  | none => s
  | some p =>
    let s := s.setRf Reg.WGT_GEN_SLOTn 0 p.slot 27 24 4
    let other := 1 - p.slot
    let s := if s.slotState other = 4 then s.clearSlot other else s
    { s with prog := none, jobs := { s.jobs with install := some p.slot, switches := p.placed } }

/-- Step 5 of a boundary at which a generation becomes held, or a held slot that was refilled serves again. -/
def State.install (s : State) : State :=
  match s.jobs.install with
  | none => s
  | some n =>
    let s := s.jobs.switches.foldl (fun (s : State) x => s.switchArray x.1 x.2.1 x.2.2) s
    let s : State := { s with jobs := { s.jobs with install := none, switches := [] } }
    (s.installGen n).voidRound

/-! ### Maintenance of an array in service (R344, R345) -/

/-- The replica instance of the device. -/
def State.ownInst (s : State) : Nat := s.rf Reg.FLK_REPLICA 0 0 23 20

/-- Whether an instance is in a replacement. -/
def State.inRepl (s : State) (inst : Nat) : Bool := s.repls.any (fun r => r.mask.testBit inst)

/-- The array that a stopped maintenance of the same array has left in `PROGRAMMING` (R345). -/
def State.stoppedMaint (s : State) (site la : Nat) : Option Nat :=
  (s.jobs.left.find? (fun x => x.1 == site && x.2.1 == la)).map (fun x => x.2.2)

/-- `ARRAY_MAINT`: *Maintenance checks*, then step 1, or step 3 again for an array that a stopped maintenance has left. -/
def execArrayMaint (h : Hdr) (lcore la action : Nat) (s : State) : Out :=
  s.command h (opRow 0x0133) false (decide (action = 1 ∨ action = 2)) true (fun s _ r =>
    match s.siteOf lcore with
    | none => s.answer r stNotFound []
    | some x =>
      if 16 ≤ la then s.answer r stBadField []
      else if s.rf Reg.RTR_FENCE x 0 1 0 ≠ 0 then s.answer r stFenced []
      else if s.maint.isSome || s.inRepl s.ownInst then s.answer r stBusy []
      else
        let again := s.stoppedMaint x la
        match again, s.spareIdle x with
        | none, none => s.answer r stNoSpare []
        | _, sp =>
          if !s.tempWindow (dieOf x) then s.answer r stTemp []
          else if !s.holdup 20 then (s.holdupCheck (dieOf x) 20).answer r stHoldup []
          else
            let w := lcore * 2 ^ 22 + action * 2 ^ 20 + la * 2 ^ 8
            match again with
            | some a =>
              let s : State := { s.setReg Reg.WGT_MAINT 0 0 (w + 3) with
                jobs := { s.jobs with left := s.jobs.left.filter (fun e => e != (x, la, a)) } }
              s.beginMaint { reply := r, site := x, arr := a, spare := s.phys x la, copied := true, waiting := false }
            | none =>
              let p := sp.getD 16
              let s := (s.setReg Reg.WGT_MAINT 0 0 (w + 1)).setRf Reg.ARY_STATEa x p 18 16 2
              s.beginMaint { reply := r, site := x, arr := s.phys x la, spare := p, copied := false, waiting := false })

/-- Programs an array with the held tile of a logical array; the second component says that every cell verified. -/
def State.programHeld (s : State) (site la a : Nat) (fails : List VerifyFail) : State × Bool :=
  match s.heldTile site la with
  | some (slot, n, t) =>
    let (s, ok) := s.programArray site a slot n t fails
    (s.updCore site (fun c => c.setArr a ((c.arr a).loadScales t)), ok)
  | none => ((s.countCycle site a).setReg Reg.ARY_AGEa site a 0, true)

/-- Whether a maintenance would program from data that must still be reloaded (R363). -/
def State.heldWaits (s : State) : Bool :=
  match s.heldSlot with
  | some n => s.slotWaits n
  | none => false

/-- The target levels of the held slot come poisoned in a programming step of a maintenance, which waits for their reload (R361). -/
def State.heldPoisoned (s : State) : State :=
  match s.heldSlot with
  | some n => s.levelsPoisoned n
  | none => s

/-- `MAINT_COPY_DONE`: the spare is programmed and calibrated. A spare that fails for good
(R339) ends the maintenance, and the array goes on serving (notes/assumptions/12.md). A copy whose target
levels come poisoned is not done. -/
def execMaintCopyDone (x : MaintCopy) (s : State) : Out :=
  match s.maint with
  | none => .next s
  | some m =>
    if m.copied || m.waiting || s.heldWaits || s.safe || !s.dieWorks (dieOf m.site) then .next s
    else if x.run.poisoned then finish s.heldPoisoned
    else
      let (s, ok) := s.programHeld m.site (s.rf Reg.WGT_MAINT 0 0 11 8) m.spare x.run.fails
      if ok then
        let s := s.calArray { x.cal with site := m.site, arr := m.spare }
        finish { s with maint := some { m with copied := true } }
      else finish (((s.setRf Reg.ARY_STATEa m.site m.spare 18 16 6).raise 0x12 m.site).endMaint m 0 stNoSpare)

/-- Step 2 of R345, at step 5 of a boundary: the indirection switches, substitutions and pending retirements of the array are
released, and step 3 begins; a rewrite waits where its preconditions do not hold. -/
def State.maintSwitch (s : State) : State :=
  match s.maint with
  | none => s
  | some m =>
    if !m.copied || s.rf Reg.WGT_MAINT 0 0 2 0 != 1 then s
    else
      let la := s.rf Reg.WGT_MAINT 0 0 11 8
      let rewrite := s.rf Reg.WGT_MAINT 0 0 21 20 == 2
      let s := (s.switchArray m.site la m.spare).updCore m.site (fun c => c.setArr m.arr { c.arr m.arr with retire := [], suspended := false })
      let s := (s.setRf Reg.ARY_STATEa m.site m.arr 18 16 (if rewrite then 4 else 3)).setRf Reg.WGT_MAINT 0 0 2 0 3
      if rewrite then s.voidRound.beginMaint m else s.voidRound

/-- `MAINT_STEP3_DONE`: the array is recalibrated or rewritten, and becomes the spare, or has failed; the cells of a rewrite that fail verification
retire their columns and rows as in any programming (R339). A rewrite whose target levels come poisoned is not done, and in the safe state
nothing is (R411). -/
def execMaintStep3Done (cal : ArrayCal) (run : MaintEnd) (s : State) : Out :=
  match s.maint with
  | none => .next s
  | some m =>
    let rewrite := s.rf Reg.ARY_STATEa m.site m.arr 18 16 == 4
    if s.rf Reg.WGT_MAINT 0 0 2 0 != 3 || m.waiting || (rewrite && s.heldWaits) || s.safe || !s.dieWorks (dieOf m.site) then .next s
    else if rewrite && run.poisoned then finish s.heldPoisoned
    else
      let (s, ok) := if rewrite then s.programHeld m.site (s.rf Reg.WGT_MAINT 0 0 11 8) m.arr run.fails
        else (s.calArray { cal with site := m.site, arr := m.arr }, true)
      let s := s.setRf Reg.ARY_STATEa m.site m.arr 18 16 (if !ok || s.arrFailed m.site m.arr then 6 else 1)
      let s := if ok then s else s.raise 0x12 m.site
      finish (s.endMaint m 0 stOk)

end Sys2Proof.Machine
end

