-- ==== Sys2Proof/Machine/Memory.lean ====
section
/-! DEFINITION. Near memory, far memory and scratchpads (chapter 12): the codeword, patrol scrub, reloads, failed stacks and channels,
power of scratchpads, march tests, the secure window. -/

namespace Sys2Proof.Machine

/-! ### Patrol scrub (R357) -/

/-- Notes that a word of near or far memory (address ÷ 8) has stored bits in error that no read has met. -/
def State.spoil (s : State) (w : Nat) (err : BitVec 80) : State :=
  { s with latent := SMap.upd s.latent 0 w (fun e => e ^^^ err) }

/-- `PATROL_SCRUB`: the stored bits of `err` at an address are in error, and the scrub reads the codeword there. Where the scrub does not run
(`MEM_SCRUB.ENABLE` = 0), the errors stand until a read meets them (R355). -/
def execPatrolScrub (r : Region) (addr : Nat) (err : BitVec 80) (s : State) : Out :=
  let mem := fun (s : State) =>
    let t := s.spoil (addr / 8) err
    finish (if s.rf Reg.MEM_SCRUB 0 0 31 31 = 1 then t.meet addr 1 else t)
  match r with
  | .near => if decide (addr < 0xA000000000) && s.memUp addr then mem s else .next s
  | .far => if decide (farBase ≤ addr ∧ addr < farBase + 0x10000000000) && s.memUp addr then mem s else .next s
  | .spm site =>
    if s.enabled site && decide (addr < spmSize) && s.rf Reg.SPM_PWR site 0 9 8 == 0 &&
      !s.marching site then finish (s.spmWord site addr err) else .next s

/-! ### Reloads (R361, R363) -/

/-- `BLOCK_RELOAD_DONE`: the loader has reloaded a block from the package copy, or the reload has met poison or a failed
tag: then master weights stay away from the audits, and a slot whose levels or constants are lost programs no more. -/
def execBlockReloadDone (slot : Nat) (k : ReloadKind) (e : ReloadEnd) (s : State) : Out :=
  match s.pkg slot with
  | none => .next s
  | some p =>
    if e = .done then
      .next (match k with
        | .master _ => s
        | .levels n =>
          let s := s.updGen slot (fun g => { g with reload := false })
          match p.tiles[n]? with
          | some t =>
            match Home.addr? t.home with
            | some a => s.writeImage a t
            | none => s
          | none => s
        | .constants n =>
          match p.constants[n]? with
          | some c => s.memWrite c.1 c.2 []
          | none => s)
    else
      let s := match k with
        | .master n => s.updGen slot (fun g => { g with noMaster := n :: g.noMaster.filter (fun m => m != n) })
        | _ => s.updGen slot (fun g => { g with broken := true })
      finish ((s.consumed (e == .poison)).raise 0x5C devUnit)

/-! ### Service level (R423, R424) -/

/-- Whether a unit of the management set is lost: both control pairs of die 0, or every host lane. -/
def State.mgmtLost (s : State) : Bool := !s.dieWorks 0 || s.rf Reg.HPT_LINK_STATE 0 0 23 16 == 0xFF

/-- The level's effects follow it: a drop to `MANAGEMENT_ONLY` stops the step programs and raises `FCL_COMPUTE_LOST`. -/
def State.applyService (s : State) : State :=
  if s.safe then s
  else
    let n := s.serviceNow
    let old := s.rf Reg.FCL_STATE 0 0 2 0
    let t := s.setRf Reg.FCL_STATE 0 0 2 0 n
    if n = 2 ∧ old < 2 then t.stopIssue.raise 0x05 devUnit else t

/-- After a change of units: the loss of the management set enters the safe state at once; the effects of another level wait for the next
boundary where lockages run, though the level reads at once (R423, R424). -/
def State.review (s : State) : State :=
  if s.mgmtLost then s.enterSafe 3
  else if s.inFlight then s
  else s.applyService

/-- `STACK_FAILURE` (R351). -/
def execStackFailure (stack : Nat) (s : State) : Out :=
  let st := s.rf Reg.MEM_STACKs_STATE stack 0 2 0
  if stack < 8 ∧ (st = 1 ∨ st = 2) then finish (((s.setRf Reg.MEM_STACKs_STATE stack 0 2 0 3).raise 0x5A stack).review) else .next s

/-- `CHANNEL_FAILURE` (R351). -/
def execChannelFailure (channel : Nat) (s : State) : Out :=
  let st := s.rf Reg.MEM_FARc_STATE channel 0 2 0
  if channel < 32 ∧ (st = 1 ∨ st = 2) then finish (((s.setRf Reg.MEM_FARc_STATE channel 0 2 0 3).raise 0x5B channel).review) else .next s

/-! ### The secure window (R372, R373) -/

/-- Clears every enabled secure window of the device, counts and raises the wipe. -/
def State.wipeWindows (s : State) : State :=
  (s.sites.filter (fun x => s.rf Reg.SPM_SECURE x 0 0 0 == 1)).foldl (fun s x =>
    let s := s.updCore x (fun c => { c with spm := Mem.clear c.spm 0xF0000 0x10000, spmPoison := unpoison c.spmPoison 0xF0000 0x10000 })
    (s.setRf Reg.SPM_SECURE x 0 31 16 (min 0xFFFF (s.rf Reg.SPM_SECURE x 0 31 16 + 1))).raise 0x60 x) s

/-! ### Power and march tests of a scratchpad (R367 to R371) -/

/-- Whether a core is fenced, either way (R417; what requests need it: R425). -/
def State.fenced (s : State) (site : Nat) : Bool := s.rf Reg.RTR_FENCE site 0 1 0 != 0

/-- A scratchpad with every word cleared. -/
def Core.clearSpm (c : Core) : Core := { c with spm := [], spmPoison := [] }

/-- A scratchpad goes on, into retention or off (R367): one that leaves off comes up cleared, and the loader rewrites its outlier lists. -/
def State.spmMode (s : State) (site mode : Nat) : State :=
  let old := s.rf Reg.SPM_PWR site 0 9 8
  let s := s.setRf Reg.SPM_PWR site 0 9 8 mode
  if mode = 2 ∨ old = 2 then
    let s := s.updCore site Core.clearSpm
    if mode = 0 then
      match s.heldSlot with
      | some n => s.writeOutliers n site (fun _ => true)
      | none => s
    else s
  else s

/-- Sets a scratchpad's state; every enabled window of the device is wiped before it is switched off (R373). -/
def State.setSpmPower (s : State) (site mode : Nat) : State :=
  (if mode = 2 ∧ s.rf Reg.SPM_PWR site 0 9 8 ≠ 2 then s.wipeWindows else s).spmMode site mode

/-- Starts a march test; a request meets a core in service, or a test under way, with `E_BUSY` (R370). -/
def State.startMarch (s : State) (site : Nat) (preserve : Bool) : State :=
  let s := s.setReg Reg.SPM_MARCH_STATE site 0 1
  { s with jobs := { s.jobs with marches := s.jobs.marches ++ [(site, preserve)] } }

/-- Maps a failing word to the lowest free spare that is not itself failing (R371); a word that a spare replaces already needs no second one.
False where there is none. -/
def State.remapWord (s : State) (site word : Nat) (bad : List Nat) : State × Bool :=
  if (List.range 8).any (fun n => s.reg Reg.SPM_REMAPn site n == 2 ^ 31 + word) then (s, true)
  else
  match (List.range 8).find? (fun n => s.rf Reg.SPM_REMAPn site n 31 31 == 0 && !bad.contains n) with
  | some n => (s.setReg Reg.SPM_REMAPn site n (2 ^ 31 + word), true)
  | none => (s, false)

/-- The outcome of a march test: `fails` are the failing words, 16,384 and above the spares. -/
def State.marchResult (s : State) (site : Nat) (fails : List Nat) : State :=
  let l := fails.mergeSort (fun a b => decide (a ≤ b))
  let bad := (l.filter (fun w => decide (16384 ≤ w))).map (fun w => w - 16384)
  let used := bad.filter (fun n => s.rf Reg.SPM_REMAPn site n 31 31 == 1)
  let lost := used.map (fun n => s.rf Reg.SPM_REMAPn site n 13 0)
  let words := (l.filter (fun w => decide (w < 16384)) ++ lost).mergeSort (fun a b => decide (a ≤ b))
  let t := used.foldl (fun s n => s.setReg Reg.SPM_REMAPn site n 0) s
  let (t, ok) := words.foldl (fun (x : State × Bool) w => let (u, b) := x.1.remapWord site w bad; (u, x.2 && b)) (t, true)
  let w := match l with
    | [] => 0
    | f :: _ => 2 ^ 31 + f * 2 ^ 16
  let n := l.length
  if 8 < n ∨ !ok then ((s.setReg Reg.SPM_MARCH_STATE site 0 (w + min 255 n * 2 ^ 8 + 4)).raise 0x5E site).review
  else t.setReg Reg.SPM_MARCH_STATE site 0 (w + n * 2 ^ 8 + (if n = 0 then 2 else 3))

/-- What the loader has owed a site under a march test is written (R370). -/
def State.payLists (s : State) (site : Nat) : State :=
  let l := s.jobs.owed.filter (fun x => x.2 == site)
  let s : State := { s with jobs := { s.jobs with owed := s.jobs.owed.filter (fun x => x.2 != site) } }
  let s := l.foldl (fun (s : State) x => s.writeOutliers x.1 site (fun _ => true)) s
  match s.sched.active with
  | some im => if l.isEmpty then s else s.updCore site (fun c => c.loadCaps im site)
  | none => s

/-- `MARCH_TEST_DONE`. -/
def execMarchTestDone (site : Nat) (fails : List Nat) (s : State) : Out :=
  match s.jobs.marches.find? (fun m => m.1 == site) with
  | none => .next s
  | some m =>
    let s : State := { s with jobs := { s.jobs with marches := s.jobs.marches.filter (fun x => x.1 != site) } }
    let s := if m.2 then s else s.updCore site Core.clearSpm
    finish ((s.marchResult site fails).payLists site)

end Sys2Proof.Machine
end

