-- ==== Sys2Proof/Machine/Collector.lean ====
section
/-! DEFINITION. The fault collector's own rows (chapter 14): self-check, control pairs, signature commits and reads, fences, self-tests. -/

namespace Sys2Proof.Machine

/-- `COLLECTOR_COPY_MISMATCH` (R410); in OFF the copies are not compared (R491). -/
def execCollectorCopyMismatch (s : State) : Out := if s.pow.on then finish (s.enterSafe 1) else .next s

/-! ### Control pairs (R421, R422) -/

/-- Ticks of 8 ns in 10 s. -/
def tenSeconds : Nat := 1250000000

/-- `CP_MISMATCH`; the pairs run from the boot on (R476, R491). -/
def execCpMismatch (pair : Nat) (s : State) : Out :=
  if !s.pow.booted ∨ 4 ≤ pair ∨ s.rf Reg.FCL_CP_STATE 0 0 (2 * pair + 1) (2 * pair) ≠ 0 then .next s
  else
    let s : State := { s with fcl := { s.fcl with pairs := s.fcl.pairs.modify pair (fun (p : Pair) =>
      { testing := true, last := some s.now, again := match p.last with
          | some t => decide (s.now ≤ t + tenSeconds)
          | none => false }) } }
    finish (s.raise 0x02 pair)

/-- A pair fails: its duties move, and compute on a die without a pair stops (R31). -/
def State.failPair (s : State) (pair : Nat) : State :=
  let s := (s.setRf Reg.FCL_CP_STATE 0 0 (2 * pair + 1) (2 * pair) 3).raise 0x04 pair
  let die := pair / 2
  let s : State := if s.dieWorks die then s else
    { s with cores := s.cores.map (fun c => if dieOf c.1 = die then (c.1, c.2.halt) else c) }
  s.review

/-- `CP_SELF_TEST_DONE`: the outcome on the pair's two cores. -/
def execCpSelfTestDone (pair : Nat) (pass0 pass1 : Bool) (s : State) : Out :=
  match s.fcl.pairs[pair]? with
  | none => .next s
  | some p =>
    if !p.testing then .next s
    else
      let s : State := { s with fcl := { s.fcl with pairs := s.fcl.pairs.modify pair (fun (q : Pair) => { q with testing := false }) } }
      if p.again || (!pass0 && !pass1) then finish (s.failPair pair)
      else if pass0 && pass1 then .next s
      else finish (((s.setRf Reg.FCL_CP_STATE 0 0 (2 * pair + 1) (2 * pair) (if pass0 then 1 else 2)).raise 0x03 pair).review)

/-- `CP_PERIODIC_SELF_TEST`: an unpaired core repeats its self-test. -/
def execCpPeriodicSelfTest (pair : Nat) (pass : Bool) (s : State) : Out :=
  let st := s.rf Reg.FCL_CP_STATE 0 0 (2 * pair + 1) (2 * pair)
  if pair < 4 ∧ (st = 1 ∨ st = 2) ∧ !pass then finish (s.failPair pair) else .next s

/-! ### The signature store (R414, R416) -/

/-- The oldest buffered record goes into the partition; in a full one it takes the place of the oldest record of lower retention, or is
discarded (R414). -/
def State.commitOldest (s : State) : State :=
  match s.fcl.buffer with
  | [] => s
  | r :: rest =>
    let t : State := { s with fcl := { s.fcl with buffer := rest } }
    let drop := (t.err Reg.FCL_SIG_DROPPED 0 0 1).raise 0x01 devUnit
    if s.fcl.store.length < 1024 then { t with fcl := { t.fcl with store := t.fcl.store ++ [r] } }
    else
      match s.fcl.store.find? (fun x => decide (x.sev ≤ 1)) with
      | some x => if 2 ≤ r.sev then { t with fcl := { t.fcl with store := t.fcl.store.erase x ++ [r] } } else drop
      | none => drop

/-- `SIGNATURE_COMMIT`: the oldest buffered record is committed when the hold-up check passes and no other write of die 0, which holds the store,
is in progress (R456). -/
def execSignatureCommit (s : State) : Out :=
  if !s.pow.booted || s.fcl.buffer.isEmpty || !s.writesOk || s.nvWriting 0 then .next s
  else if !s.holdup 200 then finish (s.holdupCheck 0 200)
  else finish s.commitOldest

/-- The bytes of a GUID given as its first three fields and its last eight bytes (UEFI; notes/assumptions/13.md). -/
def guid (a b c : Nat) (d : List Byte) : List Byte := toLE 4 a ++ toLE 2 b ++ toLE 2 c ++ d

/-- `CreatorID`. -/
def creatorId : List Byte := guid 0x3A1F5C62 0x9D47 0x4E0B [0x8C, 0x21, 0x7B, 0x56, 0xE0, 0xA4, 0xD9, 0x13]

/-- `SectionType`. -/
def sectionType : List Byte := guid 0x6F7A2C1E 0x58B3 0x4D9A [0xA1, 0xC4, 0x3E, 0x0B, 0x92, 0xF7, 0xD6, 0x15]

/-- The notification types CMC and MCE of the UEFI specification. -/
def notification (sev : Nat) : List Byte :=
  if sev ≤ 1 then guid 0x2DCE8BB1 0xBDD7 0x450E [0xB9, 0xAD, 0x9C, 0xF4, 0xEB, 0xD4, 0xF8, 0x90]
  else guid 0xE8F56FFE 0x919C 0x4CC5 [0xBA, 0x88, 0x65, 0xAB, 0xE1, 0x49, 0x13, 0xBB]

/-- The CPER severity of a severity (*CPER record as written*). -/
def cperSeverity (sev : Nat) : Nat :=
  match sev with
  | 0 => 3
  | 1 => 2
  | 2 => 0
  | _ => 1

/-- *Otost section header* and payload. -/
def SigRec.otost (r : SigRec) : List Byte :=
  toLE 2 r.src ++ toLE 2 r.unit ++ toLE 1 r.sev ++ toLE 1 r.kind ++ toLE 2 r.payload.length ++ toLE 8 r.lockage ++ toLE 8 r.time ++
  toLE 4 r.count ++ toLE 2 r.devNo ++ toLE 1 r.gen ++ toLE 1 r.lc ++ toLE 4 r.sched ++ List.replicate 28 0 ++ r.payload

/-- *CPER record as written*; `key` is the device identity public key. -/
def SigRec.cper (key : List Byte) (r : SigRec) : List Byte :=
  let sec := r.otost
  let sev := toLE 4 (cperSeverity r.sev)
  [0x43, 0x50, 0x45, 0x52] ++ toLE 2 0x0101 ++ toLE 4 0xFFFFFFFF ++ toLE 2 1 ++ sev ++ toLE 4 1 ++ toLE 4 (200 + sec.length) ++ toLE 8 0 ++
  (sm3 key).take 16 ++ toLE 16 0 ++ creatorId ++ notification r.sev ++ toLE 8 r.number ++ toLE 4 0 ++ toLE 8 0 ++ toLE 12 0 ++
  toLE 4 200 ++ toLE 4 sec.length ++ toLE 2 0x0100 ++ toLE 1 2 ++ toLE 1 0 ++ toLE 4 1 ++ sectionType ++ toLE 16 0 ++ sev ++
  ([0x45, 0x72, 0x6F, 0x69, 0x64, 0x65, 0x6E] ++ List.replicate 13 0) ++ sec

/-- `SIG_READ`. -/
def execSigRead (h : Hdr) (first count : Nat) (s : State) : Out :=
  s.command h (opRowM 0x0172) false true (decide (1 ≤ count ∧ count ≤ 64)) (fun s _ r =>
    let l := (s.fcl.store ++ s.fcl.buffer).mergeSort (fun a b => decide (a.number ≤ b.number))
    s.answer r stOk (((l.filter (fun x => decide (first ≤ x.number))).take count).flatMap (SigRec.cper (s.identityPublic.getD []))))

/-! ### Fences (R417, R418) -/

/-- Whether a schedule uses a router: a route entry, a reduction node or a program at its site. -/
def imageUses (im : Image) (site : Nat) : Bool :=
  let t := fun (v : VariantTables) => v.routes.any (fun r => r.site == site) || v.red.any (fun n => n.site == site)
  t im.normal || t im.wide || im.cores.any (fun c => c.site == site)

/-- Whether the active schedule excludes a router; no schedule uses one. -/
def State.routerFree (s : State) (site : Nat) : Bool :=
  match s.sched.active with
  | some im => !imageUses im site
  | none => true

/-- Whether a self-test, of the sluice or of memory, runs on a site. -/
def State.testing (s : State) (site : Nat) : Bool := s.marching site || s.jobs.selfTests.any (fun t => t.1 == site)

/-- The status of a fence request (*Fence requests*); `stOk` where it is accepted. -/
def State.fenceCheck (s : State) (site kind : Nat) : Nat :=
  if nSites ≤ site then stNotFound
  else
    match kind with
    | 1 =>
      if !s.enabled site then stNotFound
      else if s.testing site || (match s.maint with | some m => m.site == site | none => false) then stBusy else stOk
    | 2 =>
      if s.routerFree site || (match s.sched.staged with | some im => !imageUses im site | none => false) then stOk else stBusy
    | _ => if s.testing site || s.rf Reg.SPM_MARCH_STATE site 0 2 0 == 4 then stBusy else stOk

/-- `FENCE`: a request that is accepted waits for its boundary. -/
def execFence (h : Hdr) (site kind : Nat) (s : State) : Out :=
  s.command h (opRow 0x0170) false (decide (kind ≤ 2)) true (fun s _ r =>
    let st := s.rf Reg.RTR_FENCE site 0 1 0
    if site < nSites ∧ st = kind ∧ s.rf Reg.RTR_FENCE site 0 5 4 = 0 ∧ !(kind = 1 ∧ !s.enabled site) then s.answer r stOk []
    else if s.fenceCheck site kind ≠ stOk then s.answer r (s.fenceCheck site kind) []
    else
      let s := s.setRf Reg.RTR_FENCE site 0 5 4 (if kind = 0 then 3 else kind)
      { s with jobs := { s.jobs with fences := s.jobs.fences ++ [(site, r)] } })

/-- Puts a core behind a fence: it runs nothing, and the packets held for it are discarded. -/
def State.fenceCore (s : State) (site state cause : Nat) : State :=
  let c := s.core site
  let s := s.setCore site { c.halt with held := [] }
  let s := s.err Reg.RTR_FENCE_DROP site 0 c.held.length
  s.setReg Reg.RTR_FENCE site 0 (cause * 2 ^ 8 + state)

/-- Step 5 of a boundary, or an activation: the requests that take effect; one for a router waits for a schedule that excludes it. -/
def State.fenceEffects (s : State) : State :=
  let sites := (List.range nSites).filter (fun x => s.rf Reg.RTR_FENCE x 0 5 4 != 0)
  sites.foldl (fun s x =>
    let p := s.rf Reg.RTR_FENCE x 0 5 4
    if (p = 2 ∧ !s.routerFree x) ∨ (p = 3 ∧ (s.marching x ∨ s.rf Reg.SPM_MARCH_STATE x 0 2 0 = 4)) then s
    else
      let s := if p = 3 then s.setReg Reg.RTR_FENCE x 0 0 else s.fenceCore x p 0
      let rs := s.jobs.fences.filter (fun f => f.1 == x)
      let s : State := { s with jobs := { s.jobs with fences := s.jobs.fences.filter (fun f => f.1 != x) } }
      rs.foldl (fun s f => s.answer f.2 stOk []) s) s

/-- `BLOCK_RESET` of a site at its boundary (R407): the core is fenced, its islands and registers cleared (`SLU_OLISTa` with the descriptors that it
shows, R202), and the destructive march test runs, in place of one that runs already. A router fence, and a request that is still pending, stay. -/
def State.blockResets (s : State) : State :=
  (s.cores.filter (fun c => c.2.blockReset)).foldl (fun s kc =>
    let x := kc.1
    let f := s.reg Reg.RTR_FENCE x 0
    let s := (s.fenceCore x (max 1 (bitsOf f 1 0)) 1).setRf Reg.RTR_FENCE x 0 5 4 (bitsOf f 5 4)
    let c := s.core x
    let s := s.setCore x { coreDefault with
      spm := c.spm, spmPoison := c.spmPoison, auditCtl := c.auditCtl, peerTold := c.peerTold, reds := c.reds, redHold := c.redHold
      redOver := c.redOver
      arrs := c.arrs.foldl (fun m a => SMap.put m arrDefault a.1 { a.2 with draw := none, suspended := false, owed := false }) [] }
    let s := (List.range 19).foldl (fun (s : State) a => s.setReg Reg.SLU_OLISTa x a 0) (s.showResolving x)
    let s : State := { s with jobs := { s.jobs with marches := s.jobs.marches.filter (fun m => m.1 != x) } }
    s.startMarch x false) s

/-! ### Sluice self-test (R137, R426) -/

/-- `SELF_TEST`. A site without a core is answered `E_NOT_FOUND`, and one on which a march test or another self-test runs `E_BUSY`: R137 and R425
name no status for either (the model's choice, notes/assumptions/35.md). -/
def execSelfTest (h : Hdr) (site unit : Nat) (s : State) : Out :=
  s.command h (opRow 0x0171) false (decide (unit = 1)) true (fun s _ r =>
    if !s.enabled site then s.answer r stNotFound []
    else if !s.fenced site || s.testing site then s.answer r stBusy []
    else { s with jobs := { s.jobs with selfTests := s.jobs.selfTests ++ [(site, r)] } })

/-- `SLUICE_SELF_TEST_DONE`: a pass makes the checker active from the next boundary. -/
def execSluiceSelfTestDone (site : Nat) (pass : Bool) (s : State) : Out :=
  match s.jobs.selfTests.find? (fun t => t.1 == site) with
  | none => .next s
  | some t =>
    let s : State := { s with jobs := { s.jobs with
      selfTests := s.jobs.selfTests.filter (fun x => x.1 != site), passed := if pass then s.jobs.passed ++ [site] else s.jobs.passed } }
    .next (s.answer t.2 stOk [if pass then 0 else 1])

/-- The checkers whose self-test has passed are active again. -/
def State.checkersBack (s : State) : State :=
  let s' := s.jobs.passed.foldl (fun (s : State) x => (s.setRf Reg.SLU_STATE x 0 1 0 0).setRf Reg.SLU_STATE x 0 2 2 0) s
  { s' with jobs := { s'.jobs with passed := [] } }

end Sys2Proof.Machine
end

