-- ==== Sys2Proof/Machine/Sensing.lean ====
section
/-! DEFINITION. Calibration, housekeeping and thermal limits (chapter 15, R430 to R456): scans, triggers, diodes, ages, the calibration
store, `CALIBRATE` and `ELAPSED`. -/

namespace Sys2Proof.Machine

/-! ### The calibration store (R438 to R440) -/

/-- CRC-32C of bytes (R438). -/
def crc32c (bs : List Byte) : Nat :=
  (bs.foldl (fun c b => (List.range 8).foldl (fun c _ => if c % 2 = 1 then c / 2 ^^^ 0x82F63B78 else c / 2) (c ^^^ b.toNat)) 0xFFFFFFFF) ^^^ 0xFFFFFFFF

/-- *Calibration record*. -/
def CalRec.bytes (r : CalRec) : List Byte :=
  let b := toLE 2 0xCA1B ++ toLE 1 r.typ ++ toLE 1 r.arr ++ toLE 2 r.site ++ toLE 2 0 ++ toLE 4 r.payload.length ++ toLE 8 r.seq ++ r.payload
  b ++ toLE 4 (crc32c b)

/-- The bytes that a record takes in the store, padding included. -/
def CalRec.size (r : CalRec) : Nat := (20 + r.payload.length + 4 + 7) / 8 * 8

/-- Whether two records have one key. -/
def CalRec.sameKey (a b : CalRec) : Bool := a.typ == b.typ && a.site == b.site && a.arr == b.arr

/-- The latest record of every key, in the order of the store. -/
def latestRecs (l : List CalRec) : List CalRec :=
  match l with
  | [] => []
  | r :: t => if t.any (fun x => x.sameKey r) then latestRecs t else r :: latestRecs t

/-- The records of a list that fit in `n` bytes, and the others. -/
def takeBytes (n : Nat) (l : List CalRec) : List CalRec × List CalRec :=
  match l with
  | [] => ([], [])
  | r :: t => if r.size ≤ n then (let (a, b) := takeBytes (n - r.size) t; (r :: a, b)) else ([], r :: t)

/-- The bytes of records. -/
def recsSize (l : List CalRec) : Nat := (l.map CalRec.size).sum

/-- The size of a half of a calibration store. -/
def halfSize : Nat := 0x4000000

/-- Commits a batch on a die (R440): compaction first where it would not fit; `bad` are the sequence numbers whose read-back differs, and
those records are written again. -/
def State.commitBatch (s : State) (die : Nat) (bad : List Nat) : State :=
  match s.cal[die]? with
  | none => s
  | some c =>
    let (batch, rest) := takeBytes 65536 c.waiting
    if batch.isEmpty then s
    else
      let again := batch.filter (fun r => bad.contains r.seq)
      let (recs, s, next, lost) :=
        if halfSize < recsSize c.recs + c.lost + recsSize batch + recsSize again then
          let kept := latestRecs (c.recs.filter (fun r => r.typ != 7))
          let first := (kept.head?.map (fun r => r.seq)).getD c.next
          let mark : CalRec := { typ := 7, arr := 0xFF, site := 0xFFFF, seq := c.next, payload := toLE 8 first }
          (kept ++ [mark], s.setRf Reg.CAL_STOREd 0 die 31 31 (1 - s.rf Reg.CAL_STOREd 0 die 31 31), c.next + 1, 0)
        else (c.recs, s, c.next, c.lost)
      let recs := recs ++ batch
      let s : State := { s with cal := s.cal.set die { recs := recs, waiting := rest, next := next, lost := lost + recsSize again } }
      let s := s.setRf Reg.CAL_STOREd 0 die 6 0 (min 100 (100 * (recsSize recs + lost + recsSize again) / halfSize))
      again.foldl (fun s _ => s.raise 0x7B die) s

/-- `CAL_BATCH_COMMIT`: on each die with records waiting, under the hold-up requirement, and not beside another write of the die (R456). -/
def execCalBatchCommit (badReadBack : List Nat) (s : State) : Out :=
  if !s.writesOk then .next s
  else finish ((List.range 2).foldl (fun (s : State) d =>
    if ((s.cal[d]?).map (fun c => c.waiting.isEmpty)).getD true || s.nvWriting d then s
    else if s.holdup 100 then s.commitBatch d badReadBack
    else s.holdupCheck d 100) s)

/-! ### Band-gap (R430) -/

/-- The band-gap value recorded at manufacture, in 1/65,536 V; the nominal 1.200 V where no record is held. -/
def State.bandgapRef (s : State) (die : Nat) : Nat :=
  match ((s.cal[die]?).map (fun c => c.recs)).bind (fun l => (latestRecs l).find? (fun r => r.typ == 6)) with
  | some r => ofLE r.payload
  | none => 78643

/-- Judges a band-gap reading of a die, in 1/65,536 V. -/
def State.bandgap (s : State) (die : Nat) (v : Int) : State :=
  let r : Int := s.bandgapRef die
  let dev := (v - r) * 10000
  let q := if r = 0 then 0 else (2 * dev + r) / (2 * r)
  let s := s.setRf Reg.CAL_BANDGAP 0 0 15 0 ((max (-32768) (min 32767 q)) % 65536).toNat
  let ok := decide (200 * (v - r).natAbs ≤ r.natAbs)
  let s := s.setRf Reg.CAL_BANDGAP 0 0 (16 + die) (16 + die) (bit ok)
  if ok then s else s.raise 0x78 die

/-! ### Housekeeping (R444 to R448) -/

/-- A result of a channel (R446): shown, and compared with the channel's window. -/
def State.hkaResult (s : State) (ch : Nat) (code : BitVec 14) : State :=
  let w := s.reg Reg.HKA_CHn_WIN 0 ch
  let out := s.rf Reg.HKA_CHn_LAST 0 ch 31 31
  let s := s.setRf Reg.HKA_CHn_LAST 0 ch 13 0 code.toNat
  if bitsOf w 31 31 = 0 then s
  else if code.toNat < bitsOf w 13 0 ∨ bitsOf w 29 16 < code.toNat then
    if out = 0 then (s.setRf Reg.HKA_CHn_LAST 0 ch 31 31 1).raise 0x75 ch else s
  else s.setRf Reg.HKA_CHn_LAST 0 ch 31 31 0

/-- Enters a result in the queue (R447). -/
def State.hkaPush (s : State) (e : HkaEntry) : State :=
  if 512 ≤ s.sense.queue.length then (s.err Reg.HKA_QUEUE_OVF 0 0 1).raise 0x76 devUnit
  else { s with sense := { s.sense with queue := s.sense.queue ++ [e] } }

/-- Converts every channel of a group in ascending order; `samples` are the codes of the channels. -/
def State.hkaGroup (s : State) (group seq : Nat) (samples : List Sample) : State :=
  (List.range 32).foldl (fun s ch =>
    if s.rf Reg.HKA_CHn_CFG 0 ch 1 0 = group then
      match samples.find? (fun x => x.chan == ch) with
      | some x => (s.hkaResult ch x.code).hkaPush { trig := group, chan := ch, seq := seq, code := x.code.toNat }
      | none => s
    else s) s

/-- `HKA_TIMER_TRIGGER`; `pending` says that the sequence of an earlier trigger is still pending. -/
def execHkaTimerTrigger (samples : List Sample) (pending : Bool) (s : State) : Out :=
  if !s.pow.booted || s.rf Reg.HKA_CTL 0 0 31 31 == 0 then .next s
  else if pending then finish (s.err Reg.HKA_TRIG_MISSED 0 0 1)
  else
    let n := s.sense.timerSeq + 1
    finish (({ s with sense := { s.sense with timerSeq := n } } : State).hkaGroup 1 n samples)

/-- `HKA_PWM_TRIGGER`. -/
def execHkaPwmTrigger (samples : List Sample) (pending : Bool) (s : State) : Out :=
  if !s.pow.booted || s.rf Reg.HKA_PWM 0 0 31 31 == 0 then .next s
  else if pending then finish (s.err Reg.HKA_TRIG_MISSED 0 0 1)
  else
    let n := s.sense.pwmSeq + 1
    finish (({ s with sense := { s.sense with pwmSeq := n } } : State).hkaGroup 2 n samples)

/-- `HKA_STAGE_ROTATION` (R448): the spare serves the next stage; `pass` is the calibration of the stage relieved. -/
def execHkaStageRotation (pass : Bool) (s : State) : Out :=
  if !s.pow.booted || s.rf Reg.HKA_STAGE 0 0 4 4 == 1 then .next s
  else
    let s := s.setRf Reg.HKA_STAGE 0 0 3 0 ((s.rf Reg.HKA_STAGE 0 0 3 0 + 1) % 12)
    if pass then .next s else finish ((s.setRf Reg.HKA_STAGE 0 0 4 4 1).raise 0x77 devUnit)

/-! ### Temperatures (R449 to R453) -/

/-- Whether a diode is valid. -/
def State.diodeValid (s : State) (n : Nat) : Bool := s.rf Reg.THM_DIODEn 0 n 31 31 == 1

/-- A diode's reading in 1/16 °C. -/
def State.diodeTemp (s : State) (n : Nat) : Int := signed 16 (s.rf Reg.THM_DIODEn 0 n 15 0)

/-- The neighbours of an on-die diode (R449). -/
def neighbours (n : Nat) : List Nat := [n ^^^ 1, n ^^^ 2, n ^^^ 4]

/-- The largest of a list of readings. -/
def maxTemp (l : List Int) : Option Int :=
  match l with
  | [] => none
  | a :: t => some (t.foldl max a)

/-- A reading in 16 bits. -/
def temp16 (v : Int) : Nat := (v % 65536).toNat

/-- Takes the readings of the on-die diodes, and of the external ones that are fitted; a failed one shows the maximum of its valid neighbours (R449,
R450). -/
def State.setDiodes (s : State) (temps : List Int) : State :=
  let s := (List.range 16).foldl (fun (s : State) n =>
    match temps[n]? with
    | some v => if s.rf Reg.THM_DIODEn 0 n 30 30 = 1 then s else s.setReg Reg.THM_DIODEn 0 n (2 ^ 31 + temp16 v)
    | none => s) s
  let s := [16, 17].foldl (fun (s : State) n =>
    match temps[n]? with
    | some v => if s.diodeValid n then s.setRf Reg.THM_DIODEn 0 n 15 0 (temp16 v) else s
    | none => s) s
  let s := (List.range 16).foldl (fun (s : State) n =>
    if s.rf Reg.THM_DIODEn 0 n 30 30 = 1 then
      match maxTemp (((neighbours n).filter s.diodeValid).map s.diodeTemp) with
      | some v => s.setRf Reg.THM_DIODEn 0 n 15 0 (temp16 v)
      | none => s
    else s) s
  (List.range 2).foldl (fun (s : State) d =>
    let l := ((List.range 8).map (fun k => 8 * d + k)).filter s.diodeValid
    let s := s.setRf Reg.THM_TJd 0 d 19 16 l.length
    match maxTemp (l.map s.diodeTemp) with
    | some v => s.setRf Reg.THM_TJd 0 d 15 0 (temp16 v)
    | none => s) s

/-- Tj of a die. -/
def State.tj (s : State) (die : Nat) : Int := signed 16 (s.rf Reg.THM_TJd 0 die 15 0)

/-- A condition with hysteresis over both dies: set at `hi` °C, cleared below `lo` °C; raises `src` for a die on which it becomes set. -/
def hyst (old : List Bool) (tj : Nat → Int) (hi lo : Int) : List Bool :=
  (List.range 2).map (fun d => if old.getD d false then decide (16 * lo ≤ tj d) else decide (16 * hi ≤ tj d))

/-- Raises a source for each die of which a condition has become set. -/
def State.raiseNew (s : State) (src : Nat) (old new : List Bool) : State :=
  (List.range 2).foldl (fun (s : State) d => if new.getD d false && !old.getD d false then s.raise src d else s) s

/-- Whether the throttle condition holds (R452). -/
def State.throttled (s : State) : Bool :=
  s.sense.throttle.any (fun b => b) || s.sense.diodesLow.any (fun b => b) || s.rf Reg.THM_STATE 0 0 3 3 == 1

/-- Shows the conditions in `THM_STATE`. -/
def State.showThermal (s : State) : State :=
  ((s.setRf Reg.THM_STATE 0 0 0 0 (bit (s.sense.warn.any (fun b => b)))).setRf Reg.THM_STATE 0 0 1 1 (bit s.throttled)).setRf Reg.THM_STATE 0 0 2 2
    (bit (s.sense.shutdown.any (fun b => b)))

/-- Compares each die's Tj with the thresholds (R451); a shutdown acts at once (R453). -/
def State.thermal (s : State) : State :=
  let o := s.sense
  let w := hyst o.warn s.tj 95 90
  let t := hyst o.throttle s.tj 105 100
  let h := hyst o.shutdown s.tj 115 110
  let s : State := { s with sense := { o with warn := w, throttle := t, shutdown := h } }
  let s := s.showThermal
  let s := if h.any (fun b => b) then s.stopIssue else s
  ((s.raiseNew 0x70 o.warn w).raiseNew 0x71 o.throttle t).raiseNew 0x72 o.shutdown h

/-- Whether the mean of the first `n` products of voltage and current codes lies above `w` W: 80 V and 40 A at 2^14 codes. -/
def powerAbove (l : List Nat) (n w : Nat) : Bool :=
  let x := l.take n
  decide (w * 2 ^ 28 * x.length < 3200 * x.sum)

/-- Whether that mean lies below `w` W. -/
def powerBelow (l : List Nat) (n w : Nat) : Bool :=
  let x := l.take n
  decide (3200 * x.sum < w * 2 ^ 28 * x.length)

/-- Judges the input power (R452, R453): averages over 1,000 scans and over 100. -/
def State.inputPower (s : State) (v i : Nat) : State :=
  let l := (v * i :: s.sense.products).take 1000
  let trip := powerAbove l 100 1100
  let old := s.sense.overTrip
  let s : State := { s with sense := { s.sense with products := l, overTrip := trip } }
  let p := s.rf Reg.THM_STATE 0 0 3 3
  let hot := if p = 1 then !powerBelow l 1000 900 else powerAbove l 1000 950
  let s := (s.setRf Reg.THM_STATE 0 0 3 3 (bit hot)).showThermal
  let s := if hot && p == 0 then s.raise 0x80 devUnit else s
  let w := 3200 * (l.take 10).sum / (2 ^ 28 * (l.take 10).length)
  let s := s.setReg Reg.PWR_INPUT 0 0 (min 0xFFFF w * 2 ^ 16 + v * 5 / 4)
  if trip && !old then s.stopIssue.raise 0x81 devUnit else s

/-- Shows the energy of the hold-up bank (R455). -/
def State.showHoldup (s : State) : State :=
  let c := s.rf Reg.HKA_CHn_LAST 0 30 13 0
  let e := s.rf Reg.PWR_HOLDUP_CAP 0 0 15 0 * (6400 * c * c - 1600 * 2 ^ 28) / (2000 * 2 ^ 28)
  s.setReg Reg.PWR_HOLDUP 0 0 (min 0xFFFF e * 2 ^ 16 + c * 5 / 4)

/-- `SYSTEM_SCAN` (R445): the diodes, then channels 22 to 31. -/
def execSystemScan (sc : Scan) (s : State) : Out :=
  if !s.pow.booted then .next s
  else
    let s := sc.raw.zipIdx.foldl (fun (s : State) x => if x.2 < 32 then s.hkaResult (x.2 / 2) x.1 else s) s
    let s := sc.codes.zipIdx.foldl (fun (s : State) x => if x.2 < 10 then s.hkaResult (22 + x.2) x.1 else s) s
    let s := (s.setDiodes sc.diodes).thermal
    let s := (s.inputPower (s.rf Reg.HKA_CHn_LAST 0 22 13 0) (s.rf Reg.HKA_CHn_LAST 0 26 13 0)).showHoldup
    let d := s.sense.bandgapDie
    let s : State := { s with sense := { s.sense with bandgapDie := 1 - d } }
    finish (s.bandgap d (8 * s.rf Reg.HKA_CHn_LAST 0 31 13 0))

/-- `DIODE_CHECK` (R450): every valid diode with two valid neighbours is compared with their mean. -/
def execDiodeCheck (s : State) : Out :=
  if !s.pow.booted then .next s
  else
    let far := fun (n : Nat) =>
      let l := ((neighbours n).filter s.diodeValid).map s.diodeTemp
      decide (192 * l.length < (l.length * s.diodeTemp n - l.sum).natAbs)
    let judged := (List.range 16).filter (fun n => s.diodeValid n && decide (2 ≤ ((neighbours n).filter s.diodeValid).length))
    let streaks := judged.foldl (fun m n => SMap.put m 0 n (if far n then SMap.get m 0 n + 1 else 0)) s.sense.streaks
    let bad := judged.filter (fun n => decide (10 ≤ SMap.get streaks 0 n))
    let s : State := { s with sense := { s.sense with streaks := streaks } }
    let s := bad.foldl (fun (s : State) n => (s.setRf Reg.THM_DIODEn 0 n 31 31 0).setRf Reg.THM_DIODEn 0 n 30 30 1) s
    let s := if bad.isEmpty then s else s.setDiodes []
    let s := bad.foldl (fun (s : State) n => s.raise 0x73 n) s
    let low := (List.range 2).map (fun d => s.sense.diodesLow.getD d false || decide (s.rf Reg.THM_TJd 0 d 19 16 < 4) &&
      (List.range 8).any (fun k => s.rf Reg.THM_DIODEn 0 (8 * d + k) 30 30 == 1))
    let old := s.sense.diodesLow
    let s : State := { s with sense := { s.sense with diodesLow := low } }
    finish (s.showThermal.raiseNew 0x74 old low)

/-! ### Ages (R66, R441 to R443) -/

/-- *Age acceleration* at a temperature in 1/16 °C. -/
def ageFactor (t : Int) : Nat :=
  if t < 16 * 70 then 1 else if t < 16 * 85 then 3 else if t < 16 * 95 then 6 else if t < 16 * 105 then 12 else 24

/-- Adds to the age of every resident array of a die. -/
def State.addAge (s : State) (die n : Nat) : State :=
  (s.sites.filter (fun x => dieOf x == die)).foldl (fun s x => (List.range 17).foldl (fun (s : State) a =>
    s.setReg Reg.ARY_AGEa x a (min (2 ^ 64 - 1) (s.reg Reg.ARY_AGEa x a + n))) s) s

/-- `AGE_TICK`: a millisecond while input power is applied; it also times how long PWR_EN has been low (R494). -/
def execAgeTick (s : State) : Out :=
  if s.pow.vin then
    let s : State := if s.pow.pwrEn then s else { s with pow := { s.pow with lowMs := min 10 (s.pow.lowMs + 1) } }
    .next ((List.range 2).foldl (fun s d => s.addAge d (ageFactor (s.tj d))) s)
  else .next s

/-- Appends the type 5 record of each die. -/
def State.ageRecords (s : State) : State := (List.range 2).foldl (fun s d => s.calAppend d 5 0xFF 0xFFFF (s.agePayload d)) s

/-- `AGE_RECORD_COMMIT`: every 60 s the ages go to the store, with its next batches. -/
def execAgeRecordCommit (s : State) : Out := if s.pow.booted then .next s.ageRecords else .next s

/-- `ELAPSED` (R442). -/
def execElapsed (h : Hdr) (seconds : Nat) (s : State) : Out :=
  s.command h (opRowM 0x0161) false true (decide (seconds ≤ 3155760000)) (fun s _ r =>
    if s.rf Reg.CAL_AGE 0 0 1 0 ≠ 0 then s.answer r stBusy []
    else
      let n := seconds * 1000 * s.rf Reg.CAL_AGE_CTL 0 0 20 16
      (((s.addAge 0 n).addAge 1 n).setRf Reg.CAL_AGE 0 0 1 0 1).answer r stOk [])

/-- The age that a mean gain shows (R443), in whole ms: (10^((1 − g) ÷ ν) − 1) × 1,000 rounded to the nearest. -/
def ageOf (g : F32) (nu : Nat) : Nat :=
  let x := Num.div (Num.add (Num.int 1) (Num.neg (F32.num g))) (Fmt.fp16.decode nu)
  let p := Num.exp (Num.mul x (Num.ofInt ln10 (-fixBits) false))
  match p with
  | .fin _ _ _ => ((Num.mul (Num.add p (Num.int (-1))) (Num.int 1000)).toIntR).toNat
  | .inf false => 2 ^ 64 - 1
  | _ => 0

/-- `AGE_ESTIMATION`: `gains` gives for each array (site, array) the mean gain relative to the one at programming. It waits for IDLE. -/
def execAgeEstimation (gains : List (Nat × Nat × F32)) (s : State) : Out :=
  let st := s.rf Reg.CAL_AGE 0 0 1 0
  if !s.pow.booted || !(st == 0 || st == 2) then .next s
  else if s.rf Reg.PWR_STATE 0 0 2 0 ≠ 1 then
    .next (s.setRf Reg.CAL_AGE 0 0 1 0 2)
  else
    let s := gains.foldl (fun (s : State) g =>
      let x := g.1
      let a := g.2.1
      if s.enabled x && s.dieWorks (dieOf x) && decide (a < 17) && ((s.core x).arr a).holds != .none then
        let age := max (s.reg Reg.ARY_AGEa x a) (min (2 ^ 64 - 1) (ageOf g.2.2 (s.rf Reg.ARY_DRIFT_COEFa x a 15 0)))
        s.setReg Reg.ARY_AGEa x a age
      else s) s
    let s := (s.setRf Reg.CAL_AGE 0 0 1 0 3).raise 0x7C devUnit
    finish (match s.jobs.calibrate with
      | some r =>
        if s.jobs.calScope = 3 then
          (({ s with jobs := { s.jobs with calibrate := none, calScope := 0 } } : State).setReg Reg.CAL_STATE 0 0 0).answer r stOk []
        else s
      | none => s)

/-! ### Calibration on command (R433 to R435) -/

/-- Whether scope 2 or 3 may run. -/
def State.wideCalOk (s : State) : Bool :=
  (s.sched.active.isNone || s.flightState == 0 || s.flightState == 3) &&
  !s.programming && s.maint.isNone && s.jobs.fw.isNone

/-- The status of a `CALIBRATE` (*Calibration scopes*). -/
def State.calCheck (s : State) (scope site : Nat) : Nat :=
  if scope = 1 ∧ !s.enabled site then stNotFound
  else if s.jobs.calibrate.isSome then stBusy
  else
    match scope with
    | 1 => if s.fenced site then stOk else stBusy
    | 2 => if s.wideCalOk then stOk else stBusy
    | 3 => if s.wideCalOk && s.rf Reg.CAL_AGE 0 0 1 0 == 0 then stOk else stBusy
    | _ => stOk

/-- `CALIBRATE`. -/
def execCalibrate (h : Hdr) (scope site : Nat) (s : State) : Out :=
  s.command h (opRow 0x0162) false (decide (scope = 1 ∨ site = 0 ∨ scope = 0 ∨ 5 ≤ scope)) (decide (1 ≤ scope ∧ scope ≤ 4)) (fun s _ r =>
    if s.calCheck scope site ≠ stOk then s.answer r (s.calCheck scope site) []
    else
      let s := s.setReg Reg.CAL_STATE 0 0 (scope * 2 ^ 16 + (if scope = 1 then site else 0))
      let s := if scope = 3 then s.setRf Reg.CAL_AGE 0 0 1 0 2 else s
      { s with jobs := { s.jobs with calibrate := some r, calScope := scope, calSite := site } })

/-- `CALIBRATION_DONE`: what each array's calibration has found, or for scope 4 the band-gap reading of each die. A die
without a control pair calibrates nothing (R31). -/
def execCalibrationDone (cals : List ArrayCal) (bandgap : List Int) (s : State) : Out :=
  match s.jobs.calibrate with
  | none => .next s
  | some r =>
    let scope := s.jobs.calScope
    if scope = 3 then .next s
    else
      let cores := (if scope = 1 then [s.jobs.calSite] else if scope = 2 then s.sites else []).filter (fun x => s.dieWorks (dieOf x))
      let s := cals.foldl (fun (s : State) x => if cores.contains x.site && decide (x.arr < 19) then s.calArray x else s) s
      let s := cores.foldl (fun (s : State) x => s.setRf Reg.ARY_CAL_METHOD x 0 31 31 1) s
      let s := if scope = 4 then (bandgap.zipIdx).foldl (fun (s : State) v => if v.2 < 2 then s.bandgap v.2 v.1 else s) s else s
      finish ((({ s with jobs := { s.jobs with calibrate := none, calScope := 0 } } : State).setReg Reg.CAL_STATE 0 0 0).answer r stOk [])

/-! ### Statistics of live traffic (R437) -/

/-- Limits a value to ± a bound. -/
def clip (x bound : Num) : Num := if Num.lt bound x then bound else if Num.lt x (Num.neg bound) then Num.neg bound else x

/-- The entry that the fit gives for a column; none where it changes nothing. The residual variance has n − 2 degrees of freedom
(notes/assumptions/14.md). -/
def fitEntry (t : ColStats) (e : CorrEntry) : Option CorrEntry :=
  let n := Num.int t.n
  let sub := fun (x y : Num) => Num.add x (Num.neg y)
  let den := sub (Num.mul n t.ee) (Num.mul t.e t.e)
  let b := if den.isZero then Num.int 0 else Num.div (sub (Num.mul n t.re) (Num.mul t.r t.e)) den
  let a := Num.div (sub t.r (Num.mul b t.e)) n
  let rss := sub (sub t.rr (Num.mul a t.r)) (Num.mul b t.re)
  let s2 := Num.div rss (Num.int ((t.n : Int) - 2))
  let nine := fun (x : Num) => Num.mul (Num.int 9) x
  let useA := Num.lt (nine s2) (Num.mul n (Num.mul a a))
  let useB := !den.isZero && Num.lt (nine (Num.mul n s2)) (Num.mul (Num.mul b b) den)
  let m := Num.div t.m n
  let da := clip (Num.div a m) (.fin false 1 (-1))
  let gb := Num.add (Num.int 1) (clip b (Num.div (Num.int 5) (Num.int 1000)))
  let off := fun (x : F16) => F16.of (Num.add (F16.num x) da)
  let gain := fun (x : F16) => F16.of (Num.div (F16.num x) gb)
  if !useA && !useB then none
  else
    let e : CorrEntry := if useA && !m.isZero then { e with off1 := off e.off1, off2 := off e.off2, off4 := off e.off4 } else e
    some (if useB then { e with gain1 := gain e.gain1, gain2 := gain e.gain2, gain4 := gain e.gain4 } else e)

/-- `CAL_STATS_FIT`: a physical column has its `MIN_AUDITS` audits; the update waits for the next boundary. -/
def execCalStatsFit (site arr col : Nat) (s : State) : Out :=
  let c := s.core site
  let r := c.arr arr
  let t := SMap.get r.stats statsDefault col
  if !s.enabled site || !s.dieWorks (dieOf site) || s.rf Reg.CAL_STATS_CTL 0 0 0 0 == 0 || decide (t.n < s.rf Reg.CAL_STATS_CTL 0 0 15 8) then .next s
  else
    let s := s.setCore site (c.setArr arr { r with stats := SMap.erase r.stats col })
    .next (match fitEntry t (SMap.get r.corr corrDefault col) with
      | some e => { s with sense := { s.sense with fits := s.sense.fits ++ [(site, arr, col, e)] } }
      | none => s)

/-- The updates of the fits take effect at a boundary and are appended to the store. -/
def State.applyFits (s : State) : State :=
  let l := s.sense.fits
  let s : State := { s with sense := { s.sense with fits := [] } }
  let s := l.foldl (fun (s : State) x =>
    let c := s.core x.1
    let r := c.arr x.2.1
    let e := { x.2.2.2 with wscale := (SMap.get r.corr corrDefault x.2.2.1).wscale }
    (s.setCore x.1 (c.setArr x.2.1 { r with corr := SMap.put r.corr corrDefault x.2.2.1 e })).wide Reg.CAL_STATS_UPDATES 0 0 1) s
  ((l.map (fun x => (x.1, x.2.1))).eraseDups).foldl (fun (s : State) x =>
    s.calAppend (dieOf x.1) 2 x.2 x.1 ((s.core x.1).arr x.2).corrPayload) s

/-! ### Hold-up capacitance (R455) -/

/-- The capacitance in µF that a draw of 2 mC shows by its voltage drop in mV, rounded down (notes/assumptions/29.md). -/
def bankCap (drop : Nat) : Nat := if drop = 0 then 0xFFFF else min 0xFFFF (2000000 / drop)

/-- `HOLDUP_CAP_MEASURE`: `drop` is the voltage drop of the bank in mV; a capacitance that falls below 3,200 µF is raised. -/
def execHoldupCapMeasure (drop : BitVec 16) (s : State) : Out :=
  if !s.pow.booted then .next s
  else
    let old := s.rf Reg.PWR_HOLDUP_CAP 0 0 15 0
    let uf := bankCap drop.toNat
    let s := (s.setReg Reg.PWR_HOLDUP_CAP 0 0 uf).showHoldup
    finish (if uf < 3200 ∧ 3200 ≤ old then s.raise 0x7E devUnit else s)

end Sys2Proof.Machine
end

