-- ==== Sys2Proof/Machine/Power.lean ====
section
/-! DEFINITION. Power states (R458, R459), the sideband pins and the input (chapter 17), and the boot (R476, R477). -/

namespace Sys2Proof.Machine

/-! ### Power states -/

/-- The current power state: 0 RUN, 1 IDLE, 2 DOZE, 3 TOWPATH, 4 OFF. -/
def State.power (s : State) : Nat := s.rf Reg.PWR_STATE 0 0 2 0

/-- Sets every stack and channel that has not failed to a state. -/
def State.setMemories (s : State) (st : Nat) : State :=
  let s := (List.range 8).foldl (fun (s : State) k =>
    if s.rf Reg.MEM_STACKs_STATE k 0 2 0 = 3 then s else s.setRf Reg.MEM_STACKs_STATE k 0 2 0 st) s
  (List.range 32).foldl (fun (s : State) k =>
    if s.rf Reg.MEM_FARc_STATE k 0 2 0 = 3 then s else s.setRf Reg.MEM_FARc_STATE k 0 2 0 st) s

/-- Sets the state of every scratchpad, where `f` gives it from the requested mode; where one is switched off, every enabled window is wiped
first, once (R373). -/
def State.allSpm (s : State) (f : Nat → Nat) : State :=
  let mode := fun (s : State) x => f (s.rf Reg.SPM_PWR x 0 1 0)
  let s := if s.sites.any (fun x => mode s x == 2 && s.rf Reg.SPM_PWR x 0 9 8 != 2) then s.wipeWindows else s
  s.sites.foldl (fun s x => s.spmMode x (mode s x)) s

/-- Streamed arrays lose their contents (R69). -/
def State.loseStreamed (s : State) : State :=
  s.sites.foldl (fun (s : State) x => [17, 18].foldl (fun (s : State) a =>
    let empty := fun (r : Arr) => { r with draw := none, cells := [], holds := .none, bad := false, fill := none }
    (s.updCore x (fun c => (c.dropTile a).setArr a (empty (c.arr a)))).setRf Reg.ARY_STATEa x a 18 16 7) s) s

/-- The flight's state becomes `UNFORMED` (R459). -/
def State.unform (s : State) : State :=
  let s := s.portsDown.setReg Reg.FLK_FLIGHT_STATE 0 0 0
  { s with flt := { s.flt with key := none, forming := none, activation := none } }

/-- What entry to a power state does (*Transitions*), from the state before. A streamed array that was `FAILED` when DOZE took its power comes
back `IN_SERVICE` with the others (R69, which names no way out of `FAILED` for it: the model's choice, notes/assumptions/35.md). -/
def State.enterPower (s : State) (old new : Nat) : State :=
  match new with
  | 0 => s
  | 1 =>
    if old = 2 then
      let s := (s.setMemories 2).allSpm (fun m => m)
      s.sites.foldl (fun (s : State) x => [17, 18].foldl (fun (s : State) a => s.setRf Reg.ARY_STATEa x a 18 16 0) s) s
    else s.stopIssue
  | 2 =>
    if old = 3 then ((s.allSpm (fun m => if m = 2 then 2 else 0)).allSpm (fun m => if m = 2 then 2 else 1)).unlink 1
    else ((s.loseStreamed.unform).setMemories 4).allSpm (fun m => if m = 2 then 2 else 1)
  | _ => (s.allSpm (fun _ => 2)).unlink 1

/-- The age record of a die is committed, ahead of what waits for a batch. -/
def State.commitAge (s : State) (die : Nat) : State :=
  let s : State := { s with cal := s.cal.modify die (fun (c : CalStore) => { c with waiting := [] }) }
  (s.calAppend die 5 0xFF 0xFFFF (s.agePayload die)).commitBatch die []

/-- Every record that the signature buffer holds is committed in turn (R414). -/
def State.commitBuffer (s : State) : State := (List.range s.fcl.buffer.length).foldl (fun (s : State) _ => s.commitOldest) s

/-- The non-volatile writes in progress are finished from the hold-up bank (R337, R457, R493): the arrays of the waves, the programming step of a
maintenance, started spare elements. Nothing is said of cells that fail there (notes/assumptions/12.md). -/
def State.endWrites (s : State) : State :=
  let s : State := match s.prog with
    | none => s
    | some p =>
      let s := (p.dies.flatMap DieProg.todo).foldl (fun (s : State) (x : Nat × Nat) =>
        ((s.waveArray p x.1 x.2 []).1.setRf Reg.ARY_STATEa x.1 x.2 18 16 0).arrayLess) s
      { s with prog := some { p with dies := p.dies.map (fun (d : DieProg) => { d with todo := [] }) } }
  let s : State := match s.maintWriting with
    | some x => (s.programHeld x.1 (s.rf Reg.WGT_MAINT 0 0 11 8) x.2 []).1
    | none => s
  (s.cores.flatMap (fun c => (c.2.arrs.filter (fun a => a.2.retire.any Retire.writing)).map (fun a => (c.1, a.1)))).foldl
    (fun (s : State) x => s.spareDone x.1 x.2) s

/-- Commits the age records and the signature buffer while the hold-up check allows (R459), where a write may start at all (R411, R453). -/
def State.lastWrites (s : State) : State :=
  if !s.writesOk then s
  else
    let s := (List.range 2).foldl (fun (s : State) d => if s.holdup 100 then s.commitAge d else s.holdupCheck d 100) s
    if s.holdup 200 then s.commitBuffer else s.holdupCheck 0 200

/-- The device is off (R491): volatile state is lost, the always-on domain goes on where input power stays. -/
def State.turnOff (s : State) (input : Bool) : State :=
  let t := s.chipReset 0
  let t := t.setReg Reg.PWR_STATE 0 0 0x44
  { t with
    pow := { t.pow with on := false, kept := t.pow.kept && input }
    fcl := if input then t.fcl else { t.fcl with buffer := [] } }

/-- The states from one to another in order. -/
def powerPath (old new : Nat) : List Nat :=
  if new = 4 then [4]
  else if old < new then (List.range (new - old)).map (fun k => old + 1 + k)
  else (List.range (old - new)).map (fun k => old - 1 - k)

/-- Whether any programming, maintenance, calibration or firmware write is in progress. -/
def State.working (s : State) : Bool :=
  s.programming || s.maint.isSome || s.jobs.calibrate.isSome || s.jobs.fw.isSome

/-- Whether a `POWER` request is refused (R459). -/
def State.powerBusy (s : State) (target : Nat) : Bool :=
  s.rf Reg.PWR_STATE 0 0 8 8 == 1 || (decide (0 < target) && s.sched.active.isSome && s.flightState != 3) ||
  (decide (2 ≤ target) && (s.seq.barges.any (fun b => b.2.state != .free) || s.flightState == 1 || s.flightState == 2 || s.working))

/-- `POWER`. -/
def execPower (h : Hdr) (state : Nat) (s : State) : Out :=
  s.command h (opRowM 0x0160) false true (decide (state ≤ 4)) (fun s _ r =>
    if s.power = state ∧ s.rf Reg.PWR_STATE 0 0 8 8 = 0 then s.answer r stOk []
    else if s.powerBusy state then s.answer r stBusy []
    else
      let path := powerPath s.power state
      let s := (s.setRf Reg.PWR_STATE 0 0 8 8 1).setRf Reg.PWR_STATE 0 0 6 4 state
      { s with jobs := { s.jobs with power := some r }
               pow := { s.pow with path := path, toIdle := s.inFlight && path.head? == some 1 && s.power == 0 } })

/-- `POWER_STATE_ENTRY`: the next state of the transition is entered; a step from RUN waits for the boundary at which programs stop. -/
def execPowerStateEntry (s : State) : Out :=
  match s.pow.path with
  | [] => .next s
  | n :: rest =>
    if s.pow.toIdle then .next s
    else if n = 4 then
      let s := s.endWrites.lastWrites
      let s := match s.jobs.power with
        | some r => s.answer r stOk []
        | none => s
      let latch := s.rf Reg.DEV_SIDEBAND 0 0 0 0 == 1
      let t := s.turnOff true
      .next { t with pow := { t.pow with offLatch := latch } }
    else
      let s := (s.enterPower s.power n).setRf Reg.PWR_STATE 0 0 2 0 n
      let s : State := { s with pow := { s.pow with path := rest } }
      finish (if rest.isEmpty then
          let s := s.setRf Reg.PWR_STATE 0 0 8 8 0
          match s.jobs.power with
          | some r => ({ s with jobs := { s.jobs with power := none } } : State).answer r stOk []
          | none => s
        else s)

/-! ### Pins (R487 to R494) -/

/-- The level at PWR_EN. -/
def State.setPwrEn (s : State) (up : Bool) : State := { s with pow := { s.pow with pwrEn := up, lowMs := 0 } }

/-- The level at RESET_N. -/
def State.setResetN (s : State) (up : Bool) : State := { s with pow := { s.pow with resetN := up } }

/-- `PWR_EN_RISE`: from OFF the device is powered again; the boot follows (R492, R494). Where `POWER` has turned it off, only a rise after at least
10 ms low does so. While VIN is out of range the pin is not sampled (R487). -/
def execPwrEnRise (s : State) : Out :=
  let wake := !s.pow.offLatch || decide (10 ≤ s.pow.lowMs)
  let s := s.setPwrEn true
  if !s.pow.vin then .next s
  else
    let s := s.setRf Reg.DEV_SIDEBAND 0 0 0 0 1
    .next (if wake then { s with pow := { s.pow with on := true, offLatch := false } } else s)

/-- `PWR_EN_FALL`: the transition to OFF without any refusal; during boot the boot is abandoned (R493, R494). The writes
in progress complete. -/
def execPwrEnFall (s : State) : Out :=
  let s := s.setPwrEn false
  if !s.pow.vin then .next s
  else
    let s := s.setRf Reg.DEV_SIDEBAND 0 0 0 0 0
    if !s.pow.on then .next s
    else if !s.pow.booted then .next (s.turnOff true)
    else .next ((s.endWrites.stopProg.lastWrites).turnOff true)

/-- `RESET_N_ASSERT`: a chip reset while the device runs; no effect while PWR_EN is low (R494). -/
def execResetNAssert (s : State) : Out :=
  let s := s.setResetN false
  if !s.pow.vin then .next s
  else
    let s := s.setRf Reg.DEV_SIDEBAND 0 0 1 1 0
    if s.rf Reg.DEV_SIDEBAND 0 0 0 0 = 0 ∨ !s.pow.on then .next s
    else .next (s.chipReset 1)

/-- `RESET_N_RELEASE`. -/
def execResetNRelease (s : State) : Out :=
  let s := s.setResetN true
  .next (if s.pow.vin then s.setRf Reg.DEV_SIDEBAND 0 0 1 1 1 else s)

/-- `VIN_IN_RANGE`: the input has been within range for 10 ms; the pins are sampled again (R487), and with PWR_EN high the boot follows (R492,
R494). -/
def execVinInRange (s : State) : Out :=
  if s.pow.vin then .next s
  else
    let s := s.setRf Reg.DEV_SIDEBAND 0 0 1 0 (bit s.pow.resetN * 2 + bit s.pow.pwrEn)
    .next { s with pow := { s.pow with vin := true, on := s.pow.on || (s.pow.pwrEn && !s.pow.offLatch) } }

/-- The input has failed (R457, R490): the age records and, where the bank and a free value allow it (notes/assumptions/3.md), the
signature buffer are committed, and the device is off. -/
def State.inputFail (s : State) : State :=
  if !s.pow.vin then s
  else
    let down := fun (t : State) => { t with pow := { t.pow with vin := false } }
    if !s.pow.on then down { s with pow := { s.pow with kept := false }, fcl := { s.fcl with buffer := [] } }
    else if !s.pow.booted then down (s.turnOff false)
    else
      let s := s.endWrites.stopProg
      let s := if s.writesOk && s.holdup 100 then (List.range 2).foldl (fun (s : State) d => s.commitAge d) s else s
      let s := s.raise 0x7F devUnit
      let s := if (s.free 1).getLsbD 0 && s.writesOk && s.holdup 200 then s.commitBuffer else s
      down (s.nextFree.turnOff false)

/-- `VIN_UNDERVOLTAGE`. -/
def execVinUndervoltage (s : State) : Out := .next s.inputFail

/-- `VIN_OVERVOLTAGE`. -/
def execVinOvervoltage (s : State) : Out := .next s.inputFail

/-- `PWM_SYNC_LOCK` (R488): a clock within the accepted range for 1 ms; one outside it is measured, and the stages run free. -/
def execPwmSyncLock (khz : Nat) (s : State) : Out :=
  .next (if s.pow.vin && s.pow.on then
    (s.setRf Reg.DEV_SIDEBAND 0 0 19 8 (min 0xFFF khz)).setRf Reg.DEV_SIDEBAND 0 0 2 2 (bit (decide (600 ≤ khz ∧ khz ≤ 1000))) else s)

/-- `PWM_SYNC_LOSS`: the clock is absent for 10 µs. -/
def execPwmSyncLoss (s : State) : Out :=
  .next (if s.pow.vin then (s.setRf Reg.DEV_SIDEBAND 0 0 19 8 0).setRf Reg.DEV_SIDEBAND 0 0 2 2 0 else s)

/-! ### Boot (R476, R477) -/

/-- Reads `n` words of `k` bytes each from a payload. -/
def payloadWords (k n : Nat) (bs : List Byte) : List Nat := (chunks k bs n).map ofLE

/-- The correction entry of 16 bytes (R112). -/
def entryOf (bs : List Byte) : CorrEntry :=
  let h := fun (k : Nat) => (BitVec.ofNat 16 (ofLE ((bs.drop (2 * k)).take 2)) : F16)
  ⟨h 0, h 1, h 2, h 3, h 4, h 5, h 6, h 7⟩

/-- A map given by consecutive values from key 0 on. -/
def mapOf {α : Type} [DecidableEq α] (d : α) (l : List α) : SMap α := l.zipIdx.foldl (fun m x => SMap.put m d x.2 x.1) []

/-- Loads one record of the calibration store (R439). -/
def State.loadRecord (s : State) (die : Nat) (ages : Bool) (r : CalRec) : State :=
  match r.typ with
  | 1 =>
    let cols := payloadWords 2 528 r.payload
    let conv := payloadWords 4 9 (r.payload.drop 1056)
    s.updCore r.site (fun c => c.setArr r.arr { c.arr r.arr with
      colTrim := mapOf 512 (cols.map (BitVec.ofNat 10)), convRef := mapOf 512 (conv.map (fun w => BitVec.ofNat 10 w))
      convOff := mapOf 512 (conv.map (fun w => BitVec.ofNat 10 (w / 2 ^ 16))) })
  | 2 => s.updCore r.site (fun c => c.setArr r.arr { c.arr r.arr with corr := mapOf corrDefault ((chunks 16 r.payload 528).map entryOf) })
  | 3 =>
    (s.setRf Reg.ARY_DRIFT_COEFa r.site r.arr 15 0 (ofLE (r.payload.take 2))).updCore r.site (fun c =>
      c.setArr r.arr { c.arr r.arr with meanGain := BitVec.ofNat 32 (ofLE ((r.payload.drop 4).take 4)) })
  | 4 =>
    let w := ofLE r.payload
    s.setReg Reg.ARY_CONVa r.site r.arr (if bitsOf w 4 4 = 1 then w else setBits w 3 0 8)
  | 5 =>
    if ages then
      ((payloadWords 8 5168 r.payload).zipIdx).foldl (fun (s : State) v =>
        if v.2 % 19 < 17 then s.setReg Reg.ARY_AGEa (272 * die + v.2 / 19) (v.2 % 19) v.1 else s) s
    else s
  | _ => s

/-- Scans the store of a die (R439): `good` records precede the first that is bad, if one is. -/
def State.scanStore (s : State) (die : Nat) (good : Option Nat) (ages : Bool) : State :=
  match s.cal[die]? with
  | none => s
  | some c =>
    let bad := match good with
      | some n => decide (n < c.recs.length)
      | none => false
    let recs := match good with
      | some n => c.recs.take n
      | none => c.recs
    let s : State := { s with cal := s.cal.set die { c with recs := recs } }
    let s := (latestRecs recs).foldl (fun s r => s.loadRecord die ages r) s
    if bad then (s.err Reg.CAL_CRC_FAIL 0 0 1).raise 0x7A die else s

/-- Step 4 of the boot: memories trained, march tests on every enabled site. -/
def State.bootMemories (s : State) (failStacks failChannels : List Nat) (marchFails : List (Nat × List Nat)) : State :=
  let s := s.setMemories 2
  let s := (failStacks.filter (fun k => decide (k < 8))).foldl (fun (s : State) k => (s.setRf Reg.MEM_STACKs_STATE k 0 2 0 3).raise 0x5A k) s
  let s := (failChannels.filter (fun k => decide (k < 32))).foldl (fun (s : State) k => (s.setRf Reg.MEM_FARc_STATE k 0 2 0 3).raise 0x5B k) s
  s.sites.foldl (fun (s : State) x => s.marchResult x (((marchFails.find? (fun m => m.1 == x)).map (fun m => m.2)).getD [])) s

/-- The network recovery boot (R477). -/
def State.recoveryBoot (s : State) : State :=
  let s := (s.setRf Reg.SEC_FW 0 0 16 16 1).setRf Reg.MEM_STACKs_STATE 0 0 2 0 2
  let s := s.setRf Reg.HPT_LINK_STATE 0 0 2 0 1
  { s with pow := { s.pow with booted := true, kept := true } }

/-- The forward voltages at 10 µA of the two external diodes in mV: one outside 0.1 V to 1.0 V counts as not fitted (R449). -/
def State.bootDiodes (s : State) (external : List Nat) : State :=
  external.zipIdx.foldl (fun (s : State) b =>
    if b.2 < 2 then s.setRf Reg.THM_DIODEn 0 (16 + b.2) 31 31 (bit (decide (100 ≤ b.1 ∧ b.1 ≤ 1000))) else s) s

/-- Steps 3 to 5 of a boot from an image that verifies. -/
def State.bootFlash (s : State) (f : FwImage) (failStacks failChannels : List Nat) (marchFails : List (Nat × List Nat)) (external : List Nat)
    (badRecord : List Nat) : State :=
  let s := (s.setRf Reg.SEC_FW 0 0 16 16 0).setRf Reg.SEC_FW 0 0 5 0 f.svn
  let s := s.setWords Reg.SEC_FW_MEASn (fwMeasure f)
  let s : State := { s with sec := { s.sec with flash := some f } }
  let s := s.sites.foldl (fun (s : State) x => (List.range 17).foldl (fun (s : State) a => s.setReg Reg.ARY_DRIFT_COEFa x a 7193) s) s
  let s := (List.range 2).foldl (fun (s : State) d => s.scanStore d (badRecord[d]?) (!s.pow.kept)) s
  let s := (s.bootMemories failStacks failChannels marchFails).bootDiodes external
  let s := s.setRf Reg.HPT_LINK_STATE 0 0 2 0 1
  let s := s.setRf Reg.CAL_AGE 0 0 1 0 (if s.pow.kept then 1 else 0)
  let back := s.sec.recovered
  let s : State := { s with pow := { s.pow with booted := true, kept := true }, sec := { s.sec with recovered := false } }
  let s := if back then s.raise 0x92 devUnit else s
  s.review

/-- `BOOT`: `found` is what the boot's tests find, `img` the image in flash where none has been installed by this model's device, `fwOk` that the
flash reads well, `badRecord` for each die the number of records before the first bad one, `external` the forward voltages of the external
diodes. A collector self-test that fails enters the safe state at once (R410); a management set that is incomplete boots for recovery (R477). -/
def execBoot (found : BootTest) (fwOk : Bool) (img : FwImage) (failStacks failChannels : List Nat) (marchFails : List (Nat × List Nat))
    (external : List Nat) (badRecord : List Nat) (s : State) : Out :=
  let pins := s.rf Reg.DEV_SIDEBAND 0 0 1 0
  if !s.pow.vin || !s.pow.on || s.pow.booted || s.pow.offLatch || pins != 3 then .next s
  else
    let s := (s.setReg Reg.PWR_STATE 0 0 0x11)
    let s := if found.collector then s else s.enterSafe 1
    let s : State := { s with sec := { s.sec with root := true, rootDraws := s.sec.rootDraws + 1 } }
    let s := if found.random then s else (s.setRf Reg.SEC_RNG 0 0 0 0 0).raise 0x91 devUnit
    let f := s.sec.flash.getD img
    finish (if !fwOk || !s.imageBoots f || !found.managed then s.recoveryBoot
      else s.bootFlash f failStacks failChannels marchFails external badRecord)

end Sys2Proof.Machine
end

