-- ==== Sys2Proof/Machine/Security.lean ====
section
/-! DEFINITION. The security block (chapter 16): attestation, life cycle, firmware, random source, tamper. -/

namespace Sys2Proof.Machine

/-! ### Attestation (R470, R471) -/

/-- The latest valid records of a die's store that the calibration digest covers, in the order `TYPE`, site, array. -/
def calDigestRecs (c : CalStore) : List CalRec :=
  ((latestRecs c.recs).filter (fun r => r.typ != 5 && r.typ != 7)).mergeSort (fun a b =>
    decide (a.typ < b.typ ∨ (a.typ = b.typ ∧ (a.site < b.site ∨ (a.site = b.site ∧ a.arr ≤ b.arr)))))

/-- The calibration digest (R471). -/
def State.calDigest (s : State) : List Byte := sm3 (s.cal.flatMap (fun c => (calDigestRecs c).flatMap CalRec.bytes))

/-- The grade of a device with so many enabled cores (R500). -/
def gradeOf (n : Nat) : Nat := if n = 512 then 0 else if n = 480 then 1 else 2

/-- The bytes that a register family of eight words holds. -/
def State.wordBytes (s : State) (f : RegFam) : List Byte := (List.range 8).flatMap (fun k => toLE 4 (s.view f 0 k))

/-- Bytes 0x000 to 0x11F of *Attestation report*. -/
def State.report352 (s : State) (nonce : BitVec 256) (tenant : Nat) : List Byte :=
  let slot := fun (n : Nat) =>
    let g := s.gen n
    toLE 1 (s.slotState n) ++ toLE 1 (s.slotGen n) ++ toLE 1 (s.rf Reg.WGT_GEN_SLOTn 0 n 9 8) ++ toLE 1 0 ++ toLE 2 g.shard ++ toLE 2 0 ++
    toLE 8 g.pkgId.toNat ++ digestBytes g.delivered
  toLE 2 1 ++ toLE 1 (s.rf Reg.SEC_LC_STATE 0 0 2 0) ++ toLE 1 (gradeOf s.sites.length) ++ toLE 4 s.sites.length ++
  toLE 8 (s.reg Reg.SEC_SERIAL 0 0) ++ digestBytes nonce ++ s.wordBytes Reg.SEC_FW_MEASn ++ toLE 4 (s.rf Reg.SEC_FW 0 0 5 0) ++
  toLE 4 (s.rf Reg.SEC_FW 0 0 16 16) ++ toLE 8 (s.reg Reg.FLK_LOCKAGE 0 0) ++ slot 0 ++ slot 1 ++ s.calDigest ++ sm3 s.anchorBytes ++
  toLE 4 (s.reg Reg.WGT_SCHED_ACTIVE_TAG 0 0) ++ toLE 4 tenant ++ List.replicate 24 0

/-- `ATTEST`. -/
def execAttest (h : Hdr) (nonce : BitVec 256) (s : State) : Out :=
  s.command h attestRow true true true (fun s x r =>
    let b := s.report352 nonce x.tenantNo
    ({ s with freeCtr := s.freeCtr + 4 }.wide Reg.SEC_ATTESTS 0 0 1).answer r stOk (b ++ s.sm2Signed b))

/-! ### Life cycle (R472, R473) -/

/-- A row of *Transitions*: whether the Otost root may sign, whether an operator of the anchor table may, and what becomes of the table
(0 required, 1 optional, 2 erased). -/
def transition (a b : Nat) : Option (Bool × Bool × Nat) :=
  match a, b with
  | 0, 1 => some (true, false, 0)
  | 1, 2 => some (false, true, 1)
  | 2, 1 => some (false, true, 1)
  | 1, 3 => some (true, true, 2)
  | 2, 3 => some (true, true, 2)
  | 3, 1 => some (true, false, 0)
  | 0, 4 => some (true, true, 2)
  | 1, 4 => some (true, true, 2)
  | 2, 4 => some (true, true, 2)
  | 3, 4 => some (true, true, 2)
  | _, _ => none

/-- Whether a record's table is as its row asks: where it must replace the present one it holds an entry with OPERATOR. -/
def tableOk (r : LcRecord) (kind : Nat) : Bool :=
  let has := r.hasTable == 1
  let good := r.table.any (fun e => e.roles.getLsbD 0)
  match kind with
  | 0 => has && good
  | 1 => !has || good
  | _ => true

/-- Whether a write to non-volatile memory is in progress, or none may start: under a shutdown and in the safe state a transition, which ends with
a write, meets `E_BUSY` (R411, R453; notes/assumptions/30.md). -/
def State.nvBusy (s : State) : Bool :=
  s.programming || s.maint.isSome || s.jobs.fw.isSome || s.nvWriting 0 || s.nvWriting 1 || !s.writesOk

/-- The bytes of a transition record before its signature (*Transition record*). -/
def recordBytes (r : LcRecord) : List Byte :=
  toLE 2 r.magic.toNat ++ toLE 1 r.from_.toNat ++ toLE 1 r.to_.toNat ++ toLE 4 r.count.toNat ++ toLE 8 r.serial.toNat ++
  toLE 1 r.hasTable.toNat ++ toLE 7 r.pad.toNat ++
  (List.range 8).flatMap (fun n =>
    let e := r.table.getD n ⟨0, 0, 0⟩
    toLE 1 e.roles.toNat ++ toLE 7 e.pad.toNat ++ digestBytes e.key) ++
  toLE 2 r.chain.der.length ++ r.chain.der

/-- Whether a record is signed as its row asks: by an OPERATOR whose chain ends at the Otost root, where the row allows it, or at an anchor with
that role, where it allows that (R472). -/
def State.lcSigned (s : State) (r : LcRecord) (root table : Bool) : Bool :=
  (certRole r.chain).any (fun x => x.1 == 1) && ((root && s.endsOtost r.chain) || (table && s.endsAnchor r.chain 0)) &&
  sm2Verify r.chain.key (recordBytes r) r.sig

/-- The status of a transition record (R472, step 5 of R473). -/
def State.lcCheck (s : State) (r : LcRecord) : Nat :=
  let st := s.rf Reg.SEC_LC_STATE 0 0 2 0
  let n := s.rf Reg.SEC_LC_STATE 0 0 13 8
  if r.magic != 0x1C7E || decide (1 < r.hasTable.toNat) || r.pad != 0 || r.table.any (fun e => e.pad != 0 || decide (7 < e.roles.toNat)) ||
      decide (8 < r.table.length) || (r.hasTable == 0 && r.table.any (fun e => e != ⟨0, 0, 0⟩)) then stBadField
  else
    match transition st r.to_.toNat with
    | none => stLifecycle
    | some (root, table, kind) =>
      if r.from_.toNat ≠ st ∨ (n = 63 ∧ r.to_ ≠ 4) then stLifecycle
      else if !tableOk r kind then stBadField
      else if r.count.toNat ≠ n ∨ r.serial.toNat ≠ s.reg Reg.SEC_SERIAL 0 0 ∨ !s.lcSigned r root table then stAuth
      else if s.seq.barges.any (fun b => b.2.state != .free) || (List.range 2).any (fun k => s.slotState k == 1 || s.slotState k == 3) ||
          s.nvBusy then stBusy
      else stOk

/-- Step 4 of R473 begins: the slots are `EMPTY`, near memory is zero, and the arrays are to be programmed to level 8 in the waves of R335, each
under R336; the rest of the transition follows the last of them. -/
def State.eraseWeights (s : State) (rep : Reply) (r : LcRecord) (kind : Nat) : State :=
  let s := (s.clearSlot 0).clearSlot 1
  let d : DieProg := ⟨0, [], false, false, false⟩
  let s : State := { s with
    mem := s.mem.filter (fun c => decide (farBase ≤ c.1)), poison := s.poison.filter (fun w => decide (farBase ≤ 8 * w))
    latent := s.latent.filter (fun x => decide (farBase ≤ 8 * x.1))
    prog := some { slot := 0, erase := some (rep, r, kind), resumed := false, dies := [d, d], spares := [], placed := [], unplaced := [],
                   complete := false } }
  (s.setReg Reg.WGT_PROG_STATE 0 0 (17 * s.sites.length)).showProg

/-- An accepted transition takes effect (R473). -/
def State.lcApply (s : State) (rep : Reply) (r : LcRecord) (kind : Nat) : State :=
  let s := s.wipeWindows.closeAll 8 (fun x => match x.role with | .tenant _ => true | .operator => false)
  let s : State := { s with seq := { s.seq with variants := [] }, sec := { s.sec with root := true, rootDraws := s.sec.rootDraws + 1 } }
  if 3 ≤ r.to_.toNat then s.eraseWeights rep r kind else s.lcFinish rep r kind

/-- `LIFECYCLE`. -/
def execLifecycle (h : Hdr) (r : LcRecord) (s : State) : Out :=
  s.command h (opRowM 0x0181) false true true (fun s _ rep =>
    let st := s.lcCheck r
    if st ≠ stOk then (s.err Reg.SEC_LC_REJECT 0 0 1).answer rep st []
    else
      match transition (s.rf Reg.SEC_LC_STATE 0 0 2 0) r.to_.toNat with
      | none => s
      | some (_, _, kind) => s.lcApply rep r kind)

/-! ### Firmware (R475) -/

/-- The status of an installation of an image with its bytes; one of more than 60 MiB, or with an SVN above 63, is out of range
(R474; notes/assumptions/15.md). -/
def State.fwCheck (s : State) (f : FwImage) : Nat :=
  if !(s.area 2).closed then stNotFound
  else if s.jobs.fw.isSome then stBusy
  else if !s.fwSigned f then stAuth
  else if decide (f.svn < s.rf Reg.SEC_FW 0 0 13 8) || f.format != fwFormat || f.magic != 0x46574558 then stVersion
  else if decide (63 < f.svn) || decide (fwMax < f.bytes.length) then stRange
  else stOk

/-- The staged image with its bytes. -/
def State.staged (s : State) (f : FwImage) : FwImage := { f with bytes := Mem.read (s.area 2).bytes 0 (s.area 2).size }

/-- Whether a 64 KiB block of flash may be written now (R456). -/
def State.fwWriteOk (s : State) : Bool := s.writesOk && s.holdup 400

/-- A block of the image is written: the flash holds no image that boots until all of it is there. -/
def State.fwBegin (s : State) (f : FwImage) : State := { s with sec := { s.sec with flash := some { f with bytes := [] } } }

/-- `FW_INSTALL`: `img` is what the header and the certificates of the staged image say. The write begins where the hold-up check of its first
block passes and no other write of die 0 runs (R456), and from then on the flash holds no image that boots. -/
def execFwInstall (h : Hdr) (img : FwImage) (s : State) : Out :=
  s.command h (opRowM 0x0182) true true true (fun s _ r =>
    let f := s.staged img
    if s.fwCheck f ≠ stOk then s.answer r (s.fwCheck f) []
    else
      let s := (s.setRf Reg.SEC_FW 0 0 25 24 2).updArea 2 (fun a => { a with busy := true })
      let s : State := { s with jobs := { s.jobs with fw := some r, fwImage := some f } }
      if !s.fwWriteOk then s.holdupCheck 0 400 else if s.nvWriting 0 then s else s.fwBegin f)

/-- `FW_INSTALL_DONE`: the image is written and read back; where the hold-up check of a block fails, or another write of the die runs, the write
goes on waiting. After a recovery boot a chip reset follows (R477). -/
def execFwInstallDone (readBackOk : Bool) (s : State) : Out :=
  match s.jobs.fw, s.jobs.fwImage with
  | some r, some f =>
    if !s.fwWriteOk then finish (s.holdupCheck 0 400)
    else if s.nvWriting 0 then .next s
    else
      let s := (({ s with jobs := { s.jobs with fw := none, fwImage := none } } : State).updArea 2 (fun _ => areaReset))
      if readBackOk then
        let s : State := { s with sec := { s.sec with flash := some f } }
        let s := ((s.setRf Reg.SEC_FW 0 0 13 8 f.svn).setRf Reg.SEC_FW 0 0 25 24 0).answer r stOk []
        if s.recovery then finish (({ s with sec := { s.sec with recovered := true } } : State).chipReset 3) else finish s
      else finish ((((s.fwBegin f).setRf Reg.SEC_FW 0 0 25 24 3).answer r stAuth []).raise 0x93 devUnit)
  | _, _ => .next s

/-! ### Random source and tamper (R481, R482) -/

/-- `RNG_HEALTH_FAIL`. -/
def execRngHealthFail (s : State) : Out :=
  if s.pow.booted then finish ((s.setRf Reg.SEC_RNG 0 0 0 0 0).raise 0x91 devUnit) else .next s

/-- `RNG_HEALTH_RECOVERY`. -/
def execRngHealthRecovery (s : State) : Out := if s.pow.booted then .next (s.setRf Reg.SEC_RNG 0 0 0 0 1) else .next s

/-- `TAMPER`: windows wiped, keys destroyed, the cause recorded, a chip reset whatever the mask, across which the cause is kept. -/
def execTamper (cause : BitVec 3) (s : State) : Out :=
  if !s.pow.on then .next s
  else
    let s := s.wipeWindows
    let s : State := { s with sec := { s.sec with root := false }, flt := { s.flt with key := none } }
    let s := (s.setReg Reg.SEC_TAMPER 0 0 cause.toNat).raise 0x90 devUnit
    .next ((s.chipReset 3).setReg Reg.SEC_TAMPER 0 0 cause.toNat)

end Sys2Proof.Machine
end

