-- ==== Sys2Proof/Machine/Commit.lean ====
section
/-! DEFINITION. What step 4 of a boundary does to the sequence table (chapter 09): ends, results of the ending lockage, admissions and the
other commands of barges, speculation, and the slot assignment of the starting lockage. -/

namespace Sys2Proof.Machine

/-! ### Ends (R262 to R264) -/

/-- The order of R263: a lower rank takes precedence. -/
def endRank (status : Nat) : Nat :=
  match status with
  | 4 => 0
  | 7 => 1
  | 6 => 2
  | 5 => 3
  | 1 => 4
  | 3 => 5
  | 2 => 6
  | _ => 7

/-- Releases every page of a barge, with the copies and recompressions of them (R247, R248). -/
def Kv.drop (k : Kv) (n : Nat) : Kv :=
  { k with
    l3 := k.l3.filter (fun e => e.1 / 2 ^ 25 != n)
    copies := k.copies.filter (fun c => c.barge != n)
    rcmps := k.rcmps.filter (fun r => r.barge != n) }

/-- An end cause commits for a barge (R262, R263): a live barge ends and its pages are released; of several causes the status keeps the
first in the order of R263. -/
def State.endBarge (s : State) (n status : Nat) : State :=
  let b := s.barge n
  if b.live then
    let s := s.setBarge n { b with state := .ended, endStatus := status, prompt := [], runFirst := 0, runLen := 0 }
    { s with kv := s.kv.drop n }
  else if b.state = .ended ∧ endRank status < endRank b.endStatus then s.setBarge n { b with endStatus := status }
  else s

/-- A barge ends with the retirement of its generation (R343): one that has just come to its end in another way keeps `COMPLETE` (*Events that
meet a replacement*) and whatever takes precedence (R263). -/
def State.retireBarge (s : State) (n : Nat) : State := if (s.barge n).endStatus = 1 then s else s.endBarge n 5

/-- Step 1 of R267: entries in `ENDED` become `FREE`, and a later barge of the number has held no slot of theirs (R321). -/
def State.freeEnded (s : State) : State :=
  let gone := (s.seq.barges.filter (fun b => b.2.state == .ended)).map (fun b => b.1)
  let d := s.flt.digest
  { s with seq := { s.seq with barges := s.seq.barges.filter (fun b => b.2.state != .ended) }
           flt := { s.flt with digest := { d with touched := d.touched.map (fun l => l.filter (fun x => !gone.contains x.2)) } } }

/-- The barges that have ended at this boundary, ascending. -/
def State.endedNow (s : State) : List Nat := (s.seq.barges.filter (fun b => b.2.state == .ended)).map (fun b => b.1)

/-- The exit device sends the end notices of this boundary, none to sessions of version 1.1 (R397), and raises the barges that failed (R264, R288);
barges that retired count (R343). `lockage` is the number of the ending lockage. -/
def State.notices (s : State) (lockage : Nat) : State :=
  s.endedNow.foldl (fun s n =>
    let b := s.barge n
    let s := if b.endStatus = 5 then s.err Reg.WGT_REPL_RETIRED 0 0 1 else s
    let s := if b.endStatus = 7 then s.raise 0x49 devUnit else s
    if s.isExit && !b.compat then s.sendOutput b.session (endRecord n b.length lockage b.endStatus b.lateCancel) else s) s

/-! ### Results of the ending lockage (R175, R272, R281) -/

/-- The end status that the tokens of a barge bring: 1 `COMPLETE`, 3 `LENGTH_LIMIT`, 0 none. -/
def Barge.resultEnd (b : Barge) (ts : List (BitVec 32)) : Nat :=
  if b.stop ≠ 0xFFFFFF ∧ ts.any (fun t => t.toNat == b.stop) then 1
  else if b.maxNew ≠ 0 ∧ b.maxNew ≤ b.outCount then 1
  else if b.length = 1048576 then 3
  else 0

/-- A barge after the acceptance of its step (R272): lengths, output count, drafts. -/
def Barge.advance (b : Barge) (a : Accept) : Barge :=
  if a.noToken then { b with repeats := b.repeats + 1 }
  else if b.state = .decode then
    let l := b.length + a.tokens.length
    { b with length := l, outCount := l + 1 - b.promptLen, repeats := 0
             drafted := (b.drafted + a.depth) % 65536, accepted := (b.accepted + (if a.depth = 0 then 0 else a.a - 1)) % 65536 }
  else
    let l := b.length + a.processed
    if b.promptLen ≤ l then { b with length := l, outCount := 1, repeats := 0, state := .decode, prompt := [] }
    else { b with length := l, repeats := 0 }

/-- Applies the acceptance of one barge; a barge that held no slot is none of the results. -/
def State.applyAccept (s : State) (a : Accept) : State :=
  let b := s.barge a.barge
  if !b.live || b.runLen = 0 then s
  else
    let n := b.advance a
    let s := s.setBarge a.barge n
    if a.noToken then s
    else
      let s := if b.state = .decode ∧ 1 ≤ a.depth then
          (s.wide Reg.CNT_SPEC_DRAFTED 0 0 a.depth).wide Reg.CNT_SPEC_ACCEPTED 0 0 (a.a - 1) else s
      if n.resultEnd a.tokens = 0 then s else s.endBarge a.barge (n.resultEnd a.tokens)

/-- The slots of the ending lockage that gave no token, which the exit device counts (R175). -/
def State.countRepeats (s : State) : State :=
  if s.isExit then
    s.err Reg.CNT_SLOT_REPEAT 0 0
      ((s.slotBarges.flatMap (fun n => (s.barge n).tokenSlots)).filter (fun k => !s.seq.sampled.contains (k, true))).length
  else s

/-! ### Admission (R274 to R277) -/

/-- The reach of a barge. -/
def reachOf (p maxNew : Nat) : Nat := if maxNew = 0 then 1048576 else p + maxNew - 1

/-- The pages of a reach that a device owns (R228, R275). -/
def pagesOwned (im : Image) (dev reach : Nat) : Nat :=
  ((im.owners.filter (fun o => o.dev == dev)).map (fun o =>
    match im.geoms.find? (fun g => g.layer == o.layer) with
    | some g => ((reach + 31) / 32 + g.stride - 1 - o.phase) / g.stride
    | none => 0)).sum

/-- What the barges of a list reserve on a device: data granules and scale granules (R275). -/
def reservedOn (im : Image) (dev : Nat) (l : List Barge) : Nat :=
  let of := fun (b : Barge) => pagesOwned im dev (reachOf b.promptLen b.maxNew)
  let data := (l.map (fun b => of b * dataGranules (b.kvPolicy % 4))).sum
  let slots := (l.map (fun b => if b.kvPolicy % 4 = 2 then of b else 0)).sum
  data + (slots + 15) / 16

/-- The live barges. -/
def State.liveBarges (s : State) : List Barge := (s.seq.barges.map (fun b => b.2)).filter Barge.live

/-- The quota of a tenant: slots and granules (R277). -/
def State.quota (s : State) (tenant : Nat) : Nat × Nat :=
  match (List.range 1024).find? (fun n => s.rf Reg.SEQ_QUOTAn 0 n 31 31 == 1 && s.rf Reg.SEQ_QUOTAn 0 n 15 0 == tenant) with
  | some n => (s.rf Reg.SEQ_QUOTA_SLOTSn 0 n 25 0, s.rf Reg.SEQ_QUOTA_GRANn 0 n 25 0)
  | none => (s.rf Reg.SEQ_QUOTA_DEF_SLOTS 0 0 25 0, s.rf Reg.SEQ_QUOTA_DEF_GRAN 0 0 25 0)

/-- Whether a barge takes slots in turn: `ADMITTED`, `PREFILL` or `DECODE`. -/
def Barge.running (b : Barge) : Bool := b.state == .admitted || b.state == .prefill || b.state == .decode

/-- Whether a barge has not left its prompt: `ADMITTED` or `PREFILL`. -/
def Barge.filling (b : Barge) : Bool := b.state == .admitted || b.state == .prefill

/-- The slots that the barges of a tenant could take. -/
def slotUse (l : List Barge) (tenant : Nat) : Nat :=
  ((l.filter (fun b => b.tenant == tenant && b.running)).map (fun b => b.depthMax + 1)).sum

/-- Quotient rounded up. -/
def ceilDiv (a b : Nat) : Nat := (a + b - 1) / b

/-- λ of R276 in ns. -/
def State.stepTime (s : State) : Nat :=
  (if s.rf Reg.SEQ_ADMIT 0 0 0 0 = 1 then s.reg Reg.FLK_LEN_WIDE 0 0 else s.reg Reg.FLK_LEN_NORMAL 0 0) * 8 + 1000

/-- Whether the deadlines of every class from `c0` on hold for the barges of `l` (R276); `t` is the boundary time. -/
def timeHolds (plan : List PlanRun) (lam t c0 : Nat) (l : List Barge) : Bool :=
  let dec := (plan.filter (fun r => !r.prefill)).length
  let pre := plan.filter (fun r => r.prefill)
  let rho := match pre.map (fun r => r.len) with
    | [] => 1
    | a :: w => w.foldl min a
  (List.range 8).all (fun c => decide (c < c0) ||
    (let d := (l.filter (fun b => decide (b.prio ≤ c) && b.running)).length
     let q := (l.filter (fun b => decide (b.prio ≤ c) && b.filling)).length
     l.all (fun b => decide (b.prio ≠ c) ||
       ((!b.running || decide (b.itl = 0xFFFFFF) || decide (ceilDiv d dec * lam ≤ b.itl * 1000)) &&
        (!b.filling || decide (b.ttft = 0xFFFFFFFF) ||
          decide ((t - b.admitTime) * 8 + ceilDiv (b.promptLen - b.length) rho * ceilDiv q pre.length * lam ≤ b.ttft * 1000))))))

/-- Whether FP16 bits are a temperature of *Barge entry*: finite and at least +0. -/
def tempOk (t : F16) : Bool :=
  match F16.num t with
  | .fin neg m _ => !neg || decide (m = 0)
  | _ => false

/-- Whether FP16 bits lie in (0, 1]. -/
def topPOk (t : F16) : Bool := Num.lt (Num.int 0) (F16.num t) && !(Num.lt (Num.int 1) (F16.num t))

/-- Check 2 of *Admission checks*. -/
def submitFieldsOk (f : SubmitF) : Bool :=
  decide (f.kvPolicy.toNat < 8) && decide (f.kvPolicy.toNat % 4 ≠ 3) && decide (f.variant.toNat < 4096) && decide (f.topK.toNat < 4096) &&
  decide (f.maxNew.toNat < 2 ^ 20) && decide (f.stop.toNat < 2 ^ 24) && decide (f.itl.toNat < 2 ^ 24) && tempOk f.temp && topPOk f.topP

/-- The lowest index that no listed key takes, from `k` on. -/
def lowestFree (l : List Nat) (k : Nat) : Nat :=
  match l with
  | [] => k
  | a :: t => if a = k then lowestFree t (k + 1) else k

/-- The barge that an admission makes in lockage `lock` (R33, R274). -/
def State.admitted (s : State) (c : Staged) (f : SubmitF) (prompt : List (BitVec 32)) (compat : Option (BitVec 32)) (lock : Nat) : Barge :=
  { bargeFree with
    state := .admitted, prio := f.prio.toNat, compat := compat.isSome, kvPolicy := f.kvPolicy.toNat, tenant := c.tenant
    generation := s.rf Reg.WGT_GEN_ACTIVE 0 0 7 0, depthMax := f.depthMax.toNat, depth := f.depthMax.toNat, variant := f.variant.toNat
    promptLen := f.promptLen.toNat, maxNew := f.maxNew.toNat, stop := f.stop.toNat, ttft := f.ttft.toNat, itl := f.itl.toNat
    topP := f.topP, temp := f.temp, session := c.session, topK := f.topK.toNat, seed := f.seed, lastSlot := lock, entered := lock
    prompt := prompt, request := compat.getD 0, admitTime := s.flt.start }

/-- Check 5 of *Admission checks*; `stOk` where the variant may be used. -/
def State.variantCheck (s : State) (tenant variant : Nat) : Nat :=
  let v := s.variant variant
  if variant = 0 then stOk
  else if !v.loaded then stNotFound
  else if v.tenant ≠ tenant then stAuth
  else if v.gen ≠ s.rf Reg.WGT_GEN_ACTIVE 0 0 7 0 then stGeneration
  else stOk

/-- Check 6 of *Admission checks*. -/
def State.quotaOk (s : State) (b : Barge) : Bool :=
  let q := s.quota b.tenant
  let l := b :: s.liveBarges
  decide (slotUse l b.tenant ≤ q.1) &&
  (match s.sched.active with
    | some im => im.devs.all (fun d => decide (reservedOn im d.dev (l.filter (fun x => x.tenant == b.tenant)) ≤ q.2))
    | none => true)

/-- Whether a device has a page-table region (R257): this one by its register, the others by what they sent at activation
(notes/assumptions/18.md). -/
def State.hasTable (s : State) (d : DevPlace) : Bool :=
  if d.dev = s.devNo then s.rf Reg.MEM_KV_PT_SIZE 0 0 15 0 != 0 else d.ptMib != 0

/-- Check 7 of *Admission checks*. -/
def State.memoryOk (s : State) (b : Barge) : Bool :=
  match s.sched.active with
  | some im => im.devs.all (fun d => s.hasTable d && decide (reservedOn im d.dev (b :: s.liveBarges) ≤ d.nearGran + d.farGran))
  | none => true

/-- Check 8 of *Admission checks*. -/
def State.timeOk (s : State) (b : Barge) (others : List Barge) : Bool :=
  match s.sched.active with
  | some im => timeHolds im.plan s.stepTime s.flt.start b.prio (b :: others)
  | none => true

/-- *Admission checks*, in order. -/
def State.admitCheck (s : State) (f : SubmitF) (b : Barge) : Nat :=
  if 8192 ≤ s.seq.barges.length ∨ (b.compat ∧ 1024 ≤ (s.liveBarges.filter (fun x => x.compat)).length) then stBusy
  else if !submitFieldsOk f then stBadField
  else if f.promptLen = 0 then stRange
  else if 1048575 < f.promptLen.toNat ∨ 1048576 < reachOf f.promptLen.toNat f.maxNew.toNat then stLength
  else if s.variantCheck b.tenant b.variant ≠ stOk then s.variantCheck b.tenant b.variant
  else if !s.quotaOk b then stQuota
  else if !s.memoryOk b then stMemory
  else if !s.timeOk b s.liveBarges then stTime
  else stOk

/-- An admission at its boundary; `lock` is the starting lockage. -/
def State.admission (s : State) (c : Staged) (f : SubmitF) (prompt : List (BitVec 32)) (compat : Option (BitVec 32)) (lock : Nat) : State :=
  let b := s.admitted c f prompt compat lock
  let st := s.admitCheck f b
  if st ≠ stOk then (s.err Reg.CNT_SEQ_ADMIT_REJECT 0 0 1).answerCmd c st []
  else
    let n := lowestFree (s.seq.barges.map (fun x => x.1)) 0
    (s.setBarge n b).answerCmd c stOk (toLE 2 n)

/-! ### Cancel, park, resume, variants (R278, R279, R283) -/

/-- A cancel meets the final token of a barge (*Cancel outcomes*, second row). -/
def State.cancelLate (s : State) (n : Nat) : State :=
  let b := s.barge n
  if b.lateCancel then s else (s.setBarge n { b with lateCancel := true }).err Reg.CNT_SEQ_LATE_CANCEL 0 0 1

/-- Whether a barge has ended with its final token. -/
def Barge.complete (b : Barge) : Bool := b.state == .ended && (b.endStatus == 1 || b.endStatus == 3)

/-- `CANCEL` at its boundary (*Cancel outcomes*). -/
def State.cancelBarge (s : State) (c : Staged) (n : Nat) : State :=
  let b := s.barge n
  if b.state ≠ .free ∧ b.tenant ≠ c.tenant then s.answerCmd c stAuth []
  else if b.live then (s.endBarge n 2).answerCmd c stOk []
  else if b.complete then (s.cancelLate n).answerCmd c stComplete []
  else s.answerCmd c stNotFound []

/-- `PARK` at its boundary. -/
def State.parkBarge (s : State) (c : Staged) (n : Nat) : State :=
  let b := s.barge n
  if b.state ≠ .free ∧ b.tenant ≠ c.tenant then s.answerCmd c stAuth []
  else if !b.live then s.answerCmd c stNotFound []
  else if b.compat then s.answerCmd c stBadField []
  else if b.filling then s.answerCmd c stBusy []
  else if b.state = .spilled then s.answerCmd c stBadField []
  else (s.setBarge n { b with state := .spilled, spilledAt := s.flt.start }).answerCmd c stOk []

/-- `RESUME` at its boundary; the time spent in `SPILLED` is not measured (R273). A barge that has ended is one not in `SPILLED` (R279). -/
def State.resumeBarge (s : State) (c : Staged) (n : Nat) : State :=
  let b := s.barge n
  if b.state ≠ .free ∧ b.tenant ≠ c.tenant then s.answerCmd c stAuth []
  else if b.compat ∨ b.state ≠ .spilled then s.answerCmd c stBadField []
  else
    let b := { b with state := .decode, lastSent := b.lastSent + (s.flt.start - b.spilledAt) }
    let others := (s.seq.barges.filter (fun x => x.1 != n && x.2.live)).map (fun x => x.2)
    if (s.quota b.tenant).1 < slotUse (b :: others) b.tenant then s.answerCmd c stQuota []
    else if !s.timeOk b others then s.answerCmd c stTime []
    else (s.setBarge n b).answerCmd c stOk []

/-- Whether a generation may be named by a variant load (R283): an instance holds it, or a slot of the entry device does, by what that device has
reported with the ending lockage. -/
def State.genKnown (s : State) (g : Nat) : Bool :=
  (List.range 16).any (fun i => g != 0 && s.rf Reg.WGT_INST_GENn 0 i 7 0 == g) ||
  (match s.flt.reports.find? (fun r => r.dev == s.rf Reg.SEQ_ROLE 0 0 8 0) with
    | some r => r.slots.contains g
    | none => s.isEntry && s.slotGens.contains g)

/-- A variant entry that is not loaded. -/
def variantNone : Variant := ⟨false, false, 0, 0, [], 0⟩

/-- Sets a variant entry; the digest round in progress is void (R319). -/
def State.setVariant (s : State) (i : Nat) (v : Variant) : State :=
  ({ s with seq := { s.seq with variants := SMap.put s.seq.variants variantNone i v } }).voidRound

/-- `VAR_LOAD` at its boundary. -/
def State.loadVariant (s : State) (c : Staged) (i gen : Nat) (data : List VarLayer) : State :=
  let v := s.variant i
  if v.loaded ∧ v.tenant ≠ c.tenant then s.answerCmd c stAuth []
  else if v.loaded then s.answerCmd c stBusy []
  else if !s.genKnown gen then s.answerCmd c stGeneration []
  else (s.setVariant i ⟨true, false, gen, c.tenant, data, sm3Val (variantBytes data)⟩).answerCmd c stOk []

/-- `VAR_UNLOAD` at its boundary. -/
def State.unloadVariant (s : State) (c : Staged) (i : Nat) : State :=
  let v := s.variant i
  if !v.loaded then s.answerCmd c stNotFound []
  else if v.tenant ≠ c.tenant then s.answerCmd c stAuth []
  else if s.liveBarges.any (fun b => b.variant == i) then s.answerCmd c stBusy []
  else (s.setVariant i variantNone).answerCmd c stOk []

/-- Variants whose reads have met poison are unloaded as that commits (R284). -/
def State.unloadPoisoned (s : State) (l : List EndCause) : State :=
  (l.filter (fun c => c.variant != 0 && (s.variant c.variant).loaded)).foldl
    (fun s c => s.setVariant c.variant { variantNone with poisoned := true }) s

/-- A session's close at its boundary (R269, R389): its barges end exactly as under a cancel, its commands are discarded, the session is
gone. -/
def State.closeCommit (s : State) (n : Nat) : State :=
  let mine := s.seq.barges.filter (fun b => b.2.session == n)
  let s := mine.foldl (fun s b => if b.2.live then s.endBarge b.1 2 else if b.2.complete then s.cancelLate b.1 else s) s
  let s : State := { s with seq := { s.seq with
    queue := s.seq.queue.filter (fun q => q.cmd.session != n), held := s.seq.held.filter (fun q => q.session != n) } }
  s.dropSession n

/-! ### Speculation (R282) -/

/-- A barge after the speculation update of a boundary; `r` is the acceptance of its step. The second component says that it backed off. -/
def Barge.speculate (b : Barge) (r : Option Accept) : Barge × Bool :=
  let wait := decide (b.depth = 0 ∧ 0 < b.specOff ∧ 1 ≤ b.depthMax)
  match r with
  | some a =>
    if a.noToken || a.depth = 0 then
      if wait then ({ b with specOff := b.specOff - 1, depth := if b.specOff = 1 then 1 else 0 }, false) else (b, false)
    else if a.a = 1 then
      if b.zeroRun + 1 = 4 then
        ({ b with zeroRun := 0, allRun := 0, depth := b.depth / 2, specOff := if b.depth / 2 = 0 then 64 else b.specOff }, true)
      else ({ b with zeroRun := b.zeroRun + 1, allRun := 0 }, false)
    else if a.a = a.depth + 1 then
      if b.allRun + 1 = 8 then ({ b with zeroRun := 0, allRun := 0, depth := min (2 * b.depth + 1) b.depthMax }, false)
      else ({ b with zeroRun := 0, allRun := b.allRun + 1 }, false)
    else ({ b with zeroRun := 0, allRun := 0 }, false)
  | none => if wait then ({ b with specOff := b.specOff - 1, depth := if b.specOff = 1 then 1 else 0 }, false) else (b, false)

/-- Step 4 of R267. -/
def State.speculation (s : State) (results : List Accept) : State :=
  (s.seq.barges.filter (fun b => b.2.live)).foldl (fun s x =>
    let (b, off) := x.2.speculate (results.find? (fun r => r.barge == x.1))
    let s := if b = x.2 then s else s.setBarge x.1 b
    if off then s.err Reg.CNT_SPEC_BACKOFF 0 0 1 else s) s

/-! ### Slot assignment (R271, R341) -/

/-- The positions that a barge needs. -/
def Barge.need (b : Barge) : Nat := if b.state = .decode then b.depth + 1 else b.promptLen - b.length

/-- The element of a list that no other beats under `better`, the earliest of equals. -/
def bestOf {α : Type} (better : α → α → Bool) (l : List α) : Option α :=
  l.foldl (fun acc x => match acc with
    | none => some x
    | some y => if better x y then some x else some y) none

/-- `pick` of R271: the shortest run that is long enough, else the longest; of equal lengths the lowest first slot. -/
def pickRun (need : Nat) (runs : List PlanRun) : Option PlanRun :=
  let fit := runs.filter (fun r => decide (need ≤ r.len))
  if fit.isEmpty then bestOf (fun a b => decide (b.len < a.len ∨ (a.len = b.len ∧ a.first < b.first))) runs
  else bestOf (fun a b => decide (a.len < b.len ∨ (a.len = b.len ∧ a.first < b.first))) fit

/-- Places the barges of a list, in order, on the runs that `ok` allows: what is placed, the runs left, the barges without a run. -/
def placeAll (ok : Barge → PlanRun → Bool) (l : List (Nat × Barge)) (runs : List PlanRun) :
    List (Nat × PlanRun × Nat) × List PlanRun × List (Nat × Barge) :=
  match l with
  | [] => ([], runs, [])
  | x :: t =>
    match pickRun x.2.need (runs.filter (ok x.2)) with
    | some r =>
      let (p, f, u) := placeAll ok t (runs.filter (fun q => q.first != r.first))
      ((x.1, r, min x.2.need r.len) :: p, f, u)
    | none =>
      let (p, f, u) := placeAll ok t runs
      (p, f, x :: u)

/-- The order of R271: class, last slot, index. -/
def slotOrder (l : List (Nat × Barge)) : List (Nat × Barge) :=
  l.mergeSort (fun a b => decide (a.2.prio < b.2.prio ∨
    (a.2.prio = b.2.prio ∧ (a.2.lastSlot < b.2.lastSlot ∨ (a.2.lastSlot = b.2.lastSlot ∧ a.1 ≤ b.1)))))

/-- The slot assignment: barge, run, slots taken. `free` says whether a run may serve a barge (R341). -/
def assignSlots (plan : List PlanRun) (free : Barge → PlanRun → Bool) (l : List (Nat × Barge)) : List (Nat × PlanRun × Nat) :=
  let dec := slotOrder (l.filter (fun b => b.2.state == .decode))
  let pre := slotOrder (l.filter (fun b => b.2.filling))
  let (p1, f1, u1) := placeAll (fun b r => !r.prefill && free b r) dec plan
  let (p2, f2, u2) := placeAll (fun b r => r.prefill && free b r) pre f1
  let (p3, _, _) := placeAll free (u1 ++ u2) f2
  p1 ++ p2 ++ p3

/-- Whether a run is free for a barge: its instance holds the barge's generation and is not withheld (R341). -/
def State.runFree (s : State) (b : Barge) (r : PlanRun) : Bool :=
  b.generation != 0 && s.rf Reg.WGT_INST_GENn 0 r.inst 7 0 == b.generation && s.rf Reg.WGT_INST_GENn 0 r.inst 8 8 == 0

/-- The assignment of a lockage from the table. -/
def State.assignment (s : State) (l : List (Nat × Barge)) : List (Nat × PlanRun × Nat) :=
  match s.sched.active with
  | some im => assignSlots im.plan s.runFree l
  | none => []

/-- Step 5 of R267: the slots of lockage `lock`; none in `HALTED`. -/
def State.giveSlots (s : State) (lock : Nat) : State :=
  let s : State := { s with slots := [], seq := { s.seq with barges := s.seq.barges.map (fun b => (b.1, { b.2 with runFirst := 0, runLen := 0 })) } }
  if s.flightState ≠ 2 then s
  else
    let l := s.assignment s.seq.barges
    let s := l.foldl (fun (s : State) x =>
      let b := s.barge x.1
      let b := { b with lastSlot := lock, runFirst := x.2.1.first, runLen := x.2.2, state := if b.state = .admitted then .prefill else b.state }
      let s := s.setBarge x.1 b
      { s with slots := (List.range x.2.2).foldl (fun (m : SMap Nat) k => SMap.put m 0 (x.2.1.first + k) (x.1 + 1)) s.slots }) s
    let now := l.map (fun x => (x.2.1.inst, x.1))
    let d := s.flt.digest
    let touched := match d.touched with
      | [] => [now]
      | a :: t => (a ++ now.filter (fun x => !a.contains x)) :: t
    { s with flt := { s.flt with digest := { d with touched := touched } } }

end Sys2Proof.Machine
end

