-- ==== Sys2Proof/Machine/Pages.lean ====
section
/-! DEFINITION. What step 3 of a boundary does to KV pages (chapter 08): edits, spill and restore, recompression, new pages; and the copies'
completions. -/

namespace Sys2Proof.Machine

/-! ### Sharing (R245, R247) -/

/-- What a level-3 entry maps: granule, memory, scale slot, kind. -/
def pteKey (e : Nat) : Nat × Nat := (bitsOf e 45 16, bitsOf e 6 6)

/-- `SHARED` of every entry: whether another barge maps the same granule (of a scale granule, the same slot). -/
def Kv.reshare (k : Kv) : Kv :=
  { k with l3 := k.l3.map (fun e =>
      let n := e.2.toNat
      let shared := k.l3.any (fun o => o.1 / 2 ^ 25 != e.1 / 2 ^ 25 && pteKey o.2.toNat == pteKey n)
      (e.1, BitVec.ofNat 64 (setBits n 3 3 (bit shared)))) }

/-- Units of far granules that nothing maps any more carry no failed tag. -/
def Kv.cleanTags (k : Kv) : Kv := { k with badTags := k.badTags.filter (fun u => (k.used true).contains (u / 8)) }

/-- The first position of a local page of a layer on this device: the phase that the device owns. -/
def State.pagePos (s : State) (layer page : Nat) : Nat :=
  match s.geom layer, s.sched.active.bind (fun im => im.owners.find? (fun o => o.layer == layer && o.dev == s.devNo)) with
  | some g, some o => 32 * (page * g.stride + o.phase)
  | _, _ => 32 * page

/-! ### Edits (R243 to R246) -/

/-- Copies bytes of device memory with the poison of the codewords that they lie in (R351, R361). -/
def State.copyMem (s : State) (src dst n : Nat) : State :=
  let s := (s.meet src n).meetEdges dst n
  s.memWrite dst (Mem.read s.mem src n) (s.poisonAt s.poison (src / 8 * 8) ((n + 7) / 8 * 8))

/-- A page's mapping is replaced: its entries go, and a copy or recompression of it that is under way is abandoned. -/
def Kv.displace (k : Kv) (barge layer page : Nat) : Kv :=
  { k.unmap barge layer page with
    copies := k.copies.filter (fun c => !(c.barge == barge && c.layer == layer && c.page == page))
    rcmps := k.rcmps.filter (fun c => !(c.barge == barge && c.layer == layer && c.page == page)) }

/-- Copies positions 0 to `last` of a page into fresh granules of the recipient. -/
def State.copyPart (s : State) (g : LayerGeom) (die rec layer page last : Nat) (p : PageAt) : State :=
  match s.freshPage die p.fmt p.tenant with
  | none => s
  | some (q, t) =>
    let t : State := { t with kv := t.kv.displace rec layer page }
    let t := t.placePage rec layer page q
    ((LayerGeom.vectors g).filter (fun v => decide (v.2.1 ≤ last))).foldl (fun (t : State) v =>
      let o := vecOffset g.heads g.dim p.fmt v.1 v.2.1 v.2.2
      let t := t.copyMem (p.addr o) (q.addr o) (fmtBytes p.fmt g.dim)
      if p.fmt = 2 then t.copyMem (p.scaleAddr g.dim v.1 v.2.1 v.2.2) (q.scaleAddr g.dim v.1 v.2.1 v.2.2) (g.dim / 32) else t) t

/-- Maps the first `p` positions of a donor into a recipient on this device, in place of what the recipient maps there (R245). -/
def State.mapPrefix (s : State) (donor rec p : Nat) : State :=
  (s.kv.pagesOf donor).foldl (fun (s : State) x =>
    let pos := s.pagePos x.1 x.2
    if pos + 32 ≤ p then
      { s with kv := (List.range 4).foldl (fun k g =>
        let e := k.pte (vKey donor x.1 x.2 g)
        if pteValid e then k.setPte (vKey rec x.1 x.2 g) (BitVec.ofNat 64 e) else k) (s.kv.displace rec x.1 x.2) }
    else if pos < p then
      match s.geom x.1, s.kv.page donor x.1 x.2 with
      | some g, some pg => s.copyPart g (match s.ownerSite g (pos / 32) with | some y => dieOf y | none => 0) rec x.1 x.2 ((p - 1) % 32) pg
      | _, _ => s
    else s) s

/-- Trims a barge's pages on this device: a copy of the page that holds T − 1 is abandoned, a recompression of the page that T cuts (R246,
*Events that meet on one page*). -/
def State.trimPages (s : State) (n t : Nat) : State :=
  let cut := fun (layer page : Nat) => decide (t ≤ s.pagePos layer page)
  let part := fun (layer page : Nat) => decide (t < s.pagePos layer page + 32)
  let last := fun (layer page : Nat) => decide (t ≤ s.pagePos layer page + 32)
  let k := (s.kv.pagesOf n).foldl (fun k x => if cut x.1 x.2 then k.unmap n x.1 x.2 else k) s.kv
  { s with kv := { k with
    copies := k.copies.filter (fun c => !(c.barge == n && (cut c.layer c.page || (last c.layer c.page && !c.done))))
    rcmps := k.rcmps.filter (fun c => !(c.barge == n && part c.layer c.page)) } }

/-- The checks that every edit of a barge shares; `stOk` where they pass. -/
def State.editCheck (s : State) (c : Staged) (n : Nat) : Nat :=
  let b := s.barge n
  if !b.live then stNotFound else if b.tenant ≠ c.tenant then stAuth else stOk

/-- An edit at its boundary (*Edit checks*); `freed` are the barges whose pages an earlier edit of the boundary has released: as donors they
answer a map with `E_NOT_FOUND` (*Events that meet on one page*). -/
def State.edit (s : State) (freed : List Nat) (c : Staged) : State × List Nat :=
  match c.body with
  | .prefixMap d r p =>
    let a := s.editCheck c d
    let b := s.editCheck c r
    if a = stNotFound ∨ b = stNotFound ∨ freed.contains d then (s.answerCmd c stNotFound [], freed)
    else if a ≠ stOk ∨ b ≠ stOk then (s.answerCmd c stAuth [], freed)
    else if (s.barge d).compat ∨ (s.barge r).compat then (s.answerCmd c stBadField [], freed)
    else if (s.barge d).length < p then (s.answerCmd c stRange [], freed)
    else if (s.barge r).length ≠ 0 then (s.answerCmd c stBadField [], freed)
    else
      let s := s.mapPrefix d r p
      ((s.setBarge r { s.barge r with length := p }).answerCmd c stOk [], freed)
  | .trim n t =>
    let a := s.editCheck c n
    if a ≠ stOk then (s.answerCmd c a [], freed)
    else if (s.barge n).length < t then (s.answerCmd c stRange [], freed)
    else
      let s := s.trimPages n t
      ((s.setBarge n { s.barge n with length := t }).answerCmd c stOk [], freed)
  | .release n =>
    let a := s.editCheck c n
    if a ≠ stOk then (s.answerCmd c a [], freed)
    else (({ s with kv := s.kv.drop n } : State).answerCmd c stOk [], freed ++ [n])
  | _ => (s, freed)

/-! ### Switches (R250, R251, R255) -/

/-- The frames of a page after its far granules have been restored to near ones, in order. -/
def restored (fs : List (Nat × Bool)) (ts : List Nat) : List (Nat × Bool) :=
  match fs, ts with
  | (_, true) :: r, t :: u => (t, false) :: restored r u
  | f :: r, u => f :: restored r u
  | [], _ => []

/-- The copies that have completed switch their pages' entries. -/
def State.switchCopies (s : State) : State :=
  let s' := (s.kv.copies.filter (fun c => c.done)).foldl (fun (s : State) c =>
    match s.kv.page c.barge c.layer c.page with
    | some p =>
      let q : PageAt := { p with frames := if c.spill then c.target.map (fun f => (f, true)) else restored p.frames c.target }
      ({ s with kv := s.kv.setPage c.barge c.layer c.page q }).wide (if c.spill then Reg.CNT_KV_SPILLED else Reg.CNT_KV_RESTORED) 0 0 1
    | none => s) s
  { s' with kv := { s'.kv with copies := s'.kv.copies.filter (fun c => !c.done) } }

/-- Recompressions commit: the INT4 page replaces the FP8 one (R255). -/
def State.commitRcmps (s : State) : State :=
  let s' := s.kv.rcmps.foldl (fun (s : State) r =>
    match s.kv.page r.barge r.layer r.page with
    | some p =>
      let q : PageAt := { p with fmt := 2, frames := [(r.data, false)], scale := (r.scale, r.slot) }
      ({ s with kv := s.kv.setPage r.barge r.layer r.page q }).wide Reg.CNT_KV_RCMP 0 0 1
    | none => s) s
  { s' with kv := { s'.kv with rcmps := [] } }

/-! ### New pages (R241, R256) -/

/-- Maps the pages of the positions that the barges write in the starting lockage. -/
def State.mapSlots (s : State) : State :=
  let geoms := match s.sched.active with
    | some im => im.geoms
    | none => []
  s.slotBarges.foldl (fun s n =>
    let b := s.barge n
    if b.runLen = 0 then s
    else
      let j0 := b.length / 32
      let js := (List.range ((b.length + b.runLen - 1) / 32 + 1 - j0)).map (fun k => j0 + k)
      geoms.foldl (fun s g => js.foldl (fun (s : State) j =>
        match s.ownerSite g j with
        | some x =>
          if 32767 < j ∨ pteValid (s.kv.pte (vKey n g.layer (j / g.stride) 0)) then s
          else s.mapPage (dieOf x) n g.layer (j / g.stride) (b.kvPolicy % 4) b.tenant
        | none => s) s) s) s

/-! ### Spill and restore (R249, R251) -/

/-- Free granules of a pool. -/
def State.freeGranules (s : State) (far : Bool) : Nat := (s.pool far).2 - ((s.kv.used far).eraseDups).length

/-- Whether a page may spill (R249). -/
def State.maySpill (s : State) (n layer page : Nat) : Bool :=
  match s.kv.page n layer page with
  | some p => decide (s.pagePos layer page + 32 ≤ (s.barge n).length) && !p.shared && p.frames.all (fun f => !f.2) &&
      !s.editNames n && !s.kv.busy n layer page
  | none => false

/-- The pages that may spill, in the order of R249. -/
def State.spillOrder (s : State) : List (Nat × Nat × Nat) :=
  let bs := (s.seq.barges.filter (fun b => b.2.live)).mergeSort
    (fun a b => decide (a.2.lastSlot < b.2.lastSlot ∨ (a.2.lastSlot = b.2.lastSlot ∧ a.1 ≤ b.1)))
  bs.flatMap (fun b =>
    (((s.kv.pagesOf b.1).filter (fun x => s.maySpill b.1 x.1 x.2)).mergeSort
      (fun x y => decide (s.pagePos x.1 x.2 < s.pagePos y.1 y.2 ∨ (s.pagePos x.1 x.2 = s.pagePos y.1 y.2 ∧ x.1 ≤ y.1)))).map
      (fun x => (b.1, x.1, x.2)))

/-- `n` far granules. -/
def State.allocFarN (s : State) (n : Nat) (got : List Nat) : Option (List Nat × State) :=
  match n with
  | 0 => some (got, s)
  | n + 1 =>
    match s.allocFar got with
    | some (f, t) => State.allocFarN t n (got ++ [f])
    | none => none

/-- Starts the spill of a page. -/
def State.spillPage (s : State) (x : Nat × Nat × Nat) : State :=
  match s.kv.page x.1 x.2.1 x.2.2 with
  | none => s
  | some p =>
    match s.allocFarN p.frames.length [] with
    | none => s
    | some (fs, t) => { t with kv := { t.kv with copies := t.kv.copies ++
        [{ spill := true, barge := x.1, layer := x.2.1, page := x.2.2, source := p.frames.map (fun f => f.1), target := fs, done := false }] } }

/-- Near granules free once the spills under way have switched. -/
def State.projected (s : State) : Nat :=
  s.freeGranules false + ((s.kv.copies.filter (fun c => c.spill)).map (fun c => c.source.length)).sum

/-- Chooses pages to spill while near memory runs low. -/
def State.chooseSpills (s : State) : State :=
  if s.rf Reg.MEM_KV_WATER 0 0 15 0 * 1024 ≤ s.freeGranules false then s
  else
    let high := s.rf Reg.MEM_KV_WATER 0 0 31 16 * 1024
    if high ≤ s.projected then s
    else
      match s.spillOrder with
      | [] => s.raise 0x43 devUnit
      | l => l.foldl (fun (s : State) x => if high ≤ s.projected then s else s.spillPage x) s

/-- The barges that hold a slot within the next `k` assignments, if no barge enters or ends (R251). -/
def State.predict (s : State) (k lock : Nat) (l : List (Nat × Barge)) : List Nat :=
  match k with
  | 0 => []
  | k + 1 =>
    let now := (s.assignment l).map (fun x => x.1)
    now ++ s.predict k (lock + 1) (l.map (fun b => if now.contains b.1 then (b.1, { b.2 with lastSlot := lock }) else b))

/-- Near granules for a restore. -/
def State.allocNearN (s : State) (die n : Nat) (got : List Nat) : Option (List Nat × State) :=
  match n with
  | 0 => some (got, s)
  | n + 1 =>
    match s.allocNear die got with
    | some (f, t) => State.allocNearN t die n (got ++ [f])
    | none => none

/-- Starts the restore of a page that lies in far memory. -/
def State.restorePage (s : State) (n layer page : Nat) : State :=
  match s.kv.page n layer page, s.geom layer with
  | some p, some g =>
    let far := p.frames.filter (fun f => f.2)
    if far.isEmpty || s.kv.busy n layer page || decide (s.freeGranules false ≤ s.rf Reg.MEM_KV_WATER 0 0 15 0 * 1024) then s
    else
      let die := match s.ownerSite g (s.pagePos layer page / 32) with
        | some y => dieOf y
        | none => 0
      match s.allocNearN die far.length [] with
      | none => s
      | some (fs, t) => { t with kv := { t.kv with copies := t.kv.copies ++
          [{ spill := false, barge := n, layer := layer, page := page, source := far.map (fun f => f.1), target := fs, done := false }] } }
  | _, _ => s

/-- Chooses pages to restore for the lockage that starts, `lock`, and the ones after it. -/
def State.chooseRestores (s : State) (lock : Nat) : State :=
  let who := s.slotBarges ++ s.predict (s.rf Reg.MEM_KV_LOOKAHEAD 0 0 6 0 - 1) (lock + 1) s.seq.barges
  (who.eraseDups).foldl (fun s n => (s.kv.pagesOf n).foldl (fun s x => s.restorePage n x.1 x.2) s) s

/-- The free granules shown (R257). -/
def State.showFree (s : State) : State :=
  (s.setReg Reg.MEM_KV_FREE_NEAR 0 0 (s.freeGranules false)).setReg Reg.MEM_KV_FREE_FAR 0 0 (s.freeGranules true)

/-- Copies a granule with its poison. -/
def State.copyGranule (s : State) (src dst : Nat × Bool) : State := s.copyMem (granAddr src) (granAddr dst) 32768

/-- A write of far granules of the KV pool renews their version counters (R246, R250). -/
def State.renew (s : State) (l : List Nat) : State :=
  { s with kv := { s.kv with versions := l.foldl (fun m f => SMap.upd m 0 f (fun v => v + 1)) s.kv.versions } }

/-- Marks the copy of a page as complete. -/
def Kv.copyDone (k : Kv) (spill : Bool) (n layer page : Nat) : Kv :=
  { k with copies := k.copies.map (fun (c : Copy) =>
      if c.spill = spill ∧ c.barge = n ∧ c.layer = layer ∧ c.page = page then { c with done := true } else c) }

/-- The copy of a page that is under way. -/
def State.copyOf (s : State) (spill : Bool) (n layer page : Nat) : Option Copy :=
  s.kv.copies.find? (fun c => c.spill == spill && !c.done && c.barge == n && c.layer == layer && c.page == page)

/-- `SPILL_COPY_DONE` (R250). -/
def execSpillCopyDone (barge layer page : Nat) (s : State) : Out :=
  match s.copyOf true barge layer page with
  | none => .next s
  | some c =>
    let t := ((c.source.zip c.target).foldl (fun (s : State) x => s.copyGranule (x.1, false) (x.2, true)) s.countersRead).renew c.target
    finish { t with kv := (t.kv.freshTags c.target).copyDone true barge layer page }

/-- `RESTORE_COPY_DONE` (R251, R253, R361): where a tag of the page's far granules fails, now (`tagFails`, 4 KiB units of far memory) or since
before, the page is poisoned and the restore is abandoned; a page whose data carries poison ends its barge as well. -/
def execRestoreCopyDone (barge layer page : Nat) (tagFails : List Nat) (s : State) : Out :=
  match s.copyOf false barge layer page with
  | none => .next s
  | some c =>
    let s := c.source.foldl (fun (s : State) f => s.meet (granAddr (f, true)) 32768) s.countersRead
    let bad := s.failedUnits (c.source.map (fun f => (granAddr (f, true), 32768))) tagFails
    if !bad.isEmpty then
      let frames := match s.kv.page barge layer page with
        | some p => p.frames
        | none => c.source.map (fun f => (f, true))
      let s : State := { s with kv := { s.kv with copies := s.kv.copies.filter (fun x => x != c) } }
      finish ((s.failUnits frames bad).kvPoisoned barge)
    else
      let poisoned := c.source.any (fun f => !(s.poisonAt s.poison (granAddr (f, true)) 32768).isEmpty)
      let t := (c.source.zip c.target).foldl (fun (s : State) x => s.copyGranule (x.1, true) (x.2, false)) s
      let t : State := { t with kv := t.kv.copyDone false barge layer page }
      finish (if poisoned then t.kvPoisoned barge else t)

/-- Writes that have landed on a page whose restore has been copied go to its fresh granules as well, so that the entries switch to what the far
page holds (R215, R246, R251). -/
def State.mirror (s : State) (p : Posted) : State :=
  let l := (s.kv.copies.filter (fun c => !c.spill && c.done)).flatMap (fun c => c.source.zip c.target)
  match l.find? (fun x => decide (granAddr (x.1, true) ≤ p.addr ∧ p.addr < granAddr (x.1, true) + 32768)) with
  | some x => s.memWrite (granAddr (x.2, false) + (p.addr - granAddr (x.1, true))) p.data p.poison
  | none => s

/-! ### The tables in near memory (R236 to R238) -/

/-- A free unit of the region, which one is a free value (notes/assumptions/26.md): none that a table takes now, or took at the start of the
boundary (`olds`). -/
def State.freshUnit (s : State) (olds : List Nat) : Option Nat :=
  let used := olds ++ s.kv.tabs.map (fun x => x.2 - 1)
  firstFree (fun u => u) ((s.rf Reg.MEM_KV_PT_SIZE 0 0 15 0 - 16) * 256) (s.free 64).toNat (used.length + 1) used

/-- Enters where a table lies in the table above it. -/
def State.linkTable (s : State) (key : Nat) : State :=
  match SMap.get s.kv.tabs 0 key with
  | 0 => s
  | u + 1 => s.memWrite (s.parentOf key) (toLE 8 (s.tabAddr u + 1)) []

/-- Copies a table into a fresh unit (R243); where there is none it stays where it is. -/
def State.copyTable (olds : List Nat) (s : State) (key : Nat) : State :=
  match SMap.get s.kv.tabs 0 key, s.freshUnit olds with
  | u + 1, some v =>
    let t := s.nextFree.copyMem (s.tabAddr u) (s.tabAddr v) 4096
    { t with kv := { t.kv with tabs := SMap.put t.kv.tabs 0 key (v + 1) } }
  | _, _ => s

/-- Places a table that the entries need in a fresh unit, cleared, and enters it in the table above. -/
def State.giveTable (olds : List Nat) (s : State) (key : Nat) : State :=
  match SMap.get s.kv.tabs 0 key, s.freshUnit olds with
  | 0, some u =>
    let t := s.nextFree.memClear (s.tabAddr u) 4096
    { t with kv := { t.kv with tabs := SMap.put t.kv.tabs 0 key (u + 1) } }.linkTable key
  | _, _ => s

/-- Frees a table that no entry needs. -/
def State.dropTable (s : State) (key : Nat) : State :=
  let t := s.memWrite (s.parentOf key) (toLE 8 0) []
  { t with kv := { t.kv with tabs := SMap.erase t.kv.tabs key } }

/-- The words of a level-3 entry that has changed. -/
def State.writePte (s : State) (key : Nat) : State :=
  match SMap.get s.kv.tabs 0 (2 * (key / 512) + 1) with
  | 0 => s
  | u + 1 => s.memWrite (s.tabAddr u + 8 * (key % 512)) (toLE 8 (s.kv.pte key)) []

/-- The page manager writes the tables, as little-endian entries in near memory (R238). The tables that a change of the entries touches are
copied into fresh units; there the ones without a valid entry go, those needed are placed, and the words that differ from what `old` gave are
written; the level-1 entries are replaced last (R243; notes/assumptions/26.md). -/
def State.syncTables (s : State) (old : SMap (BitVec 64)) : State :=
  let olds := s.kv.tabs.map (fun x => x.2 - 1)
  let ks := (((old ++ s.kv.l3).map (fun e => e.1)).eraseDups).filter (fun k => SMap.get old 0 k != SMap.get s.kv.l3 0 k)
  let need := (s.kv.l3.flatMap (fun e => tableKeys e.1)).eraseDups
  let lost := ((s.kv.tabs.map (fun x => x.1)).filter (fun k => !need.contains k)).reverse
  let touched := ((ks.flatMap tableKeys).eraseDups).filter need.contains
  let t := touched.foldl (State.copyTable olds) s
  let t := (touched.filter (fun k => k % 2 == 1)).foldl State.linkTable t
  let t := ks.foldl State.writePte (need.foldl (State.giveTable olds) (lost.foldl State.dropTable t))
  (touched.filter (fun k => k % 2 == 0)).foldl State.linkTable t

end Sys2Proof.Machine
end

