-- ==== Sys2Proof/Machine/Boundary.lean ====
section
/-! DEFINITION. The lockage boundary (R32): what the release decides, replacements of generations, activation of a schedule, the cores'
own steps, the start of the programs; and the end of a grace quantum. -/

namespace Sys2Proof.Machine

/-! ### The end of a grace quantum (R174) -/

/-- A pending wait on a counter completes; its armed range is filled with 0x7FC0 in every 16-bit unit, unless all its packets have come
(notes/assumptions/32.md). -/
def Core.fillArm (c : Core) (k : Nat) : Core :=
  match c.arms.find? (fun a => a.k == k) with
  | none => c
  | some a =>
    let d : Core := { c with arms := c.arms.filter (fun b => b.k != k) }
    if a.expect ≤ a.count then d else d.setSp a.base ((List.replicate (a.bytes / 2) [0xC0, 0x7F]).flatten)

/-- The uses that a core waits for or that are rooted at its router, as far as their delivery is not complete. -/
def State.openUses (s : State) (site : Nat) : List (Nat × Nat) :=
  let rooted := match s.tables with
    | some t => (t.uses.filter (fun u => t.red.any (fun n => n.site == site && n.tree == u.tree && n.parent == 0))).map (fun u => (u.tree, u.use))
    | none => []
  (s.waitOrder site ++ rooted).eraseDups.filter (fun w => !(s.core site).redIn.contains w)

/-- Step 2 of R174 at a root: every use that is not complete is resolved with NaN in its segment, and a wait for it completes (R157). A use is
complete once its last flit is written, so one that the root holds behind an earlier wait is resolved too, and what it holds is dropped; a use that
is resolved counts as completed, so a later packet of it is stray (R158): both the model's choice, for the spec does not speak of them
(notes/assumptions/32.md). -/
def State.resolveReds (s : State) (site : Nat) : State :=
  (s.openUses site).foldl (fun (s : State) w =>
    match s.redUse w.1 w.2 with
    | some u => s.updCore site (fun c =>
        let d := if s.takesTiles site then c.setEntries u.tile u.seg (List.replicate (64 * u.flits) (F32.nan, 0)) else c
        { d with
          redIn := c.redIn ++ [w], redHold := c.redHold.filter (fun f => (f.tree, f.use) != w)
          redOver := if c.redOver.contains w then c.redOver else c.redOver ++ [w] })
    | none => s) s

/-- The sites whose routers hold a root. -/
def State.rootSites (s : State) : List Nat :=
  match s.tables with
  | some t => ((t.red.filter (fun n => n.parent == 0)).map (fun n => n.site)).eraseDups
  | none => []

/-- A router discards the contexts of uses that are not complete (R157); they are resolved, and a later packet of them is stray. -/
def State.abandonReds (s : State) (site : Nat) : State :=
  let n := (s.core site).reds.length
  if n = 0 then s
  else
    let resolved := fun (c : Core) => c.redOver ++ c.reds.map (fun x => (x.tree, x.use))
    let s := (s.updCore site (fun c => { c with reds := [], redOver := resolved c })).err Reg.RTR_RED_ABANDONED site 0 n
    (List.range n).foldl (fun s _ => s.raise 0x20 site) s

/-- Whether a core's program has not reached its barrier. -/
def Core.late (c : Core) : Bool := c.run != .idle && c.run != .arrived

/-- At the end of a grace quantum the cores of which a unit has held a started instruction for more than 100 µs are hung (R420). That is the array
unit with an evaluation that runs: a `FILL` releases its unit after one cycle (R201), and every other instruction completes with its row. -/
def State.markHung (s : State) : State :=
  let l := (s.cores.filter (fun c => c.2.evals.any (fun e => decide (e.since + 12500 < s.now)))).map (fun c => c.1)
  { s with flt := { s.flt with hung := l } }

/-- `GRACE_QUANTUM_END`: in a lockage that took its quantum, every core short of its barrier is brought to the boundary, and the
exit device's results are final (R175). -/
def execGraceQuantumEnd (s : State) : Out :=
  if !s.flt.graced then .next s
  else
    let s := s.markHung
    let late := (s.cores.filter (fun c => c.2.late)).map (fun c => c.1)
    let s := late.foldl (fun (s : State) x => s.updCore x (fun c => c.arms.foldl (fun c a => c.fillArm a.k) c)) s
    let s := (late ++ s.rootSites.filter (fun x => !late.contains x)).foldl (fun (s : State) x => s.resolveReds x) s
    let s := ((s.cores.filter (fun c => !c.2.reds.isEmpty)).map (fun c => c.1)).foldl (fun (s : State) x => s.abandonReds x) s
    finish (late.foldl (fun (s : State) x =>
      ((s.updCore x (fun c => { c with run := .arrived, loops := [], window := false })).err Reg.FLK_INCOMPLETE 0 0 1).raise 0x23 x) s).sendAccepts

/-! ### What the release decides (R173, R176, R311 to R316) -/

/-- A register becomes 1 and raises where it was 0. -/
def State.raiseOnce (s : State) (was now : Bool) (src : Nat) : State := if now && !was then s.raise src devUnit else s

/-- Step 1 of R32, with the windows of R176 and R313, the counter of WIDE lockages (R327), the halt of R315 and the time of the boundary. -/
def State.applyRelease (s : State) (r : Release) : State :=
  let ran := s.ranWide
  let wide := (ran :: s.flt.wideHist).take 1024
  let grace := (r.grace :: s.flt.graceHist).take 1024
  let nw := (wide.filter (fun b => b)).length
  let ng := (grace.filter (fun b => b)).length
  let past := decide (s.rf Reg.FLK_GRACE_LIMIT 0 0 10 0 < ng)
  let s := (s.setRf Reg.FLK_LOCK_STATE 0 0 0 0 (bit r.wide)).setRf Reg.FLK_LOCK_STATE 0 0 1 1 (bit r.grace)
  let s := (s.setReg Reg.FLK_WIDE_WINDOW 0 0 nw).setReg Reg.FLK_GRACE_WINDOW 0 0 ng
  let s := s.wide Reg.FLK_WIDE_LOCKAGES 0 0 (bit ran)
  let s := s.setReg Reg.FLK_TIME 0 0 (max s.now r.time)
  let told := s.flt.overrunTold
  let s : State := { s with flt := { s.flt with
    wideHist := wide, graceHist := grace, overrunTold := past, start := r.time, stretch := r.stretch, reports := r.reports } }
  let s := s.raiseOnce told past 0x29
  let s := s.raiseOnce (s.rf Reg.SEQ_ADMIT 0 0 0 0 == 1) r.persist 0x35
  let s := s.setReg Reg.SEQ_ADMIT 0 0 (bit r.persist)
  if r.halt ∧ s.flightState = 2 then (s.setRf Reg.FLK_FLIGHT_STATE 0 0 2 0 3).raise 0x33 devUnit else s

/-- The instance of a device in the active schedule. -/
def State.instOf (s : State) (dev : Nat) : Option Nat :=
  (s.sched.active.bind (fun im => im.devs.find? (fun d => d.dev == dev))).map (fun d => d.inst)

/-- Expulsions and returns (R321, R322): barges that held a slot of the instance in the rounds kept end `EXPELLED`. -/
def State.applyExpel (s : State) (r : Release) : State :=
  let d := s.flt.digest
  let hit := r.expel.flatMap (fun dev =>
    match s.instOf dev with
    | some i => d.touched.flatMap (fun l => (l.filter (fun t => t.1 == i)).map (fun t => t.2))
    | none => [])
  let gone := (d.expelled ++ r.expel.filter (fun x => !d.expelled.contains x)).filter (fun x => !r.rejoin.contains x)
  let s := hit.eraseDups.foldl (fun s n => s.endBarge n 6) s
  let s : State := { s with flt := { s.flt with digest := { s.flt.digest with expelled := gone, expelling := [], rejoin := [] } } }
  let me := s.devNo
  if r.expel.contains me then ((s.setRf Reg.FLK_REPLICA 0 0 24 24 1).err Reg.FLK_EXPEL 0 0 1).raise 0x37 devUnit
  else if r.rejoin.contains me then s.setRf Reg.FLK_REPLICA 0 0 24 24 0
  else s

/-! ### Replacement of a generation (R340 to R343) -/

/-- Whether an instance is in the mask of a replacement. -/
def Repl.has (r : Repl) (i : Nat) : Bool := r.mask.testBit i

/-- The report of a device. -/
def reportOf (l : List DevReport) (dev : Nat) : Option DevReport := l.find? (fun r => r.dev == dev)

/-- The devices of the active schedule. -/
def State.schedDevs (s : State) : List DevPlace :=
  match s.sched.active with
  | some im => im.devs
  | none => []

/-- The generation that an instance holds, by the reports of its devices; where one is missing the value stays. -/
def State.instHeld (s : State) (l : List DevReport) (i : Nat) : Nat :=
  match (s.schedDevs.filter (fun d => d.inst == i)).map (fun d =>
      match reportOf l d.dev with
      | some r => r.held
      | none => s.rf Reg.WGT_INST_GENn 0 i 7 0) with
  | [] => 0
  | a :: t => if t.all (fun x => x == a) then a else 0

/-- The devices of a replacement's mask. -/
def State.replDevs (s : State) (r : Repl) : List DevPlace := s.schedDevs.filter (fun d => r.has d.inst)

/-- Whether some device of a replacement's mask reports what `p` asks. -/
def State.replAny (s : State) (l : List DevReport) (r : Repl) (p : DevReport → Bool) : Bool :=
  (s.replDevs r).any (fun d => ((reportOf l d.dev).map p).getD false)

/-- Bd of a replacement: the instances of its mask hold N, the pointer becomes N, held admissions come first, a named schedule activates. The
digest round is void on every device (R319, R343). -/
def State.doneBoundary (s : State) (l : List DevReport) (r : Repl) : State :=
  let s := (List.range 16).foldl (fun (s : State) i =>
    if r.has i then
      let lost := (s.schedDevs.filter (fun d => d.inst == i)).any (fun d => ((reportOf l d.dev).map (fun r => r.unplaced)).getD true)
      s.setRf Reg.WGT_INST_GENn 0 i 7 0 (if lost then 0 else r.gen)
    else s) s
  let s := if r.has s.ownInst then s.finishProgramming else s
  let act := r.tag.map (fun t => ({ session := 0, tag := 0, sched := t, lockage := 0, atDone := true } : Activation))
  let s : State := { s with
    repls := s.repls.filter (fun q => q != r)
    seq := { s.seq with queue := s.seq.held.map (fun c => ({ cmd := c, seen := true, listed := true } : Queued)) ++ s.seq.queue, held := [] }
    flt := { s.flt with activation := match act with | some a => some a | none => s.flt.activation } }
  (s.setReg Reg.WGT_GEN_ACTIVE 0 0 r.gen).voidRound

/-- A replacement in its programming phase: it is done once every device of its mask has reported so, and stopped where one reports that. -/
def State.replReports (s : State) (l : List DevReport) (r : Repl) : State :=
  if r.phase ≠ 2 then s
  else if !s.replAny l r (fun x => !x.done) && (s.replDevs r).all (fun d => (reportOf l d.dev).isSome) then s.doneBoundary l r
  else if s.replAny l r (fun x => x.gens.contains (r.gen, true)) then
    { s with repls := s.repls.map (fun q => if q = r then { q with phase := 3 } else q) }
  else s

/-- Step 2 of R32: the generations of the instances, the done boundary or a stop of each replacement, the pointer. -/
def State.latchGen (s : State) (l : List DevReport) : State :=
  let s := (List.range 16).foldl (fun (s : State) i => s.setRf Reg.WGT_INST_GENn 0 i 7 0 (s.instHeld l i)) s
  let s := s.repls.foldl (fun s r => s.replReports l r) s
  if s.reg Reg.WGT_GEN_ACTIVE 0 0 = 0 then
    match ((List.range 16).map (fun i => s.rf Reg.WGT_INST_GENn 0 i 7 0)).find? (fun g => g != 0) with
    | some g => s.setReg Reg.WGT_GEN_ACTIVE 0 0 g
    | none => s
  else s

/-- Which instances are withheld: those being programmed (R343), those with an expelled member (R321), those with a device whose contents
are absent (R338). -/
def State.showWithheld (s : State) (l : List DevReport) : State :=
  (List.range 16).foldl (fun (s : State) i =>
    let w := s.repls.any (fun r => decide (2 ≤ r.phase) && r.has i) ||
      (s.schedDevs.filter (fun d => d.inst == i)).any (fun d =>
        s.flt.digest.expelled.contains d.dev || ((reportOf l d.dev).map (fun r => r.absent)).getD false)
    s.setRf Reg.WGT_INST_GENn 0 i 8 8 (bit w)) s

/-- Whether admissions are held (R343): a replacement runs, and no instance outside its mask that is not withheld holds the active generation.
With none active no instance does. -/
def State.holdsAdmissions (s : State) : Bool :=
  let active := s.rf Reg.WGT_GEN_ACTIVE 0 0 7 0
  s.repls.any (fun r => active == 0 || !((List.range 16).any (fun i => !r.has i && s.rf Reg.WGT_INST_GENn 0 i 8 8 == 0 &&
    s.rf Reg.WGT_INST_GENn 0 i 7 0 == active)))

/-- `WGT_REPL` and `WGT_DRAIN_LEFT` show the oldest replacement (notes/assumptions/12.md). -/
def State.showRepl (s : State) : State :=
  match s.repls with
  | [] => (s.setReg Reg.WGT_REPL 0 0 0).setReg Reg.WGT_DRAIN_LEFT 0 0 0
  | r :: _ =>
    let w := r.mask * 2 ^ 16 + r.gen * 2 ^ 8 + bit r.retire * 2 ^ 5 + bit s.holdsAdmissions * 2 ^ 4 + r.phase
    (s.setReg Reg.WGT_REPL 0 0 w).setReg Reg.WGT_DRAIN_LEFT 0 0 (if r.phase = 1 then r.left else 0)

/-- *Commit checks*; `stOk` where all pass. A replacement that has stopped admits a commit of its own generation (R337). -/
def State.commitCheck (s : State) (l : List DevReport) (gen mask : Nat) (tag : Option Nat) : Nat :=
  let devs := s.schedDevs.filter (fun d => mask.testBit d.inst)
  let rep := fun (d : DevPlace) => reportOf l d.dev
  if !devs.all (fun d => ((rep d).map (fun r => r.gens.any (fun g => g.1 == gen))).getD false) then stGeneration
  else if s.repls.any (fun r => r.mask &&& mask != 0 && !(r.phase == 3 && r.gen == gen)) ||
      devs.any (fun d => ((rep d).map (fun r => r.maint)).getD false) then stBusy
  else if devs.any (fun d => ((rep d).map (fun r => !r.temp)).getD false) then stTemp
  else if devs.any (fun d => ((rep d).map (fun r => !r.holdup)).getD false) then stHoldup
  else
    match tag with
    | none => stOk
    | some t =>
      if s.schedDevs.any (fun d => !mask.testBit d.inst) then stBadField
      else if !s.schedDevs.all (fun d => ((rep d).map (fun r => r.tag == t)).getD false) then stBusy
      else stOk

/-- The barges bound to a generation that only instances of a mask hold, among those that `p` picks. -/
def State.drainers (s : State) (r : Repl) (p : Barge → Bool) : List Nat :=
  let only := fun (g : Nat) =>
    (List.range 16).any (fun i => s.rf Reg.WGT_INST_GENn 0 i 7 0 == g) &&
    (List.range 16).all (fun i => s.rf Reg.WGT_INST_GENn 0 i 7 0 != g || r.has i)
  (s.seq.barges.filter (fun b => p b.2 && only b.2.generation)).map (fun b => b.1)

/-- The drain of a replacement is over: the barges that are left, and those that have ended at this boundary in a way that ranks lower (R263),
end `GENERATION_RETIRED`. -/
def State.endDrain (s : State) (r : Repl) : State :=
  (s.drainers r (fun b => b.live || b.state == .ended)).foldl (fun s n => s.retireBarge n) s

/-- `GEN_COMMIT` at B0: a device of the mask goes from `STAGED` to `PROGRAMMING` (*Generation slot states*); in retire mode the drain is over at
once. -/
def State.commitGen (s : State) (c : Staged) (gen : Nat) (retire : Bool) (mask timeout : Nat) (tag : Option Nat) : State :=
  let st := s.commitCheck s.flt.reports gen mask tag
  if st ≠ stOk then s.answerCmd c st []
  else
    let r : Repl := { mask := mask, gen := gen, retire := retire, phase := 1, left := timeout, timedOut := false, tag := tag }
    let old := (s.repls.map (fun q => { q with mask := q.mask &&& (0xFFFF ^^^ mask) })).filter (fun q => q.mask != 0)
    let s : State := { s with repls := old ++ [r] }
    let s := if r.has s.ownInst then
        match (List.range 2).find? (fun n => s.slotGen n == gen && s.slotState n == 2) with
        | some n => s.setRf Reg.WGT_GEN_SLOTn 0 n 27 24 3
        | none => s
      else s
    (if retire then s.endDrain r else s).voidRound.answerCmd c stOk []

/-- The drains before the commands of a boundary: each timeout runs, and where it is over the barges that prevent Bp end. -/
def State.drainStep (s : State) : State :=
  s.repls.foldl (fun (s : State) r =>
    if r.phase ≠ 1 then s.voidRound
    else
      let q : Repl := { r with left := r.left - 1 }
      let s : State := { s.voidRound with repls := s.repls.map (fun x => if x = r then q else x) }
      if q.left = 0 ∨ q.timedOut then s.endDrain q else s) s

/-- Bp of a replacement on this device, once no live barge prevents it: a device of the mask starts to program. -/
def State.programStep (s : State) : State :=
  s.repls.foldl (fun (s : State) r =>
    if r.phase ≠ 1 || !(s.drainers r Barge.live).isEmpty then s
    else
      let s : State := { s with repls := s.repls.map (fun x => if x = r then { x with phase := 2 } else x) }
      if r.has s.ownInst then
        match (List.range 2).find? (fun n => s.slotGen n == r.gen && s.slotState n == 3) with
        | some n => s.startProgramming n
        | none => s
      else s) s

/-- `DRAIN_TIMEOUT` (R343): in the last lockage of a drain, the boundary that follows becomes Bp. -/
def execDrainTimeout (s : State) : Out :=
  .next { s with repls := s.repls.map (fun r => if r.phase = 1 ∧ r.left ≤ 1 then { r with timedOut := true } else r) }

/-! ### The commands of the lockage (R265, R267) -/

/-- Whether a command closes a session. -/
def isClose (b : BargeCmd) : Bool :=
  match b with
  | .close _ => true
  | _ => false

/-- The commands of the list that commit at a boundary, and the queue left: at most `a` admissions, `o` others and `e` edits. -/
def splitBatch (l : List Queued) (a o e : Nat) : List Staged × List Queued :=
  match l with
  | [] => ([], [])
  | q :: t =>
    let b := q.cmd.body
    let keep := fun (x : Queued) => let (c, r) := splitBatch t a o e; (c, x :: r)
    if !q.listed then keep { q with seen := true }
    else if isClose b then let (c, r) := splitBatch t a o e; (q.cmd :: c, r)
    else if isAdmission b then
      if a = 0 then keep { q with seen := true } else let (c, r) := splitBatch t (a - 1) o e; (q.cmd :: c, r)
    else if isEdit b then
      if e = 0 ∨ o = 0 then keep { q with seen := true } else let (c, r) := splitBatch t a (o - 1) (e - 1); (q.cmd :: c, r)
    else if o = 0 then keep { q with seen := true } else let (c, r) := splitBatch t a (o - 1) e; (q.cmd :: c, r)

/-- A command other than an edit at its boundary; `lock` is the starting lockage. -/
def State.commitCmd (s : State) (lock : Nat) (c : Staged) : State :=
  if s.flightState = 3 && haltRejects c.body then
    s.rejectCmd c stBusy
  else
    match c.body with
    | .submit f p k =>
      if s.holdsAdmissions then
        if s.seq.held.length < 1024 then { s with seq := { s.seq with held := s.seq.held ++ [c] } }
        else s.rejectCmd c stBusy
      else s.admission c f p k lock
    | .cancel n => s.cancelBarge c n
    | .park n => s.parkBarge c n
    | .resume n => s.resumeBarge c n
    | .varLoad i g d => s.loadVariant c i g d
    | .varUnload i => s.unloadVariant c i
    | .commit g r m t tag => s.commitGen c g r m t tag
    | .activate tag lockage =>
      if s.flt.activation.isSome then s.answerCmd c stBusy []
      else
        let a : Activation := { session := c.session, tag := c.tag, sched := tag, lockage := lockage, atDone := false }
        { s with flt := { s.flt with activation := some a } }
    | .close n => s.closeCommit n
    | .prefixMap _ _ _ => s
    | .trim _ _ => s
    | .release _ => s

/-- The session whose close a listed command is. -/
def Queued.closes (q : Queued) : Option Nat :=
  match q.cmd.body with
  | .close n => if q.listed then some n else none
  | _ => none

/-- The queue without the commands of the sessions that close at this boundary: they are discarded unanswered (R389, R396). -/
def liveQueue (l : List Queued) : List Queued :=
  let gone := l.filterMap Queued.closes
  l.filter (fun q => q.closes.isSome || !gone.contains q.cmd.session)

/-- Step 3 of R267 and the edits of step 3 of R32. -/
def State.commitCommands (s : State) (lock : Nat) : State :=
  let (batch, rest) := splitBatch (liveQueue s.seq.queue) 256 256 64
  let s : State := { s with seq := { s.seq with queue := rest } }
  let s := (batch.filter (fun c => !isEdit c.body)).foldl (fun s c => s.commitCmd lock c) s
  ((batch.filter (fun c => isEdit c.body)).foldl (fun (x : State × List Nat) c =>
    if x.1.flightState = 3 then (x.1.answerCmd c stBusy [], x.2) else x.1.edit x.2 c) (s, [])).1

/-! ### Activation (R172) -/

/-- The place of the device in the tree of a schedule image (R308). -/
def imageTree (h : ImageHead) (dev : Nat) : Tree :=
  { root := h.root, depth := h.depth, parent := if h.root = dev then none else some h.parentPort, children := h.childPorts }

/-- What activation leaves on a site: registers, predicates, vectors and tiles at 0, descriptors with the tiles' widths, streamed
arrays without contents, the capacities of routed layers (R212), the secure window as the image and the life cycle say (R480). A fenced core keeps
registers and tiles (R417); while a march test runs the loader's writes wait for its end (R370). -/
def State.activateSite (s : State) (im : Image) (secure : Bool) (site : Nat) : State :=
  let c := s.core site
  let tiles := im.tiles.filter (fun t => t.site == site)
  let c : Core := if s.rf Reg.RTR_FENCE site 0 1 0 = 0 then { c with g := [], p := 0, v := [], tiles := [], tilePoison := [] } else c
  let ended := [17, 18].filter (fun a => (c.arr a).fill.isSome)
  let c : Core := { c with
    desc := tiles.foldl (fun (m : SMap Desc) t => SMap.put m ⟨0, 0, 0⟩ t.la ⟨t.ww, 0, 0⟩) []
    arrs := c.arrs.foldl (fun m a =>
      SMap.put m arrDefault a.1 (if 17 ≤ a.1 then { a.2 with holds := .none, bad := false, fill := none } else a.2)) [] }
  let c := (c.dropTile 17).dropTile 18
  let s := if s.marching site then (s.setCore site c).oweLists 2 site else s.setCore site (c.loadCaps im site)
  let s := ended.foldl (fun (s : State) a => s.setRf Reg.ARY_STATEa site a 18 16 0) s
  let s := s.setRf Reg.SPM_SECURE site 0 0 0 (bit secure)
  (List.range 18).foldl (fun (s : State) la => s.setReg Reg.SLU_OLISTa site (s.phys site la) 0) s

/-- The loader builds the streamed images whose source is a resident tile of the held package (R346). -/
def State.buildImages (s : State) (im : Image) : State :=
  match s.heldSlot.bind s.pkg with
  | none => s
  | some p => im.streams.foldl (fun (s : State) x =>
      match x.tile.bind (fun n => p.tiles[n]?) with
      | some t => s.writeImage x.addr t
      | none => s) s

/-- The staged schedule becomes the active one on this device. -/
def State.activate (s : State) (im : Image) : State :=
  let me := s.devNo
  let im : Image := { im with devs := im.devs.map (fun d => if d.dev = me then
    { d with nearGran := s.reg Reg.MEM_KV_NEAR_GRAN 0 0, farGran := s.reg Reg.MEM_KV_FAR_GRAN 0 0
             ptMib := s.rf Reg.MEM_KV_PT_SIZE 0 0 15 0 } else d) }
  let h := im.head
  let secure := s.rf Reg.SEC_LC_STATE 0 0 2 0 == 2 && h.secure
  let s : State := { s with sched := ⟨some im, none⟩, flt := { s.flt with tree := imageTree h me } }
  let s := (s.setReg Reg.FLK_LEN_NORMAL 0 0 h.lenNormal).setReg Reg.FLK_LEN_WIDE 0 0 h.lenWide
  let s := (s.setReg Reg.FLK_BAR_CUT 0 0 h.barCut).setReg Reg.FLK_BAR_FWD 0 0 h.barFwd
  let s := s.setReg Reg.FLK_FLIGHT_STATE 0 0 (h.root * 2 ^ 16 + h.depth % 16 * 2 ^ 12 + 2)
  let s := (s.setReg Reg.SEQ_ROLE 0 0 (h.exit * 2 ^ 16 + h.entry)).setReg Reg.FLK_HALT_REQ 0 0 0
  let s := match im.devs.find? (fun d => d.dev == me) with
    | some d => (s.setRf Reg.FLK_REPLICA 0 0 15 0 d.shard).setRf Reg.FLK_REPLICA 0 0 23 20 d.inst
    | none => s
  let s := ((s.setRf Reg.WGT_SCHED_STATE 0 0 1 0 0).setReg Reg.WGT_SCHED_ACTIVE_TAG 0 0 h.tag).setReg Reg.WGT_SCHED_STAGED_TAG 0 0 0
  let s := (s.setRf Reg.PWR_STATE 0 0 2 0 0).setRf Reg.PWR_STATE 0 0 6 4 0
  let s := s.setRf Reg.FLK_LOCK_STATE 0 0 2 2 1
  let s : State := { s with regs := s.regs.filter (fun x => decide (x.1 < 0x1000000 ∨ x.1 % 0x10000 < 0x2500 ∨ 0x2900 ≤ x.1 % 0x10000)) }
  let s := im.limits.foldl (fun (s : State) x => s.setReg Reg.ARY_LAYER_LIMn x.site x.ltag x.limit) s
  (s.sites.foldl (fun s x => s.activateSite im secure x) s).buildImages im

/-- Activates the schedule that waits for this boundary, where every device has reported its tag and the checks that span devices hold. -/
def State.tryActivate (s : State) (r : Release) (lock : Nat) : State :=
  match s.flt.activation with
  | none => s
  | some a =>
    if !a.atDone && decide (lock < a.lockage) then s
    else
      let s : State := { s with flt := { s.flt with activation := none } }
      let say := fun (s : State) (st : Nat) => if a.atDone then s
        else s.answerCmd { session := a.session, tag := a.tag, tenant := 0, body := .activate a.sched a.lockage } st []
      let all := (List.range s.flightSize).all (fun d => ((reportOf r.reports d).map (fun x => x.tag == a.sched)).getD false)
      if !all || (!a.atDone && decide (a.lockage < lock)) then say s stBusy
      else if !s.crossOk r.reports then say s stBadField
      else
        match s.sched.staged with
        | some im => (say s stOk).activate im
        | none => say s stBusy

/-! ### The cores at a boundary -/

/-- The layer tags of a site that have a count, now or shown (R58). -/
def State.shownTags (s : State) (site : Nat) : List Nat :=
  let a := Reg.ARY_LAYER_STEPSn.addr site 0
  ((s.core site).layers.map (fun l => l.1)) ++ (s.regs.filter (fun x => decide (a ≤ x.1 ∧ x.1 < a + 1024))).map (fun x => (x.1 - a) / 4)

/-- Layer counts are shown and compared with their thresholds (R58, R59). -/
def State.layerStep (s : State) (site : Nat) : State :=
  let tags := (s.shownTags site).filter (fun t => decide (t < 256))
  let count := fun t => min (SMap.get (s.core site).layers 0 t) 0xFFFFFFFF
  let past := (tags.filter (fun t => decide (s.reg Reg.ARY_LAYER_LIMn site t < count t))).mergeSort (fun a b => decide (a ≤ b))
  let u := tags.foldl (fun (s : State) t => s.setReg Reg.ARY_LAYER_STEPSn site t (count t)) s
  match past with
  | t :: _ => u.setReg Reg.ARY_WIDE_REQ site 0 (t * 2 ^ 8 + 1)
  | [] => if s.reg Reg.ARY_WIDE_REQ site 0 = 0 then u else u.setReg Reg.ARY_WIDE_REQ site 0 0

/-- G and 1 ÷ G from an age in ms and ν (R65, R107). -/
def driftGain (age : Nat) (nu : F16) : F32 × F32 :=
  let lg := F32.of (log10Ratio (1000 + age) 1000)
  let g := F32.sub F32.one (F32.mul (F32.ofF16 nu) lg)
  (g, F32.div F32.one g)

/-- The drift gains of a site's resident arrays for the starting lockage. -/
def State.driftStep (s : State) (site : Nat) : State :=
  (List.range 17).foldl (fun (s : State) a =>
    let age := s.reg Reg.ARY_AGEa site a
    if age = 0 ∧ SMap.get (s.core site).drift F32.one a = F32.one then s
    else
      let (g, inv) := driftGain age (BitVec.ofNat 16 (s.rf Reg.ARY_DRIFT_COEFa site a 15 0))
      (s.updCore site (fun c => { c with drift := SMap.put c.drift F32.one a g })).setReg Reg.SLU_INV_Ga site a inv.toNat) s

/-- The peer of a core (R128). -/
def State.peerOf (s : State) (site : Nat) : Option Nat :=
  let d := dieOf site * 272
  ((List.range 271).map (fun k => d + (site - d + 1 + k) % 272)).find? s.checkerOk

/-- The peers are computed afresh; the lack of one is raised once and shows as `NO_PEER` in a checker that is not fenced (R128, R139). -/
def State.peerStep (s : State) (site : Nat) : State :=
  match s.peerOf site with
  | some p =>
    let s := (s.setReg Reg.SLU_PEER site 0 (2 ^ 31 + p)).updCore site (fun c => { c with peerTold := false })
    if s.rf Reg.SLU_STATE site 0 1 0 = 1 then s.setRf Reg.SLU_STATE site 0 2 2 1
    else if s.rf Reg.SLU_STATE site 0 1 0 = 2 then s.setRf Reg.SLU_STATE site 0 1 0 0
    else s
  | none =>
    let told := (s.core site).peerTold
    let s := (s.setReg Reg.SLU_PEER site 0 0).setRf Reg.SLU_STATE site 0 2 2 0
    let s := if s.rf Reg.SLU_STATE site 0 1 0 = 1 then s else s.setRf Reg.SLU_STATE site 0 1 0 2
    if told then s else (s.updCore site (fun c => { c with peerTold := true })).raise 0x1C site

/-- Arbitrations that have not had their verdict are carried to the next lockage (R129). -/
def State.carryArbs (s : State) (site : Nat) : State :=
  let l := (s.core site).arbs
  if l.isEmpty then s
  else
    let n := (l.filter (fun a => decide (a.carried + 1 = 16) && !a.starved)).length
    let s := s.updCore site (fun c => { c with arbs := c.arbs.map (fun (a : Arb) =>
      { a.abandon with carried := a.carried + 1, starved := a.starved || decide (a.carried + 1 = 16) }) })
    let s := s.err Reg.SLU_RESOLVE_CARRIED site 0 l.length
    ((List.range n).foldl (fun s _ => s.raise 0x1D site) s).showResolving site

/-- A programmed spare takes over its row or column (R41); a spare column's entry gets the weight scale of the column that it relieves
(R113). -/
def Arr.switchSpare (r : Arr) (t : Retire) : Arr :=
  if t.isRow then { r with rowMap := SMap.put r.rowMap 0 t.elem t.spare }
  else
    let ws := (SMap.get r.corr corrDefault (steered r.steer t.elem)).wscale
    { r with steer := SMap.put r.steer 0 t.elem t.spare, corr := SMap.upd r.corr corrDefault t.spare (fun e => { e with wscale := ws }) }

/-- The first retirement that waits starts. -/
def startFirst (l : List Retire) : List Retire :=
  match l with
  | [] => []
  | u :: t => if u.started then u :: startFirst t else { u with started := true } :: t

/-- Retirements of an array: those programmed switch and free their substitution (R41, R134), the next starts, while no other write of the die is in
progress (R456), or all are deferred again (R42). -/
def State.retireStep (s : State) (site a : Nat) : State :=
  let c := s.core site
  let r := c.arr a
  let done := r.retire.filter (fun t => t.done)
  let wait := (r.retire.filter (fun t => !t.done && !t.started)).length
  let ok := s.spareWriteOk (dieOf site)
  let r := done.foldl Arr.switchSpare r
  let r : Arr := { r with retire := (fun l => if ok && s.writeFree (dieOf site) then startFirst l else l) (r.retire.filter (fun t => !t.done)) }
  let c : Core := { c with substs := c.substs.filter (fun u => !(u.arr == a && done.any (fun t => !t.isRow && t.elem == u.logical))) }
  let s := s.setCore site (c.setArr a r)
  if ok ∨ wait = 0 then s else (s.err Reg.ARY_SPARE_DEFERa site a wait).holdupCheck (dieOf site) 10

/-- The loader rewrites outlier lists that have come poisoned (R361), once no march test runs (R370). -/
def State.relistStep (s : State) (site : Nat) : State :=
  let l := (s.core site).relist
  if l.isEmpty || s.marching site then s
  else
    let addrs := l.filterMap (fun la => match ((s.core site).arr (s.phys site la)).holds with
      | .image a => some a
      | _ => none)
    let sel := fun (t : Tile) => match t.home with
      | .resident la => l.contains la
      | .near a => addrs.contains a
      | .far a => addrs.contains a
    let s := match s.heldSlot with
      | some n => s.writeOutliers n site sel
      | none => s
    s.updCore site (fun c => { c with relist := [] })

/-- The reduction contexts of a router, and the uses it has completed, belong to one lockage (R157). -/
def Core.clearReds (c : Core) : Core := { c with reds := [], redHold := [], redOver := [], redIn := [], redWaited := [] }

/-- What a boundary clears in a core (R157, R165), but for the packets held at its local port, which a fence of this boundary counts (R417). -/
def Core.clearLockage (c : Core) : Core :=
  { c with run := .idle, pc := 0, loops := [], window := false, arms := [], arrQ := [], evals := [], layers := [] }.clearReds

/-- The routers of disabled sites hold contexts as any other, and these end with the lockage (R155, R157). -/
def State.clearRouters (s : State) : State :=
  ((s.cores.filter (fun x => !s.enabled x.1)).map (fun x => x.1)).foldl (fun s x => s.updCore x Core.clearReds) s

/-- Packets held for a counter end with the lockage (R178). -/
def State.dropHeld (s : State) : State :=
  ((s.cores.filter (fun c => !c.2.held.isEmpty)).map (fun c => c.1)).foldl (fun s x => s.updCore x (fun c => { c with held := [] })) s

/-- The boundary on one site, but for the start of its program; `SLU_AUDIT_CTL` takes effect as written (R139). -/
def State.siteStep (s : State) (site : Nat) : State :=
  let s := ((s.layerStep site).driftStep site).carryArbs site
  let s := ((s.core site).arrs.map (fun a => a.1)).foldl (fun (s : State) a => if ((s.core site).arr a).retire.isEmpty then s else s.retireStep site a) s
  let ctl := s.reg Reg.SLU_AUDIT_CTL site 0
  (s.relistStep site).updCore site (fun c => { c.clearLockage with auditCtl := ctl })

/-- The cores found hung are raised (R420). -/
def State.hangs (s : State) : State :=
  let l := s.flt.hung
  l.foldl (fun s x => s.raise 0x06 x) { s with flt := { s.flt with hung := [] } }

/-- Lanes switch to the spare (R297). -/
def State.laneSwitches (s : State) : State :=
  (List.range 6).foldl (fun (s : State) p =>
    match (s.port p).switchLane with
    | none => s
    | some l =>
      let s := s.setPort p { s.port p with switchLane := none }
      if s.rf Reg.FLK_PORTp_STATE p 0 7 4 = 15 then (s.setRf Reg.FLK_PORTp_STATE p 0 7 4 l).raise 0x30 p else s) s

/-- The far granules of KV pages that a range of device memory touches. -/
def State.farPages (s : State) (a n : Nat) : List Nat :=
  if a < farBase then [] else (s.kv.used true).eraseDups.filter (fun f => decide (granAddr (f, true) < a + n ∧ a < granAddr (f, true) + 32768))

/-- Writes of cores become visible to all (R215); one that reaches a far page renews its version and the tags of the units it covers (R246,
R360), and goes to a restored copy of it. -/
def State.landPosted (s : State) : State :=
  let l := s.posted
  l.foldl (fun (s : State) p =>
    let fs := s.farPages p.addr p.data.length
    let us := farUnits [(p.addr, p.data.length)]
    let t := (((s.meetEdges p.addr p.data.length).memWrite p.addr p.data p.poison).renew fs).mirror p
    if fs.isEmpty then t else { t with kv := { t.kv with badTags := t.kv.badTags.filter (fun u => !us.contains u) } }) { s with posted := [] }

/-- Whether a core starts its program: lockages run it, and the site, its die, the power state and the fence allow it. -/
def State.starts (s : State) (site : Nat) : Bool :=
  s.flightState == 2 && s.enabled site && s.rf Reg.RTR_FENCE site 0 1 0 == 0 && s.dieWorks (dieOf site) && s.power == 0 && !s.shut &&
  !s.mgmtOnly && !(s.program site).isEmpty

/-- The used counts of the occupancy tables that a program's `VROUTE`s name, zeroed (R212). -/
def Core.clearOccupancy (c : Core) (site : Nat) (prog : List (BitVec 128)) : Core :=
  prog.foldl (fun (c : Core) w =>
    match decodeWord site w with
    | some (.vroute _ f) => c.setSp (f.occ.toNat + 4) (List.replicate (2 * (f.xm1.toNat + 1)) 0)
    | _ => c) c

/-- Step 6 of R32. -/
def State.startPrograms (s : State) : State :=
  match s.sched.active with
  | none => s
  | some im => im.cores.foldl (fun (s : State) p =>
      if s.starts p.site then
        s.updCore p.site (fun c => { c.clearOccupancy p.site (if s.wideNow then p.wide else p.normal) with run := .issue })
      else s) s

/-! ### The boundary (R32) -/

/-- Steps 1 and 2, and the results and end causes of the ending lockage (R267, steps 1 and 2). -/
def State.boundaryEnd (s : State) (r : Release) : State :=
  let s := ((s.dropQueued.sendAccepts.countRepeats.flushOutput true).hangs).landPosted
  let s := ((s.applyRelease r).latchGen r.reports).showWithheld r.reports
  let s := s.freeEnded
  let s : State := { s with seq := { s.seq with compatNow := s.reg Reg.SEQ_COMPAT 0 0 } }
  let s := s.seq.results.foldl (fun s a => s.applyAccept a) s
  let s := r.causes.foldl (fun s c => s.endBarge c.barge c.status) s
  (s.applyExpel r).unloadPoisoned r.causes

/-- Steps 3 and 4: commands, edits, replacement, pages, activation, slots. `lock` is the starting lockage. -/
def State.boundaryTable (s : State) (r : Release) (lock : Nat) : State :=
  let results := s.seq.results
  let s := ((s.drainStep.commitCommands lock).programStep.showWithheld r.reports).showRepl
  let s := (s.switchCopies.commitRcmps.notices (lock - 1)).speculation results
  let s := (s.tryActivate r lock).giveSlots lock
  let s := s.mapSlots
  let s : State := { s with kv := s.kv.reshare.cleanTags }
  ((s.chooseSpills).chooseRestores lock).showFree.countersRead

/-- Steps 5 and 6: the cores, fences, maintenance, service level, programs. -/
def State.boundaryCores (s : State) : State :=
  let s := (s.sites.foldl (fun (s : State) x => s.siteStep x) s).clearRouters
  let s := (s.fenceEffects.blockResets.dropHeld.install.maintSwitch.applyFits).checkersBack
  let s := (s.sites.foldl (fun (s : State) x => s.peerStep x) s).laneSwitches.applyService
  let s : State := if s.pow.toIdle then { s.stopIssue with pow := { s.pow with toIdle := false } } else s
  s.startPrograms

/-- The lockage starts: broadcasts, arrivals and staged results of the ended one are gone, and the entry device opens its list. -/
def State.openLockage (s : State) (lock : Nat) : State :=
  let s : State := { s with
    flits := []
    seq := { s.seq with sampled := [], accepts := [], results := [], outbox := [] }
    flt := { s.flt with arrivals := [], sent := false, late := false, release := none, cmdsIn := false, accIn := false, graced := false } }
  let s := s.setReg Reg.FLK_LOCKAGE 0 0 (lock % 2 ^ 64)
  if s.isEntry then s.broadcast (.commands []) else s

/-- A boundary under a release. -/
def State.boundary (s : State) (r : Release) : State :=
  let lock := s.reg Reg.FLK_LOCKAGE 0 0 + 1
  ((((s.boundaryEnd r).boundaryTable r lock).syncTables s.kv.l3).boundaryCores).openLockage lock

/-- `LOCKAGE_BOUNDARY`: the boundary time of the release is reached; no device crosses a boundary without a release (R311). -/
def execLockageBoundary (s : State) : Out :=
  match s.flt.release with
  | some r => if s.inFlight then finish (s.boundary r) else .next s
  | none => .next s

end Sys2Proof.Machine
end

