-- ==== Sys2Proof/Machine/Control.lean ====
section
/-! DEFINITION. Control and synchronisation instructions, opcodes 0x00 to 0x1D (R194 to R196), but `WAITR`, which stands with
the reductions. -/

namespace Sys2Proof.Machine

/-- Writes a general register and moves on. -/
def State.issueGr (s : State) (x : Issue) (gd : BitVec 5) (f : Core → BitVec 64) : State :=
  s.issueCore x (fun c _ => c.setGr gd.toNat (f c))

/-- Writes a predicate and moves on. -/
def State.issuePr (s : State) (x : Issue) (pd : BitVec 3) (f : Core → Bool) : State :=
  s.issueCore x (fun c _ => c.setPr pd.toNat (f c))

/-- *System values* (R166). -/
def State.sysValue (s : State) (site idx : Nat) : Option Nat :=
  match idx with
  | 0 => some (s.lcoreOf site)
  | 1 => some site
  | 2 => some s.devNo
  | 3 => some s.flightSize
  | 4 => some (s.reg Reg.FLK_LOCKAGE 0 0)
  | 5 => some (s.rf Reg.FLK_LOCK_STATE 0 0 0 0)
  | 6 => some (s.rf Reg.WGT_GEN_ACTIVE 0 0 7 0)
  | 7 => some s.slots.length
  | 8 => some (s.reg Reg.WGT_SCHED_ACTIVE_TAG 0 0)
  | _ => none

/-- The relations of `CMP` and `CMPI`; no other code is legal (R194). -/
def cmpFn (fn : BitVec 4) (a b : BitVec 64) : Option Bool :=
  match fn.toNat with
  | 0 => some (a == b)
  | 1 => some (a != b)
  | 2 => some (a.slt b)
  | 3 => some (!a.slt b)
  | 4 => some (a.ult b)
  | 5 => some (!a.ult b)
  | _ => none

/-- The functions of `PLOG` (R194). -/
def plogFn (fn : BitVec 4) (a b : Bool) : Option Bool :=
  match fn.toNat with
  | 0 => some (a && b)
  | 1 => some (a || b)
  | 2 => some (a != b)
  | 3 => some (a && !b)
  | 4 => some true
  | 5 => some false
  | _ => none

/-- `NOP`. -/
def execNop (x : Issue) (s : State) : Out := .next (s.issueCore x (fun c _ => c))

/-- `LOOP`: the next `body` + 1 instructions run `trip` + 1 times (R168). -/
def execLoop (x : Issue) (trip : BitVec 16) (body : BitVec 12) (s : State) : Out :=
  .next (s.issueCore x (fun c _ =>
    { c with loops := { start := c.pc + 1, len := body.toNat + 1, trip := trip.toNat + 1, i := 0 } :: c.loops }))

/-- `BARRIER` (R195). -/
def execBarrier (x : Issue) (s : State) : Out :=
  .next (s.issue x (fun s _ => (s.updCore x.site (fun c => { c with run := .barrier })).settleBarrier x.site))

/-- `WOPEN`. -/
def execWopen (x : Issue) (s : State) : Out := .next (s.issueCore x (fun c _ => { c with window := true }))

/-- `WCLOSE`. -/
def execWclose (x : Issue) (s : State) : Out := .next (s.issueCore x (fun c _ => { c with window := false }))

/-- `WAITS` (R177, R196). -/
def execWaits (x : Issue) (k : BitVec 4) (s : State) : Out :=
  .next (s.issueCore x (fun c _ => { c with run := .waitSig k.toNat }.settleWaits))

/-- `LIDX`: the iteration index of loop `LVL`. -/
def execLidx (x : Issue) (gd : BitVec 5) (s : State) : Out :=
  .next (s.issueGr x gd (fun c => BitVec.ofNat 64 (c.loopIdx x.lvl.toNat)))

/-- `SYSV` (R166). -/
def execSysv (x : Issue) (gd : BitVec 5) (index : BitVec 8) (s : State) : Out :=
  .next (s.issueCore x (fun c _ =>
    match s.sysValue x.site index.toNat with
    | some v => c.setGr gd.toNat (BitVec.ofNat 64 v)
    | none => c))

/-- `LI`. -/
def execLi (x : Issue) (gd : BitVec 5) (imm : BitVec 64) (s : State) : Out := .next (s.issueGr x gd (fun _ => imm))

/-- `ADD`. -/
def execAdd (x : Issue) (gd ga gb : BitVec 5) (s : State) : Out :=
  .next (s.issueGr x gd (fun c => c.gr ga.toNat + c.gr gb.toNat))

/-- `ADDI`. -/
def execAddi (x : Issue) (gd ga : BitVec 5) (imm : BitVec 64) (s : State) : Out :=
  .next (s.issueGr x gd (fun c => c.gr ga.toNat + imm))

/-- `SUB`. -/
def execSub (x : Issue) (gd ga gb : BitVec 5) (s : State) : Out :=
  .next (s.issueGr x gd (fun c => c.gr ga.toNat - c.gr gb.toNat))

/-- `MUL`: the low 64 bits of the product. -/
def execMul (x : Issue) (gd ga gb : BitVec 5) (s : State) : Out :=
  .next (s.issueGr x gd (fun c => c.gr ga.toNat * c.gr gb.toNat))

/-- `AND`. -/
def execAnd (x : Issue) (gd ga gb : BitVec 5) (s : State) : Out :=
  .next (s.issueGr x gd (fun c => c.gr ga.toNat &&& c.gr gb.toNat))

/-- `OR`. -/
def execOr (x : Issue) (gd ga gb : BitVec 5) (s : State) : Out :=
  .next (s.issueGr x gd (fun c => c.gr ga.toNat ||| c.gr gb.toNat))

/-- `XOR`. -/
def execXor (x : Issue) (gd ga gb : BitVec 5) (s : State) : Out :=
  .next (s.issueGr x gd (fun c => c.gr ga.toNat ^^^ c.gr gb.toNat))

/-- `SHL`. -/
def execShl (x : Issue) (gd ga : BitVec 5) (sh : BitVec 6) (s : State) : Out :=
  .next (s.issueGr x gd (fun c => c.gr ga.toNat <<< sh.toNat))

/-- `SHR`. -/
def execShr (x : Issue) (gd ga : BitVec 5) (sh : BitVec 6) (s : State) : Out :=
  .next (s.issueGr x gd (fun c => c.gr ga.toNat >>> sh.toNat))

/-- `SAR`. -/
def execSar (x : Issue) (gd ga : BitVec 5) (sh : BitVec 6) (s : State) : Out :=
  .next (s.issueGr x gd (fun c => (c.gr ga.toNat).sshiftRight sh.toNat))

/-- `CMP`. -/
def execCmp (x : Issue) (pd : BitVec 3) (ga gb : BitVec 5) (fn : BitVec 4) (s : State) : Out :=
  .next (s.issuePr x pd (fun c => (cmpFn fn (c.gr ga.toNat) (c.gr gb.toNat)).getD (c.pr pd.toNat)))

/-- `CMPI`. -/
def execCmpi (x : Issue) (pd : BitVec 3) (ga : BitVec 5) (imm : BitVec 64) (fn : BitVec 4) (s : State) : Out :=
  .next (s.issuePr x pd (fun c => (cmpFn fn (c.gr ga.toNat) imm).getD (c.pr pd.toNat)))

/-- `PLOG`. -/
def execPlog (x : Issue) (pd pa pb : BitVec 3) (fn : BitVec 4) (s : State) : Out :=
  .next (s.issuePr x pd (fun c => (plogFn fn (c.pr pa.toNat) (c.pr pb.toNat)).getD (c.pr pd.toNat)))

end Sys2Proof.Machine
end

