-- ==== Sys2Proof/Machine/RegAccess.lean ====
section
/-! DEFINITION. Accesses to the management registers: the access codes of R12, the checks of R13, R501 and R393, the rules of single
registers, and the commands and events that read or write registers. -/

namespace Sys2Proof.Machine

/-! ### The checks of a range (R393) -/

/-- The word addresses of a range. -/
def rangeAddrs (addr count : Nat) : List Nat := (List.range count).map (fun k => addr + 4 * k)

/-- Stage 1: an address lies in a block, and not in an `ARY_`, `SLU_` or `SPM_` span of a disabled site (R20). -/
def State.addrOk (s : State) (a : Nat) : Bool :=
  (blockOf a).isSome && (match siteOfAddr a with
    | some x => s.enabled x || decide (3 ≤ a % 0x10000 / 0x4000)
    | none => true)

/-- Stage 2 for both kinds of access: the other half of a 64-bit register lies in the range too. -/
def halfOk (addr count a : Nat) : Bool :=
  match regAt a with
  | some (f, _, _, h) => !f.wide || (if h = 0 then decide (a + 8 ≤ addr + 4 * count) else decide (addr + 4 ≤ a))
  | none => true

/-- The status of the address checks of a range. -/
def State.rangeCheck (s : State) (addr count : Nat) : Nat :=
  let l := rangeAddrs addr count
  if !l.all s.addrOk then stNotFound
  else if !l.all (halfOk addr count) then stBadField
  else stOk

/-! ### Reading -/

/-- Whether a field is read and cleared. -/
def RegField.isRsc (f : RegField) : Bool := f.acc == .rsc

/-- A register after a read has taken its snapshot (R12, R15): RSC fields are cleared, and a read of `HKA_QUEUE` removes the entry it
shows (R447). -/
def State.afterRead (s : State) (f : RegFam) (i j : Nat) : State :=
  if f.base = Reg.HKA_QUEUE.base then { s with sense := { s.sense with queue := s.sense.queue.drop 1 } }
  else if f.fields.any RegField.isRsc then
    f.fields.foldl (fun (s : State) x => if x.isRsc then s.setRf f i j x.hi x.lo 0 else s) s
  else s

/-- What a register shows to a read: a WO field reads 0 (R12). -/
def State.shown (s : State) (f : RegFam) (i j : Nat) : Nat :=
  f.fields.foldl (fun v x => if x.acc = .wo then setBits v x.hi x.lo 0 else v) (s.view f i j)

/-- Reads the words of a range in ascending order; a 64-bit register is read in one access, at its low half. -/
def State.readWords (s : State) (l : List Nat) (high : Nat) : State × List (BitVec 32) :=
  match l with
  | [] => (s, [])
  | a :: t =>
    match regAt a with
    | none =>
      let r := s.readWords t 0
      (r.1, 0 :: r.2)
    | some (f, i, j, h) =>
      if h = 0 then
        let v := s.shown f i j
        let r := (s.afterRead f i j).readWords t (v / 2 ^ 32)
        (r.1, BitVec.ofNat 32 v :: r.2)
      else
        let r := s.readWords t 0
        (r.1, BitVec.ofNat 32 high :: r.2)

/-- A read of a range: the state after it, the status, the words. -/
def State.regRead (s : State) (addr count : Nat) : State × Nat × List (BitVec 32) :=
  let st := s.rangeCheck addr count
  if st = stOk then
    let r := s.readWords (rangeAddrs addr count) 0
    (r.1, stOk, r.2)
  else (s, st, [])

/-! ### Writing: checks -/

/-- A write of one register. -/
structure RegWr where
  fam : RegFam
  i : Nat
  j : Nat
  value : Nat
  deriving DecidableEq, Repr

/-- The registers that the words of a range write, in ascending order. -/
def gatherWr (l : List (Nat × BitVec 32)) : List RegWr :=
  match l with
  | [] => []
  | (a, w) :: t =>
    match regAt a, t with
    | some (f, i, j, 0), [] => [⟨f, i, j, w.toNat⟩]
    | some (f, i, j, 0), (b, v) :: u =>
      ⟨f, i, j, if f.wide then w.toNat + 2 ^ 32 * v.toNat else w.toNat⟩ :: gatherWr ((b, v) :: u)
    | _, t => gatherWr t

/-- Whether a field can be written. -/
def RegField.writable (f : RegField) : Bool := f.acc == .rw || f.acc == .wo || f.acc == .w1c || f.acc == .w1s

/-- The bits that a register's fields cover. -/
def RegFam.mask (f : RegFam) : Nat := f.fields.foldl (fun a x => a + (2 ^ (x.hi + 1 - x.lo) - 1) * 2 ^ x.lo) 0

/-- Stage 2 of a write: no reserved bit set, some writable field; a source number that no source takes admits only 0 (R403), and a mask
does not ask for both `CHIP_RESET` and `SAFE` (R405). -/
def RegWr.fieldsOk (w : RegWr) : Bool :=
  decide (w.value &&& w.fam.mask = w.value) && w.fam.fields.any RegField.writable &&
  !((w.fam.base = Reg.FCL_SRCn_CFG.base || w.fam.base = Reg.FCL_SRCn_STAT.base) && !srcTaken w.j && w.value != 0) &&
  !(w.fam.base = Reg.FCL_SRCn_CFG.base && w.value.testBit 11 && w.value.testBit 15)

/-- Whether a shape and dimensions are one of *Flight shapes* (R289); a dimension that the shape lacks is 0 in its field. -/
def shapeOk (v : Nat) : Bool :=
  let x := bitsOf v 7 4
  let y := bitsOf v 11 8
  let z := bitsOf v 15 12
  match bitsOf v 1 0 with
  | 0 => x == 0 && y == 0 && z == 0
  | 1 => decide (1 ≤ x) && y == 0 && z == 0
  | 2 => decide (1 ≤ x ∧ 1 ≤ y) && z == 0
  | _ => decide (1 ≤ x ∧ x ≤ 7 ∧ 1 ≤ y ∧ y ≤ 7 ∧ 1 ≤ z ∧ z ≤ 7)

/-- The ranges that a register's own table or rule states beyond the range of each field. -/
def RegWr.rangeRule (w : RegWr) : Bool :=
  let v := w.value
  if w.fam.base = Reg.HPT_PMD_ADV.base then bitsOf v 13 12 != 0
  else if w.fam.base = Reg.HPT_CTL.base then bitsOf v 2 1 != 0
  else if w.fam.base = Reg.HPT_MAC_HI.base then !v.testBit 0
  else if w.fam.base = Reg.HPT_ETYPE.base then decide (0x600 ≤ v) && !([0x0800, 0x0806, 0x8100, 0x86DD, 0x88A8].contains v)
  else if w.fam.base = Reg.HPT_IP6n.base then !(w.j == 0 && bitsOf v 31 24 == 0xFF)
  else if w.fam.base = Reg.MEM_KV_WATER.base then decide (bitsOf v 15 0 ≤ bitsOf v 31 16)
  else if w.fam.base = Reg.FLK_WIDE_LIMIT.base then decide (bitsOf v 26 16 ≤ bitsOf v 10 0)
  else if w.fam.base = Reg.HKA_CHn_WIN.base then decide (bitsOf v 13 0 ≤ bitsOf v 29 16)
  else if w.fam.base = Reg.CAL_AGE_CTL.base then [1, 3, 6, 12, 24].contains (bitsOf v 20 16)
  else if w.fam.base = Reg.FLK_FORM.base then shapeOk v
  else if w.fam.base = Reg.SEQ_COMPAT.base then bitsOf v 17 16 != 3
  else if w.fam.base = Reg.FCL_SRCn_CFG.base then !v.testBit 10 || unitIsSite w.j || unitIsHost w.j
  else true

/-- Stage 3 of a write: every field written lies in its defined range. -/
def RegWr.rangeOk (w : RegWr) : Bool :=
  w.fam.fields.all (fun x => !x.writable || decide (x.min ≤ bitsOf w.value x.hi x.lo ∧ bitsOf w.value x.hi x.lo ≤ x.max)) && w.rangeRule

/-- The value that a write leaves in a register by the access codes of R12: RW takes the value, W1S sets and W1C clears where a 1 is
written, WO and the rest keep theirs. -/
def RegWr.result (w : RegWr) (old : Nat) : Nat :=
  w.fam.fields.foldl (fun v x =>
    let b := bitsOf w.value x.hi x.lo
    match x.acc with
    | .rw => setBits v x.hi x.lo b
    | .w1s => setBits v x.hi x.lo (bitsOf v x.hi x.lo ||| b)
    | .w1c => setBits v x.hi x.lo (bitsOf v x.hi x.lo - (bitsOf v x.hi x.lo &&& b))
    | _ => v) old

/-- A write without further behaviour. -/
def State.plainWrite (s : State) (w : RegWr) : State := s.setReg w.fam w.i w.j (w.result (s.reg w.fam w.i w.j))

/-- Whether two valid quota entries name the same tenant (R286). -/
def State.quotaTwice (s : State) : Bool :=
  let l := ((List.range 1024).map (fun n => s.reg Reg.SEQ_QUOTAn 0 n)).filter (fun v => bitsOf v 31 31 == 1)
  decide (¬ (l.map (fun v => bitsOf v 15 0)).Nodup)

/-- Whether the device's coordinates lie within its dimensions (R326). -/
def State.coordOk (s : State) : Bool :=
  let d := s.dims
  decide (s.rf Reg.FLK_COORD 0 0 3 0 < d.1 ∧ s.rf Reg.FLK_COORD 0 0 7 4 < d.2.1 ∧ s.rf Reg.FLK_COORD 0 0 11 8 < d.2.2)

/-- The registers that describe the KV pools (R257). -/
def kvPoolRegs : List Nat :=
  [Reg.MEM_KV_PT_BASE.base, Reg.MEM_KV_PT_SIZE.base, Reg.MEM_KV_NEAR_BASE.base, Reg.MEM_KV_NEAR_GRAN.base, Reg.MEM_KV_FAR_BASE.base,
    Reg.MEM_KV_FAR_GRAN.base]

/-- The status with which a register's own rule meets a write in the current state; `t` is the state with the plain writes of the whole
range made. -/
def State.ownRule (s t : State) (w : RegWr) : Nat :=
  let b := w.fam.base
  if s.safe ∧ 0x30000 ≤ b ∧ b < 0x40000 ∧ b ≠ Reg.FCL_CHIP_RESET.base then stBusy
  else if b = Reg.FLK_FORM.base then (if s.flightState = 0 then stOk else stBusy)
  else if b = Reg.FLK_COORD.base then (if !t.coordOk then stRange else if s.flightState = 0 then stOk else stBusy)
  else if kvPoolRegs.contains b then (if s.seq.barges.any (fun x => x.2.state != .free) then stBusy else stOk)
  else if b = Reg.ARY_CONV_ROT.base then
    (if w.value.testBit 0 && (s.rf Reg.ARY_CAL_METHOD w.i 0 31 31 == 0 || s.calibrating w.i) then stBusy else stOk)
  else if b = Reg.ARY_CAL_METHOD.base ∨ b = Reg.SPM_PWR.base then (if s.fenced w.i then stOk else stBusy)
  else if b = Reg.SPM_MARCH.base then (if s.fenced w.i && !s.marching w.i then stOk else stBusy)
  else if b = Reg.FCL_SIG_ERASE.base then
    (if s.reg Reg.FCL_SIG_NEXT 0 0 < w.value then stRange else if s.shut then stBusy else if s.holdup 200 then stOk else stHoldup)
  else if b = Reg.HPT_LANE_MAP.base then (if (s.rf Reg.HPT_LINK_STATE 0 0 23 16).testBit (bitsOf w.value 2 0) then stRange else stOk)
  else if b = Reg.SEQ_QUOTAn.base then (if t.quotaTwice then stBadField else stOk)
  else stOk

/-- The status of a write of a range. -/
def State.writeCheck (s : State) (l : List (Nat × BitVec 32)) (addr : Nat) : Nat :=
  let ws := gatherWr l
  let t := ws.foldl State.plainWrite s
  if s.rangeCheck addr l.length ≠ stOk then s.rangeCheck addr l.length
  else if !(l.all (fun x => (regAt x.1).isSome) && ws.all RegWr.fieldsOk) then stBadField
  else if !ws.all RegWr.rangeOk then stRange
  else ((ws.map (s.ownRule t)).find? (fun st => st != stOk)).getD stOk

/-! ### Writing: effects -/

/-- Erases every committed signature record below a number (R416). -/
def State.eraseSigs (s : State) (n : Nat) : State :=
  { s with fcl := { s.fcl with store := s.fcl.store.filter (fun r => decide (n ≤ r.number)) } }

/-- The device number that shape and coordinates give (R290). -/
def State.showDevNo (s : State) : State := s.setRf Reg.FLK_COORD 0 0 24 16 (devAt s.dims s.coords)

/-- Makes a write that has passed its checks; a chip reset and a retraining follow when the access is over. -/
def State.applyWrite (s : State) (w : RegWr) : State :=
  let b := w.fam.base
  if b = Reg.FLK_FORM.base ∨ b = Reg.FLK_COORD.base then (s.plainWrite w).showDevNo
  else if b = Reg.SPM_PWR.base then (s.plainWrite w).setSpmPower w.i (bitsOf w.value 1 0)
  else if b = Reg.SPM_MARCH.base then s.startMarch w.i (bitsOf w.value 1 0 == 2)
  else if b = Reg.FCL_SIG_ERASE.base then s.eraseSigs w.value
  else s.plainWrite w

/-- Whether a write resets the device (R408). -/
def RegWr.isReset (w : RegWr) : Bool := w.fam.base == Reg.FCL_CHIP_RESET.base

/-- Whether a write retrains the host port (R400). -/
def RegWr.isRetrain (w : RegWr) : Bool := w.fam.base == Reg.HPT_CTL.base && w.value.testBit 0

/-- Whether a write of a range fails only for want of hold-up energy. -/
def State.holdupShort (s : State) (ws : List RegWr) (status : Nat) : State :=
  if status = stHoldup ∧ ws.any (fun w => w.fam.base == Reg.FCL_SIG_ERASE.base) then s.holdupCheck 0 200 else s

/-- A write of a range: the state after it, the status, the registers written. -/
def State.regWrite (s : State) (addr : Nat) (words : List (BitVec 32)) : State × Nat × List RegWr :=
  let l := (rangeAddrs addr words.length).zip words
  let ws := gatherWr l
  let st := s.writeCheck l addr
  if st = stOk then (ws.foldl State.applyWrite s, stOk, ws) else (s.holdupShort ws st, st, [])

/-- What follows a write when its answer has been given. -/
def State.afterWrite (s : State) (ws : List RegWr) : State :=
  if ws.any RegWr.isReset then s.chipReset 2
  else if ws.any RegWr.isRetrain then s.retrainPort
  else s

/-! ### Accesses over the management network -/

/-- Records the outcome of an access by control-pair firmware (R20, R399). -/
def State.setAccess (s : State) (status : Nat) (data : List (BitVec 32)) : State := { s with hpt := { s.hpt with status := status, data := data } }

/-- A write of one register over the management network: checked and made as R393 says of a command's words. -/
def State.busWrite (s : State) (addr : Nat) (words : List (BitVec 32)) : Out :=
  if !s.pow.booted then .next s
  else
    let r := s.regWrite addr words
    finish ((r.1.setAccess r.2.1 []).afterWrite r.2.2)

/-- A read of one register over the management network; a read that is refused returns 0 with its status (R20). -/
def State.busRead (s : State) (addr count : Nat) : Out :=
  if !s.pow.booted then .next s
  else
    let r := s.regRead addr count
    .next (r.1.setAccess r.2.1 (if r.2.1 = stOk then r.2.2 else List.replicate count 0))

/-- The words of a register of 32 or 64 bits at an address. -/
def wordsAt (addr : Nat) (v : BitVec 64) : List (BitVec 32) :=
  match regAt addr with
  | some (f, _, _, _) => if f.wide then [v.setWidth 32, (v >>> 32).setWidth 32] else [v.setWidth 32]
  | none => [v.setWidth 32]

/-- The address of a site's register. -/
def siteReg (f : RegFam) (site : Nat) : Nat := f.addr site 0

/-- `ARY_CONV_ROT_WRITE`: a write of 1 to `ARY_CONV_ROT.RUN` (R73). -/
def execAryConvRotWrite (site : Nat) (s : State) : Out := s.busWrite (siteReg Reg.ARY_CONV_ROT site) [1]

/-- `FLK_HALT_REQ_WRITE` (R315). -/
def execFlkHaltReqWrite (s : State) : Out := s.busWrite Reg.FLK_HALT_REQ.base [1]

/-- `FCL_CHIP_RESET_WRITE` (R408): `key` is the value written. -/
def execFclChipResetWrite (key : BitVec 16) (s : State) : Out := s.busWrite Reg.FCL_CHIP_RESET.base [key.setWidth 32]

/-- `PENDING_CLEAR`: a write of 1 to `FCL_SRCn_STAT.PENDING` (R406). -/
def execPendingClear (n : Nat) (s : State) : Out := s.busWrite (Reg.FCL_SRCn_STAT.addr 0 n) [0x80000000]

/-- `FCL_SRC_CFG_WRITE`: severity and mask of a source (R405, R406). -/
def execFclSrcCfgWrite (n : Nat) (value : BitVec 32) (s : State) : Out := s.busWrite (Reg.FCL_SRCn_CFG.addr 0 n) [value]

/-- `FCL_SIG_ERASE_WRITE` (R416). -/
def execFclSigEraseWrite (n : BitVec 32) (s : State) : Out := s.busWrite Reg.FCL_SIG_ERASE.base [n]

/-- `HPT_RETRAIN_WRITE`: a write of 1 to `HPT_CTL.RETRAIN` that keeps the enables as they are written (R400). -/
def execHptRetrainWrite (s : State) : Out :=
  s.busWrite Reg.HPT_CTL.base [BitVec.ofNat 32 (setBits (s.reg Reg.HPT_CTL 0 0) 0 0 1)]

/-- `SPM_PWR_WRITE` (R368). -/
def execSpmPwrWrite (site : Nat) (mode : BitVec 2) (s : State) : Out := s.busWrite (siteReg Reg.SPM_PWR site) [mode.setWidth 32]

/-- `MARCH_DESTRUCTIVE`: a write of 1 to `SPM_MARCH.TEST` (R369, R370). -/
def execMarchDestructive (site : Nat) (s : State) : Out := s.busWrite (siteReg Reg.SPM_MARCH site) [1]

/-- `MARCH_PRESERVING`: a write of 2 to `SPM_MARCH.TEST` (R369, R370). -/
def execMarchPreserving (site : Nat) (s : State) : Out := s.busWrite (siteReg Reg.SPM_MARCH site) [2]

/-- `HKA_QUEUE_READ` (R447). -/
def execHkaQueueRead (s : State) : Out := s.busRead Reg.HKA_QUEUE.base 1

/-- `ERROR_COUNTER_READ`: a read of one 32-bit register (R15). -/
def execErrorCounterRead (addr : Nat) (s : State) : Out := s.busRead addr 1

/-- `REGISTER_WRITE`: a write of one register, 32 or 64 bits (R13). -/
def execRegisterWrite (addr : Nat) (value : BitVec 64) (s : State) : Out := s.busWrite addr (wordsAt addr value)

/-! ### Commands -/

/-- The bytes of words. -/
def regWordBytes (l : List (BitVec 32)) : List Byte := l.flatMap (fun w => toLE 4 w.toNat)

/-- The registers that a recovery boot lets a session read (R477): those of the `DEV_` and `SEC_` blocks. -/
def recoveryReads (addr count : Nat) : Bool :=
  (rangeAddrs addr count).all (fun a => decide (a < 0x10000 ∨ (0x70000 ≤ a ∧ a < 0x80000)))

/-- Answers a read of registers. -/
def State.answerRead (s : State) (r : Reply) (addr count : Nat) : State :=
  let x := s.regRead addr count
  x.1.answer r x.2.1 (regWordBytes x.2.2)

/-- `REG_READ`. -/
def execRegRead (h : Hdr) (addr count : Nat) (s : State) : Out :=
  s.command h (opRowM 0x0101) (recoveryReads addr count) (decide (addr % 4 = 0)) (decide (1 ≤ count ∧ count ≤ 256)) (fun s _ r =>
    s.answerRead r addr count)

/-- `REG_WRITE`, to whose `COUNT` *Command set* gives no range: the answer goes first, then a retraining or a chip reset that the write has asked
for. -/
def execRegWrite (h : Hdr) (addr count : Nat) (words : List (BitVec 32)) (s : State) : Out :=
  s.command h (opRowM 0x0102) false (decide (addr % 4 = 0) && words.length == count) true (fun s _ r =>
    let x := s.regWrite addr words
    (x.1.answer r x.2.1 []).afterWrite x.2.2)

/-- `VX20_REG_READ`: 0x0003 of a version 1.1 session (R396). -/
def execVx20RegRead (h : Hdr) (addr count : Nat) (s : State) : Out :=
  s.command h (opRowM 0x0003) false (decide (addr % 4 = 0)) (decide (1 ≤ count ∧ count ≤ 256)) (fun s _ r => s.answerRead r addr count)

end Sys2Proof.Machine
end

