-- ==== Sys2Proof/Machine/Host.lean ====
section
/-! DEFINITION. The host port's rows (chapter 13): opening, acknowledging and closing of sessions, frames, the link, staging, and the
commands that enter the flight's queue. -/

namespace Sys2Proof.Machine

/-! ### Opening a session (R383 to R386) -/

/-- The number that comes `k` places after `n` when the numbers of a rising list are left out. -/
def skipUsed (used : List Nat) (n : Nat) : Nat :=
  match used with
  | [] => n
  | u :: t => if u ≤ n then skipUsed t (n + 1) else n

/-- The session numbers in use from `lo` to `lo + n - 1`, rising. -/
def State.usedNumbers (s : State) (lo n : Nat) : List Nat :=
  ((s.hpt.sessions.map (fun x => x.number)).filter (fun k => decide (lo ≤ k ∧ k < lo + n))).mergeSort (fun a b => decide (a ≤ b))

/-- The version chosen: the highest offered among 2.0 and 1.1; a recovery boot speaks 2.0 only (R385, R477). -/
def State.chooseVersion (s : State) (l : List Byte) : Option Byte :=
  if l.contains 0x20 then some 0x20
  else if l.contains 0x11 && !s.recovery then some 0x11
  else none

/-- The role that a HELLO's certificate grants (R385, R386, R469). -/
def State.helloRole (s : State) (m : Hello) : Option Role :=
  match certRole m.chain with
  | some (1, _) => if s.anchorGrants m.chain 0 then some .operator else none
  | some (2, t) => if s.anchorGrants m.chain 1 then some (.tenant t) else none
  | _ => none

/-- Whether a HELLO asks for a tenant session. -/
def helloTenant (m : Hello) : Bool := (certRole m.chain).any (fun r => r.1 == 2)

/-- The host's ephemeral point and its contribution to the key agreement (R384); none where the bytes are no point of the curve. -/
def helloPoints (m : Hello) : Option (Nat × Nat) × Option (Nat × Nat) :=
  let ra := pointIn m.eph
  (ra, ra.bind (sm2Initiator m.chain.key))

/-- Whether sessions opened here are flight sessions: the device is the entry device of the active schedule (R383). -/
def State.opensFlight (s : State) : Bool := s.sched.active.isSome && s.isEntry

/-- The first and the number of session numbers of the kind that opens here. -/
def State.numberRange (s : State) : Nat × Nat := if s.opensFlight then (0, 15360) else (15360, 1024)

/-- The refusals of R385 in order; a failed health test of the random source refuses too (R481), and an ephemeral point with which no key can be
agreed is refused as a chain is (notes/assumptions/22.md). -/
def State.helloCheck (s : State) (m : Hello) : Nat :=
  if (s.chooseVersion m.versions).isNone then stVersion
  else if (s.helloRole m).isNone || (helloPoints m).2.isNone then stAuth
  else if helloTenant m && s.rf Reg.SEC_LC_STATE 0 0 2 0 != 2 then stLifecycle
  else if helloTenant m && !s.opensFlight then stBadField
  else if s.rf Reg.SEC_RNG 0 0 0 0 = 0 ∨ s.numberRange.2 ≤ (s.usedNumbers s.numberRange.1 s.numberRange.2).length then stBusy
  else stOk

/-- Whether an encapsulation is enabled. -/
def State.encapOn (s : State) (udp : Bool) : Bool := (s.portCfg 9).testBit (if udp then 2 else 1)

/-- A discarded frame or message (R380, R382). -/
def State.discardRx (s : State) : State := s.err Reg.HPT_RX_DISCARD 0 0 1

/-- A fresh session. -/
def newSession (n : Nat) (ver : Byte) (role : Role) (m : Hello) (keys : SessionKeys) (share : Share) : Session :=
  let tx : TxStream := { next := 1, sent := [], waiting := [] }
  { number := n, ver := ver, role := role, isOpen := false, nonce := m.nonce, udp := m.udp, host := m.host, keys := keys, share := share
    cmd := ⟨1, [], 0, []⟩, ans := tx, out := tx, ctl := 0, taken := [], unanswered := [], stopped := false, closing := false }

/-- The device's side of the key agreement of a HELLO (R384), its ephemeral key the draw 1 from now and its nonce the draw 2. -/
def State.agree (s : State) (m : Hello) : SessionKeys × Share :=
  let r := privateOf (s.draw 1)
  let p := helloPoints m
  let a := sm2Agree (s.identityPrivate.getD 0) r m.chain.key (p.1.getD (0, 0)) (p.2.getD (0, 0)) 84
  (keysOf a.key, ⟨pointOut (sm2Public r), s.draw 2, a.sB, a.sA⟩)

/-- Opens a session under a free number: which one the spec does not say, so a free value picks it. -/
def State.openSession (s : State) (m : Hello) (ver : Byte) (role : Role) : State :=
  let (lo, n) := s.numberRange
  let used := s.usedNumbers lo n
  let k := skipUsed used (lo + (s.free 64).toNat % (n - used.length))
  let x := newSession k ver role m (s.agree m).1 (s.agree m).2
  let s : State := { s with freeCtr := s.freeCtr + 3, hpt := { s.hpt with sessions := s.hpt.sessions ++ [x] } }
  s.emit x.helloAck

/-- `HELLO`; a number of versions that is no 1 to 4 is a reserved value (R382). -/
def execHello (m : Hello) (s : State) : Out :=
  if !s.linkUp then .next s
  else if !s.encapOn m.udp || m.versions.isEmpty || decide (4 < m.versions.length) then finish s.discardRx
  else
    let s := s.wide Reg.HPT_RX_MSGS 0 0 1
    match s.hpt.sessions.find? (fun x => x.nonce == m.nonce && x.host == m.host && x.udp == m.udp && !x.closing && x.cmd.next != 0) with
    | some x => .next (s.emit x.helloAck)
    | none =>
      match s.helloCheck m, s.chooseVersion m.versions, s.helloRole m with
      | 0, some v, some r => .next (s.openSession m v r)
      | st, _, _ => finish ((s.emit (helloRefusal m.udp m.host st)).err Reg.HPT_HELLO_REJECT 0 0 1)

/-- The entry device tells the exit device of a flight session (R383). -/
def State.announce (s : State) (x : Session) : State :=
  if isFlight x.number && !s.isExit then
    s.broadcast (.session ⟨x.number, x.tenantNo, x.ver, x.udp, x.host, x.keys.kOut, x.keys.ivOut⟩)
  else s

/-- `CONFIRM`: the session opens where S_A is right (R384, R385). -/
def execConfirm (session : Nat) (sA : List Byte) (s : State) : Out :=
  if !s.linkUp then .next s
  else
    match s.session session with
    | none => finish s.discardRx
    | some x =>
      if x.isOpen || x.closing || sA != x.share.sA then finish s.discardRx
      else .next (((s.wide Reg.HPT_RX_MSGS 0 0 1).updSession session (fun y => { y with isOpen := true })).announce x)

/-- `CONFIRM_TIMEOUT`: the number is free again. -/
def execConfirmTimeout (session : Nat) (s : State) : Out :=
  match s.session session with
  | none => .next s
  | some x => if x.isOpen || x.closing then .next s else finish ((s.dropSession session).err Reg.HPT_HELLO_REJECT 0 0 1)

/-! ### Messages of a session (R382, R387, R388) -/

/-- A stream after an acknowledgement up to `ack` with the bits of `sack`; waiting messages move up. -/
def TxStream.acked (t : TxStream) (mk : Nat → List Byte × Bool → OutMsg) (ack : Nat) (sack : BitVec 64) : TxStream :=
  let l := (t.sent.filter (fun m => decide (ack ≤ m.seq))).map (fun m =>
    ({ m with sacked := m.sacked || (decide (ack + 1 ≤ m.seq) && sack.getLsbD (m.seq - ack - 1)) } : OutMsg))
  ({ t with sent := l } : TxStream).fill mk t.waiting.length

/-- An acknowledgement of the answer stream or the output stream of a session. -/
def State.acknowledge (s : State) (n : Nat) (output : Bool) (ack : Nat) (sack : BitVec 64) : State :=
  match s.session n with
  | none => s
  | some x =>
    let t := (if output then x.out else x.ans).acked (x.message output) ack sack
    let more := t.next - (if output then x.out else x.ans).next
    let s := (s.updSession n (fun y => if output then { y with out := t } else { y with ans := t })).wide Reg.HPT_TX_MSGS 0 0 more
    if t.exhausted then s.closeSession n 6 else s

/-- Whether the device carries the command and answer streams of a session: always for a local session, on the entry device for a
flight session (R383). -/
def State.ownsCmd (s : State) (n : Nat) : Bool := !isFlight n || s.isEntry

/-- What becomes of a message before its content counts: no session, a reserved value, a length that is not the message's, or an encapsulation or
address other than the session's discards it, a wrong tag is an authentication failure (R381, R382); else its plaintext. -/
inductive Admit where
  | discard
  | badTag
  | ok (plain : List Byte)
  deriving DecidableEq, Repr

/-- The check of a message of a type: `control` for ACK, PROBE and CLOSE, `streams` are those that it may name. -/
def State.admitMsg (s : State) (m : MsgHdr) (typ : Nat) (control : Bool) (payload tag : List Byte) (streams : Nat → Bool) : Admit :=
  match s.session m.session with
  | none => .discard
  | some x =>
    if !x.isOpen || m.ver != x.ver || m.typ != typ || !streams m.stream || m.flags >>> 1 != 0 || m.len != payload.length + tag.length ||
        m.udp != x.udp || m.host != x.host || tag.length != 16 then .discard
    else
      match x.opened m control payload tag with
      | none => .badTag
      | some bs => .ok bs

/-- Runs `f` on the plaintext of a message that is admitted. -/
def State.onMessage (s : State) (m : MsgHdr) (typ : Nat) (control : Bool) (payload tag : List Byte) (streams : Nat → Bool)
    (f : State → List Byte → State) : Out :=
  if !s.linkUp then .next s
  else
    match s.admitMsg m typ control payload tag streams with
    | .discard => finish s.discardRx
    | .badTag => finish ((s.err Reg.HPT_AUTH_FAIL 0 0 1).raise 0x6A devUnit)
    | .ok bs => finish (f s bs)

/-- Inserts a message into those received ahead, by SEQ. -/
def insertSeq (l : List (Nat × Bool × List Byte)) (x : Nat × Bool × List Byte) : List (Nat × Bool × List Byte) :=
  l.filter (fun y => decide (y.1 < x.1)) ++ x :: l.filter (fun y => decide (x.1 < y.1))

/-- Delivers in order what has arrived: a message without `MORE` completes a command. -/
def deliverMsgs (r : RxStream) (taken : List (List Byte)) (fuel : Nat) : RxStream × List (List Byte) :=
  match fuel with
  | 0 => (r, taken)
  | fuel + 1 =>
    match r.early with
    | [] => (r, taken)
    | (q, more, bs) :: t =>
      if q ≠ r.next then (r, taken)
      else
        let buf := r.buf ++ bs
        if more then deliverMsgs { r with next := q + 1, early := t, buf := buf } taken fuel
        else deliverMsgs { r with next := q + 1, early := t, buf := [] } (taken ++ [buf]) fuel

/-- Acknowledges the command stream at once. -/
def State.ackCmd (s : State) (n : Nat) : State :=
  match s.session n with
  | none => s
  | some _ => (s.updSession n (fun y => { y with cmd := { y.cmd with unacked := 0 } })).sendAck n

/-- A message of the command stream that lies in the window and is new. -/
def State.takeData (s : State) (n : Nat) (x : Session) (seq : Nat) (more : Bool) (bs : List Byte) : State :=
  let r : RxStream := { x.cmd with early := insertSeq x.cmd.early (seq, more, bs), unacked := x.cmd.unacked + 1 }
  let d := deliverMsgs r [] r.early.length
  let s := (s.updSession n (fun y => { y with cmd := d.1 })).wide Reg.HPT_RX_MSGS 0 0 1
  let s := d.2.foldl (fun (s : State) bs => s.cmdArrives n bs) s
  if 32 ≤ r.unacked then s.ackCmd n else s

/-- `DATA` (R388). -/
def execData (m : MsgHdr) (tag payload : List Byte) (s : State) : Out :=
  s.onMessage m 4 false payload tag (fun k => k == 0 && s.ownsCmd m.session) (fun s bs =>
    let s := s.acknowledge m.session false m.ack m.sack
    match s.session m.session with
    | none => s
    | some x =>
      if m.seq < x.cmd.next ∨ x.cmd.early.any (fun e => e.1 == m.seq) then s.ackCmd m.session
      else if x.cmd.next + 1024 ≤ m.seq then s
      else s.takeData m.session x m.seq (m.flags.getLsbD 0) bs)

/-- Whether an acknowledgement may name a stream here: 1 where the answers are, 2 on the exit device of a flight session. -/
def State.acksStream (s : State) (n k : Nat) : Bool := (k == 1 && s.ownsCmd n) || (k == 2 && isFlight n && s.isExit)

/-- `ACK`. -/
def execAck (m : MsgHdr) (tag : List Byte) (s : State) : Out :=
  s.onMessage m 5 true [] tag (s.acksStream m.session) (fun s _ =>
    (s.wide Reg.HPT_RX_MSGS 0 0 1).acknowledge m.session (m.stream == 2) m.ack m.sack)

/-- `PROBE`: activity of the session, and nothing else (R389). -/
def execProbe (m : MsgHdr) (tag : List Byte) (s : State) : Out :=
  s.onMessage m 7 true [] tag (fun k => decide (k ≤ 2)) (fun s _ => s.wide Reg.HPT_RX_MSGS 0 0 1)

/-- `CLOSE` from the host, whatever reason its payload gives (R389). -/
def execClose (m : MsgHdr) (tag payload : List Byte) (s : State) : Out :=
  s.onMessage m 6 true payload tag (fun k => decide (k ≤ 2)) (fun s _ => (s.wide Reg.HPT_RX_MSGS 0 0 1).shutSession m.session)

/-- `ACK_TIMER`: 10 µs after a DATA message; only the command stream is received (R388). -/
def execAckTimer (session stream : Nat) (s : State) : Out :=
  match s.session session with
  | none => .next s
  | some x => if s.linkUp && x.isOpen && stream == 0 && decide (0 < x.cmd.unacked) then .next (s.ackCmd session) else .next s

/-- A stream with a message resent once more. -/
def TxStream.resent (t : TxStream) (seq : Nat) : TxStream :=
  { t with sent := t.sent.map (fun m => if m.seq = seq then { m with resends := m.resends + 1 } else m) }

/-- `RETRANSMIT_TIMEOUT` of a message of stream 1 or 2: resent, or the session closes after `HPT_RETX.MAX` resends (R388). -/
def execRetransmitTimeout (session stream seq : Nat) (s : State) : Out :=
  match s.session session with
  | none => .next s
  | some x =>
    let t := if stream = 2 then x.out else x.ans
    match t.sent.find? (fun m => m.seq == seq && !m.sacked) with
    | none => .next s
    | some m =>
      if !s.linkUp || !x.isOpen || (stream != 1 && stream != 2) then .next s
      else if s.rf Reg.HPT_RETX 0 0 7 0 ≤ m.resends then .next (s.closeSession session 2)
      else
        let s := s.updSession session (fun y => if stream = 2 then { y with out := y.out.resent seq } else { y with ans := y.ans.resent seq })
        finish ((s.wide Reg.HPT_TX_MSGS 0 0 1).err Reg.HPT_RETX_COUNT 0 0 1)

/-- `IDLE_TIMEOUT`; the timers stand still while the link retrains (R379, R389). -/
def execIdleTimeout (session : Nat) (s : State) : Out :=
  match s.session session with
  | none => .next s
  | some x => if s.linkUp && x.isOpen then .next (s.closeSession session 1) else .next s

/-- `LINK_HOLD_TIMEOUT`: the link has been down for longer than `LINK_HOLD_MS` (R389). -/
def execLinkHoldTimeout (s : State) : Out := .next (if s.linkState = 0 then s.closeAll 4 (fun _ => true) else s)

/-! ### Frames (R380, R381) -/

/-- The byte of a number at a place, least significant first. -/
def byteAt (v k : Nat) : Nat := v / 2 ^ (8 * k) % 256

/-- The MAC address in force, byte 0 of the address most significant (*HPT_MAC_LO*). -/
def State.macAddr (s : State) : Nat :=
  let lo := s.portCfg 0
  let hi := s.portCfg 1
  [byteAt hi 0, byteAt hi 1, byteAt lo 0, byteAt lo 1, byteAt lo 2, byteAt lo 3].foldl (fun a b => 256 * a + b) 0

/-- The IPv6 address in force, byte 0 most significant. -/
def State.ipAddr (s : State) : Nat := [s.portCfg 3, s.portCfg 4, s.portCfg 5, s.portCfg 6].foldl (fun a w => 2 ^ 32 * a + w) 0

/-- Whether a frame carries what the device takes: a message in one of the two enabled encapsulations, or a Neighbor Solicitation or Echo
Request of ICMPv6, which are rows of their own. -/
def State.frameTaken (s : State) (f : Frame) : Bool :=
  (decide (f.etype.toNat = s.portCfg 2) && s.encapOn false) ||
  (f.etype == 0x86DD && s.encapOn true && !f.ipExt &&
    ((f.ipProto == 58 && (f.icmpType == 135 || f.icmpType == 128)) || (f.ipProto == 17 && f.ipDst.toNat == s.ipAddr && f.udpPort == s.portCfg 7)))

/-- The FEC codewords that a frame came in, counted (*HPT_FEC_CORR*, *HPT_FEC_UNCORR*). -/
def State.hostFec (s : State) (f : Frame) : State :=
  (s.wide Reg.HPT_FEC_CORR 0 0 f.fecCorr).err Reg.HPT_FEC_UNCORR 0 0 f.fecUncorr

/-- What the MAC does with a frame before its content counts; a frame for another address is not accepted. -/
def State.macFrame (s : State) (f : Frame) : State :=
  if !f.fcsOk then s.discardRx
  else if f.isPause || f.isPfc then s.err Reg.HPT_PAUSE_RX 0 0 1
  else if f.dst.toNat ≠ s.macAddr ∧ f.dst ≠ 0xFFFFFFFFFFFF then s
  else if s.portCfg 8 < f.len ∨ !s.frameTaken f then s.discardRx
  else s

/-- `HOST_FRAME_RECEIVE`. -/
def execHostFrameReceive (f : Frame) (s : State) : Out :=
  if !s.linkUp then .next s else finish ((s.hostFec f).macFrame f)

/-- What leaves the port that is no transport message. -/
def State.sendPlain (s : State) (x : Sent) : State := { s with hpt := { s.hpt with sent := s.hpt.sent ++ [x] } }

/-- `NEIGHBOR_SOLICITATION`. -/
def execNeighborSolicitation (target : BitVec 128) (s : State) : Out :=
  if !s.linkUp then .next s
  else if s.encapOn true && target.toNat == s.ipAddr then .next (s.sendPlain (.neighborAdvertisement target))
  else finish s.discardRx

/-- `ECHO_REQUEST`. -/
def execEchoRequest (dst : BitVec 128) (s : State) : Out :=
  if !s.linkUp then .next s
  else if s.encapOn true && dst.toNat == s.ipAddr then .next (s.sendPlain (.echoReply dst))
  else finish s.discardRx

/-! ### The link (R377 to R379) -/

/-- The lanes of a PMD code; `one` is the lane of one-lane PMDs. -/
def pmdLanes (pmd one : Nat) : List Nat :=
  if pmd = 1 ∨ pmd = 2 ∨ pmd = 5 ∨ pmd = 6 then List.range 8
  else if pmd = 3 ∨ pmd = 4 ∨ pmd = 9 ∨ pmd = 10 then List.range 4
  else if pmd = 7 ∨ pmd = 8 then List.range 2
  else [one]

/-- The rate of a PMD code in Gb/s. -/
def pmdRate (pmd : Nat) : Nat :=
  if pmd ≤ 2 then 1600 else if pmd ≤ 6 then 800 else if pmd ≤ 10 then 400 else if pmd ≤ 12 then 200 else 100

/-- The PMDs that the device may advertise: all that `HPT_PMD_ADV` enables; in TOWPATH and in a recovery boot codes 13 and 14. -/
def State.pmdEnabled (s : State) : List Nat :=
  if s.power = 3 ∨ s.recovery then [13, 14]
  else ((List.range 14).map (fun k => k + 1)).filter (fun c => (s.rf Reg.HPT_PMD_ADV 0 0 13 0).testBit (c - 1))

/-- Whether every lane of a PMD works. -/
def State.lanesWork (s : State) (pmd : Nat) : Bool :=
  (pmdLanes pmd (s.rf Reg.HPT_LANE_MAP 0 0 2 0)).all (fun l => !(s.rf Reg.HPT_LINK_STATE 0 0 23 16).testBit l)

/-- `HOST_LINK_UP`: negotiation has resolved a PMD that the device advertises and training is complete. A rate below the highest
advertised one, those withdrawn for failed lanes left out, is degraded (R378). -/
def execHostLinkUp (pmd : Nat) (s : State) : Out :=
  if !s.pow.booted || s.linkUp || !s.pmdEnabled.contains pmd || !s.lanesWork pmd then .next s
  else
    let s := s.loadConfig
    let w := (pmdLanes pmd 0).length
    let s := (s.setRf Reg.HPT_LINK_STATE 0 0 15 8 pmd).setRf Reg.HPT_LINK_STATE 0 0 7 4 w
    let s := s.setRf Reg.HPT_LINK_STATE 0 0 2 0 (if s.power = 3 then 4 else 3)
    finish (if (s.pmdEnabled.filter s.lanesWork).any (fun c => decide (pmdRate pmd < pmdRate c)) then s.raise 0x69 devUnit else s)

/-- `HOST_LINK_DOWN` (R402). -/
def execHostLinkDown (s : State) : Out := if s.linkUp then finish ((s.unlink 0).raise 0x68 devUnit) else .next s

/-- The lane of one-lane PMDs moves off a failed lane to the lowest working one (R378). -/
def State.moveLane (s : State) : State :=
  let failed := s.rf Reg.HPT_LINK_STATE 0 0 23 16
  if failed.testBit (s.rf Reg.HPT_LANE_MAP 0 0 2 0) then
    match (List.range 8).find? (fun l => !failed.testBit l) with
    | some l => s.setRf Reg.HPT_LANE_MAP 0 0 2 0 l
    | none => s
  else s

/-- `HOST_LANE_FAILURE` (R378). -/
def execHostLaneFailure (lane : Nat) (s : State) : Out :=
  if !s.pow.booted || decide (8 ≤ lane) || (s.rf Reg.HPT_LINK_STATE 0 0 23 16).testBit lane then .next s
  else
    let up := s.linkUp
    let s := ((s.setRf Reg.HPT_LINK_STATE 0 0 (16 + lane) (16 + lane) 1).moveLane).unlink 1
    let s := if up then s.raise 0x68 devUnit else s
    finish s.review

/-! ### Staging (R394) -/

/-- Whether a staging kind is defined. -/
def kindOk (kind : Nat) : Bool := decide (1 ≤ kind ∧ kind ≤ 3)

/-- The staged schedule and its validation are gone. -/
def State.dropStaged (s : State) : State :=
  ({ s with sched := { s.sched with staged := none } } : State).setRf Reg.WGT_SCHED_STATE 0 0 1 0 0 |>.setReg Reg.WGT_SCHED_STAGED_TAG 0 0 0

/-- `STAGE_OPEN`: earlier content of the kind is discarded, a validated schedule included. -/
def execStageOpen (h : Hdr) (kind size : Nat) (s : State) : Out :=
  s.command h (opRowM 0x0110) (decide (kind = 3)) (kindOk kind) true (fun s _ r =>
    let a := s.area (kind - 1)
    if a.isOpen || a.busy then s.answer r stBusy []
    else
      let s := s.updArea (kind - 1) (fun _ => { isOpen := true, closed := false, busy := false, size := size, bytes := [] })
      (if kind = 1 then s.dropStaged else s).answer r stOk [])

/-- `STAGE_DATA`: an area that is not open is no object of the command; one longer than a command may be has a bad `LENGTH` (R390). -/
def execStageData (h : Hdr) (kind offset : Nat) (bytes : List Byte) (s : State) : Out :=
  s.command h (opRowM 0x0111) (decide (kind = 3)) (kindOk kind && decide (20 + bytes.length ≤ maxCommand)) true (fun s _ r =>
    let a := s.area (kind - 1)
    if !a.isOpen then s.answer r stNotFound []
    else if a.size < offset + bytes.length then s.answer r stRange []
    else (s.updArea (kind - 1) (fun a => { a with bytes := Mem.write a.bytes offset bytes })).answer r stOk [])

/-- `STAGE_CLOSE`. -/
def execStageClose (h : Hdr) (kind : Nat) (digest : BitVec 256) (s : State) : Out :=
  s.command h (opRowM 0x0112) (decide (kind = 3)) (kindOk kind) true (fun s _ r =>
    let a := s.area (kind - 1)
    if !a.isOpen then s.answer r stNotFound []
    else if sm3 (Mem.read a.bytes 0 a.size) ≠ digestBytes digest then s.answer r stAuth []
    else (s.updArea (kind - 1) (fun a => { a with isOpen := false, closed := true })).answer r stOk [])

/-! ### Formation and schedules -/

/-- `FORM` (R323): the devices start from `UNFORMED`; without a working random source formation completes with `E_BUSY` (R481). -/
def execForm (h : Hdr) (s : State) : Out :=
  s.command h (opRow 0x0120) false true true (fun s _ r =>
    if s.flightState ≠ 0 ∨ s.rf Reg.SEC_RNG 0 0 0 0 = 0 then s.answer r stBusy [] else s.startForm r)

/-- `SCHED_VALIDATE`: validation of the staged image starts; loading waits while ages are unknown (R442, R443). -/
def execSchedValidate (h : Hdr) (s : State) : Out :=
  s.command h (opRow 0x0121) false true true (fun s _ r =>
    let a := s.area 0
    if a.busy || s.rf Reg.CAL_AGE 0 0 1 0 == 0 || s.rf Reg.CAL_AGE 0 0 1 0 == 2 then s.answer r stBusy []
    else if !a.closed then s.answer r stNotFound []
    else
      let s := (s.updArea 0 (fun a => { a with busy := true })).setRf Reg.WGT_SCHED_STATE 0 0 1 0 1
      { s with jobs := { s.jobs with validate := some r } })

/-- `SCHED_ACTIVATE` (R172): the command is staged for its lockage. -/
def execSchedActivate (h : Hdr) (tag lockage : Nat) (s : State) : Out :=
  s.command h (opEntryRow 0x0122) false true true (fun s _ r =>
    let moves := match s.sched.active, s.sched.staged with
      | some a, some b => a.head.entry != b.head.entry || a.head.exit != b.head.exit
      | _, _ => false
    if !s.inFlight then s.answer r stBusy []
    else if lockage ≤ s.reg Reg.FLK_LOCKAGE 0 0 then s.answer r stRange []
    else if moves && s.seq.barges.any (fun b => b.2.state != .free) then s.answer r stBusy []
    else s.stageCmd h 0 (.activate tag lockage))

/-! ### Barge commands (R265, R395) -/

/-- The vocabulary of the active schedule's model. -/
def State.vocab (s : State) : Nat :=
  match s.sched.active with
  | some im => im.head.vocab
  | none => 0

/-- Whether reserved bits of *Submission fields* are 0. -/
def submitReserved (f : SubmitF) : Bool :=
  f.pad == 0 && decide (f.kvPolicy.toNat < 8) && decide (f.variant.toNat < 4096) && decide (f.topK.toNat < 4096) &&
  decide (f.stop.toNat < 2 ^ 24) && decide (f.itl.toNat < 2 ^ 24)

/-- `SUBMIT`. -/
def execSubmit (h : Hdr) (f : SubmitF) (prompt : List (BitVec 32)) (s : State) : Out :=
  s.submission h (tenantRow 0x0140) (submitReserved f && prompt.length == f.promptLen.toNat)
    (decide (f.prio.toNat ≤ 7 ∧ f.depthMax.toNat ≤ 7) && prompt.all (fun t => decide (t.toNat < s.vocab))) (fun s x _ =>
      s.stageCmd h x.tenantNo (.submit f prompt none))

/-- A command of the flight that names barges: taken, and answered at its commit. -/
def State.bargeCommand (s : State) (h : Hdr) (op : Nat) (b : BargeCmd) : Out :=
  s.command h (tenantRow op) false true true (fun s x _ => s.stageCmd h x.tenantNo b)

/-- `CANCEL` (R278). -/
def execCancel (h : Hdr) (index : Nat) (s : State) : Out := s.bargeCommand h 0x0141 (.cancel index)

/-- `PARK` (R279). -/
def execPark (h : Hdr) (index : Nat) (s : State) : Out := s.bargeCommand h 0x0142 (.park index)

/-- `RESUME` (R279). -/
def execResume (h : Hdr) (index : Nat) (s : State) : Out := s.bargeCommand h 0x0143 (.resume index)

/-- `PREFIX_MAP` (R245). -/
def execPrefixMap (h : Hdr) (donor recipient p : Nat) (s : State) : Out := s.bargeCommand h 0x0144 (.prefixMap donor recipient p)

/-- `TRIM` (R246). -/
def execTrim (h : Hdr) (index t : Nat) (s : State) : Out := s.bargeCommand h 0x0145 (.trim index t)

/-- `RELEASE` (R247). -/
def execRelease (h : Hdr) (index : Nat) (s : State) : Out := s.bargeCommand h 0x0146 (.release index)

/-- Whether a variant's contents have the model's shape: its layers, each with a vector of the hidden width. -/
def State.varShapeOk (s : State) (layers length : Nat) (data : List VarLayer) : Bool :=
  match s.sched.active with
  | some im => layers == im.head.layers && length == 8 + layers * (4 + 2 * im.head.hidden) && decide (8 + length ≤ maxCommand) &&
      data.length == layers && data.all (fun l => l.v.length == im.head.hidden)
  | none => false

/-- `VAR_LOAD` (R283): the tenant is the session's. -/
def execVarLoad (h : Hdr) (index gen layers length : Nat) (data : List VarLayer) (s : State) : Out :=
  s.command h (tenantRow 0x0150) false (s.varShapeOk layers length data) (decide (1 ≤ index ∧ index ≤ 4095)) (fun s x _ =>
    s.stageCmd h x.tenantNo (.varLoad index gen data))

/-- `VAR_UNLOAD` (R283). -/
def execVarUnload (h : Hdr) (index : Nat) (s : State) : Out :=
  s.command h (tenantRow 0x0151) false true (decide (1 ≤ index ∧ index ≤ 4095)) (fun s x _ => s.stageCmd h x.tenantNo (.varUnload index))

/-! ### VX-20 request mode (R285, R396) -/

/-- The submission that a VX-20 record stands for. -/
def State.translate (s : State) (r : Vx20Rec) : SubmitF :=
  { prio := r.prio, kvPolicy := BitVec.ofNat 8 (bitsOf s.seq.compatNow 18 16), depthMax := 0, pad := 0, variant := 0, topK := r.topK
    promptLen := r.promptLen, maxNew := r.maxNew, stop := if r.stop = 0xFFFFFFFF then 0xFFFFFF else r.stop, ttft := r.deadline, itl := 0xFFFFFF
    temp := if r.flags.getLsbD 0 then 0 else r.temp, topP := r.topP, seed := r.seed }

/-- `VX20_REQUEST`: 0x0001 of a version 1.1 session. -/
def execVx20Request (h : Hdr) (r : Vx20Rec) (prompt : List (BitVec 32)) (s : State) : Out :=
  s.submission h (tenantRow 0x0001) (r.flags >>> 1 == 0 && r.pad == 0 && prompt.length == r.promptLen.toNat)
    (decide (r.prio.toNat ≤ 7) && (decide (r.stop.toNat < 0xFFFFFF) || r.stop == 0xFFFFFFFF) && prompt.all (fun t => decide (t.toNat < s.vocab)))
    (fun s x rep =>
      let no := fun (status : Nat) => (s.err Reg.CNT_SEQ_ADMIT_REJECT 0 0 1).answer rep status []
      if r.version ≠ 0x0102 ∨ !s.seq.compatNow.testBit 31 then no stVersion
      else if 1048575 < r.promptLen.toNat then no stLength
      else s.stageCmd h x.tenantNo (.submit (s.translate r) prompt (some r.request)))

/-- `VX20_ABORT`: 0x0002 of a version 1.1 session; the barge of the session with the request number is cancelled. -/
def execVx20Abort (h : Hdr) (request : BitVec 32) (s : State) : Out :=
  s.command h (tenantRow 0x0002) false true true (fun s x rep =>
    let mine := s.seq.barges.filter (fun b => b.2.compat && b.2.session == h.session && b.2.request == request)
    match (mine.find? (fun b => b.2.live)).orElse (fun _ => mine.head?) with
    | some b => s.stageCmd h x.tenantNo (.cancel b.1)
    | none => s.answer rep stNotFound [])

end Sys2Proof.Machine
end

