-- ==== Sys2Proof/Machine/LoadWords.lean ====
section
/-! DEFINITION. What the loader reads off one instruction word (R171, R191, R223): the loops around it, the values its operands
step through, the registers, tiles, scratchpad bytes and memory it names, and the conditions on each. Readings: notes/assumptions/16.md. -/

namespace Sys2Proof.Machine

/-! ### Programs -/

/-- One program of an image: its site, the index of its first instruction, its variant, its words. -/
structure StepProg where
  site : Nat
  base : Nat
  wide : Bool
  words : List (BitVec 128)
  deriving DecidableEq, Repr

/-- The two programs of a core section. -/
def progsOf (c : CoreProg) : List StepProg := [⟨c.site, 0, false, c.normal⟩, ⟨c.site, c.wideBase, true, c.wide⟩]

/-- An instruction at its place: index within the program, the loops that enclose it as (last index, trip count), outermost first. -/
structure Placed where
  pc : Nat
  encl : List (Nat × Nat)
  word : BitVec 128
  deriving DecidableEq, Repr

/-- The opcode of a word. -/
def opcOf (w : BitVec 128) : Nat := (w.extractLsb' 0 8).toNat

/-- The number of instructions in the body that a `LOOP` names. -/
def loopBody (w : BitVec 128) : Nat := (w.extractLsb' 80 12).toNat + 1

/-- The trip count that a `LOOP` names. -/
def loopTrip (w : BitVec 128) : Nat := (w.extractLsb' 64 16).toNat + 1

/-- The instructions of a program with the loops around each (R168). -/
def placeWords (ws : List (BitVec 128)) (pc : Nat) (ls : List (Nat × Nat)) : List Placed :=
  match ws with
  | [] => []
  | w :: t =>
    let ls := ls.filter (fun l => decide (pc ≤ l.1))
    ⟨pc, ls, w⟩ :: placeWords t (pc + 1) (if opcOf w = 0x01 then ls ++ [(pc + loopBody w, loopTrip w)] else ls)

/-- The instructions of a program at their places. -/
def StepProg.placed (p : StepProg) : List Placed := placeWords p.words 0 []

/-- Values of the stepping index that bound every stepped operand: operands step linearly, so the first, second and last (R191). -/
def Placed.steps (x : Placed) : List Nat :=
  if x.word.getLsbD 14 then
    match x.encl[(x.word.extractLsb' 12 2).toNat]? with
    | some l => [0, min 1 (l.2 - 1), l.2 - 1]
    | none => [0]
  else [0]

/-- The instruction that a word spells; a word that spells none has no operands. -/
def insOf (site : Nat) (w : BitVec 128) : Instr := (decodeWord site w).getD (.nop (commonOf site w))

/-! ### Operands -/

/-- A stepped address before any range is applied (R191). -/
def sAt (base stride w i : Nat) : Int := (base : Int) + signed w stride * (i : Int)

/-- Elements of the source group of `VHAD` and `VQNT` (R208). -/
def groupLen (f : VecF) : Nat := (if f.t = 0 then 256 else 512) * vecN f

/-- The address of a vector instruction. -/
def vecAt (f : VecF) (i : Nat) : Int := sAt (f.hi.toNat % 2 ^ 20) (f.hi.toNat / 2 ^ 20) 16 i

/-- The bytes that an 8-bit, 16-bit or 32-bit result of `ARES` takes (R204). -/
def aresBytes (fmt : BitVec 3) : Nat := if fmt = 0 then 2048 else if fmt.toNat < 3 then 1024 else 512

/-- The head dimension of an attention instruction. -/
def attDim (f : AttF) : Nat := (headDim f.dh.toNat).getD 64

/-- Heads of an attention instruction. -/
def attHeads (f : AttF) : Nat := f.gm1.toNat + 1

/-- An attention operand of `n` bytes, which steps by its size (*Format T*). -/
def attSpan (a : BitVec 20) (n i : Nat) : Int × Nat := ((attAddr a.toNat n i : Nat), n)

/-- The operand blocks of an `EVAL` with their logical arrays (R197, R198). -/
def evalBlocks (f : EvalF) (i : Nat) : List (Nat × Int) :=
  ((List.range 18).filter (fun n => f.amask.getLsbD n)).zipIdx.map (fun x => (x.1, sAt f.opa.toNat f.ops.toNat 16 i + 1088 * (x.2 : Int)))

/-- The scratchpad bytes that the core reads or writes under an instruction, as (address, length); deliveries by the network are
not among them, and an evaluation's outlier lists stand in `readLists`. -/
def coreSpans (ins : Instr) (i : Nat) : List (Int × Nat) :=
  match ins with
  | .eval _ f => (evalBlocks f i).map (fun b => (b.2, 1088))
  | .alds _ f => [(sAt f.spa.toNat f.sps.toNat 16 i, 4096)]
  | .asts _ f => [(sAt f.spa.toNat f.sps.toNat 16 i, 4096)]
  | .ares _ f => if f.dsel then [(sAt f.spa.toNat f.sps.toNat 16 i, aresBytes f.fmt)] else []
  | .vtopk _ f => [(vecAt f i, 8 * (f.aux.toNat % 64 + 1))]
  | .vhad _ f => [(vecAt f i, 8 * (groupLen f / 2 ^ (f.aux.toNat % 16)))]
  | .vqnt _ f => [(vecAt f i, 1088 * ((groupLen f + 1023) / 1024))]
  | .vroute _ f =>
    let x := f.xm1.toNat + 1
    let n := f.ntm1.toNat + 1
    [((f.scores.toNat : Int), 4 * x * n), ((f.out.toNat : Int), 8 * (f.km1.toNat + 1) * n), ((f.occ.toNat : Int), 4 + 2 * x)]
  | .ldv _ f => [(sAt f.spa.toNat f.sps.toNat 16 i, 1024 * (f.nm1.toNat + 1))]
  | .stv _ f => [(sAt f.spa.toNat f.sps.toNat 16 i, 1024 * (f.nm1.toNat + 1))]
  | .ldg _ f => [(sAt f.spa.toNat f.sps.toNat 16 i, 8)]
  | .stg _ f => [(sAt f.spa.toNat f.sps.toNat 16 i, 8)]
  | .copy _ f => [(sAt f.spa.toNat f.sps.toNat 16 i, 64 * (f.gm1.toNat + 1)), (sAt f.dst.toNat f.dsts.toNat 16 i, 64 * (f.gm1.toNat + 1))]
  | .mwr _ f => [((f.sp.toNat : Int) + 64 * signed 10 f.sstep.toNat * (i : Int), 64 * (f.gm1.toNat + 1))]
  | .mgath _ f => [((f.idx.toNat : Int), 4 * (f.rm1.toNat + 1))]
  | .nsend _ f => [(sAt f.spa.toNat f.sps.toNat 16 i, 64 * (f.gm1.toNat + 1))]
  | .attKvw _ f => [attSpan f.a (4 * attHeads f * attDim f) i]
  | .attRun _ f _ => [attSpan f.a (2 * attHeads f * attDim f) i, attSpan f.b (attHeads f * stateBytes (attDim f)) i]
  | .attMrg _ f => [attSpan f.a (attHeads f * stateBytes (attDim f)) i, attSpan f.b (attHeads f * stateBytes (attDim f)) i]
  | .attFin _ f =>
    [attSpan f.a (attHeads f * stateBytes (attDim f)) i, attSpan f.b ((if f.imm.getLsbD 0 then 4 else 2) * attHeads f * attDim f) i]
  | .brgVar _ f => [((f.a.toNat : Int), 1024 * (f.x12.toNat + 1))]
  | .brgSamp _ f => [((f.a.toNat : Int), 8 * (f.x12.toNat + 1)), ((f.b.toNat : Int), 4)]
  | .brgAcpt _ f => [((f.a.toNat : Int), 32), ((f.b.toNat : Int), 28)]
  | _ => []

/-- The scratchpad bytes that deliveries to this core fill under an instruction (R177, R214, R216). -/
def netSpans (ins : Instr) (i : Nat) : List (Int × Nat) :=
  match ins with
  | .mrd _ f => [((f.sp.toNat : Int) + 64 * signed 10 f.sstep.toNat * (i : Int), 64 * (f.gm1.toNat + 1))]
  | .mgath _ f => [((64 * f.dst.toNat : Nat), 64 * (f.rgm1.toNat + 1) * (f.rm1.toNat + 1))]
  | .nrecv _ f => [(sAt f.spa.toNat f.sps.toNat 16 i, 64 * (f.gm1.toNat + 1))]
  | _ => []

/-- The scratchpad range of another core that a send fills: the destination steps by the source stride (R214). -/
def farSpans (ins : Instr) (i : Nat) : List (Int × Nat) :=
  match ins with
  | .nsend _ f => [(sAt f.dst.toNat f.sps.toNat 16 i, 64 * (f.gm1.toNat + 1))]
  | _ => []

/-- The outlier list that a descriptor names (R115, R202). -/
def listSpan (f : DescF) : Int × Nat := ((64 * f.oaddr.toNat : Nat), olistBytes f.ocount.toNat)

/-- The tiles of the core's own that an instruction reads or writes, sluice deliveries included (R148, R179). -/
def ownTiles (ins : Instr) (i : Nat) : List Nat :=
  match ins with
  | .eval _ f => [stepIx f.tile.toNat f.tstep.toNat i]
  | .aclr _ f => [accDst f i]
  | .amrg _ f => [accDst f i, accSrc f i]
  | .aaddv _ f => [accDst f i]
  | .asetv _ f => [accDst f i]
  | .aldv _ f => [accDst f i]
  | .astv _ f => [accSrc f i]
  | .alds _ f => [accDst f i]
  | .asts _ f => [accSrc f i]
  | .ares _ f => [accSrc f i]
  | .rsend _ f => [accSrc f i]
  | _ => []

/-- Every tile index that an instruction names: a send also names the tile that its tree delivers into. -/
def tileIdx (ins : Instr) (i : Nat) : List Nat :=
  match ins with
  | .rsend _ f => [accSrc f i, accDst f i]
  | x => ownTiles x i

/-- The device-memory range of an instruction (R200, R201, R215); a gather names the region of its table (R216). -/
def memSpans (ins : Instr) (i : Nat) : List (Int × Nat) :=
  match ins with
  | .fill _ f _ => [(sAt f.mbase.toNat f.mstr.toNat 32 i, 262144)]
  | .mrd _ f => [((f.mbase.toNat : Int) + 256 * signed 16 f.mstep.toNat * (i : Int), 64 * (f.gm1.toNat + 1))]
  | .mwr _ f => [((f.mbase.toNat : Int) + 256 * signed 16 f.mstep.toNat * (i : Int), 64 * (f.gm1.toNat + 1))]
  | .mgath _ f => [((f.mbase.toNat : Int), 1)]
  | _ => []

/-! ### Register groups (R206, R207) -/

/-- The destination and the source groups of an instruction on vector registers: an elementwise one over `N` registers. -/
def groups1 (f : VecF) : Option (Nat × Nat) × List (Nat × Nat) := (some (f.vd.toNat, vecN f), [(f.va.toNat, vecN f)])

/-- As `groups1`, with a second source group. -/
def groups2 (f : VecF) : Option (Nat × Nat) × List (Nat × Nat) :=
  (some (f.vd.toNat, vecN f), [(f.va.toNat, vecN f), (f.vb.toNat, vecN f)])

/-- The groups of vector registers that an instruction names: destination and sources, each as (first register, count). -/
def vecGroups (ins : Instr) : Option (Nat × Nat) × List (Nat × Nat) :=
  match ins with
  | .vadd _ f => groups2 f
  | .vsub _ f => groups2 f
  | .vmul _ f => groups2 f
  | .vfma _ f => (some (f.vd.toNat, vecN f), [(f.va.toNat, vecN f), (f.vb.toNat, vecN f), (f.vc.toNat, vecN f)])
  | .vmax _ f => groups2 f
  | .vmin _ f => groups2 f
  | .vadds _ f => groups1 f
  | .vmuls _ f => groups1 f
  | .vabs _ f => groups1 f
  | .vneg _ f => groups1 f
  | .vcvt _ f =>
    (some (f.vd.toNat, (vecN f * typeBytes f.t2 + typeBytes f.t - 1) / typeBytes f.t), [(f.va.toNat, vecN f)])
  | .vexp _ f => groups1 f
  | .vrcp _ f => groups1 f
  | .vrsq _ f => groups1 f
  | .vsilu _ f => groups1 f
  | .vsigm _ f => groups1 f
  | .vsum _ f => (some (f.vd.toNat, 1), [(f.va.toNat, vecN f)])
  | .vmaxr _ f => (some (f.vd.toNat, 1), [(f.va.toNat, vecN f)])
  | .vtopk _ f => (none, [(f.va.toNat, vecN f)])
  | .vrms _ f => groups2 f
  | .vrope _ f => (some (f.vd.toNat, vecN f), [(f.va.toNat, vecN f), (f.vb.toNat, 1)])
  | .vhad _ f => (some (f.vd.toNat, groupLen f / 256), [(f.va.toNat, vecN f)])
  | .vqnt _ f => (none, [(f.va.toNat, vecN f)])
  | .vbc _ f => (some (f.vd.toNat, vecN f), [])
  | .ldv _ f => (some (f.reg.toNat, f.nm1.toNat + 1), [])
  | .stv _ f => (none, [(f.reg.toNat, f.nm1.toNat + 1)])
  | .ares _ f => (if f.dsel then none else some (f.vr.toNat, if f.fmt = 0 then 2 else 1), [])
  | _ => (none, [])

/-- Whether a destination group overlaps a source group without being identical to it. -/
def groupsClash (ins : Instr) : Bool :=
  match vecGroups ins with
  | (none, _) => false
  | (some d, ss) => ss.any (fun s => s != d && decide (d.1 < s.1 + s.2 ∧ s.1 < d.1 + d.2))

/-- Whether a group extends beyond v31. -/
def groupsLong (ins : Instr) : Bool :=
  match vecGroups ins with
  | (none, ss) => ss.any (fun g => decide (32 < g.1 + g.2))
  | (some d, ss) => (d :: ss).any (fun g => decide (32 < g.1 + g.2))

/-! ### Encodings (*Load-time checks*, third row) -/

/-- Values and the alignment each must have, for a stepping index (R223). -/
def alignments (ins : Instr) (i : Nat) : List (Int × Nat) :=
  match ins with
  | .eval _ f => [(sAt f.opa.toNat f.ops.toNat 16 i, 64)]
  | .ares _ f => if f.dsel then [(sAt f.spa.toNat f.sps.toNat 16 i, 64)] else []
  | .vtopk _ f => [(vecAt f i, 8)]
  | .vhad _ f => [(vecAt f i, 8)]
  | .brgVar _ f => [((f.a.toNat : Int), 8)]
  | .brgSamp _ f => [((f.a.toNat : Int), 8), ((f.b.toNat : Int), 8)]
  | .brgAcpt _ f => [((f.a.toNat : Int), 8), ((f.b.toNat : Int), 8)]
  | .ldg _ f => [(sAt f.spa.toNat f.sps.toNat 16 i, 8)]
  | .stg _ f => [(sAt f.spa.toNat f.sps.toNat 16 i, 8)]
  | .ldv _ _ => []
  | .stv _ _ => []
  | .fill _ _ _ => (memSpans ins i).map (fun s => (s.1, 256))
  | .mgath _ f => [((f.idx.toNat : Int), 4), ((f.mbase.toNat : Int), 64)]
  | .nrecv _ f => [(sAt f.spa.toNat f.sps.toNat 16 i, 64), ((f.sps.toNat : Int), 64)]
  | .nsend _ _ => (farSpans ins i).map (fun s => (s.1, 64))
  | x => (coreSpans x i ++ netSpans x i ++ memSpans x i).map (fun s => (s.1, 64))

/-- Whether the common fields break R170, R191 or R194. -/
def commonBad (encl : List (Nat × Nat)) (w : BitVec 128) : Bool :=
  let opc := opcOf w
  let lvl := (w.extractLsb' 12 2).toNat
  let aff := w.getLsbD 14
  if opc = 0x07 then w.extractLsb' 8 4 != 0 || aff || decide (encl.length ≤ lvl)
  else if aff then decide (opc < 0x20 ∧ opc ≠ 0x06) || w.extractLsb' 8 4 != 0 && decide (opc < 0x20) || decide (encl.length ≤ lvl)
  else w.extractLsb' 8 4 != 0 && decide (opc < 0x20) || lvl != 0

/-- Whether an operand's code lies outside its defined values, or a type is one the instruction does not accept (R193 to R224);
`level` is the step-program format level (R324). -/
def codeBad (level : Nat) (ins : Instr) : Bool :=
  match ins with
  | .sysv _ _ k => decide (8 < k.toNat)
  | .cmp _ _ _ _ fn => decide (5 < fn.toNat)
  | .cmpi _ _ _ _ fn => decide (5 < fn.toNat)
  | .plog _ _ _ _ fn => decide (5 < fn.toNat)
  | .eval _ f => f.amask == 0 || f.sc == 3 || f.half && decide (f.ww.toNat < 4) || f.dr && decide (level < 2)
  | .fill _ f _ => decide (f.la.toNat < 16)
  | .aaddv _ f => decide (1 < f.q.toNat)
  | .asetv _ f => decide (1 < f.q.toNat)
  | .ares _ f => decide (4 < f.fmt.toNat)
  | .vcvt _ f => decide (5 < f.t.toNat ∨ 5 < f.t2.toNat)
  | .vtopk _ f => f.t != 0
  | .vhad _ f => decide (1 < f.t.toNat ∨ f.aux.toNat < 4 ∨ 13 < f.aux.toNat ∨ groupLen f % 2 ^ f.aux.toNat ≠ 0)
  | .vqnt _ f => decide (1 < f.t.toNat)
  | .vrope _ f => decide (2 < f.t.toNat ∨ f.aux.toNat = 3)
  | .vadd _ f => decide (2 < f.t.toNat)
  | .vsub _ f => decide (2 < f.t.toNat)
  | .vmul _ f => decide (2 < f.t.toNat)
  | .vfma _ f => decide (2 < f.t.toNat)
  | .vmax _ f => decide (2 < f.t.toNat)
  | .vmin _ f => decide (2 < f.t.toNat)
  | .vadds _ f => decide (2 < f.t.toNat)
  | .vmuls _ f => decide (2 < f.t.toNat)
  | .vabs _ f => decide (2 < f.t.toNat)
  | .vneg _ f => decide (2 < f.t.toNat)
  | .vexp _ f => decide (2 < f.t.toNat)
  | .vrcp _ f => decide (2 < f.t.toNat)
  | .vrsq _ f => decide (2 < f.t.toNat)
  | .vsilu _ f => decide (2 < f.t.toNat)
  | .vsigm _ f => decide (2 < f.t.toNat)
  | .vsum _ f => decide (2 < f.t.toNat)
  | .vmaxr _ f => decide (2 < f.t.toNat)
  | .vrms _ f => decide (2 < f.t.toNat)
  | .vbc _ f => decide (2 < f.t.toNat)
  | .mgath c _ => c.aff
  | .nrecv _ f => f.expect == 0
  | .attKvw _ f => f.dh == 3
  | .attRun _ f _ => f.dh == 3
  | .attMrg _ f => f.dh == 3
  | .attFin _ f => f.dh == 3
  | .attRcmp _ _ => decide (level < 2)
  | .brgInfo _ f => decide (6 < f.x8.toNat)
  | _ => false

/-- Whether an instruction word breaks the third row of *Load-time checks*. -/
def encodingBad (level site : Nat) (x : Placed) : Bool :=
  match decodeWord site x.word with
  | none => true
  | some ins =>
    commonBad x.encl x.word || codeBad level ins || groupsClash ins ||
    x.steps.any (fun i => (alignments ins i).any (fun a => a.1 % (a.2 : Int) != 0))

/-! ### Ranges (fourth row, and the ranges of R223 under the last) -/

/-- Whether a range lies within the scratchpad. -/
def inSp (r : Int × Nat) : Bool := decide (0 ≤ r.1 ∧ r.1 + r.2 ≤ (spmSize : Int))

/-- Whether an index or a scratchpad range of an instruction leaves its range (fourth row of *Load-time checks*). -/
def indexBad (site : Nat) (x : Placed) : Bool :=
  let ins := insOf site x.word
  groupsLong ins ||
  (match ins with
    | .fill _ f _ => decide (17 < f.la.toNat)
    | .sdesc _ f => decide (17 < f.la.toNat) || !inSp (listSpan f)
    | _ => false) ||
  x.steps.any (fun i => (tileIdx ins i).any (fun t => decide (127 < t)) ||
    (coreSpans ins i ++ netSpans ins i ++ farSpans ins i).any (fun r => !inSp r))

/-- Whether a range lies within one populated region (R200). -/
def inMem (r : Int × Nat) : Bool := decide (0 ≤ r.1) && inRegion r.1.toNat r.2

/-- Whether another count, use, slot, position, device, core or memory range leaves its range (R223); `size` is the flight's, `cores`
gives a device's enabled cores. -/
def rangeBad (size : Nat) (cores : Nat → Nat) (site : Nat) (x : Placed) : Bool :=
  let ins := insOf site x.word
  (match ins with
    | .sdesc _ f => decide (5242 < f.ocount.toNat)
    | .rsend _ f => decide (8 < f.segq.toNat + f.flm1.toNat + 1)
    | .nsend _ f => decide (size ≤ f.ddev.toNat ∨ cores f.ddev.toNat ≤ f.dcore.toNat)
    | .vroute _ f => decide (f.xm1.toNat < 1 ∨ 511 < f.xm1.toNat ∨ 1024 < f.t0.toNat + f.ntm1.toNat + 1)
    | .attKvw _ f => decide (15 < f.kvh.toNat + f.gm1.toNat ∨ f.psm1.toNat < f.pph.toNat)
    | .attRun _ f _ => decide (f.psm1.toNat < f.pph.toNat)
    | .attRcmp _ f => decide (f.psm1.toNat < f.pph.toNat)
    | _ => false) ||
  x.steps.any (fun i => (memSpans ins i).any (fun r => !inMem r) ||
    (match ins with
      | .waitr _ _ u k => decide (255 < u.toNat + k.toNat * i)
      | .rsend _ f => decide (255 < f.use.toNat + f.ustep.toNat * i)
      | .attKvw _ f => decide (4095 < f.poff.toNat + i)
      | .attRun _ f _ => decide (4095 < f.poff.toNat + i)
      | .attRcmp _ f => decide (4095 < f.poff.toNat + i)
      | .brgSlot _ f => !f.srcg && decide (1023 < f.slot.toNat + f.sstep.toNat * i)
      | .brgInfo _ f => !f.srcg && decide (1023 < f.slot.toNat + f.sstep.toNat * i)
      | .brgVar _ f => !f.srcg && decide (1023 < f.slot.toNat + f.sstep.toNat * i)
      | .brgSamp _ f => !f.srcg && decide (1023 < f.slot.toNat + f.sstep.toNat * i)
      | .brgAcpt _ f => !f.srcg && decide (1023 < f.slot.toNat + f.sstep.toNat * i)
      | .brgEmit _ f => !f.srcg && decide (1023 < f.slot.toNat + f.sstep.toNat * i)
      | _ => false))

end Sys2Proof.Machine
end

