-- ==== Sys2Proof/Machine/StaticTime.lean ====
section
/-! DEFINITION. The static issue time of a program (R171): issue in program order, six units with queues of 8 (R192), the waits of R179
between the core's own instructions, and the unit times of the instruction tables at their stated bounds. Times are counted in 0.2 ns, four
to a core cycle. Readings: notes/assumptions/16.md. -/

namespace Sys2Proof.Machine

/-! ### What an instruction touches (R179) -/

/-- A run of things of one kind that an instruction reads or writes: 0 general registers, 1 predicates, 2 vector registers, 3 tiles,
4 scratchpad granules. -/
structure Touch where
  kind : Nat
  first : Nat
  len : Nat
  deriving DecidableEq, Repr

/-- Whether two runs meet. -/
def Touch.meets (a b : Touch) : Bool := a.kind == b.kind && decide (a.first < b.first + b.len ∧ b.first < a.first + a.len)

/-- The granules of a scratchpad range. -/
def granules (r : Int × Nat) : Touch :=
  let a := r.1.toNat
  ⟨4, a / 64, if r.2 = 0 then 0 else (a + r.2 - 1) / 64 - a / 64 + 1⟩

/-- A general register. -/
def gTouch (n : BitVec 5) : Touch := ⟨0, n.toNat, 1⟩

/-- A predicate. -/
def pTouch (n : BitVec 3) : Touch := ⟨1, n.toNat, 1⟩

/-- The general registers and predicates that an instruction reads, beyond its predicate selector. -/
def scalarReads (ins : Instr) : List Touch :=
  match ins with
  | .add _ _ a b => [gTouch a, gTouch b]
  | .addi _ _ a _ => [gTouch a]
  | .sub _ _ a b => [gTouch a, gTouch b]
  | .mul _ _ a b => [gTouch a, gTouch b]
  | .and _ _ a b => [gTouch a, gTouch b]
  | .or _ _ a b => [gTouch a, gTouch b]
  | .xor _ _ a b => [gTouch a, gTouch b]
  | .shl _ _ a _ => [gTouch a]
  | .shr _ _ a _ => [gTouch a]
  | .sar _ _ a _ => [gTouch a]
  | .cmp _ _ a b _ => [gTouch a, gTouch b]
  | .cmpi _ _ a _ _ => [gTouch a]
  | .plog _ _ a b _ => [pTouch a, pTouch b]
  | .vtopk _ f => [gTouch f.vb]
  | .vrope _ f => [gTouch f.vc]
  | .stg _ f => [gTouch f.reg]
  | .attKvw _ f => [gTouch f.gs]
  | .attRun _ f _ => [gTouch f.gs]
  | .attRcmp _ f => [gTouch f.gs]
  | .brgSlot _ f => if f.srcg then [gTouch f.gs] else []
  | .brgInfo _ f => if f.srcg then [gTouch f.gs] else []
  | .brgVar _ f => if f.srcg then [gTouch f.gs] else []
  | .brgSamp _ f => if f.srcg then [gTouch f.gs] else []
  | .brgAcpt _ f => if f.srcg then [gTouch f.gs] else []
  | .brgEmit _ f => if f.srcg then [gTouch f.gs] else []
  | _ => []

/-- The general registers and predicates that an instruction writes. -/
def scalarWrites (ins : Instr) : List Touch :=
  match ins with
  | .lidx _ d => [gTouch d]
  | .sysv _ d _ => [gTouch d]
  | .li _ d _ => [gTouch d]
  | .add _ d _ _ => [gTouch d]
  | .addi _ d _ _ => [gTouch d]
  | .sub _ d _ _ => [gTouch d]
  | .mul _ d _ _ => [gTouch d]
  | .and _ d _ _ => [gTouch d]
  | .or _ d _ _ => [gTouch d]
  | .xor _ d _ _ => [gTouch d]
  | .shl _ d _ _ => [gTouch d]
  | .shr _ d _ _ => [gTouch d]
  | .sar _ d _ _ => [gTouch d]
  | .cmp _ d _ _ _ => [pTouch d]
  | .cmpi _ d _ _ _ => [pTouch d]
  | .plog _ d _ _ _ => [pTouch d]
  | .ldg _ f => [gTouch f.reg]
  | .brgSlot _ f => [gTouch f.gd, pTouch f.pd]
  | .brgInfo _ f => [gTouch f.gd]
  | .brgSamp _ f => [gTouch f.gd]
  | .brgAcpt _ f => [gTouch f.gd]
  | _ => []

/-- The scratchpad ranges of `coreSpans` that an instruction writes. -/
def spWrites (ins : Instr) (i : Nat) : List (Int × Nat) :=
  let l := coreSpans ins i
  match ins with
  | .asts _ _ => l
  | .ares _ _ => l
  | .vtopk _ _ => l
  | .vqnt _ _ => l
  | .vroute _ _ => l.drop 1
  | .stv _ _ => l
  | .stg _ _ => l
  | .copy _ _ => l.drop 1
  | .attRun _ _ _ => l.drop 1
  | .attMrg _ _ => l.drop 1
  | .attFin _ _ => l.drop 1
  | .brgVar _ _ => l
  | .brgSamp _ _ => l.drop 1
  | _ => []

/-- The vector registers that the accumulator's instructions read. -/
def accReads (ins : Instr) : List Touch :=
  match ins with
  | .aaddv _ f => [⟨2, f.vr.toNat, 1⟩]
  | .asetv _ f => [⟨2, f.vr.toNat, 1⟩]
  | .aldv _ f => [⟨2, f.vr.toNat, 1⟩]
  | _ => []

/-- The vector register that the accumulator's copy out writes. -/
def accWrites (ins : Instr) : List Touch :=
  match ins with
  | .astv _ f => [⟨2, f.vr.toNat, 1⟩]
  | _ => []

/-- What an instruction of word `w` reads and writes; a tile that is touched at all counts as written, since any later touch waits. -/
def touches (ins : Instr) (w : BitVec 128) (i : Nat) : List Touch × List Touch :=
  let pred := (w.extractLsb' 8 4).toNat
  let (d, ss) := vecGroups ins
  let wr := spWrites ins i
  ((if pred = 0 then [] else [⟨1, if pred ≤ 8 then pred - 1 else pred - 8, 1⟩]) ++ scalarReads ins ++ accReads ins ++
      ss.map (fun g => ⟨2, g.1, g.2⟩) ++ ((coreSpans ins i).filter (fun r => !wr.contains r)).map granules,
    scalarWrites ins ++ accWrites ins ++ (match d with
      | some g => [⟨2, g.1, g.2⟩]
      | none => []) ++ (ownTiles ins i).map (fun t => ⟨3, t, 1⟩) ++ wr.map granules)

/-! ### Units and unit times (R192) -/

/-- The unit of an opcode: 0 control, 1 arrays and sluice, 2 accumulator, 3 vector, 4 moves and network, 5 attention, which takes the barge
operations too. -/
def unitOf (opc : Nat) : Nat :=
  if opc < 0x20 then 0 else if opc < 0x60 then 1 else if opc < 0x80 then 2 else if opc < 0xC0 then 3 else if opc < 0xE0 then 4 else 5

/-- The unit time in core cycles at its stated bound (R192, R203, R206, R208, R212, R213, R219, R220). -/
def unitCycles (ins : Instr) (i : Nat) : Nat :=
  match ins with
  | .amrg _ _ => 2
  | .aaddv _ _ => 2
  | .asetv _ _ => 2
  | .aldv _ _ => 2
  | .astv _ _ => 2
  | .alds _ _ => 64
  | .asts _ _ => 64
  | .ares _ _ => 8
  | .rsend _ f => 2 + f.flm1.toNat
  | .vexp _ f => 4 * vecN f + 10
  | .vrcp _ f => 4 * vecN f + 10
  | .vrsq _ f => 4 * vecN f + 10
  | .vsilu _ f => 4 * vecN f + 10
  | .vsigm _ f => 4 * vecN f + 10
  | .vsum _ f => 2 * vecN f + 12
  | .vmaxr _ f => 2 * vecN f + 12
  | .vtopk _ f => 4 * vecN f + 2 * (f.aux.toNat % 64 + 1) + 12
  | .vrms _ f => 4 * vecN f + 16
  | .vrope _ f => 4 * vecN f + 12
  | .vhad _ f =>
    let k := f.aux.toNat % 16
    (groupLen f / 2 ^ k) * (((k + 2) * 2 ^ k + 127) / 128) + 6
  | .vqnt _ f => 4 * vecN f + 17 * ((groupLen f + 1023) / 1024) + 8
  | .vroute _ f => (f.ntm1.toNat + 1) * ((f.xm1.toNat + 16) / 16 + 2 * (f.km1.toNat + 1) + 4)
  | .ldv _ f => 16 * (f.nm1.toNat + 1) + (if sAt f.spa.toNat f.sps.toNat 16 i % 64 = 0 then 0 else 1)
  | .stv _ f => 16 * (f.nm1.toNat + 1) + (if sAt f.spa.toNat f.sps.toNat 16 i % 64 = 0 then 0 else 1)
  | .ldg _ _ => 4
  | .stg _ _ => 4
  | .copy _ f => 2 * (f.gm1.toNat + 1)
  | .mwr _ f => f.gm1.toNat + 1
  | .mgath _ f => f.rm1.toNat + 2
  | .nsend _ f => f.gm1.toNat + 1
  | .attKvw _ _ => 250
  | .attRun _ _ _ => 120
  | .attMrg _ f => 2 * attHeads f
  | .attFin _ f => 2 * attHeads f
  | .attRcmp _ _ => 5000
  | .brgSlot _ _ => 2
  | .brgInfo _ _ => 2
  | .brgVar _ f => 500 + 2 * (f.x12.toNat + 1)
  | .brgSamp _ f => 8 * (f.x12.toNat + 1) + 20
  | .brgAcpt _ _ => 16
  | .brgEmit _ _ => 4
  | .vadd _ f => 2 * vecN f + 6
  | .vsub _ f => 2 * vecN f + 6
  | .vmul _ f => 2 * vecN f + 6
  | .vfma _ f => 2 * vecN f + 6
  | .vmax _ f => 2 * vecN f + 6
  | .vmin _ f => 2 * vecN f + 6
  | .vadds _ f => 2 * vecN f + 6
  | .vmuls _ f => 2 * vecN f + 6
  | .vabs _ f => 2 * vecN f + 6
  | .vneg _ f => 2 * vecN f + 6
  | .vcvt _ f => 2 * vecN f + 6
  | .vbc _ f => 2 * vecN f + 6
  | _ => 1

/-- The instruction that an issued word spells. -/
def Issued.ins (x : Issued) (site : Nat) : Instr := insOf site x.word

/-! ### The timing -/

/-- An instruction placed, as long as later ones can meet it: what it reads and writes, and when each access is done. -/
structure TimedUse where
  reads : List Touch
  writes : List Touch
  readBy : Nat
  writeBy : Nat
  deriving DecidableEq, Repr

/-- The issue of a core in time: when the next instruction can issue, what is under way, when each unit is free, the starts of the last
instructions of each unit, when each array's last sub-phase is sampled and each fill is over, the outlier lists of the descriptors, and
when each use of a tree has been sent, when each counter has last been armed. -/
structure Timing where
  now : Nat
  open_ : List TimedUse
  free : SMap Nat
  starts : SMap (List Nat)
  sampled : SMap Nat
  filled : SMap Nat
  lists : SMap (List Touch)
  sent : List ((Nat × Nat) × Nat)
  armed : SMap Nat
  deriving DecidableEq, Repr

/-- At the start of a program. -/
def timingReset : Timing := ⟨0, [], [], [], [], [], [], [], []⟩

/-- The time from which R179 lets an instruction start. -/
def Timing.ready (t : Timing) (rd wr : List Touch) : Nat :=
  t.open_.foldl (fun m (d : TimedUse) =>
    let m := if d.writes.any (fun a => rd.any a.meets || wr.any a.meets) then max m d.writeBy else m
    if d.reads.any (fun a => wr.any a.meets) then max m d.readBy else m) 0

/-- Keeps what can still hold a later instruction up. -/
def Timing.mark (t : Timing) (d : TimedUse) : Timing :=
  { t with open_ := d :: t.open_.filter (fun e => decide (t.now < max e.readBy e.writeBy)) }

/-- When an instruction can be placed into its unit's queue of 8: once the eighth before it has started (R192). -/
def Timing.slot (t : Timing) (unit : Nat) : Nat := max t.now ((SMap.get t.starts [] unit).getD 7 0)

/-- Takes note of an instruction's start in its unit. -/
def Timing.start (t : Timing) (unit issue start cycles : Nat) : Timing :=
  { t with
    now := issue + 4, free := SMap.put t.free 0 unit (start + 4 * cycles)
    starts := SMap.put t.starts [] unit ((start :: SMap.get t.starts [] unit).take 8) }

/-- An evaluation (R52, R199): its drives begin once its arrays have sampled their last sub-phase and their fills are over, the popcount of 4 ns
before; the operands are read until its own last sub-phase, and the tile is written 112 ns later: 64 ns of conversion and, of R52, 8 ns of converter
latency, 24 ns of sluice and 16 ns of reduction (*Timing of the micro-batch*). -/
def Timing.eval (t : Timing) (f : EvalF) (rd wr : List Touch) : Timing :=
  let las := maskArrays f.amask
  let rd := rd ++ las.flatMap (fun la => SMap.get t.lists [] la)
  let issue := t.slot 1
  let s := max (max issue (SMap.get t.free 0 1)) (t.ready rd wr)
  let begins := las.foldl (fun m la => max m (max (SMap.get t.sampled 0 la) (SMap.get t.filled 0 la))) (s + 20)
  let n := phases f.aw * ((subPhases f.sc).getD 1) * (if f.dr then 2 else 1)
  let past := begins + 320 * n
  let t := t.start 1 issue (begins - 20) 1
  ({ t with sampled := las.foldl (fun m la => SMap.put m 0 la past) t.sampled }).mark
    { reads := rd, writes := wr, readBy := past, writeBy := past + 560 }

/-- One issued instruction. -/
def Timing.next (site : Nat) (t : Timing) (x : Issued) : Timing :=
  let ins := x.ins site
  let i := x.idx
  let (rd, wr) := touches ins x.word i
  let unit := unitOf (opcOf x.word)
  match ins with
  | .eval _ f => t.eval f rd wr
  | .waitr _ tree u k =>
    let use := (tree.toNat, u.toNat + k.toNat * i)
    { t with now := 4 + (t.sent.filter (fun y => y.1 == use)).foldl (fun m y => max m y.2) t.now }
  | .waits _ k => { t with now := max t.now (SMap.get t.armed 0 k.toNat) + 4 }
  | _ =>
    if unit = 0 then
      let s := max t.now (t.ready rd wr)
      ({ t with now := s + 4 }).mark { reads := rd, writes := wr, readBy := s + 4, writeBy := s + 4 }
    else
      let n := unitCycles ins i
      let issue := t.slot unit
      let s := max (max issue (SMap.get t.free 0 unit)) (t.ready rd wr)
      let t := (t.start unit issue s n).mark { reads := rd, writes := wr, readBy := s + 4 * n, writeBy := s + 4 * n }
      match ins with
      | .fill _ f _ =>
        let la := f.la.toNat
        { t with filled := SMap.put t.filled 0 la (max s (max (SMap.get t.sampled 0 la) (SMap.get t.filled 0 la)) + 10240) }
      | .sdesc _ f => { t with lists := SMap.put t.lists [] f.la.toNat (if f.ocount = 0 then [] else [granules (listSpan f)]) }
      | .nrecv _ f => { t with armed := SMap.put t.armed 0 f.sig.toNat s }
      | .mrd _ f => { t with armed := SMap.put t.armed 0 f.sig.toNat s }
      | .mgath _ f => { t with armed := SMap.put t.armed 0 f.sig.toNat s }
      | .rsend _ f => { t with sent := ((f.tree.toNat, f.use.toNat + f.ustep.toNat * i), s + 4 * n) :: t.sent }
      | _ => t

/-- When the `BARRIER` of a program issues, given its instructions in issue order; past `limit` nothing more is counted. -/
def issueTime (site limit : Nat) (t : Timing) (l : List Issued) : Nat :=
  match l with
  | [] => t.now
  | x :: r => if opcOf x.word = 0x02 ∨ limit < t.now then t.now else issueTime site limit (t.next site x) r

/-- Whether a program's static issue time exceeds a length in units of 8 ns (R171). -/
def issuesLate (site len : Nat) (l : List Issued) : Bool := decide (40 * len < issueTime site (40 * len) timingReset l)

end Sys2Proof.Machine
end

