-- ==== Sys2Proof/Machine/Loader.lean ====
section
/-! DEFINITION. The schedule loader (R171, *Load-time checks*): each row's conditions, the failure that is reported, and the end of a
validation. Readings: notes/assumptions/16.md. -/

namespace Sys2Proof.Machine

/-! ### Failures -/

/-- A condition that failed: the site of the core or router (0x3FF where it is of none), the instruction or table entry, the status. -/
structure LoadFail where
  site : Nat
  idx : Nat
  status : Nat
  deriving DecidableEq, Repr

/-- The site that a failure of no core and no router shows (`WGT_SCHED_ERR`). -/
def noSite : Nat := 0x3FF

/-- The failure of one row that is reported: lowest site, and at that site lowest index (R171). -/
def firstFail (l : List LoadFail) : Option LoadFail :=
  l.foldl (fun m f =>
    match m with
    | none => some f
    | some g => if f.site < g.site ∨ (f.site = g.site ∧ f.idx < g.idx) then some f else some g) none

/-- The failure of the first row that fails. -/
def firstRow (rows : List (List LoadFail)) : Option LoadFail := rows.findSome? firstFail

/-- A failure with a status where a condition is broken. -/
def failIf (b : Bool) (site idx status : Nat) : List LoadFail := if b then [⟨site, idx, status⟩] else []

/-- The failures of the instructions of a program that break a condition. -/
def StepProg.failsOf (p : StepProg) (status : Nat) (bad : Placed → Bool) : List LoadFail :=
  (p.placed.filter bad).map (fun x => ⟨p.site, p.base + x.pc, status⟩)

/-- All programs of an image. -/
def imageProgs (im : Image) : List StepProg := im.cores.flatMap progsOf

/-- The tables of a program's variant. -/
def tablesOf (im : Image) (wide : Bool) : VariantTables := if wide then im.wide else im.normal

/-- The instructions of a program in the order in which the core issues them, every loop expanded (R168, R177). -/
def StepProg.issued (p : StepProg) : List Issued := issueOrder p.words issueBound 0 []

/-! ### Format, signature, header (first and second row) -/

/-- The image's format is one that the flight's level takes, and its signature verifies (R171, R324). -/
def State.formatFails (s : State) (h : ImageHead) : List LoadFail :=
  if h.format = 0 ∨ s.formatLevel < h.format then [⟨noSite, 0, stVersion⟩] else failIf (!h.sigOk) noSite 0 stAuth

/-- The image is this device's in this flight. -/
def State.headFails (s : State) (h : ImageHead) : List LoadFail :=
  failIf (h.device != s.devNo || h.flightSize != s.flightSize || h.shape != s.rf Reg.FLK_FORM 0 0 1 0 || h.dims != s.dims)
    noSite 0 stBadField

/-! ### Placement, loops, windows (R167, R168, R170) -/

/-- Whether an opcode marks the window. -/
def isWindow (opc : Nat) : Bool := opc == 0x03 || opc == 0x04

/-- Whether a `LOOP` is nested too deep or its body leaves the program or an enclosing body, or an instruction may not stand in a
body (R168, R194). -/
def loopBad (len : Nat) (x : Placed) : Bool :=
  let opc := opcOf x.word
  (opc == 0x01 && (decide (4 ≤ x.encl.length ∨ len ≤ x.pc + loopBody x.word) || x.encl.any (fun l => decide (l.1 < x.pc + loopBody x.word)))) ||
  (!x.encl.isEmpty && (opc == 0x02 || isWindow opc))

/-- The indices of the instructions with an opcode. -/
def StepProg.at (p : StepProg) (opc : Nat) : List Nat := ((p.placed.filter (fun x => opcOf x.word == opc)).map (fun x => x.pc))

/-- Instructions of a program that break the rules on its barrier and window (R170). -/
def StepProg.frameFails (p : StepProg) : List Nat :=
  let last := p.words.length - 1
  let bars := p.at 0x02
  let ends := if bars.contains last then [] else [last]
  let opens := p.at 0x03
  let closes := p.at 0x04
  let evals := p.at 0x20
  let window := match opens, closes with
    | [], [] => if evals.isEmpty then [] else [last]
    | [a], [b] => if a < b then (evals ++ p.at 0x40).filter (fun n => decide (a < n ∧ n < b)) else [a, b]
    | a, b => a.drop 1 ++ b.drop 1 ++ (if a.length ≠ b.length ∧ a.length ≤ 1 ∧ b.length ≤ 1 then a ++ b else [])
  bars.filter (fun n => n != last) ++ ends ++ window

/-- Programs placed as in R167, loops and windows as in R168 and R170 (fifth row). -/
def structFails (im : Image) : List LoadFail :=
  im.cores.flatMap (fun c =>
    failIf (decide (c.wideBase < 64 ∨ 16320 < c.wideBase ∨ c.wideBase % 64 ≠ 0)) c.site 0 stBadField ++
    failIf (decide (c.wideBase < c.normal.length)) c.site c.wideBase stBadField ++
    failIf (decide (16384 < c.wideBase + c.wide.length)) c.site 16383 stBadField) ++
  (imageProgs im).flatMap (fun p =>
    p.failsOf stBadField (loopBad p.words.length) ++ p.frameFails.map (fun n => ⟨p.site, p.base + n, stBadField⟩))

/-! ### Widths (R75, R76; sixth row) -/

/-- The tile that the placement section records for a resident logical array of a site. -/
def placedTile (im : Image) (site la : Nat) : Option TilePlace := im.tiles.find? (fun t => t.site == site && t.la == la)

/-- Whether two scratchpad ranges share a byte. -/
def spansMeet (a b : Int × Nat) : Bool := decide (a.1 < b.1 + b.2 ∧ b.1 < a.1 + a.2)

/-- The activation width of an operand block: that of the `VQNT` which last wrote it, else the recorded one (R76). DESIGN CHOICE: the newest
`VQNT` that shares a byte with the block counts as the one that wrote it, while a recorded range must contain the whole block
(notes/assumptions/36.md). -/
def operandWidth (im : Image) (site : Nat) (seen : List ((Int × Nat) × Nat)) (blk : Int × Nat) : Option Nat :=
  match seen.find? (fun w => spansMeet w.1 blk) with
  | some w => some w.2
  | none => (im.widths.find? (fun o => o.site == site && decide ((o.addr : Int) ≤ blk.1 ∧ blk.1 + blk.2 ≤ o.addr + o.bytes))).map (fun o => o.aw)

/-- Whether the widths of an evaluation disagree with its resident tiles or its inputs. -/
def evalWidthBad (im : Image) (site : Nat) (seen : List ((Int × Nat) × Nat)) (f : EvalF) (i : Nat) : Bool :=
  (evalBlocks f i).any (fun b =>
    (decide (b.1 < 16) && (placedTile im site b.1).any (fun t => t.ww != f.ww.toNat)) ||
    operandWidth im site seen (b.2, 1088) != some f.aw.toNat)

/-- Evaluations in issue order whose widths disagree; `seen` holds the quantised ranges so far, newest first. DESIGN CHOICE: a `VQNT` under a
predicate counts as writing its range, as one without (notes/assumptions/36.md). -/
def widthBad (im : Image) (site : Nat) (seen : List ((Int × Nat) × Nat)) (l : List Issued) : List Nat :=
  match l with
  | [] => []
  | x :: t =>
    match x.ins site with
    | .vqnt _ f => widthBad im site ((coreSpans (.vqnt (commonOf site x.word) f) x.idx).map (fun r => (r, f.aux.toNat % 8)) ++ seen) t
    | .eval _ f => (if evalWidthBad im site seen f x.idx then [x.pc] else []) ++ widthBad im site seen t
    | _ => widthBad im site seen t

/-- Widths agree with the tiles and inputs. -/
def widthFails (im : Image) : List LoadFail :=
  (imageProgs im).flatMap (fun p => (widthBad im p.site [] p.issued).map (fun n => ⟨p.site, p.base + n, stBadField⟩))

/-! ### Tiles under reduction and armed ranges (R150, R177; seventh row) -/

/-- The uses that a core waits for, each with its position in the issue order and its recorded destination. -/
def waitsOf (v : VariantTables) (l : List Issued) (site : Nat) : List (Nat × RedUse) :=
  l.zipIdx.filterMap (fun x =>
    match x.1.ins site with
    | .waitr _ tree u k => (v.uses.find? (fun r => r.tree == tree.toNat && r.use == u.toNat + k.toNat * x.1.idx)).map (fun r => (x.2, r))
    | _ => none)

/-- Instructions that touch a tile between the start of a reduction into it and the wait for its delivery. A use that no `WAITR` of its root's core
names has no such wait, and its destination tile may be touched: R150 speaks of the wait alone (the model's choice, notes/assumptions/16.md). -/
def touchedTiles (site : Nat) (l : List Issued) (before : List (Nat × RedUse)) (ws : List (Nat × RedUse)) : List Nat :=
  match ws with
  | [] => []
  | w :: t =>
    let start := match before.find? (fun b => usesOverlap b.2 w.2) with
      | some b => b.1 + 1
      | none => 0
    (((l.take w.1).drop start).filter (fun x => (ownTiles (x.ins site) x.idx).contains w.2.tile)).map (fun x => x.pc) ++
      touchedTiles site l (w :: before) t

/-- The trees whose root lies on a site. -/
def rootTrees (v : VariantTables) (site : Nat) : List Nat := (v.red.filter (fun n => n.site == site && n.parent == 0)).map (fun n => n.tree)

/-- Whether two uses deliver into one segment at a site with no wait between them: one of the two is never waited for. -/
def unwaitedPair (v : VariantTables) (site : Nat) (ws : List (Nat × RedUse)) : Bool :=
  let mine := v.uses.filter (fun u => (rootTrees v site).contains u.tree)
  mine.any (fun u => !ws.any (fun w => w.2 == u) && mine.any (fun r => r != u && usesOverlap u r))

/-- The outlier lists that an evaluation may read: of each array selected, those of the descriptors set before it, back to one set
without a predicate; where there is none, those that either program of the core sets may still stand. -/
def readLists (all : List DescF) (desc : List (DescF × Bool)) (f : EvalF) : List (Int × Nat) :=
  (List.range 18).flatMap (fun la =>
    if f.amask.getLsbD la then
      let mine := desc.filter (fun d => d.1.la.toNat == la)
      match mine.findIdx? (fun d => d.2) with
      | some k => ((mine.take (k + 1)).map (fun d => listSpan d.1))
      | none => (mine.map (fun d => listSpan d.1)) ++ (all.filter (fun d => d.la.toNat == la)).map listSpan
    else [])

/-- Instructions that arm a counter twice, arm overlapping ranges, or read or write an armed range before its wait (R177, R223). -/
def armedBad (site : Nat) (all : List DescF) (armed : List (Nat × (Int × Nat))) (desc : List (DescF × Bool)) (l : List Issued) : List Nat :=
  match l with
  | [] => []
  | x :: t =>
    match x.ins site with
    | .nrecv _ f =>
      let r : Int × Nat := (sAt f.spa.toNat f.sps.toNat 16 x.idx, 64 * (f.gm1.toNat + 1))
      (if armed.any (fun a => a.1 == f.sig.toNat || spansMeet a.2 r) then [x.pc] else []) ++
        armedBad site all ((f.sig.toNat, r) :: armed.filter (fun a => a.1 != f.sig.toNat)) desc t
    | .waits _ k => armedBad site all (armed.filter (fun a => a.1 != k.toNat)) desc t
    | .sdesc c f => armedBad site all armed ((f, c.pred == 0) :: desc) t
    | ins =>
      let lists := match ins with
        | .eval _ f => readLists all desc f
        | _ => []
      (if (coreSpans ins x.idx ++ lists).any (fun r => armed.any (fun a => spansMeet a.2 r)) then [x.pc] else []) ++
        armedBad site all armed desc t

/-- The descriptors that a program sets. -/
def StepProg.descs (p : StepProg) : List DescF :=
  p.words.filterMap (fun w =>
    match insOf p.site w with
    | .sdesc _ f => some f
    | _ => none)

/-- No tile is touched during its reduction, and no armed range before its wait. -/
def orderFails (im : Image) : List LoadFail :=
  (imageProgs im).flatMap (fun p =>
    let v := tablesOf im p.wide
    let l := p.issued
    let ws := waitsOf v l p.site
    let ws' := ws.filter (fun w => (rootTrees v p.site).contains w.2.tree)
    let all := ((imageProgs im).filter (fun q => q.site == p.site)).flatMap StepProg.descs
    failIf (unwaitedPair v p.site ws') p.site p.base stBadField ++
    (touchedTiles p.site l [] ws' ++ armedBad p.site all [] [] l).map (fun n => ⟨p.site, p.base + n, stBadField⟩))

/-! ### Tables (R28, R151, R152; eighth row) -/

/-- Whether a port of a router leads to a router or to a flight port that the shape uses (R152). -/
def portLeads (shape site port : Nat) : Bool :=
  match portHop site port with
  | some (.router _ _) => true
  | some (.flight p) => (portDir shape p).isSome
  | none => false

/-- Whether the node beyond a port of 1 to 4, where it lies on this device, agrees across it (R152). -/
def nodeAgrees (red : List RedNode) (n : RedNode) (port : Nat) (up : Bool) : Bool :=
  match portHop n.site port with
  | some (.router x q) => red.any (fun m => m.site == x && m.tree == n.tree && (if up then m.order.contains q else m.parent == q))
  | _ => true

/-- Whether an entry of a reduction table breaks R152 for itself. -/
def nodeBad (shape : Nat) (red : List RedNode) (n : RedNode) : Bool :=
  decide (nSites ≤ n.site ∨ 255 < n.tree ∨ 4 < n.parent) || n.order.isEmpty || !decide n.order.Nodup ||
  n.order.any (fun p => decide (4 < p)) || (n.parent != 0 && n.order.contains n.parent) ||
  (n.parent != 0 && (!portLeads shape n.site n.parent || !nodeAgrees red n n.parent true)) ||
  n.order.any (fun p => p != 0 && (!portLeads shape n.site p || !nodeAgrees red n p false))

/-- The climb from a node toward its root within the device: whether it has not ended after `fuel` nodes, which is a cycle. -/
def climbs (red : List RedNode) (fuel : Nat) (n : RedNode) : Bool :=
  match fuel with
  | 0 => true
  | fuel + 1 =>
    if n.parent = 0 then false
    else
      match portHop n.site n.parent with
      | some (.router x _) =>
        match red.find? (fun m => m.site == x && m.tree == n.tree) with
        | some m => climbs red fuel m
        | none => false
      | _ => false

/-- Whether a node's tree has a cycle or a second root on this device; what spans devices is checked at activation (R152, R172). -/
def treeBad (red : List RedNode) (n : RedNode) : Bool :=
  decide (1 < ((red.filter (fun m => m.tree == n.tree && m.parent == 0)).map (fun m => m.site)).eraseDups.length) || climbs red (nSites + 1) n

/-- Failures of a reduction table, each at its router and its entry there: entries that break R152, a second entry with a tag, a
33rd entry. -/
def redFails (shape : Nat) (red : List RedNode) : List LoadFail :=
  red.zipIdx.filterMap (fun n =>
    let before := (red.take n.2).filter (fun m => m.site == n.1.site)
    if nodeBad shape red n.1 || treeBad red n.1 || before.any (fun m => m.tree == n.1.tree) || decide (32 ≤ before.length) then
      some ⟨n.1.site % 1024, before.length, stBadField⟩
    else none)

/-- Whether a route's port suits its destination: another router; a flight port that the shape uses, for another device; the unit itself for a
memory or the host (R26, R28, R30); the local port, for the site itself. -/
def routeLeads (shape : Nat) (r : RouteEntry) : Bool :=
  match portNext r.site r.port, portUnit r.site r.port with
  | some _, _ => true
  | none, some (.flight p) => (portDir shape p).isSome && (match r.dest with
      | .device _ => true
      | _ => false)
  | none, some (.stack n) => r.dest == .stack n
  | none, some .host => r.dest == .host
  | none, some (.far n) => r.dest == .far n
  | none, none => r.port == 0 && r.dest == .site r.site

/-- Failures of a route table, each at its router and its entry there: a router, port or flow that does not exist, a port that does not lead
to the destination or to another router, a second entry for a destination. -/
def routeFails (shape : Nat) (rs : List RouteEntry) : List LoadFail :=
  rs.zipIdx.filterMap (fun r =>
    let before := (rs.take r.2).filter (fun q => q.site == r.1.site)
    if decide (nSites ≤ r.1.site ∨ 5 < r.1.port ∨ 4095 < r.1.flow) || !routeLeads shape r.1 || before.any (fun q => q.dest == r.1.dest) then
      some ⟨r.1.site % 1024, before.length, stBadField⟩
    else none)

/-- Reduction and route tables are well formed. -/
def State.tableFails (s : State) (im : Image) : List LoadFail :=
  let shape := s.rf Reg.FLK_FORM 0 0 1 0
  [im.normal, im.wide].flatMap (fun v => redFails shape v.red ++ routeFails shape v.routes)

/-! ### Lengths and capacities (ninth and tenth row) -/

/-- Lengths lie in range, and each program's static issue time fits within the length of its variant: one that does not fails at its
`BARRIER`. -/
def lengthFails (im : Image) : List LoadFail :=
  let h := im.head
  failIf (decide (h.lenNormal < 1250 ∨ 12500000 < h.lenNormal ∨ h.lenWide < 1250 ∨ 12500000 < h.lenWide)) noSite 0 stRange ++
  (imageProgs im).flatMap (fun p =>
    failIf (issuesLate p.site (if p.wide then h.lenWide else h.lenNormal) p.issued) p.site (p.base + (p.words.length - 1)) stRange)

/-- The `VROUTE` instructions of a program with their indices. -/
def StepProg.routings (p : StepProg) : List (Nat × RouteF) :=
  p.placed.filterMap (fun x =>
    match insOf p.site x.word with
    | .vroute _ f => some (x.pc, f)
    | _ => none)

/-- The capacity that the image records for the layer whose occupancy table lies at an address; 0 where it records none. -/
def capOf (im : Image) (site occ : Nat) : Nat :=
  match im.caps.find? (fun c => c.site == site && c.occ == occ) with
  | some c => c.cap
  | none => 0

/-- Capacities that could leave a token without `k` experts (R182). -/
def capFails (im : Image) : List LoadFail :=
  (imageProgs im).flatMap (fun p =>
    (p.routings.filter (fun r =>
      let n : Nat := ((p.routings.filter (fun q => q.2.occ == r.2.occ)).map (fun q => q.2.ntm1.toNat + 1)).sum
      let k : Nat := r.2.km1.toNat + 1
      let x : Nat := r.2.xm1.toNat + 1
      decide (((capOf im p.site r.2.occ.toNat : Nat) : Int) * ((x : Int) - k + 1) ≤ ((n : Int) - 1) * k))).map
      (fun r => ⟨p.site, p.base + r.1, stRange⟩))

/-! ### The other rules (last row) -/

/-- The slot plan (R270). -/
def planFails (plan : List PlanRun) : List LoadFail :=
  failIf (plan.isEmpty || decide (1024 < plan.length ∨ 1024 < (plan.map (fun r => r.len)).sum) ||
    !plan.any (fun r => r.prefill) || !plan.any (fun r => !r.prefill)) noSite 0 stBadField ++
  (plan.zipIdx.filter (fun r => decide (r.1.len = 0 ∨ 1024 < r.1.first + r.1.len ∨ 15 < r.1.inst) ||
    (plan.take r.2).any (fun q => decide (q.first < r.1.first + r.1.len ∧ r.1.first < q.first + q.len)))).map
    (fun r => ⟨noSite, r.2, stBadField⟩)

/-- A slot schedule of one port and variant (R303). -/
def slotListFails (l : List (SlotEntry × Nat)) : List LoadFail :=
  (l.zipIdx.filter (fun e =>
    decide (4096 ≤ e.2 ∨ 5 < e.1.1.port ∨ bitsOf e.1.1.word.toNat 63 58 ≠ 0 ∨ slotCount e.1.1 = 0 ∨ 5208334 < slotCount e.1.1 ∨
      5208333 < slotFirst e.1.1) ||
    (match (l.take e.2).getLast? with
      | some q => decide (slotFirst e.1.1 < slotFirst q.1 + slotCount q.1)
      | none => false))).map (fun e => ⟨noSite, e.1.2, stBadField⟩)

/-- Slot schedules. -/
def slotFails (l : List SlotEntry) : List LoadFail :=
  (List.range 6).flatMap (fun p => [false, true].flatMap (fun w =>
    slotListFails (l.zipIdx.filter (fun e => e.1.port == p && e.1.wide == w)))) ++
  (l.zipIdx.filter (fun e => decide (5 < e.1.port))).map (fun e => ⟨noSite, e.2, stBadField⟩)

/-- KV geometry (R230). -/
def geomFails (l : List LayerGeom) : List LoadFail :=
  (l.zipIdx.filter (fun g => decide ((g.1.heads * g.1.dim) % 256 ≠ 0 ∨ g.1.heads * g.1.dim = 0 ∨ 1024 < g.1.heads * g.1.dim))).map
    (fun g => ⟨noSite, g.2, stRange⟩)

/-- The layer and the page stride that an attention instruction on page sets carries (R228). -/
def layerStride (ins : Instr) : Option (Nat × Nat) :=
  match ins with
  | .attKvw _ f => some (f.layer.toNat, f.psm1.toNat + 1)
  | .attRun _ f _ => some (f.layer.toNat, f.psm1.toNat + 1)
  | .attRcmp _ f => some (f.layer.toNat, f.psm1.toNat + 1)
  | _ => none

/-- The strides of all attention instructions, with site and index. -/
def stridesOf (im : Image) : List ((Nat × Nat) × (Nat × Nat)) :=
  (imageProgs im).flatMap (fun p => p.placed.filterMap (fun x => (layerStride (insOf p.site x.word)).map (fun y => (y, (p.site, p.base + x.pc)))))

/-- Attention instructions of one layer that carry another stride than an earlier one, or than the layer's recorded one (R228). -/
def strideFails (im : Image) : List LoadFail :=
  let l := stridesOf im
  ((l.filter (fun y => im.geoms.any (fun g => g.layer == y.1.1 && g.stride != y.1.2) || l.any (fun z => z.1.1 == y.1.1 && z.1.2 != y.1.2 &&
    decide (z.2.1 < y.2.1 ∨ (z.2.1 = y.2.1 ∧ z.2.2 < y.2.2))))).map (fun y => ⟨y.2.1, y.2.2, stBadField⟩))

/-- Whether a program's instruction names bytes of an enabled secure window in a way that R372 forbids. -/
def windowUse (x : Placed) (site : Nat) : Bool :=
  let ins := insOf site x.word
  let spans := fun (i : Nat) =>
    match ins with
    | .nsend _ _ => coreSpans ins i
    | .mwr _ _ => coreSpans ins i
    | .sdesc _ f => [listSpan f]
    | y => netSpans y i
  x.steps.any (fun i => (spans i).any (fun r => spansMeet r ((windowBase : Nat), 0x10000)))

/-- The streamed-tile image that starts at an address (R201). -/
def streamAt (im : Image) (a : Int) : Option StreamPlace := im.streams.find? (fun x => decide ((x.addr : Int) = a))

/-- The fills of an array in issue order: index, image named, whether without a predicate. -/
def fillsOf (im : Image) (site la : Nat) (l : List Issued) : List (Option StreamPlace × Bool) :=
  l.filterMap (fun x =>
    match x.ins site with
    | .fill c f _ => if f.la.toNat = la then some (streamAt im (sAt f.mbase.toNat f.mstr.toNat 32 x.idx), c.pred == 0) else none
    | _ => none)

/-- Whether every fill of a list loads a tile of a width. -/
def allWidth (ww : Nat) (l : List (Option StreamPlace × Bool)) : Bool := l.all (fun x => x.1.map (fun y => y.ww) == some ww)

/-- Whether the width of an evaluation agrees with the fills before it, newest first, and where all of those carry a predicate or
there is none, with every fill of the array in both programs (R503). -/
def streamWidthOk (ww : Nat) (before every : List (Option StreamPlace × Bool)) : Bool :=
  match before.findIdx? (fun x => x.2) with
  | some k => allWidth ww (before.take (k + 1))
  | none => allWidth ww before && allWidth ww every

/-- Whether a descriptor names another width than the tile's, or a list that is not placed for it (R202); no tile has no list. -/
def descBad (im : Image) (site : Nat) (l : List Issued) (f : DescF) : Bool :=
  let fits := fun (ww oaddr ocount : Nat) => ww == f.ww.toNat && (f.ocount == 0 || (oaddr == f.oaddr.toNat && ocount == f.ocount.toNat))
  if f.la.toNat < 16 then
    match placedTile im site f.la.toNat with
    | some t => !fits t.ww t.oaddr t.ocount
    | none => f.ocount != 0
  else
    let tiles := (fillsOf im site f.la.toNat l).filterMap (fun x => x.1)
    if tiles.isEmpty then f.ocount != 0 else !tiles.any (fun y => fits y.ww y.oaddr y.ocount)

/-- Whether an issued instruction breaks a rule on the placement section or a table: R196, R201, R202, R205, R221, R503. -/
def placeBad (im : Image) (p : StepProg) (l : List Issued) (exit : Bool) (x : Issued) (n : Nat) : Bool :=
  let v := tablesOf im p.wide
  match x.ins p.site with
  | .waitr _ tree _ _ => !(rootTrees v p.site).contains tree.toNat
  | .fill _ f _ => (streamAt im (sAt f.mbase.toNat f.mstr.toNat 32 x.idx)).isNone
  | .sdesc _ f => descBad im p.site l f
  | .rsend _ f =>
    !v.uses.any (fun u => u.tree == f.tree.toNat && u.use == f.use.toNat + f.ustep.toNat * x.idx && u.tile == accDst f x.idx &&
      u.seg == 64 * f.segq.toNat && u.flits == f.flm1.toNat + 1)
  | .brgEmit _ _ => !exit
  | .eval _ f =>
    [16, 17].any (fun la => f.amask.getLsbD la &&
      !streamWidthOk f.ww.toNat (fillsOf im p.site la (l.take n)).reverse
        (((imageProgs im).filter (fun q => q.site == p.site)).flatMap (fun q => fillsOf im p.site la q.issued)))
  | _ => false

/-- The `VROUTE`s of a program in issue order whose layer's slots are not disjoint and ascending, or whose layer carries another X or k
(R182, R212). -/
def routingBad (site : Nat) (seen : List RouteF) (l : List Issued) : List Nat :=
  match l with
  | [] => []
  | x :: t =>
    match x.ins site with
    | .vroute _ f =>
      let mine := seen.filter (fun g => g.occ == f.occ)
      (if mine.any (fun g => g.xm1 != f.xm1 || g.km1 != f.km1 || decide (f.t0.toNat < g.t0.toNat + g.ntm1.toNat + 1)) then [x.pc] else []) ++
        routingBad site (f :: seen) t
    | _ => routingBad site seen t

/-- Recorded uses (R205): one destination each, within a tile. -/
def useFails (us : List RedUse) : List LoadFail :=
  (us.zipIdx.filter (fun u => (us.take u.2).any (fun w => w.tree == u.1.tree && w.use == u.1.use && w != u.1))).map
    (fun u => ⟨noSite, u.2, stBadField⟩) ++
  (us.zipIdx.filter (fun u => decide (127 < u.1.tile ∨ u.1.seg % 64 ≠ 0 ∨ 8 < u.1.seg / 64 + u.1.flits ∨ u.1.flits = 0))).map
    (fun u => ⟨noSite, u.2, stRange⟩)

/-- The enabled cores that the image records for a device. -/
def coresOn (im : Image) (dev : Nat) : Nat :=
  match im.devs.find? (fun d => d.dev == dev) with
  | some d => d.enabled
  | none => 0

/-- Every other condition under which a rule rejects an image. -/
def State.otherFails (s : State) (im : Image) : List LoadFail :=
  planFails im.plan ++ slotFails im.slots ++ geomFails im.geoms ++ strideFails im ++ useFails im.normal.uses ++ useFails im.wide.uses ++
  (imageProgs im).flatMap (fun p =>
    let l := p.issued
    p.failsOf stRange (rangeBad im.head.flightSize (coresOn im) p.site) ++
    (if s.rf Reg.SPM_SECURE p.site 0 0 0 = 1 then p.failsOf stBadField (fun x => windowUse x p.site) else []) ++
    ((l.zipIdx.filter (fun x => placeBad im p l (im.head.exit == s.devNo) x.1 x.2)).map (fun x => x.1.pc) ++ routingBad p.site [] l).map
      (fun n => ⟨p.site, p.base + n, stBadField⟩))

/-! ### Fences and failed memory (R419) -/

/-- Whether a range of device memory touches a stack or channel in `FAILED`. -/
def State.deadSpan (s : State) (r : Int × Nat) : Bool :=
  let a := r.1.toNat
  (List.range (r.2 / 4096 + 1)).any (fun k => s.dead (a + 4096 * k)) || s.dead (a + r.2 - 1)

/-- Work on fenced sites, routes and nodes in fenced routers, transfers to failed memory. -/
def State.fenceFails (s : State) (im : Image) : List LoadFail :=
  let state := fun site => s.rf Reg.RTR_FENCE site 0 1 0
  im.cores.flatMap (fun c => failIf (state c.site != 0) c.site 0 stFenced) ++
  (imageProgs im).flatMap (fun p =>
    (if s.anyDead then (p.issued.filter (fun x => (memSpans (x.ins p.site) x.idx).any s.deadSpan)).map (fun x => ⟨p.site, p.base + x.pc, stFenced⟩)
      else [])) ++
  [im.normal, im.wide].flatMap (fun v =>
    (v.red.filter (fun n => state n.site == 2)).map (fun n => ⟨n.site, 0, stFenced⟩) ++
    (v.routes.filter (fun r => state r.site == 2)).map (fun r => ⟨r.site, 0, stFenced⟩))

/-! ### The verdict -/

/-- The rows of *Load-time checks* in table order, then R419. -/
def State.loadRows (s : State) (im : Image) : List (List LoadFail) :=
  let progs := imageProgs im
  [ s.formatFails im.head,
    s.headFails im.head,
    progs.flatMap (fun p => p.failsOf stBadField (encodingBad im.head.format p.site)),
    progs.flatMap (fun p => p.failsOf stRange (indexBad p.site)),
    structFails im,
    widthFails im,
    orderFails im,
    s.tableFails im,
    lengthFails im,
    capFails im,
    s.otherFails im,
    s.fenceFails im ]

/-- The failure that a validation reports, if there is one. -/
def State.loadFail (s : State) (im : Image) : Option LoadFail := firstRow (s.loadRows im)

/-- `SCHED_VALIDATION_DONE` (R171): a valid image becomes the staged schedule; a rejected one changes nothing but what reports it. -/
def execSchedValidationDone (img : Image) (s : State) : Out :=
  match s.jobs.validate with
  | none => .next s
  | some r =>
    let t : State := { s with jobs := { s.jobs with validate := none } }
    let t := t.updArea 0 (fun a => { a with busy := false })
    match s.loadFail img with
    | some f =>
      finish (((t.setReg Reg.WGT_SCHED_STATE 0 0 (f.status * 2 ^ 8 + 3)).setReg Reg.WGT_SCHED_ERR 0 0 (f.site * 2 ^ 16 + f.idx % 2 ^ 14)).answer
        r f.status [])
    | none =>
      let t : State := { t with sched := { t.sched with staged := some img } }
      finish (((t.setReg Reg.WGT_SCHED_STATE 0 0 2).setReg Reg.WGT_SCHED_STAGED_TAG 0 0 img.head.tag).answer r stOk [])

end Sys2Proof.Machine
end

