-- ==== Sys2Proof/Machine/Dispatch.lean ====
section
/-! DEFINITION. One arm per command: the command's effect on everything but the queue. -/

namespace Sys2Proof.Machine

/-- The effect of a command. -/
def exec (i : Instr) (s : State) : Host.Outcome State Fault Refusal :=
  match i with
  | .regRead h addr count => Sys2Proof.Machine.execRegRead h addr count s
  | .regWrite h addr count words => Sys2Proof.Machine.execRegWrite h addr count words s
  | .stageOpen h kind size => Sys2Proof.Machine.execStageOpen h kind size s
  | .stageData h kind offset bytes => Sys2Proof.Machine.execStageData h kind offset bytes s
  | .stageClose h kind digest => Sys2Proof.Machine.execStageClose h kind digest s
  | .form h => Sys2Proof.Machine.execForm h s
  | .formationTrainTimeout => Sys2Proof.Machine.execFormationTrainTimeout s
  | .schedValidate h => Sys2Proof.Machine.execSchedValidate h s
  | .schedValidationDone img => Sys2Proof.Machine.execSchedValidationDone img s
  | .schedActivate h tag lockage => Sys2Proof.Machine.execSchedActivate h tag lockage s
  | .pkgLoad h gen shard => Sys2Proof.Machine.execPkgLoad h gen shard s
  | .pkgLoadDone pkg => Sys2Proof.Machine.execPkgLoadDone pkg s
  | .genDiscard h slot => Sys2Proof.Machine.execGenDiscard h slot s
  | .genCommit h gen mode mask timeout tagValid tag => Sys2Proof.Machine.execGenCommit h gen mode mask timeout tagValid tag s
  | .drainTimeout => Sys2Proof.Machine.execDrainTimeout s
  | .waveStart run => Sys2Proof.Machine.execWaveStart run s
  | .wavePreconditionRecheck die => Sys2Proof.Machine.execWavePreconditionRecheck die s
  | .progWaitTimeout die => Sys2Proof.Machine.execProgWaitTimeout die s
  | .arrayProgramDone site arr fails => Sys2Proof.Machine.execArrayProgramDone site arr fails s
  | .spareTileStep site run => Sys2Proof.Machine.execSpareTileStep site run s
  | .arrayMaint h lcore la action => Sys2Proof.Machine.execArrayMaint h lcore la action s
  | .maintCopyDone copy => Sys2Proof.Machine.execMaintCopyDone copy s
  | .maintStep3Done cal run => Sys2Proof.Machine.execMaintStep3Done cal run s
  | .submit h f prompt => Sys2Proof.Machine.execSubmit h f prompt s
  | .cancel h index => Sys2Proof.Machine.execCancel h index s
  | .park h index => Sys2Proof.Machine.execPark h index s
  | .resume h index => Sys2Proof.Machine.execResume h index s
  | .prefixMap h donor recipient p => Sys2Proof.Machine.execPrefixMap h donor recipient p s
  | .trim h index t => Sys2Proof.Machine.execTrim h index t s
  | .release h index => Sys2Proof.Machine.execRelease h index s
  | .varLoad h index gen layers length data => Sys2Proof.Machine.execVarLoad h index gen layers length data s
  | .varUnload h index => Sys2Proof.Machine.execVarUnload h index s
  | .power h state => Sys2Proof.Machine.execPower h state s
  | .powerStateEntry => Sys2Proof.Machine.execPowerStateEntry s
  | .elapsed h seconds => Sys2Proof.Machine.execElapsed h seconds s
  | .calibrate h scope site => Sys2Proof.Machine.execCalibrate h scope site s
  | .calibrationDone cals bandgap => Sys2Proof.Machine.execCalibrationDone cals bandgap s
  | .fence h site kind => Sys2Proof.Machine.execFence h site kind s
  | .selfTest h site unit => Sys2Proof.Machine.execSelfTest h site unit s
  | .sluiceSelfTestDone site pass => Sys2Proof.Machine.execSluiceSelfTestDone site pass s
  | .sigRead h first count => Sys2Proof.Machine.execSigRead h first count s
  | .attest h nonce => Sys2Proof.Machine.execAttest h nonce s
  | .lifecycle h r => Sys2Proof.Machine.execLifecycle h r s
  | .fwInstall h img => Sys2Proof.Machine.execFwInstall h img s
  | .fwInstallDone readBackOk => Sys2Proof.Machine.execFwInstallDone readBackOk s
  | .vx20Request h r prompt => Sys2Proof.Machine.execVx20Request h r prompt s
  | .vx20Abort h request => Sys2Proof.Machine.execVx20Abort h request s
  | .vx20RegRead h addr count => Sys2Proof.Machine.execVx20RegRead h addr count s
  | .hello m => Sys2Proof.Machine.execHello m s
  | .confirm session sA => Sys2Proof.Machine.execConfirm session sA s
  | .confirmTimeout session => Sys2Proof.Machine.execConfirmTimeout session s
  | .data m tag payload => Sys2Proof.Machine.execData m tag payload s
  | .ack m tag => Sys2Proof.Machine.execAck m tag s
  | .probe m tag => Sys2Proof.Machine.execProbe m tag s
  | .close m tag payload => Sys2Proof.Machine.execClose m tag payload s
  | .ackTimer session stream => Sys2Proof.Machine.execAckTimer session stream s
  | .retransmitTimeout session stream seq => Sys2Proof.Machine.execRetransmitTimeout session stream seq s
  | .idleTimeout session => Sys2Proof.Machine.execIdleTimeout session s
  | .linkHoldTimeout => Sys2Proof.Machine.execLinkHoldTimeout s
  | .hostFrameReceive f => Sys2Proof.Machine.execHostFrameReceive f s
  | .neighborSolicitation target => Sys2Proof.Machine.execNeighborSolicitation target s
  | .echoRequest dst => Sys2Proof.Machine.execEchoRequest dst s
  | .hostLaneFailure lane => Sys2Proof.Machine.execHostLaneFailure lane s
  | .hostLinkDown => Sys2Proof.Machine.execHostLinkDown s
  | .aryConvRotWrite site => Sys2Proof.Machine.execAryConvRotWrite site s
  | .flkHaltReqWrite => Sys2Proof.Machine.execFlkHaltReqWrite s
  | .fclChipResetWrite key => Sys2Proof.Machine.execFclChipResetWrite key s
  | .pendingClear n => Sys2Proof.Machine.execPendingClear n s
  | .fclSrcCfgWrite n value => Sys2Proof.Machine.execFclSrcCfgWrite n value s
  | .fclSigEraseWrite n => Sys2Proof.Machine.execFclSigEraseWrite n s
  | .hptRetrainWrite => Sys2Proof.Machine.execHptRetrainWrite s
  | .spmPwrWrite site mode => Sys2Proof.Machine.execSpmPwrWrite site mode s
  | .marchDestructive site => Sys2Proof.Machine.execMarchDestructive site s
  | .marchPreserving site => Sys2Proof.Machine.execMarchPreserving site s
  | .marchTestDone site fails => Sys2Proof.Machine.execMarchTestDone site fails s
  | .hkaQueueRead => Sys2Proof.Machine.execHkaQueueRead s
  | .errorCounterRead addr => Sys2Proof.Machine.execErrorCounterRead addr s
  | .registerWrite addr value => Sys2Proof.Machine.execRegisterWrite addr value s
  | .nop c => Sys2Proof.Machine.execNop c s
  | .loop c trip body => Sys2Proof.Machine.execLoop c trip body s
  | .barrier c => Sys2Proof.Machine.execBarrier c s
  | .wopen c => Sys2Proof.Machine.execWopen c s
  | .wclose c => Sys2Proof.Machine.execWclose c s
  | .waits c k => Sys2Proof.Machine.execWaits c k s
  | .waitr c tree use ustep => Sys2Proof.Machine.execWaitr c tree use ustep s
  | .lidx c gd => Sys2Proof.Machine.execLidx c gd s
  | .sysv c gd index => Sys2Proof.Machine.execSysv c gd index s
  | .li c gd imm => Sys2Proof.Machine.execLi c gd imm s
  | .add c gd ga gb => Sys2Proof.Machine.execAdd c gd ga gb s
  | .addi c gd ga imm => Sys2Proof.Machine.execAddi c gd ga imm s
  | .sub c gd ga gb => Sys2Proof.Machine.execSub c gd ga gb s
  | .mul c gd ga gb => Sys2Proof.Machine.execMul c gd ga gb s
  | .and c gd ga gb => Sys2Proof.Machine.execAnd c gd ga gb s
  | .or c gd ga gb => Sys2Proof.Machine.execOr c gd ga gb s
  | .xor c gd ga gb => Sys2Proof.Machine.execXor c gd ga gb s
  | .shl c gd ga sh => Sys2Proof.Machine.execShl c gd ga sh s
  | .shr c gd ga sh => Sys2Proof.Machine.execShr c gd ga sh s
  | .sar c gd ga sh => Sys2Proof.Machine.execSar c gd ga sh s
  | .cmp c pd ga gb fn => Sys2Proof.Machine.execCmp c pd ga gb fn s
  | .cmpi c pd ga imm fn => Sys2Proof.Machine.execCmpi c pd ga imm fn s
  | .plog c pd pa pb fn => Sys2Proof.Machine.execPlog c pd pa pb fn s
  | .eval c f => Sys2Proof.Machine.execEval c f s
  | .fill c f tagFails => Sys2Proof.Machine.execFill c f tagFails s
  | .fillDone site la => Sys2Proof.Machine.execFillDone site la s
  | .sdesc c f => Sys2Proof.Machine.execSdesc c f s
  | .aclr c f => Sys2Proof.Machine.execAclr c f s
  | .amrg c f => Sys2Proof.Machine.execAmrg c f s
  | .aaddv c f => Sys2Proof.Machine.execAaddv c f s
  | .asetv c f => Sys2Proof.Machine.execAsetv c f s
  | .aldv c f => Sys2Proof.Machine.execAldv c f s
  | .astv c f => Sys2Proof.Machine.execAstv c f s
  | .alds c f => Sys2Proof.Machine.execAlds c f s
  | .asts c f => Sys2Proof.Machine.execAsts c f s
  | .ares c f => Sys2Proof.Machine.execAres c f s
  | .rsend c f => Sys2Proof.Machine.execRsend c f s
  | .vadd c f => Sys2Proof.Machine.execVadd c f s
  | .vsub c f => Sys2Proof.Machine.execVsub c f s
  | .vmul c f => Sys2Proof.Machine.execVmul c f s
  | .vfma c f => Sys2Proof.Machine.execVfma c f s
  | .vmax c f => Sys2Proof.Machine.execVmax c f s
  | .vmin c f => Sys2Proof.Machine.execVmin c f s
  | .vadds c f => Sys2Proof.Machine.execVadds c f s
  | .vmuls c f => Sys2Proof.Machine.execVmuls c f s
  | .vabs c f => Sys2Proof.Machine.execVabs c f s
  | .vneg c f => Sys2Proof.Machine.execVneg c f s
  | .vcvt c f => Sys2Proof.Machine.execVcvt c f s
  | .vexp c f => Sys2Proof.Machine.execVexp c f s
  | .vrcp c f => Sys2Proof.Machine.execVrcp c f s
  | .vrsq c f => Sys2Proof.Machine.execVrsq c f s
  | .vsilu c f => Sys2Proof.Machine.execVsilu c f s
  | .vsigm c f => Sys2Proof.Machine.execVsigm c f s
  | .vsum c f => Sys2Proof.Machine.execVsum c f s
  | .vmaxr c f => Sys2Proof.Machine.execVmaxr c f s
  | .vtopk c f => Sys2Proof.Machine.execVtopk c f s
  | .vrms c f => Sys2Proof.Machine.execVrms c f s
  | .vrope c f => Sys2Proof.Machine.execVrope c f s
  | .vhad c f => Sys2Proof.Machine.execVhad c f s
  | .vqnt c f => Sys2Proof.Machine.execVqnt c f s
  | .vbc c f => Sys2Proof.Machine.execVbc c f s
  | .vroute c f => Sys2Proof.Machine.execVroute c f s
  | .ldv c f => Sys2Proof.Machine.execLdv c f s
  | .stv c f => Sys2Proof.Machine.execStv c f s
  | .ldg c f => Sys2Proof.Machine.execLdg c f s
  | .stg c f => Sys2Proof.Machine.execStg c f s
  | .copy c f => Sys2Proof.Machine.execCopy c f s
  | .mrd c f => Sys2Proof.Machine.execMrd c f s
  | .mwr c f => Sys2Proof.Machine.execMwr c f s
  | .mgath c f => Sys2Proof.Machine.execMgath c f s
  | .nrecv c f => Sys2Proof.Machine.execNrecv c f s
  | .nsend c f => Sys2Proof.Machine.execNsend c f s
  | .attKvw c f => Sys2Proof.Machine.execAttKvw c f s
  | .attRun c f tagFails => Sys2Proof.Machine.execAttRun c f tagFails s
  | .attMrg c f => Sys2Proof.Machine.execAttMrg c f s
  | .attFin c f => Sys2Proof.Machine.execAttFin c f s
  | .attRcmp c f => Sys2Proof.Machine.execAttRcmp c f s
  | .brgSlot c f => Sys2Proof.Machine.execBrgSlot c f s
  | .brgInfo c f => Sys2Proof.Machine.execBrgInfo c f s
  | .brgVar c f => Sys2Proof.Machine.execBrgVar c f s
  | .brgSamp c f => Sys2Proof.Machine.execBrgSamp c f s
  | .brgAcpt c f => Sys2Proof.Machine.execBrgAcpt c f s
  | .brgEmit c f => Sys2Proof.Machine.execBrgEmit c f s
  | .sluiceCorrection site codes checkDelta => Sys2Proof.Machine.execSluiceCorrection site codes checkDelta s
  | .masterColumnArrival site arr poisoned => Sys2Proof.Machine.execMasterColumnArrival site arr poisoned s
  | .arbitrationStart site => Sys2Proof.Machine.execArbitrationStart site s
  | .peerCheck site poisoned checkDelta => Sys2Proof.Machine.execPeerCheck site poisoned checkDelta s
  | .arbitrationVerdict site codes => Sys2Proof.Machine.execArbitrationVerdict site codes s
  | .spareProgramDone site arr => Sys2Proof.Machine.execSpareProgramDone site arr s
  | .convHandover site arr relieved => Sys2Proof.Machine.execConvHandover site arr relieved s
  | .netPacketArrival site p => Sys2Proof.Machine.execNetPacketArrival site p s
  | .reductionFlitArrival site port f => Sys2Proof.Machine.execReductionFlitArrival site port f s
  | .barrierArrivalSend => Sys2Proof.Machine.execBarrierArrivalSend s
  | .barrierForwardDeadline => Sys2Proof.Machine.execBarrierForwardDeadline s
  | .rootDecision => Sys2Proof.Machine.execRootDecision s
  | .barrierCutoff => Sys2Proof.Machine.execBarrierCutoff s
  | .releaseReceive r => Sys2Proof.Machine.execReleaseReceive r s
  | .barrierLost => Sys2Proof.Machine.execBarrierLost s
  | .lockageBoundary => Sys2Proof.Machine.execLockageBoundary s
  | .spillCopyDone barge layer page => Sys2Proof.Machine.execSpillCopyDone barge layer page s
  | .restoreCopyDone barge layer page tagFails => Sys2Proof.Machine.execRestoreCopyDone barge layer page tagFails s
  | .graceQuantumEnd => Sys2Proof.Machine.execGraceQuantumEnd s
  | .collectorCopyMismatch => Sys2Proof.Machine.execCollectorCopyMismatch s
  | .signatureCommit => Sys2Proof.Machine.execSignatureCommit s
  | .cpMismatch pair => Sys2Proof.Machine.execCpMismatch pair s
  | .cpSelfTestDone pair pass0 pass1 => Sys2Proof.Machine.execCpSelfTestDone pair pass0 pass1 s
  | .cpPeriodicSelfTest pair pass => Sys2Proof.Machine.execCpPeriodicSelfTest pair pass s
  | .flightFrameReceive port f => Sys2Proof.Machine.execFlightFrameReceive port f s
  | .controlMessageReceive port m => Sys2Proof.Machine.execControlMessageReceive port m s
  | .controlRetransmit m => Sys2Proof.Machine.execControlRetransmit m s
  | .laneCorrectionCheck port lane corrected => Sys2Proof.Machine.execLaneCorrectionCheck port lane corrected s
  | .laneLockLoss port lane => Sys2Proof.Machine.execLaneLockLoss port lane s
  | .timeBaseCorrection x => Sys2Proof.Machine.execTimeBaseCorrection x s
  | .digestRoundStart => Sys2Proof.Machine.execDigestRoundStart s
  | .digestReady ready => Sys2Proof.Machine.execDigestReady ready s
  | .digestCompare msgs => Sys2Proof.Machine.execDigestCompare msgs s
  | .boot selfTestOk fwOk img failStacks failChannels marchFails external badRecord => Sys2Proof.Machine.execBoot selfTestOk fwOk img failStacks failChannels marchFails external badRecord s
  | .pwrEnRise => Sys2Proof.Machine.execPwrEnRise s
  | .pwrEnFall => Sys2Proof.Machine.execPwrEnFall s
  | .resetNAssert => Sys2Proof.Machine.execResetNAssert s
  | .resetNRelease => Sys2Proof.Machine.execResetNRelease s
  | .vinInRange => Sys2Proof.Machine.execVinInRange s
  | .vinUndervoltage => Sys2Proof.Machine.execVinUndervoltage s
  | .vinOvervoltage => Sys2Proof.Machine.execVinOvervoltage s
  | .pwmSyncLock khz => Sys2Proof.Machine.execPwmSyncLock khz s
  | .pwmSyncLoss => Sys2Proof.Machine.execPwmSyncLoss s
  | .tamper cause => Sys2Proof.Machine.execTamper cause s
  | .rngHealthFail => Sys2Proof.Machine.execRngHealthFail s
  | .systemScan sc => Sys2Proof.Machine.execSystemScan sc s
  | .hkaTimerTrigger samples pending => Sys2Proof.Machine.execHkaTimerTrigger samples pending s
  | .hkaPwmTrigger samples pending => Sys2Proof.Machine.execHkaPwmTrigger samples pending s
  | .hkaStageRotation pass => Sys2Proof.Machine.execHkaStageRotation pass s
  | .diodeCheck => Sys2Proof.Machine.execDiodeCheck s
  | .ageTick => Sys2Proof.Machine.execAgeTick s
  | .ageRecordCommit => Sys2Proof.Machine.execAgeRecordCommit s
  | .ageEstimation gains => Sys2Proof.Machine.execAgeEstimation gains s
  | .calStatsFit site arr col => Sys2Proof.Machine.execCalStatsFit site arr col s
  | .calBatchCommit badReadBack => Sys2Proof.Machine.execCalBatchCommit badReadBack s
  | .holdupCapMeasure uf => Sys2Proof.Machine.execHoldupCapMeasure uf s
  | .patrolScrub r addr err => Sys2Proof.Machine.execPatrolScrub r addr err s
  | .blockReloadDone slot k e => Sys2Proof.Machine.execBlockReloadDone slot k e s
  | .stackFailure stack => Sys2Proof.Machine.execStackFailure stack s
  | .channelFailure channel => Sys2Proof.Machine.execChannelFailure channel s
  | .hostLinkUp pmd => Sys2Proof.Machine.execHostLinkUp pmd s
  | .flightPortTrained port peerDev peerPort peer cap root => Sys2Proof.Machine.execFlightPortTrained port peerDev peerPort peer cap root s
  | .rngHealthRecovery => Sys2Proof.Machine.execRngHealthRecovery s

end Sys2Proof.Machine
end

