-- ==== Sys2Proof/Safety.lean ====
section
/-! DEFINITION. The terms in which claims about the machine are made: when a command has its effect, and what a next state may change.
-/

namespace Sys2Proof.Machine

/-! ### When a command has its effect -/

/-- No reaction of the fault collector waits to be carried out (R406, R407, R411). -/
def State.calm (s : State) : Prop := s.fcl.hostReset = false ∧ s.fcl.chipReset = false ∧ s.fcl.safeReq = false

/-- The core issues, and the instruction's predicate lets it run (R190, R192). -/
def State.runs (s : State) (x : Issue) : Prop := s.canIssue x.site = true ∧ (s.core x.site).on x.pred = true

/-- The core issues, and the instruction is predicated off (R169). -/
def State.predOff (s : State) (x : Issue) : Prop := s.canIssue x.site = true ∧ (s.core x.site).on x.pred = false

/-- No evaluation in flight or in the array unit's queue delivers into a tile of the list (R179). -/
def Core.tilesFree (c : Core) (l : List Nat) : Prop := l.any c.tileBusy = false

/-- The head of the array unit's queue must wait (R68, R179, R192): a fill behind another of its array or behind an evaluation of it, an evaluation
that has counted its stall behind a fill, or one behind an evaluation that delivers into its tile. -/
def Core.headWaits (c : Core) : Bool :=
  match c.arrQ with
  | .fill _ w :: _ => (c.arr w.phys).fill.isSome || c.evals.any (fun e => e.selects w.phys)
  | .eval _ e :: _ => if (c.filling e).isEmpty then c.evals.any (fun b => b.tile == e.tile) else e.stalled
  | _ => false

/-- The session `x` of a command is open, no other command stands next in its stream, and the command passes every shared check (R391, R392, R396,
R411, R424, R477). -/
def State.accepts (s : State) (h : Hdr) (r : CmdRow) (recov enc range : Bool) (x : Session) : Prop :=
  s.session h.session = some x ∧ x.isOpen = true ∧ x.isNext r.op h.tag = true ∧ s.precheck (x.take h.tag) r recov enc range = none

/-- The state in which a command has been taken from its session's stream. -/
def State.taken (s : State) (h : Hdr) : State := s.updSession h.session (fun y => y.take h.tag)

/-- The answer to a command of the header `h` and the opcode `op`. -/
def replyTo (h : Hdr) (op : Nat) : Reply := { session := h.session, op := op, tag := h.tag }

/-! ### Instructions -/

/-- The common fields of an instruction other than `RSEND`, which sends its packet even when it is predicated off (R169). -/
def issueOf (i : Instr) : Option Issue :=
  match i with
  | .nop x => some x
  | .loop x _ _ => some x
  | .barrier x => some x
  | .wopen x => some x
  | .wclose x => some x
  | .waits x _ => some x
  | .waitr x _ _ _ => some x
  | .lidx x _ => some x
  | .sysv x _ _ => some x
  | .li x _ _ => some x
  | .add x _ _ _ => some x
  | .addi x _ _ _ => some x
  | .sub x _ _ _ => some x
  | .mul x _ _ _ => some x
  | .and x _ _ _ => some x
  | .or x _ _ _ => some x
  | .xor x _ _ _ => some x
  | .shl x _ _ _ => some x
  | .shr x _ _ _ => some x
  | .sar x _ _ _ => some x
  | .cmp x _ _ _ _ => some x
  | .cmpi x _ _ _ _ => some x
  | .plog x _ _ _ _ => some x
  | .eval x _ => some x
  | .fill x _ _ => some x
  | .sdesc x _ => some x
  | .aclr x _ => some x
  | .amrg x _ => some x
  | .aaddv x _ => some x
  | .asetv x _ => some x
  | .aldv x _ => some x
  | .astv x _ => some x
  | .alds x _ => some x
  | .asts x _ => some x
  | .ares x _ => some x
  | .vadd x _ => some x
  | .vsub x _ => some x
  | .vmul x _ => some x
  | .vfma x _ => some x
  | .vmax x _ => some x
  | .vmin x _ => some x
  | .vadds x _ => some x
  | .vmuls x _ => some x
  | .vabs x _ => some x
  | .vneg x _ => some x
  | .vcvt x _ => some x
  | .vexp x _ => some x
  | .vrcp x _ => some x
  | .vrsq x _ => some x
  | .vsilu x _ => some x
  | .vsigm x _ => some x
  | .vsum x _ => some x
  | .vmaxr x _ => some x
  | .vtopk x _ => some x
  | .vrms x _ => some x
  | .vrope x _ => some x
  | .vhad x _ => some x
  | .vqnt x _ => some x
  | .vbc x _ => some x
  | .vroute x _ => some x
  | .ldv x _ => some x
  | .stv x _ => some x
  | .ldg x _ => some x
  | .stg x _ => some x
  | .copy x _ => some x
  | .mrd x _ => some x
  | .mwr x _ => some x
  | .mgath x _ => some x
  | .nrecv x _ => some x
  | .nsend x _ => some x
  | .attKvw x _ => some x
  | .attRun x _ _ => some x
  | .attMrg x _ => some x
  | .attFin x _ => some x
  | .attRcmp x _ => some x
  | .brgSlot x _ => some x
  | .brgInfo x _ => some x
  | .brgVar x _ => some x
  | .brgSamp x _ => some x
  | .brgAcpt x _ => some x
  | .brgEmit x _ => some x
  | _ => none

/-! ### What a next state may change -/

/-- The stored word at a register address, as a lookup. -/
def State.word (s : State) (addr : Nat) : Option (BitVec 64) := s.regs.lookup addr

/-- The outcome is a next state in which the core of `site` is `c`; nothing else of the device has changed. -/
def CoreIs (o : Out) (s : State) (site : Nat) (c : Core) : Prop :=
  ∃ t : State, o = .next t ∧ t = { s with cores := t.cores } ∧ (∀ k, k ≠ site → t.core k = s.core k) ∧ t.core site = c

/-- The outcome is a next state in which the core of `site` is `c`, moved on to its next instruction; nothing else has changed. -/
def CoreNext (o : Out) (s : State) (site : Nat) (c : Core) : Prop := CoreIs o s site c.advance

/-- As `CoreNext`, and the error counter (f, i, j), which has room for them, has counted `n` more. -/
def CountNext (o : Out) (s : State) (site : Nat) (c : Core) (f : RegFam) (i j n : Nat) : Prop :=
  ∃ t : State, o = .next t ∧ t = { s with cores := t.cores, regs := t.regs } ∧ (∀ k, k ≠ site → t.core k = s.core k) ∧
    t.core site = c.advance ∧ t.reg f i j = s.reg f i j + n ∧ ∀ a, a ≠ f.addr i j → t.word a = s.word a

/-- The error counter (f, i, j) takes `n` more without reaching its largest value (R412). -/
def State.room (s : State) (f : RegFam) (i j n : Nat) : Prop := s.rf f i j 30 0 + n < 0x7FFFFFFF

/-- `t` is `s` but for the registers at the addresses of the list. -/
def OnlyRegs (s t : State) (l : List Nat) : Prop := t = { s with regs := t.regs } ∧ ∀ a, a ∉ l → t.word a = s.word a

/-- The memories of a core stand in their canonical form. -/
def Core.canonical (c : Core) : Prop :=
  Mem.wf c.spm = true ∧ Mem.wf c.v = true ∧ Mem.wf c.tiles = true ∧ ∀ a, Mem.wf (c.arr a).cells = true

/-- Every memory stands in its canonical form, and there are three staging areas, two generation slots and six flight ports. -/
def State.wellShaped (s : State) : Prop :=
  Mem.wf s.mem = true ∧ (∀ k, (s.core k).canonical) ∧ s.hpt.areas.length = 3 ∧ s.gens.length = 2 ∧ s.flt.ports.length = 6

/-! ### Raises -/

/-- The reaction masks of the sources of the list, and of the two sources that a full counter or a full buffer raises, ask for no reset
and not for the safe state (R404). -/
def State.mild (s : State) (l : List Nat) : Prop :=
  ∀ n ∈ 0 :: 1 :: l, (s.rf Reg.FCL_SRCn_CFG 0 n 15 8).testBit 2 = false ∧ (s.rf Reg.FCL_SRCn_CFG 0 n 15 8).testBit 3 = false ∧
    (s.rf Reg.FCL_SRCn_CFG 0 n 15 8).testBit 7 = false

/-- `t` is `s` after a raise of a source for a unit (R406): the source is pending, it names the unit, it has counted where its counter has
room, and nothing has changed outside the collector: outside the registers from 0x3_0000 to 0x3_FFFF, the records that wait, the
interrupts given, and the count of free values. -/
def Raised (s t : State) (src unit : Nat) : Prop :=
  t = { s with regs := t.regs, fcl := t.fcl, freeCtr := t.freeCtr } ∧ t.fcl.store = s.fcl.store ∧ t.fcl.pairs = s.fcl.pairs ∧
    (s.calm → t.calm) ∧ t.rf Reg.FCL_SRCn_STAT 0 src 31 31 = 1 ∧
    (2 ≤ src → t.rf Reg.FCL_SRCn_STAT 0 src 9 0 = unit) ∧
    (2 ≤ src → s.room Reg.FCL_SRCn_COUNT 0 src 1 → t.reg Reg.FCL_SRCn_COUNT 0 src = s.reg Reg.FCL_SRCn_COUNT 0 src + 1) ∧
    ∀ a, a < 0x30000 ∨ 0x40000 ≤ a → t.word a = s.word a

/-! ### Commands of the flight -/

/-- The state in which a command has been taken and waits in the entry device's queue for the next list of commands (R265). -/
def State.queued (s : State) (h : Hdr) (tenant : Nat) (b : BargeCmd) : State :=
  { s.taken h with seq := { s.seq with queue := s.seq.queue ++
    [{ cmd := { session := h.session, tag := h.tag, tenant := tenant, body := b }, seen := false, listed := false }] } }

/-- The bytes of an answer (R390): opcode with bit 15 set, tag, status, three zeros, the length of the data, the data. -/
def answerBytes (op : Nat) (tag : BitVec 16) (status : Nat) (data : List Byte) : List Byte :=
  toLE 2 (op + 0x8000) ++ toLE 2 tag.toNat ++ toLE 1 status ++ List.replicate 3 0 ++ toLE 4 data.length ++ data

/-- The outcome is a next state in which the command has been taken, `u` has been made of the state, and the answer `OK` with `data` has
been given. -/
def Done (o : Out) (h : Hdr) (op : Nat) (u : State) (data : List Byte) : Prop := o = .next (u.answer (replyTo h op) stOk data)

end Sys2Proof.Machine
end

