-- ==== Sys2Proof/Certificates/Slice0/Obligations.lean ====
section
/-! DEFINITION. The statements made about the machine, one `def` each. The docstring names the rules of spec/ that a statement follows, and
the log entry for what is the model's own choice. -/

open Sys2Proof Sys2Proof.Machine

/-! ### The step -/

/-- A step takes the command at the front of the queue and runs it on the state with the queue's rest. -/
def Obligations.StepRunsTheFrontCommand : Prop :=
  ∀ (c : Instr) (rest : List Instr) (s : State), step { s with pending := c :: rest } = exec c { s with pending := rest }

/-- On an empty queue the time base counts one tick of 8 ns while the device is powered, and nothing else changes; where the slew against the
parent has come to a whole tick, it counts two or none (R301; that a step on an empty queue is a tick is the model's choice:
notes/assumptions/17.md). While the host port negotiates, a tick may take it to `TRAINING`, which clears `RETRAIN` (R400); when it does is a free
value (notes/assumptions/3.md, 22.md). -/
def Obligations.EmptyQueueTicksTheTimeBase : Prop :=
  ∀ s : State, s.pending = [] →
    let slewed := fun (d : Int) => ({ s with flt := { s.flt with phase := s.flt.phase + d } } : State)
    let counts := fun (u : State) (n : Nat) => ∃ t, step s = .next t ∧ OnlyRegs u t [Reg.FLK_TIME.addr 0 0] ∧
      t.reg Reg.FLK_TIME 0 0 = (s.reg Reg.FLK_TIME 0 0 + n) % 2 ^ 64
    (s.pow.on = true → s.pow.booted = false ∨ s.linkState ≠ 1 →
      (-128 < s.flt.phase → s.flt.phase < 128 → counts s 1) ∧ (128 ≤ s.flt.phase → counts (slewed (-128)) 2) ∧
      (s.flt.phase ≤ -128 → step s = .next (slewed 128))) ∧
    (s.pow.on = true → s.pow.booted = true → s.linkState = 1 → -128 < s.flt.phase → s.flt.phase < 128 →
      ∃ t, step s = .next t ∧ t = { s with regs := t.regs, hpt := { s.hpt with config := t.hpt.config }, freeCtr := s.freeCtr + 1 } ∧
        t.reg Reg.FLK_TIME 0 0 = (s.reg Reg.FLK_TIME 0 0 + 1) % 2 ^ 64 ∧
        ((s.free 1).getLsbD 0 = false → t.linkState = 1 ∧ t.hpt = s.hpt) ∧
        ((s.free 1).getLsbD 0 = true → t.linkState = 2 ∧ (s.rf Reg.HPT_CTL 0 0 0 0 = 1 → t.rf Reg.HPT_CTL 0 0 0 0 = 0) ∧
          (s.rf Reg.HPT_CTL 0 0 0 0 = 1 → t.hpt.config = s.portWritten))) ∧
    (s.pow.on = false → step s = .next s)

/-! ### Terwen: control, predicates, integers -/

/-- `LI`, `ADD`, `ADDI`, `SUB`, `MUL`, `AND`, `OR`, `XOR`, `SHL`, `SHR`, `SAR`, `LIDX` (R194) and `SYSV` (R166): where the instruction
runs, its destination holds the result modulo 2^64, the core moves on, and nothing else of the device changes.
A write of a general register is read back, but g0 reads 0 and a write to it is discarded; every other register and every other
part of the core stays (R163).
The system values (R166): each index reads the state that the table names, and no index above 8 reads one.
`CMP`, `CMPI` and `PLOG` (R194): the predicate p`PD` becomes the truth of the relation that `FN` selects, every other predicate stays,
and nothing else of the device changes but that the core moves on; a code that is not listed, which no loaded program holds, leaves p`PD`
as it is (notes/assumptions/7.md).
The predicate selector (R190): 0 always runs, 1 to 8 run where p(`PRED` − 1) is 1, 9 to 15 where p(`PRED` − 8) is 0. -/
def Obligations.IntegerAndPredicateResults : Prop :=
  (
    (∀ (s : State) (x : Issue) (gd ga gb : BitVec 5) (imm : BitVec 64) (sh : BitVec 6) (k : BitVec 8) (v : Nat), s.runs x →
      let c := s.core x.site
      let a := c.gr ga.toNat
      let b := c.gr gb.toNat
      let r := fun (i : Instr) (y : BitVec 64) => CoreNext (exec i s) s x.site (c.setGr gd.toNat y)
      r (.li x gd imm) imm ∧ r (.add x gd ga gb) (a + b) ∧ r (.addi x gd ga imm) (a + imm) ∧ r (.sub x gd ga gb) (a - b) ∧
      r (.mul x gd ga gb) (a * b) ∧ r (.and x gd ga gb) (a &&& b) ∧ r (.or x gd ga gb) (a ||| b) ∧ r (.xor x gd ga gb) (a ^^^ b) ∧
      r (.shl x gd ga sh) (a <<< sh.toNat) ∧ r (.shr x gd ga sh) (a >>> sh.toNat) ∧
      r (.sar x gd ga sh) (a.sshiftRight sh.toNat) ∧ r (.lidx x gd) (BitVec.ofNat 64 (c.loopIdx x.lvl.toNat)) ∧
      (s.sysValue x.site k.toNat = some v → r (.sysv x gd k) (BitVec.ofNat 64 v))) ∧
    (∀ (c : Core) (n : Nat) (v : BitVec 64),
      (∀ m, (c.setGr n v).gr m = if m = 0 then 0 else if m = n then v else c.gr m) ∧ c.setGr n v = { c with g := (c.setGr n v).g }) ∧
    (∀ (s : State) (site : Nat),
      s.sysValue site 0 = some ((List.range site).filter s.enabled).length ∧ s.sysValue site 1 = some site ∧
      s.sysValue site 2 = some (s.rf Reg.FLK_COORD 0 0 24 16) ∧ s.sysValue site 3 = some s.flightSize ∧
      s.sysValue site 4 = some (s.reg Reg.FLK_LOCKAGE 0 0) ∧ s.sysValue site 5 = some (s.rf Reg.FLK_LOCK_STATE 0 0 0 0) ∧
      s.sysValue site 6 = some (s.rf Reg.WGT_GEN_ACTIVE 0 0 7 0) ∧ s.sysValue site 7 = some s.slots.length ∧
      s.sysValue site 8 = some (s.reg Reg.WGT_SCHED_ACTIVE_TAG 0 0) ∧ ∀ k, 8 < k → s.sysValue site k = none)) ∧
  (
    (∀ (s : State) (x : Issue) (pd pa pb : BitVec 3) (ga gb : BitVec 5) (imm : BitVec 64) (fn : BitVec 4), s.runs x →
      let c := s.core x.site
      let rel := fun (a b : BitVec 64) (old : Bool) =>
        if fn = 0 then decide (a = b) else if fn = 1 then decide (a ≠ b) else if fn = 2 then decide (a.toInt < b.toInt)
        else if fn = 3 then decide (b.toInt ≤ a.toInt) else if fn = 4 then decide (a.toNat < b.toNat)
        else if fn = 5 then decide (b.toNat ≤ a.toNat) else old
      let log := fun (a b old : Bool) =>
        if fn = 0 then a && b else if fn = 1 then a || b else if fn = 2 then a != b else if fn = 3 then a && !b
        else if fn = 4 then true else if fn = 5 then false else old
      let r := fun (i : Instr) (y : Bool) => ∃ d : Core, CoreNext (exec i s) s x.site d ∧ d = { c with p := d.p } ∧
        ∀ n, n < 8 → d.pr n = if n = pd.toNat then y else c.pr n
      r (.cmp x pd ga gb fn) (rel (c.gr ga.toNat) (c.gr gb.toNat) (c.pr pd.toNat)) ∧
      r (.cmpi x pd ga imm fn) (rel (c.gr ga.toNat) imm (c.pr pd.toNat)) ∧
      r (.plog x pd pa pb fn) (log (c.pr pa.toNat) (c.pr pb.toNat) (c.pr pd.toNat))) ∧
    (∀ (c : Core) (n : Nat),
      c.on 0 = true ∧ (1 ≤ n → n ≤ 8 → c.on (BitVec.ofNat 4 n) = c.pr (n - 1)) ∧
      (9 ≤ n → n ≤ 15 → c.on (BitVec.ofNat 4 n) = !c.pr (n - 8))))

/-- `NOP`, `WOPEN`, `WCLOSE`, `LOOP`, `BARRIER` and `WAITS` (R168, R177, R194 to R196): the window flag, the loop stack, the hold at the barrier
until no evaluation is in flight or in the queue and every reduction packet has left, and the wait for a counter, which completes at once where the
counter is not armed and disarms it where the expected count has been reached. Counted loops (R168): after the last instruction of the innermost
body, the core goes back to the body's start with the next index while iterations are left, and otherwise leaves that loop for the enclosing one;
elsewhere it goes to the next instruction.
That a barrier waits for no `FILL` whose unit is released is the model's choice (notes/assumptions/7.md). -/
def Obligations.ControlInstructionResults : Prop :=
  (∀ (s : State) (x : Issue) (trip : BitVec 16) (body : BitVec 12) (k : BitVec 4), s.runs x →
    let c := s.core x.site
    CoreNext (exec (.nop x) s) s x.site c ∧
    CoreNext (exec (.wopen x) s) s x.site { c with window := true } ∧
    CoreNext (exec (.wclose x) s) s x.site { c with window := false } ∧
    CoreNext (exec (.loop x trip body) s) s x.site
      { c with loops := { start := c.pc + 1, len := body.toNat + 1, trip := trip.toNat + 1, i := 0 } :: c.loops } ∧
    CoreNext (exec (.barrier x) s) s x.site
      { c with run := if c.evals = [] ∧ c.arrQ = [] ∧ s.localFlits x.site = false then .arrived else .barrier } ∧
    (c.arms.find? (fun a => a.k == k.toNat) = none → CoreNext (exec (.waits x k) s) s x.site { c with run := .issue }) ∧
    (∀ a, c.arms.find? (fun a => a.k == k.toNat) = some a → a.expect ≤ a.count →
      CoreNext (exec (.waits x k) s) s x.site { c with run := .issue, arms := c.arms.filter (fun b => b.k != k.toNat) }) ∧
    (∀ a, c.arms.find? (fun a => a.k == k.toNat) = some a → a.count < a.expect →
      CoreNext (exec (.waits x k) s) s x.site { c with run := .waitSig k.toNat })) ∧
  (∀ (c : Core) (l : Loop) (rest : List Loop),
    (c.loops = [] → c.advance = { c with pc := c.pc + 1 }) ∧
    (c.loops = l :: rest → c.pc + 1 ≠ l.start + l.len → c.advance = { c with pc := c.pc + 1 }) ∧
    (c.loops = l :: rest → c.pc + 1 = l.start + l.len → l.i + 1 < l.trip →
      c.advance = { c with loops := { l with i := l.i + 1 } :: rest, pc := l.start }) ∧
    (c.loops = l :: rest → c.pc + 1 = l.start + l.len → l.trip ≤ l.i + 1 →
      c.advance = { c with loops := rest }.advance))

/-- Bytes written to a byte memory in canonical form read back; bytes outside the written range read as before; and the form is kept. The
memories of a core (vector registers, tiles, scratchpad) and device memory are such memories (R141, R163, R200). -/
def Obligations.MemoryReadsWhatWasWritten : Prop :=
  ∀ (m : Mem) (a : Nat) (bs : List Byte), Mem.wf m = true →
    Mem.wf (Mem.write m a bs) = true ∧ Mem.read (Mem.write m a bs) a bs.length = bs ∧
    (∀ b n, b + n ≤ a ∨ a + bs.length ≤ b → Mem.read (Mem.write m a bs) b n = Mem.read m b n) ∧
    ∀ b, Mem.get (Mem.write m a bs) b = if a ≤ b ∧ b < a + bs.length then bs.getD (b - a) 0 else Mem.get m b

/-! ### Terwen: vectors -/

/-- The elementwise instructions (R206, R207) on FP32, BF16 and FP16: every operand widened exactly to FP32, the operation performed in FP32,
each result rounded once to the type; the functions of opcodes 0x90 to 0x94 rounded once from the exact value. Only the destination group
changes, and the core moves on.
`VMAX` and `VMIN` (R206): a NaN in either operand gives the canonical NaN; otherwise the greater, or the smaller, operand; of equal
operands one of the two, and which one of +0 and −0 is open (notes/assumptions/3.md). That a function evaluates to the correctly rounded value, and
that `VFMA` in BF16 and FP16 is rounded to FP32 and then to the type, are readings (notes/assumptions/11.md). -/
def Obligations.ElementwiseVectorResults : Prop :=
  (∀ (s : State) (x : Issue) (f : VecF) (fm : Fmt), s.runs x → vecFmt f.t = some fm →
    let c := s.core x.site
    let va := c.elems fm f.va.toNat (vecN f)
    let vb := c.elems fm f.vb.toNat (vecN f)
    let vc := c.elems fm f.vc.toNat (vecN f)
    let r := fun (i : Instr) (ys : List F32) => CoreNext (exec i s) s x.site (c.setElems fm f.vd.toNat ys)
    let e := fun (i : Instr) (fn : Machine.Num → Machine.Num) =>
      CoreNext (exec i s) s x.site (c.setVreg f.vd.toNat (bytesOf fm.bytes (va.map (fun a => fm.encode (fn (F32.num a))))))
    r (.vadd x f) (va.zipWith F32.add vb) ∧ r (.vsub x f) (va.zipWith F32.sub vb) ∧ r (.vmul x f) (va.zipWith F32.mul vb) ∧
    r (.vfma x f) ((va.zip vb).zipWith (fun p z => F32.fma p.1 p.2 z) vc) ∧
    r (.vmax x f) (va.zipWith vmaxOp vb) ∧ r (.vmin x f) (va.zipWith vminOp vb) ∧
    r (.vadds x f) (va.map (fun a => F32.add a (vecImm f))) ∧ r (.vmuls x f) (va.map (fun a => F32.mul a (vecImm f))) ∧
    r (.vabs x f) (va.map (fun a => F32.of (Num.abs (F32.num a)))) ∧ r (.vneg x f) (va.map (fun a => F32.of (Num.neg (F32.num a)))) ∧
    e (.vexp x f) Num.exp ∧ e (.vrcp x f) Num.rcp ∧ e (.vrsq x f) Num.rsqrt ∧ e (.vsilu x f) Num.silu ∧ e (.vsigm x f) Num.sigm ∧
    r (.vbc x f) (List.replicate (1024 / fm.bytes * vecN f) (vecImm f))) ∧
  (∀ a b : F32,
    (F32.isNan a = true ∨ F32.isNan b = true → vmaxOp a b = F32.nan ∧ vminOp a b = F32.nan) ∧
    (F32.isNan a = false → F32.isNan b = false →
      (Num.lt (F32.num a) (F32.num b) = true → vmaxOp a b = b ∧ (Num.lt (F32.num b) (F32.num a) = false → vminOp a b = a)) ∧
      (Num.lt (F32.num b) (F32.num a) = true → vminOp a b = b ∧ (Num.lt (F32.num a) (F32.num b) = false → vmaxOp a b = a)) ∧
      (vmaxOp a b = a ∨ vmaxOp a b = b) ∧ (vminOp a b = a ∨ vminOp a b = b)))

/-- `VSUM`, `VMAXR`, `VRMS`, `VROPE` and `VTOPK` (R207, R209 to R211): reductions in the fixed order of lanes and tree into element 0, the
other elements +0; normalisation; rotation of the pairs of each head; the K largest elements as records in the scratchpad.
The order of top K and of the expert ranking (R183, R211): the entries taken are elements of the list with their positions, in an order
in which no entry ranks above an earlier one, equal values lie by ascending position, and no element left out ranks above one taken.
How the angle is reduced modulo 2π is the model's choice, and where `VROPE` rounds is a reading (notes/assumptions/11.md). -/
def Obligations.VectorGroupResults : Prop :=
  (∀ (s : State) (x : Issue) (f : VecF) (fm : Fmt) (d : Nat), s.runs x → vecFmt f.t = some fm →
    let c := s.core x.site
    let va := c.elems fm f.va.toNat (vecN f)
    let vb := c.elems fm f.vb.toNat (vecN f)
    let r := fun (i : Instr) (ys : List F32) => CoreNext (exec i s) s x.site (c.setElems fm f.vd.toNat ys)
    let mean := F32.div (laneReduce F32.add (va.map (fun a => F32.mul a a))) (F32.ofInt va.length)
    let rho := F32.of (Num.rsqrt (F32.num (F32.add mean (vecImm f))))
    r (.vsum x f) (laneReduce F32.add va :: List.replicate (1024 / fm.bytes - 1) 0) ∧
    r (.vmaxr x f) (laneReduce vmaxOp va :: List.replicate (1024 / fm.bytes - 1) 0) ∧
    r (.vrms x f) (va.zipWith (fun a g => F32.mul (F32.mul a rho) g) vb) ∧
    (headDim (f.aux.toNat % 4) = some d → CoreNext (exec (.vrope x f) s) s x.site
      (c.setVreg f.vd.toNat (bytesOf fm.bytes ((chunks d va va.length).flatMap
        (ropePairs fm (((c.elems .fp32 f.vb.toNat 1).take (d / 2)).map (ropeCosSin (c.gr f.vc.toNat).toNat))))))) ∧
    CoreNext (exec (.vtopk x f) s) s x.site
      (c.setSp (vecAddr f (c.stepIdx x)) ((topK (f.aux.toNat % 64 + 1) (c.elems .fp32 f.va.toNat (vecN f))).flatMap (fun r =>
        toLE 4 (((c.gr f.vb.toNat).toNat % 2 ^ 32 + r.1) % 2 ^ 32) ++ toLE 4 r.2.toNat)))) ∧
  (∀ (k : Nat) (xs : List F32),
    (topK k xs).length = min k xs.length ∧
    (∀ p ∈ topK k xs, xs[p.1]? = some p.2) ∧
    (topK k xs).Pairwise (fun p q => ranksAbove q.2 p.2 = false ∧ (ranksAbove p.2 q.2 = false → p.1 < q.1)) ∧
    ∀ n v, xs[n]? = some v → (n, v) ∉ topK k xs → ∀ p ∈ topK k xs, ranksAbove v p.2 = false)

/-- `VCVT` converts the whole group, a partly filled last register filled with 0, and counts each FP8 element that saturates (R94 to R96,
R207). `VHAD` rotates each block with the seed read at `SPA` (R83 to R86, R208). Both with room in their counters and no reaction waiting.
`VQNT` (R78 to R82, R208): the operand blocks with their integers and scale go to `SPA`; a vector with a NaN or an infinity gives zeros
with the scale 0x7E00 and is counted; a vector of ±0 at widths A2 to A8 gives zeros with the scale +0; a clamped scale is counted. -/
def Obligations.ConversionInstructionResults : Prop :=
  (
    ∀ (s : State) (x : Issue) (f : VecF), s.runs x → s.calm →
      let c := s.core x.site
      let vs := (wordsOf (typeBytes f.t) (c.vreg f.va.toNat (vecN f))).map (typeDecode f.t)
      let bs := bytesOf (typeBytes f.t2) (vs.map (typeEncode f.t2))
      let sat := (vs.filter (typeSaturates f.t2)).length
      (f.t.toNat ≤ 5 → f.t2.toNat ≤ 5 → s.room Reg.CNT_FP8_SAT 0 0 sat →
        CountNext (exec (.vcvt x f) s) s x.site (c.setVreg f.vd.toNat (bs ++ List.replicate ((1024 - bs.length % 1024) % 1024) 0))
          Reg.CNT_FP8_SAT 0 0 sat) ∧
      ∀ fm, f.t.toNat ≤ 1 → vecFmt f.t = some fm → s.room Reg.MEM_POISON_CONSUMED 0 0 1 →
        let xs := c.elems fm f.va.toNat (vecN f)
        let blocks := chunks (2 ^ (f.aux.toNat % 16)) xs xs.length
        let a := vecAddr f (c.stepIdx x)
        let seeds := (wordsOf 8 (c.spRead a (8 * blocks.length))).map (BitVec.ofNat 64)
        CountNext (exec (.vhad x f) s) s x.site
          (c.setElems .fp32 f.vd.toNat ((blocks.zip seeds).flatMap (fun p => rotateBlock (f.aux.toNat % 16) p.2 p.1)))
          Reg.MEM_POISON_CONSUMED 0 0 (if c.spPoisoned a (8 * blocks.length) then 1 else 0)) ∧
  (
    ∀ (s : State) (x : Issue) (f : VecF) (fm : Fmt), s.runs x → s.calm → vecFmt f.t = some fm →
      let c := s.core x.site
      let w := f.aux.toNat % 8 + 1
      let xs := c.elems fm f.va.toNat (vecN f)
      let q := quantise w xs
      let d := c.setSp (vecAddr f (c.stepIdx x)) (operandBlocks q.1 q.2.1)
      (q.2.2 = .none → CoreNext (exec (.vqnt x f) s) s x.site d) ∧
      (q.2.2 = .clamp → s.room Reg.CNT_ASCALE_CLAMP 0 0 1 →
        CountNext (exec (.vqnt x f) s) s x.site d Reg.CNT_ASCALE_CLAMP 0 0 1) ∧
      (q.2.2 = .nonfinite → s.room Reg.CNT_QUANT_NONFINITE 0 0 1 →
        CountNext (exec (.vqnt x f) s) s x.site d Reg.CNT_QUANT_NONFINITE 0 0 1) ∧
      ((∃ a ∈ xs, F32.isFin a = false) → q = (xs.map (fun _ => 0), 0x7E00, .nonfinite)) ∧
      ((∀ a ∈ xs, a = 0 ∨ a = 0x80000000) → 2 ≤ w → q = (xs.map (fun _ => 0), 0, .none)))

/-! ### Terwen: accumulators and reductions -/

/-- `ACLR`, `ASETV`, `ALDV`, `ASTV`, `ALDS` and `ASTS` (R143, R203): whole entries set, or their 8 bytes moved unchanged, with the poison
they carry (R362), once no evaluation in flight delivers into the tile (R179).
`AMRG`, `AADDV` and `ARES` (R144 to R146, R203, R204): merges and accumulations entry by entry with their overflows counted; resolution
to the format, into vector registers or the scratchpad, with the FP8 saturations counted.
Accumulation and merge (R144, R145): the sum's rounded value and its exact rounding error, each operation in FP32; a sum that is not
finite leaves (s, +0) with a NaN canonical; a finite sum with an error term that is not finite leaves (fl32(s + e′), +0). -/
def Obligations.AccumulatorInstructionResults : Prop :=
  (
    ∀ (s : State) (x : Issue) (f : AccF), s.runs x →
      let c := s.core x.site
      let i := c.stepIdx x
      let td := f.td.toNat + f.tstep.toNat * i
      let ta := f.ta.toNat + f.tstep.toNat * i
      let a := stepAddr f.spa.toNat f.sps.toNat 16 i
      let r := fun (j : Instr) (d : Core) => CoreNext (exec j s) s x.site d
      (c.tilesFree [td] →
        r (.aclr x f) (c.setEntries td 0 (List.replicate 512 (0, 0))) ∧
        r (.asetv x f) (c.setEntries td (256 * (f.q.toNat % 2)) ((f32s (c.vreg f.vr.toNat 1)).map (fun v => (v, 0)))) ∧
        r (.aldv x f) (c.setTileBytes td (128 * f.q.toNat) (c.vreg f.vr.toNat 1)) ∧
        r (.alds x f) { c.setTileBytes td 0 (c.sp a 4096) with
          tilePoison := (poisonOf c.spmPoison a 4096).foldl (fun l w => addPoison l (512 * td + w))
            (c.setTileBytes td 0 (c.sp a 4096)).tilePoison }) ∧
      (c.tilesFree [ta] →
        r (.astv x f) (c.setVreg f.vr.toNat (Mem.read c.tiles (4096 * ta + 1024 * f.q.toNat) 1024)) ∧
        r (.asts x f) (c.moveSp a (Mem.read c.tiles (4096 * ta) 4096) (poisonOf c.tilePoison (4096 * ta) 4096)))) ∧
  (
    (∀ (s : State) (x : Issue) (f : AccF), s.runs x → s.calm →
      let c := s.core x.site
      let i := c.stepIdx x
      let td := f.td.toNat + f.tstep.toNat * i
      let ta := f.ta.toNat + f.tstep.toNat * i
      let half := 256 * (f.q.toNat % 2)
      let mg := ((c.entries td 0 512).zip (c.entries ta 0 512)).filter (fun p => mergeOvf p.1 p.2)
      let vs := f32s (c.vreg f.vr.toNat 1)
      let ac := ((c.entries td half 256).zip vs).filter (fun p => accumulateOvf p.1 p.2)
      (c.tilesFree [td, ta] → s.room Reg.CNT_ACC_OVERFLOW 0 0 mg.length →
        CountNext (exec (.amrg x f) s) s x.site (c.setEntries td 0 ((c.entries td 0 512).zipWith mergePair (c.entries ta 0 512)))
          Reg.CNT_ACC_OVERFLOW 0 0 mg.length) ∧
      (c.tilesFree [td] → s.room Reg.CNT_ACC_OVERFLOW 0 0 ac.length →
        CountNext (exec (.aaddv x f) s) s x.site (c.setEntries td half ((c.entries td half 256).zipWith accumulate vs))
          Reg.CNT_ACC_OVERFLOW 0 0 ac.length) ∧
      ∀ fm, aresFmt f.fmt = some fm → c.tilesFree [ta] →
        let p := packAs fm ((c.entries ta 0 512).map resolvePair)
        s.room Reg.CNT_FP8_SAT 0 0 p.2 →
        CountNext (exec (.ares x f) s) s x.site
          (if f.dsel then c.setSp (stepAddr f.spa.toNat f.sps.toNat 16 i) p.1
            else c.setVreg f.vr.toNat (p.1 ++ List.replicate (1024 - p.1.length) 0)) Reg.CNT_FP8_SAT 0 0 p.2) ∧
    (∀ (s1 e1 x e2 : F32),
      let s := F32.add s1 x
      let b := F32.sub s s1
      let a := F32.sub s b
      let d := F32.add (F32.sub s1 a) (F32.sub x b)
      let out := fun (e : F32) =>
        if F32.isFin s = false then ((if F32.isNan s then F32.nan else s), (0 : F32))
        else if F32.isFin e = false then (F32.add s e, 0) else (s, e)
      accumulate (s1, e1) x = out (F32.add e1 d) ∧ mergePair (s1, e1) (x, e2) = out (F32.add (F32.add e1 e2) d)))

/-! ### Terwen: moves and network -/

/-- `STV`, `STG` and `COPY` write the scratchpad; `LDV` and `LDG` read it, and count where the range is poisoned, with room in the counter
and no reaction waiting (R213, R361, R362).
What a consumer reads of the scratchpad (R362): the stored bytes, but 0x7FC0 in every 16-bit unit of a poisoned codeword. -/
def Obligations.ScratchpadMoves : Prop :=
  (∀ (s : State) (x : Issue) (f : LdStF) (g : CopyF), s.runs x →
    let c := s.core x.site
    let i := c.stepIdx x
    let a := stepAddr f.spa.toNat f.sps.toNat 16 i
    let n := 1024 * (f.nm1.toNat + 1)
    let src := stepAddr g.spa.toNat g.sps.toNat 16 i
    let k := 64 * (g.gm1.toNat + 1)
    let hit := fun (m : Nat) => if c.spPoisoned a m then 1 else 0
    CoreNext (exec (.stv x f) s) s x.site (c.setSp a (c.vreg f.reg.toNat (f.nm1.toNat + 1))) ∧
    CoreNext (exec (.stg x f) s) s x.site (c.setSp a (toLE 8 (c.gr f.reg.toNat).toNat)) ∧
    CoreNext (exec (.copy x g) s) s x.site
      (c.moveSp (stepAddr g.dst.toNat g.dsts.toNat 16 i) (c.sp src k) (poisonOf c.spmPoison src k)) ∧
    (s.calm → s.room Reg.MEM_POISON_CONSUMED 0 0 1 →
      CountNext (exec (.ldv x f) s) s x.site (c.setVreg f.reg.toNat (c.spRead a n)) Reg.MEM_POISON_CONSUMED 0 0 (hit n) ∧
      CountNext (exec (.ldg x f) s) s x.site (c.setGr f.reg.toNat (BitVec.ofNat 64 (ofLE (c.spRead a 8))))
        Reg.MEM_POISON_CONSUMED 0 0 (hit 8))) ∧
  (∀ (c : Core) (a n : Nat), Mem.wf c.spm = true → (c.spRead a n).length = n ∧ ∀ k, k < n →
    (c.spRead a n)[k]? =
      some (if (a + k) / 8 ∈ c.spmPoison then (if (a + k) % 2 = 0 then 0xC0 else 0x7F) else Mem.get c.spm (a + k)))

/-- `NSEND` (R180, R214): the source range as it stands is on its way in packets to the destination core, which is a site of this device by
its core map where the destination device is this one.
A range is cut into packets of 512 B in ascending address order, the last with the remainder; together they carry exactly the range
(R214).
`NRECV` (R177, R178): the counter is armed with its range and expected count, from zero; a packet held for a counter that is not armed
stays held; one held for this counter, in its range, is then written at a working core and counts.
`NET_PACKET_ARRIVAL` (R24, R177, R178, R417): of the packets under way from one source to one core, the first arrives before the others; at a
working core, behind a held packet it waits, with a counter that is not armed it is held, and with an armed one whose range holds it wholly
it is written and counts; a ROUTER_FENCED router on its way discards it and counts, and where the routes do not lead to the core it never comes
(R28).
Where a route table has no entry for a destination, and at which router a flight port enters the mesh, are the model's choice
(notes/assumptions/38.md). -/
def Obligations.NetworkTraffic : Prop :=
  (
    (∀ (s : State) (x : Issue) (f : SendF) (site : Nat), s.runs x →
      (if f.ddev.toNat = s.devNo then s.siteOf f.dcore.toNat = some site else site = f.dcore.toNat) →
      let c := s.core x.site
      let i := c.stepIdx x
      let n := 64 * (f.gm1.toNat + 1)
      let src := stepAddr f.spa.toNat f.sps.toNat 16 i
      let ps := packetsOf f.dcnt.toNat (stepAddr f.dst.toNat f.sps.toNat 16 i) (c.sp src n) (poisonOf c.spmPoison src n) n
      exec (.nsend x f) s = .next (({ s with net := s.net ++ ps.map (fun p => (⟨f.ddev.toNat, site, x.site, x.site,
        p⟩ : InFlight)) } : State).updCore x.site Core.advance)) ∧
    (∀ (sig addr : Nat) (bs : List Byte) (po : List Nat) (fuel : Nat), bs.length ≤ fuel →
      let ps := packetsOf sig addr bs po fuel
      ps.flatMap (fun p => p.data) = bs ∧ ps.length = (bs.length + 511) / 512 ∧
      ∀ (n : Nat) (p : Packet), ps[n]? = some p → p.sig = sig ∧ p.addr = addr + 512 * n ∧ p.data = (bs.drop (512 * n)).take 512 ∧
        p.secure = false)) ∧
  (
    (∀ (s : State) (x : Issue) (f : RecvF), s.runs x → s.calm →
      let c := s.core x.site
      let base := stepAddr f.spa.toNat f.sps.toNat 16 (c.stepIdx x)
      let bytes := 64 * (f.gm1.toNat + 1)
      let armed := fun (n : Nat) => c.arms.filter (fun b => b.k != f.sig.toNat) ++ [⟨f.sig.toNat, base, bytes, f.expect.toNat, n⟩]
      ((∀ m, c.held.head? = some m → m.2.sig ≠ f.sig.toNat ∧ c.arms.all (fun a => a.k != m.2.sig) = true) →
        CoreNext (exec (.nrecv x f) s) s x.site { c with arms := armed 0 }) ∧
      (∀ src p, c.held = [(src, p)] → p.sig = f.sig.toNat → p.secure = false → p.conflict = false → base ≤ p.addr →
        p.addr + p.data.length ≤ base + bytes → s.rf Reg.RTR_FENCE x.site 0 1 0 = 0 → s.rf Reg.SPM_PWR x.site 0 9 8 = 0 →
        s.rf Reg.SPM_SECURE x.site 0 0 0 = 0 →
        CoreNext (exec (.nrecv x f) s) s x.site ({ c with arms := armed 1, held := [] }.moveSp p.addr p.data p.poison))) ∧
    (∀ (s : State) (site : Nat) (p : Packet), site < nSites → s.enabled site = true → s.calm → s.rf Reg.RTR_FENCE site 0 1 0 = 0 →
      s.rf Reg.SPM_PWR site 0 9 8 = 0 → s.rf Reg.SPM_SECURE site 0 0 0 = 0 → p.secure = false → p.conflict = false →
      let c := s.core site
      let e := exec (.netPacketArrival site p) s
      let lands := fun (src : Nat) (net : List InFlight) =>
        let goes := fun (d : Core) => ∃ t, e = .next t ∧ t.core site = d ∧ (∀ k, k ≠ site → t.core k = s.core k) ∧
          t = { s with cores := t.cores, net := net }
        (c.held ≠ [] → goes { c with held := c.held ++ [(src, p)] }) ∧
        (c.held = [] → c.arms.find? (fun a => a.k == p.sig) = none → goes { c with held := [(src, p)] }) ∧
        (c.held = [] → ∀ a, c.arms.find? (fun a => a.k == p.sig) = some a → a.base ≤ p.addr → p.addr + p.data.length ≤ a.base + a.bytes →
          goes ({ c with arms := c.arms.map (fun (b : Arm) => if b.k = p.sig then { b with count := (b.count + 1) % 65536 } else b) }.moveSp
            p.addr p.data p.poison).settleWaits)
      (s.underWay site p = false → lands nSites s.net) ∧
      (s.underWay site p = true → firstOf [] s.net s.devNo site p = none → e = .next s) ∧
      ∀ m, firstOf [] s.net s.devNo site p = some m →
        (s.way (.site site) m.entry false = .arrives site 0 → lands m.source (s.net.erase m)) ∧
        (s.way (.site site) m.entry false = .lost → e = .next s) ∧
        ∀ r, s.way (.site site) m.entry false = .fenced r → s.room Reg.RTR_FENCE_DROP r 0 1 →
          ∃ t, e = .next t ∧ t = { s with regs := t.regs, net := s.net.erase m } ∧
            t.reg Reg.RTR_FENCE_DROP r 0 = s.reg Reg.RTR_FENCE_DROP r 0 + 1) ∧
    (∀ (l : List InFlight) (dev site : Nat) (p : Packet) (m : InFlight), firstOf [] l dev site p = some m →
      m.dev = dev ∧ m.site = site ∧ m.pkt = { p with conflict := false } ∧
      ∃ a b, l = a ++ m :: b ∧ ∀ n ∈ a, n.source = m.source → n.entry = m.entry → n.dev = dev → n.site ≠ site))

/-- `MRD` and `MWR` (R28, R214, R215) on a range inside one populated region, no stored bit there in error: where the routes lead from the core to
the memory of every packet, the data read is on its way in packets to the core, from the router at which each enters the mesh, and the data to be
written is posted packet by packet. Of one packet, a ROUTER_FENCED router on the way counts one discarded, and nothing is sent (R417).
`MGATH` (R216) from a table inside a populated region, with its sources mild: the rows are on their way in packets to the core, in index
order, a row inside the table's region as it reads, a row outside it as zeros, and where there is a row outside, source 0x24 is pending;
where there is none and the index list carries no poison, nothing else changes.
A write posted by a core is seen by its own reads at once and by those of other cores not yet (R215).
That requests and packets between a core and memory travel by the routes is a reading (notes/assumptions/38.md). -/
def Obligations.MemoryTransfers : Prop :=
  (∀ (s : State) (x : Issue) (f : MemF) (g : GathF) (ent : Nat → Nat), s.runs x → s.calm → s.latent = [] →
    let c := s.core x.site
    let i := c.stepIdx x
    let n := 64 * (f.gm1.toNat + 1)
    let a := memfAddr f i
    let p := memfSp f i
    let row := 64 * (g.rgm1.toNat + 1)
    let base := g.mbase.toNat
    let idx := wordsOf 4 (c.spRead g.idx.toNat (4 * (g.rm1.toNat + 1)))
    let ins := fun (j : Nat) => inRegion (base + j * row) row && regionStart (base + j * row) == regionStart base
    let start := fun (j : Nat) => if ins j then base + j * row else base
    let leads := fun (b m : Nat) => ∀ k, 512 * k < m → ∃ q, s.memWay x.site (b + 512 * k) = .arrives (ent (b + 512 * k)) q
    let under := fun (b : Nat) (ps : List Packet) => ps.zipIdx.map (fun q => (⟨s.devNo, x.site, x.site, ent (b + 512 * q.2), q.1⟩ : InFlight))
    let rows := idx.zipIdx.flatMap (fun y =>
      let r := if ins y.1 then s.memRead x.site (base + y.1 * row) row else (List.replicate row 0, [])
      under (start y.1) (packetsOf g.sig.toNat (64 * g.dst.toNat + y.2 * row) r.1 r.2 row))
    let chunks := fun (ps : List Packet) => ps.zipIdx.map (fun q => (⟨x.site, a + 512 * q.2, q.1.data, q.1.poison⟩ : Posted))
    (inRegion a n = true → leads a n →
      CoreNext (exec (.mrd x f) s)
        { s with net := s.net ++ under a (packetsOf f.sig.toNat p (s.memRead x.site a n).1 (s.memRead x.site a n).2 n) } x.site c ∧
      CoreNext (exec (.mwr x f) s)
        { s with posted := s.posted ++ chunks (packetsOf 0 p (c.sp p n) (poisonOf c.spmPoison p n) n) } x.site c) ∧
    (inRegion a n = true → n ≤ 512 → ∀ r, s.memWay x.site a = .fenced r → s.room Reg.RTR_FENCE_DROP r 0 1 →
      CountNext (exec (.mrd x f) s) s x.site c Reg.RTR_FENCE_DROP r 0 1 ∧ CountNext (exec (.mwr x f) s) s x.site c Reg.RTR_FENCE_DROP r 0 1) ∧
    (inRegion base 1 = true → (∀ j ∈ idx, leads (start j) row) → s.mild [0x24] →
      ∃ t, exec (.mgath x g) s = .next t ∧ t = { s with cores := t.cores, regs := t.regs, fcl := t.fcl, freeCtr := t.freeCtr, net := s.net ++ rows } ∧
        (∀ k, k ≠ x.site → t.core k = s.core k) ∧ t.core x.site = c.advance ∧
        ((∃ j ∈ idx, ins j = false) → t.rf Reg.FCL_SRCn_STAT 0 0x24 31 31 = 1) ∧
        ((∀ j ∈ idx, ins j = true) → c.spPoisoned g.idx.toNat (4 * (g.rm1.toNat + 1)) = false →
          t = { s with cores := t.cores, net := s.net ++ rows }))) ∧
  (∀ (s : State) (site k a : Nat) (bs : List Byte), Mem.wf s.mem = true →
    let t : State := { s with posted := s.posted ++ [(⟨site, a, bs, []⟩ : Posted)] }
    (t.memRead site a bs.length).1 = bs ∧ (k ≠ site → ∀ b n, t.memRead k b n = s.memRead k b n))

/-- `FILL`, `MRD`, `MWR` and `MGATH` stop where they run and the range that they name, whole for the first three and the table's first byte for
the last, does not lie in a populated region, which the spec says does not exist (R200); no command stops otherwise. That such an access is a
fault is the model's choice: the loader refuses the program (notes/assumptions/28.md). -/
def Obligations.OnlyAbsentMemoryStops : Prop :=
  ∀ (s : State),
    let stops := fun (c : Instr) (x : Issue) (a n : Nat) => s.runs x → inRegion a n = false → exec c s = .fault (.noSuchAddress a)
    let i := fun (x : Issue) => (s.core x.site).stepIdx x
    let image := fun (x : Issue) (f : FillF) => ((f.mbase.toNat : Int) + signed 32 f.mstr.toNat * (i x : Int)).toNat
    let size := fun (f : MemF) => 64 * (f.gm1.toNat + 1)
    (∀ (x : Issue) (f : FillF) (l : List Nat), stops (.fill x f l) x (image x f) 262144) ∧
    (∀ (x : Issue) (f : MemF), stops (.mrd x f) x (memfAddr f (i x)) (size f) ∧ stops (.mwr x f) x (memfAddr f (i x)) (size f)) ∧
    (∀ (x : Issue) (f : GathF), stops (.mgath x f) x f.mbase.toNat 1) ∧
    ∀ (c : Instr), (∃ t, exec c s = .next t) ∨ ∃ (x : Issue) (a : Nat), s.runs x ∧ exec c s = .fault (.noSuchAddress a) ∧
      ((∃ f l, c = .fill x f l ∧ a = image x f ∧ inRegion a 262144 = false) ∨
       (∃ f, (c = .mrd x f ∨ c = .mwr x f) ∧ a = memfAddr f (i x) ∧ inRegion a (size f) = false) ∨
       ∃ f, c = .mgath x f ∧ a = f.mbase.toNat ∧ inRegion a 1 = false)

/-! ### Terwen: arrays -/

/-- Sub-phases and the weir (R50, R54, R57): at S = 4 the gain is always 1, at S = 2 never below 1/2. -/
def Obligations.GainByRowGroups : Prop :=
  ∀ (aw : BitVec 3) (q : List Int), q.length = 1024 →
    (∀ g ∈ subDrives aw 4 q, g.length = 256) ∧ (∀ g ∈ subGains aw 4 q, g = 0) ∧ ∀ g ∈ subGains aw 2 q, g = 0 ∨ g = 1

/-- `SDESC` (R192, R202), with nothing in the array unit's queue: the descriptor of the logical array is set, `SLU_OLISTa` of the array mapped to it
shows address and count, and nothing else changes but that the core moves on; where the queue's head waits, it takes its place in the queue.
`FILL` (R28, R67, R68, R201) from an image inside a populated region that carries no poison and comes by routes that lead to the core, with nothing in
the array unit's queue, no fill of the array and no evaluation of it in flight: the streamed array is filling from that image and shows it.
`FILL_DONE` (R67, R361): a fill in progress ends, with nothing in the queue behind it: the array holds the image, its cells are the image's bytes,
and it serves; the image of a tile that came poisoned is written anew. Where no fill is in progress, or a part of it never comes, nothing happens
(notes/assumptions/7.md, 38.md). -/
def Obligations.DescriptorAndFill : Prop :=
  (∀ (s : State) (x : Issue) (f : DescF), s.runs x →
    let c := s.core x.site
    let la := f.la.toNat
    (c.headWaits = true → c.arrQ.length < 8 → CoreNext (exec (.sdesc x f) s) s x.site
      { c with arrQ := c.arrQ ++ [.desc c.pc la ⟨f.ww.toNat, f.oaddr.toNat, f.ocount.toNat⟩] }) ∧
    (c.arrQ.length = 8 → exec (.sdesc x f) s = .next s) ∧
    (c.arrQ = [] → ∃ t, exec (.sdesc x f) s = .next t ∧ t = { s with cores := t.cores, regs := t.regs } ∧ (∀ k, k ≠ x.site → t.core k = s.core k) ∧
      t.core x.site = { c with desc := (t.core x.site).desc }.advance ∧
      (∀ n, (t.core x.site).descOf n = if n = la then ⟨f.ww.toNat, f.oaddr.toNat, f.ocount.toNat⟩ else c.descOf n) ∧
      t.reg Reg.SLU_OLISTa x.site (s.phys x.site la) = f.oaddr.toNat * 2 ^ 18 + f.ocount.toNat ∧
      ∀ a, a ≠ Reg.SLU_OLISTa.addr x.site (s.phys x.site la) → t.word a = s.word a)) ∧
  (∀ (s : State) (x : Issue) (f : FillF) (fails : List Nat), s.runs x → s.calm → s.latent = [] →
    let c := s.core x.site
    let addr := ((f.mbase.toNat : Int) + signed 32 f.mstr.toNat * (c.stepIdx x : Int)).toNat
    let a := s.phys x.site f.la.toNat
    inRegion addr 262144 = true → (addr < farBase ∨ fails = []) → s.memPoisoned x.site addr 262144 = false →
    (∀ k, k < 64 → ∃ r q, s.memWay x.site (addr + 4096 * k) = .arrives r q ∧ s.way (.site x.site) r true = .arrives x.site 0) →
    c.arrQ = [] → (c.arr a).fill = none → c.evals.any (fun e => e.selects a) = false →
    ∃ t, exec (.fill x f fails) s = .next t ∧ t = { s with cores := t.cores, regs := t.regs } ∧ (∀ k, k ≠ x.site → t.core k = s.core k) ∧
      ((t.core x.site).arr a).fill = some ⟨f.la.toNat, a, addr, false, false, s.reg Reg.FLK_TIME 0 0⟩ ∧
      (∀ b, b ≠ a → (t.core x.site).arr b = c.arr b) ∧
      (t.core x.site).pc = c.advance.pc ∧ t.rf Reg.ARY_STATEa x.site a 18 16 = 5 ∧
      ∀ w, w ≠ Reg.ARY_STATEa.addr x.site a → t.word w = s.word w) ∧
  (∀ (s : State) (site la : Nat), s.calm →
    let c := s.core site
    let a := s.phys site la
    ((c.arr a).fill = none → exec (.fillDone site la) s = .next s) ∧
    (∀ w, (c.arr a).fill = some w → w.cut = true → exec (.fillDone site la) s = .next s) ∧
    ∀ w, (c.arr a).fill = some w → w.cut = false → c.arrQ = [] →
      let u := match w.bad, s.tileOf (.image w.src) with
        | true, some tile => s.writeImage w.src tile
        | _, _ => s
      ∃ t, exec (.fillDone site la) s = .next t ∧ t = { u with cores := t.cores, regs := t.regs } ∧ (∀ k, k ≠ site → t.core k = s.core k) ∧
        ((t.core site).arr a).fill = none ∧ ((t.core site).arr a).holds = .image w.src ∧ ((t.core site).arr a).bad = w.bad ∧
        (∀ k, Mem.get ((t.core site).arr a).cells k = if k < 262144 then Mem.get (s.memOf site).1 (w.src + k) else 0) ∧
        (∀ b, b ≠ a → (t.core site).arr b = c.arr b) ∧ t.rf Reg.ARY_STATEa site a 18 16 = 0 ∧
        ∀ v, v ≠ Reg.ARY_STATEa.addr site a → t.word v = s.word v)

/-- `EVAL` (R58, R192, R198, R199): with a defined sub-phase count, nothing in the array unit's queue, no selected array filling, no evaluation in
flight that delivers into its tile, and no poison met, the evaluation is in flight behind those before it, with each selected array's operand read
at its place; `ZT` has cleared its entries, and the layer's count has grown by the gain steps; registers other than the gain counters stay. Where an
array has no column drawn for its audit and its audits are not suspended, one is drawn, none that a substitution serves (R123; the moment is the
model's choice: notes/assumptions/35.md). Where the head of the array unit's queue waits, the evaluation takes its place in the queue; while that is
full, issue stalls.
`SLUICE_CORRECTION` (R106, R107, R148, R198): with audits switched off on the site and nothing in the array unit's queue, the codes of the
oldest evaluation in flight give every selected array's outputs, which accumulate into the destination tile in ascending array order; each
array in service has counted the evaluation (R122, R346); a core that held at its barrier arrives once none is in flight and its reduction
packets have left. With audits on, of one array whose audit is due, with a working checker, a peer and its column arrived, the column is judged
against its exact sum: within its tolerance the audit is over, outside it counts a disagreement and awaits arbitration (R122, R125, R127). -/
def Obligations.EvaluationRunsAndDelivers : Prop :=
  (
    ∀ (s : State) (x : Issue) (f : EvalF) (sc : Nat), s.runs x → s.calm → subPhases f.sc = some sc →
      let c := s.core x.site
      let opa := stepAddr f.opa.toNat f.ops.toNat 16 (c.stepIdx x)
      let arrs := (maskArrays f.amask).zipIdx.map (fun p => s.evalArr x.site f sc (opa + 1088 * p.2) p.1)
      let steps := (if f.dr then 2 else 1) * (arrs.map (fun e => e.gains.sum)).sum
      let tile := f.tile.toNat + f.tstep.toNat * c.stepIdx x
      let pair := isPair f.ww
      let d := if f.zt then
          c.setEntries tile (if pair && f.half then 256 else 0) (List.replicate (if pair then 256 else 512) (0, 0))
        else c
      let ev : EvalIn := ⟨f, sc, phases f.aw, tile, false, s.reg Reg.FLK_TIME 0 0, arrs⟩
      let stays := fun (e : EvalArr) => (c.arr e.phys).draw.isSome = true ∨ (c.arr e.phys).suspended = true
      let may := fun (e : EvalArr) (j : Nat) => j < 512 ∧ (pair = true → j % 2 = 0) ∧
        ∀ u ∈ c.substs, u.arr = e.phys → u.logical ≠ j ∧ (pair = true → u.logical ≠ j + 1)
      (∀ e ∈ arrs, c.spPoisoned (64 * (c.descAt e.la).oaddr) (olistBytes (c.descAt e.la).ocount) = false) →
      c.spPoisoned opa (1088 * arrs.length) = false →
      (c.arrQ.length = 8 → exec (.eval x f) s = .next s) ∧
      (c.headWaits = true → c.arrQ.length < 8 → CoreNext (exec (.eval x f) s) s x.site { c with arrQ := c.arrQ ++ [.eval c.pc ev] }) ∧
      (c.arrQ = [] → (∀ e ∈ arrs, (c.arr e.phys).fill = none) → (∀ e ∈ c.evals, e.tile ≠ tile) →
      ∃ t, exec (.eval x f) s = .next t ∧ t = { s with cores := t.cores, regs := t.regs, freeCtr := t.freeCtr } ∧
        (∀ k, k ≠ x.site → t.core k = s.core k) ∧ (t.core x.site).evals = c.evals ++ [ev] ∧
        (∀ e ∈ arrs, (stays e → (t.core x.site).arr e.phys = c.arr e.phys) ∧
          (¬stays e → (∃ j, may e j) → ∃ j, may e j ∧ ((t.core x.site).arr e.phys).draw = some ⟨j, false, false⟩)) ∧
        ((∀ e ∈ arrs, stays e) → t.freeCtr = s.freeCtr ∧ t.core x.site = { d with
          evals := c.evals ++ [ev],
          layers := SMap.upd c.layers 0 f.ltag.toNat (fun n => n + steps) }.advance) ∧
        ∀ a, (∀ e ∈ arrs, a ≠ Reg.ARY_GAIN1_SUBPHASESa.addr x.site e.phys ∧ a ≠ Reg.ARY_GAIN2_SUBPHASESa.addr x.site e.phys ∧
          a ≠ Reg.ARY_GAIN4_SUBPHASESa.addr x.site e.phys) → t.word a = s.word a)) ∧
  (
    (∀ (s : State) (site : Nat) (codes : List Byte) (delta : Int) (e : EvalIn) (rest : List EvalIn), s.calm →
      bitsOf (s.core site).auditCtl 0 0 = 0 →
      let c := s.core site
      c.evals = e :: rest → c.arrQ = [] → (e.arrays.map (fun a => a.phys)).Nodup →
      let pair := isPair e.f.ww
      let n := if pair then 256 else 512
      let first := if pair && e.f.half then 256 else 0
      let reads := e.arrays.zipIdx.map (fun y =>
        readsOf (c.gDrift y.1.phys) (BitVec.ofNat 32 (s.reg Reg.SLU_INV_Ga site y.1.phys)) e y.1 codes.toArray y.2)
      let start := c.entries e.tile first n
      let r := (reads.map (fun q => arrayOutputs q n)).foldl (fun a ys => ((accumulateAll a.1 ys).1, a.2 + (accumulateAll a.1 ys).2)) (start, 0)
      s.room Reg.CNT_ACC_OVERFLOW 0 0 r.2 →
      ∃ t, exec (.sluiceCorrection site codes delta) s = .next t ∧ t = { s with cores := t.cores, regs := t.regs } ∧
        (∀ k, k ≠ site → t.core k = s.core k) ∧
        (∀ k n, (t.core site).entries k 0 n = ({ c with evals := rest }.setEntries e.tile first r.1).entries k 0 n) ∧
        (t.core site).evals = rest ∧ (t.core site).spm = c.spm ∧ (t.core site).v = c.v ∧ (t.core site).g = c.g ∧
        ((t.core site).run = if c.run = .barrier ∧ rest = [] ∧ s.localFlits site = false then .arrived else c.run) ∧
        (∀ a ∈ e.arrays, ((t.core site).arr a.phys).evals =
          if s.streamed (c.arr a.phys).holds then (c.arr a.phys).evals else ((c.arr a.phys).evals + 1) % 2 ^ 64) ∧
        t.reg Reg.CNT_ACC_OVERFLOW 0 0 = s.reg Reg.CNT_ACC_OVERFLOW 0 0 + r.2 ∧
        ∀ w, w ≠ Reg.CNT_ACC_OVERFLOW.addr 0 0 → t.word w = s.word w) ∧
    (∀ (s : State) (site : Nat) (codes : List Byte) (delta : Int) (e : EvalIn) (rest : List EvalIn) (a : EvalArr) (d : Draw) (tile : Tile) (p : Nat),
      s.calm → s.mild [] →
      let c := s.core site
      let ctl := bitsOf c.auditCtl
      let r := c.arr a.phys
      c.evals = e :: rest → c.arrQ = [] → e.arrays = [a] → isPair e.f.ww = false → ctl 0 0 = 1 → s.streamed r.holds = false →
      (r.evals + 1) % 2 ^ 64 % 2 ^ ctl 12 8 = 0 ∨ r.owed = true → r.suspended = false → s.peer site = some p → s.checkerOk p = true →
      s.rf Reg.SLU_STATE site 0 1 0 ≠ 1 → a.lost = false → s.tileOf a.holds = some tile → r.draw = some d → d.arrived = true → d.poisoned = false →
      let rs := readsOf (c.gDrift a.phys) (BitVec.ofNat 32 (s.reg Reg.SLU_INV_Ga site a.phys)) e a codes.toArray 0
      let v := meanRead (rs.map (fun y => y.value d.col))
      let c1 := exactSum (masterColumn tile false d.col) a.q + delta
      let tol := s.tolerance site (sigmaV (SMap.get a.corr corrDefault (steered a.steer d.col)) (stepK e.f.ww)
        (BitVec.ofNat 32 (s.reg Reg.SLU_INV_Ga site a.phys)) a.gains e.s e.f.dr) c1
      ∃ (t : State), exec (.sluiceCorrection site codes delta) s = .next t ∧
        t.reg Reg.SLU_AUDITS site 0 = (s.reg Reg.SLU_AUDITS site 0 + 1) % 2 ^ 64 ∧ ((t.core site).arr a.phys).evals = (r.evals + 1) % 2 ^ 64 ∧
        ((t.core site).arr a.phys).owed = false ∧
        (outside v c1 tol = false → (t.core site).arbs = c.arbs ∧ ((t.core site).arr a.phys).suspended = false) ∧
        (outside v c1 tol = true → ((t.core site).arr a.phys).suspended = true ∧ ((t.core site).arr a.phys).draw = none ∧
          (s.room Reg.SLU_DISAGREE site 0 1 → t.reg Reg.SLU_DISAGREE site 0 = s.reg Reg.SLU_DISAGREE site 0 + 1) ∧
          ∃ b, (t.core site).arbs = c.arbs ++ [b] ∧ b.arr = a.phys ∧ b.running = false ∧
            b.cols.map (fun y => (y.col, y.phys, y.a, y.c1, y.tol)) = [(d.col, steered a.steer d.col, v, c1, tol)])))

/-! ### Terwen: expert routing, waits for reductions -/

/-- `VROUTE` (R183, R184, R212): the records, the occupancy and the overflow count that the slots in ascending order give; a choice never
takes a full expert, takes at most k, and takes the experts in the order of
their ranking, leaves none out while it has fewer than k, and has overflowed exactly where the expert is not among the first k. -/
def Obligations.ExpertRouting : Prop :=
  (∀ (s : State) (x : Issue) (f : RouteF), s.runs x → s.calm →
    let c := s.core x.site
    let nx := f.xm1.toNat + 1
    let k := f.km1.toNat + 1
    let occ := f.occ.toNat
    let rows := (List.range (f.ntm1.toNat + 1)).map (fun j =>
      if (s.slotBarge (f.t0.toNat + j)).isSome then some (f32s (c.spRead (f.scores.toNat + 4 * nx * j) (4 * nx))) else none)
    let r := routeSlots (ofLE (c.spRead occ 2)) k rows (wordsOf 2 (c.spRead (occ + 4) (2 * nx))) 0
    c.spPoisoned f.scores.toNat (4 * nx * (f.ntm1.toNat + 1)) = false → c.spPoisoned occ (4 + 2 * nx) = false →
    s.room Reg.CNT_EXPERT_OVERFLOW 0 0 r.2.2 →
    CountNext (exec (.vroute x f) s) s x.site ((c.setSp (occ + 4) (bytesOf 2 r.2.1)).setSp f.out.toNat r.1)
      Reg.CNT_EXPERT_OVERFLOW 0 0 r.2.2) ∧
  ∀ (cap k : Nat) (used : List Nat) (rank : List (Nat × F32)),
    let l := chooseExperts cap k used rank 0 0
    l.length ≤ k ∧ (l.map (fun e => (e.1, e.2.1))).Sublist rank ∧ (∀ e ∈ l, used.getD e.1 0 < cap) ∧
    (l.length < k → ∀ r ∈ rank, used.getD r.1 0 < cap → ∃ b, (r.1, r.2, b) ∈ l) ∧
    (rank.Nodup → ∀ e ∈ l, e.2.2 = true ↔ ∃ n, k ≤ n ∧ rank[n]? = some (e.1, e.2.1))

/-- `WAITR` (R157, R196): the core goes on where the use has been delivered, and otherwise waits for it, while the root holds no merged
flit back. `RSEND` (R169, R205): the flits of one packet, 64 pairs each, go into the core's own router as the local child; predicated off, every
pair is (+0, +0). Nothing else changes but that the core moves on.
`REDUCTION_FLIT_ARRIVAL` (R154, R158): at a working router, a flit that its node expects joins what the children have delivered, and
while another child's flit of its number is missing nothing else happens but that a core arrives whose barrier waited for its last packet
to leave (R195); a flit that no node expects is discarded and, with its packet's first flit, counted once and raised.
That packets of a use resolved with NaN are judged as those of a completed use is the model's choice (notes/assumptions/32.md). -/
def Obligations.ReductionTraffic : Prop :=
  (
    (∀ (s : State) (x : Issue) (tree use : BitVec 8) (ustep : BitVec 4), s.runs x →
      let c := s.core x.site
      let u := use.toNat + ustep.toNat * c.stepIdx x
      c.redHold = [] →
      ((tree.toNat, u) ∈ c.redIn → CoreNext (exec (.waitr x tree use ustep) s) s x.site
        { c with run := .issue, redWaited := c.redWaited ++ [(tree.toNat, u)] }) ∧
      ((tree.toNat, u) ∉ c.redIn → CoreNext (exec (.waitr x tree use ustep) s) s x.site { c with run := .waitRed tree.toNat u })) ∧
    (∀ (s : State) (x : Issue) (f : AccF), s.canIssue x.site = true →
      let c := s.core x.site
      let i := c.stepIdx x
      let n := 64 * (f.flm1.toNat + 1)
      let ta := f.ta.toNat + f.tstep.toNat * i
      let pairs := if c.on x.pred then c.entries ta (64 * f.segq.toNat) n else List.replicate n (0, 0)
      let flits : List FlitMsg := (List.range (f.flm1.toNat + 1)).map (fun k =>
        { hop := .router x.site 0,
          flit := { tree := f.tree.toNat, use := f.use.toNat + f.ustep.toNat * i, tile := f.td.toNat + f.tstep.toNat * i,
                    seg := 64 * f.segq.toNat, flits := f.flm1.toNat + 1, k := k, pairs := (pairs.drop (64 * k)).take 64 } })
      c.tilesFree [ta] →
        exec (.rsend x f) s = .next ({ s with flits := s.flits ++ flits }.updCore x.site Core.advance))) ∧
  (
    ∀ (s : State) (site port : Nat) (f : RedFlit), site < nSites → s.calm → s.rf Reg.RTR_FENCE site 0 1 0 ≠ 2 →
      let c := s.core site
      let t : State := { s with flits := s.flits.erase { hop := .router site port, flit := f } }
      (∀ n, s.redNode site f.tree = some n → s.stray site port f = false →
        (∀ x, c.reds.find? (fun y => y.tree == f.tree && y.use == f.use) = some x →
          childFlits n.order (x.got ++ [(port, f)]) x.merged = none) →
        (c.reds.find? (fun y => y.tree == f.tree && y.use == f.use) = none → childFlits n.order [(port, f)] 0 = none) →
        CoreIs (exec (.reductionFlitArrival site port f) s) t site { c with
          reds := c.reds.filter (fun y => !(y.tree == f.tree && y.use == f.use)) ++
            [match c.reds.find? (fun y => y.tree == f.tree && y.use == f.use) with
              | some y => { y with got := y.got ++ [(port, f)] }
              | none => { tree := f.tree, use := f.use, got := [(port, f)], merged := 0 }],
          run := if c.run = .barrier ∧ c.evals = [] ∧ c.arrQ = [] ∧ t.localFlits site = false then .arrived else c.run }) ∧
      (s.stray site port f = true →
        exec (.reductionFlitArrival site port f) s =
          .next ((if f.k = 0 then (t.err Reg.RTR_RED_STRAY site 0 1).raise 0x21 site else t).settleBarrier site).settle))

/-- Mesh coordinates (R25): x = die × 34 + (reach mod 2) × 17 + column, y = (reach div 2) × 4 + row, from 0 to 67 and 0 to 7; the site at
the coordinates of a site is that site. -/
def Obligations.MeshCoordinates : Prop :=
  ∀ die reach row col : Nat, die < 2 → reach < 4 → row < 4 → col < 17 →
    let site := die * 272 + reach * 68 + row * 17 + col
    siteX site = die * 34 + reach % 2 * 17 + col ∧ siteY site = reach / 2 * 4 + row ∧ siteX site ≤ 67 ∧ siteY site ≤ 7 ∧
    siteAt (siteX site) (siteY site) = site

/-! ### Terwen: attention -/

/-- `ATT.RUN` (R217, R218, R228): each visited page's block, in ascending page order, goes into the partial state of every head, where every
page is mapped for the barge's tenant, lies near, and neither it nor the tables on the way to it carry poison; an unoccupied slot gets empty
states. Only the scratchpad at `B` changes.
Where the one page that a visit requires is missing (R240), every head gets the state of NaNs, and the barge ends `FAILED` with source 0x41
pending.
The pages that a visit takes (R228, R218): exactly the local indexes whose global page j with j mod stride = phase begins at or below the
last position, in ascending order. -/
def Obligations.AttentionRun : Prop :=
  (∀ (s : State) (x : Issue) (f : AttF) (fails : List Nat) (d : Nat), s.runs x → s.calm → s.latent = [] → headDim f.dh.toNat = some d →
    let c := s.core x.site
    let i := c.stepIdx x
    let heads := f.gm1.toNat + 1
    let a := f.a.toNat + 2 * d * heads * i
    let out := f.b.toNat + (4 * d + 64) * heads * i
    let stride := f.psm1.toNat + 1
    let empty := List.replicate heads (emptyPartial d)
    let r := fun (ps : List Partial) => CoreNext (exec (.attRun x f fails) s) s x.site (c.setSp out (ps.flatMap Partial.bytes))
    (s.attBarge x.site f = none → r empty) ∧
    ∀ n g, s.attBarge x.site f = some n → s.geom f.layer.toNat = some g → c.spPoisoned a (2 * d * heads) = false →
      let last := min ((s.barge n).length + f.poff.toNat + i) (2 ^ 20 - 1)
      let pages := visitPages stride f.pph.toNat last
      let clean := fun (j : Nat) => (s.walk n f.layer.toNat j).any (fun w => s.memPoisoned x.site w 8) = false
      ((∀ j ∈ pages, clean j ∧ ∃ p, s.kv.page n f.layer.toNat j = some p ∧ p.tenant = (s.barge n).tenant ∧ p.inFar = false ∧
        let rs := p.ranges g.heads d [f.kvh.toNat] (visitCount (j * stride + f.pph.toNat) last)
        s.failedUnits rs fails = [] ∧ s.kvPoison x.site rs = false) →
      r (pages.foldl (fun ps j => match s.kv.page n f.layer.toNat j with
        | some p =>
          let ts := List.range (visitCount (j * stride + f.pph.toNat) last)
          let vec := fun (value : Bool) (t : Nat) => s.kvVec x.site g d p f.kvh.toNat t value
          (ps.zip (c.heads a heads d)).map (fun y => y.1.block d y.2 (ts.map (vec false)) (ts.map (vec true)))
        | none => ps) empty)) ∧
      (∀ j, pages = [j] → clean j → s.kv.page n f.layer.toNat j = none → s.mild [0x41] →
        ∃ t, exec (.attRun x f fails) s = .next t ∧ t.core x.site =
            (c.setSp out ((List.replicate heads (nanPartial d)).flatMap Partial.bytes)).advance ∧
          (∀ k, k ≠ x.site → t.core k = s.core k) ∧ (⟨n, 7, 0⟩ : EndCause) ∈ t.flt.causes ∧ t.rf Reg.FCL_SRCn_STAT 0 0x41 31 31 = 1)) ∧
  (∀ (stride phase last j : Nat), 0 < stride → phase < stride →
    (j ∈ visitPages stride phase last ↔ (j * stride + phase) * 32 ≤ last) ∧
    (visitPages stride phase last).Pairwise (fun a b => a < b))

/-- `ATT.KVW` (R217, R228, R256): with position p_q's page mapped for the barge's tenant, no poison on the way or in the operands, and room in
the three counters, the keys, then the values, of each head are posted to their places in the page in the page's format, and for INT4 their
scales; an unoccupied slot, another phase's position, or a position past the last, writes nothing.
`ATT.RCMP` (R217, R254): nothing happens on an unoccupied slot or where the barge's policy does not ask for it; where one page of the
barge lies below L − `IMM`, is an FP8 page that may be taken, and neither it nor the tables on the way to it carry poison, that page is
recompressed, and the core moves on.
Recompression of a page (R101, R254) with a granule and a scale slot free: every head vector of the page, head by head, position by position,
key before value, is narrowed to INT4 and written to its place in the new granule, its scales to theirs, and the page is staged while the
entries stay as they are.
That no far granule is taken for scales is a reading (notes/assumptions/26.md). -/
def Obligations.KeyValuePages : Prop :=
  (
    ∀ (s : State) (x : Issue) (f : AttF) (d n : Nat) (g : LayerGeom), s.runs x → s.calm → s.latent = [] → headDim f.dh.toNat = some d →
      let c := s.core x.site
      let i := c.stepIdx x
      let b := s.barge n
      let pos := b.length + f.poff.toNat + i
      let stride := f.psm1.toNat + 1
      let heads := f.gm1.toNat + 1
      let a := f.a.toNat + 4 * d * heads * i
      (s.attBarge x.site f = none → CoreNext (exec (.attKvw x f) s) s x.site c) ∧
      (s.attBarge x.site f = some n → s.geom f.layer.toNat = some g → (pos / 32 % stride ≠ f.pph.toNat ∨ 2 ^ 20 ≤ pos) →
        CoreNext (exec (.attKvw x f) s) s x.site c) ∧
      ∀ p, s.attBarge x.site f = some n → s.geom f.layer.toNat = some g → pos / 32 % stride = f.pph.toNat → pos < 2 ^ 20 →
        s.kv.page n f.layer.toNat (pos / 32 / stride) = some p → p.tenant = b.tenant → p.fmt ≤ 2 → c.spPoisoned a (4 * d * heads) = false →
        (s.walk n f.layer.toNat (pos / 32 / stride)).any (fun w => s.memPoisoned x.site w 8) = false →
        s.room Reg.CNT_FP8_SAT 0 0 8192 → s.room Reg.CNT_KV_SCALE_CLAMP 0 0 8192 → s.room Reg.CNT_QUANT_NONFINITE 0 0 8192 →
        let posts := fun (value : Bool) (v : List F32 × Nat) =>
          (⟨x.site, p.addr (vecOffset g.heads d p.fmt (f.kvh.toNat + v.2) (pos % 32) value), (narrow p.fmt v.1).1, []⟩ : Posted) ::
            (if p.fmt = 2 then [⟨x.site, p.scaleAddr d (f.kvh.toNat + v.2) (pos % 32) value, (narrow p.fmt v.1).2.1, []⟩] else [])
        ∃ t, exec (.attKvw x f) s = .next t ∧ t = { s with cores := t.cores, regs := t.regs, posted := t.posted } ∧
          (∀ k, k ≠ x.site → t.core k = s.core k) ∧ t.core x.site = c.advance ∧
          t.posted = s.posted ++ (c.heads a heads d).zipIdx.flatMap (posts false) ++
            (c.heads (a + 2 * d * heads) heads d).zipIdx.flatMap (posts true) ∧
          ∀ w, w ∉ [Reg.CNT_FP8_SAT.addr 0 0, Reg.CNT_KV_SCALE_CLAMP.addr 0 0, Reg.CNT_QUANT_NONFINITE.addr 0 0] → t.word w = s.word w) ∧
  (
    (∀ (s : State) (x : Issue) (f : AttF), s.runs x → s.calm → s.latent = [] →
      let c := s.core x.site
      let layer := f.layer.toNat
      (s.attBarge x.site f = none → CoreNext (exec (.attRcmp x f) s) s x.site c) ∧
      (∀ n, s.attBarge x.site f = some n → (s.barge n).kvPolicy.testBit 2 = false → CoreNext (exec (.attRcmp x f) s) s x.site c) ∧
      ∀ (n j : Nat) (g : LayerGeom) (p : PageAt), s.attBarge x.site f = some n →
        (s.barge n).kvPolicy.testBit 2 = true → s.geom layer = some g →
        (visitPages (f.psm1.toNat + 1) f.pph.toNat (s.barge n).length).filter (fun k =>
          decide (32 * (k * (f.psm1.toNat + 1) + f.pph.toNat) + 31 + f.imm.toNat < (s.barge n).length)) = [j] →
        s.kv.page n layer j = some p → p.fmt = 1 → p.tenant = (s.barge n).tenant → p.shared = false → (∀ y ∈ p.frames, y.2 = false) →
        s.kv.busy n layer j = false → s.editNames n = false →
        (s.walk n layer j).any (fun w => s.memPoisoned x.site w 8) = false →
        exec (.attRcmp x f) s = .next ((s.recompress x.site g n layer j p).updCore x.site Core.advance).settle) ∧
    (∀ (s : State) (site n layer page fr : Nat) (g : LayerGeom) (p : PageAt) (sc : (Nat × Bool) × Nat) (t1 t2 : State), s.calm → s.mild [] →
      s.latent = [] →
      s.kvPoison site (p.ranges g.heads g.dim (List.range g.heads) 32) = false →
      s.allocNear (dieOf site) [] = some (fr, t1) → t1.allocSlot false (dieOf site) [(fr, false)] = some (sc, t2) →
      let q : PageAt := { fmt := 2, tenant := p.tenant, shared := false, frames := [(fr, false)], scale := sc }
      let vectors := (List.range g.heads).flatMap (fun h => (List.range 32).flatMap (fun t => [(h, t, false), (h, t, true)]))
      let w := vectors.foldl (fun (t : State) v =>
        let e := narrow 2 (t.kvVec site g g.dim p v.1 v.2.1 v.2.2)
        ((t.memWrite (q.addr (vecOffset g.heads g.dim 2 v.1 v.2.1 v.2.2)) e.1 []).memWrite
          (q.scaleAddr g.dim v.1 v.2.1 v.2.2) e.2.1 []).countNarrow e.2.2) t2
      s.recompress site g n layer page p = { w with kv := { w.kv with
        rcmps := w.kv.rcmps ++ [⟨n, layer, page, fr, sc.1, sc.2, p.frames.map (fun y => y.1)⟩] } } ∧
      (s.recompress site g n layer page p).kv.l3 = s.kv.l3 ∧ (s.recompress site g n layer page p).kv.rcmps =
        s.kv.rcmps ++ [⟨n, layer, page, fr, sc.1, sc.2, p.frames.map (fun y => y.1)⟩] ∧ (s.recompress site g n layer page p).calm))

/-- `ATT.MRG` and `ATT.FIN` (R217, R219): the states at `A` merged head by head into those at `B`; o ÷ l in BF16 or FP32, +0 where l is 0.
The merge of partial states (R219): two empty states give the empty state; otherwise m, l and o of the pseudocode, state a first. -/
def Obligations.MergeAndFinish : Prop :=
  (∀ (s : State) (x : Issue) (f : AttF) (d : Nat), s.runs x → s.calm → headDim f.dh.toNat = some d →
    s.room Reg.MEM_POISON_CONSUMED 0 0 1 →
    let c := s.core x.site
    let i := c.stepIdx x
    let heads := f.gm1.toNat + 1
    let size := (4 * d + 64) * heads
    let a := f.a.toNat + size * i
    let b := f.b.toNat + size * i
    let wide := f.imm.getLsbD 0
    let out := f.b.toNat + (if wide then 4 else 2) * d * heads * i
    let xs := (c.partials a heads d).flatMap (fun p => if F32.isZero p.l then p.o.map (fun _ => 0) else p.o.map (fun y => F32.div y p.l))
    CountNext (exec (.attMrg x f) s) s x.site
      (c.setSp b (((c.partials a heads d).zipWith Partial.merge (c.partials b heads d)).flatMap Partial.bytes))
      Reg.MEM_POISON_CONSUMED 0 0 (if c.spPoisoned a size || c.spPoisoned b size then 1 else 0) ∧
    CountNext (exec (.attFin x f) s) s x.site
      (c.setSp out (if wide then xs.flatMap (fun v => toLE 4 v.toNat) else bytesOf 2 (xs.map (fun v => Fmt.bf16.encode (F32.num v)))))
      Reg.MEM_POISON_CONSUMED 0 0 (if c.spPoisoned a size then 1 else 0)) ∧
  (∀ a b : Partial,
    let m := vmaxOp a.m b.m
    let ea := F32.exp (F32.sub a.m m)
    let eb := F32.exp (F32.sub b.m m)
    (a.m = negInf → b.m = negInf → a.merge b = emptyPartial a.o.length) ∧
    (a.m ≠ negInf ∨ b.m ≠ negInf →
      (a.merge b).m = m ∧ (a.merge b).l = F32.add (F32.mul a.l ea) (F32.mul b.l eb) ∧
      (a.merge b).o = a.o.zipWith (fun p q => F32.add (F32.mul p ea) (F32.mul q eb)) b.o))

/-! ### Terwen: barges -/

/-- `BRG.SLOT` and `BRG.INFO` (R220): the barge of the slot, all ones where unoccupied, with p`PD`; the field of the barge that `X8` names, 0
where unoccupied.
The slot that a barge instruction names (R220): a slot above 1,023 counts as unoccupied.
On an unoccupied slot, `BRG.VAR`, `BRG.SAMP`, `BRG.ACPT` and `BRG.EMIT` have no effect but that the core moves on (R220). -/
def Obligations.BargeReads : Prop :=
  (∀ (s : State) (x : Issue) (f : BrgF), s.runs x →
    let c := s.core x.site
    let i := c.stepIdx x
    (s.brgBarge x.site f i = none →
      CoreNext (exec (.brgSlot x f) s) s x.site ((c.setGr f.gd.toNat (BitVec.allOnes 64)).setPr f.pd.toNat false) ∧
      CoreNext (exec (.brgInfo x f) s) s x.site (c.setGr f.gd.toNat 0)) ∧
    ∀ n, s.brgBarge x.site f i = some n →
      let b := s.barge n
      let r := fun (v : Nat) => CoreNext (exec (.brgInfo x f) s) s x.site (c.setGr f.gd.toNat (BitVec.ofNat 64 v))
      let k := f.x8.toNat % 16
      CoreNext (exec (.brgSlot x f) s) s x.site ((c.setGr f.gd.toNat (BitVec.ofNat 64 n)).setPr f.pd.toNat true) ∧
      (k = 0 → r b.length) ∧ (k = 1 → r b.generation) ∧ (k = 2 → r b.variant) ∧ (k = 3 → r b.tenant) ∧ (k = 4 → r b.depth) ∧
      (k = 5 → r b.prio) ∧ (k = 6 → r b.state.code)) ∧
  (∀ (s : State) (site i : Nat) (f : BrgF), 1023 < (s.core site).brgSlot f i → s.brgBarge site f i = none) ∧
  (∀ (s : State) (x : Issue) (f : BrgF), s.runs x → s.calm → s.brgBarge x.site f ((s.core x.site).stepIdx x) = none →
    ∀ i ∈ [Instr.brgVar x f, .brgSamp x f, .brgAcpt x f, .brgEmit x f], CoreNext (exec i s) s x.site (s.core x.site))

/-- `BRG.ACPT` (R222): a − 1 is the largest number of leading drafts that equal the main model's tokens; a goes to g`GD`, and tokens t_0 to
t_(a−1) and a length advance of a are staged for the slot. The depth d is the length of the barge's run less 1 (R280; that R222 means this
d_now is a reading: notes/assumptions/24.md). -/
def Obligations.AcceptanceIsStaged : Prop :=
  ∀ (s : State) (x : Issue) (f : BrgF) (m : Nat), s.runs x → s.calm → s.brgBarge x.site f ((s.core x.site).stepIdx x) = some m →
    let c := s.core x.site
    let slot := c.brgSlot f (c.stepIdx x)
    let d := (s.barge m).dNow
    let t := wordsOf 4 (c.spRead f.a.toNat (4 * (d + 1)))
    let dr := wordsOf 4 (c.spRead f.b.toNat (4 * d))
    c.spPoisoned f.a.toNat (4 * (d + 1)) = false → c.spPoisoned f.b.toNat (4 * d) = false →
    ∃ a : Nat, 1 ≤ a ∧ a ≤ d + 1 ∧ (∀ k, k + 1 < a → dr[k]? = t[k]?) ∧ (a ≤ d → dr[a - 1]? ≠ t[a - 1]?) ∧ (d = 0 → a = 1) ∧
      ∃ u : State, exec (.brgAcpt x f) s = .next u ∧ u = { s with cores := u.cores, seq := { s.seq with accepts := u.seq.accepts } } ∧
        (∀ k, k ≠ x.site → u.core k = s.core k) ∧ u.core x.site = (c.setGr f.gd.toNat (BitVec.ofNat 64 a)).advance ∧
        u.seq.accepts = s.seq.accepts.filter (fun z => z.slot != slot) ++ [⟨slot, a, (t.take a).map (BitVec.ofNat 32), false⟩]

/-- `BRG.VAR` (R220, R283): variant 0 leaves the values; a loaded variant's layer turns x into α × x + v, read where no poison can be met, product and
sum each rounded once (a reading: notes/assumptions/24.md).
`BRG.SAMP` (R175, R221): the token that the candidates give at the slot's position goes to g`GD` and to `B`, and the slot has given a
token; where they give none, nothing is written and the slot has given none. At temperature 0 the token is the first candidate's, and none
where a candidate is NaN. That register and scratchpad stay without a token, that the position is the sampled slot's, and that −0 counts as
temperature 0 are readings (notes/assumptions/24.md). -/
def Obligations.SteeringAndSampling : Prop :=
  (
    ∀ (s : State) (x : Issue) (f : BrgF) (m : Nat), s.runs x → s.calm → s.brgBarge x.site f ((s.core x.site).stepIdx x) = some m →
      let c := s.core x.site
      let v := (s.barge m).variant
      let xs := f32s (c.spRead f.a.toNat (4 * (256 * (f.x12.toNat + 1))))
      (v = 0 → CoreNext (exec (.brgVar x f) s) s x.site c) ∧
      ∀ l, v ≠ 0 → (s.variant v).data[f.x8.toNat]? = some l → s.poison = [] → (∀ k, k < 8 → s.rf Reg.MEM_STACKs_STATE k 0 2 0 ≠ 3) →
        c.spPoisoned f.a.toNat (4 * (256 * (f.x12.toNat + 1))) = false →
        ∃ t, exec (.brgVar x f) s = .next t ∧ t = { s with cores := t.cores, freeCtr := s.freeCtr + 1 } ∧
          (∀ k, k ≠ x.site → t.core k = s.core k) ∧ t.core x.site = (c.setSp f.a.toNat ((steer l xs).flatMap (fun y => toLE 4 y.toNat))).advance ∧
          ∀ n y, xs[n]? = some y →
            (steer l xs)[n]? = some (F32.add (F32.mul l.alpha y) (F32.of (BF16.num (l.v.getD n 0))))) ∧
  (
    (∀ (s : State) (x : Issue) (f : BrgF) (m : Nat), s.runs x → s.calm → s.brgBarge x.site f ((s.core x.site).stepIdx x) = some m →
      let c := s.core x.site
      let slot := c.brgSlot f (c.stepIdx x)
      let k := f.x12.toNat + 1
      let ws := wordsOf 4 (c.spRead f.a.toNat (8 * k))
      let cands := (List.range k).map (fun j => (ws.getD (2 * j) 0, (BitVec.ofNat 32 (ws.getD (2 * j + 1) 0) : F32)))
      let tok := sampleToken (s.barge m) ((s.barge m).length + (slot - (s.barge m).runFirst)) cands
      c.spPoisoned f.a.toNat (8 * k) = false →
      ∃ u : State, exec (.brgSamp x f) s = .next u ∧ u = { s with cores := u.cores, seq := { s.seq with sampled := u.seq.sampled } } ∧
        (∀ j, j ≠ x.site → u.core j = s.core j) ∧ u.seq.sampled = s.seq.sampled.filter (fun z => z.1 != slot) ++ [(slot, tok.isSome)] ∧
        (tok = none → u.core x.site = c.advance) ∧
        ∀ n, tok = some n → u.core x.site = ((c.setGr f.gd.toNat (BitVec.ofNat 64 n)).setSp f.b.toNat (toLE 4 n)).advance) ∧
    ∀ (b : Barge) (n : Nat) (cands : List (Nat × F32)), F32.isZero (F32.ofF16 b.temp) = true →
      ((∃ c ∈ cands, F32.isNan c.2 = true) → sampleToken b n cands = none) ∧
      ((∀ c ∈ cands, F32.isNan c.2 = false) → sampleToken b n cands = cands.head?.map (fun c => c.1)))

/-- `BRG.EMIT` (R175, R220, R272, R397), with nothing else waiting in the output: the tokens staged for the slot, cut as R272 says, or none
where the slot is not of the barge's step, are handed on. While a slot of the step is not sampled, or a barge below of the session has yet to
come, they wait in the output; otherwise they are sent, unless there are none or a slot yields no token.
Where nothing is staged for the slot, the core moves on.
Truncation of a decode barge's tokens (R272): never more than a, never past the first stop token, never past the output limit or the last
position. -/
def Obligations.EmitHandsOn : Prop :=
  (∀ (s : State) (x : Issue) (f : BrgF) (m : Nat), s.runs x → s.calm →
    s.brgBarge x.site f ((s.core x.site).stepIdx x) = some m →
    let slot := (s.core x.site).brgSlot f ((s.core x.site).stepIdx x)
    (s.seq.accepts.find? (fun z => z.slot == slot && !z.emitted) = none →
      CoreNext (exec (.brgEmit x f) s) s x.site (s.core x.site)) ∧
    ∀ e, s.seq.accepts.find? (fun z => z.slot == slot && !z.emitted) = some e → s.seq.outbox = [] →
      let ts := if (s.barge m).stepSlot slot then e.tokens.take ((s.barge m).truncate e.a e.tokens) else []
      let put := fun (o : List (Nat × List (BitVec 32))) => ({ s with seq := { s.seq with
        accepts := s.seq.accepts.map (fun z => if z.slot = slot then ({ z with emitted := true } : AccSlot) else z)
        outbox := o } } : State)
      let u := put [(m, ts)]
      let early := s.unsampled m = true ∨ u.waitsBelow (s.barge m).session m = true
      (early → exec (.brgEmit x f) s = .next (u.updCore x.site Core.advance)) ∧
      (¬early → (ts = [] ∨ s.noToken m = true) → exec (.brgEmit x f) s = .next ((put []).updCore x.site Core.advance)) ∧
      (¬early → ts ≠ [] → s.noToken m = false →
        exec (.brgEmit x f) s = .next (((put []).sendTokens m ts).updCore x.site Core.advance).settle)) ∧
  (∀ (b : Barge) (a : Nat) (ts : List (BitVec 32)), b.state = .decode → b.length < 1048576 →
    let a' := b.truncate a ts
    a' ≤ a ∧ b.length + a' ≤ 1048576 ∧
    (b.maxNew ≠ 0 → a' ≤ b.maxNew + b.promptLen - (b.length + 1)) ∧
    (b.stop ≠ 0xFFFFFF → ∀ k t, k + 1 < a' → ts[k]? = some t → t.toNat ≠ b.stop))

/-! ### The sluice -/

/-- The audit's arrivals and checks (R123, R129, R130, R363): `MASTER_COLUMN_ARRIVAL` marks the drawn column as arrived, unless the tile's master
weights are lost; `ARBITRATION_START` runs the oldest pending arbitration that finds a checker, in the open window, with the table, G and
1 ÷ G of its own start for the repeat where the array still holds the tile; `PEER_CHECK` forms C2 from the retained operands and counts once,
also for a pair (the model's choice: notes/assumptions/35.md).
`ARBITRATION_VERDICT` (R130 to R132): the arbitration leaves the core's list, audits of its array resume, and every column has its verdict
carried out in order, from the repeat's own reads of its physical column where a repeat ran: the transient one counted, raised and
recorded.
The verdict on a column (R130, R131): from A′ against C2 where the repeat ran, and C1 against C2, in the tolerance formed with C1 (a reading:
notes/assumptions/33.md); a NaN lies outside it (the model's choice: notes/assumptions/35.md). -/
def Obligations.AuditsAndVerdicts : Prop :=
  (
    ∀ (s : State) (site arr : Nat) (delta : Int), s.calm →
      let c := s.core site
      (∀ d, (c.arr arr).draw = some d →
        (s.masterLost (c.arr arr).holds = true → exec (.masterColumnArrival site arr false) s = .next s) ∧
        (s.masterLost (c.arr arr).holds = false → CoreIs (exec (.masterColumnArrival site arr false) s) s site
          (c.setArr arr { c.arr arr with draw := some { d with arrived := true, poisoned := false } }))) ∧
      (∀ a, c.window = true → (∀ b ∈ c.arbs, b.running = false) → c.arbs.find? (fun b => (s.secondChecker site b).isSome) = some a →
        let ran := a.replaced = false ∧ (c.arr a.arr).fill = none ∧ (c.arr a.arr).holds = a.ev.holds
        let r := (c.evalStart a.ev, c.gDrift a.arr, (BitVec.ofNat 32 (s.reg Reg.SLU_INV_Ga site a.arr) : F32))
        ∃ t, exec (.arbitrationStart site) s = .next t ∧ t = { s with cores := t.cores, regs := t.regs } ∧
          (∀ k, k ≠ site → t.core k = s.core k) ∧
          (ran → t.core site = c.updArb (fun b => b == a) (fun b =>
            { b with running := true, checker2 := s.secondChecker site a, c2 := [], rep := some r })) ∧
          (¬ran → t.regs = s.regs ∧ t.core site = c.updArb (fun b => b == a) (fun b =>
            { b with running := true, checker2 := s.secondChecker site a, c2 := [], rep := none }))) ∧
      ∀ a p, c.arbs.find? (fun b => b.running && b.c2.isEmpty) = some a → a.checker2 = some p →
        ∃ t, exec (.peerCheck site false delta) s = .next t ∧ t = { s with cores := t.cores, regs := t.regs } ∧
          (∀ k, k ≠ site → t.core k = s.core k) ∧
          t.core site = c.updArb (fun b => b == a) (fun b => { b with c2 := a.cols.map (fun y => exactSum y.master a.ev.q + delta) }) ∧
          t.reg Reg.SLU_PEER_AUDITS p 0 = (s.reg Reg.SLU_PEER_AUDITS p 0 + 1) % 2 ^ 64 ∧
          ∀ w, w ≠ Reg.SLU_PEER_AUDITS.addr p 0 → t.word w = s.word w) ∧
  (
    (∀ (s : State) (site : Nat) (codes : List Byte) (a : Arb), (s.core site).arbs.find? (fun b => b.running && !b.c2.isEmpty) = some a →
      let c := s.core site
      let e : EvalIn := { f := a.f, s := a.s, p := a.p, tile := 0, stalled := false, since := 0, arrays := [a.ev] }
      let rep := fun (y : ArbCol) => a.rep.map (fun z =>
        meanRead ((readsOf z.2.1 z.2.2 e z.1 codes.toArray 0).map (fun r => r.analogue y.phys (y.col % 2 == 0))))
      let d : Core := { c with arbs := c.arbs.filter (fun b => b != a) }
      let u := (a.cols.zip a.c2).foldl (fun (t : State) y =>
        t.applyVerdict site a y.1 y.2 (rep y.1) codes)
        ((s.setCore site d).updCore site (fun y => y.setArr a.arr { y.arr a.arr with suspended := false }))
      exec (.arbitrationVerdict site codes) s = .next ((u.drawAudit site a.arr (isPair a.f.ww)).showResolving site).settle ∧
      ∀ (t : State) (y : ArbCol) (c2 : Int) (rep : Option F32), verdictOf y c2 rep = .transient →
        t.applyVerdict site a y c2 rep codes =
          ((t.err Reg.SLU_TRANSIENT site 0 1).raise 0x18 site).captureAudit 0x18 site (auditRecord site a y .transient rep c2 codes)) ∧
    (∀ (x : ArbCol) (c2 : Int) (v : F32),
      verdictOf x c2 none = (if x.c1 = c2 then .transient else .checker) ∧
      (x.c1 = c2 → verdictOf x c2 (some v) = if outside v c2 x.tol then .permanent else .transient) ∧
      (x.c1 ≠ c2 → verdictOf x c2 (some v) = if outside v c2 x.tol then .suspect else .checker)))

/-- `SPARE_PROGRAM_DONE` (R41) on a resident array in canonical form that holds a tile: the cells of the spare hold the levels of the element's
master weights, at the places that carry the other element of each cell; no other cell of the array has changed, and the retirement is done,
to switch at the next boundary. Without master weights to program from, or on a die without a control pair that works (R31), nothing happens
(notes/assumptions/12.md).
`CONV_HANDOVER` (R31, R49, R436): while the rotation runs, no calibration holds the site, no evaluation of the array is in flight, the repeat of
an arbitration among them, and the die has a control pair that works, the spare converter takes the slot after the one it holds, from 0 when it
holds none; the relieved converter passes its check, so the trims found apply to it alone, and the trims of the array go to the store of its die. -/
def Obligations.SparesAndConverters : Prop :=
  (
    ∀ (s : State) (site arr : Nat) (u : Retire), arr < 17 →
      let c := s.core site
      let r := c.arr arr
      r.retire.find? (fun t => t.started && !t.done) = some u →
      ((r.holds ≠ .none ∧ s.tileOf r.holds = none) ∨ s.dieWorks (dieOf site) = false → exec (.spareProgramDone site arr) s = .next s) ∧
      ∀ tile, s.dieWorks (dieOf site) = true → Mem.wf r.cells = true → s.tileOf r.holds = some tile →
        (u.isRow = true → ((List.range 512).map (remapped r.steer)).Nodup ∧ ∀ k, k < 512 → remapped r.steer k < 528) →
        (u.isRow = false → u.spare < 528 ∧ ((List.range 1024).map (remapped r.rowMap)).Nodup) →
        ∃ t, exec (.spareProgramDone site arr) s = .next t ∧ t = { s with cores := t.cores } ∧ (∀ k, k ≠ site → t.core k = s.core k) ∧
          let q := (t.core site).arr arr
          q = { r with cells := q.cells, retire := r.retire.map (fun (y : Retire) =>
            if y.isRow = u.isRow ∧ y.spare = u.spare then { y with done := true } else y) } ∧
          (u.isRow = true → ∀ k, k < 512 → Mem.get q.cells (528 * u.spare + remapped r.steer k) = masterLevel tile u.elem k) ∧
          (u.isRow = false → ∀ k, k < 1024 → Mem.get q.cells (528 * remapped r.rowMap k + u.spare) = masterLevel tile k u.elem) ∧
          ∀ row col, col < 528 → (if u.isRow then row else col) ≠ u.spare → Mem.get q.cells (528 * row + col) = Mem.get r.cells (528 * row + col)) ∧
  (
    ∀ (s : State) (site arr : Nat) (y : ConvFound), s.calm → s.enabled site = true → arr < 19 → s.rf Reg.ARY_CONV_ROT site 0 0 0 = 1 →
      s.dieWorks (dieOf site) = true → (s.core site).evals.any (fun e => e.selects arr) = false →
      (s.core site).arbs.any (fun b => b.running && b.arr == arr && b.rep.isSome) = false → s.rf Reg.ARY_CONVa site arr 4 4 = 0 →
        s.rf Reg.ARY_CONVa site arr 24 24 = 0 → s.jobs.calibrate = none →
      convPasses y = true → y.dnl ≤ 400 →
      let cur := s.rf Reg.ARY_CONVa site arr 3 0
      let r := (s.core site).arr arr
      let nxt := if 8 ≤ cur then 0 else (cur + 1) % 8
      ∃ t, exec (.convHandover site arr y) s = .next t ∧ t = { s with cores := t.cores, regs := t.regs, cal := t.cal } ∧
        (∀ k, k ≠ site → t.core k = s.core k) ∧ t.rf Reg.ARY_CONVa site arr 3 0 = nxt ∧
        (∀ k, SMap.get ((t.core site).arr arr).convRef 512 k = if k = nxt then trimCode y.ref else SMap.get r.convRef 512 k) ∧
        (∀ k, SMap.get ((t.core site).arr arr).convOff 512 k = if k = nxt then trimCode y.off else SMap.get r.convOff 512 k) ∧
        ((t.core site).arr arr).corr = r.corr ∧ ((t.core site).arr arr).cells = r.cells ∧
        (t.cal[dieOf site]?).map (fun q => q.waiting.map (fun z => z.typ)) =
          (s.cal[dieOf site]?).map (fun q => q.waiting.map (fun z => z.typ) ++ [1]) ∧
        ∀ w, w ∉ [Reg.ARY_CONVa.addr site arr] → t.word w = s.word w)

/-! ### Host commands -/

/-- The tenants' commands of the flight (R265, R283, R395): taken from an open session whose command passes the shared checks, each waits
with its session, tag and tenant, last in the entry device's queue, and nothing else of the device changes. In a halted flight only cancel
waits; every other, here a park, is answered `E_BUSY` (R315).
`SCHED_ACTIVATE` and `GEN_COMMIT` wait in the same queue (R172, R342); a VX-20 record taken in a flight that is not halted waits as the
submission that R285 makes of it: depth 0, variant 0, the policy of `SEQ_COMPAT` in force, temperature 0 where its flag asks, stop 0xFF_FFFF for
none, no deadline between tokens; `0x0002` of version 1.1 waits as a cancel of the session's barge with the request number (R396). -/
def Obligations.FlightCommandsAreQueued : Prop :=
  (
    ∀ (s : State) (h : Hdr) (x : Session) (n m k gen : Nat) (f : SubmitF) (prompt : List (BitVec 32)) (data : List VarLayer), s.calm →
      let q := fun (i : Instr) (b : BargeCmd) => exec i s = .next (s.queued h x.tenantNo b)
      let ok := fun (op : Nat) => s.accepts h (tenantRow op) false true true x
      (ok 0x0141 → q (.cancel h n) (.cancel n)) ∧
      (s.flightState = 3 → ok 0x0142 → exec (.park h n) s = .next ((s.taken h).answer (replyTo h 0x0142) stBusy []).settle) ∧
      (s.flightState ≠ 3 →
      (ok 0x0140 → f.pad = 0 → f.kvPolicy.toNat < 8 → f.variant.toNat < 4096 → f.topK.toNat < 4096 → f.stop.toNat < 2 ^ 24 →
        f.itl.toNat < 2 ^ 24 → prompt.length = f.promptLen.toNat → f.prio.toNat ≤ 7 → f.depthMax.toNat ≤ 7 →
        (∀ t ∈ prompt, t.toNat < s.vocab) → q (.submit h f prompt) (.submit f prompt none)) ∧
      (ok 0x0142 → q (.park h n) (.park n)) ∧ (ok 0x0143 → q (.resume h n) (.resume n)) ∧
      (ok 0x0144 → q (.prefixMap h n m k) (.prefixMap n m k)) ∧ (ok 0x0145 → q (.trim h n k) (.trim n k)) ∧
      (ok 0x0146 → q (.release h n) (.release n)) ∧
      (ok 0x0150 → 1 ≤ n → n ≤ 4095 → s.varShapeOk m k data = true → q (.varLoad h n gen m k data) (.varLoad n gen data)) ∧
      (ok 0x0151 → 1 ≤ n → n ≤ 4095 → q (.varUnload h n) (.varUnload n)))) ∧
  (
    ∀ (s : State) (h : Hdr) (x : Session) (tag lockage gen mode mask timeout valid n : Nat) (r : Vx20Rec) (prompt : List (BitVec 32))
      (request : BitVec 32) (b : Barge), s.calm →
      let q := fun (i : Instr) (tenant : Nat) (c : BargeCmd) => exec i s = .next (s.queued h tenant c)
      (s.accepts h (opEntryRow 0x0122) false true true x → s.inFlight = true → s.reg Reg.FLK_LOCKAGE 0 0 < lockage →
        (∀ e ∈ s.seq.barges, e.2.state = .free) → q (.schedActivate h tag lockage) 0 (.activate tag lockage)) ∧
      (s.accepts h (opEntryRow 0x0132) false true true x → gen < 256 → mode < 2 → mask < 65536 → valid < 2 → 1 ≤ timeout → timeout ≤ 1048575 →
        q (.genCommit h gen mode mask timeout valid tag) 0 (.commit gen (mode == 1) mask timeout (if valid = 1 then some tag else none))) ∧
      (s.accepts h (tenantRow 0x0001) false true true x → s.flightState ≠ 3 → r.version = 0x0102 → s.seq.compatNow.testBit 31 = true →
        r.flags.toNat ≤ 1 → r.pad = 0 →
        prompt.length = r.promptLen.toNat → r.promptLen.toNat ≤ 1048575 → r.prio.toNat ≤ 7 → (r.stop.toNat < 0xFFFFFF ∨ r.stop = 0xFFFFFFFF) →
        (∀ t ∈ prompt, t.toNat < s.vocab) →
        q (.vx20Request h r prompt) x.tenantNo (.submit
          { prio := r.prio, kvPolicy := BitVec.ofNat 8 (bitsOf s.seq.compatNow 18 16), depthMax := 0, pad := 0, variant := 0, topK := r.topK
            promptLen := r.promptLen, maxNew := r.maxNew, stop := if r.stop = 0xFFFFFFFF then 0xFFFFFF else r.stop, ttft := r.deadline
            itl := 0xFFFFFF, temp := if r.flags = 1 then 0 else r.temp, topP := r.topP, seed := r.seed } prompt (some r.request))) ∧
      (s.accepts h (tenantRow 0x0002) false true true x →
        s.seq.barges.filter (fun e => e.2.compat && e.2.session == h.session && e.2.request == request) = [(n, b)] →
        q (.vx20Abort h request) x.tenantNo (.cancel n)))

/-- An answer (R382, R387, R388, R390): where it fits one message and the window takes it, it leaves as the next message of the session's
answer stream: the header, which acknowledges the command stream, and the bytes of the answer encrypted and authenticated under the stream's
key with the nonce of its number; the tag no longer waits; a rejection carries no data and is counted. Nothing else changes. -/
def Obligations.AnswersLeaveInOrder : Prop :=
  ∀ (s : State) (r : Reply) (st : Nat) (data : List Byte) (x : Session), s.session r.session = some x →
    let bs := answerBytes r.op r.tag st (if st = stOk then data else [])
    let head := headBytes x.ver.toNat 4 1 0 x.number (bs.length + 16) x.ans.next x.cmd.next x.cmd.sack
    let wire := head ++ gcmSeal x.keys.kAns (nonceOf x.keys.ivAns x.ans.next false) head bs
    x.ans.waiting = [] → x.ans.sent.length < 1024 → x.ans.next < 0xFFFFFFFE → bs.length ≤ s.maxPayload x.udp →
    s.room Reg.HPT_CMD_REJECT 0 0 1 →
    let t := s.answer r st data
    t = { s with hpt := { s.hpt with sessions := t.hpt.sessions }, regs := t.regs } ∧
    t.session r.session = some { x with
      unanswered := x.unanswered.erase r.tag
      ans := { next := x.ans.next + 1, waiting := []
               sent := x.ans.sent ++ [⟨x.ans.next, bs, false, some (x.cmd.next, x.cmd.sack), wire, 0, false⟩] } } ∧
    (∀ k, k ≠ r.session → t.session k = s.session k) ∧
    t.reg Reg.HPT_TX_MSGS 0 0 = (s.reg Reg.HPT_TX_MSGS 0 0 + 1) % 2 ^ 64 ∧
    t.reg Reg.HPT_CMD_REJECT 0 0 = s.reg Reg.HPT_CMD_REJECT 0 0 + (if st = stOk ∨ st = stComplete then 0 else 1) ∧
    ∀ a, a ∉ [Reg.HPT_TX_MSGS.addr 0 0, Reg.HPT_CMD_REJECT.addr 0 0] → t.word a = s.word a

/-! ### Management registers -/

/-- Reads (R12, R15, R393, R396, R412, R447, R501): `REG_READ` of either version answers the words of the range in ascending order, or the
status of its check; a register answers its words with every WO field as 0 and every other field as the device shows it; an address
inside a block at which no register is defined answers 0; an error counter is read and cleared, over the management network too; a read of
`HKA_QUEUE` takes the oldest entry; nothing else changes. -/
def Obligations.RegisterReads : Prop :=
  ∀ (s : State) (h : Hdr) (x : Session) (addr count : Nat) (f : RegFam) (i j : Nat), s.calm → addr % 4 = 0 →
    let u := s.taken h
    let v := u.shown f i j
    let new := fun (n : Nat) => s.accepts h (opRowM 0x0101) (recoveryReads addr n) true true x
    let old := s.accepts h (opRowM 0x0003) false true true x
    let told := fun (st : Nat) (ws : List (BitVec 32)) (t : State) => ({ t with hpt := { s.hpt with status := st, data := ws } } : State)
    (1 ≤ count → count ≤ 256 →
      let answered := fun (op : Nat) => Host.Outcome.next (let r := u.regRead addr count
        r.1.answer (replyTo h op) r.2.1 (regWordBytes r.2.2)).settle
      (new count → exec (.regRead h addr count) s = answered 0x0101) ∧ (old → exec (.vx20RegRead h addr count) s = answered 0x0003) ∧
      ((∃ k, k < count ∧ s.addrOk (addr + 4 * k) = false) → u.regRead addr count = (u, stNotFound, []))) ∧
    (∀ y ∈ f.fields, (y.acc = .wo → bitsOf (s.shown f i j) y.hi y.lo = 0) ∧
      (y.acc ≠ .wo → (∀ z ∈ f.fields, z.acc = .wo → z.hi < y.lo ∨ y.hi < z.lo) →
        bitsOf (s.shown f i j) y.hi y.lo = bitsOf (s.view f i j) y.hi y.lo)) ∧
    (s.addrOk addr = true →
      (regAt addr = some (f, i, j, 0) → f.wide = false →
        (new 1 → Done (exec (.regRead h addr 1) s) h 0x0101 (u.afterRead f i j) (toLE 4 (v % 2 ^ 32))) ∧
        (old → Done (exec (.vx20RegRead h addr 1) s) h 0x0003 (u.afterRead f i j) (toLE 4 (v % 2 ^ 32)))) ∧
      (regAt addr = some (f, i, j, 0) → regAt (addr + 4) = some (f, i, j, 1) → f.wide = true → s.addrOk (addr + 4) = true →
        let both := toLE 4 (v % 2 ^ 32) ++ toLE 4 (v / 2 ^ 32 % 2 ^ 32)
        (new 2 → Done (exec (.regRead h addr 2) s) h 0x0101 (u.afterRead f i j) both) ∧
        (old → Done (exec (.vx20RegRead h addr 2) s) h 0x0003 (u.afterRead f i j) both)) ∧
      (regAt addr = none → (new 1 → Done (exec (.regRead h addr 1) s) h 0x0101 u [0, 0, 0, 0]) ∧
        (old → Done (exec (.vx20RegRead h addr 1) s) h 0x0003 u [0, 0, 0, 0]))) ∧
    (f.base ≠ Reg.HKA_QUEUE.base → (∀ y ∈ f.fields, y.acc ≠ .rsc) → u.afterRead f i j = u) ∧
    (f.base ≠ Reg.HKA_QUEUE.base → f.fields = Reg.errFields → OnlyRegs s (s.afterRead f i j) [f.addr i j] ∧
      (s.afterRead f i j).rf f i j 31 0 = 0) ∧
    (s.pow.booted = true →
      (s.addrOk addr = true → regAt addr = some (f, i, j, 0) → f.wide = false →
        exec (.errorCounterRead addr) s = .next (told stOk [BitVec.ofNat 32 (s.shown f i j)] (s.afterRead f i j))) ∧
      (s.addrOk addr = false → exec (.errorCounterRead addr) s = .next (told stNotFound [0] s)) ∧
      exec .hkaQueueRead s = .next (match s.sense.queue with
        | [] => told stOk [0] s
        | e :: l => told stOk [BitVec.ofNat 32 (2 ^ 31 + e.trig * 2 ^ 29 + e.chan * 2 ^ 24 + e.seq % 1024 * 2 ^ 14 + e.code)]
          { s with sense := { s.sense with queue := l } }))

/-- Writes (R12, R13, R393, R501) of a register of 32 or 64 bits, over the management network and by the host: an RW field takes the value
written, W1S sets, W1C clears where a 1 is written, every other field, a WO field too, keeps its value; no other register and nothing else
changes but what reports the access, or answers it; `FLK_FORM` and `FLK_COORD` also give the device its number. A write outside every
block, of a reserved bit, of a value out of range, or against the register's own rule changes nothing but the report or the answer. -/
def Obligations.RegisterWrites : Prop :=
  ∀ (s : State) (h : Hdr) (x : Session) (addr : Nat) (v : BitVec 64) (f : RegFam) (i j : Nat), s.calm →
    let u := s.taken h
    let w : RegWr := ⟨f, i, j, if f.wide then v.toNat else v.toNat % 2 ^ 32⟩
    let words := wordsAt addr v
    let ok := s.accepts h (opRowM 0x0102) false true true x ∧ addr % 4 = 0
    let told := fun (st : Nat) (t : State) => ({ t with hpt := { s.hpt with status := st, data := [] } } : State)
    let here := s.pow.booted = true ∧ regAt addr = some (f, i, j, 0) ∧ s.addrOk addr = true ∧
      (f.wide = true → regAt (addr + 4) = some (f, i, j, 1) ∧ s.addrOk (addr + 4) = true)
    let makes := fun (e : State → State) => (s.ownRule (s.plainWrite w) w = stOk → exec (.registerWrite addr v) s = .next (told stOk (e s))) ∧
      (ok → u.ownRule (u.plainWrite w) w = stOk → Done (exec (.regWrite h addr words.length words) s) h 0x0102 (e u) [])
    let rejected := fun (st : Nat) => exec (.registerWrite addr v) s = .next (told st s) ∧
      (ok → exec (.regWrite h addr words.length words) s = .next (u.answer (replyTo h 0x0102) st []).settle)
    (here → w.fieldsOk = true → w.rangeOk = true →
      (f.base ∉ [Reg.FLK_FORM.base, Reg.FLK_COORD.base, Reg.SPM_PWR.base, Reg.SPM_MARCH.base, Reg.FCL_SIG_ERASE.base,
        Reg.FCL_CHIP_RESET.base] → ¬(f.base = Reg.HPT_CTL.base ∧ w.value.testBit 0 = true) → makes (fun t => t.plainWrite w)) ∧
      (f.base = Reg.FLK_FORM.base ∨ f.base = Reg.FLK_COORD.base → makes (fun t => (t.plainWrite w).showDevNo)) ∧
      (∀ st, st ≠ stOk → st ≠ stHoldup → s.ownRule (s.plainWrite w) w = st → u.ownRule (u.plainWrite w) w = st → rejected st)) ∧
    (OnlyRegs s (s.plainWrite w) [f.addr i j] ∧
      (f.fields.Pairwise (fun a b => a.hi < b.lo ∨ b.hi < a.lo) → (∀ y ∈ f.fields, y.lo ≤ y.hi ∧ y.hi < 64) → ∀ y ∈ f.fields,
        let old := bitsOf (s.reg f i j) y.hi y.lo
        let b := bitsOf w.value y.hi y.lo
        (s.plainWrite w).rf f i j y.hi y.lo = match y.acc with
          | .rw => b
          | .w1s => old ||| b
          | .w1c => old - (old &&& b)
          | _ => old)) ∧
    (s.pow.booted = true → s.addrOk addr = false → rejected stNotFound) ∧
    (here → w.fieldsOk = false → rejected stBadField) ∧
    (here → w.fieldsOk = true → w.rangeOk = false → rejected stRange)

/-- The security block is read only (R483): no register of it has a field of access RW, WO, W1C or W1S, and every write to it is rejected
with `E_BAD_FIELD`, over the management network and as the host's `REG_WRITE`, and changes nothing but the report of that status, or the answer. -/
def Obligations.SecurityRegistersRejectWrites : Prop :=
  (∀ f ∈ Reg.blockSEC, ∀ y ∈ f.fields, y.acc = .ro ∨ y.acc = .rsc) ∧
  ∀ (s : State) (h : Hdr) (x : Session) (addr : Nat) (v : BitVec 64) (words : List (BitVec 32)), s.calm → 0x70000 ≤ addr → addr < 0x80000 →
    (s.pow.booted = true → exec (.registerWrite addr v) s = .next { s with hpt := { s.hpt with status := stBadField, data := [] } }) ∧
    (s.accepts h (opRowM 0x0102) false true true x → addr % 4 = 0 → words ≠ [] → addr + 4 * words.length ≤ 0x80000 →
      exec (.regWrite h addr words.length words) s = .next ((s.taken h).answer (replyTo h 0x0102) stBadField []).settle)

/-- The writes that a row of its own names, over the management network and where their rules allow them: the rotation starts (R73), a halt is
requested (R315), a source is cleared and configured (R405, R406), records below a number are erased (R416), the port retrains, which closes every
session with reason 5 and raises 0x68 where the link was up (R388, R400), a scratchpad changes its power mode (R368), a march test starts (R369,
R370), the key resets the device (R408). -/
def Obligations.ManagementWriteEffects : Prop :=
  ∀ (s : State) (site n : Nat) (value number : BitVec 32) (mode : BitVec 2), s.calm → s.pow.booted = true →
    let wrote := fun (i : Instr) (f : RegFam) (k l v : Nat) => ∃ t, exec i s = .next t ∧
      t = { s with regs := t.regs, hpt := { s.hpt with status := stOk, data := [] } } ∧ (∀ a, a ≠ f.addr k l → t.word a = s.word a) ∧
      t.reg f k l = v
    (s.enabled site = true → s.rf Reg.ARY_CAL_METHOD site 0 31 31 = 1 → s.jobs.calibrate = none → s.reg Reg.ARY_CONV_ROT site 0 ≤ 1 →
      wrote (.aryConvRotWrite site) Reg.ARY_CONV_ROT site 0 1) ∧
    (s.reg Reg.FLK_HALT_REQ 0 0 ≤ 1 → wrote .flkHaltReqWrite Reg.FLK_HALT_REQ 0 0 1) ∧
    (s.safe = false → srcTaken n = true → s.rf Reg.FCL_SRCn_STAT 0 n 31 31 = 1 →
      wrote (.pendingClear n) Reg.FCL_SRCn_STAT 0 n (s.reg Reg.FCL_SRCn_STAT 0 n - 2 ^ 31)) ∧
    (s.safe = false → srcTaken n = true → value.toNat &&& 0xFF03 = value.toNat → (value.getLsbD 10 = true →
      unitIsSite n = true ∨ unitIsHost n = true) →
      ¬(value.getLsbD 11 = true ∧ value.getLsbD 15 = true) → s.reg Reg.FCL_SRCn_CFG 0 n &&& 0xFF03 = s.reg Reg.FCL_SRCn_CFG 0 n →
      wrote (.fclSrcCfgWrite n value) Reg.FCL_SRCn_CFG 0 n value.toNat) ∧
    (s.safe = false → s.shut = false → number.toNat ≤ s.reg Reg.FCL_SIG_NEXT 0 0 → s.holdup 200 = true →
      exec (.fclSigEraseWrite number) s = .next { s with
        fcl := { s.fcl with store := s.fcl.store.filter (fun r => decide (number.toNat ≤ r.number)) }
        hpt := { s.hpt with status := stOk, data := [] } }) ∧
    (s.reg Reg.HPT_CTL 0 0 ≤ 7 → 2 ≤ s.reg Reg.HPT_CTL 0 0 → (s.hpt.sessions.map (fun y => y.number)).Nodup →
      (∀ y ∈ s.hpt.sessions, y.isOpen = true → y.closing = false) →
      let shut := s.hpt.sessions.filter (fun y => y.isOpen)
      ∃ t, exec .hptRetrainWrite s = .next t ∧ t.hpt.status = stOk ∧ t.hpt.data = [] ∧
        t.rf Reg.HPT_CTL 0 0 0 0 = 1 ∧ t.rf Reg.HPT_CTL 0 0 2 1 = s.rf Reg.HPT_CTL 0 0 2 1 ∧ t.linkState = 1 ∧
        (s.linkUp = false → shut = [] → t = { s with regs := t.regs, hpt := { s.hpt with status := stOk, data := [] } } ∧
          ∀ a, a ∉ [Reg.HPT_CTL.addr 0 0, Reg.HPT_LINK_STATE.addr 0 0] → t.word a = s.word a) ∧
        (s.mild [0x68] → t.hpt.sent = s.hpt.sent ++ shut.map (fun y => y.closeMsg 5) ∧ (∀ y ∈ t.hpt.sessions, y.isOpen = false) ∧
          (s.linkUp = true → t.rf Reg.FCL_SRCn_STAT 0 0x68 31 31 = 1) ∧
          ∀ a, a < 0x30000 ∨ 0x40000 ≤ a → a ∉ [Reg.HPT_CTL.addr 0 0, Reg.HPT_LINK_STATE.addr 0 0, Reg.HPT_TX_MSGS.addr 0 0] →
            t.word a = s.word a)) ∧
    (s.enabled site = true → s.fenced site = true → mode.toNat ≤ 2 →
      s.rf Reg.SPM_PWR site 0 9 8 ≠ 2 → (mode.toNat = 2 → ∀ k, k < 544 → s.rf Reg.SPM_SECURE k 0 0 0 = 0) →
      ∃ t, exec (.spmPwrWrite site mode) s = .next t ∧
        t = { s with regs := t.regs, cores := t.cores, hpt := { s.hpt with status := stOk, data := [] } } ∧
        t.rf Reg.SPM_PWR site 0 9 8 = mode.toNat ∧ t.rf Reg.SPM_PWR site 0 1 0 = mode.toNat ∧ (∀ k, k ≠ site → t.core k = s.core k) ∧
        t.core site = (if mode.toNat = 2 then { s.core site with spm := [], spmPoison := [] } else s.core site) ∧
        ∀ a, a ≠ Reg.SPM_PWR.addr site 0 → t.word a = s.word a) ∧
    (s.enabled site = true → s.fenced site = true → s.marching site = false →
      ∀ p ∈ [(Instr.marchDestructive site, false), (.marchPreserving site, true)], ∃ t, exec p.1 s = .next t ∧
        t = { s with regs := t.regs, jobs := { s.jobs with marches := s.jobs.marches ++ [(site, p.2)] }
                     hpt := { s.hpt with status := stOk, data := [] } } ∧
        t.reg Reg.SPM_MARCH_STATE site 0 = 1 ∧ ∀ a, a ≠ Reg.SPM_MARCH_STATE.addr site 0 → t.word a = s.word a) ∧
    ∃ t, exec (.fclChipResetWrite 0xA5C3) s = .next t ∧ t.pow.booted = false ∧ t.rf Reg.FCL_STATE 0 0 17 16 = 2 ∧ t.siteEn = s.siteEn ∧
      t.fcl.store = s.fcl.store ∧ t.mem = [] ∧ t.pending = s.pending ∧ t.sched.active = none ∧ t.seq = State.reset.seq

/-! ### Staging, schedules, formation -/

/-- `STAGE_OPEN`, `STAGE_DATA` and `STAGE_CLOSE` (R394): an area opens empty with its size, the schedule's area losing its staged
schedule (notes/assumptions/22.md); the bytes written read back at their place; it closes where its digest is that of its content.
`SCHED_VALIDATE` and its end (R171): validation of a closed staging area is under way; an image that passes every check becomes the
staged schedule with its tag shown; one that fails leaves the schedules as they were, and status, site and index of the failure are
shown. -/
def Obligations.StagingAndValidation : Prop :=
  (
    ∀ (s : State) (h : Hdr) (x : Session) (kind size offset : Nat) (bytes : List Byte) (digest : BitVec 256), s.calm → 1 ≤ kind → kind ≤ 3 →
      s.hpt.areas.length = 3 →
      let u := s.taken h
      let a := s.area (kind - 1)
      let is := fun (t : State) (b : Area) => t = { u with hpt := { u.hpt with areas := s.hpt.areas.set (kind - 1) b } }
      let ok := fun (op : Nat) => s.accepts h (opRowM op) (decide (kind = 3)) true true x
      (ok 0x0110 → a.isOpen = false → a.busy = false → ∃ t v : State, Done (exec (.stageOpen h kind size) s) h 0x0110 t [] ∧
        is v ⟨true, false, false, size, []⟩ ∧ (kind ≠ 1 → t = v) ∧
        (kind = 1 → t = { v with regs := t.regs, sched := { s.sched with staged := none } } ∧ t.rf Reg.WGT_SCHED_STATE 0 0 1 0 = 0 ∧
          t.reg Reg.WGT_SCHED_STAGED_TAG 0 0 = 0 ∧
          ∀ w, w ∉ [Reg.WGT_SCHED_STATE.addr 0 0, Reg.WGT_SCHED_STAGED_TAG.addr 0 0] → t.word w = s.word w)) ∧
      (ok 0x0111 → a.isOpen = true → offset + bytes.length ≤ a.size → bytes.length ≤ 4198380 → Mem.wf a.bytes = true → ∃ t : State, ∃ b : Area,
        Done (exec (.stageData h kind offset bytes) s) h 0x0111 t [] ∧ is t b ∧ b = { a with bytes := b.bytes } ∧
        Mem.read b.bytes offset bytes.length = bytes ∧
        ∀ k n, k + n ≤ offset ∨ offset + bytes.length ≤ k → Mem.read b.bytes k n = Mem.read a.bytes k n) ∧
      (ok 0x0112 → a.isOpen = true → sm3 (Mem.read a.bytes 0 a.size) = digestBytes digest → ∃ t : State,
        Done (exec (.stageClose h kind digest) s) h 0x0112 t [] ∧ is t { a with isOpen := false, closed := true })) ∧
  (
    ∀ (s : State) (h : Hdr) (x : Session) (r : Reply) (im : Image), s.calm → s.hpt.areas.length = 3 →
      let u := s.taken h
      let shown := [Reg.WGT_SCHED_STATE.addr 0 0, Reg.WGT_SCHED_STAGED_TAG.addr 0 0, Reg.WGT_SCHED_ERR.addr 0 0]
      (s.accepts h (opRow 0x0121) false true true x → (s.area 0).busy = false → (s.area 0).closed = true → s.rf Reg.CAL_AGE 0 0 1 0 ≠ 0 →
        s.rf Reg.CAL_AGE 0 0 1 0 ≠ 2 → ∃ t, exec (.schedValidate h) s = .next t ∧
          t = { u with regs := t.regs, hpt := { u.hpt with areas := s.hpt.areas.set 0 { s.area 0 with busy := true } }
                       jobs := { s.jobs with validate := some (replyTo h 0x0121) } } ∧
          t.rf Reg.WGT_SCHED_STATE 0 0 1 0 = 1 ∧ ∀ w, w ≠ Reg.WGT_SCHED_STATE.addr 0 0 → t.word w = s.word w) ∧
      (s.jobs.validate = some r →
        (s.loadFail im = none → ∃ t : State, exec (.schedValidationDone im) s = .next (t.answer r stOk []) ∧
          t = { s with regs := t.regs, sched := { s.sched with staged := some im }, jobs := { s.jobs with validate := none }
                       hpt := { s.hpt with areas := s.hpt.areas.set 0 { s.area 0 with busy := false } } } ∧
          t.reg Reg.WGT_SCHED_STATE 0 0 = 2 ∧ t.reg Reg.WGT_SCHED_STAGED_TAG 0 0 = im.head.tag % 2 ^ 64 ∧
          ∀ w, w ∉ shown → t.word w = s.word w) ∧
        (∀ e, s.loadFail im = some e → s.room Reg.HPT_CMD_REJECT 0 0 1 → ∃ t : State,
          exec (.schedValidationDone im) s = .next (t.answer r e.status []) ∧
          t = { s with regs := t.regs, jobs := { s.jobs with validate := none }
                       hpt := { s.hpt with areas := s.hpt.areas.set 0 { s.area 0 with busy := false } } } ∧
          t.rf Reg.WGT_SCHED_STATE 0 0 1 0 = 3 ∧ (e.status < 256 → t.rf Reg.WGT_SCHED_STATE 0 0 15 8 = e.status) ∧
          t.reg Reg.WGT_SCHED_ERR 0 0 = (e.site * 2 ^ 16 + e.idx % 2 ^ 14) % 2 ^ 64 ∧ ∀ w, w ∉ shown → t.word w = s.word w)))

/-- Formation (R290, R323, R324, R478, R481). `FORM` of a single device forms its flight at once: state `FORMED`, device 0 the root, NORMAL,
empty tables, the flight key drawn, and lockage 0, which is read from R166 and R323 (notes/assumptions/25.md). Of a larger shape the ports train; a
port that comes up shows its peer; when the last comes up and every peer is the one that the shape puts there and is trusted, the flight is formed
with the levels that all devices reach, the root's time and the key that the root has sent; the checks fail in their order with `E_BUSY` for the
random source, `E_BAD_FIELD` for a peer out of place, `E_AUTH` for an identity, `E_VERSION`, and `E_AUTH` for a key that does not decrypt
(notes/assumptions/25.md); the timeout ends formation with `E_BUSY`.
Key derivation and cryptography are those of notes/assumptions/40.md and 41.md. -/
def Obligations.FormationOutcomes : Prop :=
  ∀ (s : State) (h : Hdr) (x : Session) (r : Reply) (port dev peer : Nat) (who : PeerId) (cap : BitVec 32) (root : FormRoot), s.calm →
    let u := s.taken h
    let formed := fun (v t : State) (r : Reply) (key : Option (BitVec 128)) (o : Out) => o = .next (t.answer r stOk []) ∧
      t = { v with regs := t.regs, flt := t.flt, slots := [], freeCtr := v.freeCtr + 1
                   seq := { v.seq with barges := [], queue := [], held := [], sampled := [], accepts := [], results := [], outbox := [] } } ∧
      t.flightState = 2 ∧ t.reg Reg.FLK_LOCKAGE 0 0 = 0 ∧ t.reg Reg.FLK_LOCK_STATE 0 0 = 0 ∧ t.flt.tree = v.defaultTree ∧ t.flt.key = key ∧
      t.flt.forming = none ∧ t.flt.release = none ∧ t.flt.digest = digestReset
    let fails := fun (v : State) (r : Reply) (st : Nat) (o : Out) => ∃ t : State, o = .next (t.answer r st []) ∧
      t = { v with regs := t.regs, flt := { t.flt with forming := none } } ∧ t.flightState = 0 ∧ t.flt.key = v.flt.key
    (s.accepts h (opRow 0x0120) false true true x → s.flightState = 0 → s.rf Reg.SEC_RNG 0 0 0 0 = 1 →
      (s.rf Reg.FLK_FORM 0 0 1 0 = 0 → ∃ t, formed u t (replyTo h 0x0120) (some ((s.draw 0).setWidth 128)) (exec (.form h) s) ∧ t.isRoot = true ∧
        t.reg Reg.FLK_VER_FLIGHT 0 0 = (levelsOf (BitVec.ofNat 32 (s.reg Reg.FLK_VER_CAP 0 0))).1) ∧
      (s.rf Reg.FLK_FORM 0 0 1 0 ≠ 0 → ∃ t, exec (.form h) s = .next t ∧ t = { u with regs := t.regs, flt := t.flt } ∧
        t.flightState = 1 ∧ t.flt.forming = some (replyTo h 0x0120) ∧ ∀ p, p < 6 → t.reg Reg.FLK_PORTp_STATE p 0 = 0xF1)) ∧
    (s.flightState = 1 → s.flt.forming = some r → s.room Reg.HPT_CMD_REJECT 0 0 1 → ∃ t : State,
      exec .formationTrainTimeout s = .next (t.answer r stBusy []) ∧
      t = { s with regs := t.regs, flt := { s.flt with forming := none } } ∧ t.flightState = 0 ∧
      ∀ w, w ≠ Reg.FLK_FLIGHT_STATE.addr 0 0 → t.word w = s.word w) ∧
    (s.flightState = 1 → port < 6 → dev < 512 → peer < 8 → s.rf Reg.FLK_PORTp_STATE port 0 2 0 = 1 →
      let o := exec (.flightPortTrained port dev peer who cap root) s
      let bad := s.flt.chainBad || !s.peerTrusted who
      ((∃ p, p < 6 ∧ p ≠ port ∧ s.portUp p = false) → ∃ t, o = .next t ∧
        t = { s with regs := t.regs, flt := { s.flt with cap := capJoin s.flt.cap cap, chainBad := bad } } ∧ t.portUp port = true ∧
        t.rf Reg.FLK_PORTp_STATE port 0 31 23 = dev ∧ t.rf Reg.FLK_PORTp_STATE port 0 22 20 = peer ∧
        ∀ w, w ≠ Reg.FLK_PORTp_STATE.addr port 0 → t.word w = s.word w) ∧
      ((∀ p, p < 6 → p ≠ port → s.portUp p = true) → s.flt.forming = some r → s.room Reg.HPT_CMD_REJECT 0 0 1 →
        let v := s.setReg Reg.FLK_PORTp_STATE port 0 (dev * 2 ^ 23 + peer * 2 ^ 20 + 0xF2)
        let placed := ∀ p, p < 6 → v.peerOk p = true
        let meets := (levelsOf (capJoin s.flt.cap cap)).2 = true
        (s.rf Reg.SEC_RNG 0 0 0 0 = 0 → fails s r stBusy o) ∧
        (s.rf Reg.SEC_RNG 0 0 0 0 ≠ 0 →
          (¬placed → fails s r stBadField o) ∧
          (placed → bad = true → fails s r stAuth o) ∧
          (placed → bad = false → ¬meets → fails s r stVersion o) ∧
          (placed → bad = false → meets → s.flightKey root.key = none → fails s r stAuth o) ∧
          (placed → bad = false → meets → ∀ k, s.flightKey root.key = some k → ∃ t, formed s t r (some k) o ∧
            t.reg Reg.FLK_VER_FLIGHT 0 0 = (levelsOf (capJoin s.flt.cap cap)).1 ∧
            (s.defaultTree.parent.isSome = true → t.reg Reg.FLK_TIME 0 0 = root.time % 2 ^ 64)))))

/-! ### The barrier and the boundary -/

/-- The barrier (R265, R266, R308 to R311, R316, R398). A device that is done, holds the entry broadcast and the results and every child's
arrival sends its own to its parent, with the flags of all ORed, the missing children summed and the end causes that the limit lets
through; at its deadline it sends it with `INCOMPLETE` and the missing children counted. Before it go the sessions that an exit device has closed
and, from the entry device, the list of the commands that are due, sealed under the flight key (that both go out as the arrival leaves is the
model's reading: notes/assumptions/21.md, notes/assumptions/25.md); the root sends these down and keeps its own arrival. The root decides: WIDE
while any of the last 15 votes carried it, halt where a child is missing or any device asked for it, one grace quantum of 1 µs where a device was
incomplete, and sends its release down. A device takes its release and passes it on; one that has lost the barrier halts. -/
def Obligations.BarrierAndRelease : Prop :=
  ∀ (s : State) (r : Release), s.calm → s.inFlight = true →
    let post := fun (q : Port) (m : Option (BitVec 128) × CtlBody) =>
      ({ q with next := q.next + 1, waiting := q.waiting ++ [⟨⟨q.next, q.lastRx, m.1, m.2⟩, 0⟩] } : Port)
    let toward := fun (v : State) (ds : List Nat) (ms : List (Option (BitVec 128) × CtlBody)) =>
      ms.foldl (fun l m => (ds.filter v.portUp).foldl (fun l p => l.set p (post (l.getD p portReset) m)) l) v.flt.ports
    let due := (s.seq.queue.filter Queued.due).map (fun q => q.cmd)
    let listed := fun (v : State) => v.seq.queue.map (fun q => ({ q with listed := q.listed || q.due } : Queued))
    let list : List (Option (BitVec 128) × CtlBody) := if due.isEmpty then [] else [(s.flt.key, .commands due)]
    let ways := match s.flt.tree.parent with
      | some p => [p]
      | none => s.flt.tree.children
    let sent := fun (v : State) (b : Bool) =>
      let a := v.arrival b
      ({ v with
          hpt := { v.hpt with closings := [] }
          seq := { v.seq with queue := if v.isEntry then listed v else v.seq.queue }
          flt := { v.flt with
            sent := true, late := b, causes := if v.isRoot then v.flt.causes else a.causes.drop v.causeLimit
            ports := toward v ways (v.hpt.closings.map (fun n => (none, .closed n)) ++ (if v.isEntry then list else []) ++
              (if v.isRoot then [] else [(none, .arrival { a with causes := a.causes.take v.causeLimit })])) } } : State)
    let kids := s.flt.arrivals.map (fun a => a.2)
    (∀ b, (s.arrival b).flags.incomplete = (b || kids.any (fun a => a.flags.incomplete)) ∧
      (s.arrival b).flags.halt = (s.votesHalt || kids.any (fun a => a.flags.halt)) ∧
      (s.arrival b).flags.throttle = (s.rf Reg.THM_STATE 0 0 1 1 == 1 || kids.any (fun a => a.flags.throttle)) ∧
      (s.arrival b).flags.wide = (s.sites.any (fun x => s.rf Reg.ARY_WIDE_REQ x 0 0 0 == 1) || kids.any (fun a => a.flags.wide)) ∧
      (s.arrival b).missing = (kids.map (fun a => a.missing)).sum + (s.flt.tree.children.length - kids.length)) ∧
    (let v := s.sendAccepts;
      (s.isExit = false ∨ s.flt.accIn = true → v = s) ∧
      (s.isExit = true → s.flt.accIn = false → v.flt.accIn = true ∧ v.seq.results = s.slotBarges.map s.acceptOf) ∧
      (s.flt.sent = false →
        (s.coresDone = true → v.flt.accIn = true → s.isEntry = true ∨ s.flt.cmdsIn = true →
          s.flt.arrivals.length = s.flt.tree.children.length → exec .barrierArrivalSend s = .next (sent v false)) ∧
        exec .barrierForwardDeadline s = .next (sent (if s.coresDone then v else s) true))) ∧
    (∀ i ∈ [Instr.rootDecision, .barrierCutoff], s.isRoot = true → s.flt.release = none → s.mild [0x28] →
      (i = .rootDecision → s.flt.sent = true ∧ s.flt.arrivals.length = s.flt.tree.children.length) →
      (s.isExit = false ∨ s.flt.accIn = true ∨ s.coresDone = false) →
      let opens := s.isEntry && !s.flt.sent
      ∃ t d, exec i s = .next t ∧
        t = { s with regs := t.regs, flt := t.flt, fcl := t.fcl, freeCtr := t.freeCtr
                     seq := { s.seq with queue := if opens then listed s else s.seq.queue } } ∧
        t.flt.release = some d ∧
        t.flt.ports = toward s s.flt.tree.children ((if opens then list else []) ++ [(none, .release d)]) ∧
        let a := s.arrival (!s.flt.sent || s.flt.late)
        d.wide = (a.flags.wide || s.flt.votes.any (fun v => v)) ∧ d.grace = a.flags.incomplete ∧ t.flt.graced = a.flags.incomplete ∧
        d.halt = (decide (0 < a.missing) || a.flags.halt || s.groupLost) ∧ d.missing = a.missing ∧ d.flags = a.flags ∧ d.reports = a.reports ∧
        d.expel = s.flt.digest.expelling ∧ d.rejoin = s.flt.digest.rejoin ∧
        d.time = s.flt.start + s.curLen + (if a.flags.incomplete then 125 else 0) ∧ t.flt.votes = (a.flags.wide :: s.flt.votes).take 15 ∧
        d.causes = (s.flt.relCauses ++ a.causes).take s.causeLimit ∧ t.flt.relCauses = (s.flt.relCauses ++ a.causes).drop s.causeLimit) ∧
    (s.isRoot = false → s.flt.release = none → s.mild [0x28] → ∃ t, exec (.releaseReceive r) s = .next t ∧
      t = { s with regs := t.regs, flt := t.flt, fcl := t.fcl, freeCtr := t.freeCtr } ∧ t.flt.release = some r ∧
      t.flt.ports = toward s s.flt.tree.children [(none, .release r)] ∧
      t.flt.votes = (r.flags.wide :: s.flt.votes).take 15 ∧ t.flt.graced = r.grace ∧ t.flt.tree = s.flt.tree ∧
      t.rf Reg.FLK_VOTE 0 0 5 0 = bit r.persist * 2 ^ 5 + bit r.grace * 2 ^ 4 + bit r.flags.incomplete * 2 ^ 3 + bit r.flags.halt * 2 ^ 2 +
        bit r.flags.throttle * 2 + bit r.flags.wide) ∧
    (s.flt.release = none → s.mild [0x34] → ∃ t, exec .barrierLost s = .next t ∧
      Raised { s.stopIssue.setRf Reg.FLK_FLIGHT_STATE 0 0 2 0 3 with flt := { s.flt with lost := true } } t 0x34 devUnit)

/-- The boundary and the grace quantum (R32, R157, R174, R176, R297, R311, R313, R315, R321, R342). A boundary opens the next lockage with nothing
under way and no arrival, release or result left. Of what the release decides: variant, window counts over the last 1,024 lockages, admission
limit, time, a halt unless a schedule activates, the devices expelled and returned. Step 2: the generations of the instances and the generation
pointer, also at the done boundary of a replacement. Steps 3 and 4: no completed copy, no recompression and no unseen command waits any more, and
slots are the lockage's own. Step 5: no programmed spare waits for its switch, no installation, no lane switch. Step 6: exactly the cores that may
start do. At the end of a grace quantum every core short of its barrier is brought to it and counted; the armed range of a wait whose packets have
not all come is 0x7FC0 in every 16-bit unit, every use not complete is NaN over its segment, and the contexts left are counted and raised. That a
wait whose packets have all come keeps its data and that a use held at its root is resolved too is the model's choice (notes/assumptions/32.md); what
of the boundary the spec leaves to the model stands in notes/assumptions/7.md, 17.md and 25.md. -/
def Obligations.BoundaryAndGrace : Prop :=
  ∀ (s : State) (r : Release),
    ((s.flt.release = none ∨ s.inFlight = false) → exec .lockageBoundary s = .next s) ∧
    (s.flt.release = some r → s.inFlight = true →
      let u := s.boundary r
      let n := fun (b : Bool) (l : List Bool) => (((b :: l).take 1024).filter (fun v => v)).length
      let d := s.flt.digest
      let gen := fun (v : State) (i : Nat) => v.rf Reg.WGT_INST_GENn 0 i 7 0
      exec .lockageBoundary s = .next u.settle ∧
      (u.reg Reg.FLK_LOCKAGE 0 0 = (s.reg Reg.FLK_LOCKAGE 0 0 + 1) % 2 ^ 64 ∧ u.net = [] ∧ u.flits = [] ∧ u.posted = [] ∧ u.flt.release = none ∧
        u.flt.arrivals = [] ∧ u.flt.sent = false ∧ u.flt.late = false ∧ u.flt.cmdsIn = false ∧ u.flt.accIn = false ∧ u.flt.graced = false ∧
        u.seq.results = [] ∧ u.seq.sampled = [] ∧ u.seq.accepts = [] ∧ u.seq.outbox = []) ∧
      (u.rf Reg.FLK_LOCK_STATE 0 0 0 0 = bit r.wide ∧ u.rf Reg.FLK_LOCK_STATE 0 0 1 1 = bit r.grace ∧
        u.reg Reg.FLK_WIDE_WINDOW 0 0 = n s.ranWide s.flt.wideHist ∧ u.reg Reg.FLK_GRACE_WINDOW 0 0 = n r.grace s.flt.graceHist ∧
        u.reg Reg.FLK_WIDE_LOCKAGES 0 0 = (s.reg Reg.FLK_WIDE_LOCKAGES 0 0 + bit s.ranWide) % 2 ^ 64 ∧
        u.reg Reg.FLK_TIME 0 0 = max s.now r.time % 2 ^ 64 ∧ u.reg Reg.SEQ_ADMIT 0 0 = bit r.persist ∧ u.flt.stretch = r.stretch ∧
        u.flt.start = r.time ∧ u.seq.compatNow = s.reg Reg.SEQ_COMPAT 0 0 ∧
        (u.sched = s.sched → u.flightState = if r.halt ∧ s.flightState = 2 then 3 else s.flightState) ∧
        (u.sched ≠ s.sched → s.sched.staged.isSome = true ∧ u.sched.staged = none ∧ u.flightState = 2 ∧
          u.sched.active.map (fun im => im.head) = s.sched.staged.map (fun im => im.head)) ∧
        (r.halt = true → s.flightState = 2 → u.rf Reg.FCL_SRCn_STAT 0 0x33 31 31 = 1) ∧
        (r.persist = true → s.rf Reg.SEQ_ADMIT 0 0 0 0 = 0 → u.rf Reg.FCL_SRCn_STAT 0 0x35 31 31 = 1) ∧
        u.flt.digest.expelled = (d.expelled ++ r.expel.filter (fun x => !d.expelled.contains x)).filter (fun x => !r.rejoin.contains x) ∧
        u.flt.digest.expelling = [] ∧ u.flt.digest.rejoin = [] ∧
        u.rf Reg.FLK_REPLICA 0 0 24 24 = (if r.expel.contains s.devNo then 1 else if r.rejoin.contains s.devNo then 0
          else s.rf Reg.FLK_REPLICA 0 0 24 24)) ∧
      (s.repls = [] → (∀ i, i < 16 → gen u i = s.instHeld r.reports i % 256) ∧
        (s.reg Reg.WGT_GEN_ACTIVE 0 0 ≠ 0 → u.reg Reg.WGT_GEN_ACTIVE 0 0 = s.reg Reg.WGT_GEN_ACTIVE 0 0) ∧
        (s.reg Reg.WGT_GEN_ACTIVE 0 0 = 0 → u.reg Reg.WGT_GEN_ACTIVE 0 0 = (((List.range 16).map (gen u)).find? (fun g => g != 0)).getD 0)) ∧
      (∀ q, s.repls = [q] → q.phase = 2 → 0 < q.gen → q.gen < 256 →
        (∀ e ∈ s.replDevs q, (reportOf r.reports e.dev).map (fun x => x.done) = some true) →
        u.reg Reg.WGT_GEN_ACTIVE 0 0 = q.gen ∧ ∀ i, i < 16 → q.has i = true → gen u i = q.gen ∨ gen u i = 0) ∧
      ((∀ c ∈ u.kv.copies, c.done = false) ∧ u.kv.rcmps = [] ∧ (∀ q ∈ u.seq.queue, q.seen = true ∨ isClose q.cmd.body = true) ∧
        (∀ b, (u.barge b).runLen ≠ 0 → (u.barge b).lastSlot = s.reg Reg.FLK_LOCKAGE 0 0 + 1 ∧ u.flightState = 2) ∧
        (u.flightState ≠ 2 → u.slots = [])) ∧
      ((∀ site a, s.enabled site = true → ∀ t ∈ ((u.core site).arr a).retire, t.done = false) ∧
        u.jobs.install = none ∧ u.jobs.switches = [] ∧ u.jobs.passed = [] ∧ u.sense.fits = [] ∧ u.pow.toIdle = false ∧
        ∀ p, p < 6 → (u.port p).switchLane = none ∧
          (∀ l, (s.port p).switchLane = some l → l < 15 → p < s.flt.ports.length → s.rf Reg.FLK_PORTp_STATE p 0 7 4 = 15 →
            u.rf Reg.FLK_PORTp_STATE p 0 7 4 = l)) ∧
      (∀ site, (u.core site).held = [] ∧ (u.core site).reds = [] ∧ (s.enabled site = true →
        let c := u.core site
        c.run = (if u.starts site then .issue else .idle) ∧ c.pc = 0 ∧ c.loops = [] ∧ c.window = false ∧ c.arms = [] ∧ c.arrQ = [] ∧
          c.evals = []))) ∧
    (s.flt.graced = false → exec .graceQuantumEnd s = .next s) ∧
    (s.flt.graced = true → ∃ u : State, exec .graceQuantumEnd s = .next u.settle ∧
      (let late := (s.cores.filter (fun c => c.2.late)).length;
        (late ≠ 0 → u.rf Reg.FCL_SRCn_STAT 0 0x23 31 31 = 1) ∧
        (s.room Reg.FLK_INCOMPLETE 0 0 late → u.reg Reg.FLK_INCOMPLETE 0 0 = s.reg Reg.FLK_INCOMPLETE 0 0 + late)) ∧
      (s.isExit = true → u.flt.accIn = true) ∧
      ∀ site,
        let c := s.core site
        let e := u.core site
        e.reds = [] ∧ (c.reds ≠ [] → u.rf Reg.FCL_SRCn_STAT 0 0x20 31 31 = 1) ∧
        (s.room Reg.RTR_RED_ABANDONED site 0 c.reds.length →
          u.reg Reg.RTR_RED_ABANDONED site 0 = s.reg Reg.RTR_RED_ABANDONED site 0 + c.reds.length) ∧
        (c.late = true → e.run = .arrived ∧ e.arms = [] ∧ e.loops = [] ∧ e.window = false ∧
          ∀ a, c.arms = [a] → Mem.wf c.spm = true →
            (a.expect ≤ a.count → e.spm = c.spm) ∧
            (a.count < a.expect → a.bytes % 2 = 0 → a.base + a.bytes ≤ spmSize →
              e.sp a.base a.bytes = (List.replicate (a.bytes / 2) [(0xC0 : Byte), 0x7F]).flatten ∧
              ∀ k m, k + m ≤ a.base ∨ a.base + a.bytes ≤ k → e.sp k m = c.sp k m)) ∧
        (c.late = true ∨ site ∈ s.rootSites → Mem.wf c.tiles = true → ∀ w ∈ s.openUses site, ∀ d, s.redUse w.1 w.2 = some d →
          w ∈ e.redIn ∧ (s.takesTiles site = true → 512 * d.tile + d.seg + 64 * d.flits ≤ 65536 →
            ∀ k, k < 64 * d.flits → e.entries d.tile (d.seg + k) 1 = [(F32.nan, 0)])))

/-! ### Flight ports -/

/-- Control messages, lanes, the time base and frames of a port that is up (R294 to R299, R301, R302, R305, R306, R309, R478). The next message
in order is taken, and acknowledges what the port has sent; one out of order is not acted upon (notes/assumptions/25.md), and one that the flight
key protects and that is sealed under another is discarded; a message not acknowledged is sent again at most eight times, with what the
port has by then received, then the port fails; a lane with too many corrections is switched to the spare with the next boundary, a lane
that loses lock is replaced at once where the spare is free, which is raised with the switch (notes/assumptions/25.md) and told to the peer, and
otherwise the port fails. A frame with an uncorrectable codeword, in the order of codewords that notes/assumptions/37.md gives, is dropped and
counted; of a frame that the code corrects, its corrected bytes are counted, a packet with a bad CRC
or with bytes in a dropped frame is dropped, one of this lockage goes to its core, one of another is dropped and counted. A time stamp asked for by
a child is answered with the time, and the parent's answer is kept; a correction halves the round trip to an offset, which is shown and slews the
time by at most 16 units, raises it beyond its limit, and asks for the next stamp. -/
def Obligations.FlightPortEvents : Prop :=
  ∀ (s : State) (port lane n : Nat) (m : CtlMsg) (a : Arrival) (t : TxCtl) (w : List TxCtl) (b : BulkPacket) (f : FlightFrame)
    (l : List Nat) (k : BitVec 8) (stamps : TimeStamps) (leftAt parentAt : Nat),
    s.calm → port < 6 → s.flt.ports.length = 6 →
    let x := s.port port
    let st := s.reg Reg.FLK_PORTp_STATE port 0
    let holds := fun (v : State) (q : Port) => ({ v with flt := { v.flt with ports := s.flt.ports.set port q } } : State)
    let post := fun (q : Port) (body : CtlBody) =>
      ({ q with next := q.next + 1, waiting := q.waiting ++ [⟨⟨q.next, q.lastRx, none, body⟩, 0⟩] } : Port)
    let got := fun (v : State) => ({ v with net := s.net ++ [(⟨b.dev, b.site, nSites + 1 + 4096 * port + b.flow, portRouter port,
      { b.pkt with conflict := false }⟩ : InFlight)] } : State)
    let foreign := sealedBody m.body = true ∧ (m.key = none ∨ m.key ≠ s.flt.key)
    let acksNone := ∀ y ∈ x.waiting, y.msg.seq ≠ m.ack
    (s.portUp port = true →
      (foreign → exec (.controlMessageReceive port m) s = .next s) ∧
      (m.seq = x.lastRx + 1 → m.body = .arrival a → s.flt.tree.children.contains port = true → s.flt.release = none → acksNone →
        exec (.controlMessageReceive port m) s = .next { s with flt := { s.flt with
          ports := s.flt.ports.set port { x with lastRx := m.seq }
          arrivals := s.flt.arrivals.filter (fun y => y.1 != port) ++ [(port, a)] } }) ∧
      (m.seq = x.lastRx + 1 → m.body = .timestamp leftAt none → s.flt.tree.children.contains port = true → acksNone →
        exec (.controlMessageReceive port m) s = .next (holds s (post { x with lastRx := m.seq } (.timestamp leftAt (some (s.now * 128)))))) ∧
      (m.seq = x.lastRx + 1 → m.body = .timestamp leftAt (some parentAt) → s.flt.tree.parent = some port → acksNone →
        exec (.controlMessageReceive port m) s =
          .next (holds { s with flt := { s.flt with stamp := some (leftAt, parentAt) } } { x with lastRx := m.seq })) ∧
      (¬foreign → m.seq ≠ x.lastRx + 1 → x.waiting = t :: w → t.msg.seq = m.ack →
        exec (.controlMessageReceive port m) s = .next (holds s { x with waiting := w })) ∧
      (x.waiting.find? (fun y => y.msg.seq == k) = some t →
        (t.resends < 8 → s.room Reg.FLK_PORTp_CTRL_RETX port 0 1 → ∃ u, exec (.controlRetransmit ⟨port, k⟩) s = .next u ∧
          OnlyRegs (holds s { x with waiting := x.waiting.map (fun y =>
            if y.msg.seq == k then ⟨{ t.msg with ack := x.lastRx }, t.resends + 1⟩ else y) }) u [Reg.FLK_PORTp_CTRL_RETX.addr port 0] ∧
          u.reg Reg.FLK_PORTp_CTRL_RETX port 0 = s.reg Reg.FLK_PORTp_CTRL_RETX port 0 + 1) ∧
        (8 ≤ t.resends → s.mild [0x31] → ∃ u, exec (.controlRetransmit ⟨port, k⟩) s = .next u ∧
          Raised (s.setRf Reg.FLK_PORTp_STATE port 0 2 0 3) u 0x31 port)) ∧
      (lane < 8 → bitsOf st 7 4 = 15 → bitsOf st 16 8 = 0 → x.switchLane = none → s.reg Reg.FLK_PORTp_LANE_LIM port 0 < n →
        exec (.laneCorrectionCheck port lane n) s = .next (holds s (post { x with switchLane := some lane } (.lane lane false)))) ∧
      (n ≤ s.reg Reg.FLK_PORTp_LANE_LIM port 0 → exec (.laneCorrectionCheck port lane n) s = .next s) ∧
      (lane < 8 → (bitsOf st 16 8).testBit lane = false → bitsOf st 7 4 = 15 → (bitsOf st 16 8).testBit 8 = false → s.mild [0x30] →
        ∃ v u, exec (.laneLockLoss port lane) s = .next u ∧
          Raised ((s.setRf Reg.FLK_PORTp_STATE port 0 (8 + lane) (8 + lane) 1).setRf Reg.FLK_PORTp_STATE port 0 7 4 lane) v 0x30 port ∧
          u = holds v (post x (.lane lane true))) ∧
      (lane < 8 → (bitsOf st 16 8).testBit lane = false → bitsOf st 7 4 < 8 → bitsOf st 7 4 ≠ lane → s.mild [0x31] →
        ∃ u, exec (.laneLockLoss port lane) s = .next u ∧
          Raised ((s.setRf Reg.FLK_PORTp_STATE port 0 (8 + lane) (8 + lane) 1).setRf Reg.FLK_PORTp_STATE port 0 2 0 3) u 0x31 port) ∧
      (frameErrors f.bytes = none → s.room Reg.FLK_PORTp_FEC_UNCORR port 0 1 → ∃ u, exec (.flightFrameReceive port f) s = .next u ∧
        OnlyRegs (holds s { x with sinceBad := some 0 }) u [Reg.FLK_PORTp_FEC_UNCORR.addr port 0] ∧
        u.reg Reg.FLK_PORTp_FEC_UNCORR port 0 = s.reg Reg.FLK_PORTp_FEC_UNCORR port 0 + 1) ∧
      (frameErrors f.bytes = some l → f.ctl = none → f.bulk = [b] → ∃ v : State,
        let y := { x with sinceBad := x.sinceBad.map (fun i => i + 1), spareBad := bitsOf st 7 4 == 15 && s.copyDiffers f }
        OnlyRegs (holds s y) v [Reg.FLK_PORTp_FEC_CORR.addr port 0] ∧
        v.reg Reg.FLK_PORTp_FEC_CORR port 0 = (s.reg Reg.FLK_PORTp_FEC_CORR port 0 + l.length) % 2 ^ 64 ∧
        let o := exec (.flightFrameReceive port f) s
        ((b.crcOk = false ∨ y.spoilt b.before = true) → o = .next v) ∧
        (b.crcOk = true → y.spoilt b.before = false → b.lockage.toNat = s.reg Reg.FLK_LOCKAGE 0 0 % 4 → o = .next (got v)) ∧
        (b.crcOk = true → y.spoilt b.before = false → b.lockage.toNat ≠ s.reg Reg.FLK_LOCKAGE 0 0 % 4 → s.room Reg.FLK_PORTp_DROP port 0 1 →
          ∃ u, o = .next u ∧ OnlyRegs v u [Reg.FLK_PORTp_DROP.addr port 0] ∧
            u.reg Reg.FLK_PORTp_DROP port 0 = s.reg Reg.FLK_PORTp_DROP port 0 + 1))) ∧
    (s.inFlight = true → s.flt.tree.parent = some port →
      let ask := fun (v : State) => if s.portUp port then holds v (post x (.timestamp stamps.next none)) else v
      let offset : Int := (((stamps.received : Int) - parentAt) - (parentAt - leftAt)) / 2
      let v := ({ s.setReg Reg.FLK_SYNC_OFFSET 0 0 ((max (-32768) (min 32767 offset)) % 65536).toNat with flt := { s.flt with
        stamp := none, phase := s.flt.phase - max (-16) (min 16 offset)
        syncLost := s.flt.syncLost || decide (1600 < offset.natAbs) } } : State)
      (s.flt.stamp = none → exec (.timeBaseCorrection stamps) s = .next (ask s)) ∧
      (s.flt.stamp = some (leftAt, parentAt) →
        (offset.natAbs ≤ 160 → exec (.timeBaseCorrection stamps) s = .next (ask v)) ∧
        (160 < offset.natAbs → s.mild [0x32] → ∃ u, exec (.timeBaseCorrection stamps) s = .next (ask u) ∧ Raised v u 0x32 devUnit)))

/-- Digest rounds (R318 to R321, R331): a round starts at its boundary with the period in force, and the digest of a round that was completed goes
out and is kept; the digests formed are shown and kept; a late
round is counted and raised; a digest message that comes is kept, the last of each device, and those of the round just over are compared: with the
device's own, whose differences from its group are counted, and by the root, which expels, with the next release, a device whose digest
differs from its reference, and takes back one that matches. How long a message is kept is a reading (notes/assumptions/25.md), the
form of the bytes under a digest another (notes/assumptions/39.md). -/
def Obligations.DigestRounds : Prop :=
  ∀ (s : State) (n port : Nat) (p : Package) (msgs : List DigestMsg) (im : Image) (m : DigestMsg) (c : CtlMsg), s.calm → s.inFlight = true →
    let d := s.flt.digest
    let keep := fun (l : List DigestMsg) (y : DigestMsg) => l.filter (fun z => z.dev != y.dev) ++ [y]
    let heard := ((msgs.filter (fun y => y.dev != s.devNo)).foldl keep d.got).filter (fun y => y.round + 1 == d.round)
    let own := heard.find? (fun y => y.dev == s.devNo)
    let diffs := match own with
      | some o => peerDiffs (s.rf Reg.FLK_VER_FLIGHT 0 0 15 8) o heard
      | none => 0
    let words := fun (f : RegFam) => (List.range 8).map (fun k => f.addr 0 k)
    (s.reg Reg.FLK_LOCKAGE 0 0 % d.period = 0 → d.void = false →
      (d.own = none → exec .digestRoundStart s = .next { s with flt := { s.flt with digest := { d with
        period := s.reg Reg.FLK_DIGEST_PERIOD 0 0, start := s.reg Reg.FLK_LOCKAGE 0 0, round := d.round + 1, ready := false
        void := decide (s.reg Reg.FLK_DIGEST_PERIOD 0 0 ≠ d.period)
        touched := ((s.slotBarges.map (fun b => (s.runInst (s.barge b).runFirst, b))) :: d.touched).take 3 } } }) ∧
      (d.own = some m → d.ready = true → ∃ t, exec .digestRoundStart s = .next t ∧ t = { s with flt := t.flt } ∧
        t.flt.digest.got = keep d.got m ∧ t.flt.digest.round = d.round + 1 ∧ t.flt.digest.own = none ∧ t.flt.digest.ready = false ∧
        (s.flt.tree.parent = some port → s.portUp port = true → port < s.flt.ports.length →
          (t.port port).waiting = (s.port port).waiting ++ [⟨⟨(s.port port).next, (s.port port).lastRx, none, .digest m⟩, 0⟩]))) ∧
    (c.body = .digest m → s.portUp port = true → s.flt.tree.parent = some port → s.flt.tree.children = [] → c.seq = (s.port port).lastRx + 1 →
      (∀ y ∈ (s.port port).waiting, y.msg.seq ≠ c.ack) → exec (.controlMessageReceive port c) s = .next { s with flt := { s.flt with
        ports := s.flt.ports.set port { s.port port with lastRx := c.seq }
        digest := { d with got := keep d.got m } } }) ∧
    (d.ready = false → s.heldPkg = some (n, p) → ∃ t o, exec (.digestReady true) s = .next t ∧
      t = { s with regs := t.regs, flt := { s.flt with digest := { d with ready := true, own := some o } } } ∧ o.dev = s.devNo ∧
      o.round = d.round ∧ o.gen = s.rf Reg.WGT_GEN_SLOTn 0 n 7 0 ∧ o.dW = pkgDigest p ∧ o.dV = s.digestV ∧
      (∀ k, k < 8 → t.reg Reg.FLK_DIGEST_Wn 0 k = o.dW.toNat / 2 ^ (32 * k) % 2 ^ 32 ∧
        t.reg Reg.FLK_DIGEST_Vn 0 k = o.dV.toNat / 2 ^ (32 * k) % 2 ^ 32) ∧
      ∀ w, w ∉ words Reg.FLK_DIGEST_Wn ++ words Reg.FLK_DIGEST_Vn → t.word w = s.word w) ∧
    (d.ready = false → s.room Reg.FLK_DIGEST_LATE 0 0 1 → s.mild [0x36] → ∃ t v, exec (.digestReady false) s = .next t ∧
      OnlyRegs s v [Reg.FLK_DIGEST_LATE.addr 0 0] ∧ v.reg Reg.FLK_DIGEST_LATE 0 0 = s.reg Reg.FLK_DIGEST_LATE 0 0 + 1 ∧
      Raised v t 0x36 devUnit) ∧
    (s.room Reg.FLK_DIGEST_PEER_DIFF 0 0 diffs → ∃ t, exec (.digestCompare msgs) s = .next t ∧
      t = { s with regs := t.regs, flt := { s.flt with digest := { d with
        got := [], misses := t.flt.digest.misses, expelling := t.flt.digest.expelling, rejoin := t.flt.digest.rejoin } } } ∧
      (∀ w, w ≠ Reg.FLK_DIGEST_PEER_DIFF.addr 0 0 → t.word w = s.word w) ∧
      t.reg Reg.FLK_DIGEST_PEER_DIFF 0 0 = s.reg Reg.FLK_DIGEST_PEER_DIFF 0 0 + diffs ∧
      (s.isRoot = false → t.flt.digest = { d with got := [] }) ∧
      (s.isRoot = true → s.sched.active = some im →
        (∀ dev, dev ∈ im.devs.map (fun y => y.dev) → dev ∉ d.expelled → heard.find? (fun y => y.dev == dev) = some m →
          (dev ∈ t.flt.digest.expelling ↔ s.digestOk m = false)) ∧
        ∀ dev, dev ∈ d.expelled → heard.find? (fun y => y.dev == dev) = some m → (dev ∈ t.flt.digest.rejoin ↔ s.digestOk m = true)))
/-! ### Weight packages -/

/-- Packages and generation slots (R329, R330, R331, R332, R333, R343). A load takes an empty slot for a generation that no slot holds and shows it
`VALIDATING`; a package of another version or level, or whose signature, reference digest, envelope or any block for the device fails, is rejected
with `E_VERSION` or `E_AUTH`; one that passes every check makes the slot `STAGED`, with its version; one that fails leaves it `EMPTY` with the
status, and is counted; a discard empties a `STAGED` slot; the drain timeout is noted in the last lockage of a drain.
That the header and the placement map come read is the model's choice, where nonce and tag of a block lie a reading (notes/assumptions/5.md);
the cryptography is that of notes/assumptions/41.md. -/
def Obligations.PackageSlots : Prop :=
  ∀ (s : State) (h : Hdr) (x : Session) (r : Reply) (gen shard n : Nat) (f : PkgFile) (p : Package), s.calm → s.gens.length = 2 →
    s.hpt.areas.length = 3 → n < 2 →
    let u := s.taken h
    let slot := Reg.WGT_GEN_SLOTn.addr 0 n
    let free := ({ s with gens := s.gens.modify n (fun g => { g with loading := none })
                          hpt := { s.hpt with areas := s.hpt.areas.set 1 areaReset } } : State)
    (∀ k, k < 2 → s.slotState k = 0 → (∀ j, j < k → s.slotState j ≠ 0) → gen ≠ 0 → (∀ j, j < 2 → s.slotState j ≠ 0 → s.slotGen j ≠ gen) →
      s.loadSlot gen = .ok (k, false)) ∧
    (s.accepts h (opRow 0x0130) false true true x → gen < 256 → shard < 65536 → (s.area 1).busy = false → (s.area 1).closed = true →
      s.loadSlot gen = .ok (n, false) → ∃ t, exec (.pkgLoad h gen shard) s = .next t ∧ t.slotState n = 1 ∧ t.slotGen n = gen ∧
        t = { u with regs := t.regs, gens := s.gens.modify n (fun g => { g with loading := some (replyTo h 0x0130, gen, shard, false) })
                     hpt := { u.hpt with areas := s.hpt.areas.set 1 { s.area 1 with busy := true } } } ∧
        ∀ w, w ≠ slot → t.word w = s.word w) ∧
    ((s.gen n).loading = some (r, gen, shard, false) → (n = 1 → (s.gen 0).loading = none) → gen < 256 →
      (let m := (s.area 1).bytes;
        let v := f.head.version
        (v ≠ 1 ∧ v ≠ 2 ∨ s.formatLevel < f.head.fmtLevel → s.pkgCheck n shard false f = .error stVersion) ∧
        (v = 1 ∨ v = 2 → f.head.fmtLevel ≤ s.formatLevel →
          (s.pkgSigned m f = false ∨ refOk m f.head = false ∨ s.contentKey m f.head = none → s.pkgCheck n shard false f = .error stAuth) ∧
          (∀ key, s.contentKey m f.head = some key → (∃ e ∈ pkgIndex m f.head, e.isMine v shard = true ∧ openBlock m key e = none) →
            s.pkgCheck n shard false f = .error stAuth))) ∧
      (s.pkgCheck n shard false f = .ok p → ∃ t : State, exec (.pkgLoadDone f) s = .next (t.answer r stOk []) ∧
        t.slotState n = 2 ∧ t.slotGen n = gen ∧ t.rf Reg.WGT_GEN_SLOTn 0 n 9 8 = p.version ∧ t.rf Reg.WGT_GEN_SLOTn 0 n 23 16 = 0 ∧
        (t.gen n).pkg = some p ∧ (t.gen n).shard = shard ∧
        t = { free with regs := t.regs, gens := t.gens } ∧ (∀ k, k ≠ n → t.gens[k]? = s.gens[k]?) ∧ ∀ w, w ≠ slot → t.word w = s.word w) ∧
      (∀ st, s.pkgCheck n shard false f = .error st → s.room Reg.WGT_PKG_REJECT 0 0 1 → s.room Reg.HPT_CMD_REJECT 0 0 1 → ∃ t : State,
        exec (.pkgLoadDone f) s = .next (t.answer r st []) ∧ t.slotState n = 0 ∧ t.rf Reg.WGT_GEN_SLOTn 0 n 23 16 = st ∧
        t = { free with regs := t.regs, gens := s.gens.set n genReset } ∧
        t.reg Reg.WGT_PKG_REJECT 0 0 = s.reg Reg.WGT_PKG_REJECT 0 0 + 1 ∧
        ∀ w, w ∉ [slot, Reg.WGT_PKG_REJECT.addr 0 0] → t.word w = s.word w)) ∧
    (s.accepts h (opRow 0x0131) false true true x → s.slotState n = 2 → ∃ t, Done (exec (.genDiscard h n) s) h 0x0131 t [] ∧
      t.slotState n = 0 ∧ t = { u with regs := t.regs, gens := s.gens.set n genReset } ∧ ∀ w, w ≠ slot → t.word w = s.word w) ∧
    exec .drainTimeout s = .next { s with
      repls := s.repls.map (fun q => if q.phase = 1 ∧ q.left ≤ 1 then { q with timedOut := true } else q) }

/-- Programming (R62, R66, R335 to R339). A wave starts under its preconditions and shows its arrays `PROGRAMMING`; otherwise it waits and is
counted, and the timeout of a wait stops the programming with the status of the precondition. An array programmed and verified holds its
tile's levels, in service, at age 0 with one cycle more; an array that an erasure programs is at level 8 and holds none (R473). After the waves a
failed tile goes into the core's spare array.
One deferral for each wait, and the wave of the spare array, are readings (notes/assumptions/12.md, 27.md), as is that the erasure goes by waves
(notes/assumptions/30.md). -/
def Obligations.ProgrammingProceeds : Prop :=
  ∀ (s : State) (die site arr : Nat) (p : Prog) (d : DieProg) (e : Nat × Nat × Nat × Tile), s.calm → s.prog = some p → p.complete = false →
    let key := fun (y : Nat × Nat × Nat × Tile) => (y.1, y.2.1)
    let wave := (s.placements p.slot).filter (fun y => dieOf y.1 == die && waveOf y.2.1 == d.wave && !s.arrFailed y.1 y.2.1)
    let took := fun (o : Out) (a : Nat) => ∃ t, o = .next t ∧ (∀ k, k ≠ site → t.core k = s.core k) ∧
      ((t.core site).arr a).holds = .gen p.slot e.2.2.1 ∧ ((t.core site).arr a).gen = s.slotGen p.slot ∧
      ((t.core site).arr a).cells = ((s.core site).arr a).cellsFor e.2.2.2.levels ∧ ((t.core site).arr a).meanGain = s.free 32 ∧
      t.rf Reg.ARY_STATEa site a 18 16 = 0 ∧ t.reg Reg.ARY_AGEa site a = 0 ∧ t.mem = s.mem ∧ t.seq = s.seq ∧
      t.rf Reg.ARY_PROG_CYCLESa site a 23 0 = s.rf Reg.ARY_PROG_CYCLESa site a 23 0 + 1 ∧
      ∃ q, t.prog = some q ∧ (a = arr → q.placed = p.placed) ∧ q.unplaced = p.unplaced
    (p.erase = none → p.dies[die]? = some d → d.done = false → d.stopped = false → s.nvWriting die = false → s.writesOk = true →
      s.slotWaits p.slot = false → s.dieWorks die = true → ∃ t, exec (.waveStart ⟨die, false⟩) s = .next t ∧
        (d.waiting = true → s.maint = none → exec (.wavePreconditionRecheck die) s = .next t) ∧
        (s.tempWindow die = true → s.holdup 3000 = true → wave ≠ [] → (∀ y ∈ wave, s.skips p y = false) →
          t = { s with regs := t.regs, prog := t.prog } ∧ (∀ y ∈ wave, t.rf Reg.ARY_STATEa y.1 y.2.1 18 16 = 4) ∧
          t.prog = some { p with dies := p.dies.set die { d with todo := wave.map key, waiting := false } }) ∧
        (s.tempWindow die = false → s.holdup 3000 = true → d.waiting = false → s.room Reg.WGT_WAVE_DEFER 0 0 1 →
          t = { s with regs := t.regs, prog := some { p with dies := p.dies.set die { d with waiting := true } } } ∧
          t.reg Reg.WGT_WAVE_DEFER 0 0 = s.reg Reg.WGT_WAVE_DEFER 0 0 + 1)) ∧
    (p.erase = none → p.dies[die]? = some d → d.waiting = true → s.maint = none → s.mild [0x50] → ∃ v t q, exec (.progWaitTimeout die) s = .next t ∧
      Raised v t 0x50 devUnit ∧ v = { s with regs := v.regs, prog := some q } ∧ (∀ y ∈ q.dies, y.done = true ∨ y.stopped = true) ∧
      v.rf Reg.WGT_PROG_STATE 0 0 23 22 = 3 ∧ v.rf Reg.WGT_PROG_STATE 0 0 31 24 = (if s.tempWindow die then stHoldup else stTemp) ∧
      ∀ w, w ≠ Reg.WGT_PROG_STATE.addr 0 0 → v.word w = s.word w) ∧
    (p.dies[dieOf site]? = some d → (site, arr) ∈ d.todo → s.dieWorks (dieOf site) = true → p.erase.isSome = true →
      (∃ y ∈ d.todo, y ≠ (site, arr)) → s.rf Reg.ARY_PROG_CYCLESa site arr 23 0 < 10000 →
      ∃ t, exec (.arrayProgramDone site arr []) s = .next t ∧ (∀ k, k ≠ site → t.core k = s.core k) ∧
        ((t.core site).arr arr).cells = level8 ∧ ((t.core site).arr arr).holds = .none ∧ t.reg Reg.ARY_AGEa site arr = 0 ∧
        t.rf Reg.ARY_PROG_CYCLESa site arr 23 0 = s.rf Reg.ARY_PROG_CYCLESa site arr 23 0 + 1) ∧
    (p.erase = none → p.dies[dieOf site]? = some d → (site, arr) ∈ d.todo → s.dieWorks (dieOf site) = true → s.arrFailed site arr = false →
      (s.placements p.slot).find? (fun y => y.1 == site && y.2.1 == arr) = some e →
      s.rf Reg.ARY_PROG_CYCLESa site arr 23 0 < 10000 → took (exec (.arrayProgramDone site arr []) s) arr) ∧
    (p.erase = none → (∀ y ∈ p.dies, y.done = true) → s.writesOk = true → s.slotWaits p.slot = false → s.writeFree (dieOf site) = true →
      p.spares.find? (fun y => y.1 == site) = some (site, e.2.2.1) →
      (s.placements p.slot).find? (fun y => y.1 == site && y.2.2.1 == e.2.2.1) = some e →
      (∀ a, s.spareIdle site = some a → a ≠ arr → s.skips p (site, a, e.2.2.1, e.2.2.2) = false → s.rf Reg.ARY_PROG_CYCLESa site a 23 0 < 10000 →
        took (exec (.spareTileStep site ⟨[], false⟩) s) a) ∧
      (s.spareIdle site = none → site < 544 → s.mild [0x51] → ∃ t q, exec (.spareTileStep site ⟨[], false⟩) s = .next t ∧ t.prog = some q ∧
        q.unplaced = p.unplaced ++ [e.2.2.1] ∧ t.rf Reg.FCL_SRCn_STAT 0 0x51 31 31 = 1 ∧ t.cores = s.cores))

/-- Maintenance of an array in service (R344, R345): the request starts the copy into the core's spare array; the copy holds the same tile;
a recalibrated array, or one rewritten with the tile that it held, becomes the spare, and the request is answered.
Readings of maintenance stand in notes/assumptions/12.md and 27.md. -/
def Obligations.ArrayMaintenance : Prop :=
  ∀ (s : State) (h : Hdr) (x : Session) (lcore la action site spare : Nat) (m : Maint) (cal : ArrayCal) (slot n : Nat) (tile : Tile),
    s.calm →
    let u := s.taken h
    let m0 : Maint := { reply := replyTo h 0x0133, site := site, arr := s.phys site la, spare := spare, copied := false, waiting := false }
    (s.accepts h (opRow 0x0133) false true true x → (action = 1 ∨ action = 2) → s.siteOf lcore = some site → lcore < 512 → la < 16 →
      s.rf Reg.RTR_FENCE site 0 1 0 = 0 → s.maint = none → s.inRepl s.ownInst = false → s.stoppedMaint site la = none →
      s.writesOk = true → s.dieWorks (dieOf site) = true →
      s.nvWriting (dieOf site) = false → s.spareIdle site = some spare → s.tempWindow (dieOf site) = true → s.holdup 20 = true → ∃ t,
        exec (.arrayMaint h lcore la action) s = .next t ∧ t = { u with regs := t.regs, maint := some m0 } ∧
        t.rf Reg.WGT_MAINT 0 0 2 0 = 1 ∧ t.rf Reg.WGT_MAINT 0 0 30 22 = lcore ∧ t.rf Reg.WGT_MAINT 0 0 11 8 = la ∧
        t.rf Reg.WGT_MAINT 0 0 21 20 = action ∧ t.rf Reg.ARY_STATEa site spare 18 16 = 2 ∧
        ∀ w, w ∉ [Reg.WGT_MAINT.addr 0 0, Reg.ARY_STATEa.addr site spare] → t.word w = s.word w) ∧
    (s.maint = some m → m.waiting = false → s.heldWaits = false → s.safe = false → s.dieWorks (dieOf m.site) = true → cal.convs = [] →
      cal.cols = [] →
      (m.copied = false → s.heldTile m.site (s.rf Reg.WGT_MAINT 0 0 11 8) = some (slot, n, tile) →
        s.rf Reg.ARY_PROG_CYCLESa m.site m.spare 23 0 < 10000 → ∃ t, exec (.maintCopyDone ⟨cal, ⟨[], false⟩⟩) s = .next t ∧
          t.maint = some { m with copied := true } ∧ (∀ k, k ≠ m.site → t.core k = s.core k) ∧
          ((t.core m.site).arr m.spare).holds = .gen slot n ∧
          ((t.core m.site).arr m.spare).cells = ((s.core m.site).arr m.spare).cellsFor tile.levels ∧ t.mem = s.mem ∧ t.seq = s.seq) ∧
      (s.rf Reg.WGT_MAINT 0 0 2 0 = 3 → s.rf Reg.ARY_STATEa m.site m.arr 18 16 = 3 → ∃ t : State,
        exec (.maintStep3Done cal ⟨[], false⟩) s = .next (t.answer m.reply stOk []) ∧ t.maint = none ∧
        t.rf Reg.ARY_STATEa m.site m.arr 18 16 = 1 ∧ t.rf Reg.WGT_MAINT 0 0 2 0 = 0 ∧ (∀ k, k ≠ m.site → t.core k = s.core k) ∧
        ((t.core m.site).arr m.arr).cells = ((s.core m.site).arr m.arr).cells ∧ t.mem = s.mem ∧ t.seq = s.seq) ∧
      (s.rf Reg.WGT_MAINT 0 0 2 0 = 3 → s.rf Reg.ARY_STATEa m.site m.arr 18 16 = 4 →
        s.heldTile m.site (s.rf Reg.WGT_MAINT 0 0 11 8) = some (slot, n, tile) → s.rf Reg.ARY_PROG_CYCLESa m.site m.arr 23 0 < 10000 →
        ∃ t : State, exec (.maintStep3Done cal ⟨[], false⟩) s = .next (t.answer m.reply stOk []) ∧ t.maint = none ∧
        t.rf Reg.ARY_STATEa m.site m.arr 18 16 = 1 ∧ t.rf Reg.WGT_MAINT 0 0 2 0 = 0 ∧ (∀ k, k ≠ m.site → t.core k = s.core k) ∧
        ((t.core m.site).arr m.arr).cells = ((s.core m.site).arr m.arr).cellsFor tile.levels ∧
        t.rf Reg.ARY_PROG_CYCLESa m.site m.arr 23 0 = s.rf Reg.ARY_PROG_CYCLESa m.site m.arr 23 0 + 1 ∧ t.mem = s.mem ∧ t.seq = s.seq))

/-! ### Memories -/

/-- Memory errors, failures, tests and reloads (R351, R354 to R357, R361, R363, R369 to R371). Every error of one bit is corrected; a
corrected word is counted, an uncorrectable one is poisoned, counted, noted and raised; a failed stack or channel is shown and raised; a
march test shows its outcome, and a destructive one leaves the scratchpad cleared; a block is reloaded, or its slot marked. An error that no
scrub finds stands until a read meets it, which it does before anything else of the read (that errors come as the operand of `PATROL_SCRUB` and stand
in a field of their own is the model's choice: notes/assumptions/20.md). -/
def Obligations.MemoryErrorsAndFailures : Prop :=
  (∀ b, b < 80 → bchLeft (1 <<< b : BitVec 80) = some 0) ∧
  ∀ (s : State) (a k site slot n : Nat) (err : BitVec 80) (p : Package) (c : Nat × List Byte), s.calm →
    (∀ (x : Issue) (f : MemF), s.runs x →
      let b := memfAddr f ((s.core x.site).stepIdx x)
      let n := 64 * (f.gm1.toNat + 1)
      inRegion b n = true → exec (.mrd x f) s = exec (.mrd x f) (s.meet b n)) ∧
    (s.rf Reg.MEM_SCRUB 0 0 31 31 = 0 → s.latent = [] → err ≠ 0 → a < 0xA000000000 → s.memUp a = true →
      exec (.patrolScrub .near a err) s = .next { s with latent := [(a / 8, err)] }) ∧
    (s.rf Reg.MEM_SCRUB 0 0 31 31 = 1 → s.latent = [] → a < 0xA000000000 → s.memUp a = true →
      let x := stackOf a
      (err ≠ 0 → bchLeft err = some 0 → ∃ t, exec (.patrolScrub .near a err) s = .next t ∧ OnlyRegs s t [Reg.MEM_STACKs_CE.addr x 0] ∧
        t.reg Reg.MEM_STACKs_CE x 0 = (s.reg Reg.MEM_STACKs_CE x 0 + 1) % 2 ^ 64) ∧
      (bchLeft err = none → s.room Reg.MEM_STACKs_UE x 0 1 → s.room Reg.MEM_POISON_CREATED 0 0 1 → s.mild [0x58] → ∃ v t,
        exec (.patrolScrub .near a err) s = .next t ∧ Raised v t 0x58 x ∧
        v = { s with regs := v.regs, mem := v.mem, poison := addPoison s.poison (a / 8) } ∧
        (∀ b, b / 8 ≠ a / 8 → Mem.wf s.mem = true → Mem.get v.mem b = Mem.get s.mem b) ∧
        v.reg Reg.MEM_STACKs_UE x 0 = s.reg Reg.MEM_STACKs_UE x 0 + 1 ∧
        v.reg Reg.MEM_POISON_CREATED 0 0 = s.reg Reg.MEM_POISON_CREATED 0 0 + 1 ∧ v.reg Reg.MEM_POISON_LAST 0 0 = 8 * (a / 8) ∧
        ∀ w, w ∉ [Reg.MEM_STACKs_UE.addr x 0, Reg.MEM_POISON_CREATED.addr 0 0, Reg.MEM_POISON_LAST.addr 0 0] → v.word w = s.word w)) ∧
    (s.inFlight = true → s.mgmtLost = false →
      (k < 8 → (s.rf Reg.MEM_STACKs_STATE k 0 2 0 = 1 ∨ s.rf Reg.MEM_STACKs_STATE k 0 2 0 = 2) → s.mild [0x5A] →
        ∃ t, exec (.stackFailure k) s = .next t ∧ Raised (s.setRf Reg.MEM_STACKs_STATE k 0 2 0 3) t 0x5A k) ∧
      (k < 32 → (s.rf Reg.MEM_FARc_STATE k 0 2 0 = 1 ∨ s.rf Reg.MEM_FARc_STATE k 0 2 0 = 2) → s.mild [0x5B] →
        ∃ t, exec (.channelFailure k) s = .next t ∧ Raised (s.setRf Reg.MEM_FARc_STATE k 0 2 0 3) t 0x5B k)) ∧
    (∀ preserve : Bool, s.jobs.marches = [(site, preserve)] → s.jobs.owed = [] →
      let done := fun (t : State) => t = { s with regs := t.regs, cores := t.cores, jobs := { s.jobs with marches := [] } } ∧
        (∀ y, y ≠ site → t.core y = s.core y) ∧
        t.core site = (if preserve then s.core site else { s.core site with spm := [], spmPoison := [] })
      (∃ t, exec (.marchTestDone site []) s = .next t ∧ done t ∧ t.reg Reg.SPM_MARCH_STATE site 0 = 2 ∧
        ∀ w, w ≠ Reg.SPM_MARCH_STATE.addr site 0 → t.word w = s.word w) ∧
      (n < 16384 → s.rf Reg.SPM_REMAPn site 0 31 31 = 0 → (∀ y, y < 8 → s.reg Reg.SPM_REMAPn site y ≠ 2 ^ 31 + n) → ∃ t,
        exec (.marchTestDone site [n]) s = .next t ∧ done t ∧
        t.reg Reg.SPM_MARCH_STATE site 0 = 2 ^ 31 + n * 2 ^ 16 + 2 ^ 8 + 3 ∧ t.reg Reg.SPM_REMAPn site 0 = 2 ^ 31 + n ∧
        ∀ w, w ∉ [Reg.SPM_MARCH_STATE.addr site 0, Reg.SPM_REMAPn.addr site 0] → t.word w = s.word w)) ∧
    (s.pkg slot = some p → p.constants[n]? = some c →
      exec (.blockReloadDone slot (.constants n) .done) s = .next (s.memWrite c.1 c.2 []) ∧
      (∀ w ∈ [ReloadEnd.poison, .badTag], s.room Reg.MEM_POISON_CONSUMED 0 0 1 → s.mild [0x5C] →
        ∃ v t, exec (.blockReloadDone slot (.constants n) w) s = .next t ∧ Raised v t 0x5C devUnit ∧
          v = { s with regs := v.regs, gens := s.gens.modify slot (fun g => { g with broken := true }) } ∧
          v.reg Reg.MEM_POISON_CONSUMED 0 0 = s.reg Reg.MEM_POISON_CONSUMED 0 0 + (if w = .poison then 1 else 0) ∧
          ∀ k, k ≠ Reg.MEM_POISON_CONSUMED.addr 0 0 → v.word k = s.word k))

/-- Copies of pages between near and far memory (R250, R251, R253, R361), of one granule and with no memory failed: the target granule
holds what the source holds, a spill renews the version counter and the tags of its far granule, and the copy is complete. A restore of which the tags
of some units fail copies nothing: each of those units is marked and counted, every frame of the page is poisoned, it is raised, and its barge
ends.
That the tags which fail come as an operand is the model's choice (notes/assumptions/20.md); that one failed tag poisons the whole page is a
reading (notes/assumptions/26.md). -/
def Obligations.PageCopies : Prop :=
  ∀ (s : State) (barge layer page a b : Nat) (fails l : List Nat) (c : Copy) (p : PageAt), s.calm → s.anyDead = false → s.latent = [] →
    (let base := s.reg Reg.MEM_KV_PT_BASE 0 0; ∀ w ∈ s.poison, ¬(base ≤ 8 * w ∧ 8 * w < base + s.rf Reg.MEM_KV_PT_SIZE 0 0 15 0 * 2 ^ 20)) →
      Mem.wf s.mem = true → c.source = [a] →
    c.target = [b] →
    let at_ := fun (y : Copy) (spill : Bool) => y.spill = spill ∧ y.barge = barge ∧ y.layer = layer ∧ y.page = page
    let copied := fun (t : State) (spill : Bool) => t = { s with
        mem := t.mem, poison := t.poison
        kv := { s.kv with copies := s.kv.copies.map (fun (y : Copy) => if at_ y spill then { y with done := true } else y)
                          badTags := if spill then s.kv.badTags.filter (fun u => u / 8 != b) else s.kv.badTags
                          versions := t.kv.versions } } ∧
      (∀ k, SMap.get t.kv.versions 0 k = SMap.get s.kv.versions 0 k + if spill ∧ k = b then 1 else 0) ∧
      ∀ k, Mem.get t.mem k = if granAddr (b, spill) ≤ k ∧ k < granAddr (b, spill) + 32768
        then Mem.get s.mem (k - granAddr (b, spill) + granAddr (a, !spill)) else Mem.get s.mem k
    (s.copyOf true barge layer page = some c → ∃ t, exec (.spillCopyDone barge layer page) s = .next t ∧ copied t true) ∧
    (s.copyOf false barge layer page = some c →
      let failed := s.failedUnits [(granAddr (a, true), 32768)] fails
      (failed = [] → poisonOf s.poison (granAddr (a, true)) 32768 = [] →
        ∃ t, exec (.restoreCopyDone barge layer page fails) s = .next t ∧ copied t false) ∧
      (failed = l → l ≠ [] → s.kv.page barge layer page = some p → s.mild [0x42] → ∃ t, exec (.restoreCopyDone barge layer page fails) s = .next t ∧
        t = { s with regs := t.regs, fcl := t.fcl, freeCtr := t.freeCtr, poison := t.poison, flt := { s.flt with causes := t.flt.causes }
                     kv := { s.kv with copies := s.kv.copies.filter (fun y => y != c), badTags := t.kv.badTags } } ∧
        (∀ u ∈ l, u ∈ t.kv.badTags) ∧
        (∀ g ∈ p.frames, ∀ w, granAddr g ≤ 8 * w → 8 * w < granAddr g + 32768 → w ∈ t.poison) ∧
        (⟨barge, 4, 0⟩ : EndCause) ∈ t.flt.causes ∧ t.rf Reg.FCL_SRCn_STAT 0 0x42 31 31 = 1 ∧
        (s.room Reg.CNT_KV_INTEGRITY 0 0 l.length → t.reg Reg.CNT_KV_INTEGRITY 0 0 = s.reg Reg.CNT_KV_INTEGRITY 0 0 + l.length)))
/-! ### The whole machine -/

/-- Predicated off, an instruction other than `RSEND` has no effect: its core moves on, and everything else stays (R169). As every instruction it
waits first, while a tile that it names is one that an evaluation still delivers into (R179), and, of the array unit, while the unit's queue is full
(R192; that it waits predicated off too is the model's reading: notes/assumptions/9.md). -/
def Obligations.PredicatedOffHasNoEffect : Prop :=
  ∀ (s : State) (i : Instr) (x : Issue), s.calm → issueOf i = some x → s.predOff x →
    let c := s.core x.site
    let evals := ∃ f, i = .eval x f
    let queued := evals ∨ (∃ f l, i = .fill x f l) ∨ ∃ f, i = .sdesc x f
    let waits := (queued ∧ 8 ≤ c.arrQ.length) ∨ (¬evals ∧ ¬c.tilesFree (ownTiles i (c.stepIdx x)))
    (¬waits → exec i s = .next (s.updCore x.site Core.advance)) ∧ (waits → exec i s = .next s)

/-- Every step keeps the fused map of enabled sites (R17) and the canonical form of device memory, from every state; and where every memory has
its canonical form, and the lists that stand for a fixed number of areas, slots and ports have it, every step keeps all of that. That memories
are lists in a canonical form is the model's choice (notes/assumptions/19.md). -/
def Obligations.StepKeepsSitesAndMemoryForm : Prop :=
  (∀ (s t : State), Mem.wf s.mem = true → step s = .next t → t.siteEn = s.siteEn ∧ Mem.wf t.mem = true) ∧
  ∀ (s t : State), s.wellShaped → step s = .next t → t.wellShaped

/-- What reset leaves: every stored register holds its reset value, no command waits, the flight
is `UNFORMED`, no session is open, the staging areas are closed, both generation slots are empty, nothing is captured, the pins are high,
the device is in IDLE and not booted, and every memory is empty and well shaped. That it is not booted, that stores and buffers are empty, and the
value of a register for which the spec states none are the model's choice (notes/assumptions/2.md), as is what memory holds
(notes/assumptions/19.md). -/
def Obligations.ResetState : Prop :=
  let s := State.reset
  (∀ (f : RegFam) (i j : Nat), s.reg f i j = (BitVec.ofNat 64 (f.default j)).toNat) ∧
  s.rf Reg.FCL_STATE 0 0 2 0 = 0 ∧ s.rf Reg.FCL_STATE 0 0 8 8 = 1 ∧ s.rf Reg.PWR_STATE 0 0 2 0 = 1 ∧ s.rf Reg.PWR_STATE 0 0 6 4 = 1 ∧
  s.rf Reg.DEV_SIDEBAND 0 0 1 0 = 3 ∧ s.rf Reg.HPT_RETX 0 0 31 16 = 100 ∧ s.rf Reg.HPT_RETX 0 0 7 0 = 12 ∧
  s.rf Reg.HKA_CHn_WIN 0 31 29 16 = 16383 ∧ s.rf Reg.SEC_RNG 0 0 0 0 = 1 ∧ s.flightState = 0 ∧ s.slotState 0 = 0 ∧ s.slotState 1 = 0 ∧
  s.pending = [] ∧ s.hpt.sessions = [] ∧ (∀ k, (s.area k).isOpen = false) ∧ s.fcl.buffer = [] ∧ s.fcl.store = [] ∧
  s.sched.active = none ∧ s.sched.staged = none ∧ s.seq.barges = [] ∧ s.pow.booted = false ∧ s.mem = [] ∧ s.latent = [] ∧ s.wellShaped

/-- Error counters (R412), seen at the counter of missed housekeeping triggers (R447): with room a count adds 1 and nothing else; at its
largest value it sticks, sets `SAT`, raises `FCL_COUNTER_SAT` and, where that raise counts with room and captures nothing, stays named in
`FCL_SAT_LAST`; once `SAT` is set it stays. -/
def Obligations.ErrorCountersStick : Prop :=
  ∀ (s : State) (l : List Sample), s.calm → s.pow.booted = true →
    let c := s.rf Reg.HKA_TRIG_MISSED 0 0 30 0
    let timer := exec (.hkaTimerTrigger l true) s
    let pwm := exec (.hkaPwmTrigger l true) s
    (s.rf Reg.HKA_CTL 0 0 31 31 = 1 → s.rf Reg.HKA_PWM 0 0 31 31 = 1 → pwm = timer) ∧
    (s.rf Reg.HKA_CTL 0 0 31 31 = 1 →
      (s.room Reg.HKA_TRIG_MISSED 0 0 1 → ∃ t, timer = .next t ∧ OnlyRegs s t [Reg.HKA_TRIG_MISSED.addr 0 0] ∧
        t.reg Reg.HKA_TRIG_MISSED 0 0 = s.reg Reg.HKA_TRIG_MISSED 0 0 + 1) ∧
      (c = 0x7FFFFFFE → s.rf Reg.HKA_TRIG_MISSED 0 0 31 31 = 0 → s.mild [] → ∃ t, timer = .next t ∧
        t.reg Reg.HKA_TRIG_MISSED 0 0 = 0xFFFFFFFF ∧ ((s.rf Reg.FCL_SRCn_CFG 0 0 15 8).testBit 6 = false →
          s.room Reg.FCL_SRCn_COUNT 0 0 1 → t.reg Reg.FCL_SAT_LAST 0 0 = Reg.HKA_TRIG_MISSED.addr 0 0) ∧
        t.rf Reg.FCL_SRCn_STAT 0 0 31 31 = 1 ∧ t = { s with regs := t.regs, fcl := t.fcl, freeCtr := t.freeCtr }) ∧
      (c = 0x7FFFFFFF → s.rf Reg.HKA_TRIG_MISSED 0 0 31 31 = 1 → ∃ t, timer = .next t ∧ OnlyRegs s t [Reg.HKA_TRIG_MISSED.addr 0 0] ∧
        t.reg Reg.HKA_TRIG_MISSED 0 0 = 0xFFFFFFFF))

/-! ### Power, pins and boot -/

/-- `POWER` and the states that follow (R458, R459): a request for the present state is answered at once; one that is not refused shows
`CHANGING` and its target; an entry into a state shows it, IDLE from RUN stops issue, DOZE takes the memories into self-refresh and the
flight apart, TOWPATH retrains the link; the last one ends the change; OFF loses what is volatile.
What OFF leaves of values without a stated reset is the model's choice (notes/assumptions/2.md, 19.md). -/
def Obligations.PowerStates : Prop :=
  ∀ (s : State) (h : Hdr) (x : Session) (state n : Nat) (rest : List Nat), s.calm →
    let u := s.taken h
    (s.accepts h (opRowM 0x0160) false true true x → state ≤ 4 →
      (s.power = state → s.rf Reg.PWR_STATE 0 0 8 8 = 0 → Done (exec (.power h state) s) h 0x0160 u []) ∧
      (s.power ≠ state → s.powerBusy state = false → ∃ t, exec (.power h state) s = .next t ∧
        t = { u with regs := t.regs, pow := t.pow, jobs := { s.jobs with power := some (replyTo h 0x0160) } } ∧
        t.pow.path = powerPath s.power state ∧ t.rf Reg.PWR_STATE 0 0 8 8 = 1 ∧ t.rf Reg.PWR_STATE 0 0 6 4 = state ∧
        t.rf Reg.PWR_STATE 0 0 2 0 = s.power ∧ ∀ w, w ≠ Reg.PWR_STATE.addr 0 0 → t.word w = s.word w)) ∧
    (s.pow.path = n :: rest → s.pow.toIdle = false → s.mild [0x60] →
      (n = 0 → rest = [] → s.jobs.power = none → ∃ t, exec .powerStateEntry s = .next t ∧ t.power = 0 ∧
        t = { s with regs := t.regs, pow := { s.pow with path := [] } } ∧ t.rf Reg.PWR_STATE 0 0 8 8 = 0 ∧
        ∀ w, w ≠ Reg.PWR_STATE.addr 0 0 → t.word w = s.word w) ∧
      (n < 4 → ∃ t, exec .powerStateEntry s = .next t ∧ t.power = n ∧ t.pow.path = rest ∧
        (rest = [] → t.rf Reg.PWR_STATE 0 0 8 8 = 0 ∧ t.jobs.power = none) ∧
        (n = 1 → s.power = 0 → ∀ k, (t.core k).run = .idle ∧ (t.core k).evals = []) ∧
        (n = 2 → s.power = 1 → t.flightState = 0 ∧ ∀ k, k < 8 → t.rf Reg.MEM_STACKs_STATE k 0 2 0 =
          (if s.rf Reg.MEM_STACKs_STATE k 0 2 0 = 3 then 3 else 4)) ∧
        (n = 3 → t.linkState = 1)) ∧
      (n = 4 → ∃ t, exec .powerStateEntry s = .next t ∧ t.power = 4 ∧ t.pow.on = false ∧ t.pow.offLatch = (s.rf Reg.DEV_SIDEBAND 0 0 0 0 == 1) ∧
        t.pow.booted = false ∧ t.mem = [] ∧
        t.hpt.sessions = [] ∧ t.sched.active = none ∧ t.flightState = 0))

/-- Pins and input (R408, R487, R488, R490 to R494, R499): each pin event shows its pin while the input is in range, and is only remembered while
it is not, until the input comes back; a rise of PWR_EN powers the device, but after OFF by `POWER` only where the pin was low for 10 ms; RESET_N
with PWR_EN high resets the chip at its fall (notes/assumptions/30.md), which keeps the map of enabled sites and the committed records; a fall of
PWR_EN and a failure of the input take the device off; the synchronisation clock shows its frequency and is locked to within its range, also
where it is not within it (notes/assumptions/29.md). -/
def Obligations.PinsAndInput : Prop :=
  ∀ (s : State) (khz : Nat),
    let off := fun (t : State) => t.pow.on = false ∧ t.pow.booted = false ∧ t.power = 4 ∧ t.mem = [] ∧ t.hpt.sessions = [] ∧
      t.sched.active = none ∧ t.flightState = 0
    let pwr := fun (t : State) (up : Bool) => ({ t with pow := { s.pow with pwrEn := up, lowMs := 0 } } : State)
    let rst := fun (t : State) (up : Bool) => ({ t with pow := { s.pow with resetN := up } } : State)
    let shows := fun (n v : Nat) => s.setRf Reg.DEV_SIDEBAND 0 0 n n v
    (s.pow.vin = true →
      (s.pow.offLatch = false ∨ 10 ≤ s.pow.lowMs → exec .pwrEnRise s =
        .next { shows 0 1 with pow := { s.pow with pwrEn := true, lowMs := 0, on := true, offLatch := false } }) ∧
      (s.pow.offLatch = true → s.pow.lowMs < 10 → exec .pwrEnRise s = .next (pwr (shows 0 1) true)) ∧
      (s.pow.on = false → exec .pwrEnFall s = .next (pwr (shows 0 0) false)) ∧
      (s.pow.on = true → ∃ t, exec .pwrEnFall s = .next t ∧ off t ∧ t.rf Reg.DEV_SIDEBAND 0 0 0 0 = 0 ∧ t.pow.pwrEn = false) ∧
      (s.rf Reg.DEV_SIDEBAND 0 0 0 0 = 0 → exec .resetNAssert s = .next (rst (shows 1 0) false)) ∧
      (s.rf Reg.DEV_SIDEBAND 0 0 0 0 = 1 → s.pow.on = true → ∃ t, exec .resetNAssert s = .next t ∧ t.rf Reg.FCL_STATE 0 0 17 16 = 1 ∧
        t.rf Reg.DEV_SIDEBAND 0 0 1 0 = 1 ∧ t.mem = [] ∧ t.hpt.sessions = [] ∧ t.sched.active = none ∧ t.flightState = 0 ∧
        t.pow.booted = false ∧ t.siteEn = s.siteEn ∧ t.fcl.store = s.fcl.store) ∧
      exec .resetNRelease s = .next (rst (shows 1 1) true) ∧
      (∃ t, exec .vinUndervoltage s = .next t ∧ exec .vinOvervoltage s = .next t ∧ t.pow.vin = false ∧ t.pow.on = false ∧
        t.pow.kept = false ∧ (s.pow.on = true → t.mem = [] ∧ t.hpt.sessions = [] ∧ t.flightState = 0)) ∧
      (s.pow.on = true → ∃ t, exec (.pwmSyncLock khz) s = .next t ∧
        OnlyRegs s t [Reg.DEV_SIDEBAND.addr 0 0] ∧ t.rf Reg.DEV_SIDEBAND 0 0 19 8 = min 0xFFF khz ∧
        t.rf Reg.DEV_SIDEBAND 0 0 2 2 = bit (decide (600 ≤ khz ∧ khz ≤ 1000)) ∧
        t.rf Reg.DEV_SIDEBAND 0 0 1 0 = s.rf Reg.DEV_SIDEBAND 0 0 1 0) ∧
      (∃ t, exec .pwmSyncLoss s = .next t ∧ OnlyRegs s t [Reg.DEV_SIDEBAND.addr 0 0] ∧ t.rf Reg.DEV_SIDEBAND 0 0 19 8 = 0 ∧
        t.rf Reg.DEV_SIDEBAND 0 0 2 2 = 0 ∧ t.rf Reg.DEV_SIDEBAND 0 0 1 0 = s.rf Reg.DEV_SIDEBAND 0 0 1 0)) ∧
    (s.pow.vin = false → exec .pwrEnRise s = .next (pwr s true) ∧ exec .pwrEnFall s = .next (pwr s false) ∧
      exec .resetNAssert s = .next (rst s false) ∧ exec .resetNRelease s = .next (rst s true) ∧
      exec .vinInRange s = .next { s.setRf Reg.DEV_SIDEBAND 0 0 1 0 (bit s.pow.resetN * 2 + bit s.pow.pwrEn) with pow := { s.pow with
        vin := true, on := s.pow.on || (s.pow.pwrEn && !s.pow.offLatch) } })

/-- The boot (R410, R441, R474, R476, R477): with power applied, PWR_EN and RESET_N high, a good image runs: its security version and measurement
are shown, memories are up but those that failed, the host link trains, and the age of the arrays is known only where power stayed applied.
A flash without a good image, or a management set that is not complete, boots for recovery; a failed self-test enters the safe state; a random source
that fails its test is shown and raised.
That the row brings the image with its header read is the model's choice (notes/assumptions/15.md); what a boot with a failed self-test or an
incomplete set finds is a reading (notes/assumptions/30.md). -/
def Obligations.Boot : Prop :=
  ∀ (s : State) (found : BootTest) (fwOk : Bool) (img : FwImage) (stks channels : List Nat) (marches : List (Nat × List Nat))
    (diodes : List Nat) (bad : List Nat), s.calm → s.pow.vin = true → s.pow.on = true → s.pow.booted = false → s.pow.offLatch = false →
    s.rf Reg.DEV_SIDEBAND 0 0 1 0 = 3 → s.mild [0x05, 0x11, 0x5A, 0x5B, 0x5E, 0x7A, 0x91, 0x92] →
    let f := s.sec.flash.getD img
    let good := fwOk && s.imageBoots f && found.managed
    ∃ t, exec (.boot found fwOk img stks channels marches diodes bad) s = .next t ∧ t.pow.booted = true ∧ t.pow.kept = true ∧
      t.linkState = 1 ∧ t.reg Reg.PWR_STATE 0 0 = 0x11 ∧ t.sec.root = true ∧ t.sec.rootDraws = s.sec.rootDraws + 1 ∧
      t.recovery = !good ∧ t.mem = s.mem ∧ (found.collector = false → t.safe = true) ∧
      (found.random = false → t.rf Reg.SEC_RNG 0 0 0 0 = 0 ∧ t.rf Reg.FCL_SRCn_STAT 0 0x91 31 31 = 1) ∧
      (good = true → t.sec.flash = some f ∧ t.sec.recovered = false ∧ (f.svn < 64 → t.rf Reg.SEC_FW 0 0 5 0 = f.svn) ∧
        (∀ k, k < 8 → t.reg Reg.SEC_FW_MEASn 0 k = (fwMeasure f).toNat / 2 ^ (32 * k) % 2 ^ 32) ∧
        t.rf Reg.CAL_AGE 0 0 1 0 = (if s.pow.kept then 1 else 0) ∧
        (∀ v w, diodes = [v, w] → (t.rf Reg.THM_DIODEn 0 16 31 31 = 1 ↔ 100 ≤ v ∧ v ≤ 1000)) ∧
        ∀ k, k < 8 → t.rf Reg.MEM_STACKs_STATE k 0 2 0 = (if s.rf Reg.MEM_STACKs_STATE k 0 2 0 = 3 ∨ k ∈ stks then 3 else 2))
/-! ### Ages, calibration and sensing -/

/-- Ages and calibration (R66, R431 to R434, R437, R438, R440 to R443). `ELAPSED` and each millisecond add to the age of every resident
array of an enabled core; the ages go to the store as records of type 5; a calibration runs and is answered, and what it has found for an
array stands; an estimation in IDLE takes the larger age; a column's statistics are used once; a batch goes into the store under its
hold-up check, and a record that reads back wrong is written again. An estimation outside IDLE only shows ESTIMATING, and a batch that the
bank cannot cover counts, is raised and waits (notes/assumptions/29.md). -/
def Obligations.AgesAndCalibration : Prop :=
  ∀ (s : State) (h : Hdr) (x : Session) (r : Reply) (c d : CalStore) (e : CalRec) (site a scope seconds col k : Nat) (tr ge : Int)
    (g : F32) (cal : ArrayCal), s.calm →
    let u := s.taken h
    let aged := fun (t : State) (n : Nat → Nat) =>
      (∀ i b, s.enabled i = true → b < 17 → t.reg Reg.ARY_AGEa i b = min (2 ^ 64 - 1) (s.reg Reg.ARY_AGEa i b + n (dieOf i))) ∧
      ∀ w, (∀ i b, s.enabled i = true → b < 17 → w ≠ Reg.ARY_AGEa.addr i b) → w ≠ Reg.CAL_AGE.addr 0 0 → t.word w = s.word w
    let arr := (s.core site).arr a
    (s.accepts h (opRowM 0x0161) false true true x → seconds ≤ 3155760000 → s.rf Reg.CAL_AGE 0 0 1 0 = 0 → ∃ t,
      Done (exec (.elapsed h seconds) s) h 0x0161 t [] ∧ t = { u with regs := t.regs } ∧ t.rf Reg.CAL_AGE 0 0 1 0 = 1 ∧
      aged t (fun _ => seconds * 1000 * s.rf Reg.CAL_AGE_CTL 0 0 20 16)) ∧
    (s.pow.vin = true → ∃ t, exec .ageTick s = .next t ∧
      t = { s with regs := t.regs, pow := { s.pow with lowMs := if s.pow.pwrEn then s.pow.lowMs else min 10 (s.pow.lowMs + 1) } } ∧
        aged t (fun y => ageFactor (s.tj y)) ∧
      t.word (Reg.CAL_AGE.addr 0 0) = s.word (Reg.CAL_AGE.addr 0 0)) ∧
    (s.pow.booted = true → s.cal = [c, d] → exec .ageRecordCommit s = .next { s with cal := [
      { c with waiting := c.waiting ++ [(⟨5, 0xFF, 0xFFFF, c.next, s.agePayload 0⟩ : CalRec)], next := c.next + 1 },
      { d with waiting := d.waiting ++ [(⟨5, 0xFF, 0xFFFF, d.next, s.agePayload 1⟩ : CalRec)], next := d.next + 1 }] }) ∧
    (s.accepts h (opRow 0x0162) false true true x → 1 ≤ scope → scope ≤ 4 → (scope = 1 ∨ site = 0) → s.calCheck scope site = stOk → ∃ t,
      exec (.calibrate h scope site) s = .next t ∧
      t = { u with regs := t.regs, jobs := { s.jobs with calibrate := some (replyTo h 0x0162), calScope := scope, calSite := site } } ∧
      t.reg Reg.CAL_STATE 0 0 = scope * 2 ^ 16 + site ∧ (scope = 3 → t.rf Reg.CAL_AGE 0 0 1 0 = 2)) ∧
    (s.jobs.calibrate = some r → s.jobs.calScope = 1 → s.jobs.calSite = site → cal.site = site → cal.arr = a → a < 19 →
      cal.convs = [] → cal.entries = [] → cal.cols = [⟨col, tr, ge⟩] → 0 ≤ tr → tr ≤ 1023 → ge.natAbs ≤ 200 → arr.holds ≠ .none →
      s.dieWorks (dieOf site) = true → ∃ t : State,
        exec (.calibrationDone [cal] []) s = .next (t.answer r stOk []) ∧ t.jobs.calibrate = none ∧ t.reg Reg.CAL_STATE 0 0 = 0 ∧
        t.rf Reg.ARY_CAL_METHOD site 0 31 31 = 1 ∧ SMap.get ((t.core site).arr a).colTrim 512 col = trimCode tr ∧
        (∀ y, y ≠ col → SMap.get ((t.core site).arr a).colTrim 512 y = SMap.get arr.colTrim 512 y) ∧
        ((t.core site).arr a).corr = arr.corr ∧ ((t.core site).arr a).cells = arr.cells ∧ (∀ y, y ≠ site → t.core y = s.core y) ∧
        t.mem = s.mem ∧ t.seq = s.seq) ∧
    (s.pow.booted = true → s.rf Reg.CAL_AGE 0 0 1 0 = 0 ∨ s.rf Reg.CAL_AGE 0 0 1 0 = 2 →
      (s.rf Reg.PWR_STATE 0 0 2 0 ≠ 1 → exec (.ageEstimation [(site, a, g)]) s =
        .next (s.setRf Reg.CAL_AGE 0 0 1 0 2)) ∧
      (s.rf Reg.PWR_STATE 0 0 2 0 = 1 → s.jobs.calibrate = none → s.enabled site = true →
        s.dieWorks (dieOf site) = true → a < 17 → arr.holds ≠ .none → s.mild [0x7C] →
        ∃ q t, exec (.ageEstimation [(site, a, g)]) s = .next t ∧ Raised q t 0x7C devUnit ∧ q.rf Reg.CAL_AGE 0 0 1 0 = 3 ∧
          q.reg Reg.ARY_AGEa site a = max (s.reg Reg.ARY_AGEa site a) (min (2 ^ 64 - 1) (ageOf g (s.rf Reg.ARY_DRIFT_COEFa site a 15 0))) ∧
          q = { s with regs := q.regs } ∧
          ∀ w, w ∉ [Reg.CAL_AGE.addr 0 0, Reg.ARY_AGEa.addr site a] → q.word w = s.word w)) ∧
    (s.enabled site = true → s.dieWorks (dieOf site) = true → s.rf Reg.CAL_STATS_CTL 0 0 0 0 = 1 →
      s.rf Reg.CAL_STATS_CTL 0 0 15 8 ≤ (SMap.get arr.stats statsDefault col).n →
      let used := s.setCore site ((s.core site).setArr a { arr with stats := SMap.erase arr.stats col })
      exec (.calStatsFit site a col) s = .next { used with sense := { s.sense with fits := s.sense.fits ++
        ((fitEntry (SMap.get arr.stats statsDefault col) (SMap.get arr.corr corrDefault col)).toList.map (fun y => (site, a, col, y))) } }) ∧
    (s.writesOk = true → s.cal = [c, d] → c.waiting = [e] → d.waiting = [] → e.size ≤ 65536 → s.nvWriting 0 = false →
      (s.holdup 100 = true → recsSize c.recs + c.lost + e.size ≤ halfSize → k ≠ e.seq → ∃ t, exec (.calBatchCommit [k]) s = .next t ∧
        t = { s with regs := t.regs, cal := [{ c with recs := c.recs ++ [e], waiting := [] }, d] } ∧
        t.rf Reg.CAL_STOREd 0 0 6 0 = 100 * (recsSize c.recs + c.lost + e.size) / halfSize ∧
        ∀ w, w ≠ Reg.CAL_STOREd.addr 0 0 → t.word w = s.word w) ∧
      (s.holdup 100 = true → recsSize c.recs + c.lost + 2 * e.size ≤ halfSize → s.mild [0x7B] → ∃ q t,
        exec (.calBatchCommit [e.seq]) s = .next t ∧ Raised q t 0x7B 0 ∧
        q = { s with regs := q.regs, cal := [{ c with recs := c.recs ++ [e], waiting := [], lost := c.lost + e.size }, d] } ∧
        q.rf Reg.CAL_STOREd 0 0 6 0 = 100 * (recsSize c.recs + c.lost + 2 * e.size) / halfSize) ∧
      (s.holdup 100 = false → s.room Reg.PWR_HOLDUP_DEFER 0 0 1 → s.mild [0x7D] → ∃ q t, exec (.calBatchCommit [k]) s = .next t ∧
        Raised q t 0x7D 0 ∧ OnlyRegs s q [Reg.PWR_HOLDUP_DEFER.addr 0 0] ∧
        q.reg Reg.PWR_HOLDUP_DEFER 0 0 = s.reg Reg.PWR_HOLDUP_DEFER 0 0 + 1)) ∧
    (s.writesOk = true → s.cal = [c, d] → d.waiting = [] → s.nvWriting 0 = true → exec (.calBatchCommit [k]) s = .next s)

/-- Sensing (R444 to R448, R449 to R451, R453, R455). A trigger enters the results of its group; a result leaving its window is raised; a
system scan shows what it has converted, and a die at 115 °C shuts the device down; a diode that deviates for the tenth time has failed;
the spare stage serves the next one, and a stage that fails its calibration is replaced for good; the hold-up capacitance is worked out
from the voltage drop of a draw of 2 mC, shown, and raised where it falls below 3,200 µF (its rounding: notes/assumptions/29.md). -/
def Obligations.Sensing : Prop :=
  ∀ (s : State) (y : Sample) (sc : Scan) (drop : BitVec 16) (n : Nat), s.calm → s.pow.booted = true →
    let w := s.reg Reg.HKA_CHn_WIN 0 y.chan
    let out := decide (y.code.toNat < bitsOf w 13 0 ∨ bitsOf w 29 16 < y.code.toNat)
    let entry := fun (trig seq : Nat) => (⟨trig, y.chan, seq, y.code.toNat⟩ : HkaEntry)
    let shown := fun (t : State) => OnlyRegs { s with sense := t.sense } t [Reg.HKA_CHn_LAST.addr 0 y.chan] ∧
      t.rf Reg.HKA_CHn_LAST 0 y.chan 13 0 = y.code.toNat
    let judged := fun (m : Nat) => s.diodeValid m = true ∧ 2 ≤ ((neighbours m).filter s.diodeValid).length
    let far := fun (m : Nat) =>
      let l := ((neighbours m).filter s.diodeValid).map s.diodeTemp
      192 * l.length < (l.length * s.diodeTemp m - l.sum).natAbs
    (y.chan < 32 → s.sense.queue.length < 512 → bitsOf w 31 31 = 0 →
      (s.rf Reg.HKA_CTL 0 0 31 31 = 1 → s.rf Reg.HKA_CHn_CFG 0 y.chan 1 0 = 1 → ∃ t, exec (.hkaTimerTrigger [y] false) s = .next t ∧
        shown t ∧ t.sense = { s.sense with timerSeq := s.sense.timerSeq + 1, queue := s.sense.queue ++ [entry 1 (s.sense.timerSeq + 1)] }) ∧
      (s.rf Reg.HKA_PWM 0 0 31 31 = 1 → s.rf Reg.HKA_CHn_CFG 0 y.chan 1 0 = 2 → ∃ t, exec (.hkaPwmTrigger [y] false) s = .next t ∧
        shown t ∧ t.sense = { s.sense with pwmSeq := s.sense.pwmSeq + 1, queue := s.sense.queue ++ [entry 2 (s.sense.pwmSeq + 1)] })) ∧
    (y.chan < 32 → s.sense.queue.length < 512 → bitsOf w 31 31 = 1 → out = true → s.rf Reg.HKA_CHn_LAST 0 y.chan 31 31 = 0 →
      s.rf Reg.HKA_CTL 0 0 31 31 = 1 → s.rf Reg.HKA_CHn_CFG 0 y.chan 1 0 = 1 → s.mild [0x75] → ∃ t,
        exec (.hkaTimerTrigger [y] false) s = .next t ∧ t.rf Reg.HKA_CHn_LAST 0 y.chan 31 31 = 1 ∧
        t.rf Reg.HKA_CHn_LAST 0 y.chan 13 0 = y.code.toNat ∧ t.rf Reg.FCL_SRCn_STAT 0 0x75 31 31 = 1 ∧
        t.sense.queue = s.sense.queue ++ [entry 1 (s.sense.timerSeq + 1)]) ∧
    (s.rf Reg.HKA_STAGE 0 0 4 4 = 0 →
      let next := (s.rf Reg.HKA_STAGE 0 0 3 0 + 1) % 12
      (∃ t, exec (.hkaStageRotation true) s = .next t ∧ OnlyRegs s t [Reg.HKA_STAGE.addr 0 0] ∧ t.rf Reg.HKA_STAGE 0 0 3 0 = next ∧
        t.rf Reg.HKA_STAGE 0 0 4 4 = 0) ∧
      (s.mild [0x77] → ∃ q t, exec (.hkaStageRotation false) s = .next t ∧ Raised q t 0x77 devUnit ∧
        OnlyRegs s q [Reg.HKA_STAGE.addr 0 0] ∧ q.rf Reg.HKA_STAGE 0 0 3 0 = next ∧ q.rf Reg.HKA_STAGE 0 0 4 4 = 1)) ∧
    (s.mild [0x70, 0x71, 0x72, 0x75, 0x78, 0x80, 0x81] → ∃ t, exec (.systemScan sc) s = .next t ∧
      t = { s with regs := t.regs, cores := t.cores, fcl := t.fcl, freeCtr := t.freeCtr, sense := t.sense } ∧
      t.sense.bandgapDie = 1 - s.sense.bandgapDie ∧ t.sense.queue = s.sense.queue ∧
      (∀ m v, m < 10 → sc.codes[m]? = some v → t.rf Reg.HKA_CHn_LAST 0 (22 + m) 13 0 = v.toNat) ∧
      (∀ m v, m < 16 → sc.diodes[m]? = some v → s.rf Reg.THM_DIODEn 0 m 30 30 = 0 → t.reg Reg.THM_DIODEn 0 m = 2 ^ 31 + temp16 v) ∧
      ((∀ m, m < 16 → s.rf Reg.THM_DIODEn 0 m 30 30 = 0 ∧ ∃ v, sc.diodes[m]? = some v ∧ 16 * 115 ≤ v ∧ v < 32768) →
        t.sense.shutdown = [true, true] ∧ t.shut = true ∧ ∀ z, (t.core z).run = .idle ∧ (t.core z).evals = [])) ∧
    ((∀ m, m < 16 → SMap.get s.sense.streaks 0 m < 9 ∧ s.rf Reg.THM_DIODEn 0 m 30 30 = 0) → s.sense.diodesLow = [false, false] → ∃ t,
      exec .diodeCheck s = .next t ∧ OnlyRegs { s with sense := { s.sense with streaks := t.sense.streaks } } t [Reg.THM_STATE.addr 0 0] ∧
      ∀ m, m < 16 → (judged m → far m → SMap.get t.sense.streaks 0 m = SMap.get s.sense.streaks 0 m + 1) ∧
        (judged m → ¬far m → SMap.get t.sense.streaks 0 m = 0) ∧
        (¬judged m → SMap.get t.sense.streaks 0 m = SMap.get s.sense.streaks 0 m)) ∧
    (n < 16 → judged n → far n → 9 ≤ SMap.get s.sense.streaks 0 n → s.mild [0x73, 0x74] → ∃ t, exec .diodeCheck s = .next t ∧
      t.rf Reg.THM_DIODEn 0 n 30 30 = 1 ∧ t.rf Reg.THM_DIODEn 0 n 31 31 = 0 ∧ t.rf Reg.FCL_SRCn_STAT 0 0x73 31 31 = 1) ∧
    (s.mild [0x7E] → drop ≠ 0 →
      let uf := min 65535 (2000000 / drop.toNat)
      ∃ q t, exec (.holdupCapMeasure drop) s = .next t ∧ q.rf Reg.PWR_HOLDUP_CAP 0 0 15 0 = uf ∧
        OnlyRegs s q [Reg.PWR_HOLDUP_CAP.addr 0 0, Reg.PWR_HOLDUP.addr 0 0] ∧
        (3200 ≤ uf ∨ s.rf Reg.PWR_HOLDUP_CAP 0 0 15 0 < 3200 → t = q) ∧
        (uf < 3200 → 3200 ≤ s.rf Reg.PWR_HOLDUP_CAP 0 0 15 0 → Raised q t 0x7E devUnit))

/-! ### The fault collector -/

/-- Control pairs and the collector's self-check (R31, R410, R411, R421, R422), on a device in flight that keeps its management set. A copy
that differs enters the safe state; a mismatch starts a self-test and is raised; both passing restores the pair, one passing makes it run
unpaired, both failing, a second mismatch within 10 s or a failed later test of an unpaired core fails it. -/
def Obligations.ControlPairs : Prop :=
  ∀ (s : State) (pair : Nat) (p : Pair) (pass0 pass1 : Bool), s.calm →
    let st := s.rf Reg.FCL_CP_STATE 0 0 (2 * pair + 1) (2 * pair)
    let ended := ({ s with fcl := { s.fcl with pairs := s.fcl.pairs.set pair { p with testing := false } } } : State)
    let shows := fun (q : State) (v : Nat) => q.setRf Reg.FCL_CP_STATE 0 0 (2 * pair + 1) (2 * pair) v
    let fails := fun (o : Out) (q : State) => ∃ t, o = .next t ∧ Raised (shows q 3) t 0x04 pair ∧ t.pairFailed pair = true
    (s.pow.on = true → s.safe = false → ∃ t, exec .collectorCopyMismatch s = .next t ∧ t.safe = true ∧ t.rf Reg.FCL_STATE 0 0 7 4 = 1 ∧
      (∀ k, (t.core k).run = .idle ∧ (t.core k).evals = []) ∧ (∀ k, k < 6 → t.rf Reg.FLK_PORTp_STATE k 0 2 0 = 0) ∧ t.mem = s.mem ∧
      t.hpt = s.hpt) ∧
    (pair < 4 → s.fcl.pairs[pair]? = some p →
      (s.pow.booted = true → st = 0 → s.mild [0x02] → ∃ t, exec (.cpMismatch pair) s = .next t ∧
        let again := match p.last with
          | some k => decide (s.now ≤ k + 1250000000)
          | none => false
        Raised { s with fcl := { s.fcl with pairs := s.fcl.pairs.set pair ⟨true, some s.now, again⟩ } } t 0x02 pair) ∧
      (p.testing = true → p.again = false → exec (.cpSelfTestDone pair true true) s = .next ended) ∧
      (s.inFlight = true → s.mgmtLost = false → s.pairFailed (if pair % 2 = 0 then pair + 1 else pair - 1) = false →
        s.mild [0x03, 0x04] →
        (p.testing = true → p.again = false → pass0 ≠ pass1 → ∃ t, exec (.cpSelfTestDone pair pass0 pass1) s = .next t ∧
          Raised (shows ended (if pass0 then 1 else 2)) t 0x03 pair ∧
          t.rf Reg.FCL_CP_STATE 0 0 (2 * pair + 1) (2 * pair) = (if pass0 then 1 else 2)) ∧
        (p.testing = true → (p.again = true ∨ (pass0 = false ∧ pass1 = false)) → fails (exec (.cpSelfTestDone pair pass0 pass1) s) ended) ∧
        ((st = 1 ∨ st = 2) → fails (exec (.cpPeriodicSelfTest pair false) s) s)) ∧
      exec (.cpPeriodicSelfTest pair true) s = .next s)

/-- Signature records, fences and self-tests (R137, R414, R416 to R418, R426). The oldest record that waits goes into the partition; a full
partition gives up a record of low severity for one of severity 2 or 3, and otherwise loses the new one, which is raised; a short hold-up
bank defers it. A read gives the records from a number on. A fence request waits for its boundary; a self-test runs on a fenced core.
The answers of fences in corners are readings (notes/assumptions/31.md); the statuses of `SELF_TEST` for a site without a
core, and for one under test, are the model's choice (notes/assumptions/35.md). -/
def Obligations.RecordsFencesAndSelfTests : Prop :=
  ∀ (s : State) (h : Hdr) (x : Session) (e y : SigRec) (rest : List SigRec) (r : Reply) (first count site kind : Nat) (pass : Bool), s.calm →
    let u := s.taken h
    let all := s.fcl.store ++ s.fcl.buffer
    (s.pow.booted = true → s.fcl.buffer = e :: rest → s.writesOk = true → s.nvWriting 0 = false →
      (s.holdup 200 = true →
        (s.fcl.store.length < 1024 →
          exec .signatureCommit s = .next { s with fcl := { s.fcl with buffer := rest, store := s.fcl.store ++ [e] } }) ∧
        (1024 ≤ s.fcl.store.length → s.fcl.store.find? (fun z => decide (z.sev ≤ 1)) = some y → 2 ≤ e.sev →
          exec .signatureCommit s = .next { s with fcl := { s.fcl with buffer := rest, store := s.fcl.store.erase y ++ [e] } }) ∧
        (1024 ≤ s.fcl.store.length → (e.sev ≤ 1 ∨ ∀ z ∈ s.fcl.store, 2 ≤ z.sev) → s.mild [] → ∃ t, exec .signatureCommit s = .next t ∧
          t.fcl.store = s.fcl.store ∧ t.rf Reg.FCL_SRCn_STAT 0 0x01 31 31 = 1 ∧
          t = { s with regs := t.regs, fcl := t.fcl, freeCtr := t.freeCtr })) ∧
      (s.holdup 200 = false → s.room Reg.PWR_HOLDUP_DEFER 0 0 1 → s.mild [0x7D] → ∃ q t, exec .signatureCommit s = .next t ∧
        Raised q t 0x7D 0 ∧ OnlyRegs s q [Reg.PWR_HOLDUP_DEFER.addr 0 0] ∧
        q.reg Reg.PWR_HOLDUP_DEFER 0 0 = s.reg Reg.PWR_HOLDUP_DEFER 0 0 + 1)) ∧
    (s.accepts h (opRowM 0x0172) false true true x → 1 ≤ count → count ≤ 64 → all.Pairwise (fun a b => a.number ≤ b.number) →
      Done (exec (.sigRead h first count) s) h 0x0172 u (((all.filter (fun z => decide (first ≤ z.number))).take count).flatMap (SigRec.cper (s.identityPublic.getD [])))) ∧
    (s.accepts h (opRow 0x0170) false true true x → kind ≤ 2 → site < nSites →
      (s.rf Reg.RTR_FENCE site 0 1 0 = kind → s.rf Reg.RTR_FENCE site 0 5 4 = 0 → (kind = 1 → s.enabled site = true) →
        Done (exec (.fence h site kind) s) h 0x0170 u []) ∧
      (s.rf Reg.RTR_FENCE site 0 1 0 ≠ kind → s.fenceCheck site kind = stOk → ∃ t, exec (.fence h site kind) s = .next t ∧
        t = { u with regs := t.regs, jobs := { s.jobs with fences := s.jobs.fences ++ [(site, replyTo h 0x0170)] } } ∧
        t.rf Reg.RTR_FENCE site 0 5 4 = (if kind = 0 then 3 else kind) ∧
        t.rf Reg.RTR_FENCE site 0 1 0 = s.rf Reg.RTR_FENCE site 0 1 0 ∧ ∀ w, w ≠ Reg.RTR_FENCE.addr site 0 → t.word w = s.word w)) ∧
    (s.accepts h (opRow 0x0171) false true true x → s.enabled site = true → s.fenced site = true → s.testing site = false →
      exec (.selfTest h site 1) s = .next { u with jobs := { s.jobs with selfTests := s.jobs.selfTests ++ [(site, replyTo h 0x0171)] } }) ∧
    (s.jobs.selfTests = [(site, r)] → exec (.sluiceSelfTestDone site pass) s = .next
      (({ s with jobs := { s.jobs with selfTests := [], passed := if pass then s.jobs.passed ++ [site] else s.jobs.passed } } : State).answer
        r stOk [if pass then 0 else 1]))

/-! ### Security -/

/-- The security block (R470 to R473, R475, R477, R481, R482). `ATTEST` gives the report of 352 bytes, signed; a transition record that fails
changes only its counter, one that passes draws a new root, and burns the new state at once, or, into RETURNED or RETIRED, once the last
array of the erasure that it starts is done; an installation that fails its checks is answered with its status, one that passes them marks
the flash invalid until the image is written and read back, and waits while the hold-up bank is short; a tamper event destroys keys and
resets the chip; the random source's health shows. An installation short of hold-up writes no block, and each `FW_INSTALL_DONE` that meets
a short bank counts a deferral; `LAST_RESET` is 3 after a tamper event and after an installation in recovery (notes/assumptions/30.md). The
header of a firmware image as an operand beside the staged bytes is notes/assumptions/15.md.
The derivation of keys is that of notes/assumptions/40.md, the cryptography that of notes/assumptions/41.md. -/
def Obligations.SecurityBlock : Prop :=
  ∀ (s : State) (h : Hdr) (x : Session) (r : Reply) (nonce : BitVec 256) (q : LcRecord) (st kind site arr : Nat) (f : FwImage)
    (cause : BitVec 3) (p : Prog) (d : DieProg), s.calm →
    let u := s.taken h
    let g := s.staged f
    let ended := ({ s with jobs := { s.jobs with fw := none, fwImage := none },
                           hpt := { s.hpt with areas := s.hpt.areas.modify 2 (fun _ => areaReset) } } : State)
    (s.accepts h { op := 0x0180, operator := true, tenant := true, entry := false, always := true } true true true x →
      let b := u.report352 nonce x.tenantNo
      Done (exec (.attest h nonce) s) h 0x0180 (({ u with freeCtr := u.freeCtr + 4 } : State).wide Reg.SEC_ATTESTS 0 0 1) (b ++ u.sm2Signed b) ∧
      (b ++ u.sm2Signed b).length = 352) ∧
    (s.accepts h (opRowM 0x0181) false true true x →
      (s.lcCheck q = st → st ≠ stOk → s.room Reg.SEC_LC_REJECT 0 0 1 → s.room Reg.HPT_CMD_REJECT 0 0 1 → ∃ t : State,
        exec (.lifecycle h q) s = .next (t.answer (replyTo h 0x0181) st []) ∧ OnlyRegs u t [Reg.SEC_LC_REJECT.addr 0 0] ∧
        t.reg Reg.SEC_LC_REJECT 0 0 = s.reg Reg.SEC_LC_REJECT 0 0 + 1) ∧
      (s.lcCheck q = stOk → s.mild [0x13, 0x60, 0x94] → ∃ t, exec (.lifecycle h q) s = .next t ∧
        t.sec.root = true ∧ t.sec.rootDraws = s.sec.rootDraws + 1 ∧ t.seq.variants = [] ∧
        (q.to_.toNat < 3 → t.rf Reg.SEC_LC_STATE 0 0 2 0 = q.to_.toNat ∧
          (s.rf Reg.SEC_LC_STATE 0 0 13 8 < 63 → t.rf Reg.SEC_LC_STATE 0 0 13 8 = s.rf Reg.SEC_LC_STATE 0 0 13 8 + 1) ∧
          t.rf Reg.FCL_SRCn_STAT 0 0x94 31 31 = 1 ∧ t.mem = s.mem ∧
          (q.hasTable = 1 → ∀ n e, n < 8 → q.table[n]? = some e → t.reg Reg.SEC_ANCHOR_ROLESn n 0 = e.roles.toNat)) ∧
        (3 ≤ q.to_.toNat → t.reg Reg.SEC_LC_STATE 0 0 = s.reg Reg.SEC_LC_STATE 0 0 ∧ t.slotState 0 = 0 ∧ t.slotState 1 = 0 ∧
          (∀ a, a < farBase → Mem.get t.mem a = 0) ∧ t.rf Reg.WGT_PROG_STATE 0 0 15 0 = 17 * s.sites.length ∧
          ∃ v k, t.prog = some v ∧ v.erase = some (replyTo h 0x0181, q, k) ∧ v.complete = false))) ∧
    (s.prog = some p → p.erase = some (r, q, kind) → p.spares = [] → p.dies[dieOf site]? = some d → d.todo = [(site, arr)] →
      d.waiting = false → d.done = false → 7 ≤ d.wave → (∀ k e, k ≠ dieOf site → p.dies[k]? = some e → e.done = true) →
      s.dieWorks (dieOf site) = true → s.rf Reg.ARY_PROG_CYCLESa site arr 23 0 < 10000 → (q.to_ = 3 ∨ q.to_ = 4) → s.mild [0x94] →
      ∃ t, exec (.arrayProgramDone site arr []) s = .next t ∧ t.prog = none ∧ t.rf Reg.SEC_LC_STATE 0 0 2 0 = q.to_.toNat ∧
        (q.to_ = 4 → t.sec.blown = true) ∧ t.rf Reg.FCL_SRCn_STAT 0 0x94 31 31 = 1 ∧
        (kind = 2 → ∀ n, n < 8 → t.reg Reg.SEC_ANCHOR_ROLESn n 0 = 0)) ∧
    (s.accepts h (opRowM 0x0182) true true true x →
      (s.fwCheck g ≠ stOk → s.room Reg.HPT_CMD_REJECT 0 0 1 →
        exec (.fwInstall h f) s = .next (u.answer (replyTo h 0x0182) (s.fwCheck g) [])) ∧
      (s.fwCheck g = stOk →
        let begun := fun (t : State) => ({ u with
          regs := t.regs
          jobs := { s.jobs with fw := some (replyTo h 0x0182), fwImage := some g }
          hpt := { u.hpt with areas := s.hpt.areas.modify 2 (fun a => { a with busy := true }) } } : State)
        (s.fwWriteOk = true → ∃ t, exec (.fwInstall h f) s = .next t ∧
          (s.nvWriting 0 = false → t = { begun t with sec := { s.sec with flash := some { g with bytes := [] } } }) ∧
          (s.nvWriting 0 = true → t = begun t) ∧
          t.rf Reg.SEC_FW 0 0 25 24 = 2 ∧ ∀ w, w ≠ Reg.SEC_FW.addr 0 0 → t.word w = s.word w) ∧
        (s.holdup 400 = false → s.room Reg.PWR_HOLDUP_DEFER 0 0 1 → s.mild [0x7D] → ∃ q t, exec (.fwInstall h f) s = .next t ∧
          Raised q t 0x7D 0 ∧ q = begun q ∧ q.rf Reg.SEC_FW 0 0 25 24 = 2 ∧
          q.reg Reg.PWR_HOLDUP_DEFER 0 0 = s.reg Reg.PWR_HOLDUP_DEFER 0 0 + 1 ∧
          ∀ w, w ∉ [Reg.SEC_FW.addr 0 0, Reg.PWR_HOLDUP_DEFER.addr 0 0] → q.word w = s.word w))) ∧
    (s.jobs.fw = some r → s.jobs.fwImage = some f → s.holdup 400 = false → s.room Reg.PWR_HOLDUP_DEFER 0 0 1 → s.mild [0x7D] → ∀ b, ∃ q t,
      exec (.fwInstallDone b) s = .next t ∧ Raised q t 0x7D 0 ∧ OnlyRegs s q [Reg.PWR_HOLDUP_DEFER.addr 0 0] ∧
      q.reg Reg.PWR_HOLDUP_DEFER 0 0 = s.reg Reg.PWR_HOLDUP_DEFER 0 0 + 1) ∧
    (s.jobs.fw = some r → s.jobs.fwImage = some f → s.fwWriteOk = true → s.nvWriting 0 = false →
      (s.recovery = false → f.svn < 64 → ∃ t : State, exec (.fwInstallDone true) s = .next (t.answer r stOk []) ∧
        t = { ended with regs := t.regs, sec := { s.sec with flash := some f } } ∧ t.rf Reg.SEC_FW 0 0 13 8 = f.svn ∧
        t.rf Reg.SEC_FW 0 0 25 24 = 0 ∧ ∀ w, w ≠ Reg.SEC_FW.addr 0 0 → t.word w = s.word w) ∧
      (s.recovery = true → f.svn < 64 → ∃ t, exec (.fwInstallDone true) s = .next t ∧ t.rf Reg.FCL_STATE 0 0 17 16 = 3 ∧
        t.sec.flash = some f ∧ t.sec.recovered = true ∧ t.pow.booted = false ∧ t.hpt.sessions = [] ∧ t.rf Reg.SEC_FW 0 0 13 8 = f.svn) ∧
      (s.mild [0x93] → s.room Reg.HPT_CMD_REJECT 0 0 1 → ∃ t : State, ∃ v, exec (.fwInstallDone false) s = .next v ∧
        Raised (t.answer r stAuth []) v 0x93 devUnit ∧
        t = { ended with regs := t.regs, sec := { s.sec with flash := some { f with bytes := [] } } } ∧ t.rf Reg.SEC_FW 0 0 25 24 = 3 ∧
        ∀ w, w ≠ Reg.SEC_FW.addr 0 0 → t.word w = s.word w)) ∧
    (s.pow.on = true → ∃ t, exec (.tamper cause) s = .next t ∧ t.rf Reg.SEC_TAMPER 0 0 2 0 = cause.toNat ∧
      t.rf Reg.FCL_STATE 0 0 17 16 = 3 ∧ t.sec.root = false ∧ t.flt.key = none ∧ t.hpt.sessions = [] ∧ t.pow.booted = false ∧
      ∀ k, (t.core k).spm = []) ∧
    (s.pow.booted = true →
      exec .rngHealthRecovery s = .next (s.setRf Reg.SEC_RNG 0 0 0 0 1) ∧
      (s.mild [0x91] → ∃ t, exec .rngHealthFail s = .next t ∧ Raised (s.setRf Reg.SEC_RNG 0 0 0 0 0) t 0x91 devUnit))
/-! ### Sessions and the host link -/

/-- Opening and ending sessions (R383 to R387, R389). An accepted HELLO opens a session under a free number of its kind, with the keys of the
agreement, and is answered with the device's share; a refused one is answered with its status and counted; a CONFIRM with the value of the
agreement opens the session for messages, any other is discarded; a timeout of CONFIRM frees the number; a session that idles, is closed by
its host, or outlives the link's hold time ends, a flight session by a command in the entry device's queue; a PROBE only shows activity; a
message whose tag fails is counted and raised, one with a wrong type, length or encapsulation is discarded and counted. That a PROBE is not
answered, and that a device other than the entry holds the close until it is broadcast, are notes/assumptions/22.md.
Key derivation and cryptography are those of notes/assumptions/40.md and 41.md; that a chain's meaning comes with it is the model's choice
(notes/assumptions/4.md). -/
def Obligations.SessionsOpenAndEnd : Prop :=
  ∀ (s : State) (m : Hello) (g : MsgHdr) (n : Nat) (v : Byte) (role : Role) (x : Session) (tag bs sA payload : List Byte), s.calm →
    let close := fun (y : Session) (why : Nat) =>
      { s with hpt := { s.hpt with sent := s.hpt.sent ++ [y.closeMsg why] } }.wide Reg.HPT_TX_MSGS 0 0 1
    let heard := s.wide Reg.HPT_RX_MSGS 0 0 1
    let discarded := fun (o : Out) => ∃ t, o = .next t ∧ OnlyRegs s t [Reg.HPT_RX_DISCARD.addr 0 0] ∧
      t.reg Reg.HPT_RX_DISCARD 0 0 = s.reg Reg.HPT_RX_DISCARD 0 0 + 1
    (s.linkUp = true → s.encapOn m.udp = true → m.versions ≠ [] → m.versions.length ≤ 4 →
      s.hpt.sessions.find? (fun y => y.nonce == m.nonce && y.host == m.host && y.udp == m.udp && !y.closing && y.cmd.next != 0) = none →
      (s.helloCheck m = stOk → s.chooseVersion m.versions = some v → s.helloRole m = some role → ∃ k t, exec (.hello m) s = .next t ∧
        let y := newSession k v role m (s.agree m).1 (s.agree m).2
        (∀ z ∈ s.hpt.sessions, z.number ≠ k) ∧ isFlight k = s.opensFlight ∧ k < 16384 ∧
        t = { s with regs := t.regs, freeCtr := s.freeCtr + 3,
                     hpt := { s.hpt with sessions := s.hpt.sessions ++ [y], sent := s.hpt.sent ++ [y.helloAck] } } ∧
        ∀ w, w ∉ [Reg.HPT_RX_MSGS.addr 0 0, Reg.HPT_TX_MSGS.addr 0 0] → t.word w = s.word w) ∧
      (s.helloCheck m ≠ stOk → s.room Reg.HPT_HELLO_REJECT 0 0 1 → ∃ t, exec (.hello m) s = .next t ∧
        t = { s with regs := t.regs, hpt := { s.hpt with sent := s.hpt.sent ++ [helloRefusal m.udp m.host (s.helloCheck m)] } } ∧
        t.reg Reg.HPT_HELLO_REJECT 0 0 = s.reg Reg.HPT_HELLO_REJECT 0 0 + 1)) ∧
    (s.linkUp = true → s.session n = some x → x.isOpen = false → x.closing = false →
      ((isFlight n = false ∨ s.isExit = true) →
        exec (.confirm n x.share.sA) s = .next (heard.updSession n (fun y => { y with isOpen := true }))) ∧
      (s.room Reg.HPT_RX_DISCARD 0 0 1 → sA ≠ x.share.sA → discarded (exec (.confirm n sA) s)) ∧
      (s.room Reg.HPT_HELLO_REJECT 0 0 1 → ∃ t, exec (.confirmTimeout n) s = .next t ∧
        OnlyRegs (s.dropSession n) t [Reg.HPT_HELLO_REJECT.addr 0 0] ∧ t.session n = none ∧
        t.reg Reg.HPT_HELLO_REJECT 0 0 = s.reg Reg.HPT_HELLO_REJECT 0 0 + 1)) ∧
    (s.linkUp = true → s.session n = some x → x.isOpen = true → x.closing = false →
      (isFlight n = false → exec (.idleTimeout n) s = .next ((close x 1).dropSession n)) ∧
      (g.session = n → g.ver = x.ver → g.flags >>> 1 = 0 → g.stream ≤ 2 → g.udp = x.udp → g.host = x.host → tag.length = 16 →
        (g.typ = 7 → g.len = 16 → x.opened g true [] tag = some bs → exec (.probe g tag) s = .next heard) ∧
        (s.room Reg.HPT_RX_DISCARD 0 0 1 → (g.typ ≠ 7 ∨ g.len ≠ 16) → discarded (exec (.probe g tag) s)) ∧
        (s.room Reg.HPT_RX_DISCARD 0 0 1 → discarded (exec (.probe { g with udp := !x.udp } tag) s)) ∧
        (g.typ = 6 → g.len = payload.length + 16 → x.opened g true payload tag = some bs →
          (isFlight n = false → exec (.close g tag payload) s = .next (heard.dropSession n)) ∧
          (isFlight n = true → ∃ t, exec (.close g tag payload) s = .next t ∧
            (s.isEntry = true → t.hpt.closings = s.hpt.closings ∧ t.seq = { s.seq with queue := s.seq.queue ++
              [{ cmd := { session := n, tag := 0, tenant := x.tenantNo, body := .close n }, seen := false, listed := false }] }) ∧
            (s.isEntry = false → t.hpt.closings = s.hpt.closings ++ [n] ∧ t.seq = s.seq) ∧
            (∃ y, t.session n = some y ∧ y.isOpen = false ∧ y.closing = true ∧ y.taken = [] ∧ y.unanswered = []) ∧
            (∀ k, k ≠ n → t.session k = s.session k) ∧ t.cores = s.cores ∧ t.mem = s.mem)) ∧
        (g.typ = 7 → g.len = 16 → x.opened g true [] tag = none → s.room Reg.HPT_AUTH_FAIL 0 0 1 → s.mild [0x6A] → ∃ q t,
          exec (.probe g tag) s = .next t ∧ Raised q t 0x6A devUnit ∧
          OnlyRegs s q [Reg.HPT_AUTH_FAIL.addr 0 0] ∧ q.reg Reg.HPT_AUTH_FAIL 0 0 = s.reg Reg.HPT_AUTH_FAIL 0 0 + 1))) ∧
    (s.linkState ≠ 0 → exec .linkHoldTimeout s = .next s) ∧
    (s.linkState = 0 → s.hpt.sessions = [x] → x.isOpen = true → x.closing = false → isFlight x.number = false →
      exec .linkHoldTimeout s = .next ((close x 4).dropSession x.number))

/-- The streams of a session (R382, R387, R388), with nothing of the session's answers waiting. A DATA message in order is decrypted,
delivered and counted, a whole command is taken where its opcode and its length fit and is answered with its error where they do not; one
received again is acknowledged at once; one beyond the window changes nothing of the session. An acknowledgement frees what it covers. The
acknowledgement timer acknowledges. A message is sent again, and after the last resend its session closes. `HPT_RX_MSGS` counts only
new messages inside the window (notes/assumptions/22.md).
The cryptography is that of notes/assumptions/41.md. -/
def Obligations.SessionStreams : Prop :=
  ∀ (s : State) (g : MsgHdr) (x : Session) (bs tag payload : List Byte) (e : OutMsg), s.calm → s.linkUp = true →
    s.session g.session = some x → x.isOpen = true → x.closing = false → g.ver = x.ver → g.flags >>> 1 = 0 → s.ownsCmd g.session = true →
    g.udp = x.udp → g.host = x.host → tag.length = 16 →
    let becomes := fun (t : State) (y : Session) => t.session g.session = some y ∧
      (∀ k, k ≠ g.session → t.session k = s.session k) ∧ t = { s with regs := t.regs, hpt := { t.hpt with areas := s.hpt.areas } }
    let b := x.cmd.buf ++ bs
    let asked := { x with unanswered := x.unanswered ++ [(cmdHead b).2] }
    (x.ans.waiting = [] → x.ans.sent = [] → g.typ = 4 → g.stream = 0 → g.len = payload.length + 16 → x.opened g false payload tag = some bs →
      (g.seq = x.cmd.next → x.cmd.early = [] → x.cmd.unacked + 1 < 32 →
        (g.flags.getLsbD 0 = true → ∃ t, exec (.data g tag payload) s = .next t ∧
          t.reg Reg.HPT_RX_MSGS 0 0 = (s.reg Reg.HPT_RX_MSGS 0 0 + 1) % 2 ^ 64 ∧ t.hpt.sent = s.hpt.sent ∧
          becomes t { x with cmd := ⟨x.cmd.next + 1, [], x.cmd.unacked + 1, b⟩ }) ∧
        (g.flags.getLsbD 0 = false → s.cmdCheck asked b = none → ∃ t, exec (.data g tag payload) s = .next t ∧
          t.reg Reg.HPT_RX_MSGS 0 0 = (s.reg Reg.HPT_RX_MSGS 0 0 + 1) % 2 ^ 64 ∧ t.hpt.sent = s.hpt.sent ∧
          becomes t { x with cmd := ⟨x.cmd.next + 1, [], x.cmd.unacked + 1, []⟩, taken := x.taken ++ [b] }) ∧
        (∀ st, g.flags.getLsbD 0 = false → s.cmdCheck asked b = some st → s.room Reg.HPT_CMD_REJECT 0 0 1 → ∃ t : State,
          exec (.data g tag payload) s = .next (t.answer ⟨g.session, (cmdHead b).1, (cmdHead b).2⟩ st []) ∧
          becomes t { asked with cmd := ⟨x.cmd.next + 1, [], x.cmd.unacked + 1, []⟩ })) ∧
      (g.seq < x.cmd.next → x.ctl + 1 < 0xFFFFFFFF → ∃ t, exec (.data g tag payload) s = .next t ∧
        becomes t { x with cmd := { x.cmd with unacked := 0 }, ctl := x.ctl + 1 } ∧ t.hpt.sent = s.hpt.sent ++ [x.acking]) ∧
      (x.cmd.next + 1024 ≤ g.seq → (∀ y ∈ x.cmd.early, y.1 ≠ g.seq) → ∃ t, exec (.data g tag payload) s = .next t ∧ becomes t x ∧
        t.hpt.sent = s.hpt.sent)) ∧
    (x.ans.waiting = [] → g.typ = 5 → g.stream = 1 → g.len = 16 → g.sack = 0 → x.opened g true [] tag = some bs → ∃ t,
      exec (.ack g tag) s = .next t ∧
      becomes t { x with ans := { x.ans with sent := x.ans.sent.filter (fun y => decide (g.ack ≤ y.seq)) } } ∧
      t.hpt.sent = s.hpt.sent ∧ t.reg Reg.HPT_RX_MSGS 0 0 = (s.reg Reg.HPT_RX_MSGS 0 0 + 1) % 2 ^ 64) ∧
    (0 < x.cmd.unacked → x.ctl + 1 < 0xFFFFFFFF → ∃ t, exec (.ackTimer g.session 0) s = .next t ∧
      becomes t { x with cmd := { x.cmd with unacked := 0 }, ctl := x.ctl + 1 } ∧ t.hpt.sent = s.hpt.sent ++ [x.acking]) ∧
    (x.ans.sent.find? (fun y => y.seq == g.seq && !y.sacked) = some e →
      (e.resends < s.rf Reg.HPT_RETX 0 0 7 0 → s.room Reg.HPT_RETX_COUNT 0 0 1 → ∃ t,
        exec (.retransmitTimeout g.session 1 g.seq) s = .next t ∧ becomes t { x with ans := x.ans.resent g.seq } ∧
        t.reg Reg.HPT_RETX_COUNT 0 0 = s.reg Reg.HPT_RETX_COUNT 0 0 + 1 ∧
        t.reg Reg.HPT_TX_MSGS 0 0 = (s.reg Reg.HPT_TX_MSGS 0 0 + 1) % 2 ^ 64) ∧
      (s.rf Reg.HPT_RETX 0 0 7 0 ≤ e.resends → isFlight g.session = false → ∃ t,
        exec (.retransmitTimeout g.session 1 g.seq) s = .next t ∧ t.session g.session = none ∧
        t.hpt.sent = s.hpt.sent ++ [x.closeMsg 2]))

/-- The host link (R377 to R382, R400 to R402). A frame's FEC codewords are counted; a good
frame for the device changes nothing more before its content counts; a bad frame, and one for the device that is oversized or of another
EtherType or protocol, is discarded and counted; a frame for another address is not accepted and not counted (notes/assumptions/22.md); a
pause frame is counted; neighbour solicitations and echo requests for the device's address are answered. A
negotiated link shows its PMD and lanes; a lane that fails, and a link that goes down, end it and are raised. -/
def Obligations.HostFramesAndLink : Prop :=
  ∀ (s : State) (f : Frame) (a : BitVec 128) (pmd lane : Nat), s.calm →
    let counted := fun (b : State) (o : Out) (r : RegFam) => ∃ t, o = .next t ∧ OnlyRegs b t [r.addr 0 0] ∧ t.reg r 0 0 = b.reg r 0 0 + 1
    let mine := f.dst.toNat = s.macAddr ∨ f.dst = 0xFFFFFFFFFFFF
    let u := s.hostFec f
    (s.linkUp = true → s.room Reg.HPT_RX_DISCARD 0 0 1 → s.room Reg.HPT_PAUSE_RX 0 0 1 → s.room Reg.HPT_FEC_UNCORR 0 0 f.fecUncorr →
      OnlyRegs s u [Reg.HPT_FEC_CORR.addr 0 0, Reg.HPT_FEC_UNCORR.addr 0 0] ∧
      u.reg Reg.HPT_FEC_CORR 0 0 = (s.reg Reg.HPT_FEC_CORR 0 0 + f.fecCorr) % 2 ^ 64 ∧
      u.reg Reg.HPT_FEC_UNCORR 0 0 = s.reg Reg.HPT_FEC_UNCORR 0 0 + f.fecUncorr ∧
      (f.fcsOk = true → f.isPause = false → f.isPfc = false →
        (mine → f.len ≤ s.portCfg 8 → s.frameTaken f = true → exec (.hostFrameReceive f) s = .next u) ∧
        (mine → (s.portCfg 8 < f.len ∨ s.frameTaken f = false) → counted u (exec (.hostFrameReceive f) s) Reg.HPT_RX_DISCARD) ∧
        (¬mine → exec (.hostFrameReceive f) s = .next u)) ∧
      (f.fcsOk = false → counted u (exec (.hostFrameReceive f) s) Reg.HPT_RX_DISCARD) ∧
      (f.fcsOk = true → (f.isPause = true ∨ f.isPfc = true) → counted u (exec (.hostFrameReceive f) s) Reg.HPT_PAUSE_RX) ∧
      (s.encapOn true = true → a.toNat = s.ipAddr →
        exec (.neighborSolicitation a) s = .next (s.sendPlain (.neighborAdvertisement a)) ∧
        exec (.echoRequest a) s = .next (s.sendPlain (.echoReply a))) ∧
      (a.toNat ≠ s.ipAddr → counted s (exec (.neighborSolicitation a) s) Reg.HPT_RX_DISCARD ∧
        counted s (exec (.echoRequest a) s) Reg.HPT_RX_DISCARD)) ∧
    (s.linkUp = true → s.mild [0x68] →
      (∃ t, exec .hostLinkDown s = .next t ∧ Raised (s.unlink 0) t 0x68 devUnit ∧ t.linkState = 0) ∧
      (s.pow.booted = true → lane < 8 → s.inFlight = true → s.dieWorks 0 = true → (s.rf Reg.HPT_LINK_STATE 0 0 23 16).testBit lane = false →
        s.rf Reg.HPT_LINK_STATE 0 0 23 16 + 2 ^ lane ≠ 0xFF → ∃ q t, exec (.hostLaneFailure lane) s = .next t ∧ Raised q t 0x68 devUnit ∧
          OnlyRegs s q [Reg.HPT_LINK_STATE.addr 0 0, Reg.HPT_LANE_MAP.addr 0 0] ∧ q.linkState = 1 ∧
          q.rf Reg.HPT_LINK_STATE 0 0 23 16 = s.rf Reg.HPT_LINK_STATE 0 0 23 16 + 2 ^ lane ∧
          (s.rf Reg.HPT_LANE_MAP 0 0 2 0 ≠ lane → (s.rf Reg.HPT_LINK_STATE 0 0 23 16).testBit (s.rf Reg.HPT_LANE_MAP 0 0 2 0) = false →
            q.rf Reg.HPT_LANE_MAP 0 0 2 0 = s.rf Reg.HPT_LANE_MAP 0 0 2 0))) ∧
    (s.pow.booted = true → s.linkUp = false → pmd ∈ s.pmdEnabled → s.lanesWork pmd = true → s.mild [0x69] → ∃ t,
      exec (.hostLinkUp pmd) s = .next t ∧ t.linkState = (if s.power = 3 then 4 else 3) ∧ t.rf Reg.HPT_LINK_STATE 0 0 15 8 = pmd ∧
      t.rf Reg.HPT_LINK_STATE 0 0 7 4 = (pmdLanes pmd 0).length ∧
      (s.hpt.config = [] ∨ s.rf Reg.HPT_CTL 0 0 0 0 = 1 → t.hpt = { s.hpt with config := s.portWritten }) ∧
      (s.hpt.config ≠ [] → s.rf Reg.HPT_CTL 0 0 0 0 = 0 → t.hpt = s.hpt) ∧
      ((∃ c ∈ s.pmdEnabled, s.lanesWork c = true ∧ pmdRate pmd < pmdRate c) → t.rf Reg.FCL_SRCn_STAT 0 0x69 31 31 = 1) ∧
      ((∀ c ∈ s.pmdEnabled, s.lanesWork c = true → pmdRate c ≤ pmdRate pmd) → t = { s with regs := t.regs, hpt := t.hpt }))
end

