-- ==== Sys2Proof/Laws/Store.lean ====
section
/-! SUPPORT. Laws of the two shapes of sparse storage: what a read finds after a write, and that every operation keeps the canonical
form. -/

namespace Sys2Proof

/-! ### Keyed maps -/

section
variable {α : Type}

theorem SMap.get_append_of_notMem (l r : SMap α) (d : α) (k : Nat) (h : ∀ c ∈ l, c.1 ≠ k) :
    SMap.get (l ++ r) d k = SMap.get r d k := by
  induction l with
  | nil => rfl
  | cons c t ih =>
    have hc := h c (by simp)
    simp only [List.cons_append, SMap.get, if_neg hc]
    exact ih (fun x hx => h x (by simp [hx]))

theorem SMap.get_of_notMem (l : SMap α) (d : α) (k : Nat) (h : ∀ c ∈ l, c.1 ≠ k) : SMap.get l d k = d := by
  induction l with
  | nil => rfl
  | cons c t ih =>
    have hc := h c (by simp)
    simp only [SMap.get, if_neg hc]
    exact ih (fun x hx => h x (by simp [hx]))

/-- Entries that a filter drops and whose key is not `k` do not count for key `k`. -/
theorem SMap.get_filter (m : SMap α) (d : α) (k : Nat) (p : Nat × α → Bool) (h : ∀ c ∈ m, c.1 = k → p c = true) :
    SMap.get (m.filter p) d k = SMap.get m d k := by
  induction m with
  | nil => rfl
  | cons c t ih =>
    have iht := ih (fun x hx => h x (by simp [hx]))
    by_cases hp : p c = true
    · simp only [List.filter_cons_of_pos hp, SMap.get, iht]
    · have hk : c.1 ≠ k := fun e => hp (h c (by simp) e)
      rw [List.filter_cons_of_neg hp, iht]
      simp only [SMap.get, if_neg hk]

theorem SMap.get_insert_self (m : SMap α) (d : α) (k : Nat) (v : α) : SMap.get (SMap.insert m k v) d k = v := by
  unfold SMap.insert
  rw [SMap.get_append_of_notMem]
  · simp [SMap.get]
  · intro c hc
    have := (List.mem_filter.mp hc).2
    simp only [decide_eq_true_eq] at this
    omega

theorem SMap.get_insert_of_ne (m : SMap α) (d : α) {k k' : Nat} (v : α) (h : k' ≠ k) :
    SMap.get (SMap.insert m k v) d k' = SMap.get m d k' := by
  unfold SMap.insert
  rcases Nat.lt_or_ge k' k with hlt | hge
  · have key : ∀ (l : SMap α) (r : SMap α), (∀ c ∈ r, c.1 ≠ k') → SMap.get (l ++ r) d k' = SMap.get l d k' := by
      intro l r hr
      induction l with
      | nil => simpa [SMap.get] using SMap.get_of_notMem r d k' hr
      | cons c t ih => simp only [List.cons_append, SMap.get, ih]
    rw [key]
    · exact SMap.get_filter m d k' _ (fun c _ e => by simp [e, hlt])
    · intro c hc
      rcases List.mem_cons.mp hc with rfl | hc
      · exact fun e => h e.symm
      · have := (List.mem_filter.mp hc).2
        simp only [decide_eq_true_eq] at this
        omega
  · have hgt : k < k' := by omega
    rw [SMap.get_append_of_notMem]
    · simp only [SMap.get, if_neg (Ne.symm h)]
      exact SMap.get_filter m d k' _ (fun c _ e => by simp [e, hgt])
    · intro c hc
      have := (List.mem_filter.mp hc).2
      simp only [decide_eq_true_eq] at this
      omega

variable [DecidableEq α]

@[simp] theorem SMap.get_put_self (m : SMap α) (d : α) (k : Nat) (v : α) : SMap.get (SMap.put m d k v) d k = v := by
  unfold SMap.put
  split
  · next h =>
    rw [h]
    apply SMap.get_of_notMem
    intro c hc
    have := (List.mem_filter.mp hc).2
    simpa using this
  · exact SMap.get_insert_self m d k v

theorem SMap.get_put_of_ne (m : SMap α) (d d' : α) {k k' : Nat} (v : α) (h : k' ≠ k) :
    SMap.get (SMap.put m d k v) d' k' = SMap.get m d' k' := by
  unfold SMap.put
  split
  · exact SMap.get_filter m d' k' _ (fun c _ e => by simp [e, h])
  · exact SMap.get_insert_of_ne m d' v h

/-- A lookup of another key does not see a write. -/
theorem SMap.lookup_put_of_ne (m : SMap α) (d : α) {k k' : Nat} (v : α) (h : k' ≠ k) :
    (SMap.put m d k v).lookup k' = m.lookup k' := by
  have hf : ∀ (l : SMap α) (p : Nat × α → Bool), (∀ c ∈ l, c.1 = k' → p c = true) → (l.filter p).lookup k' = l.lookup k' := by
    intro l p
    induction l with
    | nil => intro _; rfl
    | cons c t ih =>
      intro hl
      have iht := ih (fun x hx => hl x (by simp [hx]))
      by_cases hp : p c = true
      · rw [List.filter_cons_of_pos hp, List.lookup_cons, List.lookup_cons, iht]
      · have hk : (k' == c.1) = false := by
          simp only [beq_eq_false_iff_ne]
          exact fun e => hp (hl c (by simp) e.symm)
        rw [List.filter_cons_of_neg hp, iht, List.lookup_cons, hk]
  have hn : ∀ (l : SMap α), (∀ c ∈ l, c.1 ≠ k') → l.lookup k' = none := by
    intro l hl
    induction l with
    | nil => rfl
    | cons c t ih =>
      have hk : (k' == c.1) = false := by
        simp only [beq_eq_false_iff_ne]
        exact fun e => hl c (by simp) e.symm
      rw [List.lookup_cons, hk]
      exact ih (fun x hx => hl x (by simp [hx]))
  unfold SMap.put
  split
  · exact hf m _ (fun c _ e => by simp [e, h])
  · unfold SMap.insert
    rw [List.lookup_append]
    rcases Nat.lt_or_ge k' k with hlt | hge
    · rw [hf m _ (fun c _ e => by simp [e, hlt])]
      have : List.lookup k' ((k, v) :: List.filter (fun c => decide (k < c.1)) m) = none := by
        apply hn
        intro c hc
        rcases List.mem_cons.mp hc with rfl | hc
        · exact fun e => h e.symm
        · have := (List.mem_filter.mp hc).2
          simp only [decide_eq_true_eq] at this
          omega
      rw [this, Option.or_none]
    · have hgt : k < k' := by omega
      have h0 : List.lookup k' (List.filter (fun c => decide (c.1 < k)) m) = none := by
        apply hn
        intro c hc
        have := (List.mem_filter.mp hc).2
        simp only [decide_eq_true_eq] at this
        omega
      have hb : (k' == k) = false := by simpa using h
      rw [h0, Option.none_or, List.lookup_cons, hb]
      exact hf m _ (fun c _ e => by simp [e, hgt])

/-! ### The canonical form of a keyed map -/

theorem SMap.wf_iff (m : SMap α) (d : α) :
    SMap.wf m d = true ↔ m.Pairwise (fun a b => a.1 < b.1) ∧ ∀ c ∈ m, c.2 ≠ d := by
  simp [SMap.wf, Bool.and_eq_true, List.all_eq_true]

theorem SMap.wf_nil (d : α) : SMap.wf ([] : SMap α) d = true := by simp [SMap.wf]

theorem SMap.wf_filter {m : SMap α} {d : α} (p : Nat × α → Bool) (h : SMap.wf m d = true) : SMap.wf (m.filter p) d = true := by
  rw [SMap.wf_iff] at h ⊢
  exact ⟨h.1.sublist List.filter_sublist, fun c hc => h.2 c (List.mem_filter.mp hc).1⟩

theorem SMap.wf_put {m : SMap α} {d : α} (k : Nat) (v : α) (h : SMap.wf m d = true) : SMap.wf (SMap.put m d k v) d = true := by
  unfold SMap.put
  split
  · exact SMap.wf_filter _ h
  · next hv =>
    rw [SMap.wf_iff] at h ⊢
    unfold SMap.insert
    refine ⟨?_, ?_⟩
    · rw [List.pairwise_append]
      refine ⟨h.1.sublist List.filter_sublist, ?_, ?_⟩
      · rw [List.pairwise_cons]
        refine ⟨?_, h.1.sublist List.filter_sublist⟩
        intro c hc
        simpa using (List.mem_filter.mp hc).2
      · intro a ha b hb
        have h1 := (List.mem_filter.mp ha).2
        simp only [decide_eq_true_eq] at h1
        rcases List.mem_cons.mp hb with rfl | hb
        · exact h1
        · have h2 := (List.mem_filter.mp hb).2
          simp only [decide_eq_true_eq] at h2
          omega
    · intro c hc
      rcases List.mem_append.mp hc with hc | hc
      · exact h.2 c (List.mem_filter.mp hc).1
      · rcases List.mem_cons.mp hc with rfl | hc
        · exact hv
        · exact h.2 c (List.mem_filter.mp hc).1

theorem SMap.wf_upd {m : SMap α} {d : α} (k : Nat) (f : α → α) (h : SMap.wf m d = true) : SMap.wf (SMap.upd m d k f) d = true :=
  SMap.wf_put k _ h

end

/-! ### Byte memories -/

/-- The cells of a list of bytes laid out from address `a` on. -/
theorem Mem.cells_pairwise (bs : List Byte) (a : Nat) :
    ((bs.zipIdx a).map (fun x => (x.2, x.1))).Pairwise (fun (p q : Host.Cell) => p.1 < q.1) := by
  induction bs generalizing a with
  | nil => simp
  | cons b t ih =>
    simp only [List.zipIdx_cons, List.map_cons, List.pairwise_cons]
    refine ⟨?_, ih (a + 1)⟩
    intro c hc
    obtain ⟨x, hx, rfl⟩ := List.mem_map.mp hc
    have := List.le_snd_of_mem_zipIdx hx
    simp only
    omega

theorem Mem.mem_cells {bs : List Byte} {a : Nat} {c : Host.Cell} (h : c ∈ (bs.zipIdx a).map (fun x => (x.2, x.1))) :
    a ≤ c.1 ∧ c.1 < a + bs.length := by
  obtain ⟨x, hx, rfl⟩ := List.mem_map.mp h
  exact ⟨List.le_snd_of_mem_zipIdx hx, by
    have := List.snd_lt_add_of_mem_zipIdx hx
    simpa [Nat.add_comm] using this⟩

theorem Mem.wf_nil : Mem.wf ([] : Mem) = true := SMap.wf_nil _

theorem Mem.wf_filter {m : Mem} (p : Host.Cell → Bool) (h : Mem.wf m = true) : Mem.wf (m.filter p) = true := SMap.wf_filter p h

theorem Mem.wf_clear {m : Mem} (a n : Nat) (h : Mem.wf m = true) : Mem.wf (Mem.clear m a n) = true := SMap.wf_filter _ h

theorem Mem.wf_write {m : Mem} (a : Nat) (bs : List Byte) (h : Mem.wf m = true) : Mem.wf (Mem.write m a bs) = true := by
  unfold Mem.wf at h ⊢
  rw [SMap.wf_iff] at h ⊢
  unfold Mem.write
  refine ⟨?_, ?_⟩
  · rw [List.pairwise_append, List.pairwise_append]
    refine ⟨⟨h.1.sublist List.filter_sublist, (Mem.cells_pairwise bs a).sublist List.filter_sublist, ?_⟩,
      h.1.sublist List.filter_sublist, ?_⟩
    · intro x hx y hy
      have h1 := (List.mem_filter.mp hx).2
      simp only [decide_eq_true_eq] at h1
      have h2 := Mem.mem_cells (List.mem_filter.mp hy).1
      omega
    · intro x hx y hy
      have h2 := (List.mem_filter.mp hy).2
      simp only [decide_eq_true_eq] at h2
      rcases List.mem_append.mp hx with hx | hx
      · have h1 := (List.mem_filter.mp hx).2
        simp only [decide_eq_true_eq] at h1
        omega
      · have h1 := Mem.mem_cells (List.mem_filter.mp hx).1
        omega
  · intro c hc
    rcases List.mem_append.mp hc with hc | hc
    · rcases List.mem_append.mp hc with hc | hc
      · exact h.2 c (List.mem_filter.mp hc).1
      · simpa using (List.mem_filter.mp hc).2
    · exact h.2 c (List.mem_filter.mp hc).1

theorem Mem.wf_writeNat {m : Mem} (a n v : Nat) (h : Mem.wf m = true) : Mem.wf (Mem.writeNat m a n v) = true := Mem.wf_write a _ h

end Sys2Proof
end

