-- ==== Sys2Proof/Laws/State.lean ====
section
/-! SUPPORT. One lemma per field of the state for every elementary update, and what a read of a register, a core or a session finds
after one. -/

namespace Sys2Proof.Machine

/-! ### `setReg` -/

@[simp] theorem State.setReg_pending (s : State) (f : RegFam) (i j v : Nat) : (s.setReg f i j v).pending = s.pending := rfl
@[simp] theorem State.setReg_freeCtr (s : State) (f : RegFam) (i j v : Nat) : (s.setReg f i j v).freeCtr = s.freeCtr := rfl
@[simp] theorem State.setReg_siteEn (s : State) (f : RegFam) (i j v : Nat) : (s.setReg f i j v).siteEn = s.siteEn := rfl
@[simp] theorem State.setReg_cores (s : State) (f : RegFam) (i j v : Nat) : (s.setReg f i j v).cores = s.cores := rfl
@[simp] theorem State.setReg_mem (s : State) (f : RegFam) (i j v : Nat) : (s.setReg f i j v).mem = s.mem := rfl
@[simp] theorem State.setReg_poison (s : State) (f : RegFam) (i j v : Nat) : (s.setReg f i j v).poison = s.poison := rfl
@[simp] theorem State.setReg_latent (s : State) (f : RegFam) (i j v : Nat) : (s.setReg f i j v).latent = s.latent := rfl
@[simp] theorem State.setReg_sched (s : State) (f : RegFam) (i j v : Nat) : (s.setReg f i j v).sched = s.sched := rfl
@[simp] theorem State.setReg_gens (s : State) (f : RegFam) (i j v : Nat) : (s.setReg f i j v).gens = s.gens := rfl
@[simp] theorem State.setReg_slots (s : State) (f : RegFam) (i j v : Nat) : (s.setReg f i j v).slots = s.slots := rfl
@[simp] theorem State.setReg_net (s : State) (f : RegFam) (i j v : Nat) : (s.setReg f i j v).net = s.net := rfl
@[simp] theorem State.setReg_flits (s : State) (f : RegFam) (i j v : Nat) : (s.setReg f i j v).flits = s.flits := rfl
@[simp] theorem State.setReg_posted (s : State) (f : RegFam) (i j v : Nat) : (s.setReg f i j v).posted = s.posted := rfl
@[simp] theorem State.setReg_kv (s : State) (f : RegFam) (i j v : Nat) : (s.setReg f i j v).kv = s.kv := rfl
@[simp] theorem State.setReg_seq (s : State) (f : RegFam) (i j v : Nat) : (s.setReg f i j v).seq = s.seq := rfl
@[simp] theorem State.setReg_flt (s : State) (f : RegFam) (i j v : Nat) : (s.setReg f i j v).flt = s.flt := rfl
@[simp] theorem State.setReg_prog (s : State) (f : RegFam) (i j v : Nat) : (s.setReg f i j v).prog = s.prog := rfl
@[simp] theorem State.setReg_repls (s : State) (f : RegFam) (i j v : Nat) : (s.setReg f i j v).repls = s.repls := rfl
@[simp] theorem State.setReg_maint (s : State) (f : RegFam) (i j v : Nat) : (s.setReg f i j v).maint = s.maint := rfl
@[simp] theorem State.setReg_hpt (s : State) (f : RegFam) (i j v : Nat) : (s.setReg f i j v).hpt = s.hpt := rfl
@[simp] theorem State.setReg_jobs (s : State) (f : RegFam) (i j v : Nat) : (s.setReg f i j v).jobs = s.jobs := rfl
@[simp] theorem State.setReg_fcl (s : State) (f : RegFam) (i j v : Nat) : (s.setReg f i j v).fcl = s.fcl := rfl
@[simp] theorem State.setReg_cal (s : State) (f : RegFam) (i j v : Nat) : (s.setReg f i j v).cal = s.cal := rfl
@[simp] theorem State.setReg_sense (s : State) (f : RegFam) (i j v : Nat) : (s.setReg f i j v).sense = s.sense := rfl
@[simp] theorem State.setReg_pow (s : State) (f : RegFam) (i j v : Nat) : (s.setReg f i j v).pow = s.pow := rfl
@[simp] theorem State.setReg_sec (s : State) (f : RegFam) (i j v : Nat) : (s.setReg f i j v).sec = s.sec := rfl

/-! ### `setRf` -/

@[simp] theorem State.setRf_pending (s : State) (f : RegFam) (i j hi lo v : Nat) : (s.setRf f i j hi lo v).pending = s.pending := rfl
@[simp] theorem State.setRf_freeCtr (s : State) (f : RegFam) (i j hi lo v : Nat) : (s.setRf f i j hi lo v).freeCtr = s.freeCtr := rfl
@[simp] theorem State.setRf_siteEn (s : State) (f : RegFam) (i j hi lo v : Nat) : (s.setRf f i j hi lo v).siteEn = s.siteEn := rfl
@[simp] theorem State.setRf_cores (s : State) (f : RegFam) (i j hi lo v : Nat) : (s.setRf f i j hi lo v).cores = s.cores := rfl
@[simp] theorem State.setRf_mem (s : State) (f : RegFam) (i j hi lo v : Nat) : (s.setRf f i j hi lo v).mem = s.mem := rfl
@[simp] theorem State.setRf_poison (s : State) (f : RegFam) (i j hi lo v : Nat) : (s.setRf f i j hi lo v).poison = s.poison := rfl
@[simp] theorem State.setRf_latent (s : State) (f : RegFam) (i j hi lo v : Nat) : (s.setRf f i j hi lo v).latent = s.latent := rfl
@[simp] theorem State.setRf_sched (s : State) (f : RegFam) (i j hi lo v : Nat) : (s.setRf f i j hi lo v).sched = s.sched := rfl
@[simp] theorem State.setRf_gens (s : State) (f : RegFam) (i j hi lo v : Nat) : (s.setRf f i j hi lo v).gens = s.gens := rfl
@[simp] theorem State.setRf_slots (s : State) (f : RegFam) (i j hi lo v : Nat) : (s.setRf f i j hi lo v).slots = s.slots := rfl
@[simp] theorem State.setRf_net (s : State) (f : RegFam) (i j hi lo v : Nat) : (s.setRf f i j hi lo v).net = s.net := rfl
@[simp] theorem State.setRf_flits (s : State) (f : RegFam) (i j hi lo v : Nat) : (s.setRf f i j hi lo v).flits = s.flits := rfl
@[simp] theorem State.setRf_posted (s : State) (f : RegFam) (i j hi lo v : Nat) : (s.setRf f i j hi lo v).posted = s.posted := rfl
@[simp] theorem State.setRf_kv (s : State) (f : RegFam) (i j hi lo v : Nat) : (s.setRf f i j hi lo v).kv = s.kv := rfl
@[simp] theorem State.setRf_seq (s : State) (f : RegFam) (i j hi lo v : Nat) : (s.setRf f i j hi lo v).seq = s.seq := rfl
@[simp] theorem State.setRf_flt (s : State) (f : RegFam) (i j hi lo v : Nat) : (s.setRf f i j hi lo v).flt = s.flt := rfl
@[simp] theorem State.setRf_prog (s : State) (f : RegFam) (i j hi lo v : Nat) : (s.setRf f i j hi lo v).prog = s.prog := rfl
@[simp] theorem State.setRf_repls (s : State) (f : RegFam) (i j hi lo v : Nat) : (s.setRf f i j hi lo v).repls = s.repls := rfl
@[simp] theorem State.setRf_maint (s : State) (f : RegFam) (i j hi lo v : Nat) : (s.setRf f i j hi lo v).maint = s.maint := rfl
@[simp] theorem State.setRf_hpt (s : State) (f : RegFam) (i j hi lo v : Nat) : (s.setRf f i j hi lo v).hpt = s.hpt := rfl
@[simp] theorem State.setRf_jobs (s : State) (f : RegFam) (i j hi lo v : Nat) : (s.setRf f i j hi lo v).jobs = s.jobs := rfl
@[simp] theorem State.setRf_fcl (s : State) (f : RegFam) (i j hi lo v : Nat) : (s.setRf f i j hi lo v).fcl = s.fcl := rfl
@[simp] theorem State.setRf_cal (s : State) (f : RegFam) (i j hi lo v : Nat) : (s.setRf f i j hi lo v).cal = s.cal := rfl
@[simp] theorem State.setRf_sense (s : State) (f : RegFam) (i j hi lo v : Nat) : (s.setRf f i j hi lo v).sense = s.sense := rfl
@[simp] theorem State.setRf_pow (s : State) (f : RegFam) (i j hi lo v : Nat) : (s.setRf f i j hi lo v).pow = s.pow := rfl
@[simp] theorem State.setRf_sec (s : State) (f : RegFam) (i j hi lo v : Nat) : (s.setRf f i j hi lo v).sec = s.sec := rfl

/-! ### `wide` -/

@[simp] theorem State.wide_pending (s : State) (f : RegFam) (i j n : Nat) : (s.wide f i j n).pending = s.pending := rfl
@[simp] theorem State.wide_freeCtr (s : State) (f : RegFam) (i j n : Nat) : (s.wide f i j n).freeCtr = s.freeCtr := rfl
@[simp] theorem State.wide_siteEn (s : State) (f : RegFam) (i j n : Nat) : (s.wide f i j n).siteEn = s.siteEn := rfl
@[simp] theorem State.wide_cores (s : State) (f : RegFam) (i j n : Nat) : (s.wide f i j n).cores = s.cores := rfl
@[simp] theorem State.wide_mem (s : State) (f : RegFam) (i j n : Nat) : (s.wide f i j n).mem = s.mem := rfl
@[simp] theorem State.wide_poison (s : State) (f : RegFam) (i j n : Nat) : (s.wide f i j n).poison = s.poison := rfl
@[simp] theorem State.wide_latent (s : State) (f : RegFam) (i j n : Nat) : (s.wide f i j n).latent = s.latent := rfl
@[simp] theorem State.wide_sched (s : State) (f : RegFam) (i j n : Nat) : (s.wide f i j n).sched = s.sched := rfl
@[simp] theorem State.wide_gens (s : State) (f : RegFam) (i j n : Nat) : (s.wide f i j n).gens = s.gens := rfl
@[simp] theorem State.wide_slots (s : State) (f : RegFam) (i j n : Nat) : (s.wide f i j n).slots = s.slots := rfl
@[simp] theorem State.wide_net (s : State) (f : RegFam) (i j n : Nat) : (s.wide f i j n).net = s.net := rfl
@[simp] theorem State.wide_flits (s : State) (f : RegFam) (i j n : Nat) : (s.wide f i j n).flits = s.flits := rfl
@[simp] theorem State.wide_posted (s : State) (f : RegFam) (i j n : Nat) : (s.wide f i j n).posted = s.posted := rfl
@[simp] theorem State.wide_kv (s : State) (f : RegFam) (i j n : Nat) : (s.wide f i j n).kv = s.kv := rfl
@[simp] theorem State.wide_seq (s : State) (f : RegFam) (i j n : Nat) : (s.wide f i j n).seq = s.seq := rfl
@[simp] theorem State.wide_flt (s : State) (f : RegFam) (i j n : Nat) : (s.wide f i j n).flt = s.flt := rfl
@[simp] theorem State.wide_prog (s : State) (f : RegFam) (i j n : Nat) : (s.wide f i j n).prog = s.prog := rfl
@[simp] theorem State.wide_repls (s : State) (f : RegFam) (i j n : Nat) : (s.wide f i j n).repls = s.repls := rfl
@[simp] theorem State.wide_maint (s : State) (f : RegFam) (i j n : Nat) : (s.wide f i j n).maint = s.maint := rfl
@[simp] theorem State.wide_hpt (s : State) (f : RegFam) (i j n : Nat) : (s.wide f i j n).hpt = s.hpt := rfl
@[simp] theorem State.wide_jobs (s : State) (f : RegFam) (i j n : Nat) : (s.wide f i j n).jobs = s.jobs := rfl
@[simp] theorem State.wide_fcl (s : State) (f : RegFam) (i j n : Nat) : (s.wide f i j n).fcl = s.fcl := rfl
@[simp] theorem State.wide_cal (s : State) (f : RegFam) (i j n : Nat) : (s.wide f i j n).cal = s.cal := rfl
@[simp] theorem State.wide_sense (s : State) (f : RegFam) (i j n : Nat) : (s.wide f i j n).sense = s.sense := rfl
@[simp] theorem State.wide_pow (s : State) (f : RegFam) (i j n : Nat) : (s.wide f i j n).pow = s.pow := rfl
@[simp] theorem State.wide_sec (s : State) (f : RegFam) (i j n : Nat) : (s.wide f i j n).sec = s.sec := rfl

/-! ### `stick` -/

@[simp] theorem State.stick_pending (s : State) (f : RegFam) (i j hi lo n : Nat) : (s.stick f i j hi lo n).pending = s.pending := rfl
@[simp] theorem State.stick_freeCtr (s : State) (f : RegFam) (i j hi lo n : Nat) : (s.stick f i j hi lo n).freeCtr = s.freeCtr := rfl
@[simp] theorem State.stick_siteEn (s : State) (f : RegFam) (i j hi lo n : Nat) : (s.stick f i j hi lo n).siteEn = s.siteEn := rfl
@[simp] theorem State.stick_cores (s : State) (f : RegFam) (i j hi lo n : Nat) : (s.stick f i j hi lo n).cores = s.cores := rfl
@[simp] theorem State.stick_mem (s : State) (f : RegFam) (i j hi lo n : Nat) : (s.stick f i j hi lo n).mem = s.mem := rfl
@[simp] theorem State.stick_poison (s : State) (f : RegFam) (i j hi lo n : Nat) : (s.stick f i j hi lo n).poison = s.poison := rfl
@[simp] theorem State.stick_latent (s : State) (f : RegFam) (i j hi lo n : Nat) : (s.stick f i j hi lo n).latent = s.latent := rfl
@[simp] theorem State.stick_sched (s : State) (f : RegFam) (i j hi lo n : Nat) : (s.stick f i j hi lo n).sched = s.sched := rfl
@[simp] theorem State.stick_gens (s : State) (f : RegFam) (i j hi lo n : Nat) : (s.stick f i j hi lo n).gens = s.gens := rfl
@[simp] theorem State.stick_slots (s : State) (f : RegFam) (i j hi lo n : Nat) : (s.stick f i j hi lo n).slots = s.slots := rfl
@[simp] theorem State.stick_net (s : State) (f : RegFam) (i j hi lo n : Nat) : (s.stick f i j hi lo n).net = s.net := rfl
@[simp] theorem State.stick_flits (s : State) (f : RegFam) (i j hi lo n : Nat) : (s.stick f i j hi lo n).flits = s.flits := rfl
@[simp] theorem State.stick_posted (s : State) (f : RegFam) (i j hi lo n : Nat) : (s.stick f i j hi lo n).posted = s.posted := rfl
@[simp] theorem State.stick_kv (s : State) (f : RegFam) (i j hi lo n : Nat) : (s.stick f i j hi lo n).kv = s.kv := rfl
@[simp] theorem State.stick_seq (s : State) (f : RegFam) (i j hi lo n : Nat) : (s.stick f i j hi lo n).seq = s.seq := rfl
@[simp] theorem State.stick_flt (s : State) (f : RegFam) (i j hi lo n : Nat) : (s.stick f i j hi lo n).flt = s.flt := rfl
@[simp] theorem State.stick_prog (s : State) (f : RegFam) (i j hi lo n : Nat) : (s.stick f i j hi lo n).prog = s.prog := rfl
@[simp] theorem State.stick_repls (s : State) (f : RegFam) (i j hi lo n : Nat) : (s.stick f i j hi lo n).repls = s.repls := rfl
@[simp] theorem State.stick_maint (s : State) (f : RegFam) (i j hi lo n : Nat) : (s.stick f i j hi lo n).maint = s.maint := rfl
@[simp] theorem State.stick_hpt (s : State) (f : RegFam) (i j hi lo n : Nat) : (s.stick f i j hi lo n).hpt = s.hpt := rfl
@[simp] theorem State.stick_jobs (s : State) (f : RegFam) (i j hi lo n : Nat) : (s.stick f i j hi lo n).jobs = s.jobs := rfl
@[simp] theorem State.stick_fcl (s : State) (f : RegFam) (i j hi lo n : Nat) : (s.stick f i j hi lo n).fcl = s.fcl := rfl
@[simp] theorem State.stick_cal (s : State) (f : RegFam) (i j hi lo n : Nat) : (s.stick f i j hi lo n).cal = s.cal := rfl
@[simp] theorem State.stick_sense (s : State) (f : RegFam) (i j hi lo n : Nat) : (s.stick f i j hi lo n).sense = s.sense := rfl
@[simp] theorem State.stick_pow (s : State) (f : RegFam) (i j hi lo n : Nat) : (s.stick f i j hi lo n).pow = s.pow := rfl
@[simp] theorem State.stick_sec (s : State) (f : RegFam) (i j hi lo n : Nat) : (s.stick f i j hi lo n).sec = s.sec := rfl

/-! ### `nextFree` -/

@[simp] theorem State.nextFree_pending (s : State)  : (s.nextFree).pending = s.pending := rfl
@[simp] theorem State.nextFree_regs (s : State)  : (s.nextFree).regs = s.regs := rfl
@[simp] theorem State.nextFree_siteEn (s : State)  : (s.nextFree).siteEn = s.siteEn := rfl
@[simp] theorem State.nextFree_cores (s : State)  : (s.nextFree).cores = s.cores := rfl
@[simp] theorem State.nextFree_mem (s : State)  : (s.nextFree).mem = s.mem := rfl
@[simp] theorem State.nextFree_poison (s : State)  : (s.nextFree).poison = s.poison := rfl
@[simp] theorem State.nextFree_latent (s : State)  : (s.nextFree).latent = s.latent := rfl
@[simp] theorem State.nextFree_sched (s : State)  : (s.nextFree).sched = s.sched := rfl
@[simp] theorem State.nextFree_gens (s : State)  : (s.nextFree).gens = s.gens := rfl
@[simp] theorem State.nextFree_slots (s : State)  : (s.nextFree).slots = s.slots := rfl
@[simp] theorem State.nextFree_net (s : State)  : (s.nextFree).net = s.net := rfl
@[simp] theorem State.nextFree_flits (s : State)  : (s.nextFree).flits = s.flits := rfl
@[simp] theorem State.nextFree_posted (s : State)  : (s.nextFree).posted = s.posted := rfl
@[simp] theorem State.nextFree_kv (s : State)  : (s.nextFree).kv = s.kv := rfl
@[simp] theorem State.nextFree_seq (s : State)  : (s.nextFree).seq = s.seq := rfl
@[simp] theorem State.nextFree_flt (s : State)  : (s.nextFree).flt = s.flt := rfl
@[simp] theorem State.nextFree_prog (s : State)  : (s.nextFree).prog = s.prog := rfl
@[simp] theorem State.nextFree_repls (s : State)  : (s.nextFree).repls = s.repls := rfl
@[simp] theorem State.nextFree_maint (s : State)  : (s.nextFree).maint = s.maint := rfl
@[simp] theorem State.nextFree_hpt (s : State)  : (s.nextFree).hpt = s.hpt := rfl
@[simp] theorem State.nextFree_jobs (s : State)  : (s.nextFree).jobs = s.jobs := rfl
@[simp] theorem State.nextFree_fcl (s : State)  : (s.nextFree).fcl = s.fcl := rfl
@[simp] theorem State.nextFree_cal (s : State)  : (s.nextFree).cal = s.cal := rfl
@[simp] theorem State.nextFree_sense (s : State)  : (s.nextFree).sense = s.sense := rfl
@[simp] theorem State.nextFree_pow (s : State)  : (s.nextFree).pow = s.pow := rfl
@[simp] theorem State.nextFree_sec (s : State)  : (s.nextFree).sec = s.sec := rfl

/-! ### `setCore` -/

@[simp] theorem State.setCore_pending (s : State) (k : Nat) (c : Core) : (s.setCore k c).pending = s.pending := rfl
@[simp] theorem State.setCore_freeCtr (s : State) (k : Nat) (c : Core) : (s.setCore k c).freeCtr = s.freeCtr := rfl
@[simp] theorem State.setCore_regs (s : State) (k : Nat) (c : Core) : (s.setCore k c).regs = s.regs := rfl
@[simp] theorem State.setCore_siteEn (s : State) (k : Nat) (c : Core) : (s.setCore k c).siteEn = s.siteEn := rfl
@[simp] theorem State.setCore_mem (s : State) (k : Nat) (c : Core) : (s.setCore k c).mem = s.mem := rfl
@[simp] theorem State.setCore_poison (s : State) (k : Nat) (c : Core) : (s.setCore k c).poison = s.poison := rfl
@[simp] theorem State.setCore_latent (s : State) (k : Nat) (c : Core) : (s.setCore k c).latent = s.latent := rfl
@[simp] theorem State.setCore_sched (s : State) (k : Nat) (c : Core) : (s.setCore k c).sched = s.sched := rfl
@[simp] theorem State.setCore_gens (s : State) (k : Nat) (c : Core) : (s.setCore k c).gens = s.gens := rfl
@[simp] theorem State.setCore_slots (s : State) (k : Nat) (c : Core) : (s.setCore k c).slots = s.slots := rfl
@[simp] theorem State.setCore_net (s : State) (k : Nat) (c : Core) : (s.setCore k c).net = s.net := rfl
@[simp] theorem State.setCore_flits (s : State) (k : Nat) (c : Core) : (s.setCore k c).flits = s.flits := rfl
@[simp] theorem State.setCore_posted (s : State) (k : Nat) (c : Core) : (s.setCore k c).posted = s.posted := rfl
@[simp] theorem State.setCore_kv (s : State) (k : Nat) (c : Core) : (s.setCore k c).kv = s.kv := rfl
@[simp] theorem State.setCore_seq (s : State) (k : Nat) (c : Core) : (s.setCore k c).seq = s.seq := rfl
@[simp] theorem State.setCore_flt (s : State) (k : Nat) (c : Core) : (s.setCore k c).flt = s.flt := rfl
@[simp] theorem State.setCore_prog (s : State) (k : Nat) (c : Core) : (s.setCore k c).prog = s.prog := rfl
@[simp] theorem State.setCore_repls (s : State) (k : Nat) (c : Core) : (s.setCore k c).repls = s.repls := rfl
@[simp] theorem State.setCore_maint (s : State) (k : Nat) (c : Core) : (s.setCore k c).maint = s.maint := rfl
@[simp] theorem State.setCore_hpt (s : State) (k : Nat) (c : Core) : (s.setCore k c).hpt = s.hpt := rfl
@[simp] theorem State.setCore_jobs (s : State) (k : Nat) (c : Core) : (s.setCore k c).jobs = s.jobs := rfl
@[simp] theorem State.setCore_fcl (s : State) (k : Nat) (c : Core) : (s.setCore k c).fcl = s.fcl := rfl
@[simp] theorem State.setCore_cal (s : State) (k : Nat) (c : Core) : (s.setCore k c).cal = s.cal := rfl
@[simp] theorem State.setCore_sense (s : State) (k : Nat) (c : Core) : (s.setCore k c).sense = s.sense := rfl
@[simp] theorem State.setCore_pow (s : State) (k : Nat) (c : Core) : (s.setCore k c).pow = s.pow := rfl
@[simp] theorem State.setCore_sec (s : State) (k : Nat) (c : Core) : (s.setCore k c).sec = s.sec := rfl

/-! ### `updCore` -/

@[simp] theorem State.updCore_pending (s : State) (k : Nat) (f : Core → Core) : (s.updCore k f).pending = s.pending := rfl
@[simp] theorem State.updCore_freeCtr (s : State) (k : Nat) (f : Core → Core) : (s.updCore k f).freeCtr = s.freeCtr := rfl
@[simp] theorem State.updCore_regs (s : State) (k : Nat) (f : Core → Core) : (s.updCore k f).regs = s.regs := rfl
@[simp] theorem State.updCore_siteEn (s : State) (k : Nat) (f : Core → Core) : (s.updCore k f).siteEn = s.siteEn := rfl
@[simp] theorem State.updCore_mem (s : State) (k : Nat) (f : Core → Core) : (s.updCore k f).mem = s.mem := rfl
@[simp] theorem State.updCore_poison (s : State) (k : Nat) (f : Core → Core) : (s.updCore k f).poison = s.poison := rfl
@[simp] theorem State.updCore_latent (s : State) (k : Nat) (f : Core → Core) : (s.updCore k f).latent = s.latent := rfl
@[simp] theorem State.updCore_sched (s : State) (k : Nat) (f : Core → Core) : (s.updCore k f).sched = s.sched := rfl
@[simp] theorem State.updCore_gens (s : State) (k : Nat) (f : Core → Core) : (s.updCore k f).gens = s.gens := rfl
@[simp] theorem State.updCore_slots (s : State) (k : Nat) (f : Core → Core) : (s.updCore k f).slots = s.slots := rfl
@[simp] theorem State.updCore_net (s : State) (k : Nat) (f : Core → Core) : (s.updCore k f).net = s.net := rfl
@[simp] theorem State.updCore_flits (s : State) (k : Nat) (f : Core → Core) : (s.updCore k f).flits = s.flits := rfl
@[simp] theorem State.updCore_posted (s : State) (k : Nat) (f : Core → Core) : (s.updCore k f).posted = s.posted := rfl
@[simp] theorem State.updCore_kv (s : State) (k : Nat) (f : Core → Core) : (s.updCore k f).kv = s.kv := rfl
@[simp] theorem State.updCore_seq (s : State) (k : Nat) (f : Core → Core) : (s.updCore k f).seq = s.seq := rfl
@[simp] theorem State.updCore_flt (s : State) (k : Nat) (f : Core → Core) : (s.updCore k f).flt = s.flt := rfl
@[simp] theorem State.updCore_prog (s : State) (k : Nat) (f : Core → Core) : (s.updCore k f).prog = s.prog := rfl
@[simp] theorem State.updCore_repls (s : State) (k : Nat) (f : Core → Core) : (s.updCore k f).repls = s.repls := rfl
@[simp] theorem State.updCore_maint (s : State) (k : Nat) (f : Core → Core) : (s.updCore k f).maint = s.maint := rfl
@[simp] theorem State.updCore_hpt (s : State) (k : Nat) (f : Core → Core) : (s.updCore k f).hpt = s.hpt := rfl
@[simp] theorem State.updCore_jobs (s : State) (k : Nat) (f : Core → Core) : (s.updCore k f).jobs = s.jobs := rfl
@[simp] theorem State.updCore_fcl (s : State) (k : Nat) (f : Core → Core) : (s.updCore k f).fcl = s.fcl := rfl
@[simp] theorem State.updCore_cal (s : State) (k : Nat) (f : Core → Core) : (s.updCore k f).cal = s.cal := rfl
@[simp] theorem State.updCore_sense (s : State) (k : Nat) (f : Core → Core) : (s.updCore k f).sense = s.sense := rfl
@[simp] theorem State.updCore_pow (s : State) (k : Nat) (f : Core → Core) : (s.updCore k f).pow = s.pow := rfl
@[simp] theorem State.updCore_sec (s : State) (k : Nat) (f : Core → Core) : (s.updCore k f).sec = s.sec := rfl

/-! ### `updSession` -/

@[simp] theorem State.updSession_pending (s : State) (n : Nat) (f : Session → Session) : (s.updSession n f).pending = s.pending := rfl
@[simp] theorem State.updSession_freeCtr (s : State) (n : Nat) (f : Session → Session) : (s.updSession n f).freeCtr = s.freeCtr := rfl
@[simp] theorem State.updSession_regs (s : State) (n : Nat) (f : Session → Session) : (s.updSession n f).regs = s.regs := rfl
@[simp] theorem State.updSession_siteEn (s : State) (n : Nat) (f : Session → Session) : (s.updSession n f).siteEn = s.siteEn := rfl
@[simp] theorem State.updSession_cores (s : State) (n : Nat) (f : Session → Session) : (s.updSession n f).cores = s.cores := rfl
@[simp] theorem State.updSession_mem (s : State) (n : Nat) (f : Session → Session) : (s.updSession n f).mem = s.mem := rfl
@[simp] theorem State.updSession_poison (s : State) (n : Nat) (f : Session → Session) : (s.updSession n f).poison = s.poison := rfl
@[simp] theorem State.updSession_latent (s : State) (n : Nat) (f : Session → Session) : (s.updSession n f).latent = s.latent := rfl
@[simp] theorem State.updSession_sched (s : State) (n : Nat) (f : Session → Session) : (s.updSession n f).sched = s.sched := rfl
@[simp] theorem State.updSession_gens (s : State) (n : Nat) (f : Session → Session) : (s.updSession n f).gens = s.gens := rfl
@[simp] theorem State.updSession_slots (s : State) (n : Nat) (f : Session → Session) : (s.updSession n f).slots = s.slots := rfl
@[simp] theorem State.updSession_net (s : State) (n : Nat) (f : Session → Session) : (s.updSession n f).net = s.net := rfl
@[simp] theorem State.updSession_flits (s : State) (n : Nat) (f : Session → Session) : (s.updSession n f).flits = s.flits := rfl
@[simp] theorem State.updSession_posted (s : State) (n : Nat) (f : Session → Session) : (s.updSession n f).posted = s.posted := rfl
@[simp] theorem State.updSession_kv (s : State) (n : Nat) (f : Session → Session) : (s.updSession n f).kv = s.kv := rfl
@[simp] theorem State.updSession_seq (s : State) (n : Nat) (f : Session → Session) : (s.updSession n f).seq = s.seq := rfl
@[simp] theorem State.updSession_flt (s : State) (n : Nat) (f : Session → Session) : (s.updSession n f).flt = s.flt := rfl
@[simp] theorem State.updSession_prog (s : State) (n : Nat) (f : Session → Session) : (s.updSession n f).prog = s.prog := rfl
@[simp] theorem State.updSession_repls (s : State) (n : Nat) (f : Session → Session) : (s.updSession n f).repls = s.repls := rfl
@[simp] theorem State.updSession_maint (s : State) (n : Nat) (f : Session → Session) : (s.updSession n f).maint = s.maint := rfl
@[simp] theorem State.updSession_jobs (s : State) (n : Nat) (f : Session → Session) : (s.updSession n f).jobs = s.jobs := rfl
@[simp] theorem State.updSession_fcl (s : State) (n : Nat) (f : Session → Session) : (s.updSession n f).fcl = s.fcl := rfl
@[simp] theorem State.updSession_cal (s : State) (n : Nat) (f : Session → Session) : (s.updSession n f).cal = s.cal := rfl
@[simp] theorem State.updSession_sense (s : State) (n : Nat) (f : Session → Session) : (s.updSession n f).sense = s.sense := rfl
@[simp] theorem State.updSession_pow (s : State) (n : Nat) (f : Session → Session) : (s.updSession n f).pow = s.pow := rfl
@[simp] theorem State.updSession_sec (s : State) (n : Nat) (f : Session → Session) : (s.updSession n f).sec = s.sec := rfl

/-! ### `dropSession` -/

@[simp] theorem State.dropSession_pending (s : State) (n : Nat) : (s.dropSession n).pending = s.pending := rfl
@[simp] theorem State.dropSession_freeCtr (s : State) (n : Nat) : (s.dropSession n).freeCtr = s.freeCtr := rfl
@[simp] theorem State.dropSession_regs (s : State) (n : Nat) : (s.dropSession n).regs = s.regs := rfl
@[simp] theorem State.dropSession_siteEn (s : State) (n : Nat) : (s.dropSession n).siteEn = s.siteEn := rfl
@[simp] theorem State.dropSession_cores (s : State) (n : Nat) : (s.dropSession n).cores = s.cores := rfl
@[simp] theorem State.dropSession_mem (s : State) (n : Nat) : (s.dropSession n).mem = s.mem := rfl
@[simp] theorem State.dropSession_poison (s : State) (n : Nat) : (s.dropSession n).poison = s.poison := rfl
@[simp] theorem State.dropSession_latent (s : State) (n : Nat) : (s.dropSession n).latent = s.latent := rfl
@[simp] theorem State.dropSession_sched (s : State) (n : Nat) : (s.dropSession n).sched = s.sched := rfl
@[simp] theorem State.dropSession_gens (s : State) (n : Nat) : (s.dropSession n).gens = s.gens := rfl
@[simp] theorem State.dropSession_slots (s : State) (n : Nat) : (s.dropSession n).slots = s.slots := rfl
@[simp] theorem State.dropSession_net (s : State) (n : Nat) : (s.dropSession n).net = s.net := rfl
@[simp] theorem State.dropSession_flits (s : State) (n : Nat) : (s.dropSession n).flits = s.flits := rfl
@[simp] theorem State.dropSession_posted (s : State) (n : Nat) : (s.dropSession n).posted = s.posted := rfl
@[simp] theorem State.dropSession_kv (s : State) (n : Nat) : (s.dropSession n).kv = s.kv := rfl
@[simp] theorem State.dropSession_seq (s : State) (n : Nat) : (s.dropSession n).seq = s.seq := rfl
@[simp] theorem State.dropSession_flt (s : State) (n : Nat) : (s.dropSession n).flt = s.flt := rfl
@[simp] theorem State.dropSession_prog (s : State) (n : Nat) : (s.dropSession n).prog = s.prog := rfl
@[simp] theorem State.dropSession_repls (s : State) (n : Nat) : (s.dropSession n).repls = s.repls := rfl
@[simp] theorem State.dropSession_maint (s : State) (n : Nat) : (s.dropSession n).maint = s.maint := rfl
@[simp] theorem State.dropSession_jobs (s : State) (n : Nat) : (s.dropSession n).jobs = s.jobs := rfl
@[simp] theorem State.dropSession_fcl (s : State) (n : Nat) : (s.dropSession n).fcl = s.fcl := rfl
@[simp] theorem State.dropSession_cal (s : State) (n : Nat) : (s.dropSession n).cal = s.cal := rfl
@[simp] theorem State.dropSession_sense (s : State) (n : Nat) : (s.dropSession n).sense = s.sense := rfl
@[simp] theorem State.dropSession_pow (s : State) (n : Nat) : (s.dropSession n).pow = s.pow := rfl
@[simp] theorem State.dropSession_sec (s : State) (n : Nat) : (s.dropSession n).sec = s.sec := rfl

/-! ### `memWrite` -/

@[simp] theorem State.memWrite_pending (s : State) (a : Nat) (bs : List Byte) (po : List Nat) : (s.memWrite a bs po).pending = s.pending := rfl
@[simp] theorem State.memWrite_freeCtr (s : State) (a : Nat) (bs : List Byte) (po : List Nat) : (s.memWrite a bs po).freeCtr = s.freeCtr := rfl
@[simp] theorem State.memWrite_regs (s : State) (a : Nat) (bs : List Byte) (po : List Nat) : (s.memWrite a bs po).regs = s.regs := rfl
@[simp] theorem State.memWrite_siteEn (s : State) (a : Nat) (bs : List Byte) (po : List Nat) : (s.memWrite a bs po).siteEn = s.siteEn := rfl
@[simp] theorem State.memWrite_cores (s : State) (a : Nat) (bs : List Byte) (po : List Nat) : (s.memWrite a bs po).cores = s.cores := rfl
@[simp] theorem State.memWrite_sched (s : State) (a : Nat) (bs : List Byte) (po : List Nat) : (s.memWrite a bs po).sched = s.sched := rfl
@[simp] theorem State.memWrite_gens (s : State) (a : Nat) (bs : List Byte) (po : List Nat) : (s.memWrite a bs po).gens = s.gens := rfl
@[simp] theorem State.memWrite_slots (s : State) (a : Nat) (bs : List Byte) (po : List Nat) : (s.memWrite a bs po).slots = s.slots := rfl
@[simp] theorem State.memWrite_net (s : State) (a : Nat) (bs : List Byte) (po : List Nat) : (s.memWrite a bs po).net = s.net := rfl
@[simp] theorem State.memWrite_flits (s : State) (a : Nat) (bs : List Byte) (po : List Nat) : (s.memWrite a bs po).flits = s.flits := rfl
@[simp] theorem State.memWrite_posted (s : State) (a : Nat) (bs : List Byte) (po : List Nat) : (s.memWrite a bs po).posted = s.posted := rfl
@[simp] theorem State.memWrite_kv (s : State) (a : Nat) (bs : List Byte) (po : List Nat) : (s.memWrite a bs po).kv = s.kv := rfl
@[simp] theorem State.memWrite_seq (s : State) (a : Nat) (bs : List Byte) (po : List Nat) : (s.memWrite a bs po).seq = s.seq := rfl
@[simp] theorem State.memWrite_flt (s : State) (a : Nat) (bs : List Byte) (po : List Nat) : (s.memWrite a bs po).flt = s.flt := rfl
@[simp] theorem State.memWrite_prog (s : State) (a : Nat) (bs : List Byte) (po : List Nat) : (s.memWrite a bs po).prog = s.prog := rfl
@[simp] theorem State.memWrite_repls (s : State) (a : Nat) (bs : List Byte) (po : List Nat) : (s.memWrite a bs po).repls = s.repls := rfl
@[simp] theorem State.memWrite_maint (s : State) (a : Nat) (bs : List Byte) (po : List Nat) : (s.memWrite a bs po).maint = s.maint := rfl
@[simp] theorem State.memWrite_hpt (s : State) (a : Nat) (bs : List Byte) (po : List Nat) : (s.memWrite a bs po).hpt = s.hpt := rfl
@[simp] theorem State.memWrite_jobs (s : State) (a : Nat) (bs : List Byte) (po : List Nat) : (s.memWrite a bs po).jobs = s.jobs := rfl
@[simp] theorem State.memWrite_fcl (s : State) (a : Nat) (bs : List Byte) (po : List Nat) : (s.memWrite a bs po).fcl = s.fcl := rfl
@[simp] theorem State.memWrite_cal (s : State) (a : Nat) (bs : List Byte) (po : List Nat) : (s.memWrite a bs po).cal = s.cal := rfl
@[simp] theorem State.memWrite_sense (s : State) (a : Nat) (bs : List Byte) (po : List Nat) : (s.memWrite a bs po).sense = s.sense := rfl
@[simp] theorem State.memWrite_pow (s : State) (a : Nat) (bs : List Byte) (po : List Nat) : (s.memWrite a bs po).pow = s.pow := rfl
@[simp] theorem State.memWrite_sec (s : State) (a : Nat) (bs : List Byte) (po : List Nat) : (s.memWrite a bs po).sec = s.sec := rfl

/-! ### Cores -/

@[simp] theorem State.core_setCore_self (s : State) (k : Nat) (c : Core) : (s.setCore k c).core k = c := SMap.get_put_self _ _ _ _

theorem State.core_setCore_of_ne (s : State) {k k' : Nat} (c : Core) (h : k' ≠ k) : (s.setCore k c).core k' = s.core k' :=
  SMap.get_put_of_ne _ _ _ _ h

@[simp] theorem State.core_updCore_self (s : State) (k : Nat) (f : Core → Core) : (s.updCore k f).core k = f (s.core k) :=
  State.core_setCore_self _ _ _

theorem State.core_updCore_of_ne (s : State) {k k' : Nat} (f : Core → Core) (h : k' ≠ k) : (s.updCore k f).core k' = s.core k' :=
  State.core_setCore_of_ne _ _ h

@[simp] theorem State.core_setReg (s : State) (f : RegFam) (i j v k : Nat) : (s.setReg f i j v).core k = s.core k := rfl

@[simp] theorem State.core_setRf (s : State) (f : RegFam) (i j hi lo v k : Nat) : (s.setRf f i j hi lo v).core k = s.core k := rfl

/-! ### Registers -/

theorem State.reg_lt (s : State) (f : RegFam) (i j : Nat) : s.reg f i j < 2 ^ 64 := (SMap.get s.regs _ _).isLt

theorem State.reg_setReg_self (s : State) (f : RegFam) (i j v : Nat) : (s.setReg f i j v).reg f i j = v % 2 ^ 64 := by
  simp only [State.reg, State.setReg, SMap.get_put_self, BitVec.toNat_ofNat]

/-- A write of one register leaves every register at another address as it was. -/
theorem State.reg_setReg_of_ne (s : State) (f g : RegFam) (i j v i' j' : Nat) (h : g.addr i' j' ≠ f.addr i j) :
    (s.setReg f i j v).reg g i' j' = s.reg g i' j' := by
  simp only [State.reg, State.setReg, SMap.get_put_of_ne _ _ _ _ h]

theorem State.reg_setRf_of_ne (s : State) (f g : RegFam) (i j hi lo v i' j' : Nat) (h : g.addr i' j' ≠ f.addr i j) :
    (s.setRf f i j hi lo v).reg g i' j' = s.reg g i' j' := State.reg_setReg_of_ne s f g i j _ i' j' h

/-- Registers read the same in states that store the same registers. -/
theorem State.reg_congr {s t : State} (h : t.regs = s.regs) (f : RegFam) (i j : Nat) : t.reg f i j = s.reg f i j := by
  simp only [State.reg, h]

theorem State.rf_congr {s t : State} (h : t.regs = s.regs) (f : RegFam) (i j hi lo : Nat) : t.rf f i j hi lo = s.rf f i j hi lo := by
  simp only [State.rf, State.reg_congr h]

@[simp] theorem State.reg_setCore (s : State) (k : Nat) (c : Core) (f : RegFam) (i j : Nat) : (s.setCore k c).reg f i j = s.reg f i j :=
  rfl

@[simp] theorem State.reg_updCore (s : State) (k : Nat) (g : Core → Core) (f : RegFam) (i j : Nat) :
    (s.updCore k g).reg f i j = s.reg f i j := rfl

@[simp] theorem State.rf_updCore (s : State) (k : Nat) (g : Core → Core) (f : RegFam) (i j hi lo : Nat) :
    (s.updCore k g).rf f i j hi lo = s.rf f i j hi lo := rfl

theorem bitsOf_lt (v hi lo : Nat) : bitsOf v hi lo < 2 ^ (hi + 1 - lo) := Nat.mod_lt _ (Nat.two_pow_pos _)

/-- Bits of a word, taken from it, leave no negative rest: the field is part of the word. -/
theorem bitsOf_mul_le (v hi lo : Nat) : bitsOf v hi lo * 2 ^ lo ≤ v :=
  (Nat.mul_le_mul_right _ (Nat.mod_le _ _)).trans (Nat.div_mul_le_self v (2 ^ lo))

/-- Setting low bits of a word to a value that fits. -/
theorem setBits_low (v hi x : Nat) (hx : x < 2 ^ (hi + 1)) : setBits v hi 0 x = v - v % 2 ^ (hi + 1) + x := by
  simp [setBits, bitsOf, Nat.mod_eq_of_lt hx]

/-! ### Sessions -/

theorem State.session_updSession_self (s : State) (n : Nat) (f : Session → Session) (hf : ∀ x, (f x).number = x.number) :
    (s.updSession n f).session n = (s.session n).map f := by
  have key : ∀ l : List Session, (l.map (fun x => if x.number = n then f x else x)).find? (fun x => x.number == n) =
      (l.find? (fun x => x.number == n)).map f := by
    intro l
    induction l with
    | nil => rfl
    | cons x t ih =>
      by_cases hx : x.number = n
      · simp [hx, hf]
      · simp only [List.map_cons, if_neg hx]
        rw [List.find?_cons_of_neg (by simpa using hx), List.find?_cons_of_neg (by simpa using hx), ih]
  exact key _

/-! ### Answers of meanings -/

theorem finish_eq (s : State) : finish s = .next s.settle := rfl

/-- Without a reaction waiting, settling changes nothing. -/
theorem State.settle_of_calm (s : State) (h1 : s.fcl.hostReset = false) (h2 : s.fcl.chipReset = false) (h3 : s.fcl.safeReq = false) :
    s.settle = s := by
  simp [State.settle, h1, h2, h3]

end Sys2Proof.Machine
end

