-- ==== Sys2Proof/Laws/Core.lean ====
section
/-! SUPPORT. What the issue of an instruction can do (R168, R169, R190): it runs, it is predicated off, or the core cannot issue. -/

namespace Sys2Proof.Machine

/-- An instruction that runs has its effect, and the core moves on. -/
theorem State.issueWith_of_runs {s : State} {x : Issue} (f off : State → Nat → State) (h : s.runs x) :
    s.issueWith x f off = (f s ((s.core x.site).stepIdx x)).updCore x.site Core.advance := by
  simp [State.issueWith, h.1, h.2]

/-- One that is predicated off has the effect `off`, and the core moves on. -/
theorem State.issueWith_of_predOff {s : State} {x : Issue} (f off : State → Nat → State) (h : s.predOff x) :
    s.issueWith x f off = (off s ((s.core x.site).stepIdx x)).updCore x.site Core.advance := by
  simp [State.issueWith, h.1, h.2]

/-- Where the core cannot issue, nothing happens. -/
theorem State.issueWith_of_not {s : State} {x : Issue} (f off : State → Nat → State) (h : s.canIssue x.site = false) :
    s.issueWith x f off = s := by
  simp [State.issueWith, h]

theorem State.issue_of_runs {s : State} {x : Issue} (f : State → Nat → State) (h : s.runs x) :
    s.issue x f = (f s ((s.core x.site).stepIdx x)).updCore x.site Core.advance := State.issueWith_of_runs f _ h

/-- A core replaced, then moved on: the shape of every meaning whose effect lies in its core alone. -/
theorem coreNext_of {s t : State} {site : Nat} {c : Core} (h : t = (s.setCore site c).updCore site Core.advance) :
    CoreNext (.next t) s site c := by
  subst h
  refine ⟨_, rfl, rfl, ?_, ?_⟩
  · intro k hk
    rw [State.core_updCore_of_ne _ _ hk, State.core_setCore_of_ne _ _ hk]
  · simp

/-- An instruction whose effect lies in its core alone. -/
theorem State.issueCore_of_runs {s : State} {x : Issue} (f : Core → Nat → Core) (h : s.runs x) :
    CoreNext (.next (s.issueCore x f)) s x.site (f (s.core x.site) ((s.core x.site).stepIdx x)) := by
  apply coreNext_of
  rw [State.issueCore, State.issue_of_runs _ h]
  rfl

/-- The issue of an instruction that waits for tiles, where none is waited for. -/
theorem State.issueTiles_of_free {s : State} {x : Issue} (tiles : Nat → List Nat) (f off : State → Nat → State)
    (h : (s.core x.site).tilesFree (tiles ((s.core x.site).stepIdx x))) : s.issueTiles x tiles f off = s.issueWith x f off := by
  unfold Core.tilesFree at h
  simp [State.issueTiles, h]

/-- A meaning that leaves the collector of a calm state as it was answers its state unchanged. -/
theorem finish_of_calm {s t : State} (hc : s.calm) (hf : t.fcl = s.fcl) : finish t = .next t := by
  obtain ⟨h1, h2, h3⟩ := hc
  rw [finish_eq, State.settle_of_calm t (by rw [hf, h1]) (by rw [hf, h2]) (by rw [hf, h3])]

/-! ### Counters -/

/-- An error counter with room counts and raises nothing (R412). -/
theorem State.err_of_room {s : State} {f : RegFam} {i j n : Nat} (h : s.room f i j n) :
    s.err f i j n = if n = 0 then s else s.setRf f i j 30 0 (s.rf f i j 30 0 + n) := by
  unfold State.room at h
  have h' : ¬ 0x7FFFFFFF ≤ s.rf f i j 30 0 + n := by omega
  by_cases hn : n = 0
  · simp [State.err, State.bump, hn]
  · simp [State.err, State.bump, hn, h']

theorem State.reg_bumped {s : State} {f : RegFam} {i j n : Nat} (h : s.room f i j n) :
    (s.setRf f i j 30 0 (s.rf f i j 30 0 + n)).reg f i j = s.reg f i j + n := by
  unfold State.room at h
  have hlt := s.reg_lt f i j
  unfold State.setRf
  rw [State.reg_setReg_self]
  have hb : s.rf f i j 30 0 = s.reg f i j % 2 ^ 31 := by simp [State.rf, bitsOf]
  rw [hb] at h ⊢
  rw [setBits_low _ _ _ (by omega)]
  omega

/-- A next state in which a core is replaced, a counter with room has counted, and the core has moved on. -/
theorem countNext_of {s : State} {site : Nat} {c : Core} {f : RegFam} {i j n : Nat} (hc : s.calm) (hr : s.room f i j n) :
    CountNext (finish (((s.setCore site c).err f i j n).updCore site Core.advance)) s site c f i j n := by
  have hr' : (s.setCore site c).room f i j n := hr
  rw [State.err_of_room hr']
  by_cases hn : n = 0
  · subst hn
    rw [if_pos rfl, finish_of_calm hc]
    swap
    · rfl
    refine ⟨_, rfl, rfl, ?_, ?_, ?_, ?_⟩
    · intro k hk
      rw [State.core_updCore_of_ne _ _ hk, State.core_setCore_of_ne _ _ hk]
    · simp
    · rfl
    · intros; rfl
  · rw [if_neg hn, finish_of_calm hc]
    swap
    · rfl
    refine ⟨_, rfl, rfl, ?_, ?_, ?_, ?_⟩
    · intro k hk
      rw [State.core_updCore_of_ne _ _ hk, State.core_setRf, State.core_setCore_of_ne _ _ hk]
    · simp
    · rw [State.reg_updCore]
      exact State.reg_bumped hr'
    · intro a ha
      exact SMap.lookup_put_of_ne _ _ _ ha

end Sys2Proof.Machine
end

