-- ==== Sys2Proof/Laws/Raise.lean ====
section
/-! SUPPORT. What a raise can do (R404, R406, R412, R414, R415): with mild reactions it changes nothing outside the collector. -/

namespace Sys2Proof.Machine

/-- What every operation inside a raise keeps. -/
structure RaiseKeeps (s t : State) : Prop where
  eq : t = { s with regs := t.regs, fcl := t.fcl, freeCtr := t.freeCtr }
  store : t.fcl.store = s.fcl.store
  pairs : t.fcl.pairs = s.fcl.pairs
  host : t.fcl.hostReset = s.fcl.hostReset
  chip : t.fcl.chipReset = s.fcl.chipReset
  safe : t.fcl.safeReq = s.fcl.safeReq
  word : ∀ a, a < 0x30000 ∨ 0x40000 ≤ a → t.word a = s.word a
  cfg : ∀ n, n < 256 → t.reg Reg.FCL_SRCn_CFG 0 n = s.reg Reg.FCL_SRCn_CFG 0 n

/-- What a nested raise of the sources 0 and 1 keeps besides. -/
structure NestedKeeps (s t : State) : Prop extends RaiseKeeps s t where
  stat : ∀ n, 2 ≤ n → n < 256 → t.reg Reg.FCL_SRCn_STAT 0 n = s.reg Reg.FCL_SRCn_STAT 0 n
  count : ∀ n, 2 ≤ n → n < 256 → t.reg Reg.FCL_SRCn_COUNT 0 n = s.reg Reg.FCL_SRCn_COUNT 0 n
  pend : ∀ n, n < 2 → s.rf Reg.FCL_SRCn_STAT 0 n 31 31 = 1 → t.rf Reg.FCL_SRCn_STAT 0 n 31 31 = 1

theorem RaiseKeeps.refl (s : State) : RaiseKeeps s s := by
  constructor <;> intros <;> rfl

theorem RaiseKeeps.trans {s t u : State} (h : RaiseKeeps s t) (k : RaiseKeeps t u) : RaiseKeeps s u where
  eq := by
    have h1 := h.eq; have h2 := k.eq
    rw [h1] at h2; exact h2
  store := k.store.trans h.store
  pairs := k.pairs.trans h.pairs
  host := k.host.trans h.host
  chip := k.chip.trans h.chip
  safe := k.safe.trans h.safe
  word a ha := (k.word a ha).trans (h.word a ha)
  cfg n hn := (k.cfg n hn).trans (h.cfg n hn)

theorem NestedKeeps.refl (s : State) : NestedKeeps s s where
  toRaiseKeeps := .refl s
  stat _ _ _ := rfl
  count _ _ _ := rfl
  pend _ _ h := h

theorem NestedKeeps.trans {s t u : State} (h : NestedKeeps s t) (k : NestedKeeps t u) : NestedKeeps s u where
  toRaiseKeeps := h.toRaiseKeeps.trans k.toRaiseKeeps
  stat n h2 hn := (k.stat n h2 hn).trans (h.stat n h2 hn)
  count n h2 hn := (k.count n h2 hn).trans (h.count n h2 hn)
  pend n hn hp := k.pend n hn (h.pend n hn hp)

theorem RaiseKeeps.mild {s t : State} (h : RaiseKeeps s t) {l : List Nat} (hl : ∀ n ∈ l, n < 256) (hm : s.mild l) : t.mild l := by
  intro n hn
  have : n < 256 := by
    rcases List.mem_cons.mp hn with rfl | hn
    · omega
    · rcases List.mem_cons.mp hn with rfl | hn
      · omega
      · exact hl n hn
  have := h.cfg n this
  simpa only [State.rf, this] using hm n hn

theorem State.word_setReg_of_ne (s : State) (f : RegFam) (i j v a : Nat) (h : a ≠ f.addr i j) : (s.setReg f i j v).word a = s.word a :=
  SMap.lookup_put_of_ne _ _ _ h

/-- A write of a register of the collector that is neither a configuration nor a status nor a count of a source from 2 on. -/
theorem NestedKeeps.setReg (s : State) (f : RegFam) (i j v : Nat) (h1 : 0x30000 ≤ f.addr i j) (h2 : f.addr i j < 0x31000 ∨
    (0x32000 ≤ f.addr i j ∧ f.addr i j < 0x32008)) : NestedKeeps s (s.setReg f i j v) where
  eq := rfl
  store := rfl
  pairs := rfl
  host := rfl
  chip := rfl
  safe := rfl
  word a ha := State.word_setReg_of_ne _ _ _ _ _ _ (by omega)
  cfg n hn := State.reg_setReg_of_ne _ _ _ _ _ _ _ _ (by
    have : RegFam.addr Reg.FCL_SRCn_CFG 0 n = 0x31000 + 8 * n := by simp [RegFam.addr, Reg.FCL_SRCn_CFG]
    omega)
  stat n h hn := State.reg_setReg_of_ne _ _ _ _ _ _ _ _ (by
    have : RegFam.addr Reg.FCL_SRCn_STAT 0 n = 0x31004 + 8 * n := by simp [RegFam.addr, Reg.FCL_SRCn_STAT]
    omega)
  count n h hn := State.reg_setReg_of_ne _ _ _ _ _ _ _ _ (by
    have : RegFam.addr Reg.FCL_SRCn_COUNT 0 n = 0x32000 + 4 * n := by simp [RegFam.addr, Reg.FCL_SRCn_COUNT]
    omega)
  pend n hn hp := by
    have : (s.setReg f i j v).reg Reg.FCL_SRCn_STAT 0 n = s.reg Reg.FCL_SRCn_STAT 0 n := by
      apply State.reg_setReg_of_ne
      have : RegFam.addr Reg.FCL_SRCn_STAT 0 n = 0x31004 + 8 * n := by simp [RegFam.addr, Reg.FCL_SRCn_STAT]
      omega
    simpa only [State.rf, this] using hp

/-- A change of the collector's buffer, times of capture or interrupts, and of the count of free values. -/
theorem NestedKeeps.fcl (s : State) (k : Fcl) (n : Nat) (h1 : k.store = s.fcl.store) (h2 : k.pairs = s.fcl.pairs)
    (h4 : k.hostReset = s.fcl.hostReset) (h5 : k.chipReset = s.fcl.chipReset)
    (h6 : k.safeReq = s.fcl.safeReq) : NestedKeeps s { s with fcl := k, freeCtr := n } where
  eq := rfl
  store := h1
  pairs := h2
  host := h4
  chip := h5
  safe := h6
  word _ _ := rfl
  cfg _ _ := rfl
  stat _ _ _ := rfl
  count _ _ _ := rfl
  pend _ _ h := h

/-- A counter of the collector other than those of the sources from 2 on counts. -/
theorem NestedKeeps.bump (s : State) (f : RegFam) (i j n : Nat) (h1 : 0x30000 ≤ f.addr i j) (h2 : f.addr i j < 0x31000 ∨
    (0x32000 ≤ f.addr i j ∧ f.addr i j < 0x32008)) : NestedKeeps s (s.bump f i j n).1 := by
  unfold State.bump
  split
  · exact .refl s
  · dsimp only
    split
    · exact .setReg _ _ _ _ _ h1 h2
    · exact .setReg _ _ _ _ _ h1 h2

theorem NestedKeeps.countWith (again : State → Nat → Nat → State) (s : State) (f : RegFam) (j : Nat) (h1 : 0x30000 ≤ f.addr 0 j)
    (h2 : f.addr 0 j < 0x31000 ∨ (0x32000 ≤ f.addr 0 j ∧ f.addr 0 j < 0x32008))
    (ha : ∀ t, NestedKeeps s t → NestedKeeps t (again t 0x00 devUnit)) : NestedKeeps s (s.countWith again f j) := by
  unfold State.countWith
  split
  · have hb := (NestedKeeps.bump s f 0 j 1 h1 h2).trans
      (NestedKeeps.setReg (s.bump f 0 j 1).1 Reg.FCL_SAT_LAST 0 0 (f.addr 0 j) (by decide) (by decide))
    exact hb.trans (ha _ hb)
  · exact .bump _ _ _ _ _ h1 h2

/-- Reactions of a mild mask. -/
theorem NestedKeeps.react (s : State) (src unit mask : Nat) (fresh : Bool) (h2 : mask.testBit 2 = false) (h3 : mask.testBit 3 = false)
    (h7 : mask.testBit 7 = false) : NestedKeeps s (s.react src unit mask fresh) := by
  unfold State.react
  simp only [h2, h3, h7, Bool.false_and, Bool.and_false, Bool.or_false, Bool.false_eq_true, if_false]
  exact .fcl s _ s.freeCtr rfl rfl rfl rfl rfl

theorem NestedKeeps.captureWith (again : State → Nat → Nat → State) (s : State) (src unit : Nat) (extra : List Byte)
    (ha : ∀ t n, n < 2 → NestedKeeps s t → NestedKeeps t (again t n devUnit)) : NestedKeeps s (s.captureWith again src unit extra) := by
  unfold State.captureWith
  dsimp only
  split
  · exact .countWith again s _ _ (by decide) (by decide) (fun t ht => ha t 0 (by omega) ht)
  · have hk : NestedKeeps s { s with fcl := { s.fcl with lastCap := SMap.put s.fcl.lastCap 0 (1024 * src + unit) (s.now + 1) } } :=
      .fcl s _ s.freeCtr rfl rfl rfl rfl rfl
    have hput : ∀ t : State, ∀ r, NestedKeeps t (t.putRecord r) := fun t r =>
      (NestedKeeps.setReg t Reg.FCL_SIG_NEXT 0 0 ((r.number + 1) % 2 ^ 32) (by decide) (by decide)).trans
        (.fcl _ _ t.freeCtr rfl rfl rfl rfl rfl)
    split
    · have hc := hk.trans (NestedKeeps.countWith again _ Reg.FCL_SIG_DROPPED 0 (by decide) (by decide)
        (fun t ht => ha t 0 (by omega) (hk.trans ht)))
      exact hc.trans (ha _ 1 (by omega) hc)
    · split
      · refine (hk.trans (hput _ (s.sigRec src unit extra))).trans ?_
        have := NestedKeeps.fcl (State.putRecord { s with fcl := { s.fcl with
          lastCap := SMap.put s.fcl.lastCap 0 (1024 * src + unit) (s.now + 1) } } (s.sigRec src unit extra)) _ (s.freeCtr + 1 + 1) rfl rfl rfl rfl rfl
        exact this
      · exact hk.trans (hput _ _)

/-- The value that a raise leaves in a source's status register. -/
theorem statWord_pending (w unit : Nat) (hu : unit < 1024) :
    let fresh := bitsOf w 31 31 == 0
    let v := if fresh then 2 ^ 31 + unit * 2 ^ 16 + unit else setBits w 9 0 unit
    bitsOf (v % 2 ^ 64) 31 31 = 1 ∧ bitsOf (v % 2 ^ 64) 9 0 = unit := by
  intro fresh v
  by_cases hf : bitsOf w 31 31 = 0
  · have hv : v = 2 ^ 31 + unit * 2 ^ 16 + unit := by simp [v, fresh, hf]
    rw [hv, Nat.mod_eq_of_lt (by omega)]
    have hq : (2147483648 + unit * 65536 + unit) / 2147483648 = 1 := Nat.div_eq_of_lt_le (by omega) (by omega)
    simp only [bitsOf, Nat.reducePow, Nat.reduceAdd, Nat.reduceSub, hq]
    exact ⟨by decide, by omega⟩
  · have hv : v = setBits w 9 0 unit := by simp [v, fresh, hf]
    rw [hv, setBits_low _ _ _ (by omega)]
    simp only [bitsOf] at hf ⊢
    omega

theorem nestedKeeps_raiseN (fuel : Nat) : ∀ (s : State) (src unit : Nat) (extra : List Byte), src < 2 → unit < 1024 → s.mild [] →
    NestedKeeps s (s.raiseN fuel src unit extra) := by
  induction fuel with
  | zero => intro s src unit extra _ _ _; exact .refl s
  | succ fuel ih =>
    intro s src unit extra hs hu hm
    have ha : ∀ t n, n < 2 → NestedKeeps s t → NestedKeeps t (State.raiseN fuel t n devUnit []) := fun t n hn ht =>
      ih t n devUnit [] hn (by decide) (ht.mild (by simp) hm)
    have hmask := hm src (by rcases Nat.lt_or_ge src 1 with h | h <;> [(have : src = 0 := by omega); (have : src = 1 := by omega)] <;> simp [this])
    have haddr : RegFam.addr Reg.FCL_SRCn_COUNT 0 src = 0x32000 + 4 * src := by simp [RegFam.addr, Reg.FCL_SRCn_COUNT]
    have hc := NestedKeeps.countWith (fun t a b => State.raiseN fuel t a b []) s Reg.FCL_SRCn_COUNT src (by omega) (by omega)
      (fun t ht => ha t 0 (by omega) ht)
    unfold State.raiseN State.raiseWith
    simp only
    generalize hw : (s.countWith (fun t a b => State.raiseN fuel t a b []) Reg.FCL_SRCn_COUNT src) = t at hc
    generalize hv : (if (s.rf Reg.FCL_SRCn_STAT 0 src 31 31 == 0) = true then 2 ^ 31 + unit * 2 ^ 16 + unit
      else setBits (s.reg Reg.FCL_SRCn_STAT 0 src) 9 0 unit) = v
    have hst : NestedKeeps s (t.setReg Reg.FCL_SRCn_STAT 0 src v) := by
      have hsa : ∀ n, RegFam.addr Reg.FCL_SRCn_STAT 0 n = 0x31004 + 8 * n := by simp [RegFam.addr, Reg.FCL_SRCn_STAT]
      have hca : ∀ n, RegFam.addr Reg.FCL_SRCn_COUNT 0 n = 0x32000 + 4 * n := by simp [RegFam.addr, Reg.FCL_SRCn_COUNT]
      have hga : ∀ n, RegFam.addr Reg.FCL_SRCn_CFG 0 n = 0x31000 + 8 * n := by simp [RegFam.addr, Reg.FCL_SRCn_CFG]
      refine hc.trans ⟨⟨rfl, rfl, rfl, rfl, rfl, rfl, ?_, ?_⟩, ?_, ?_, ?_⟩
      · intro a h; exact State.word_setReg_of_ne _ _ _ _ _ _ (by rw [hsa]; omega)
      · intro n hn; exact State.reg_setReg_of_ne _ _ _ _ _ _ _ _ (by rw [hsa, hga]; omega)
      · intro n h2 hn; exact State.reg_setReg_of_ne _ _ _ _ _ _ _ _ (by rw [hsa, hsa]; omega)
      · intro n h2 hn; exact State.reg_setReg_of_ne _ _ _ _ _ _ _ _ (by rw [hsa, hca]; omega)
      · intro n hn hp
        by_cases e : n = src
        · subst e
          unfold State.rf
          rw [State.reg_setReg_self, ← hv]
          exact (statWord_pending (s.reg Reg.FCL_SRCn_STAT 0 n) unit hu).1
        · unfold State.rf at hp ⊢
          rw [State.reg_setReg_of_ne _ _ _ _ _ _ _ _ (by rw [hsa, hsa]; omega)]
          exact hp
    have hre := hst.trans (NestedKeeps.react _ src unit _ (s.rf Reg.FCL_SRCn_STAT 0 src 31 31 == 0) hmask.1 hmask.2.1 hmask.2.2)
    split
    · exact hre.trans (.captureWith _ _ _ _ _ (fun t n hn ht => ha t n hn (hre.trans ht)))
    · exact hre

/-- A raise with mild reactions. -/
theorem State.raise_raised {s : State} {src unit : Nat} (hs : src < 256) (hu : unit < 1024) (hm : s.mild [src]) :
    Raised s (s.raise src unit) src unit := by
  have hm0 : s.mild [] := fun n hn => hm n (by
    rcases List.mem_cons.mp hn with rfl | hn
    · simp
    · rcases List.mem_cons.mp hn with rfl | hn
      · simp
      · simp at hn)
  have hsa : ∀ n, RegFam.addr Reg.FCL_SRCn_STAT 0 n = 0x31004 + 8 * n := by simp [RegFam.addr, Reg.FCL_SRCn_STAT]
  have hca : ∀ n, RegFam.addr Reg.FCL_SRCn_COUNT 0 n = 0x32000 + 4 * n := by simp [RegFam.addr, Reg.FCL_SRCn_COUNT]
  have hga : ∀ n, RegFam.addr Reg.FCL_SRCn_CFG 0 n = 0x31000 + 8 * n := by simp [RegFam.addr, Reg.FCL_SRCn_CFG]
  have hmask := hm src (by simp)
  have ha : ∀ t n, n < 2 → RaiseKeeps s t → NestedKeeps t (State.raiseN 4 t n devUnit []) := fun t n hn ht =>
    nestedKeeps_raiseN 4 t n devUnit [] hn (by decide) (ht.mild (by simp) hm0)
  unfold State.raise State.raiseN State.raiseWith
  simp only
  -- the source's own counter
  obtain ⟨t, hw, hc, hcnt, hpend⟩ : ∃ t, s.countWith (fun t a b => State.raiseN 4 t a b []) Reg.FCL_SRCn_COUNT src = t ∧ RaiseKeeps s t ∧
      (2 ≤ src → s.room Reg.FCL_SRCn_COUNT 0 src 1 → t.reg Reg.FCL_SRCn_COUNT 0 src = s.reg Reg.FCL_SRCn_COUNT 0 src + 1) ∧ True := by
    refine ⟨_, rfl, ?_, ?_, trivial⟩
    · have hput : ∀ v, RaiseKeeps s (s.setReg Reg.FCL_SRCn_COUNT 0 src v) := by
        intro v
        refine ⟨rfl, rfl, rfl, rfl, rfl, rfl, ?_, ?_⟩
        · intro a h; exact State.word_setReg_of_ne _ _ _ _ _ _ (by rw [hca]; omega)
        · intro n hn; exact State.reg_setReg_of_ne _ _ _ _ _ _ _ _ (by rw [hca, hga]; omega)
      unfold State.countWith State.bump
      dsimp only
      rw [if_neg (by omega : ¬ (1 : Nat) = 0)]
      split
      · dsimp only
        split
        · next h2 =>
            have hb := (hput 0xFFFFFFFF).trans (NestedKeeps.setReg (s.setReg Reg.FCL_SRCn_COUNT 0 src 0xFFFFFFFF) Reg.FCL_SAT_LAST 0 0
              (RegFam.addr Reg.FCL_SRCn_COUNT 0 src) (by decide) (by decide)).toRaiseKeeps
            exact hb.trans (ha _ 0 (by omega) hb).toRaiseKeeps
        · exact hput _
      · exact hput _
    · intro _ hr
      have hr' := hr
      unfold State.room at hr'
      unfold State.countWith State.bump
      simp only [show ¬ 0x7FFFFFFF ≤ s.rf Reg.FCL_SRCn_COUNT 0 src 30 0 + 1 by omega, if_false, show ¬ (1:Nat) = 0 by omega,
        Bool.false_eq_true]
      exact State.reg_bumped hr
  rw [hw]
  generalize hv : (if (s.rf Reg.FCL_SRCn_STAT 0 src 31 31 == 0) = true then 2 ^ 31 + unit * 2 ^ 16 + unit
    else setBits (s.reg Reg.FCL_SRCn_STAT 0 src) 9 0 unit) = v
  have hst : RaiseKeeps s (t.setReg Reg.FCL_SRCn_STAT 0 src v) := by
    refine hc.trans ⟨rfl, rfl, rfl, rfl, rfl, rfl, ?_, ?_⟩
    · intro a h; exact State.word_setReg_of_ne _ _ _ _ _ _ (by rw [hsa]; omega)
    · intro n hn; exact State.reg_setReg_of_ne _ _ _ _ _ _ _ _ (by rw [hsa, hga]; omega)
  have hre := NestedKeeps.react (t.setReg Reg.FCL_SRCn_STAT 0 src v) src unit _ (s.rf Reg.FCL_SRCn_STAT 0 src 31 31 == 0) hmask.1 hmask.2.1 hmask.2.2
  have key : ∀ u, NestedKeeps (t.setReg Reg.FCL_SRCn_STAT 0 src v) u → Raised s u src unit := by
    intro u hu'
    have hk := hst.trans hu'.toRaiseKeeps
    have hp := statWord_pending (s.reg Reg.FCL_SRCn_STAT 0 src) unit hu
    have hvv : (t.setReg Reg.FCL_SRCn_STAT 0 src v).reg Reg.FCL_SRCn_STAT 0 src = v % 2 ^ 64 := State.reg_setReg_self _ _ _ _ _
    refine ⟨hk.eq, hk.store, hk.pairs, ?_, ?_, ?_, ?_, hk.word⟩
    · rintro ⟨h1, h2, h3⟩
      exact ⟨hk.host.trans h1, hk.chip.trans h2, hk.safe.trans h3⟩
    · rcases Nat.lt_or_ge src 2 with h | h
      · apply hu'.pend src h
        unfold State.rf
        rw [hvv, ← hv]
        exact hp.1
      · unfold State.rf
        rw [hu'.stat src h hs, hvv, ← hv]
        exact hp.1
    · intro h
      unfold State.rf
      rw [hu'.stat src h hs, hvv, ← hv]
      exact hp.2
    · intro h hr
      rw [hu'.count src h hs, State.reg_setReg_of_ne _ _ _ _ _ _ _ _ (by rw [hsa, hca]; omega)]
      exact hcnt h hr
  split
  · refine key _ (hre.trans (.captureWith _ _ _ _ _ (fun u n hn hu' => ha u n hn ?_)))
    exact (hst.trans hre.toRaiseKeeps).trans hu'.toRaiseKeeps
  · exact key _ hre

/-- A raise with mild reactions in a calm state, as the answer of a meaning. -/
theorem finish_raise {s : State} {src unit : Nat} (hc : s.calm) (hs : src < 256) (hu : unit < 1024) (hm : s.mild [src]) :
    finish (s.raise src unit) = .next (s.raise src unit) ∧ Raised s (s.raise src unit) src unit := by
  have h := State.raise_raised hs hu hm
  obtain ⟨h1, h2, h3⟩ := h.2.2.2.1 hc
  exact ⟨by rw [finish_eq, State.settle_of_calm _ h1 h2 h3], h⟩

end Sys2Proof.Machine
end

