-- ==== Sys2Proof/Laws/Command.lean ====
section
/-! SUPPORT. What a host command and its answer can do (R390 to R392): an accepted command runs its meaning; an answer `OK` leaves the
collector as it was. -/

namespace Sys2Proof.Machine

theorem State.shutSession_fcl (s : State) (n : Nat) : (s.shutSession n).fcl = s.fcl := by
  unfold State.shutSession
  split
  · rfl
  · split
    · dsimp only
      split <;> rfl
    · rfl

theorem State.closeSession_fcl (s : State) (n r : Nat) : (s.closeSession n r).fcl = s.fcl := by
  unfold State.closeSession
  split
  · rfl
  · split
    · rfl
    · rw [State.shutSession_fcl]; rfl

theorem State.sendAnswer_fcl (s : State) (n : Nat) (bs : List Byte) : (s.sendAnswer n bs).fcl = s.fcl := by
  unfold State.sendAnswer
  split
  · rfl
  · dsimp only
    split
    · rw [State.closeSession_fcl]; rfl
    · rfl

/-- An answer `OK` leaves the collector as it was. -/
theorem State.answer_ok_fcl (s : State) (r : Reply) (d : List Byte) : (s.answer r stOk d).fcl = s.fcl := by
  unfold State.answer
  dsimp only
  rw [State.sendAnswer_fcl]
  simp [State.updSession]

/-- A rejection that has room in its counter leaves the collector as it was. -/
theorem State.answer_fcl_of_room (s : State) (r : Reply) (st : Nat) (d : List Byte) (h : s.room Reg.HPT_CMD_REJECT 0 0 1) :
    (s.answer r st d).fcl = s.fcl := by
  unfold State.answer
  dsimp only
  rw [State.sendAnswer_fcl]
  split
  · simp [State.updSession]
  · rw [State.err_of_room h]; rfl

/-- A command that passes every check runs its meaning on the state from which it has been taken. -/
theorem State.command_of_accepts {s : State} {h : Hdr} {r : CmdRow} {recov enc range : Bool} {x : Session}
    {run : State → Session → Reply → State} (ha : s.accepts h r recov enc range x) :
    s.command h r recov enc range run = finish (run (s.taken h) x (replyTo h r.op)) := by
  obtain ⟨h1, h2, h3⟩ := ha
  unfold State.command
  simp only [h1, h2, h3]
  rfl

/-- An accepted command of a calm state whose meaning ends in the answer `OK`. -/
theorem done_of_accepts {s : State} {h : Hdr} {r : CmdRow} {recov enc range : Bool} {x : Session}
    {run : State → Session → Reply → State} {u : State} {d : List Byte} (hc : s.calm) (ha : s.accepts h r recov enc range x)
    (hr : run (s.taken h) x (replyTo h r.op) = u.answer (replyTo h r.op) stOk d) (hu : u.fcl = s.fcl) :
    Done (s.command h r recov enc range run) h r.op u d := by
  unfold Done
  rw [State.command_of_accepts ha, hr]
  exact finish_of_calm hc (by rw [State.answer_ok_fcl, hu])

end Sys2Proof.Machine
end

