-- ==== Sys2Proof/Laws/Memory.lean ====
section
/-! SUPPORT. Device memory keeps its canonical form: one lemma for every operation that writes it (notes/assumptions/19.md), and the
spliced image of a streamed tile. -/

namespace Sys2Proof.Machine

theorem canonMem_wf (m : Mem) : Mem.wf (canonMem m) = true := by
  have h : ∀ (l : Mem) (u : Mem), Mem.wf u = true → Mem.wf (l.foldl (fun u c => SMap.put u 0 c.1 c.2) u) = true := by
    intro l
    induction l with
    | nil => exact fun _ h => h
    | cons c t ih => exact fun u hu => ih _ (SMap.wf_put c.1 c.2 hu)
  unfold canonMem
  split
  · assumption
  · split
    · assumption
    · exact h m [] Mem.wf_nil

theorem imageCells_wf (t : Tile) : Mem.wf (imageCells t) = true := Mem.wf_filter _ (canonMem_wf _)

/-- Cells that lie in a canonical memory below `n` take the place of the `n` bytes from `a` on. -/
theorem spliceMem_wf {m cells : Mem} (a n : Nat) (hm : Mem.wf m = true) (hc : Mem.wf cells = true) (hn : ∀ c ∈ cells, c.1 < n) :
    Mem.wf (spliceMem m a n cells) = true := by
  unfold Mem.wf at hm hc ⊢
  rw [SMap.wf_iff] at hm hc ⊢
  unfold spliceMem
  refine ⟨?_, ?_⟩
  · rw [List.pairwise_append, List.pairwise_append]
    refine ⟨⟨hm.1.sublist List.filter_sublist, ?_, ?_⟩, hm.1.sublist List.filter_sublist, ?_⟩
    · rw [List.pairwise_map]
      exact hc.1.imp (fun h => Nat.add_lt_add_right h a)
    · intro x hx y hy
      have h1 := (List.mem_filter.mp hx).2
      simp only [decide_eq_true_eq] at h1
      obtain ⟨z, _, rfl⟩ := List.mem_map.mp hy
      simp only
      omega
    · intro x hx y hy
      have h2 := (List.mem_filter.mp hy).2
      simp only [decide_eq_true_eq] at h2
      rcases List.mem_append.mp hx with hx | hx
      · have h1 := (List.mem_filter.mp hx).2
        simp only [decide_eq_true_eq] at h1
        omega
      · obtain ⟨z, hz, rfl⟩ := List.mem_map.mp hx
        have := hn z hz
        simp only
        omega
  · intro c h
    rcases List.mem_append.mp h with h | h
    · rcases List.mem_append.mp h with h | h
      · exact hm.2 c (List.mem_filter.mp h).1
      · obtain ⟨z, hz, rfl⟩ := List.mem_map.mp h
        exact hc.2 z hz
    · exact hm.2 c (List.mem_filter.mp h).1

theorem State.writeImage_mem_wf (s : State) (a : Nat) (t : Tile) (h : Mem.wf s.mem = true) : Mem.wf (s.writeImage a t).mem = true :=
  spliceMem_wf a 262144 h (imageCells_wf t) (fun c hc => by simpa using (List.mem_filter.mp hc).2)

theorem State.memWrite_mem_wf (s : State) (a : Nat) (bs : List Byte) (po : List Nat) (h : Mem.wf s.mem = true) :
    Mem.wf (s.memWrite a bs po).mem = true := Mem.wf_write a _ h

theorem State.spoilBlock_mem_wf (s : State) (a : Nat) (h : Mem.wf s.mem = true) : Mem.wf (s.spoilBlock a).mem = true :=
  Mem.wf_write _ _ h

theorem State.reset_mem_wf : Mem.wf State.reset.mem = true := Mem.wf_nil

@[simp] theorem State.writeImage_siteEn (s : State) (a : Nat) (t : Tile) : (s.writeImage a t).siteEn = s.siteEn := rfl
@[simp] theorem State.writeImage_regs (s : State) (a : Nat) (t : Tile) : (s.writeImage a t).regs = s.regs := rfl
@[simp] theorem State.spoilBlock_siteEn (s : State) (a : Nat) : (s.spoilBlock a).siteEn = s.siteEn := rfl

end Sys2Proof.Machine
end

