-- ==== Sys2Proof/Tests/Slice0.lean ====
section
/-! SUPPORT. The model's own tests: words written out from the spec's encodings, small steps, well-formedness, and for the hypotheses of every
statement a concrete state that meets them (`witness_…`). -/

namespace Sys2Proof.Tests

open Sys2Proof Sys2Proof.Machine

-- One after the other: every theorem here is evaluated by the kernel.
set_option Elab.async false

/-! ### Small states -/

/-- An instruction of site 0, always run, at loop level 0. -/
def wI : Issue := ⟨0, 0, 0, false⟩

/-- A core that issues. -/
def wCore : Core := { coreDefault with run := .issue }

/-- The machine after reset with one core, site 0, that is `c`. -/
def wAt (c : Core) : State := { State.reset with siteEn := 1, cores := [(0, c)] }

/-- The same with a core that issues. -/
def wS : State := wAt wCore

def wV : VecF := ⟨0, 0, 0, 0, 0, 0, 0, 0, 0⟩
def wA : AccF := ⟨0, 0, 0, 0, 0, 0, false, 0, 0, 0, 0, 0, 0, 0⟩
def wL : LdStF := ⟨0, 0, 0, 0⟩
def wM : MemF := ⟨0, 0, 0, 0, 0, 0⟩
def wG : GathF := ⟨0, 0, 0, 0, 0, 0⟩
def wD : SendF := ⟨0, 0, 0, 0, 0, 0, 0⟩
def wR : RecvF := ⟨0, 1, 0, 0, 0⟩
def wF : FillF := ⟨16, 0, 0⟩
def wE : EvalF := ⟨1, 3, 3, 2, false, false, 0, 0, 0, true, 0, 0⟩
def wX : RouteF := ⟨0, 0, 0, 0, 0, 64, 128⟩
def wT : AttF := ⟨0, 0, 0, 0, 0, 0, 0, 0, 1024, 0, 0⟩
def wB : BrgF := ⟨1, 0, 1, 0, false, 0, 0, 0, 0, 64⟩

/-- A packet for counter 1, address 0. -/
def wP : Packet := ⟨1, 0, List.replicate 64 0xAB, [], false, false⟩

/-- Reaction masks of the sources of a list cleared, so that a raise asks for nothing. -/
def quiet (s : State) (l : List Nat) : State := (0 :: 1 :: l).foldl (fun t n => t.setRf Reg.FCL_SRCn_CFG 0 n 15 8 0) s

/-! ### Witnesses: instructions -/

theorem witness_EmptyQueueTicksTheTimeBase : wS.pending = [] ∧ wS.pow.on = true ∧
    ({ wS with pow := { wS.pow with on := false } } : State).pow.on = false ∧ wS.flt.phase = 0 ∧
    ({ wS with flt := { wS.flt with phase := 130 } } : State).flt.phase = 130 ∧
    ({ wS with flt := { wS.flt with phase := -128 } } : State).flt.phase = -128 ∧
    wS.pow.booted = false ∧
    (let t : State := { wS.setReg Reg.HPT_LINK_STATE 0 0 1 with pow := { wS.pow with booted := true } }
     t.pending = [] ∧ t.pow.on = true ∧ t.pow.booted = true ∧ t.linkState = 1 ∧ t.flt.phase = 0) := by decide +kernel

theorem witness_IntegerAndPredicateResults : wS.runs wI ∧ wS.sysValue 0 8 = some 0 := by unfold State.runs; decide +kernel

theorem witness_ControlInstructionResults :
    let a : Core := { wCore with arms := [⟨1, 0, 64, 1, 1⟩], loops := [⟨0, 1, 2, 0⟩] }
    (wAt a).runs wI ∧ a.arms.find? (fun x => x.k == 0) = none ∧ a.arms.find? (fun x => x.k == 1) = some ⟨1, 0, 64, 1, 1⟩ ∧
    ({ wCore with arms := [⟨1, 0, 64, 1, 0⟩] } : Core).arms.find? (fun x => x.k == 1) = some ⟨1, 0, 64, 1, 0⟩ := by
  unfold State.runs; decide +kernel

theorem witness_MemoryReadsWhatWasWritten : Mem.wf [(4, 1), (9, 2)] = true := by decide +kernel

theorem witness_ElementwiseVectorResults : wS.runs wI ∧ vecFmt wV.t = some .fp32 ∧ F32.isNan 0x7FC00000 = true ∧
    F32.isNan 0x3F800000 = false ∧ Num.lt (F32.num 0x3F800000) (F32.num 0x40000000) = true := by unfold State.runs; decide +kernel

theorem witness_VectorGroupResults : wS.runs wI ∧ vecFmt wV.t = some .fp32 ∧ headDim (wV.aux.toNat % 4) = some 64 := by
  unfold State.runs; decide +kernel

theorem witness_ConversionInstructionResults : wS.runs wI ∧ wS.calm ∧ wV.t.toNat ≤ 1 ∧ wV.t2.toNat ≤ 5 ∧
    wS.room Reg.CNT_FP8_SAT 0 0 256 ∧ wS.room Reg.MEM_POISON_CONSUMED 0 0 1 ∧ wS.room Reg.CNT_ASCALE_CLAMP 0 0 1 ∧
    wS.room Reg.CNT_QUANT_NONFINITE 0 0 1 ∧ (quantise 1 [F32.one, 0x40000000]).2.2 = .none ∧ (quantise 1 [0x7F7FFFFF]).2.2 = .clamp ∧
    (quantise 4 [0x7F800000]).2.2 = .nonfinite := by unfold State.runs State.calm State.room; decide +kernel

theorem witness_AccumulatorInstructionResults : wS.runs wI ∧ wS.calm ∧ (wS.core 0).tilesFree [0, 0] ∧
    wS.room Reg.CNT_ACC_OVERFLOW 0 0 512 ∧ wS.room Reg.CNT_FP8_SAT 0 0 512 ∧ aresFmt 0 = some .fp32 := by
  unfold State.runs State.calm State.room Core.tilesFree; decide +kernel

theorem witness_ScratchpadMoves : wS.runs wI ∧ wS.calm ∧ wS.room Reg.MEM_POISON_CONSUMED 0 0 1 ∧ Mem.wf (wS.core 0).spm = true := by
  unfold State.runs State.calm State.room; decide +kernel

/-- A barge that decodes. -/
def wBarge : Barge := { bargeFree with state := .decode, length := 40, tenant := 1, generation := 1, promptLen := 8, runLen := 1, kvPolicy := 5 }

/-- A minimal image of a Single flight: an empty program on site 0, one layer of geometry, one reduction node. -/
def wImage : Image :=
  { head := ⟨1, 1, 0, 1, 0, (1, 1, 1), 1000, 2000, true, 0, 0, 0, 0, 0, [], 900, 950, 1000, 1, 256, false⟩
    cores := [⟨0, [2], [2], 2048⟩], normal := ⟨[⟨0, 1, 0, [0, 1]⟩], [⟨1, 0, 2, 0, 1⟩], []⟩,
    wide := ⟨[], [], []⟩, limits := [], caps := [], slots := [], plan := [⟨false, 0, 4, 0⟩], tiles := [], streams := [], widths := [],
    geoms := [⟨0, 1, 64, 1⟩], owners := [⟨0, 0, 0, 0⟩], devs := [⟨0, 512, 0, 0, 8, 8, 1⟩], sampling := [] }

/-- The machine with barge 0 in slot 0, the image active, and the pages of barge 0 given. -/
def wSlot (b : Barge) (l3 : SMap (BitVec 64)) : State :=
  { wS with slots := [(0, 1)], seq := { wS.seq with barges := [(0, b)] }, sched := ⟨some wImage, none⟩, kv := { wS.kv with l3 := l3 } }

/-- Page 0 of barge 0, layer 0, in FP8, in the near granules 100 and 101. -/
def wPages : SMap (BitVec 64) := [(vKey 0 0 0 0, pteMake 1 100 false 0 0 1 false), (vKey 0 0 0 1, pteMake 1 101 false 0 0 1 false)]

/-- What translation reads of that page. -/
def wPageAt : PageAt := ⟨1, 1, false, [(100, false), (101, false)], ((0, false), 0)⟩

/-- The same page with a pool of one near granule on each stack of die 0. -/
def wRcmp : State := (wSlot wBarge wPages).setReg Reg.MEM_KV_NEAR_GRAN 0 0 4

theorem witness_NetworkTraffic :
    (wS.runs wI ∧ wD.ddev.toNat = wS.devNo ∧ wS.siteOf wD.dcore.toNat = some 0 ∧ wS.devNo ≠ (⟨0, 5, 0, 0, 0, 0, 0⟩ : SendF).ddev.toNat) ∧
    wS.calm ∧ (wS.core 0).held.head? = none ∧
    ((wAt { wCore with held := [(3, wP)] }).runs wI ∧ (wAt { wCore with held := [(3, wP)] }).calm ∧ wP.addr + wP.data.length ≤ 0 + 64 ∧
      wR.sig.toNat = 0 ∧ ({ wR with sig := 1 } : RecvF).sig.toNat = wP.sig ∧ wP.secure = false ∧ wP.conflict = false ∧
      wS.rf Reg.RTR_FENCE 0 0 1 0 = 0 ∧ wS.rf Reg.SPM_PWR 0 0 9 8 = 0 ∧ wS.rf Reg.SPM_SECURE 0 0 0 0 = 0) ∧
    wS.enabled 0 = true ∧ (wS.core 0).arms.find? (fun a => a.k == wP.sig) = none ∧
    ({ wCore with arms := [⟨1, 0, 64, 1, 0⟩] } : Core).arms.find? (fun a => a.k == wP.sig) = some ⟨1, 0, 64, 1, 0⟩ := by
  unfold State.runs State.calm; decide +kernel

/-- Packets under way: the one of a site is the first to its destination, and behind another of the same way it is not. -/
theorem witness_NetworkArrival :
    let m : InFlight := ⟨0, 0, 1, 0, wP⟩
    let o : InFlight := ⟨0, 0, 1, 0, { wP with addr := 64 }⟩
    let s : State := { wAt { wCore with arms := [⟨1, 0, 64, 1, 0⟩] } with net := [m, o] }
    let t : State := { s with net := [o, m] }
    let r := ({ s with net := [{ m with source := 2, entry := 1 }] } : State).setRf Reg.RTR_FENCE 1 0 1 0 2
    s.underWay 0 wP = true ∧ firstOf [] s.net s.devNo 0 wP = some m ∧ s.way (.site 0) 0 false = .arrives 0 0 ∧
    firstOf [] t.net t.devNo 0 wP = none ∧ t.underWay 0 wP = true ∧ wS.underWay 0 wP = false ∧
    firstOf [] r.net r.devNo 0 wP = some { m with source := 2, entry := 1 } ∧ r.way (.site 0) 1 false = .fenced 1 ∧
    r.room Reg.RTR_FENCE_DROP 1 0 1 ∧
    (let v : State := { r with sched := ⟨some { wImage with normal := { wImage.normal with routes := [⟨0, .site 0, 3, 0⟩] } }, none⟩, regs := s.regs }
     v.way (.site 0) 1 false = .lost) := by unfold State.room; decide +kernel

theorem witness_MemoryTransfers : wS.runs wI ∧ wS.calm ∧ wS.latent = [] ∧ wS.memWay 0 0 = .arrives 0 1 ∧ wS.memWay 0 0x8000 = .arrives 68 1 ∧
    (let t := wS.setRf Reg.RTR_FENCE 1 0 1 0 2
     t.runs wI ∧ t.calm ∧ t.memWay 0 0x8000 = .fenced 1 ∧ t.room Reg.RTR_FENCE_DROP 1 0 1 ∧ inRegion 0x8000 64 = true) ∧
       inRegion (memfAddr wM 0) 64 = true ∧ inRegion 0x009FFFFFFFC0 64 = true ∧
    inRegion 0x009FFFFFFFC1 64 = false ∧ inRegion wG.mbase.toNat 1 = true ∧
    (∀ j ∈ wordsOf 4 ((wS.core 0).spRead 0 4), (inRegion (0 + j * 64) 64 && regionStart (0 + j * 64) == regionStart 0) = true) ∧
    (let t := quiet (wAt { wCore with spm := [(0, 1)] }) [0x24]
     t.runs wI ∧ t.calm ∧ t.mild [0x24] ∧ t.memWay 0 0x009FFFFFFFC0 = wS.memWay 0 0x009FFFFFFFC0 ∧
     ∃ j ∈ wordsOf 4 ((t.core 0).spRead 0 4), (inRegion (0x009FFFFFFFC0 + j * 64) 64 &&
       regionStart (0x009FFFFFFFC0 + j * 64) == regionStart 0x009FFFFFFFC0) = false) ∧
    inRegion 0x009FFFFFFFC0 1 = true ∧
    (wS.core 0).spPoisoned 0 4 = false ∧ Mem.wf wS.mem = true := by unfold State.runs State.calm State.mild State.room; decide +kernel

theorem witness_OnlyAbsentMemoryStops : wS.runs wI ∧ inRegion (memfAddr { wM with mbase := 0x00A000000000 } 0) 64 = false ∧
    inRegion (0x009FFFFFFFC0) 64 = true ∧ inRegion 0x009FFFFC0001 262144 = false ∧ inRegion 0x009FFFFC0000 262144 = true ∧
    inRegion 0x00A000000000 1 = false ∧ inRegion 0x009FFFFFFFFF 1 = true := by
  unfold State.runs; decide +kernel

theorem witness_GainByRowGroups : (List.replicate 1024 (1 : Int)).length = 1024 := by decide +kernel

/-- An array that fills from the image at 0. -/
def wFill (bad cut : Bool) : State :=
  wAt { wCore with arrs := [(17, { arrDefault with fill := some ⟨16, 17, 0, bad, cut, 0⟩ })], arrQ := [.fill 0 ⟨16, 17, 0, bad, cut, 0⟩] }

theorem witness_DescriptorAndFill : wS.runs wI ∧ wS.calm ∧ wS.latent = [] ∧ inRegion wF.mbase.toNat 262144 = true ∧
    (wF.mbase.toNat < farBase ∨ ([3] : List Nat) = []) ∧ wS.memPoisoned 0 0 262144 = false ∧
    (wS.core 0).arrQ = [] ∧ ((wS.core 0).arr (wS.phys 0 16)).fill = none ∧ (wS.core 0).evals.any (fun e => e.selects (wS.phys 0 16)) = false ∧
    ((wFill false false).core 0).headWaits = true ∧ ((wFill false false).core 0).arrQ.length < 8 ∧ (wFill false false).runs wI ∧
    ({ wCore with arrQ := List.replicate 8 (.desc 0 3 ⟨3, 0, 0⟩) } : Core).arrQ.length = 8 ∧
    (∀ p ∈ [(false, false), (true, false), (false, true)],
      let t := wFill p.1 p.2
      t.calm ∧ t.phys 0 16 = 17 ∧ ((t.core 0).arr 17).fill = some ⟨16, 17, 0, p.1, p.2, 0⟩ ∧
      ({ t.core 0 with arrQ := [] } : Core).arrQ = []) := by
  unfold State.runs State.calm; decide +kernel

/-- Every part of the image at 0 has a way to the core. -/
theorem witness_FillArrives : (List.range 64).all (fun k =>
    match wS.memWay 0 (0 + 4096 * k) with
    | .arrives r _ => decide (wS.way (.site 0) r true = .arrives 0 0)
    | _ => false) = true := by decide +kernel

/-- An array with an audit drawn. -/
def wArr : Arr := { arrDefault with draw := some ⟨3, false, false⟩ }

/-- What one array of an evaluation drives, with the operand all ones. -/
def wEvA : EvalArr := ⟨0, 0, .gen 0 0, false, false, List.replicate 1024 1, 0x3C00, [0], [1024], [], [], [], []⟩

theorem witness_EvaluationRunsAndDelivers :
    let s := wAt { wCore with arrs := [(0, wArr)] }
    let e := s.evalArr 0 wE 1 0 0
    s.runs wI ∧ s.calm ∧ subPhases wE.sc = some 4 ∧ subPhases 0 = some 1 ∧ maskArrays wE.amask = [0] ∧
    ((s.core 0).arr e.phys).fill = none ∧ (s.core 0).arrQ = [] ∧ (s.core 0).evals = [] ∧ ((s.core 0).arr e.phys).draw.isSome = true ∧
    (s.core 0).spPoisoned (64 * ((s.core 0).descAt e.la).oaddr) (olistBytes ((s.core 0).descAt e.la).ocount) = false ∧
    (s.core 0).spPoisoned 0 1088 = false ∧ ((wS.core 0).arr 0).draw = none ∧ ((wS.core 0).arr 0).suspended = false ∧ (wS.core 0).substs = [] ∧
    ((wFill false false).core 0).headWaits = true ∧ ((wFill false false).core 0).arrQ.length < 8 := by unfold State.runs State.calm; decide +kernel

theorem witness_EvaluationDelivers :
    let e : EvalIn := ⟨{ wE with sc := 0 }, 1, 1, 0, false, 0, [wEvA]⟩
    let s := wAt { wCore with run := .barrier, evals := [e], auditCtl := 0 }
    s.calm ∧ bitsOf (s.core 0).auditCtl 0 0 = 0 ∧ (s.core 0).evals = [e] ∧ (s.core 0).arrQ = [] ∧ (e.arrays.map (fun a => a.phys)).Nodup ∧
    s.room Reg.CNT_ACC_OVERFLOW 0 0 0 := by unfold State.calm State.room; decide +kernel

theorem witness_ExpertRouting : wS.runs wI ∧ wS.calm ∧ (wS.core 0).spPoisoned wX.scores.toNat 4 = false ∧
    (wS.core 0).spPoisoned wX.occ.toNat 6 = false ∧ wS.room Reg.CNT_EXPERT_OVERFLOW 0 0 1 ∧
    [((0 : Nat), (F32.one : F32)), (1, 0)].Nodup := by unfold State.runs State.calm State.room; decide +kernel

/-- A flit of use 0 of tree 1, as its record says. -/
def wFlit : RedFlit := ⟨1, 0, 2, 0, 1, 0, List.replicate 64 (0, 0)⟩

theorem witness_ReductionTraffic :
    wS.runs wI ∧ (wS.core 0).redHold = [] ∧ ((1 : Nat), (0 : Nat)) ∉ (wS.core 0).redIn ∧
    ((1 : Nat), (0 : Nat)) ∈ ({ wCore with redIn := [(1, 0)] } : Core).redIn ∧ wS.canIssue 0 = true ∧ (wS.core 0).tilesFree [0] ∧
    (let s : State := { wS with sched := ⟨some wImage, none⟩ }
     s.calm ∧ s.rf Reg.RTR_FENCE 0 0 1 0 ≠ 2 ∧ s.redNode 0 wFlit.tree = some ⟨0, 1, 0, [0, 1]⟩ ∧ s.stray 0 1 wFlit = false ∧
     (s.core 0).reds.find? (fun y => y.tree == 1 && y.use == 0) = none ∧ childFlits [0, 1] [(1, wFlit)] 0 = none ∧
     s.stray 0 2 wFlit = true) := by unfold State.runs State.calm Core.tilesFree; decide +kernel

theorem witness_MeshCoordinates : 1 < 2 ∧ 3 < 4 ∧ 16 < 17 := by decide

theorem witness_AttentionRun :
    let s := wSlot wBarge wPages
    wS.runs wI ∧ wS.calm ∧ wS.latent = [] ∧ wS.attBarge 0 wT = none ∧ headDim wT.dh.toNat = some 64 ∧ s.runs wI ∧ s.calm ∧ s.attBarge 0 wT = some 0 ∧
    s.geom 0 = some ⟨0, 1, 64, 1⟩ ∧ (s.core 0).spPoisoned 0 128 = false ∧
    (let t := wSlot { wBarge with length := 31 } wPages
     t.runs wI ∧ visitPages 1 0 (min (31 + 0 + 0) (2 ^ 20 - 1)) = [0] ∧ t.kv.page 0 0 0 = some wPageAt ∧
     (t.walk 0 0 0).any (fun w => t.memPoisoned 0 w 8) = false ∧ (t.barge 0).tenant = 1 ∧
     t.failedUnits (wPageAt.ranges 1 64 [0] (visitCount 0 31)) [] = [] ∧ t.kvPoison 0 (wPageAt.ranges 1 64 [0] (visitCount 0 31)) = false) ∧
    (let t := quiet (wSlot { wBarge with length := 31 } []) [0x41]
     t.runs wI ∧ t.calm ∧ t.mild [0x41] ∧ t.attBarge 0 wT = some 0 ∧ t.kv.page 0 0 0 = none ∧
     (t.walk 0 0 0).any (fun w => t.memPoisoned 0 w 8) = false) ∧
    0 < 1 := by unfold State.runs State.calm State.mild; decide +kernel

theorem witness_KeyValuePages :
    let s := wSlot { wBarge with length := 31 } wPages
    let r := wSlot wBarge wPages
    wS.attBarge 0 wT = none ∧ s.runs wI ∧ s.calm ∧ s.latent = [] ∧ r.latent = [] ∧ (s.kv.page 0 0 0).map (fun p => p.tenant) = some 1 ∧
      headDim wT.dh.toNat = some 64 ∧ s.attBarge 0 wT = some 0 ∧ s.geom 0 = some ⟨0, 1, 64, 1⟩ ∧
    (31 + 0 + 0) / 32 % 1 = wT.pph.toNat ∧ (s.kv.page 0 0 0).map (fun p => p.fmt) = some 1 ∧ (s.barge 0).tenant = 1 ∧
    (s.walk 0 0 0).any (fun w => s.memPoisoned 0 w 8) = false ∧ (r.walk 0 0 0).any (fun w => r.memPoisoned 0 w 8) = false ∧
    (s.core 0).spPoisoned 0 256 = false ∧
    s.room Reg.CNT_FP8_SAT 0 0 8192 ∧ s.room Reg.CNT_KV_SCALE_CLAMP 0 0 8192 ∧ s.room Reg.CNT_QUANT_NONFINITE 0 0 8192 ∧
    (31 + 32 + 0) / 32 % 2 ≠ ({ wT with poff := 32, psm1 := 1 } : AttF).pph.toNat ∧
    ({ wBarge with kvPolicy := 1 } : Barge).kvPolicy.testBit 2 = false ∧ r.runs wI ∧ r.calm ∧ (r.barge 0).kvPolicy.testBit 2 = true ∧
    (visitPages 1 0 40).filter (fun k => decide (32 * (k * 1 + 0) + 31 + 0 < 40)) = [0] ∧
    r.kv.page 0 0 0 = some wPageAt ∧ r.kv.busy 0 0 0 = false ∧ r.editNames 0 = false := by
  unfold State.runs State.calm State.room; decide +kernel

theorem firstFree_one (cand : Nat → Nat) (cnt start fuel : Nat) (used : List Nat) (hc : cnt = 1) (h : used.contains (cand 0) = false) :
    firstFree cand cnt start (fuel + 1) used = some (cand 0) := by
  subst hc; simp only [firstFree, Nat.mod_one, h]; simp

theorem nearOn_one (s : State) (die k : Nat) (taken : List Nat) (c : Nat) (h1 : s.rf Reg.MEM_STACKs_STATE (4 * die + k) 0 2 0 ≠ 3)
    (h2 : (min ((s.pool false).1 + (s.pool false).2) ((die + 1) * halfGranules) - die * halfGranules + 3 - k) / 4 -
      (max (s.pool false).1 (die * halfGranules) - die * halfGranules + 3 - k) / 4 = 1)
    (h3 : die * halfGranules + 4 * ((max (s.pool false).1 (die * halfGranules) - die * halfGranules + 3 - k) / 4 + 0) + k = c)
    (h4 : (taken ++ s.kv.used false).contains c = false) : s.nearOn die k taken = some c := by
  subst h3
  simp only [State.nearOn, if_neg h1]
  exact firstFree_one _ _ _ _ _ h2 h4

theorem allocNear_first (s : State) (die : Nat) (taken : List Nat) (f : Nat)
    (h : s.nearOn die (SMap.get s.kv.rotor 0 die % 4) taken = some f) : s.allocNear die taken = some (f,
      { s with freeCtr := s.freeCtr + 1,
               kv := { s.kv with rotor := SMap.put s.kv.rotor 0 die ((SMap.get s.kv.rotor 0 die % 4 + 1) % 4) } }) := by
  unfold State.allocNear
  simp only [List.range_succ_eq_map, List.range_zero, List.map, List.cons_append, List.findSome?_cons, Nat.add_zero, h, Option.map_some]
  simp [State.nextFree]

/-- The recompression of `witness_KeyValuePages` finds a granule and a scale slot. -/
theorem witness_Recompression : wRcmp.mild [] ∧ wRcmp.kvPoison 0 (wPageAt.ranges 1 64 [0] 32) = false ∧
    ∃ fr t1 sc t2, wRcmp.allocNear 0 [] = some (fr, t1) ∧ t1.allocSlot false 0 [(fr, false)] = some (sc, t2) := by
  have h0 : wRcmp.nearOn 0 (SMap.get wRcmp.kv.rotor 0 0 % 4) [] = some 0 :=
    nearOn_one _ _ _ _ _ (by decide +kernel) (by decide +kernel) (by decide +kernel) (by decide +kernel)
  let t : State := { wRcmp with freeCtr := 1, kv := { wRcmp.kv with rotor := [(0, 1)] } }
  have ht : wRcmp.allocNear 0 [] = some (0, t) := allocNear_first _ _ _ _ h0
  have h1 : t.nearOn 0 (SMap.get t.kv.rotor 0 0 % 4) [0] = some 1 :=
    nearOn_one _ _ _ _ _ (by decide +kernel) (by decide +kernel) (by decide +kernel) (by decide +kernel)
  have hs : t.kv.scaleSlots = [] := by decide +kernel
  have ha : ∃ x, t.allocSlot false 0 [(0, false)] = some x := by
    have hg : granulesIn false [((0 : Nat), false)] = [0] := by decide
    simp only [State.allocSlot, hs, List.flatMap_nil, List.getElem?_nil, hg, allocNear_first t 0 [0] 1 h1]
    exact ⟨_, rfl⟩
  obtain ⟨x, hx⟩ := ha
  exact ⟨by unfold State.mild; decide +kernel, by decide +kernel, 0, t, x.1, x.2, ht, hx⟩

theorem witness_MergeAndFinish : wS.runs wI ∧ wS.calm ∧ headDim wT.dh.toNat = some 64 ∧ headDim 2 = some 256 ∧
    wS.room Reg.MEM_POISON_CONSUMED 0 0 1 ∧ (emptyPartial 64).m = negInf ∧ (⟨[0], 0, F32.one⟩ : Partial).m ≠ negInf := by
  unfold State.runs State.calm State.room; decide +kernel

theorem witness_BargeReads : wS.runs wI ∧ wS.calm ∧ wS.brgBarge 0 wB 0 = none ∧ (wSlot wBarge []).runs wI ∧
    (wSlot wBarge []).brgBarge 0 wB 0 = some 0 ∧ 1023 < ({ wCore with g := [(1, 1024)] } : Core).brgSlot { wB with srcg := true, gs := 1 } 0 := by
  unfold State.runs State.calm; decide +kernel

theorem witness_AcceptanceIsStaged :
    let s := wSlot { wBarge with runLen := 2 } []
    s.runs wI ∧ s.calm ∧ s.brgBarge 0 wB 0 = some 0 ∧ (s.barge 0).dNow = 1 ∧ (s.core 0).spPoisoned 0 8 = false ∧
    (s.core 0).spPoisoned 64 4 = false := by unfold State.runs State.calm; decide +kernel

theorem witness_SteeringAndSampling :
    let s := wSlot { wBarge with variant := 1 } []
    let t : State := { s with seq := { s.seq with variants := [(1, ⟨true, false, 1, 1, [⟨F32.one, [0x3C00]⟩], 0⟩)] } }
    (wSlot wBarge []).runs wI ∧ (wSlot wBarge []).calm ∧ (wSlot wBarge []).brgBarge 0 wB 0 = some 0 ∧ wBarge.variant = 0 ∧
    t.runs wI ∧ t.calm ∧ t.brgBarge 0 wB 0 = some 0 ∧ (t.variant 1).data[wB.x8.toNat]? = some ⟨F32.one, [0x3C00]⟩ ∧ t.poison = [] ∧
    (∀ k, k < 8 → t.rf Reg.MEM_STACKs_STATE k 0 2 0 ≠ 3) ∧ (t.core 0).spPoisoned 0 (4 * 256) = false ∧
    (t.core 0).spPoisoned 0 8 = false ∧ F32.isZero (F32.ofF16 wBarge.temp) = true ∧
    (∃ c ∈ [((5 : Nat), (F32.nan : F32))], F32.isNan c.2 = true) ∧ ∀ c ∈ [((5 : Nat), (F32.one : F32))], F32.isNan c.2 = false := by
  unfold State.runs State.calm; decide +kernel

theorem witness_EmitHandsOn :
    let s := wSlot wBarge []
    let t : State := { s with seq := { s.seq with accepts := [⟨0, 1, [7], false⟩] } }
    let u : State := { t with seq := { t.seq with outbox := [(0, [7])], accepts := [⟨0, 1, [7], true⟩] } }
    let v : State := { t with seq := { t.seq with sampled := [(0, true)] } }
    s.calm ∧ s.seq.accepts.find? (fun z => z.slot == 0 && !z.emitted) = none ∧ s.seq.outbox = [] ∧
    t.runs wI ∧ t.brgBarge 0 wB 0 = some 0 ∧ t.seq.accepts.find? (fun z => z.slot == 0 && !z.emitted) = some ⟨0, 1, [7], false⟩ ∧
    t.unsampled 0 = true ∧ v.unsampled 0 = false ∧ u.waitsBelow wBarge.session 0 = false ∧ v.noToken 0 = false ∧ wBarge.stepSlot 0 = true ∧
    ({ v with seq := { v.seq with sampled := [(0, false)] } } : State).noToken 0 = true ∧
    wBarge.state = .decode ∧ ({ wBarge with length := 1048575 } : Barge).length < 1048576 ∧ ({ wBarge with maxNew := 5 } : Barge).maxNew ≠ 0 := by
  unfold State.runs State.calm; decide +kernel

/-- An arbitration of one column of array 0. -/
def wArb : Arb := ⟨0, [⟨3, 3, 0, 5, 0, [1], [1]⟩], wEvA, { wE with sc := 0 }, 1, 1, [], 0, 0, F32.one, false, none, none, 0, false, false, none, []⟩

theorem witness_AuditsAndVerdicts :
    let p : State := { State.reset with siteEn := 3, cores := [(0, { wCore with window := true, arbs := [wArb], arrs := [(0, { wArr with holds := .gen 0 0 })] })] }
    let s := (p.setRf Reg.SLU_PEER 0 0 31 31 1).setRf Reg.SLU_PEER 0 0 9 0 1
    let r := { wArb with running := true, checker2 := some 1 }
    s.calm ∧ ((s.core 0).arr 0).draw = some ⟨3, false, false⟩ ∧ (s.core 0).window = true ∧
    (s.core 0).arbs.find? (fun b => (s.secondChecker 0 b).isSome) = some wArb ∧ (∀ b ∈ (s.core 0).arbs, b.running = false) ∧
    [r].find? (fun b => b.running && b.c2.isEmpty) = some r ∧ r.checker2 = some 1 ∧
    ([{ r with c2 := [5] }].find? (fun b => b.running && !b.c2.isEmpty)).isSome = true ∧
    wArb.replaced = false ∧ ((s.core 0).arr 0).fill = none ∧ ((s.core 0).arr 0).holds = wArb.ev.holds ∧
    ({ wArb with replaced := true } : Arb).replaced = true ∧
    s.masterLost ((s.core 0).arr 0).holds = false ∧
    ({ s with gens := [{ genReset with noMaster := [0] }, genReset] } : State).masterLost ((s.core 0).arr 0).holds = true ∧
    verdictOf ⟨3, 3, 0, 5, 0, [1], [1]⟩ 5 none = .transient ∧ (5 : Int) ≠ 6 := by unfold State.calm; decide +kernel

/-! ### Witnesses: the host, the flight -/

/-- Keys of zeros. -/
def wKeys : SessionKeys :=
  let k : List Byte := List.replicate 16 0
  let v : List Byte := List.replicate 12 0
  ⟨k, k, k, v, v, v⟩

/-- A session with empty streams. -/
def wSession (n : Nat) (ver : BitVec 8) (r : Role) : Session :=
  ⟨n, ver, r, true, 0, false, 0, wKeys, ⟨[], 0, [1], [2]⟩, ⟨1, [], 0, []⟩, ⟨1, [], []⟩, ⟨1, [], []⟩, 1, [], [], false, false⟩

/-- The machine booted, its link up, a flight of one device formed with the image active, an operator's session 15360 and the sessions 0
(version 2) and 1 (version 1.1) of tenant 1. -/
def wH : State :=
  let s : State := { State.reset with
    pow := { State.reset.pow with booted := true }, siteEn := 1, cores := [(0, wCore)], sched := ⟨some wImage, none⟩
    hpt := { State.reset.hpt with sessions := [wSession 15360 0x20 .operator, wSession 0 0x20 (.tenant 1), wSession 1 0x11 (.tenant 1)] } }
  (((s.setReg Reg.PWR_STATE 0 0 0).setReg Reg.HPT_LINK_STATE 0 0 3).setReg Reg.FLK_FLIGHT_STATE 0 0 2).setReg Reg.SEQ_ROLE 0 0 0

/-- The same without a flight and without a schedule. -/
def wU : State := { wH.setReg Reg.FLK_FLIGHT_STATE 0 0 0 with sched := ⟨none, none⟩ }

/-- The header of an operator's and of a tenant's command. -/
def wO : Hdr := ⟨15360, 5⟩
def wN : Hdr := ⟨0, 6⟩
def wP1 : Hdr := ⟨1, 7⟩

/-- What a header's session is. -/
def wOs : Session := wSession 15360 0x20 .operator
def wNs : Session := wSession 0 0x20 (.tenant 1)
def wPs : Session := wSession 1 0x11 (.tenant 1)

/-- A reply that waits. -/
def wReply (op : Nat) : Reply := ⟨15360, op, 5⟩

def wSub : SubmitF := ⟨1, 0, 0, 0, 0, 0, 2, 4, 0xFFFFFF, 0, 0xFFFFFF, 0, 0x3C00, 1⟩

theorem witness_FlightCommandsAreQueued : wH.calm ∧
    (∀ op ∈ [0x0140, 0x0141, 0x0142, 0x0143, 0x0144, 0x0145, 0x0146, 0x0150, 0x0151], wH.accepts wN (tenantRow op) false true true wNs) ∧
    wH.flightState ≠ 3 ∧
    (let t := wH.setReg Reg.FLK_FLIGHT_STATE 0 0 3
     t.calm ∧ t.flightState = 3 ∧ t.accepts wN (tenantRow 0x0142) false true true wNs ∧ t.accepts wN (tenantRow 0x0141) false true true wNs) ∧
    wH.varShapeOk 1 524 [⟨0, List.replicate 256 0⟩] = true ∧
    (∀ op ∈ [0x0122, 0x0132], wH.accepts wO (opEntryRow op) false true true wOs) ∧ wH.inFlight = true ∧ wH.reg Reg.FLK_LOCKAGE 0 0 < 1 ∧
    (∀ e ∈ wH.seq.barges, e.2.state = .free) ∧ (∀ op ∈ [1, 2], wH.accepts wP1 (tenantRow op) false true true wPs) ∧
    wH.seq.compatNow.testBit 31 = true ∧
    (let t : State := { wH with seq := { wH.seq with barges := [(3, { wBarge with compat := true, session := 1, request := 9 })] } }
     t.accepts wP1 (tenantRow 2) false true true wPs ∧ t.seq.barges.filter (fun e => e.2.compat && e.2.session == 1 && e.2.request == 9) =
       [(3, { wBarge with compat := true, session := 1, request := 9 })]) := by
  unfold State.calm State.accepts; decide +kernel

theorem witness_Submissions :
    wSub.pad = 0 ∧ wSub.prio.toNat ≤ 7 ∧ wSub.kvPolicy.toNat < 8 ∧ wSub.variant.toNat < 4096 ∧ wSub.topK.toNat < 4096 ∧ wSub.stop.toNat < 2 ^ 24 ∧
    wSub.itl.toNat < 2 ^ 24 ∧ wSub.depthMax.toNat ≤ 7 ∧ ([3, 3] : List (BitVec 32)).length = wSub.promptLen.toNat ∧
    (3 : BitVec 32).toNat < wH.vocab ∧
    (let r : Vx20Rec := ⟨0x0102, 7, 1, 9, 2, 4, 0xFFFFFFFF, 0, 0, 0x3C00, 0, 0, 1⟩
     r.version = 0x0102 ∧ r.flags.toNat ≤ 1 ∧ r.pad = 0 ∧ 2 = r.promptLen.toNat ∧ r.promptLen.toNat ≤ 1048575 ∧ r.prio.toNat ≤ 7 ∧
     (r.stop.toNat < 0xFFFFFF ∨ r.stop = 0xFFFFFFFF)) := by decide +kernel

theorem witness_AnswersLeaveInOrder : wH.session (wReply 0x101).session = some wOs ∧ wOs.ans.waiting = [] ∧ wOs.ans.sent.length < 1024 ∧
    wOs.ans.next < 0xFFFFFFFE ∧ (answerBytes 0x101 5 stOk [1, 2, 3, 4]).length ≤ wH.maxPayload false ∧
    wH.room Reg.HPT_CMD_REJECT 0 0 1 := by unfold State.room; decide +kernel

theorem witness_RegisterReads :
    let a := Reg.FLK_FORM.addr 0 0
    let w := Reg.FLK_TIME.addr 0 0
    let t : State := { wH with hpt := { wH.hpt with sessions := [{ wOs with ver := 0x11 }] } }
    wH.calm ∧ a % 4 = 0 ∧ wH.addrOk a = true ∧ regAt a = some (Reg.FLK_FORM, 0, 0, 0) ∧ Reg.FLK_FORM.wide = false ∧
    wH.accepts wO (opRowM 0x0101) (recoveryReads a 1) true true wOs ∧ t.accepts wO (opRowM 0x0003) false true true { wOs with ver := 0x11 } ∧
    regAt w = some (Reg.FLK_TIME, 0, 0, 0) ∧ regAt (w + 4) = some (Reg.FLK_TIME, 0, 0, 1) ∧ Reg.FLK_TIME.wide = true ∧
    wH.addrOk (w + 4) = true ∧ wH.accepts wO (opRowM 0x0101) (recoveryReads w 2) true true wOs := by
  unfold State.calm State.accepts; decide +kernel

theorem witness_ErrorCounterReads :
    let e := Reg.CNT_FP8_SAT.addr 0 0
    regAt 0x2FFFC = none ∧ wH.addrOk 0x2FFFC = true ∧ e % 4 = 0 ∧ wH.addrOk e = true ∧ regAt e = some (Reg.CNT_FP8_SAT, 0, 0, 0) ∧
    Reg.CNT_FP8_SAT.wide = false ∧ Reg.CNT_FP8_SAT.fields = Reg.errFields ∧ Reg.CNT_FP8_SAT.base ≠ Reg.HKA_QUEUE.base ∧
    Reg.FLK_FORM.fields.all (fun y => y.acc != .rsc) = true ∧ wH.pow.booted = true := by decide +kernel

theorem witness_RegisterWrites :
    let f := Reg.FLK_DIGEST_PERIOD
    let a := f.addr 0 0
    let w : RegWr := ⟨f, 0, 0, 256⟩
    wH.calm ∧ wH.pow.booted = true ∧ regAt a = some (f, 0, 0, 0) ∧ f.wide = false ∧ wH.addrOk a = true ∧
    w.fieldsOk = true ∧ w.rangeOk = true ∧ wH.ownRule (wH.plainWrite w) w = stOk ∧
    f.base ∉ [Reg.FLK_FORM.base, Reg.FLK_COORD.base, Reg.SPM_PWR.base, Reg.SPM_MARCH.base, Reg.FCL_SIG_ERASE.base,
      Reg.FCL_CHIP_RESET.base, Reg.HPT_CTL.base] ∧
    wH.accepts wO (opRowM 0x0102) false true true wOs ∧ (wH.taken wO).ownRule ((wH.taken wO).plainWrite w) w = stOk ∧
    f.fields.Pairwise (fun a b => a.hi < b.lo ∨ b.hi < a.lo) ∧ (∀ y ∈ f.fields, y.lo ≤ y.hi ∧ y.hi < 64) ∧
    wH.addrOk 0x800000 = false ∧ (⟨f, 0, 0, 2 ^ 31⟩ : RegWr).fieldsOk = false ∧
    (⟨f, 0, 0, 0⟩ : RegWr).fieldsOk = true ∧ (⟨f, 0, 0, 0⟩ : RegWr).rangeOk = false := by unfold State.calm State.accepts; decide +kernel

theorem witness_WideRegister :
    let f := Reg.MEM_KV_PT_BASE
    let a := f.addr 0 0
    let w : RegWr := ⟨f, 0, 0, 2 ^ 21⟩
    f.wide = true ∧ regAt a = some (f, 0, 0, 0) ∧ regAt (a + 4) = some (f, 0, 0, 1) ∧ wH.addrOk a = true ∧ wH.addrOk (a + 4) = true ∧
    w.fieldsOk = true ∧ w.rangeOk = true ∧ wH.ownRule (wH.plainWrite w) w = stOk ∧ (wH.taken wO).ownRule ((wH.taken wO).plainWrite w) w = stOk := by
  decide +kernel

/-- Registers with an effect of their own, a rejection by a register's own rule, and fields of every access. -/
theorem witness_OwnRules :
    let w : RegWr := ⟨Reg.FLK_FORM, 0, 0, 0x0011⟩
    let r : RegWr := ⟨Reg.ARY_CAL_METHOD, 0, 0, 0⟩
    let c : RegWr := ⟨Reg.HPT_CTL, 0, 0, 2⟩
    (wU.pow.booted = true ∧ regAt (Reg.FLK_FORM.addr 0 0) = some (Reg.FLK_FORM, 0, 0, 0) ∧ wU.addrOk (Reg.FLK_FORM.addr 0 0) = true ∧
      w.fieldsOk = true ∧ w.rangeOk = true ∧ wU.ownRule (wU.plainWrite w) w = stOk ∧
      wU.accepts wO (opRowM 0x0102) false true true wOs ∧ (wU.taken wO).ownRule ((wU.taken wO).plainWrite w) w = stOk) ∧
    (r.fieldsOk = true ∧ r.rangeOk = true ∧ wH.ownRule (wH.plainWrite r) r = stBusy ∧
      (wH.taken wO).ownRule ((wH.taken wO).plainWrite r) r = stBusy ∧ stBusy ≠ stOk ∧ stBusy ≠ stHoldup) ∧
    (c.fieldsOk = true ∧ c.rangeOk = true ∧ c.value.testBit 0 = false ∧ wH.ownRule (wH.plainWrite c) c = stOk) ∧
    Reg.FCL_CHIP_RESET.fields.all (fun y => y.acc == .wo) = true ∧ Reg.FCL_SRCn_STAT.fields.any (fun y => y.acc == .w1c) = true := by
  unfold State.accepts; decide +kernel

/-- Reads over more than a register, of no register, of a queue that holds an entry, and of version 1.1. -/
theorem witness_OtherReads :
    let t : State := { wH with hpt := { wH.hpt with sessions := [{ wOs with ver := 0x11 }] } }
    wH.accepts wO (opRowM 0x0101) (recoveryReads 0x2FFFC 1) true true wOs ∧
    wH.accepts wO (opRowM 0x0101) (recoveryReads 0x7FFFFC 256) true true wOs ∧ wH.addrOk (0x7FFFFC + 4 * 1) = false ∧
    t.accepts wO (opRowM 0x0003) false true true { wOs with ver := 0x11 } ∧
    ({ wH with sense := { wH.sense with queue := [⟨1, 5, 3, 77⟩] } } : State).sense.queue = [⟨1, 5, 3, 77⟩] ∧ wH.sense.queue = [] := by
  unfold State.accepts; decide +kernel

theorem witness_SecurityRegistersRejectWrites : wH.calm ∧ wH.pow.booted = true ∧ 0x70000 ≤ 0x7FFFC ∧ 0x7FFFC < 0x80000 ∧
    wH.accepts wO (opRowM 0x0102) false true true wOs ∧ 0x7FFFC % 4 = 0 ∧ 0x7FFFC + 4 * ([0] : List (BitVec 32)).length ≤ 0x80000 := by
  unfold State.calm State.accepts; decide +kernel

theorem witness_ManagementWriteEffects : wH.calm ∧ wH.pow.booted = true ∧ wH.enabled 0 = true ∧
    (wH.setRf Reg.ARY_CAL_METHOD 0 0 31 31 1).rf Reg.ARY_CAL_METHOD 0 0 31 31 = 1 ∧ wH.jobs.calibrate = none ∧
    wH.reg Reg.ARY_CONV_ROT 0 0 ≤ 1 ∧ wH.reg Reg.FLK_HALT_REQ 0 0 ≤ 1 ∧ wH.safe = false ∧ srcTaken 0x94 = true ∧
    (wH.setRf Reg.FCL_SRCn_STAT 0 0x94 31 31 1).rf Reg.FCL_SRCn_STAT 0 0x94 31 31 = 1 ∧
    (let v : BitVec 32 := 0x0401; v.toNat &&& 0xFF03 = v.toNat ∧ v.getLsbD 10 = true ∧ unitIsSite 0x18 = true ∧ v.getLsbD 11 = false) ∧
    wH.reg Reg.FCL_SRCn_CFG 0 0x18 &&& 0xFF03 = wH.reg Reg.FCL_SRCn_CFG 0 0x18 ∧
    (let t := (wH.setReg Reg.HKA_CHn_LAST 0 30 0x3FFF).setReg Reg.PWR_HOLDUP_CAP 0 0 10000
     t.calm ∧ t.safe = false ∧ t.shut = false ∧ 0 ≤ t.reg Reg.FCL_SIG_NEXT 0 0 ∧ t.holdup 200 = true) ∧
    (let t := { (wH.setReg Reg.HPT_CTL 0 0 2).setReg Reg.HPT_LINK_STATE 0 0 0 with hpt := State.reset.hpt }
     State.calm t ∧ t.reg Reg.HPT_CTL 0 0 ≤ 7 ∧ 2 ≤ t.reg Reg.HPT_CTL 0 0 ∧ t.linkUp = false ∧ ∀ y ∈ t.hpt.sessions, y.isOpen = false) ∧
    (let t := wH.setReg Reg.HPT_CTL 0 0 2
     t.calm ∧ t.reg Reg.HPT_CTL 0 0 ≤ 7 ∧ 2 ≤ t.reg Reg.HPT_CTL 0 0 ∧ t.linkUp = true ∧ (t.hpt.sessions.map (fun y => y.number)).Nodup ∧
     (∀ y ∈ t.hpt.sessions, y.isOpen = true → y.closing = false) ∧ t.mild [0x68]) ∧
    (let t := wH.setReg Reg.RTR_FENCE 0 0 2
     t.calm ∧ t.pow.booted = true ∧ t.enabled 0 = true ∧ t.fenced 0 = true ∧ t.rf Reg.SPM_PWR 0 0 9 8 ≠ 2 ∧
     (∀ k, k < 544 → t.rf Reg.SPM_SECURE k 0 0 0 = 0) ∧ t.marching 0 = false) := by unfold State.calm State.mild; decide +kernel

theorem witness_StagingAndValidation :
    let area := fun (k : Nat) (a : Area) => ({ wH with hpt := { wH.hpt with areas := wH.hpt.areas.set k a } } : State)
    let o := area 2 ⟨true, false, false, 8, []⟩
    let c := (area 0 ⟨false, true, false, 8, []⟩).setRf Reg.CAL_AGE 0 0 1 0 1
    wH.calm ∧ wH.hpt.areas.length = 3 ∧ wH.accepts wO (opRowM 0x0110) (decide (1 = 3)) true true wOs ∧ (wH.area 0).isOpen = false ∧
    (wH.area 0).busy = false ∧ o.calm ∧ o.hpt.areas.length = 3 ∧ o.accepts wO (opRowM 0x0111) (decide (3 = 3)) true true wOs ∧
    (o.area 2).isOpen = true ∧ 4 + 4 ≤ (o.area 2).size ∧ Mem.wf (o.area 2).bytes = true ∧
    o.accepts wO (opRowM 0x0112) (decide (3 = 3)) true true wOs ∧
    c.calm ∧ c.hpt.areas.length = 3 ∧ c.accepts wO (opRow 0x0121) false true true wOs ∧ (c.area 0).busy = false ∧ (c.area 0).closed = true ∧
    c.rf Reg.CAL_AGE 0 0 1 0 ≠ 0 ∧ c.rf Reg.CAL_AGE 0 0 1 0 ≠ 2 := by unfold State.calm State.accepts; decide +kernel

/-- The digest of an area of 8 zeros, as `STAGE_CLOSE` may name it. -/
theorem witness_StagingCloses : ∃ d : BitVec 256, sm3 (Mem.read [] 0 8) = digestBytes d := by
  refine ⟨BitVec.ofNat 256 (ofLE (sm3 (Mem.read [] 0 8))), ?_⟩
  decide +kernel

theorem witness_ValidationEnds :
    let s : State := { wH with jobs := { wH.jobs with validate := some (wReply 0x0121) } }
    s.calm ∧ s.hpt.areas.length = 3 ∧ s.jobs.validate = some (wReply 0x0121) ∧
    (s.loadFail { wImage with head := { wImage.head with sigOk := false } }).isSome = true ∧
    s.room Reg.HPT_CMD_REJECT 0 0 1 := by unfold State.calm State.room; decide +kernel

/-- The image with lengths, a plan and a geometry that the loader takes. -/
def wValid : Image :=
  { wImage with
    head := { wImage.head with lenNormal := 1250, lenWide := 12500000 }, normal := ⟨[], [], []⟩
    plan := [⟨true, 0, 4, 0⟩, ⟨false, 4, 1020, 0⟩], geoms := [⟨0, 4, 64, 1⟩] }

theorem witness_ValidationPasses : ({ wH with jobs := { wH.jobs with validate := some (wReply 0x0121) } } : State).loadFail wValid = none := by
  decide +kernel

/-- A certificate chain to a root key that is all zeros, of a role and a tenant. -/
def wChain (key : Nat × Nat) (role tenant : BitVec 8) : Chain := ⟨[], true, key, (0, 0), some [role, 0, tenant, 0]⟩

/-- A peer with that chain and the anchors of the state, and the state whose fused root is that key. -/
def wPeer (s : State) : PeerId := ⟨wChain (0, 0) 1 0, sm3Val s.anchorBytes⟩
def wRooted (s : State) : State := { s with sec := { s.sec with secret := 5, otost := keyDigest (0, 0) } }

/-- A ring of two devices while it forms, all ports but the last trained, seen by the device of a number. -/
def wRing (dev : Nat) : State :=
  let t : State := { wU.setReg Reg.FLK_FLIGHT_STATE 0 0 1 with flt := { wU.flt with forming := some (wReply 0x0120), cap := 0x02010201 } }
  let ring := (t.setReg Reg.FLK_FORM 0 0 0x0011).setReg Reg.FLK_COORD 0 0 (dev * 2 ^ 16 + dev)
  let up := (List.range 5).foldl (fun (s : State) p =>
    s.setReg Reg.FLK_PORTp_STATE p 0 ((1 - dev) * 2 ^ 23 + (p + 3) % 6 * 2 ^ 20 + 0xF2)) ring
  wRooted (up.setReg Reg.FLK_PORTp_STATE 5 0 0xF1)

theorem witness_FormationOutcomes :
    let g := wU.setReg Reg.FLK_FORM 0 0 0x0011
    let t := wRing 0
    wU.calm ∧ wU.accepts wO (opRow 0x0120) false true true wOs ∧ wU.flightState = 0 ∧ wU.rf Reg.SEC_RNG 0 0 0 0 = 1 ∧
    wU.rf Reg.FLK_FORM 0 0 1 0 = 0 ∧ g.rf Reg.FLK_FORM 0 0 1 0 ≠ 0 ∧ g.accepts wO (opRow 0x0120) false true true wOs ∧
    t.calm ∧ t.flightState = 1 ∧ t.flt.forming = some (wReply 0x0120) ∧ t.room Reg.HPT_CMD_REJECT 0 0 1 ∧
    (let v := t.setReg Reg.FLK_PORTp_STATE 0 0 0xF1
     v.flightState = 1 ∧ v.rf Reg.FLK_PORTp_STATE 5 0 2 0 = 1 ∧ v.portUp 0 = false) ∧
    (t.setReg Reg.SEC_RNG 0 0 0).rf Reg.SEC_RNG 0 0 0 0 = 0 := by unfold State.calm State.accepts State.room; decide +kernel

/-- The outcomes of the last port's training: out of place, not trusted, no common level, formed. -/
theorem witness_FormationChecks :
    let v := wRing 0
    let on := fun (peer : Nat) => v.setReg Reg.FLK_PORTp_STATE 5 0 (1 * 2 ^ 23 + peer * 2 ^ 20 + 0xF2)
    v.rf Reg.FLK_PORTp_STATE 5 0 2 0 = 1 ∧ (∀ p, p < 6 → p ≠ 5 → v.portUp p = true) ∧ v.rf Reg.SEC_RNG 0 0 0 0 ≠ 0 ∧
    (on 3).peerOk 5 = false ∧ (∀ p, p < 6 → (on 2).peerOk p = true) ∧ v.flt.chainBad = false ∧ v.peerTrusted (wPeer v) = true ∧
    v.peerTrusted ⟨wChain (0, 0) 1 0, 0⟩ = false ∧ (levelsOf (capJoin v.flt.cap 0x02010201)).2 = true ∧
    (levelsOf (capJoin v.flt.cap 0x02010303)).2 = false ∧ (v.flightKey []).isSome = true := by decide +kernel

/-- A device below the root finds no flight key in bytes that are none. -/
theorem witness_FormationKey :
    let v := wRing 1
    v.flightState = 1 ∧ v.rf Reg.FLK_PORTp_STATE 5 0 2 0 = 1 ∧ (∀ p, p < 6 → p ≠ 5 → v.portUp p = true) ∧
    (∀ p, p < 6 → (v.setReg Reg.FLK_PORTp_STATE 5 0 (0 * 2 ^ 23 + 2 * 2 ^ 20 + 0xF2)).peerOk p = true) ∧ v.peerTrusted (wPeer v) = true ∧
    v.defaultTree.parent.isSome = true ∧ v.flightKey [] = none := by decide +kernel

/-- And it reads the key that the root has encrypted for it. -/
theorem witness_FormationKeyRead :
    (wRing 1).flightKey (sm2Encrypt (sm2Public ((wRing 1).identityPrivate.getD 0)) 7 (List.replicate 16 3)) =
      some (BitVec.ofNat 128 (ofLE (List.replicate 16 3))) := by decide +kernel

/-- A release that decides nothing. -/
def wRel : Release := ⟨1000, false, 0, false, false, false, ⟨false, false, false, false⟩, 0, [], [], [], []⟩

/-- The same device as a leaf below port 0, which is up, and not the entry device. -/
def wLeaf : State :=
  { (wH.setReg Reg.FLK_PORTp_STATE 0 0 0xF2).setReg Reg.SEQ_ROLE 0 0 0x00070007 with
    cores := [], flt := { wH.flt with tree := ⟨1, 1, some 0, []⟩, accIn := true, cmdsIn := true } }

theorem witness_BarrierAndRelease :
    wLeaf.calm ∧ wLeaf.inFlight = true ∧ wLeaf.flt.sent = false ∧ wLeaf.flt.tree.parent = some 0 ∧ wLeaf.portUp 0 = true ∧
    wLeaf.isEntry = false ∧ wLeaf.flt.accIn = true ∧ wLeaf.coresDone = true ∧ wLeaf.flt.cmdsIn = true ∧
    wLeaf.flt.arrivals.length = wLeaf.flt.tree.children.length ∧ wLeaf.isRoot = false ∧ wLeaf.flt.release = none ∧ wLeaf.mild [0x28] ∧
    (let r : State := { wLeaf with flt := { wLeaf.flt with tree := ⟨0, 0, none, []⟩, sent := true } }
     r.calm ∧ r.inFlight = true ∧ r.isRoot = true ∧ r.flt.release = none ∧ r.mild [0x28] ∧ r.isExit = false ∧ r.isEntry = false ∧
     r.flt.arrivals.length = r.flt.tree.children.length) ∧
    (wLeaf.setReg Reg.FCL_SRCn_CFG 0 0x34 0).mild [0x34] := by unfold State.calm State.mild; decide +kernel

theorem witness_EntryBarrier :
    let e : State := { wH with seq := { wH.seq with queue := [⟨⟨0, 6, 1, .cancel 0⟩, true, false⟩] } }
    let d : State := { e with cores := [], sched := ⟨none, none⟩ }
    e.calm ∧ e.inFlight = true ∧ e.isEntry = true ∧ e.isRoot = true ∧ e.isExit = true ∧ e.flt.accIn = false ∧ e.flt.sent = false ∧
    e.coresDone = false ∧ e.flt.release = none ∧ e.mild [0x28] ∧ (e.seq.queue.filter Queued.due).length = 1 ∧
    d.isEntry = true ∧ d.coresDone = true ∧ d.sendAccepts.flt.accIn = true ∧ d.flt.arrivals.length = d.flt.tree.children.length ∧
    ({ wLeaf with hpt := { wLeaf.hpt with closings := [3] } } : State).hpt.closings = [3] := by unfold State.calm State.mild; decide +kernel

theorem witness_BoundaryAndGrace :
    let s : State := { wH with flt := { wH.flt with release := some wRel } }
    let q : Repl := ⟨1, 7, false, 2, 0, false, none⟩
    let p : State := { s with repls := [q] }
    let moving : Port := { portReset with switchLane := some 3 }
    let w : State := { s with flt := { s.flt with ports := s.flt.ports.set 0 moving } }.setReg Reg.FLK_PORTp_STATE 0 0 0xF2
    s.flt.release = some wRel ∧ s.inFlight = true ∧ wH.flt.release = none ∧ s.repls = [] ∧ s.reg Reg.WGT_GEN_ACTIVE 0 0 = 0 ∧
    (s.setReg Reg.WGT_GEN_ACTIVE 0 0 7).reg Reg.WGT_GEN_ACTIVE 0 0 ≠ 0 ∧
    ({ wRel with halt := true } : Release).halt = true ∧ wH.flightState = 2 ∧ ({ wRel with persist := true } : Release).persist = true ∧
    s.rf Reg.SEQ_ADMIT 0 0 0 0 = 0 ∧
    (p.repls = [q] ∧ q.phase = 2 ∧ ∀ e ∈ p.replDevs q,
      (reportOf [⟨0, 0, [], [], [], [], true, true, false, true, false, 7, false⟩] e.dev).map (fun x => x.done) = some true) ∧
    (w.port 0).switchLane = some 3 ∧ 0 < w.flt.ports.length ∧ w.rf Reg.FLK_PORTp_STATE 0 0 7 4 = 15 := by decide +kernel

theorem witness_Grace :
    let a : Core := { wCore with run := .waitSig 1, arms := [⟨1, 64, 128, 2, 1⟩], reds := [⟨1, 0, [], 0⟩] }
    let g : State := { wH with cores := [(0, a)], flt := { wH.flt with graced := true } }
    wH.flt.graced = false ∧ g.flt.graced = true ∧ (g.core 0).late = true ∧ g.isExit = true ∧ g.room Reg.FLK_INCOMPLETE 0 0 1 ∧
    (g.core 0).arms = [⟨1, 64, 128, 2, 1⟩] ∧ Mem.wf (g.core 0).spm = true ∧ Mem.wf (g.core 0).tiles = true ∧ 64 + 128 ≤ spmSize ∧
    (g.core 0).reds ≠ [] ∧ g.room Reg.RTR_RED_ABANDONED 0 0 1 ∧ 0 ∈ g.rootSites ∧ (1, 0) ∈ g.openUses 0 ∧
    g.redUse 1 0 = some ⟨1, 0, 2, 0, 1⟩ ∧ g.takesTiles 0 = true ∧
    ({ a with arms := [⟨1, 64, 128, 2, 2⟩] } : Core).late = true := by unfold State.room; decide +kernel

theorem witness_FlightPortEvents :
    let s := wLeaf
    let c : State := { s with flt := { s.flt with tree := ⟨0, 0, none, [0]⟩ } }
    let a : Arrival := ⟨⟨false, false, false, false⟩, 0, [], []⟩
    let m : CtlMsg := ⟨0, 0xFF, none, .arrival a⟩
    let l : CtlMsg := ⟨3, 0, none, .lane 1 false⟩
    let w := fun (n : Nat) => ({ s with flt := { s.flt with ports := s.flt.ports.set 0 { portReset with waiting := [⟨l, n⟩] } } } : State)
    s.calm ∧ s.flt.ports.length = 6 ∧ s.portUp 0 = true ∧ m.seq = (c.port 0).lastRx + 1 ∧ c.flt.tree.children.contains 0 = true ∧
    c.flt.release = none ∧ (∀ y ∈ (c.port 0).waiting, y.msg.seq ≠ m.ack) ∧ c.portUp 0 = true ∧
    (sealedBody (.commands []) = true ∧ ({ m with body := .commands [] } : CtlMsg).key = none ∧ sealedBody l.body = false) ∧
    (w 7).calm ∧ (w 7).portUp 0 = true ∧ (5 : BitVec 8) ≠ ((w 7).port 0).lastRx + 1 ∧ ((w 7).port 0).waiting = [⟨l, 7⟩] ∧
    (w 7).room Reg.FLK_PORTp_CTRL_RETX 0 0 1 ∧ ((w 7).port 0).waiting.find? (fun y => y.msg.seq == 3) = some ⟨l, 7⟩ ∧
    ((w 8).port 0).waiting.find? (fun y => y.msg.seq == 3) = some ⟨l, 8⟩ ∧ (w 8).mild [0x31] ∧
    bitsOf (s.reg Reg.FLK_PORTp_STATE 0 0) 7 4 = 15 ∧ bitsOf (s.reg Reg.FLK_PORTp_STATE 0 0) 16 8 = 0 ∧ (s.port 0).switchLane = none ∧
    s.reg Reg.FLK_PORTp_LANE_LIM 0 0 < s.reg Reg.FLK_PORTp_LANE_LIM 0 0 + 1 ∧ s.mild [0x30] ∧
    (let t := s.setReg Reg.FLK_PORTp_STATE 0 0 0x132
     t.portUp 0 = true ∧ bitsOf (t.reg Reg.FLK_PORTp_STATE 0 0) 7 4 < 8 ∧ bitsOf (t.reg Reg.FLK_PORTp_STATE 0 0) 7 4 ≠ 4 ∧
     (bitsOf (t.reg Reg.FLK_PORTp_STATE 0 0) 16 8).testBit 4 = false ∧ t.mild [0x31]) ∧
    s.room Reg.FLK_PORTp_FEC_UNCORR 0 0 1 ∧ s.room Reg.FLK_PORTp_DROP 0 0 1 ∧ s.reg Reg.FLK_LOCKAGE 0 0 % 4 = (0 : BitVec 2).toNat ∧
    (s.port 0).spoilt 3 = false ∧ ({ portReset with sinceBad := some 2 } : Port).spoilt 3 = true := by
  unfold State.calm State.mild State.room; decide +kernel

/-- Time stamps: the parent's answer of 1,000 to a stamp that left at 900, come back at 1,420 and at 1,422. -/
theorem witness_TimeStamps :
    let s : State := { wLeaf with flt := { wLeaf.flt with stamp := some (900, 1000) } }
    wLeaf.inFlight = true ∧ wLeaf.flt.tree.parent = some 0 ∧ wLeaf.flt.stamp = none ∧ s.flt.stamp = some (900, 1000) ∧ s.mild [0x32] ∧
    Int.natAbs ((((1420 : Int) - 1000) - (1000 - 900)) / 2) ≤ 160 ∧ 160 < Int.natAbs ((((1422 : Int) - 1000) - (1000 - 900)) / 2) := by
  unfold State.mild; decide +kernel

/-- A frame of zeros is good; a codeword of eight wrong bytes is not correctable. -/
theorem witness_Frames : frameErrors [] = some [] ∧ frameErrors (List.replicate 8 1) = none := by decide +kernel

/-! ### Witnesses: digests, packages, programming, memories -/

/-- A tile for logical array 0 of logical core 0. -/
def wTile : Tile := ⟨0, 0, .resident 0, 3, 1, [(5, 7)], [], [], 0, []⟩

/-- A package of version 2 with that tile. -/
def wPkg : Package :=
  { version := 2, fmtLevel := 1, pkgId := 1, shard := 0, blocks := [⟨1, 0, sm3Val []⟩], fits := true, refs := [], delivered := 0, seeds := []
    rotations := [], tiles := [wTile], constants := [(64, [1, 2])], tables := [] }

/-- The machine with that package held in slot 0 as generation 7. -/
def wHeld : State :=
  { wH with gens := [{ genReset with pkg := some wPkg }, genReset] }.setReg Reg.WGT_GEN_SLOTn 0 0 (4 * 2 ^ 24 + 2 * 2 ^ 8 + 7)

/-- An evaluation of a held tile whose audit is due on site 0, the checker being that of site 1. -/
def wAudE : EvalIn := ⟨{ wE with sc := 0 }, 1, 1, 0, false, 0, [wEvA]⟩
def wAudited : State :=
  let c : Core := { wCore with evals := [wAudE], arrs := [(0, { arrDefault with holds := .gen 0 0, draw := some ⟨3, true, false⟩, owed := true })] }
  { wHeld with siteEn := 3, cores := [(0, c)] }.setReg Reg.SLU_PEER 0 0 (2 ^ 31 + 1)

/-- The exact sum of the drawn column, moved by a delta. -/
def wAudSum (delta : Int) : Int := exactSum (masterColumn wTile false 3) wEvA.q + delta

/-- Whether the column as read lies outside the tolerance of that sum. -/
def wAudOut (delta : Int) : Bool :=
  let g : F32 := BitVec.ofNat 32 (wAudited.reg Reg.SLU_INV_Ga 0 0)
  let v := meanRead ((readsOf ((wAudited.core 0).gDrift 0) g wAudE wEvA (#[] : Array Byte) 0).map (fun y => y.value 3))
  outside v (wAudSum delta) (wAudited.tolerance 0 (sigmaV (SMap.get wEvA.corr corrDefault (steered wEvA.steer 3)) (stepK wAudE.f.ww) g wEvA.gains
    wAudE.s wAudE.f.dr) (wAudSum delta))

theorem witness_EvaluationAudited :
    let c := wAudited.core 0
    let r := c.arr wEvA.phys
    wAudited.calm ∧ wAudited.mild [] ∧ c.evals = [wAudE] ∧ c.arrQ = [] ∧ wAudE.arrays = [wEvA] ∧ isPair wAudE.f.ww = false ∧
    bitsOf c.auditCtl 0 0 = 1 ∧ wAudited.streamed r.holds = false ∧ r.owed = true ∧ r.suspended = false ∧ wAudited.peer 0 = some 1 ∧
    wAudited.checkerOk 1 = true ∧ wAudited.rf Reg.SLU_STATE 0 0 1 0 ≠ 1 ∧ wEvA.lost = false ∧ wAudited.tileOf wEvA.holds = some wTile ∧
    r.draw = some ⟨3, true, false⟩ ∧ wAudited.room Reg.SLU_DISAGREE 0 0 1 ∧ wAudOut (-8192) = false ∧ wAudOut 0 = true := by
  unfold State.calm State.mild State.room; decide +kernel

theorem witness_DigestRounds :
    let d : DigestMsg := ⟨1, 0, 0, 7, 1, 0, 0, none⟩
    let x : State := { wH with flt := { wH.flt with digest := { wH.flt.digest with expelled := [1], round := 2 } } }
    wHeld.calm ∧ wHeld.inFlight = true ∧ wHeld.reg Reg.FLK_LOCKAGE 0 0 % wHeld.flt.digest.period = 0 ∧ wHeld.flt.digest.void = false ∧
    wHeld.flt.digest.own = none ∧ wHeld.flt.digest.ready = false ∧ wHeld.heldPkg = some (0, wPkg) ∧ wH.room Reg.FLK_DIGEST_LATE 0 0 1 ∧
    wH.mild [0x36] ∧ (∀ y ∈ [d], y.dev ≠ wH.devNo) ∧ wLeaf.isRoot = false ∧ wLeaf.calm ∧ wLeaf.inFlight = true ∧ wH.isRoot = true ∧
    wH.sched.active = some wImage ∧ ([] : List DigestMsg).find? (fun y => y.dev == 0) = none ∧
    (let im : Image := { wImage with devs := wImage.devs ++ [⟨1, 512, 0, 0, 8, 8, 1⟩] }
     (1 : Nat) ∈ im.devs.map (fun y => y.dev) ∧ (1 : Nat) ∉ ({ x.flt.digest with expelled := [] } : Digest).expelled ∧
       ([d].filter (fun y => y.round + 1 == x.flt.digest.round)).find? (fun y => y.dev == 1) = some d) ∧
    (1 : Nat) ∈ x.flt.digest.expelled ∧ x.isRoot = true ∧
    (let r : State := { wHeld with flt := { wHeld.flt with digest := { wHeld.flt.digest with own := some d, ready := true } } }
     r.flt.digest.own = some d ∧ r.flt.digest.ready = true ∧ r.flt.digest.void = false ∧ r.reg Reg.FLK_LOCKAGE 0 0 % r.flt.digest.period = 0) ∧
    (wLeaf.portUp 0 = true ∧ wLeaf.flt.tree.parent = some 0 ∧ wLeaf.flt.tree.children = [] ∧ 0 < wLeaf.flt.ports.length ∧
      (⟨0, 0xFF, none, .digest d⟩ : CtlMsg).seq = (wLeaf.port 0).lastRx + 1 ∧ (wLeaf.port 0).waiting = []) :=
        by unfold State.calm State.mild State.room; decide +kernel

theorem witness_SparesAndConverters :
    let s := ((wAt { wCore with arrs := [(0, { arrDefault with retire := [⟨true, 1023, 1024, true, false⟩] }),
      (1, { arrDefault with retire := [⟨false, 511, 527, true, false⟩] })] }).setRf Reg.ARY_CONV_ROT 0 0 0 0 1)
    (((s.core 0).arr 0).retire.find? (fun t => t.started && !t.done) = some ⟨true, 1023, 1024, true, false⟩ ∧
      ((s.core 0).arr 1).retire.find? (fun t => t.started && !t.done) = some ⟨false, 511, 527, true, false⟩ ∧
      Mem.wf ((s.core 0).arr 0).cells = true) ∧
    s.calm ∧ s.enabled 0 = true ∧ s.rf Reg.ARY_CONV_ROT 0 0 0 0 = 1 ∧ s.rf Reg.ARY_CONVa 0 18 4 4 = 0 ∧ s.rf Reg.ARY_CONVa 0 18 24 24 = 0 ∧
    s.jobs.calibrate = none ∧ convPasses ⟨0, 1023, 0, 400⟩ = true ∧ s.dieWorks (dieOf 0) = true ∧
      (s.core 0).evals.any (fun e => e.selects 18) = false ∧
    (s.core 0).arbs.any (fun b => b.running && b.arr == 18 && b.rep.isSome) = false ∧
    ((s.setRf Reg.FCL_CP_STATE 0 0 1 0 3).setRf Reg.FCL_CP_STATE 0 0 3 2 3).dieWorks (dieOf 0) = false ∧
    wHeld.tileOf (.gen 0 0) = some wTile ∧ wH.tileOf (.gen 0 0) = none ∧ arrDefault.holds = .none := by unfold State.calm; decide +kernel

/-- The steering and the remap of an array without spares send every column and row to a place of its own. -/
theorem witness_SparePlaces : ((List.range 512).map (remapped arrDefault.steer)).Nodup ∧
    (∀ k, k < 512 → remapped arrDefault.steer k < 528) ∧ ((List.range 1024).map (remapped arrDefault.rowMap)).Nodup := by
  have h : ∀ k, remapped [] k = k := fun k => by simp [remapped, SMap.get]
  have h' : remapped [] = id := funext h
  refine ⟨?_, ?_, ?_⟩
  · show ((List.range 512).map (remapped [])).Nodup
    simp [h', List.nodup_range]
  · intro k hk
    show remapped [] k < 528
    rw [h]; omega
  · show ((List.range 1024).map (remapped [])).Nodup
    simp [h', List.nodup_range]

/-- A state whose anchor 0 grants every role to the chain of `wChain`, deployed. -/
def wAnchored (s : State) : State :=
  (List.range 8).foldl (fun t k => t.setReg Reg.SEC_ANCHOR_KEYnw 0 k ((keyDigest (0, 0)).toNat / 2 ^ (32 * k) % 2 ^ 32))
    (((wRooted s).setReg Reg.SEC_ANCHOR_ROLESn 0 0 7).setReg Reg.SEC_LC_STATE 0 0 1)

/-- The parts of a package file of one block of type 1 for shard 0: header, references, envelope for the device, index, signature; the block's one
byte lies at 588, between its nonce and its tag. -/
def wHead : PkgHead := ⟨2, 1, 1, 1, 1, ⟨256, 32⟩, ⟨448, 64⟩, ⟨288, 160⟩, ⟨512, 64⟩, []⟩
def wFile : PkgFile := ⟨wHead, wChain (sm2Public 5) 3 0, true, [], [], [], [], []⟩

/-- A device that loads that file. -/
def wLoading : State :=
  let s := wAnchored wH
  let pub := sm2Public (s.identityPrivate.getD 0)
  let key := List.replicate 16 0x77
  let env := sm3 (pointOut pub) ++ sm2Encrypt pub 9 key ++ List.replicate 15 0
  let nonce := List.replicate 12 3
  let sealed := gcmSeal key nonce [] [0x5A]
  let index := toLE 8 1 ++ toLE 8 588 ++ toLE 8 1 ++ digestBytes (sm3Val (sealed.take 1)) ++ List.replicate 8 0
  let sig := sm2Sign 5 [11] (List.replicate 288 0 ++ index ++ env)
  { s with gens := [genReset, { genReset with loading := some (wReply 0x0130, 7, 0, false) }],
           hpt := { s.hpt with areas := s.hpt.areas.set 1 ⟨false, true, true, 608, Mem.write [] 288 (env ++ index ++ sig ++ nonce ++ sealed)⟩ } }

theorem witness_PackageSlots :
    let a : State := { wH with hpt := { wH.hpt with areas := wH.hpt.areas.set 1 ⟨false, true, false, 8, []⟩ } }
    let st := wH.setReg Reg.WGT_GEN_SLOTn 0 1 (2 * 2 ^ 24 + 7)
    wH.calm ∧ wH.gens.length = 2 ∧ wH.hpt.areas.length = 3 ∧ st.slotState 0 = 0 ∧ st.slotState 1 ≠ 0 ∧ st.slotGen 1 ≠ 255 ∧
    a.accepts wO (opRow 0x0130) false true true wOs ∧ (a.area 1).busy = false ∧ (a.area 1).closed = true ∧
    (a.loadSlot 255).toOption = some (0, false) ∧ st.accepts wO (opRow 0x0131) false true true wOs ∧ st.slotState 1 = 2 := by
  unfold State.calm State.accepts; decide +kernel

theorem witness_PackagePasses : wLoading.calm ∧ wLoading.gens.length = 2 ∧ wLoading.hpt.areas.length = 3 ∧
    (wLoading.gen 1).loading = some (wReply 0x0130, 7, 0, false) ∧ (wLoading.gen 0).loading = none ∧ wLoading.room Reg.WGT_PKG_REJECT 0 0 1 ∧
    wLoading.room Reg.HPT_CMD_REJECT 0 0 1 ∧ (wLoading.pkgCheck 1 0 false wFile).toOption.isSome = true := by
  unfold State.calm State.room; decide +kernel

theorem witness_PackageFails :
    let m := (wLoading.area 1).bytes
    let ver : PkgFile := { wFile with head := { wHead with version := 3 } }
    let lvl : PkgFile := { wFile with head := { wHead with fmtLevel := 255 } }
    let alien : PkgFile := { wFile with signer := wChain (0, 0) 2 1 }
    let one := { wHead with blocks := 1, index := ⟨700, 64⟩ }
    (ver.head.version ≠ 1 ∧ ver.head.version ≠ 2) ∧ wLoading.formatLevel < lvl.head.fmtLevel ∧ wLoading.pkgSigned m alien = false ∧
    refOk m { wHead with version := 1 } = false ∧ wLoading.contentKey m { wHead with envelopes := ⟨0, 0⟩ } = none ∧
    (pkgIndex m one).map (fun e => (e.isMine 2 0, openBlock m [] e)) = [(true, none)] := by decide +kernel

theorem witness_PackageKey : (wLoading.contentKey (wLoading.area 1).bytes wHead).isSome = true := by decide +kernel

/-- The hold-up bank full, and all diodes of both dies at 40 °C. -/
def wFit (s : State) : State :=
  (List.range 16).foldl (fun (t : State) k => t.setReg Reg.THM_DIODEn 0 k (2 ^ 31 + 640))
    ((s.setReg Reg.HKA_CHn_LAST 0 30 0x3FFF).setReg Reg.PWR_HOLDUP_CAP 0 0 10000)

/-- A programming of slot 0. -/
def wProg (a b : DieProg) (spares : List (Nat × Nat)) : Prog := ⟨0, none, false, [a, b], spares, [], [], false⟩

theorem witness_ProgrammingProceeds :
    let d : DieProg := ⟨0, [], false, false, false⟩
    let p := wProg d d []
    let s : State := { wFit wHeld with prog := some p }
    let cold : State := { s.setReg Reg.THM_DIODEn 0 0 (2 ^ 31 + 2000) with prog := some p }
    let dw : DieProg := ⟨0, [], true, false, false⟩
    let pw := wProg dw d []
    let w : State := { s with prog := some pw }
    s.calm ∧ s.prog = some p ∧ p.complete = false ∧ p.dies[0]? = some d ∧ s.writesOk = true ∧ s.slotWaits 0 = false ∧
    s.dieWorks 0 = true ∧ s.tempWindow 0 = true ∧ s.holdup 3000 = true ∧ p.erase = none ∧ d.done = false ∧ d.stopped = false ∧ s.nvWriting 0 = false ∧
    (s.placements 0).filter (fun y => dieOf y.1 == 0 && waveOf y.2.1 == 0 && !s.arrFailed y.1 y.2.1) = [(0, 0, 0, wTile)] ∧
    s.skips p (0, 0, 0, wTile) = false ∧ cold.tempWindow 0 = false ∧ cold.holdup 3000 = true ∧ cold.room Reg.WGT_WAVE_DEFER 0 0 1 ∧
    w.prog = some pw ∧ pw.dies[0]? = some dw ∧ w.maint = none ∧ w.mild [0x50] := by
  unfold State.calm State.room State.mild; decide +kernel

theorem witness_ProgrammingEnds :
    let d : DieProg := ⟨0, [], false, false, false⟩
    let dt : DieProg := ⟨0, [(0, 0)], false, false, false⟩
    let de : DieProg := ⟨8, [], false, false, true⟩
    let pt := wProg dt d []
    let t : State := { wFit wHeld with prog := some pt }
    let ps := wProg de de [(0, 0)]
    let e : State := { wFit wHeld with prog := some ps }
    t.calm ∧ t.prog = some pt ∧ pt.dies[dieOf 0]? = some dt ∧ dt.todo.contains (0, 0) = true ∧
    (t.placements 0).find? (fun y => y.1 == 0 && y.2.1 == 0) = some (0, 0, 0, wTile) ∧ t.rf Reg.ARY_PROG_CYCLESa 0 0 23 0 < 10000 ∧
    e.prog = some ps ∧ e.writesOk = true ∧ e.slotWaits 0 = false ∧ ps.dies.all (fun y => y.done) = true ∧
      ps.spares.find? (fun y => y.1 == 0) = some (0, 0) ∧ e.spareIdle 0 = some 16 ∧
    (e.setRf Reg.ARY_STATEa 0 16 18 16 2).spareIdle 0 = none ∧ e.mild [0x51] ∧ t.arrFailed 0 0 = false ∧ t.dieWorks (dieOf 0) = true ∧
    e.writeFree (dieOf 0) = true ∧ e.skips ps (0, 16, 0, wTile) = false := by
  unfold State.calm State.mild; decide +kernel

/-- The last array of an erasure, and one before it. -/
theorem witness_Erasure :
    let r : LcRecord := ⟨0x1C7E, 1, 3, 0, 0, 0, 0, [], wChain (0, 0) 1 0, []⟩
    let d : DieProg := ⟨7, [(0, 0)], false, false, false⟩
    let two : DieProg := { d with todo := [(0, 0), (0, 8)] }
    let p : Prog := { wProg d { d with todo := [], done := true } [] with erase := some (wReply 0x0181, r, 2) }
    let s : State := { wH with prog := some p }
    s.calm ∧ s.prog = some p ∧ p.erase = some (wReply 0x0181, r, 2) ∧ p.spares = [] ∧ p.complete = false ∧ p.dies[dieOf 0]? = some d ∧
    (∀ k e, k ≠ dieOf 0 → p.dies[k]? = some e → e.done = true) ∧ s.dieWorks (dieOf 0) = true ∧ s.rf Reg.ARY_PROG_CYCLESa 0 0 23 0 < 10000 ∧
    s.mild [0x94] ∧ ∃ y ∈ two.todo, y ≠ (0, 0) := by
  intro r d two p s
  refine ⟨by unfold State.calm; decide +kernel, rfl, rfl, rfl, rfl, rfl, ?_, by decide +kernel, by decide +kernel,
    by unfold State.mild; decide +kernel, (0, 8), by decide, by decide⟩
  intro k e hk he
  match k, hk, he with
  | 0, hk, _ => exact absurd rfl hk
  | 1, _, he => cases he; rfl
  | k + 2, _, he => exact absurd he (by simp [p, wProg])

theorem witness_ArrayMaintenance :
    let s := wFit wHeld
    let m : Maint := ⟨wReply 0x0133, 0, 0, 16, false, false⟩
    let t : State := { s with maint := some m }
    let u := (t.setRf Reg.WGT_MAINT 0 0 2 0 3).setRf Reg.ARY_STATEa 0 0 18 16 3
    s.calm ∧ s.accepts wO (opRow 0x0133) false true true wOs ∧ s.siteOf 0 = some 0 ∧ s.rf Reg.RTR_FENCE 0 0 1 0 = 0 ∧ s.maint = none ∧
    s.inRepl s.ownInst = false ∧ s.stoppedMaint 0 15 = none ∧ s.writesOk = true ∧ s.dieWorks (dieOf 0) = true ∧ t.heldWaits = false ∧
      u.heldWaits = false ∧ s.spareIdle 0 = some 16 ∧ s.tempWindow (dieOf 0) = true ∧ s.holdup 20 = true ∧
    t.maint = some m ∧ t.heldTile 0 (t.rf Reg.WGT_MAINT 0 0 11 8) = some (0, 0, wTile) ∧ t.rf Reg.ARY_PROG_CYCLESa 0 16 23 0 < 10000 ∧
    u.maint = some m ∧ u.rf Reg.WGT_MAINT 0 0 2 0 = 3 ∧ u.rf Reg.ARY_STATEa 0 0 18 16 = 3 ∧ s.nvWriting (dieOf 0) = false ∧ u.safe = false ∧
    (u.setRf Reg.ARY_STATEa 0 0 18 16 4).rf Reg.ARY_STATEa 0 0 18 16 = 4 ∧ u.rf Reg.ARY_PROG_CYCLESa 0 0 23 0 < 10000 := by
  unfold State.calm State.accepts; decide +kernel

theorem witness_MemoryErrorsAndFailures :
    let s := (wH.setRf Reg.MEM_SCRUB 0 0 31 31 1).setRf Reg.MEM_STACKs_STATE 3 0 2 0 2
    let c := s.setRf Reg.MEM_FARc_STATE 31 0 2 0 1
    let m := fun (b : Bool) => ({ wH with jobs := { wH.jobs with marches := [(0, b)] } } : State)
    wS.runs wI ∧ inRegion (memfAddr wM 0) 64 = true ∧ wH.rf Reg.MEM_SCRUB 0 0 31 31 ≠ 0 ∧
      (wH.setReg Reg.MEM_SCRUB 0 0 0).rf Reg.MEM_SCRUB 0 0 31 31 = 0 ∧
    s.latent = [] ∧ (3 : BitVec 80) ≠ 0 ∧ (m true).jobs.owed = [] ∧
    s.calm ∧ s.rf Reg.MEM_SCRUB 0 0 31 31 = 1 ∧ stackOf 0x18000 = 3 ∧ s.memUp 0x18000 = true ∧ bchLeft 3 = some 0 ∧
    bchLeft 7 = none ∧ s.room Reg.MEM_STACKs_UE 3 0 1 ∧ s.room Reg.MEM_POISON_CREATED 0 0 1 ∧
    s.mild [0x58] ∧ c.inFlight = true ∧ c.mgmtLost = false ∧ c.rf Reg.MEM_STACKs_STATE 3 0 2 0 = 2 ∧ c.mild [0x5A] ∧
    c.rf Reg.MEM_FARc_STATE 31 0 2 0 = 1 ∧ c.mild [0x5B] ∧
    (m true).jobs.marches = [(0, true)] ∧ (m false).jobs.marches = [(0, false)] ∧ (m true).rf Reg.SPM_REMAPn 0 0 31 31 = 0 ∧
    (∀ y, y < 8 → (m true).reg Reg.SPM_REMAPn 0 y ≠ 2 ^ 31 + 5) ∧
    wHeld.pkg 0 = some wPkg ∧ wPkg.constants[0]? = some (64, [1, 2]) ∧ wHeld.room Reg.MEM_POISON_CONSUMED 0 0 1 ∧ wHeld.mild [0x5C] := by
  unfold State.runs State.calm State.room State.mild; decide +kernel

theorem witness_PageCopies :
    let c : Copy := ⟨true, 0, 0, 0, [100], [5], false⟩
    let d : Copy := ⟨false, 0, 0, 0, [5], [100], false⟩
    let s : State := { wH with kv := { wH.kv with copies := [c, d] } }
    s.calm ∧ s.anyDead = false ∧ Mem.wf s.mem = true ∧ s.copyOf true 0 0 0 = some c ∧ s.copyOf false 0 0 0 = some d ∧
    s.failedUnits [(granAddr (5, true), 32768)] [] = [] ∧ s.failedUnits [(granAddr (5, true), 32768)] [41] = [41] ∧ poisonOf s.poison (granAddr (5,
      true)) 32768 = [] ∧ s.mild [0x42] ∧
    s.room Reg.CNT_KV_INTEGRITY 0 0 1 ∧ s.latent = [] ∧ s.poison = [] ∧ (wSlot wBarge wPages).kv.page 0 0 0 = some wPageAt := by
  unfold State.calm State.mild State.room; decide +kernel

theorem witness_PredicatedOffHasNoEffect :
    let x : Issue := { wI with pred := 1 }
    let e : EvalIn := ⟨wE, 1, 1, 3, false, 0, []⟩
    let s := wAt { wCore with evals := [e] }
    wS.calm ∧ issueOf (.nop x) = some x ∧ wS.predOff x ∧ (wS.core 0).arrQ = [] ∧ s.predOff x ∧
    ¬(s.core 0).tilesFree (ownTiles (.aclr x { wA with td := 3 }) 0) ∧ (s.core 0).tilesFree (ownTiles (.aclr x { wA with td := 4 }) 0) ∧
    8 ≤ ({ wCore with arrQ := List.replicate 8 (.desc 0 3 ⟨3, 0, 0⟩) } : Core).arrQ.length := by
  unfold State.calm State.predOff Core.tilesFree; decide +kernel

theorem witness_StepKeepsSitesAndMemoryForm : Mem.wf wS.mem = true ∧ (∃ t, step wS = .next t) ∧
    State.reset.wellShaped ∧ ∃ t, step State.reset = .next t :=
  ⟨by decide +kernel, ⟨_, rfl⟩, ⟨rfl, fun _ => ⟨rfl, rfl, rfl, fun _ => rfl⟩, rfl, rfl, rfl⟩, _, rfl⟩

theorem witness_ErrorCountersStick :
    let s := (wH.setRf Reg.HKA_CTL 0 0 31 31 1).setRf Reg.HKA_PWM 0 0 31 31 1
    let e := s.setReg Reg.HKA_TRIG_MISSED 0 0 0x7FFFFFFE
    let q := e.setRf Reg.FCL_SRCn_CFG 0 0 15 8 0
    let f := s.setReg Reg.HKA_TRIG_MISSED 0 0 0xFFFFFFFF
    s.calm ∧ s.pow.booted = true ∧ s.rf Reg.HKA_CTL 0 0 31 31 = 1 ∧ s.rf Reg.HKA_PWM 0 0 31 31 = 1 ∧ s.room Reg.HKA_TRIG_MISSED 0 0 1 ∧
    e.rf Reg.HKA_TRIG_MISSED 0 0 30 0 = 0x7FFFFFFE ∧ e.rf Reg.HKA_TRIG_MISSED 0 0 31 31 = 0 ∧ e.mild [] ∧
    (q.rf Reg.FCL_SRCn_CFG 0 0 15 8).testBit 6 = false ∧ q.room Reg.FCL_SRCn_COUNT 0 0 1 ∧ q.mild [] ∧
    f.rf Reg.HKA_TRIG_MISSED 0 0 30 0 = 0x7FFFFFFF ∧ f.rf Reg.HKA_TRIG_MISSED 0 0 31 31 = 1 := by
  unfold State.calm State.room State.mild; decide +kernel

/-! ### Witnesses: power, boot, sensing, collector, security, sessions -/

theorem witness_PowerStates :
    let p := fun (l : List Nat) => ({ wU with pow := { wU.pow with path := l } } : State)
    wU.calm ∧ wU.accepts wO (opRowM 0x0160) false true true wOs ∧ wU.power = 0 ∧ wU.rf Reg.PWR_STATE 0 0 8 8 = 0 ∧ wU.powerBusy 4 = false ∧
    (p [0]).pow.path = [0] ∧ (p [0]).pow.toIdle = false ∧ (p [0]).mild [0x60] ∧ (p [0]).jobs.power = none ∧ (p [1]).power = 0 ∧
    ((p [2]).setRf Reg.PWR_STATE 0 0 2 0 1).power = 1 ∧ (p [4]).pow.path = [4] := by
  unfold State.calm State.accepts State.mild; decide +kernel

theorem witness_PinsAndInput :
    let p := fun (o : Pow) => ({ wH with pow := o } : State)
    wH.pow.vin = true ∧ wH.pow.on = true ∧ (p { wH.pow with on := false }).pow.on = false ∧ wH.pow.offLatch = false ∧
    (wH.setRf Reg.DEV_SIDEBAND 0 0 0 0 0).rf Reg.DEV_SIDEBAND 0 0 0 0 = 0 ∧ wH.rf Reg.DEV_SIDEBAND 0 0 0 0 = 1 ∧
    (p { wH.pow with offLatch := true, lowMs := 9 }).pow.lowMs < 10 ∧ 10 ≤ (p { wH.pow with offLatch := true, lowMs := 10 }).pow.lowMs ∧
    (p { wH.pow with vin := false }).pow.vin = false := by decide +kernel

/-- A firmware image that boots: a header of zeros, an empty body, a chain and its signature. -/
def wFw : FwImage :=
  let head : List Byte := List.replicate 256 0
  ⟨0x46574558, 1, 3, 0, [], wChain (sm2Public 5) 1 0, head ++ sm2Sign 5 [11] head⟩

/-- The machine just powered. -/
def wPowered : State := wRooted State.reset

theorem witness_Boot :
    let s := wPowered
    let k : State := { s with pow := { s.pow with kept := true } }
    s.calm ∧ s.pow.vin = true ∧ s.pow.on = true ∧ s.pow.booted = false ∧ s.pow.offLatch = false ∧ s.rf Reg.DEV_SIDEBAND 0 0 1 0 = 3 ∧
    (quiet s [0x05, 0x91]).mild [0x05, 0x11, 0x5A, 0x5B, 0x5E, 0x7A, 0x91, 0x92] ∧
    s.imageBoots wFw = true ∧ wFw.svn < 64 ∧ k.pow.kept = true := by
  unfold State.calm State.mild; decide +kernel

theorem witness_BadImage : wPowered.imageBoots { wFw with magic := 0 } = false ∧ (⟨false, false, false⟩ : BootTest).managed = false :=
    by decide +kernel

theorem witness_AgesAndCalibration :
    let cal : ArrayCal := ⟨0, 3, [⟨7, 0x155, 0⟩], [], [], F32.one⟩
    let e : CalRec := ⟨1, 0, 0, 9, [1]⟩
    let a := wAt { wCore with arrs := [(3, { arrDefault with holds := .gen 0 0 })] }
    let b : State := { a.setReg Reg.PWR_STATE 0 0 1 with pow := wH.pow }
    let j : State := { wH with jobs := { wH.jobs with calibrate := some (wReply 0x0162), calScope := 1, calSite := 0 } }
    let f := wH.setReg Reg.RTR_FENCE 0 0 1
    let w : State := { wFit wH with cal := [⟨[], [e], 10, 0⟩, ⟨[], [], 0, 0⟩] }
    let lo : State := { wH with cal := [⟨[], [e], 10, 0⟩, ⟨[], [], 0, 0⟩] }
    wH.calm ∧ wH.accepts wO (opRowM 0x0161) false true true wOs ∧ wH.rf Reg.CAL_AGE 0 0 1 0 = 0 ∧ wH.pow.vin = true ∧ wH.pow.booted = true ∧
    wH.cal = [⟨[], [], 0, 0⟩, ⟨[], [], 0, 0⟩] ∧ f.accepts wO (opRow 0x0162) false true true wOs ∧ f.calCheck 1 0 = stOk ∧ wH.calCheck 4 0 = stOk ∧
    wU.calCheck 3 0 = stOk ∧ wU.calCheck 2 0 = stOk ∧
    j.dieWorks (dieOf 0) = true ∧ wH.dieWorks (dieOf 0) = true ∧ j.calm ∧ j.jobs.calibrate = some (wReply 0x0162) ∧ cal.cols = [⟨7, 0x155, 0⟩] ∧
      wH.rf Reg.PWR_STATE 0 0 2 0 ≠ 1 ∧
    b.calm ∧ b.pow.booted = true ∧ b.rf Reg.PWR_STATE 0 0 2 0 = 1 ∧ b.jobs.calibrate = none ∧ b.enabled 0 = true ∧
    ((b.core 0).arr 3).holds ≠ .none ∧ b.mild [0x7C] ∧ (b.setRf Reg.CAL_AGE 0 0 1 0 2).rf Reg.CAL_AGE 0 0 1 0 = 2 ∧
    ((wH.setRf Reg.CAL_STATS_CTL 0 0 0 0 1).setRf Reg.CAL_STATS_CTL 0 0 15 8 0).rf Reg.CAL_STATS_CTL 0 0 15 8 ≤
      (SMap.get ((wH.core 0).arr 0).stats statsDefault 0).n ∧
    w.calm ∧ w.writesOk = true ∧ w.holdup 100 = true ∧ e.size ≤ 65536 ∧ recsSize [] + e.size ≤ halfSize ∧ lo.writesOk = true ∧
    lo.holdup 100 = false ∧ lo.room Reg.PWR_HOLDUP_DEFER 0 0 1 ∧ lo.mild [0x7D] ∧ w.nvWriting 0 = false ∧ w.mild [0x7B] ∧
    recsSize [] + 0 + 2 * e.size ≤ halfSize ∧ b.dieWorks (dieOf 0) = true := by
  unfold State.calm State.accepts State.mild State.room; decide +kernel

theorem witness_Sensing :
    let y : Sample := ⟨31, 5⟩
    let s := ((wH.setReg Reg.HKA_CHn_CFG 0 31 1).setRf Reg.HKA_CTL 0 0 31 31 1)
    let p := ((wH.setReg Reg.HKA_CHn_CFG 0 31 2).setRf Reg.HKA_PWM 0 0 31 31 1)
    let w := s.setReg Reg.HKA_CHn_WIN 0 31 (2 ^ 31 + 100 * 2 ^ 16 + 6)
    let o := wH
    let hot : State := { (wFit wH).setReg Reg.THM_DIODEn 0 0 (2 ^ 31 + 640 + 193) with sense := { wH.sense with streaks := [(0, 9)] } }
    s.calm ∧ s.pow.booted = true ∧ s.sense.queue.length < 512 ∧ bitsOf (s.reg Reg.HKA_CHn_WIN 0 31) 31 31 = 0 ∧
    s.rf Reg.HKA_CTL 0 0 31 31 = 1 ∧ s.rf Reg.HKA_CHn_CFG 0 31 1 0 = 1 ∧ p.rf Reg.HKA_PWM 0 0 31 31 = 1 ∧ p.rf Reg.HKA_CHn_CFG 0 31 1 0 = 2 ∧
    bitsOf (w.reg Reg.HKA_CHn_WIN 0 31) 31 31 = 1 ∧ y.code.toNat < bitsOf (w.reg Reg.HKA_CHn_WIN 0 31) 13 0 ∧
    w.rf Reg.HKA_CHn_LAST 0 31 31 31 = 0 ∧ w.mild [0x75] ∧ o.rf Reg.HKA_STAGE 0 0 4 4 = 0 ∧ o.mild [0x77] ∧
    o.mild [0x70, 0x71, 0x75, 0x78, 0x80] ∧
    ((o.setReg Reg.FCL_SRCn_CFG 0 0x72 0).setReg Reg.FCL_SRCn_CFG 0 0x81 0).mild [0x70, 0x71, 0x72, 0x75, 0x78, 0x80, 0x81] ∧
    (∀ m, m < 16 → o.rf Reg.THM_DIODEn 0 m 30 30 = 0 ∧ SMap.get o.sense.streaks 0 m < 9) ∧ o.sense.diodesLow = [false, false] ∧
    hot.calm ∧ hot.diodeValid 0 = true ∧ 2 ≤ ((neighbours 0).filter hot.diodeValid).length ∧
    192 * 3 < (3 * hot.diodeTemp 0 - (((neighbours 0).filter hot.diodeValid).map hot.diodeTemp).sum).natAbs ∧
    9 ≤ SMap.get hot.sense.streaks 0 0 ∧ hot.mild [0x73, 0x74] ∧ o.mild [0x7E] ∧
    (let c := o.setReg Reg.PWR_HOLDUP_CAP 0 0 4000
     3200 ≤ min 65535 (2000000 / (625 : BitVec 16).toNat) ∧ min 65535 (2000000 / (626 : BitVec 16).toNat) < 3200 ∧
     3200 ≤ c.rf Reg.PWR_HOLDUP_CAP 0 0 15 0) := by
  unfold State.calm State.mild; decide +kernel

theorem witness_ControlPairs :
    let p : Pair := ⟨true, some 0, false⟩
    let t : State := { wH with fcl := { wH.fcl with pairs := wH.fcl.pairs.set 3 p } }
    let a : State := { wH with fcl := { wH.fcl with pairs := wH.fcl.pairs.set 3 { p with again := true } } }
    let u := wH.setRf Reg.FCL_CP_STATE 0 0 7 6 1
    wH.calm ∧ wH.pow.on = true ∧ wH.pow.booted = true ∧ wH.safe = false ∧ wH.fcl.pairs[3]? = some ⟨false, none, false⟩ ∧
      wH.rf Reg.FCL_CP_STATE 0 0 7 6 = 0 ∧ wH.mild [0x02] ∧
    t.calm ∧ t.fcl.pairs[3]? = some p ∧ a.fcl.pairs[3]? = some { p with again := true } ∧ t.inFlight = true ∧ t.mgmtLost = false ∧
    t.pairFailed 2 = false ∧ t.mild [0x03, 0x04] ∧ u.rf Reg.FCL_CP_STATE 0 0 7 6 = 1 ∧ u.mgmtLost = false ∧ u.mild [0x03, 0x04] := by
  unfold State.calm State.mild; decide +kernel

/-- A record of a severity. -/
def wRec (n sev : Nat) : SigRec := ⟨n, 0x10, 0, sev, 0, [], 0, 0, 1, 0, 0, 2, 1⟩

theorem witness_RecordsFencesAndSelfTests :
    let s : State := { wFit wH with fcl := { wH.fcl with buffer := [wRec 9 2] } }
    let full : State := { s with fcl := { s.fcl with store := wRec 1 1 :: List.replicate 1023 (wRec 2 2) } }
    let high : State := { s with fcl := { s.fcl with store := List.replicate 1024 (wRec 2 2) } }
    let lo : State := { wH with fcl := { wH.fcl with buffer := [wRec 9 2] } }
    let f := wH.setReg Reg.RTR_FENCE 0 0 1
    s.calm ∧ s.pow.booted = true ∧ s.nvWriting 0 = false ∧ lo.nvWriting 0 = false ∧ s.fcl.buffer = [wRec 9 2] ∧ s.writesOk = true ∧
      s.holdup 200 = true ∧ s.fcl.store.length < 1024 ∧
    1024 ≤ full.fcl.store.length ∧ full.fcl.store.find? (fun z => decide (z.sev ≤ 1)) = some (wRec 1 1) ∧ 2 ≤ (wRec 9 2).sev ∧
    1024 ≤ high.fcl.store.length ∧ (∀ z ∈ high.fcl.store, 2 ≤ z.sev) ∧ high.mild [] ∧ lo.holdup 200 = false ∧
    lo.room Reg.PWR_HOLDUP_DEFER 0 0 1 ∧ lo.mild [0x7D] ∧ lo.writesOk = true ∧
    wH.accepts wO (opRowM 0x0172) false true true wOs ∧ ([wRec 1 1, wRec 1 2, wRec 64 2]).Pairwise (fun a b => a.number ≤ b.number) ∧
    f.accepts wO (opRow 0x0170) false true true wOs ∧ f.rf Reg.RTR_FENCE 0 0 1 0 = 1 ∧ f.rf Reg.RTR_FENCE 0 0 5 4 = 0 ∧ f.enabled 0 = true ∧
    f.fenceCheck 0 0 = stOk ∧ wU.fenceCheck 0 1 = stOk ∧ wU.rf Reg.RTR_FENCE 0 0 1 0 = 0 ∧
    f.accepts wO (opRow 0x0171) false true true wOs ∧ f.fenced 0 = true ∧ f.testing 0 = false ∧
    ({ f with jobs := { f.jobs with selfTests := [(0, wReply 0x0171)] } } : State).jobs.selfTests = [(0, wReply 0x0171)] := by
  unfold State.calm State.accepts State.mild State.room; decide +kernel

/-- A transition record signed under the chain of `wChain`. -/
def wLc (from_ to_ : BitVec 8) (t : List AnchorEntry) : LcRecord :=
  let r : LcRecord := ⟨0x1C7E, from_, to_, 0, 0, (if t.isEmpty then 0 else 1), 0, t, wChain (sm2Public 5) 1 0, []⟩
  { r with sig := sm2Sign 5 [11] (recordBytes r) }

theorem witness_SecurityBlock :
    let j : State := { wH with jobs := { wH.jobs with fw := some (wReply 0x0182), fwImage := some wFw } }
    wH.calm ∧ wH.accepts wO { op := 0x0180, operator := true, tenant := true, entry := false, always := true } true true true wOs ∧
    wH.accepts wO (opRowM 0x0181) false true true wOs ∧ wH.lcCheck { wLc 0 1 [⟨3, 0, 7⟩] with magic := 0 } ≠ stOk ∧
    wH.room Reg.SEC_LC_REJECT 0 0 1 ∧ wH.room Reg.HPT_CMD_REJECT 0 0 1 ∧ wH.mild [0x13, 0x60, 0x94] ∧
    j.recovery = false ∧ (j.setRf Reg.SEC_FW 0 0 16 16 1).recovery = true ∧ j.mild [0x93] ∧ wH.pow.on = true ∧ wH.pow.booted = true ∧
    wH.mild [0x91] := by
  unfold State.calm State.accepts State.mild State.room; decide +kernel

theorem witness_LifeCycle :
    ((wFit (wRooted wH)).setReg Reg.SEC_LC_STATE 0 0 0).lcCheck (wLc 0 1 [⟨3, 0, 7⟩]) = stOk ∧ (wFit (wAnchored wH)).lcCheck (wLc 1 3 []) = stOk ∧
    (3 ≤ (wLc 1 3 []).to_.toNat ∧ (wLc 0 1 [⟨3, 0, 7⟩]).to_.toNat < 3) := by decide +kernel

/-- A staging area that holds a firmware image. -/
def wImageIn (s : State) : State :=
  let b := wFw.bytes
  { s with hpt := { s.hpt with areas := s.hpt.areas.set 2 ⟨false, true, false, b.length, Mem.write [] 0 b⟩ } }

theorem witness_FirmwareChecks : (wImageIn (wRooted wH)).fwCheck ((wImageIn (wRooted wH)).staged wFw) = stOk := by decide +kernel

theorem witness_FirmwareRefused : wH.fwCheck (wH.staged wFw) ≠ stOk ∧ wH.accepts wO (opRowM 0x0182) true true true wOs ∧
    wH.room Reg.HPT_CMD_REJECT 0 0 1 := by unfold State.accepts State.room; decide +kernel

theorem witness_FirmwareInstallation :
    let a := wRooted wH
    let j : State := { a with jobs := { a.jobs with fw := some (wReply 0x0182), fwImage := some wFw } }
    (wFit a).calm ∧ (wFit a).accepts wO (opRowM 0x0182) true true true wOs ∧ (wFit a).fwWriteOk = true ∧ (wFit a).nvWriting 0 = false ∧
    a.holdup 400 = false ∧ a.room Reg.PWR_HOLDUP_DEFER 0 0 1 ∧ a.mild [0x7D] ∧ j.holdup 400 = false ∧ (wFit j).calm ∧ (wFit j).fwWriteOk = true ∧
    (wFit j).nvWriting 0 = false ∧ wFw.svn < 64 ∧
    (wFit j).recovery = false ∧ (wFit j).mild [0x93] ∧ ((wFit j).setRf Reg.SEC_FW 0 0 16 16 1).recovery = true ∧
    ((wFit j).setRf Reg.SEC_FW 0 0 16 16 1).fwWriteOk = true := by
  unfold State.calm State.accepts State.mild State.room; decide +kernel

theorem helloCheck_ok (s : State) (m : Hello) (h1 : (s.chooseVersion m.versions).isNone = false)
    (h2 : ((s.helloRole m).isNone || (helloPoints m).2.isNone) = false)
    (h3 : helloTenant m = false) (h4 : s.rf Reg.SEC_RNG 0 0 0 0 ≠ 0) (h5 : s.hpt.sessions.length < s.numberRange.2) : s.helloCheck m = stOk := by
  have h6 : ¬(s.numberRange.2 ≤ (s.usedNumbers s.numberRange.1 s.numberRange.2).length) := by
    simp only [State.usedNumbers, List.length_mergeSort]
    have := List.length_filter_le (fun k => decide (s.numberRange.1 ≤ k ∧ k < s.numberRange.1 + s.numberRange.2))
      (s.hpt.sessions.map (fun x => x.number))
    simp only [List.length_map] at this
    omega
  simp [State.helloCheck, h1, h2, h3, h4, h6]

/-- A HELLO of an operator, and a device that takes it. -/
def wHello : Hello := ⟨[0x11, 0x20], wChain (sm2Public 5) 1 0, pointOut (sm2Public 7), 77, false, 5⟩
def wTakes : State := (wAnchored wH).setRf Reg.HPT_CTL 0 0 1 1 1

theorem witness_HelloAccepted : wTakes.helloCheck wHello = stOk :=
  helloCheck_ok _ _ (by decide +kernel) (by decide +kernel) (by decide +kernel) (by decide +kernel) (by decide +kernel)

/-- The ciphertext and the tag of a message to a session with the keys of `wKeys`. -/
def wSeal (g : MsgHdr) (control : Bool) (pt : List Byte) : List Byte :=
  gcmSeal wKeys.kCmd (nonceOf wKeys.ivCmd g.seq control) (msgHead g) pt

/-- A control message of a type and a DATA message of one byte. -/
def wMsg (typ len : Nat) : MsgHdr := ⟨0x20, typ, 0, 0, 15360, len, 1, 0, 0, false, 0⟩

/-- Messages that pass their tags, and one that does not. -/
theorem witness_Opened :
    let p := wMsg 7 16
    let c := wMsg 6 17
    let d := wMsg 4 17
    let a := { wMsg 5 16 with stream := 1 }
    wOs.opened p true [] (wSeal p true []) = some [] ∧ wOs.opened p true [] (List.replicate 16 0) = none ∧
    wOs.opened c true ((wSeal c true [1]).take 1) ((wSeal c true [1]).drop 1) = some [1] ∧
    wOs.opened d false ((wSeal d false [1]).take 1) ((wSeal d false [1]).drop 1) = some [1] ∧
    wOs.opened a true [] (wSeal a true []) = some [] ∧ (wSeal p true []).length = 16 := by decide +kernel

theorem witness_SessionsOpenAndEnd :
    let half : State := { wH with hpt := { wH.hpt with sessions := [{ wOs with isOpen := false }] } }
    wTakes.calm ∧ wTakes.linkUp = true ∧ wTakes.encapOn false = true ∧ wHello.versions ≠ [] ∧ wHello.versions.length ≤ 4 ∧
    wTakes.hpt.sessions.find? (fun y => y.nonce == 77 && y.host == 5 && y.udp == false && !y.closing && y.cmd.next != 0) = none ∧
    wTakes.chooseVersion wHello.versions = some 0x20 ∧ wTakes.helloRole wHello = some .operator ∧
    wTakes.helloCheck { wHello with versions := [0x10] } ≠ stOk ∧
    wTakes.room Reg.HPT_HELLO_REJECT 0 0 1 ∧ half.calm ∧ half.linkUp = true ∧ half.session 15360 = some { wOs with isOpen := false } ∧
    half.room Reg.HPT_RX_DISCARD 0 0 1 ∧ half.room Reg.HPT_HELLO_REJECT 0 0 1 ∧ wH.isExit = true ∧ ([] : List Byte) ≠ wOs.share.sA := by
  unfold State.calm State.room; decide +kernel

theorem witness_SessionMessages :
    let one : State := { wH.setReg Reg.HPT_LINK_STATE 0 0 0 with hpt := { wH.hpt with sessions := [wOs] } }
    let g := wMsg 7 16
    wH.session 15360 = some wOs ∧ wOs.closing = false ∧ wH.linkUp = true ∧ wH.room Reg.HPT_RX_DISCARD 0 0 1 ∧
    isFlight 15360 = false ∧ g.session = 15360 ∧ g.ver = wOs.ver ∧ g.flags >>> 1 = 0 ∧ g.stream ≤ 2 ∧ g.udp = wOs.udp ∧ g.host = wOs.host ∧
    isFlight 0 = true ∧ wH.session 0 = some wNs ∧ wH.isEntry = true ∧ wLeaf.isEntry = false ∧ wLeaf.session 0 = some wNs ∧
    wH.room Reg.HPT_AUTH_FAIL 0 0 1 ∧ wH.mild [0x6A] ∧ wH.linkState ≠ 0 ∧ one.linkState = 0 ∧ one.hpt.sessions = [wOs] := by
  unfold State.mild State.room; decide +kernel

theorem witness_SessionStreams :
    let g := wMsg 4 17
    let e : OutMsg := ⟨4, [1], false, none, [], 12, false⟩
    let w := fun (x : Session) => ({ wH with hpt := { wH.hpt with sessions := [x] } } : State)
    let o := { wOs with ans := { wOs.ans with next := 5, sent := [e] } }
    let k := { wOs with cmd := { wOs.cmd with next := 3, unacked := 31 } }
    wH.calm ∧ wH.linkUp = true ∧ wH.session g.session = some wOs ∧ wOs.isOpen = true ∧ wOs.closing = false ∧ g.ver = wOs.ver ∧
    g.flags >>> 1 = 0 ∧ wH.ownsCmd 15360 = true ∧ wOs.ans.waiting = [] ∧ wOs.ans.sent = [] ∧ g.seq = wOs.cmd.next ∧ wOs.cmd.early = [] ∧
    wOs.cmd.unacked + 1 < 32 ∧ (w k).session 15360 = some k ∧ 2 < k.cmd.next ∧ k.ctl + 1 < 0xFFFFFFFF ∧ wOs.cmd.next + 1024 ≤ 1025 ∧
    0 < k.cmd.unacked ∧ (w o).session 15360 = some o ∧ o.ans.sent.find? (fun y => y.seq == 4 && !y.sacked) = some e ∧
    (w o).rf Reg.HPT_RETX 0 0 7 0 ≤ e.resends ∧ ({ e with resends := 11 } : OutMsg).resends < (w o).rf Reg.HPT_RETX 0 0 7 0 ∧
    (w o).room Reg.HPT_RETX_COUNT 0 0 1 ∧ ({ g with flags := 1 } : MsgHdr).flags.getLsbD 0 = true ∧ g.flags.getLsbD 0 = false ∧
    (let b := fun (op : Byte) => toLE 2 op.toNat ++ [5, 0, 0, 0, 0, 0]
     wH.cmdCheck { wOs with unanswered := [5] } (b 0xEE) = some stBadField ∧ (cmdHead (b 0xEE)).2 = 5) ∧
    wH.room Reg.HPT_CMD_REJECT 0 0 1 := by unfold State.calm State.room; decide +kernel

theorem witness_HostFramesAndLink :
    let f : Frame := ⟨0xFFFFFFFFFFFF, 0x86DD, 100, true, false, false, 0, false, 58, 128, 0, 3, 1⟩
    let d := (wH.setReg Reg.HPT_LINK_STATE 0 0 1).setReg Reg.HPT_LANE_MAP 0 0 0
    wH.calm ∧ wH.linkUp = true ∧ wH.room Reg.HPT_RX_DISCARD 0 0 1 ∧ wH.room Reg.HPT_PAUSE_RX 0 0 1 ∧ wH.room Reg.HPT_FEC_UNCORR 0 0 1 ∧
      f.len ≤ wH.portCfg 8 ∧
    wH.frameTaken f = true ∧ wH.frameTaken { f with etype := 0 } = false ∧ (5 : BitVec 48).toNat ≠ wH.macAddr ∧
    wH.encapOn true = true ∧ wH.mild [0x68] ∧ wH.pow.booted = true ∧ wH.inFlight = true ∧ wH.dieWorks 0 = true ∧
    (wH.rf Reg.HPT_LINK_STATE 0 0 23 16).testBit 7 = false ∧ wH.rf Reg.HPT_LINK_STATE 0 0 23 16 + 2 ^ 7 ≠ 0xFF ∧
    wH.rf Reg.HPT_LANE_MAP 0 0 2 0 ≠ 7 ∧
    d.calm ∧ d.pow.booted = true ∧ d.linkUp = false ∧ 14 ∈ d.pmdEnabled ∧ d.lanesWork 14 = true ∧ d.mild [0x69] ∧ d.hpt.config = [] := by
  unfold State.calm State.mild State.room; decide +kernel

/-! ### Words of step programs, bit by bit from the formats of chapter 07

The words are the spec's own worked ones (R189, *worked program*); the host hands over commands, so these are what the device's own loader
reads. -/

/-- `LOOP` of 64 rounds over 2 instructions: low word 0x0000_0000_0000_0001, high word 0x0000_0000_0001_003F. -/
theorem test_word_loop : decodeWord 5 (0x000000000001003F0000000000000001#128) = some (.loop ⟨5, 0, 0, false⟩ 63 1) := by decide +kernel

/-- `SDESC` of array 3, W4, list at 0xB_C000 (0x2F00 × 64), 4,800 entries. -/
theorem test_word_sdesc : decodeWord 5 (0x00000000000000000004B02F00630040#128) = some (.sdesc ⟨5, 0, 0, false⟩ ⟨3, 3, 0x2F00, 4800⟩) := by
  decide +kernel

/-- `EVAL` of arrays 0 to 7, W4 A4, tag 12, into tile 0 stepping 2, cleared first, operands at 0 stepping 8,704. -/
theorem test_word_eval : decodeWord 5 (0x00000002200000009000C06C00FF4020#128) =
    some (.eval ⟨5, 0, 0, true⟩ ⟨0xFF, 3, 3, 0, false, false, 12, 0, 2, true, 0, 8704⟩) := by decide +kernel

/-- `ARES` of tile 0 stepping 2, BF16, to the scratchpad at 0x9_0000 stepping 2,048. -/
theorem test_word_ares : decodeWord 5 (0x00000000800900000000240080004068#128) =
    some (.ares ⟨5, 0, 0, true⟩ ⟨0, 0, 2, 0, 0, 1, true, 0x90000, 2048, 0, 0, 0, 0, 0⟩) := by decide +kernel

/-- A bit that an opcode does not name, and an opcode that is not defined, spell no instruction (R193). -/
theorem test_word_refused : decodeWord 0 (0x00000000000000000000000000010000#128) = none ∧
    decodeWord 0 (0x000000000000000000000000000000FF#128) = none := by decide +kernel

/-! ### Ill-formed commands are refused -/

theorem test_wf_site : wellFormed (.nop { wI with site := 543 }) = true ∧ wellFormed (.nop { wI with site := 544 }) = false := by decide +kernel
theorem test_wf_array : wellFormed (.spareProgramDone 0 18) = true ∧ wellFormed (.spareProgramDone 0 19) = false := by decide +kernel
theorem test_wf_stream : wellFormed (.fillDone 0 17) = true ∧ wellFormed (.fillDone 0 15) = false := by decide +kernel
theorem test_wf_column : wellFormed (.calStatsFit 0 0 527) = true ∧ wellFormed (.calStatsFit 0 0 528) = false := by decide +kernel
theorem test_wf_port : wellFormed (.controlRetransmit ⟨5, 0⟩) = true ∧ wellFormed (.controlRetransmit ⟨6, 0⟩) = false := by decide +kernel
theorem test_wf_mesh_port : wellFormed (.reductionFlitArrival 0 4 wFlit) = true ∧ wellFormed (.reductionFlitArrival 0 5 wFlit) = false := by
  decide +kernel
theorem test_wf_lane : wellFormed (.laneLockLoss 0 8) = true ∧ wellFormed (.laneLockLoss 0 9) = false := by decide +kernel
theorem test_wf_host_lane : wellFormed (.hostLaneFailure 7) = true ∧ wellFormed (.hostLaneFailure 8) = false := by decide +kernel
theorem test_wf_die : wellFormed (.waveStart ⟨1, false⟩) = true ∧ wellFormed (.waveStart ⟨2, false⟩) = false := by decide +kernel
theorem test_wf_stack : wellFormed (.stackFailure 7) = true ∧ wellFormed (.stackFailure 8) = false := by decide +kernel
theorem test_wf_channel : wellFormed (.channelFailure 31) = true ∧ wellFormed (.channelFailure 32) = false := by decide +kernel
theorem test_wf_pair : wellFormed (.cpMismatch 3) = true ∧ wellFormed (.cpMismatch 4) = false := by decide +kernel
theorem test_wf_words : wellFormed (.regWrite wO 0 1 [0]) = true ∧ wellFormed (.regWrite wO 0 2 [0]) = false := by decide +kernel

/-! ### One step -/

/-- The state after a step, or the state itself where the step stops. -/
def after (s : State) (i : Instr) : State :=
  match step { s with pending := [i] } with
  | .next t => t
  | _ => s

/-- `SUB` wraps, with the destination also a source (R194). -/
theorem test_sub_wraps : (after (wAt { wCore with g := [(1, 3), (2, 5)] }) (.sub wI 1 1 2)).core 0 =
    { wCore with g := [(1, 0xFFFFFFFFFFFFFFFE), (2, 5)], pc := 1 } := by decide +kernel

/-- A write to g0 is discarded (R163). -/
theorem test_g0_discarded : ((after wS (.li wI 0 7)).core 0).gr 0 = 0 := by decide +kernel

/-- `SAR` keeps the sign (R194). -/
theorem test_sar : ((after (wAt { wCore with g := [(1, 0x8000000000000000)] }) (.sar wI 2 1 63)).core 0).gr 2 = 0xFFFFFFFFFFFFFFFF :=
    by decide +kernel

/-- A loop of two rounds over one instruction issues it twice (R168). -/
theorem test_loop_rounds :
    let s := after wS (.loop wI 1 0)
    (s.core 0).pc = 1 ∧ ((after s (.nop wI)).core 0).pc = 1 ∧ ((after (after s (.nop wI)) (.nop wI)).core 0).pc = 2 := by decide +kernel

/-- Predicated off, an instruction only moves on (R169). -/
theorem test_predicated_off : (after wS (.li { wI with pred := 1 } 1 7)).core 0 = { wCore with pc := 1 } := by decide +kernel

/-- `VADDS` on BF16 0x3F80 (1) with 2 gives 3, 0x4040 (R206). -/
theorem test_vadds_bf16 :
    let s := wAt { wCore with v := Mem.write [] 0 [0x80, 0x3F] }
    Mem.read ((after s (.vadds wI ⟨1, 0, 0, 0, 0, 1, 0, 0, 0x40000000⟩)).core 0).v 1024 4 = [0x40, 0x40, 0x00, 0x40] := by decide +kernel

/-- `ASETV` and then `AADDV` of 1 to 2^24: the sum rounds to 2^24 and the error term keeps the 1 (R144). -/
theorem test_error_term : accumulate ((0x4B800000 : F32), 0) 0x3F800000 = ((0x4B800000 : F32), 0x3F800000) := by decide +kernel

/-- `REG_READ` of `FLK_COORD` answers with opcode, tag, status, length and four zero bytes (R390, R393). -/
theorem test_reg_read : ((after wH (.regRead wO (Reg.FLK_COORD.addr 0 0) 1)).session 15360).map (fun x => x.ans.sent.map (fun e => e.bytes)) =
    some [[0x01, 0x81, 5, 0, 0, 0, 0, 0, 4, 0, 0, 0, 0, 0, 0, 0]] := by decide +kernel

/-- A write outside every block is answered `E_NOT_FOUND` (R393). -/
theorem test_write_nowhere : (after wH (.registerWrite 0x800000 1)).hpt.status = stNotFound := by decide +kernel

/-- `RESET_N` low resets the chip, and the map of enabled sites stays (R408). -/
theorem test_reset_pin : (after wH .resetNAssert).siteEn = wH.siteEn ∧ (after wH .resetNAssert).pow.booted = false := by decide +kernel

/-- The digest of "abc" as GB/T 32905 gives it (notes/assumptions/8.md). -/
theorem test_sm3_abc : ofLE ((sm3 [0x61, 0x62, 0x63]).reverse) =
    0x66c7f0f462eeedd9d1f2d46bdc10e4e24167c4875cf2f7a2297da02b8f4ba8e0 := by decide +kernel

/-- The block of GB/T 32907, example 1 (notes/assumptions/41.md). -/
theorem test_sm4_block : sm4Block (sm4Schedule (toBE 16 0x0123456789ABCDEFFEDCBA9876543210)) (toBE 16 0x0123456789ABCDEFFEDCBA9876543210) =
    toBE 16 0x681EDF34D206965E86B3E94F536E4246 := by decide +kernel

/-- The signature of "message digest" that GB/T 32918.5 gives (notes/assumptions/41.md). -/
theorem test_sm2_signature : sm2Sign 0x3945208F7B2144B13F36E38AC6D39F95889393692860B51A42FB81EF4DF7C5B8
      [0x59276E27D506861A16680F3AD9C02DCCEF3CC1FA3CDBE4CE6D54B80DEAC1BC21]
      [0x6D, 0x65, 0x73, 0x73, 0x61, 0x67, 0x65, 0x20, 0x64, 0x69, 0x67, 0x65, 0x73, 0x74] =
    toBE 32 0xF5A03B0648D2C4630EEAC513E1BB81A15944DA3827D5B74143AC7EACEEE720B3 ++
      toBE 32 0xB1B6AA29DF212FD8763182BC0D421CA1BB9038FD1F7F42D4840B69C485BBC1AA := by decide +kernel

/-- The sealed message of RFC 8998, appendix A.1 (notes/assumptions/41.md). -/
theorem test_gcm_seal : gcmSeal (toBE 16 0x0123456789ABCDEFFEDCBA9876543210) (toBE 12 0x00001234567800000000ABCD)
      (toBE 20 0xFEEDFACEDEADBEEFFEEDFACEDEADBEEFABADDAD2)
      (toBE 64 (0xAAAAAAAAAAAAAAAABBBBBBBBBBBBBBBBCCCCCCCCCCCCCCCCDDDDDDDDDDDDDDDD * 2 ^ 256 +
        0xEEEEEEEEEEEEEEEEFFFFFFFFFFFFFFFFEEEEEEEEEEEEEEEEAAAAAAAAAAAAAAAA)) =
    toBE 32 0x17F399F08C67D5EE19D0DC9969C4BB7D5FD46FD3756489069157B282BB200735 ++
      toBE 32 0xD82710CA5C22F0CCFA7CBF93D496AC15A56834CBCF98C397B4024A2691233B8D ++ toBE 16 0x83DE3541E4C2B58177E065A9BF7B62EC := by
  decide +kernel

/-- A spare column takes the weight scale of the column that it relieves and keeps its own gains (R113). -/
theorem test_spare_scale :
    let r : Arr := { arrDefault with corr := [(3, { corrDefault with wscale := 0x3C00, gain1 := 0x5600 })] }
    let t := r.switchSpare ⟨false, 3, 512, true, true⟩
    SMap.get t.corr corrDefault 512 = { corrDefault with wscale := 0x3C00 } ∧ steered t.steer 3 = 512 := by decide +kernel

/-- A far image with a unit whose tag fails: counted, the unit poisoned, and the array filled with it bad (R360, R361). -/
theorem test_fill_tag :
    let t := after wS (.fill wI { wF with mbase := 0x800000000000 } [3])
    t.reg Reg.MEM_FAR_TAG_FAIL 0 0 = 1 ∧ t.poison.length = 512 ∧ t.poison.head? = some (0x100000000600) ∧
    (((t.core 0).arr (t.phys 0 wF.la.toNat)).fill.map (fun f => f.bad)) = some true := by decide +kernel

/-- The place of an address in near memory, from the spec's worked figures: stack 4, address 330,010 × 32 KiB + 0x5640, channel 11,
pseudo-channel 0 (R350). -/
theorem test_near_place : nearLoc 0x5A12345640 = ⟨4, 330010 * 32768 + 0x5640, 11, 0⟩ := by decide +kernel

/-- One byte error of a codeword is found in its place, here of the second lane (R294). -/
theorem test_frame_corrected : frameErrors [0, 5] = some [1] := by decide +kernel

end Sys2Proof.Tests
end

section
/-! SUPPORT. The bits of a word: which of them a range of bits reads, and what is left of a word after a range has been set. -/

namespace Sys2Proof

theorem testBit_bitsOf (v hi lo k : Nat) : (bitsOf v hi lo).testBit k = (decide (k < hi + 1 - lo) && v.testBit (lo + k)) := by
  rw [bitsOf, Nat.testBit_mod_two_pow, Nat.testBit_div_two_pow, Nat.add_comm k lo]

/-- A word cut at bit `lo`: its low bits stay, and of the rest the lowest `hi + 1 - lo` bits become those of `x`. -/
theorem setBits_eq (v hi lo x : Nat) :
    setBits v hi lo x =
      2 ^ lo * (2 ^ (hi + 1 - lo) * (v / 2 ^ lo / 2 ^ (hi + 1 - lo)) + x % 2 ^ (hi + 1 - lo)) + v % 2 ^ lo := by
  have hv : v = 2 ^ lo * (2 ^ (hi + 1 - lo) * (v / 2 ^ lo / 2 ^ (hi + 1 - lo)) + v / 2 ^ lo % 2 ^ (hi + 1 - lo)) + v % 2 ^ lo := by
    rw [Nat.div_add_mod, Nat.div_add_mod]
  have hb : bitsOf v hi lo * 2 ^ lo = 2 ^ lo * (v / 2 ^ lo % 2 ^ (hi + 1 - lo)) := Nat.mul_comm _ _
  rw [setBits, hb, Nat.mul_comm (x % _)]
  rw [Nat.mul_add] at hv ⊢
  omega

theorem testBit_setBits (v hi lo x k : Nat) :
    (setBits v hi lo x).testBit k = if lo ≤ k ∧ k ≤ hi then x.testBit (k - lo) else v.testBit k := by
  rw [setBits_eq, Nat.testBit_two_pow_mul_add _ (Nat.mod_lt _ (Nat.two_pow_pos lo)),
    Nat.testBit_two_pow_mul_add _ (Nat.mod_lt _ (Nat.two_pow_pos (hi + 1 - lo)))]
  rcases Nat.lt_or_ge k lo with hk | hk
  · have hout : ¬(lo ≤ k ∧ k ≤ hi) := by omega
    simp [hk, hout, Nat.testBit_mod_two_pow]
  · have hge : ¬k < lo := by omega
    rcases Nat.lt_or_ge hi k with hh | hh
    · have hlen : ¬k - lo < hi + 1 - lo := by omega
      have hout : ¬(lo ≤ k ∧ k ≤ hi) := by omega
      have hsum : k - lo - (hi + 1 - lo) + (hi + 1 - lo) + lo = k := by omega
      simp [hge, hlen, hout, Nat.testBit_div_two_pow, hsum]
    · have hlen : k - lo < hi + 1 - lo := by omega
      simp [hge, hlen, hk, hh, Nat.testBit_mod_two_pow]

/-- A range that has been set holds what it has been set to. -/
theorem bitsOf_setBits_self (v hi lo x : Nat) : bitsOf (setBits v hi lo x) hi lo = x % 2 ^ (hi + 1 - lo) := by
  apply Nat.eq_of_testBit_eq
  intro k
  rw [testBit_bitsOf, testBit_setBits, Nat.testBit_mod_two_pow]
  by_cases hk : k < hi + 1 - lo
  · have hin : lo ≤ lo + k ∧ lo + k ≤ hi := by omega
    rw [if_pos hin, Nat.add_sub_cancel_left]
  · simp [hk]

/-- A range that lies apart from the one that is set keeps its bits. -/
theorem bitsOf_setBits_apart (v x : Nat) {hi lo hi' lo' : Nat} (h : hi < lo' ∨ hi' < lo) :
    bitsOf (setBits v hi lo x) hi' lo' = bitsOf v hi' lo' := by
  apply Nat.eq_of_testBit_eq
  intro k
  rw [testBit_bitsOf, testBit_bitsOf, testBit_setBits]
  by_cases hk : k < hi' + 1 - lo'
  · have hout : ¬(lo ≤ lo' + k ∧ lo' + k ≤ hi) := by omega
    rw [if_neg hout]
  · simp [hk]

theorem setBits_zero_le (v hi lo : Nat) : setBits v hi lo 0 ≤ v := by
  simp [setBits]

/-- A word of 64 bits holds every range of bits that lies below bit 64. -/
theorem bitsOf_mod_word (v hi lo : Nat) (h : hi < 64) : bitsOf (v % 2 ^ 64) hi lo = bitsOf v hi lo := by
  apply Nat.eq_of_testBit_eq
  intro k
  rw [testBit_bitsOf, testBit_bitsOf, Nat.testBit_mod_two_pow]
  by_cases hk : k < hi + 1 - lo
  · have hin : lo + k < 64 := by omega
    simp [hin]
  · simp [hk]

end Sys2Proof
end

section
/-! SUPPORT. The state after reset, and the statement about it. -/

namespace Sys2Proof.Machine

/-- After reset every stored register holds its reset value (R12). -/
theorem State.reg_reset (f : RegFam) (i j : Nat) : State.reset.reg f i j = (BitVec.ofNat 64 (f.default j)).toNat := rfl

/-- After reset every staging area is closed, and so is one that does not exist. -/
theorem State.area_reset_isOpen (k : Nat) : (State.reset.area k).isOpen = false := by
  have harea : State.reset.area k = areaReset := by
    show (List.replicate 3 areaReset).getD k areaReset = areaReset
    rw [List.getD_eq_getElem?_getD, List.getElem?_replicate]
    split <;> rfl
  rw [harea]; rfl

/-- The memories of a core are empty after reset, and so in their canonical form. -/
theorem coreDefault_canonical : coreDefault.canonical :=
  ⟨Mem.wf_nil, Mem.wf_nil, Mem.wf_nil, fun _ => Mem.wf_nil⟩

theorem State.reset_wellShaped : State.reset.wellShaped :=
  ⟨State.reset_mem_wf, fun _ => coreDefault_canonical, rfl, rfl, rfl⟩

/-- Settles O48: no register is listed in `regs`, so each holds its reset value, and the fields named are computed from those; every other
part of the state is written out in `State.reset`. -/
theorem resetState : Obligations.ResetState := by
  refine ⟨State.reg_reset, ?_, ?_, ?_, ?_, ?_, ?_, ?_, ?_, ?_, ?_, ?_, ?_, rfl, rfl, State.area_reset_isOpen, rfl, rfl, rfl, rfl, rfl, rfl,
    rfl, rfl, State.reset_wellShaped⟩
  all_goals decide

end Sys2Proof.Machine
end

section
/-! SUPPORT. Accesses to the management registers (R12, R13, R393): what a range of addresses reads and what its read changes, what a
write of one register leaves in its fields, and what an access answers or reports. -/

namespace Sys2Proof.Machine

/-! ### The checks of a range (R393) -/

/-- Which addresses a device has depends on its enabled sites alone. -/
@[simp] theorem State.addrOk_taken (s : State) (h : Hdr) (a : Nat) : (s.taken h).addrOk a = s.addrOk a := rfl

@[simp] theorem State.taken_fcl (s : State) (h : Hdr) : (s.taken h).fcl = s.fcl := rfl

theorem rangeAddrs_one (addr : Nat) : rangeAddrs addr 1 = [addr] := rfl

theorem rangeAddrs_two (addr : Nat) : rangeAddrs addr 2 = [addr, addr + 4] := rfl

/-- An address of the range that the device does not have is found first. -/
theorem State.rangeCheck_notFound {s : State} {addr count k : Nat} (hk : k < count) (ha : s.addrOk (addr + 4 * k) = false) :
    s.rangeCheck addr count = stNotFound := by
  have hmem : addr + 4 * k ∈ rangeAddrs addr count := List.mem_map.mpr ⟨k, List.mem_range.mpr hk, rfl⟩
  have hall : (rangeAddrs addr count).all s.addrOk = false := List.all_eq_false.mpr ⟨_, hmem, by simp [ha]⟩
  simp [State.rangeCheck, hall]

/-- The element (i, j) of a register family stands whole at an address that the device has: a 64-bit register with its high half (R12). -/
def State.regThere (s : State) (addr : Nat) (f : RegFam) (i j : Nat) : Prop :=
  regAt addr = some (f, i, j, 0) ∧ s.addrOk addr = true ∧ (f.wide = true → regAt (addr + 4) = some (f, i, j, 1) ∧ s.addrOk (addr + 4) = true)

/-- The number of words of a register. -/
def RegFam.words (f : RegFam) : Nat := if f.wide then 2 else 1

theorem RegFam.words_of_narrow {f : RegFam} (h : f.wide = false) : f.words = 1 := by simp [RegFam.words, h]

theorem RegFam.words_of_wide {f : RegFam} (h : f.wide = true) : f.words = 2 := by simp [RegFam.words, h]

/-- The range of one whole register passes the checks of its addresses. -/
theorem State.rangeCheck_of_regThere {s : State} {addr : Nat} {f : RegFam} {i j : Nat} (h : s.regThere addr f i j) :
    s.rangeCheck addr f.words = stOk := by
  obtain ⟨hlow, hok, hhigh⟩ := h
  cases hw : f.wide with
  | false => simp [State.rangeCheck, RegFam.words_of_narrow hw, rangeAddrs_one, halfOk, hw, hlow, hok]
  | true =>
    obtain ⟨hup, hok'⟩ := hhigh hw
    simp [State.rangeCheck, RegFam.words_of_wide hw, rangeAddrs_two, halfOk, hlow, hok, hup, hok']

/-! ### What a read shows (R12) -/

/-- A word with the bits of every WO field of a list cleared. -/
def hideWo (l : List RegField) (v : Nat) : Nat := l.foldl (fun v x => if x.acc = .wo then setBits v x.hi x.lo 0 else v) v

theorem State.shown_eq (s : State) (f : RegFam) (i j : Nat) : s.shown f i j = hideWo f.fields (s.view f i j) := rfl

/-- Exactly the bits inside WO fields are cleared. -/
theorem testBit_hideWo (l : List RegField) (v k : Nat) :
    (hideWo l v).testBit k = true ↔ v.testBit k = true ∧ ∀ x ∈ l, x.acc = .wo → ¬(x.lo ≤ k ∧ k ≤ x.hi) := by
  induction l generalizing v with
  | nil => simp [hideWo]
  | cons x t ih =>
    have hstep : hideWo (x :: t) v = hideWo t (if x.acc = .wo then setBits v x.hi x.lo 0 else v) := rfl
    rw [hstep, ih, List.forall_mem_cons]
    by_cases hx : x.acc = .wo
    · by_cases hin : x.lo ≤ k ∧ k ≤ x.hi <;> simp [hx, testBit_setBits, hin]
    · simp [hx]

/-- A WO field reads 0. -/
theorem bitsOf_hideWo_of_wo {l : List RegField} {y : RegField} (v : Nat) (hy : y ∈ l) (hwo : y.acc = .wo) :
    bitsOf (hideWo l v) y.hi y.lo = 0 := by
  apply Nat.eq_of_testBit_eq
  intro k
  rw [testBit_bitsOf, Nat.zero_testBit, Bool.and_eq_false_iff, decide_eq_false_iff_not, ← Bool.not_eq_true, testBit_hideWo]
  by_cases hk : k < y.hi + 1 - y.lo
  · exact .inr fun ⟨_, hclear⟩ => hclear y hy hwo (by omega)
  · exact .inl hk

/-- A field apart from every WO field reads as the register shows it. -/
theorem bitsOf_hideWo_of_apart {l : List RegField} {y : RegField} (v : Nat)
    (h : ∀ z ∈ l, z.acc = .wo → z.hi < y.lo ∨ y.hi < z.lo) : bitsOf (hideWo l v) y.hi y.lo = bitsOf v y.hi y.lo := by
  apply Nat.eq_of_testBit_eq
  intro k
  rw [testBit_bitsOf, testBit_bitsOf]
  by_cases hk : k < y.hi + 1 - y.lo
  · have hapart : ∀ z ∈ l, z.acc = .wo → ¬(z.lo ≤ y.lo + k ∧ y.lo + k ≤ z.hi) := fun z hz hwo => by
      have := h z hz hwo
      omega
    have hbit : (hideWo l v).testBit (y.lo + k) = v.testBit (y.lo + k) := by
      rw [Bool.eq_iff_iff, testBit_hideWo]
      exact and_iff_left hapart
    rw [hbit]
  · simp [hk]

/-! ### What a read changes (R12, R15, R447) -/

/-- The clearing of the RSC fields of a list touches registers alone. -/
theorem State.clearRsc_eq (f : RegFam) (i j : Nat) (l : List RegField) (s : State) :
    l.foldl (fun (s : State) x => if x.isRsc then s.setRf f i j x.hi x.lo 0 else s) s =
      { s with regs := (l.foldl (fun (s : State) x => if x.isRsc then s.setRf f i j x.hi x.lo 0 else s) s).regs } := by
  induction l generalizing s with
  | nil => rfl
  | cons x t ih =>
    rw [List.foldl_cons, ih]
    split <;> rfl

/-- A read changes registers and the housekeeping queue alone. -/
theorem State.afterRead_eq (s : State) (f : RegFam) (i j : Nat) :
    s.afterRead f i j = { s with regs := (s.afterRead f i j).regs, sense := (s.afterRead f i j).sense } := by
  unfold State.afterRead
  split
  · rfl
  · split
    · rw [State.clearRsc_eq]
    · rfl

@[simp] theorem State.afterRead_fcl (s : State) (f : RegFam) (i j : Nat) : (s.afterRead f i j).fcl = s.fcl := by
  rw [State.afterRead_eq]

@[simp] theorem State.afterRead_hpt (s : State) (f : RegFam) (i j : Nat) : (s.afterRead f i j).hpt = s.hpt := by
  rw [State.afterRead_eq]

/-- A register without RSC fields is left as it was. -/
theorem State.afterRead_of_no_rsc {f : RegFam} (s : State) (i j : Nat) (hb : f.base ≠ Reg.HKA_QUEUE.base)
    (h : ∀ y ∈ f.fields, y.acc ≠ .rsc) : s.afterRead f i j = s := by
  have hany : f.fields.any RegField.isRsc = false := List.any_eq_false.mpr fun y hy => by simp [RegField.isRsc, h y hy]
  simp [State.afterRead, hb, hany]

/-- The queue loses the entry shown. -/
theorem State.afterRead_hkaQueue (s : State) (i j : Nat) :
    s.afterRead Reg.HKA_QUEUE i j = { s with sense := { s.sense with queue := s.sense.queue.drop 1 } } := rfl

/-- An error counter is cleared with its flag (R412). -/
theorem State.afterRead_of_errFields {f : RegFam} (s : State) (i j : Nat) (hb : f.base ≠ Reg.HKA_QUEUE.base)
    (h : f.fields = Reg.errFields) : s.afterRead f i j = (s.setRf f i j 31 31 0).setRf f i j 30 0 0 := by
  rw [State.afterRead, if_neg hb, h]
  rfl

theorem State.reg_setRf_zero (s : State) (f : RegFam) (i j hi lo : Nat) :
    (s.setRf f i j hi lo 0).reg f i j = setBits (s.reg f i j) hi lo 0 := by
  rw [State.setRf, State.reg_setReg_self]
  exact Nat.mod_eq_of_lt ((setBits_zero_le _ _ _).trans_lt (s.reg_lt f i j))

theorem onlyRegs_setReg (s : State) (f : RegFam) (i j v : Nat) : OnlyRegs s (s.setReg f i j v) [f.addr i j] :=
  ⟨rfl, fun a ha => State.word_setReg_of_ne s f i j v a (by simpa using ha)⟩

/-- Register changes at the same addresses, one after the other. -/
theorem OnlyRegs.trans {s t u : State} {l : List Nat} (h : OnlyRegs s t l) (k : OnlyRegs t u l) : OnlyRegs s u l := by
  obtain ⟨ht, hword⟩ := h
  obtain ⟨hu, hword'⟩ := k
  refine ⟨?_, fun a ha => (hword' a ha).trans (hword a ha)⟩
  rw [ht] at hu
  exact hu

theorem onlyRegs_afterRead_of_errFields {f : RegFam} (s : State) (i j : Nat) (hb : f.base ≠ Reg.HKA_QUEUE.base)
    (h : f.fields = Reg.errFields) : OnlyRegs s (s.afterRead f i j) [f.addr i j] := by
  rw [State.afterRead_of_errFields s i j hb h]
  exact (onlyRegs_setReg _ _ _ _ _).trans (onlyRegs_setReg _ _ _ _ _)

theorem rf_afterRead_of_errFields {f : RegFam} (s : State) (i j : Nat) (hb : f.base ≠ Reg.HKA_QUEUE.base)
    (h : f.fields = Reg.errFields) : (s.afterRead f i j).rf f i j 31 0 = 0 := by
  rw [State.afterRead_of_errFields s i j hb h, State.rf, State.reg_setRf_zero, State.reg_setRf_zero]
  simp only [setBits, bitsOf]
  omega

/-! ### Reads of a range -/

theorem State.regRead_of_ok {s : State} {addr count : Nat} (h : s.rangeCheck addr count = stOk) :
    s.regRead addr count =
      ((s.readWords (rangeAddrs addr count) 0).1, stOk, (s.readWords (rangeAddrs addr count) 0).2) := by
  simp [State.regRead, h]

/-- A range with an address that the device does not have. -/
theorem State.regRead_notFound {s : State} {addr count k : Nat} (hk : k < count) (ha : s.addrOk (addr + 4 * k) = false) :
    s.regRead addr count = (s, stNotFound, []) := by
  simp [State.regRead, State.rangeCheck_notFound hk ha, stNotFound, stOk]

/-- An address inside a block at which no register is defined reads 0. -/
theorem State.regRead_of_none {s : State} {addr : Nat} (ha : s.addrOk addr = true) (hr : regAt addr = none) :
    s.regRead addr 1 = (s, stOk, [0]) := by
  have hck : s.rangeCheck addr 1 = stOk := by simp [State.rangeCheck, rangeAddrs_one, halfOk, ha, hr]
  rw [State.regRead_of_ok hck]
  simp [rangeAddrs_one, State.readWords, hr]

/-- A read of one whole register of 32 bits. -/
theorem State.regRead_of_narrow {s : State} {addr : Nat} {f : RegFam} {i j : Nat} (hr : regAt addr = some (f, i, j, 0))
    (ha : s.addrOk addr = true) (hw : f.wide = false) :
    s.regRead addr 1 = (s.afterRead f i j, stOk, [BitVec.ofNat 32 (s.shown f i j)]) := by
  have hck : s.rangeCheck addr f.words = stOk := State.rangeCheck_of_regThere ⟨hr, ha, by simp [hw]⟩
  rw [RegFam.words_of_narrow hw] at hck
  rw [State.regRead_of_ok hck]
  simp [rangeAddrs_one, State.readWords, hr]

/-- A read of one whole register of 64 bits: both halves are of one access (R12). -/
theorem State.regRead_of_wide {s : State} {addr : Nat} {f : RegFam} {i j : Nat} (h : s.regThere addr f i j) (hw : f.wide = true) :
    s.regRead addr 2 =
      (s.afterRead f i j, stOk, [BitVec.ofNat 32 (s.shown f i j), BitVec.ofNat 32 (s.shown f i j / 2 ^ 32)]) := by
  have hck := State.rangeCheck_of_regThere h
  rw [RegFam.words_of_wide hw] at hck
  obtain ⟨hlow, _, hhigh⟩ := h
  rw [State.regRead_of_ok hck]
  simp [rangeAddrs_two, State.readWords, hlow, (hhigh hw).1]

/-! ### Reads by command and over the management network -/

/-- The meaning that `REG_READ` has in both versions, with the shared checks passed. -/
theorem State.command_read_of_accepts {s : State} {h : Hdr} {x : Session} {op addr count : Nat} {recov : Bool} (hal : addr % 4 = 0)
    (h1 : 1 ≤ count) (h2 : count ≤ 256) (ha : s.accepts h (opRowM op) recov true true x) :
    s.command h (opRowM op) recov (decide (addr % 4 = 0)) (decide (1 ≤ count ∧ count ≤ 256)) (fun s _ r => s.answerRead r addr count) =
      .next ((s.taken h).answerRead (replyTo h op) addr count).settle := by
  rw [decide_eq_true hal, decide_eq_true ⟨h1, h2⟩, State.command_of_accepts ha, finish_eq]
  rfl

/-- In a calm state, a read whose range passes its checks is done. -/
theorem done_read_of_accepts {s t : State} {h : Hdr} {x : Session} {op addr count : Nat} {recov : Bool} {ws : List (BitVec 32)}
    (hc : s.calm) (hal : addr % 4 = 0) (h1 : 1 ≤ count) (h2 : count ≤ 256) (ha : s.accepts h (opRowM op) recov true true x)
    (hr : (s.taken h).regRead addr count = (t, stOk, ws)) (ht : t.fcl = s.fcl) :
    Done (s.command h (opRowM op) recov (decide (addr % 4 = 0)) (decide (1 ≤ count ∧ count ≤ 256))
      (fun s _ r => s.answerRead r addr count)) h op t (regWordBytes ws) := by
  rw [decide_eq_true hal, decide_eq_true ⟨h1, h2⟩]
  exact done_of_accepts hc ha (by rw [State.answerRead, hr]) ht

/-- `REG_READ` of version 2.0 and of version 1.1 (R396) do the same. -/
theorem done_regRead_and_vx20RegRead {s t : State} {h : Hdr} {x : Session} {addr count : Nat} {ws : List (BitVec 32)} {bs : List Byte}
    (hc : s.calm) (hal : addr % 4 = 0) (h1 : 1 ≤ count) (h2 : count ≤ 256) (hr : (s.taken h).regRead addr count = (t, stOk, ws))
    (ht : t.fcl = s.fcl) (hbs : regWordBytes ws = bs) :
    (s.accepts h (opRowM 0x0101) (recoveryReads addr count) true true x → Done (exec (.regRead h addr count) s) h 0x0101 t bs) ∧
    (s.accepts h (opRowM 0x0003) false true true x → Done (exec (.vx20RegRead h addr count) s) h 0x0003 t bs) := by
  subst hbs
  exact ⟨fun ha => done_read_of_accepts hc hal h1 h2 ha hr ht, fun ha => done_read_of_accepts hc hal h1 h2 ha hr ht⟩

/-- What a read over the management network reports (R20, R399). -/
theorem State.busRead_of_regRead {s t : State} {addr count st : Nat} {ws : List (BitVec 32)} (hb : s.pow.booted = true)
    (hr : s.regRead addr count = (t, st, ws)) :
    s.busRead addr count = .next (t.setAccess st (if st = stOk then ws else List.replicate count 0)) := by
  simp [State.busRead, hb, hr]

/-- The read of a register of 32 bits over the management network. -/
theorem exec_errorCounterRead_of_narrow {s : State} {addr : Nat} {f : RegFam} {i j : Nat} (hb : s.pow.booted = true)
    (hr : regAt addr = some (f, i, j, 0)) (ha : s.addrOk addr = true) (hw : f.wide = false) :
    exec (.errorCounterRead addr) s = .next ((s.afterRead f i j).setAccess stOk [BitVec.ofNat 32 (s.shown f i j)]) :=
  State.busRead_of_regRead hb (State.regRead_of_narrow hr ha hw)

/-- An entry of the housekeeping queue as `HKA_QUEUE` shows it; an empty queue shows 0 (R447). -/
theorem State.shown_hkaQueue (s : State) : s.shown Reg.HKA_QUEUE 0 0 = match s.sense.queue with
    | e :: _ => 2 ^ 31 + e.trig * 2 ^ 29 + e.chan * 2 ^ 24 + e.seq % 1024 * 2 ^ 14 + e.code
    | [] => 0 := rfl

theorem State.addrOk_hkaQueue (s : State) : s.addrOk Reg.HKA_QUEUE.base = true := by
  show ((blockOf Reg.HKA_QUEUE.base).isSome && true) = true
  decide

/-- A read of `HKA_QUEUE` over the management network takes the oldest entry, where there is one (R447). -/
theorem exec_hkaQueueRead_of_booted {s : State} (hb : s.pow.booted = true) :
    exec .hkaQueueRead s = .next (match s.sense.queue with
      | [] => s.setAccess stOk [0]
      | e :: l => ({ s with sense := { s.sense with queue := l } } : State).setAccess stOk
          [BitVec.ofNat 32 (2 ^ 31 + e.trig * 2 ^ 29 + e.chan * 2 ^ 24 + e.seq % 1024 * 2 ^ 14 + e.code)]) := by
  have hread : exec .hkaQueueRead s =
      .next ((s.afterRead Reg.HKA_QUEUE 0 0).setAccess stOk [BitVec.ofNat 32 (s.shown Reg.HKA_QUEUE 0 0)]) :=
    State.busRead_of_regRead hb (State.regRead_of_narrow (by decide) s.addrOk_hkaQueue rfl)
  rw [hread, State.afterRead_hkaQueue, State.shown_hkaQueue]
  cases hq : s.sense.queue with
  | nil =>
    have hsame : ({ s with sense := { s.sense with queue := [] } } : State) = s := by rw [← hq]
    exact congrArg (fun t => Host.Outcome.next (State.setAccess t stOk [0])) hsame
  | cons e l => rfl

/-- The report of an access whose effect leaves the host port alone. -/
theorem State.setAccess_eq {s t : State} (h : t.hpt = s.hpt) (st : Nat) (ws : List (BitVec 32)) :
    t.setAccess st ws = { t with hpt := { s.hpt with status := st, data := ws } } := by
  rw [State.setAccess, h]

theorem regWordBytes_ofNat (v : Nat) : regWordBytes [BitVec.ofNat 32 v] = toLE 4 (v % 2 ^ 32) := by
  simp [regWordBytes, BitVec.toNat_ofNat]

theorem regWordBytes_pair (v w : Nat) :
    regWordBytes [BitVec.ofNat 32 v, BitVec.ofNat 32 w] = toLE 4 (v % 2 ^ 32) ++ toLE 4 (w % 2 ^ 32) := by
  simp [regWordBytes, BitVec.toNat_ofNat]

/-! ### What a write leaves in the fields of a register (R12) -/

/-- The value that a write of `b` leaves in a field of an access code that holds `old`. -/
def Access.written (acc : Access) (old b : Nat) : Nat :=
  match acc with
  | .rw => b
  | .w1s => old ||| b
  | .w1c => old - (old &&& b)
  | _ => old

/-- The word `v` of a register with one field written. -/
def RegWr.writeField (w : RegWr) (v : Nat) (x : RegField) : Nat :=
  let b := bitsOf w.value x.hi x.lo
  match x.acc with
  | .rw => setBits v x.hi x.lo b
  | .w1s => setBits v x.hi x.lo (bitsOf v x.hi x.lo ||| b)
  | .w1c => setBits v x.hi x.lo (bitsOf v x.hi x.lo - (bitsOf v x.hi x.lo &&& b))
  | _ => v

theorem RegWr.result_eq (w : RegWr) (old : Nat) : w.result old = w.fam.fields.foldl w.writeField old := rfl

/-- The field written holds what its access code makes of the old and the written bits. -/
theorem RegWr.bitsOf_writeField_self (w : RegWr) (v : Nat) (x : RegField) :
    bitsOf (w.writeField v x) x.hi x.lo = x.acc.written (bitsOf v x.hi x.lo) (bitsOf w.value x.hi x.lo) := by
  have hb := bitsOf_lt w.value x.hi x.lo
  have hv := bitsOf_lt v x.hi x.lo
  cases hacc : x.acc with
  | rw => simp only [RegWr.writeField, hacc, Access.written, bitsOf_setBits_self, Nat.mod_eq_of_lt hb]
  | w1s => simp only [RegWr.writeField, hacc, Access.written, bitsOf_setBits_self, Nat.mod_eq_of_lt (Nat.or_lt_two_pow hv hb)]
  | w1c =>
    simp only [RegWr.writeField, hacc, Access.written, bitsOf_setBits_self,
      Nat.mod_eq_of_lt ((Nat.sub_le _ _).trans_lt hv)]
  | ro | wo | rsc => simp only [RegWr.writeField, hacc, Access.written]

theorem RegWr.bitsOf_writeField_apart (w : RegWr) (v : Nat) {x y : RegField} (h : x.hi < y.lo ∨ y.hi < x.lo) :
    bitsOf (w.writeField v x) y.hi y.lo = bitsOf v y.hi y.lo := by
  cases hacc : x.acc <;> simp only [RegWr.writeField, hacc, bitsOf_setBits_apart _ _ h]

theorem RegWr.bitsOf_foldl_writeField_apart (w : RegWr) {l : List RegField} {y : RegField} (v : Nat)
    (h : ∀ x ∈ l, x.hi < y.lo ∨ y.hi < x.lo) : bitsOf (l.foldl w.writeField v) y.hi y.lo = bitsOf v y.hi y.lo := by
  induction l generalizing v with
  | nil => rfl
  | cons x t ih =>
    obtain ⟨hx, ht⟩ := List.forall_mem_cons.mp h
    rw [List.foldl_cons, ih _ ht, w.bitsOf_writeField_apart v hx]

/-- Of fields that lie apart, each is written by itself. -/
theorem RegWr.bitsOf_foldl_writeField (w : RegWr) {l : List RegField} {y : RegField} (v : Nat)
    (hl : l.Pairwise (fun a b => a.hi < b.lo ∨ b.hi < a.lo)) (hy : y ∈ l) :
    bitsOf (l.foldl w.writeField v) y.hi y.lo = y.acc.written (bitsOf v y.hi y.lo) (bitsOf w.value y.hi y.lo) := by
  induction l generalizing v with
  | nil => exact absurd hy List.not_mem_nil
  | cons x t ih =>
    obtain ⟨hx, ht⟩ := List.pairwise_cons.mp hl
    rw [List.foldl_cons]
    rcases List.mem_cons.mp hy with rfl | hmem
    · rw [w.bitsOf_foldl_writeField_apart _ fun z hz => (hx z hz).symm, w.bitsOf_writeField_self]
    · rw [ih _ ht hmem, w.bitsOf_writeField_apart v (hx y hmem)]

theorem State.rf_plainWrite (s : State) (w : RegWr) {y : RegField} (hl : w.fam.fields.Pairwise (fun a b => a.hi < b.lo ∨ b.hi < a.lo))
    (hy : y ∈ w.fam.fields) (hhi : y.hi < 64) :
    (s.plainWrite w).rf w.fam w.i w.j y.hi y.lo =
      y.acc.written (bitsOf (s.reg w.fam w.i w.j) y.hi y.lo) (bitsOf w.value y.hi y.lo) := by
  rw [State.rf, State.plainWrite, State.reg_setReg_self, bitsOf_mod_word _ _ _ hhi, RegWr.result_eq,
    w.bitsOf_foldl_writeField _ hl hy]

/-! ### The write of one whole register -/

/-- The write of the register (f, i, j) that 64 bits ask for; a register of 32 bits takes the low ones. -/
def wholeWr (f : RegFam) (i j : Nat) (v : BitVec 64) : RegWr := ⟨f, i, j, if f.wide then v.toNat else v.toNat % 2 ^ 32⟩

/-- The status of the write of one whole register: R393's stages 2 and 3, then the register's own rule. -/
def State.writeStatus (s : State) (w : RegWr) : Nat :=
  if w.fieldsOk = false then stBadField else if w.rangeOk = false then stRange else s.ownRule (s.plainWrite w) w

theorem wordsAt_of_regThere {s : State} {addr : Nat} {f : RegFam} {i j : Nat} (v : BitVec 64) (h : s.regThere addr f i j) :
    wordsAt addr v = if f.wide then [v.setWidth 32, (v >>> 32).setWidth 32] else [v.setWidth 32] := by
  simp [wordsAt, h.1]

theorem length_wordsAt {s : State} {addr : Nat} {f : RegFam} {i j : Nat} (v : BitVec 64) (h : s.regThere addr f i j) :
    (wordsAt addr v).length = f.words := by
  rw [wordsAt_of_regThere v h, RegFam.words]
  split <;> rfl

theorem gatherWr_narrow {a : Nat} {f : RegFam} {i j : Nat} (w : BitVec 32) (h : regAt a = some (f, i, j, 0)) :
    gatherWr [(a, w)] = [⟨f, i, j, w.toNat⟩] := by
  unfold gatherWr
  simp only [h]

theorem gatherWr_wide {a b : Nat} {f : RegFam} {i j : Nat} (w v : BitVec 32) (h : regAt a = some (f, i, j, 0))
    (h' : regAt b = some (f, i, j, 1)) (hw : f.wide = true) :
    gatherWr [(a, w), (b, v)] = [⟨f, i, j, w.toNat + 2 ^ 32 * v.toNat⟩] := by
  have hrest : gatherWr [(b, v)] = [] := by
    unfold gatherWr
    simp only [h', gatherWr]
  unfold gatherWr
  simp only [h, hrest, hw, if_true]

/-- The two halves of 64 bits give them back. -/
theorem toNat_halves (v : BitVec 64) : (v.setWidth 32).toNat + 2 ^ 32 * ((v >>> 32).setWidth 32).toNat = v.toNat := by
  have hv := v.isLt
  simp only [BitVec.toNat_setWidth, BitVec.toNat_ushiftRight, Nat.shiftRight_eq_div_pow]
  omega

/-- The words of a whole register are the one write of it. -/
theorem gatherWr_wordsAt {s : State} {addr : Nat} {f : RegFam} {i j : Nat} (v : BitVec 64) (h : s.regThere addr f i j) :
    gatherWr ((rangeAddrs addr f.words).zip (wordsAt addr v)) = [wholeWr f i j v] := by
  rw [wordsAt_of_regThere v h, wholeWr]
  obtain ⟨hlow, _, hhigh⟩ := h
  cases hw : f.wide with
  | false =>
    rw [RegFam.words_of_narrow hw, rangeAddrs_one]
    exact (gatherWr_narrow _ hlow).trans (by simp [BitVec.toNat_setWidth])
  | true =>
    rw [RegFam.words_of_wide hw, rangeAddrs_two]
    exact (gatherWr_wide _ _ hlow (hhigh hw).1 hw).trans (by rw [toNat_halves]; rfl)

/-- Every word of a whole register lies in a register. -/
theorem all_regAt_isSome_wordsAt {s : State} {addr : Nat} {f : RegFam} {i j : Nat} (v : BitVec 64) (h : s.regThere addr f i j) :
    ((rangeAddrs addr f.words).zip (wordsAt addr v)).all (fun x => (regAt x.1).isSome) = true := by
  rw [wordsAt_of_regThere v h]
  obtain ⟨hlow, _, hhigh⟩ := h
  cases hw : f.wide with
  | false => simp [RegFam.words_of_narrow hw, rangeAddrs_one, hlow]
  | true => simp [RegFam.words_of_wide hw, rangeAddrs_two, hlow, (hhigh hw).1]

theorem State.writeCheck_wordsAt {s : State} {addr : Nat} {f : RegFam} {i j : Nat} (v : BitVec 64) (h : s.regThere addr f i j) :
    s.writeCheck ((rangeAddrs addr f.words).zip (wordsAt addr v)) addr = s.writeStatus (wholeWr f i j v) := by
  have hlen : ((rangeAddrs addr f.words).zip (wordsAt addr v)).length = f.words := by
    simp [length_wordsAt v h, rangeAddrs]
  rw [State.writeCheck, hlen, gatherWr_wordsAt v h, all_regAt_isSome_wordsAt v h, State.rangeCheck_of_regThere h, State.writeStatus]
  generalize wholeWr f i j v = w
  cases hfields : w.fieldsOk with
  | false => simp [hfields]
  | true =>
    cases hrange : w.rangeOk with
    | false => simp [hfields, hrange]
    | true => by_cases hown : s.ownRule (s.plainWrite w) w = stOk <;> simp [hfields, hrange, hown]

/-- A write of one whole register that its checks let pass is made. -/
theorem State.regWrite_of_ok {s : State} {addr : Nat} {f : RegFam} {i j : Nat} {v : BitVec 64} (h : s.regThere addr f i j)
    (hst : s.writeStatus (wholeWr f i j v) = stOk) :
    s.regWrite addr (wordsAt addr v) = (s.applyWrite (wholeWr f i j v), stOk, [wholeWr f i j v]) := by
  rw [State.regWrite, length_wordsAt v h, State.writeCheck_wordsAt v h, gatherWr_wordsAt v h, hst]
  rfl

/-- A write of one whole register that a check rejects, but not for want of hold-up energy, changes nothing. -/
theorem State.regWrite_of_rejected {s : State} {addr : Nat} {f : RegFam} {i j : Nat} {v : BitVec 64} (h : s.regThere addr f i j)
    {st : Nat} (hst : s.writeStatus (wholeWr f i j v) = st) (hno : st ≠ stOk) (hbank : st ≠ stHoldup) :
    s.regWrite addr (wordsAt addr v) = (s, st, []) := by
  rw [State.regWrite, length_wordsAt v h, State.writeCheck_wordsAt v h, gatherWr_wordsAt v h, hst]
  simp [hno, hbank, State.holdupShort]

theorem length_wordsAt_pos (addr : Nat) (v : BitVec 64) : 0 < (wordsAt addr v).length := by
  unfold wordsAt
  split
  · split <;> exact Nat.succ_pos _
  · exact Nat.succ_pos _

/-- A write at an address that the device does not have changes nothing (R393). -/
theorem State.regWrite_notFound {s : State} {addr : Nat} (v : BitVec 64) (ha : s.addrOk addr = false) :
    s.regWrite addr (wordsAt addr v) = (s, stNotFound, []) := by
  have hlen : ((rangeAddrs addr (wordsAt addr v).length).zip (wordsAt addr v)).length = (wordsAt addr v).length := by
    simp [rangeAddrs]
  have hck : s.rangeCheck addr (wordsAt addr v).length = stNotFound := State.rangeCheck_notFound (k := 0) (length_wordsAt_pos addr v) ha
  have hst : s.writeCheck ((rangeAddrs addr (wordsAt addr v).length).zip (wordsAt addr v)) addr = stNotFound := by
    rw [State.writeCheck, hlen, hck]
    rfl
  rw [State.regWrite, hst]
  simp [stNotFound, stOk, stHoldup, State.holdupShort]

/-! ### Writes by command and over the management network -/

/-- No register was written, and nothing follows. -/
theorem State.afterWrite_nil (s : State) : s.afterWrite [] = s := rfl

/-- What a write over the management network reports (R20, R399), in a calm state and where nothing follows. -/
theorem State.busWrite_of_regWrite {s t : State} {addr st : Nat} {words : List (BitVec 32)} {ws : List RegWr} (hc : s.calm)
    (hb : s.pow.booted = true) (hr : s.regWrite addr words = (t, st, ws)) (hf : t.fcl = s.fcl) (hws : ∀ u : State, u.afterWrite ws = u) :
    s.busWrite addr words = .next (t.setAccess st []) := by
  simp only [State.busWrite, hb, hr, hws]
  exact finish_of_calm hc hf

/-- The meaning of `REG_WRITE` with the shared checks passed, where nothing follows the answer. -/
theorem exec_regWrite_of_accepts {s t : State} {h : Hdr} {x : Session} {addr st : Nat} {words : List (BitVec 32)} {ws : List RegWr}
    (ha : s.accepts h (opRowM 0x0102) false true true x) (hal : addr % 4 = 0) (hr : (s.taken h).regWrite addr words = (t, st, ws))
    (hws : ∀ u : State, u.afterWrite ws = u) :
    exec (.regWrite h addr words.length words) s = .next (t.answer (replyTo h 0x0102) st []).settle := by
  have henc : (decide (addr % 4 = 0) && words.length == words.length) = true := by simp [hal]
  show execRegWrite h addr words.length words s = _
  rw [execRegWrite, henc, State.command_of_accepts ha, finish_eq, hr]
  dsimp only
  rw [hws]
  rfl

/-! ### The registers with an effect of their own -/

/-- The registers whose write makes more of the state than its own value, or resets the device afterwards. -/
def effectRegs : List Nat :=
  [Reg.FLK_FORM.base, Reg.FLK_COORD.base, Reg.SPM_PWR.base, Reg.SPM_MARCH.base, Reg.FCL_SIG_ERASE.base, Reg.FCL_CHIP_RESET.base]

theorem State.applyWrite_of_plain (s : State) {w : RegWr} (h : w.fam.base ∉ effectRegs) : s.applyWrite w = s.plainWrite w := by
  simp only [effectRegs, List.mem_cons, not_or] at h
  obtain ⟨hform, hcoord, hpwr, hmarch, herase, _⟩ := h
  simp only [State.applyWrite, hform, hcoord, hpwr, hmarch, herase, or_self, if_false]

/-- A write of shape or coordinates shows the device its number too (R290). -/
theorem State.applyWrite_of_devNo (s : State) {w : RegWr} (h : w.fam.base = Reg.FLK_FORM.base ∨ w.fam.base = Reg.FLK_COORD.base) :
    s.applyWrite w = (s.plainWrite w).showDevNo := if_pos h

/-- Nothing follows a write that neither resets the device (R408) nor retrains the port (R400). -/
theorem afterWrite_of_plain {w : RegWr} (h : w.fam.base ∉ effectRegs) (hctl : ¬(w.fam.base = Reg.HPT_CTL.base ∧ w.value.testBit 0 = true))
    (u : State) : u.afterWrite [w] = u := by
  have hbase : w.fam.base ≠ Reg.FCL_CHIP_RESET.base := fun he => h (by rw [he]; decide)
  have hreset : w.isReset = false := by simpa [RegWr.isReset] using hbase
  have hretrain : w.isRetrain = false := by simpa [RegWr.isRetrain] using hctl
  simp [State.afterWrite, hreset, hretrain]

/-- Nor does anything follow a write of the device's shape or coordinates. -/
theorem afterWrite_of_devNo {w : RegWr} (h : w.fam.base = Reg.FLK_FORM.base ∨ w.fam.base = Reg.FLK_COORD.base) (u : State) :
    u.afterWrite [w] = u := by
  have hreset : w.isReset = false := by rcases h with h | h <;> rw [RegWr.isReset, h] <;> rfl
  have hretrain : w.isRetrain = false := by rcases h with h | h <;> rw [RegWr.isRetrain, h] <;> rfl
  simp [State.afterWrite, hreset, hretrain]

theorem State.writeStatus_of_ok (s : State) {w : RegWr} (hf : w.fieldsOk = true) (hr : w.rangeOk = true) :
    s.writeStatus w = s.ownRule (s.plainWrite w) w := by
  simp [State.writeStatus, hf, hr]

section
variable {s : State} {h : Hdr} {x : Session} {addr : Nat} {f : RegFam} {i j : Nat} {v : BitVec 64}

/-- A whole register is there for a command as it is for the management network. -/
theorem State.regThere_taken (hat : s.regThere addr f i j) : (s.taken h).regThere addr f i j := hat

/-- A write of one whole register whose effect is `e`, both ways: over the management network it is reported, and by the host it is
answered `OK`. -/
theorem writes_of_applyWrite (hc : s.calm) (hb : s.pow.booted = true) (hat : s.regThere addr f i j)
    (hf : (wholeWr f i j v).fieldsOk = true) (hr : (wholeWr f i j v).rangeOk = true)
    (e : State → State) (he : ∀ t : State, t.applyWrite (wholeWr f i j v) = e t) (hfcl : ∀ t, (e t).fcl = t.fcl)
    (hhpt : ∀ t, (e t).hpt = t.hpt) (hws : ∀ t : State, t.afterWrite [wholeWr f i j v] = t) :
    (s.ownRule (s.plainWrite (wholeWr f i j v)) (wholeWr f i j v) = stOk →
      exec (.registerWrite addr v) s = .next { e s with hpt := { s.hpt with status := stOk, data := [] } }) ∧
    (s.accepts h (opRowM 0x0102) false true true x ∧ addr % 4 = 0 →
      (s.taken h).ownRule ((s.taken h).plainWrite (wholeWr f i j v)) (wholeWr f i j v) = stOk →
      Done (exec (.regWrite h addr (wordsAt addr v).length (wordsAt addr v)) s) h 0x0102 (e (s.taken h)) []) := by
  refine ⟨fun hown => ?_, fun ⟨ha, hal⟩ hown => ?_⟩
  · have hw := State.regWrite_of_ok hat ((s.writeStatus_of_ok hf hr).trans hown)
    rw [he] at hw
    rw [← State.setAccess_eq (hhpt s)]
    exact State.busWrite_of_regWrite hc hb hw (hfcl s) hws
  · have hw := State.regWrite_of_ok (State.regThere_taken hat) (((s.taken h).writeStatus_of_ok hf hr).trans hown)
    rw [he] at hw
    have hfin := finish_of_calm (t := (e (s.taken h)).answer (replyTo h 0x0102) stOk []) hc
      (by rw [State.answer_ok_fcl, hfcl]; rfl)
    exact (exec_regWrite_of_accepts ha hal hw hws).trans hfin

/-- A write that changes nothing on its own, both ways: the report or the answer is all. -/
theorem writes_of_rejected (hc : s.calm) (hb : s.pow.booted = true) {st : Nat} (hbus : s.regWrite addr (wordsAt addr v) = (s, st, []))
    (hcmd : (s.taken h).regWrite addr (wordsAt addr v) = (s.taken h, st, [])) :
    exec (.registerWrite addr v) s = .next { s with hpt := { s.hpt with status := st, data := [] } } ∧
    (s.accepts h (opRowM 0x0102) false true true x ∧ addr % 4 = 0 →
      exec (.regWrite h addr (wordsAt addr v).length (wordsAt addr v)) s = .next ((s.taken h).answer (replyTo h 0x0102) st []).settle) :=
  ⟨State.busWrite_of_regWrite hc hb hbus rfl State.afterWrite_nil,
    fun ⟨ha, hal⟩ => exec_regWrite_of_accepts ha hal hcmd State.afterWrite_nil⟩

/-- A write of one whole register that its checks reject. -/
theorem writes_of_writeStatus (hc : s.calm) (hb : s.pow.booted = true) (hat : s.regThere addr f i j) {st : Nat}
    (hst : s.writeStatus (wholeWr f i j v) = st) (hst' : (s.taken h).writeStatus (wholeWr f i j v) = st) (hno : st ≠ stOk)
    (hbank : st ≠ stHoldup) :
    exec (.registerWrite addr v) s = .next { s with hpt := { s.hpt with status := st, data := [] } } ∧
    (s.accepts h (opRowM 0x0102) false true true x ∧ addr % 4 = 0 →
      exec (.regWrite h addr (wordsAt addr v).length (wordsAt addr v)) s = .next ((s.taken h).answer (replyTo h 0x0102) st []).settle) :=
  writes_of_rejected hc hb (State.regWrite_of_rejected hat hst hno hbank)
    (State.regWrite_of_rejected (State.regThere_taken hat) hst' hno hbank)

end

end Sys2Proof.Machine
end

section
/-! SUPPORT. The statements about accesses to the management registers, from the lemmas above. -/

namespace Sys2Proof.Machine

/-- Settles O31, part by part: what a command answers, what a register shows, what its read changes, and what the management network
reports. -/
theorem registerReads : Obligations.RegisterReads := by
  unfold Obligations.RegisterReads
  intro s h x addr count f i j hcalm hal u v new old told
  refine ⟨fun h1 h2 => ⟨?_, ?_, ?_⟩, fun y hy => ⟨?_, ?_⟩, fun ha => ⟨?_, ?_, ?_⟩, ?_, ?_, fun hb => ⟨?_, ?_, ?_⟩⟩
  -- the words of a range, or the status of its check
  · exact State.command_read_of_accepts hal h1 h2
  · exact State.command_read_of_accepts hal h1 h2
  · exact fun ⟨k, hk, hno⟩ => State.regRead_notFound hk hno
  -- the fields that are shown
  · rw [State.shown_eq]
    exact bitsOf_hideWo_of_wo _ hy
  · rw [State.shown_eq]
    exact fun _ => bitsOf_hideWo_of_apart _
  -- a register of 32 bits, one of 64 bits, an address without a register
  · exact fun hr hw => done_regRead_and_vx20RegRead hcalm hal le_rfl (by decide) (State.regRead_of_narrow hr ha hw) (by simp [u])
      (regWordBytes_ofNat v)
  · exact fun hlow hup hw ha' => done_regRead_and_vx20RegRead hcalm hal (by decide) (by decide)
      (State.regRead_of_wide ⟨hlow, ha, fun _ => ⟨hup, ha'⟩⟩ hw) (by simp [u]) (regWordBytes_pair v _)
  · exact fun hr => done_regRead_and_vx20RegRead hcalm hal le_rfl (by decide) (State.regRead_of_none ha hr) rfl rfl
  -- what a read changes
  · exact State.afterRead_of_no_rsc u i j
  · exact fun hf herr => ⟨onlyRegs_afterRead_of_errFields s i j hf herr, rf_afterRead_of_errFields s i j hf herr⟩
  -- reads over the management network
  · intro ha hr hw
    rw [exec_errorCounterRead_of_narrow hb hr ha hw, State.setAccess_eq (s.afterRead_hpt f i j)]
  · exact fun hno => State.busRead_of_regRead hb (State.regRead_notFound (k := 0) Nat.one_pos hno)
  · rw [exec_hkaQueueRead_of_booted hb]
    cases s.sense.queue <;> rfl

/-- Settles O32: the write of one whole register is made, rejected by its fields, its range or its own rule, or finds no register, both over
the management network and by command; its fields then hold what `Access.written` says. -/
theorem registerWrites : Obligations.RegisterWrites := by
  unfold Obligations.RegisterWrites
  intro s h x addr v f i j hc u w words ok told here makes rejected
  refine ⟨fun ⟨hb, hat⟩ hf hr => ⟨fun hbase hctl => ?_, fun hplace => ?_, fun st hno hbank hown hown' => ?_⟩,
    ⟨onlyRegs_setReg s f i j _, fun hapart hlt y hy => ?_⟩, fun hb hno => ?_, fun ⟨hb, hat⟩ hf => ?_, fun ⟨hb, hat⟩ hf hr => ?_⟩
  · exact writes_of_applyWrite hc hb hat hf hr (fun t => t.plainWrite w) (fun t => t.applyWrite_of_plain hbase) (fun _ => rfl) (fun _ => rfl)
      (afterWrite_of_plain hbase hctl)
  · exact writes_of_applyWrite hc hb hat hf hr (fun t => (t.plainWrite w).showDevNo) (fun t => t.applyWrite_of_devNo hplace) (fun _ => rfl)
      (fun _ => rfl) (afterWrite_of_devNo hplace)
  · exact writes_of_writeStatus hc hb hat ((s.writeStatus_of_ok hf hr).trans hown) ((u.writeStatus_of_ok hf hr).trans hown') hno hbank
  · exact s.rf_plainWrite w hapart hy (hlt y hy).2
  · exact writes_of_rejected hc hb (State.regWrite_notFound v hno) (State.regWrite_notFound v hno)
  · have hst : ∀ t : State, t.writeStatus w = stBadField := fun _ => if_pos hf
    exact writes_of_writeStatus hc hb hat (hst s) (hst u) (by decide) (by decide)
  · have hst : ∀ t : State, t.writeStatus w = stRange := fun _ => by simp [State.writeStatus, hf, hr]
    exact writes_of_writeStatus hc hb hat (hst s) (hst u) (by decide) (by decide)

end Sys2Proof.Machine
end

section
/-! SUPPORT. The statement about mesh coordinates. -/

namespace Sys2Proof.Machine

/-- The digits of a site's number: its die, reach, row and column (R10). -/
theorem site_digits {die reach row col : Nat} (hr : reach < 4) (hrow : row < 4) (hcol : col < 17) :
    let site := die * 272 + reach * 68 + row * 17 + col
    site / 272 = die ∧ site % 272 / 68 = reach ∧ site % 68 / 17 = row ∧ site % 17 = col := by
  intro site
  refine ⟨?_, ?_, ?_, ?_⟩ <;> simp only [site] <;> omega

/-- Settles O19, from the digits of the site's number. -/
theorem meshCoordinates : Obligations.MeshCoordinates := by
  unfold Obligations.MeshCoordinates
  intro die reach row col hd hr hrow hcol site
  obtain ⟨h1, h2, h3, h4⟩ := site_digits (die := die) hr hrow hcol
  have hx : siteX site = die * 34 + reach % 2 * 17 + col := by simp only [siteX, dieOf, site, h1, h2, h4]
  have hy : siteY site = reach / 2 * 4 + row := by simp only [siteY, site, h2, h3]
  refine ⟨hx, hy, by omega, by omega, ?_⟩
  rw [hx, hy, siteAt]
  simp only [site]
  omega

end Sys2Proof.Machine
end

section
/-! SUPPORT. A state that `State.wellShaped` allows and a step does not keep. The predicate looks at the core that a site's number finds, and asks
nothing of the list of cores itself. A list may name a site twice: a read finds the first entry, and `State.stopIssue`, which builds the list
anew entry by entry, keeps the last. -/

namespace Sys2Proof.Machine

/-- A core whose scratchpad lists a byte 0, which the canonical form leaves out. -/
def spoiltCore : Core := { coreDefault with spm := [(0, 0)] }

/-- Site 0 is listed twice, the spoilt core behind one as reset leaves it; a copy of the collector is about to differ (R410). -/
def shadowedState : State := { State.reset with pending := [.collectorCopyMismatch], cores := [(0, coreDefault), (0, spoiltCore)] }

/-- No read sees the second entry. -/
theorem shadowedState_core (k : Nat) : shadowedState.core k = coreDefault := by
  by_cases h : 0 = k <;> simp [State.core, shadowedState, SMap.get, h]

theorem shadowedState_wellShaped : shadowedState.wellShaped :=
  ⟨rfl, fun k => by rw [shadowedState_core]; exact coreDefault_canonical, rfl, rfl, rfl⟩

/-- Entry to the safe state stops every core (R411), and with it brings the second entry to the front. -/
theorem step_shadowedState :
    step shadowedState = .next ((({ shadowedState with pending := [] } : State).enterSafe 1).settle) := rfl

/-- Refutes O47: in a well-shaped state the list of cores may name a site twice, the second entry not in canonical form; a step that stops every
core leaves that entry as the site's core. -/
theorem not_stepKeepsSitesAndMemoryForm : ¬ Obligations.StepKeepsSitesAndMemoryForm := by
  unfold Obligations.StepKeepsSitesAndMemoryForm
  rintro ⟨-, hshape⟩
  obtain ⟨-, hcores, -⟩ := hshape shadowedState _ shadowedState_wellShaped step_shadowedState
  obtain ⟨hspm, -⟩ := hcores 0
  exact absurd hspm (by decide +kernel)

end Sys2Proof.Machine
end

section
/-! SUPPORT. A boundary that leaves a switch of an array listed. Step 5 clears the list of switches with the installation that they belong to
(`State.install`), and the statement does not ask that a state without an installation lists none. -/

namespace Sys2Proof.Machine

/-- A release that decides nothing. -/
def plainRelease : Release := ⟨0, false, 0, false, false, false, ⟨false, false, false, false⟩, 0, [], [], [], []⟩

/-- A formed device whose release has come; no installation waits, but an array's switch is listed. -/
def switchListed : State :=
  { State.reset.setReg Reg.FLK_FLIGHT_STATE 0 0 2 with
    siteEn := 0, flt := { fltReset with release := some plainRelease }, jobs := { jobsReset with switches := [(0, 0, 0)] } }

theorem switchListed_boundary_switches : (switchListed.boundary plainRelease).jobs.switches = [(0, 0, 0)] := by decide +kernel

/-- Refutes O38, at step 5: where no installation waits, a boundary leaves the listed switches of arrays as they are. -/
theorem not_boundaryAndGrace : ¬ Obligations.BoundaryAndGrace := by
  unfold Obligations.BoundaryAndGrace
  intro h
  obtain ⟨-, hboundary, -⟩ := h switchListed plainRelease
  obtain ⟨-, -, -, -, -, -, ⟨-, -, hswitches, -⟩, -⟩ := hboundary rfl (by decide +kernel)
  exact absurd (switchListed_boundary_switches.symm.trans hswitches) (by simp)

end Sys2Proof.Machine
end

section
/-! SUPPORT. Registers after a field of one of them has been set, and after a raise: which of them it can write. -/

namespace Sys2Proof.Machine

theorem State.rf_setRf_self (s : State) (f : RegFam) (i j lo v : Nat) {hi : Nat} (h : hi < 64) :
    (s.setRf f i j hi lo v).rf f i j hi lo = v % 2 ^ (hi + 1 - lo) := by
  rw [State.rf, State.setRf, State.reg_setReg_self, bitsOf_mod_word _ _ _ h, bitsOf_setBits_self]

/-- Setting a field leaves the bits apart from it. -/
theorem State.rf_setRf_apart (s : State) (f : RegFam) (i j v : Nat) {hi lo hi' lo' : Nat} (h : hi' < 64) (ha : hi < lo' ∨ hi' < lo) :
    (s.setRf f i j hi lo v).rf f i j hi' lo' = s.rf f i j hi' lo' := by
  rw [State.rf, State.setRf, State.reg_setReg_self, bitsOf_mod_word _ _ _ h, bitsOf_setBits_apart _ _ ha, State.rf]

theorem State.rf_setRf_of_ne (s : State) (f g : RegFam) (i j hi lo v i' j' hi' lo' : Nat) (h : g.addr i' j' ≠ f.addr i j) :
    (s.setRf f i j hi lo v).rf g i' j' hi' lo' = s.rf g i' j' hi' lo' := by
  rw [State.rf, State.reg_setRf_of_ne _ _ _ _ _ _ _ _ _ _ h, State.rf]

/-- An address below the registers of the sources, and none of the four that a raise writes there: no raise writes it (R406, R412, R414). -/
def offRaise (a : Nat) : Prop :=
  a < 0x31000 ∧ a ∉ [Reg.FCL_SAT_LAST, Reg.FCL_SIG_NEXT, Reg.FCL_SIG_DROPPED, Reg.FCL_SIG_SUPPRESSED].map RegFam.base

theorem State.reg_bump_of_ne (s : State) (f g : RegFam) (i j n i' j' : Nat) (h : g.addr i' j' ≠ f.addr i j) :
    (s.bump f i j n).1.reg g i' j' = s.reg g i' j' := by
  unfold State.bump
  dsimp only
  split
  · rfl
  · split
    · exact State.reg_setReg_of_ne _ _ _ _ _ _ _ _ h
    · exact State.reg_setRf_of_ne _ _ _ _ _ _ _ _ _ _ h

@[simp] theorem State.react_regs (s : State) (src unit mask : Nat) (fresh : Bool) : (s.react src unit mask fresh).regs = s.regs := by
  unfold State.react
  dsimp only
  rw [apply_ite State.regs]
  exact ite_self _

section
variable {g : RegFam} {i j : Nat} {again : State → Nat → Nat → State}

theorem State.reg_countWith (hg : offRaise (g.addr i j)) (ha : ∀ t a b, (again t a b).reg g i j = t.reg g i j) (s : State) (f : RegFam)
    (k : Nat) (hf : g.addr i j ≠ f.addr 0 k) : (s.countWith again f k).reg g i j = s.reg g i j := by
  have hsat : g.addr i j ≠ RegFam.addr Reg.FCL_SAT_LAST 0 0 := fun e => hg.2 (by rw [e]; decide)
  unfold State.countWith
  split
  · rw [ha, State.reg_setReg_of_ne _ _ _ _ _ _ _ _ hsat, State.reg_bump_of_ne _ _ _ _ _ _ _ _ hf]
  · exact State.reg_bump_of_ne _ _ _ _ _ _ _ _ hf

theorem State.reg_putRecord (hg : offRaise (g.addr i j)) (s : State) (r : SigRec) : (s.putRecord r).reg g i j = s.reg g i j :=
  State.reg_setReg_of_ne _ _ _ _ _ _ _ _ (fun e => hg.2 (by rw [e]; decide))

theorem State.reg_captureWith (hg : offRaise (g.addr i j)) (ha : ∀ t a b, (again t a b).reg g i j = t.reg g i j) (s : State)
    (src unit : Nat) (extra : List Byte) : (s.captureWith again src unit extra).reg g i j = s.reg g i j := by
  have hsup : g.addr i j ≠ RegFam.addr Reg.FCL_SIG_SUPPRESSED 0 0 := fun e => hg.2 (by rw [e]; decide)
  have hdrop : g.addr i j ≠ RegFam.addr Reg.FCL_SIG_DROPPED 0 0 := fun e => hg.2 (by rw [e]; decide)
  unfold State.captureWith
  dsimp only
  split
  · exact State.reg_countWith hg ha _ _ _ hsup
  · split
    · rw [ha, State.reg_countWith hg ha _ _ _ hdrop]
      rfl
    · split
      · exact State.reg_putRecord hg { s with fcl := _ } _
      · exact State.reg_putRecord hg { s with fcl := _ } _

theorem State.reg_raiseWith (hg : offRaise (g.addr i j)) (ha : ∀ t a b, (again t a b).reg g i j = t.reg g i j) (s : State)
    (src unit : Nat) (extra : List Byte) : (s.raiseWith again src unit extra).reg g i j = s.reg g i j := by
  have hcount : g.addr i j ≠ RegFam.addr Reg.FCL_SRCn_COUNT 0 src := by
    have := hg.1
    simp only [RegFam.addr, Reg.FCL_SRCn_COUNT] at this ⊢
    omega
  have hstat : g.addr i j ≠ RegFam.addr Reg.FCL_SRCn_STAT 0 src := by
    have := hg.1
    simp only [RegFam.addr, Reg.FCL_SRCn_STAT] at this ⊢
    omega
  unfold State.raiseWith
  dsimp only
  split
  · rw [State.reg_captureWith hg ha, State.reg_congr (State.react_regs ..), State.reg_setReg_of_ne _ _ _ _ _ _ _ _ hstat,
      State.reg_countWith hg ha _ _ _ hcount]
  · rw [State.reg_congr (State.react_regs ..), State.reg_setReg_of_ne _ _ _ _ _ _ _ _ hstat, State.reg_countWith hg ha _ _ _ hcount]

theorem State.reg_raiseN (hg : offRaise (g.addr i j)) (fuel : Nat) :
    ∀ (s : State) (src unit : Nat) (extra : List Byte), (s.raiseN fuel src unit extra).reg g i j = s.reg g i j := by
  induction fuel with
  | zero => exact fun _ _ _ _ => rfl
  | succ fuel ih => exact fun s src unit extra => State.reg_raiseWith hg (fun t a b => ih t a b []) s src unit extra

/-- A raise keeps every register that it cannot write, whatever its reactions. -/
theorem State.reg_raise (hg : offRaise (g.addr i j)) (s : State) (src unit : Nat) : (s.raise src unit).reg g i j = s.reg g i j :=
  State.reg_raiseN hg 5 s src unit []

theorem State.rf_raise (hg : offRaise (g.addr i j)) (s : State) (src unit hi lo : Nat) :
    (s.raise src unit).rf g i j hi lo = s.rf g i j hi lo := by rw [State.rf, State.reg_raise hg, State.rf]

end

end Sys2Proof.Machine
end

section
/-! SUPPORT. Entry to the safe state (R411): what it stops, and what it leaves. -/

namespace Sys2Proof

/-- What holds of a map's default and of every entry that is put into it holds of every value of the map. -/
theorem SMap.get_foldl_put {α β : Type} [DecidableEq α] {P : α → Prop} {d : α} (g : β → α) (hg : ∀ b, P (g b)) (l : List (Nat × β)) :
    ∀ m : SMap α, (∀ k, P (SMap.get m d k)) → ∀ k, P (SMap.get (l.foldl (fun m c => SMap.put m d c.1 (g c.2)) m) d k) := by
  induction l with
  | nil => exact fun _ h => h
  | cons c t ih =>
    intro m hm
    refine ih _ (fun k => ?_)
    by_cases hk : k = c.1
    · rw [hk, SMap.get_put_self]; exact hg c.2
    · rw [SMap.get_put_of_ne _ _ _ _ hk]; exact hm k

end Sys2Proof

namespace Sys2Proof.Machine

/-- A core that runs nothing: no program issues, no evaluation is in flight. -/
def Core.stopped (c : Core) : Prop := c.run = .idle ∧ c.evals = []

theorem State.stopIssue_stopped (s : State) (k : Nat) : (s.stopIssue.core k).stopped :=
  SMap.get_foldl_put (P := Core.stopped) Core.halt (fun _ => ⟨rfl, rfl⟩) s.cores [] (fun _ => ⟨rfl, rfl⟩) k

/-- The later state differs from the earlier one in the arrays of the cores, in the programming and the maintenance in progress, and in the
free values used. -/
def OnlyWrites (s t : State) : Prop :=
  ∃ c n p m, t = { s with cores := c, freeCtr := n, prog := p, maint := m }

theorem OnlyWrites.refl (s : State) : OnlyWrites s s := ⟨_, _, _, _, rfl⟩

theorem OnlyWrites.trans {s t u : State} (h : OnlyWrites s t) (k : OnlyWrites t u) : OnlyWrites s u := by
  obtain ⟨_, _, _, _, rfl⟩ := h
  obtain ⟨c, n, p, m, rfl⟩ := k
  exact ⟨c, n, p, m, rfl⟩

theorem OnlyWrites.foldl {α : Type} {f : State → α → State} (hf : ∀ s x, OnlyWrites s (f s x)) (l : List α) :
    ∀ s, OnlyWrites s (l.foldl f s) := by
  induction l with
  | nil => exact .refl
  | cons x t ih => exact fun s => (hf s x).trans (ih _)

theorem State.cutArray_only (s : State) (site a : Nat) (m : Mem) : OnlyWrites s (s.cutArray site a m) := ⟨_, _, _, _, rfl⟩

theorem State.cutWaves_only (s : State) : OnlyWrites s s.cutWaves := by
  unfold State.cutWaves
  split
  · exact .refl s
  · refine (OnlyWrites.foldl (fun t x => ?_) _ s).trans ⟨_, _, _, _, rfl⟩
    split
    · exact t.cutArray_only _ _ _
    · exact .refl t

theorem State.cutMaint_only (s : State) : OnlyWrites s s.cutMaint := by
  unfold State.cutMaint
  split
  · dsimp only
    split
    · exact (s.cutArray_only _ _ _).trans ⟨_, _, _, _, rfl⟩
    · exact ⟨_, _, _, _, rfl⟩
  · exact .refl s

theorem State.cutWrites_only (s : State) : OnlyWrites s s.cutWrites := by
  have h := s.cutWaves_only.trans s.cutWaves.cutMaint_only
  unfold State.cutWrites
  dsimp only
  split
  · exact h.trans ⟨_, _, _, _, rfl⟩
  · exact h

theorem State.stopProg_eq (s : State) : ∃ p r, s.stopProg = { s with prog := p, regs := r } := by
  unfold State.stopProg
  split
  · split
    · exact ⟨_, _, rfl⟩
    · exact ⟨_, _, rfl⟩
  · exact ⟨_, _, rfl⟩

theorem State.portsDown_eq (s : State) : ∃ r, s.portsDown = { s with regs := r } := by
  have key : ∀ (l : List Nat) (t : State), ∃ r, l.foldl (fun s p => s.setRf Reg.FLK_PORTp_STATE p 0 2 0 0) t = { t with regs := r } := by
    intro l
    induction l with
    | nil => exact fun t => ⟨t.regs, rfl⟩
    | cons p l ih =>
      intro t
      obtain ⟨r, hr⟩ := ih (t.setRf Reg.FLK_PORTp_STATE p 0 2 0 0)
      exact ⟨r, hr⟩
  exact key _ s

/-- Each of the flight ports is `DOWN` after all have been taken down. -/
theorem State.portsDown_rf (s : State) {k : Nat} (hk : k < 6) : s.portsDown.rf Reg.FLK_PORTp_STATE k 0 2 0 = 0 := by
  have key : ∀ (l : List Nat) (t : State), (k ∈ l ∨ t.rf Reg.FLK_PORTp_STATE k 0 2 0 = 0) →
      (l.foldl (fun s p => s.setRf Reg.FLK_PORTp_STATE p 0 2 0 0) t).rf Reg.FLK_PORTp_STATE k 0 2 0 = 0 := by
    intro l
    induction l with
    | nil => exact fun t h => h.resolve_left (by simp)
    | cons p l ih =>
      intro t h
      refine ih _ ?_
      by_cases hp : k = p
      · exact .inr (by rw [hp, State.rf_setRf_self _ _ _ _ _ _ (by decide)]; rfl)
      · have hne : RegFam.addr Reg.FLK_PORTp_STATE k 0 ≠ RegFam.addr Reg.FLK_PORTp_STATE p 0 := by
          simp only [RegFam.addr, Reg.FLK_PORTp_STATE]
          omega
        rw [State.rf_setRf_of_ne _ _ _ _ _ _ _ _ _ _ _ _ hne]
        exact h.imp (fun hm => (List.mem_cons.mp hm).resolve_left hp) id
  exact key _ s (.inl (List.mem_range.mpr hk))

/-- Entry to the safe state, from a state that is not in it. -/
theorem State.enterSafe_of_not_safe {s : State} (h : s.safe = false) (cause : Nat) :
    s.enterSafe cause = ((s.cutWrites.stopIssue.stopProg.portsDown).setRf Reg.FCL_STATE 0 0 2 0 3).setRf Reg.FCL_STATE 0 0 7 4 cause := by
  rw [State.enterSafe, h]
  rfl

section
variable {s : State} (h : s.safe = false) (cause : Nat)
include h

theorem State.enterSafe_safe : (s.enterSafe cause).safe = true := by
  rw [State.enterSafe_of_not_safe h, State.safe, State.rf_setRf_apart _ _ _ _ _ (by decide) (by decide),
    State.rf_setRf_self _ _ _ _ _ _ (by decide)]
  rfl

theorem State.enterSafe_cause : (s.enterSafe cause).rf Reg.FCL_STATE 0 0 7 4 = cause % 2 ^ 4 := by
  rw [State.enterSafe_of_not_safe h, State.rf_setRf_self _ _ _ _ _ _ (by decide)]

theorem State.enterSafe_stopped (k : Nat) : ((s.enterSafe cause).core k).stopped := by
  have hstop := s.cutWrites.stopIssue_stopped k
  obtain ⟨p, r, hprog⟩ := s.cutWrites.stopIssue.stopProg_eq
  obtain ⟨r', hports⟩ := s.cutWrites.stopIssue.stopProg.portsDown_eq
  rw [State.enterSafe_of_not_safe h, State.core_setRf, State.core_setRf, hports, hprog]
  exact hstop

theorem State.enterSafe_portDown {k : Nat} (hk : k < 6) : (s.enterSafe cause).rf Reg.FLK_PORTp_STATE k 0 2 0 = 0 := by
  have hne : RegFam.addr Reg.FLK_PORTp_STATE k 0 ≠ RegFam.addr Reg.FCL_STATE 0 0 := by
    simp only [RegFam.addr, Reg.FLK_PORTp_STATE, Reg.FCL_STATE]
    omega
  rw [State.enterSafe_of_not_safe h, State.rf_setRf_of_ne _ _ _ _ _ _ _ _ _ _ _ _ hne, State.rf_setRf_of_ne _ _ _ _ _ _ _ _ _ _ _ _ hne,
    State.portsDown_rf _ hk]

/-- Device memory, the host port and the collector's own state stay. -/
theorem State.enterSafe_keeps : (s.enterSafe cause).mem = s.mem ∧ (s.enterSafe cause).hpt = s.hpt ∧ (s.enterSafe cause).fcl = s.fcl := by
  obtain ⟨_, _, _, _, hcut⟩ := s.cutWrites_only
  obtain ⟨p, r, hprog⟩ := s.cutWrites.stopIssue.stopProg_eq
  obtain ⟨r', hports⟩ := s.cutWrites.stopIssue.stopProg.portsDown_eq
  rw [State.enterSafe_of_not_safe h, hports, hprog, hcut]
  exact ⟨rfl, rfl, rfl⟩

end

end Sys2Proof.Machine
end

section
/-! SUPPORT. Control pairs (R31, R410, R421, R422): what a pair shows after its field has been set and after a raise, and when a review of the
units changes nothing. -/

namespace Sys2Proof.Machine

/-- The state of a control pair, as `FCL_CP_STATE` holds it. -/
def State.pairState (s : State) (q : Nat) : Nat := s.rf Reg.FCL_CP_STATE 0 0 (2 * q + 1) (2 * q)

/-- The state of a control pair shown as `v`. -/
def State.showPair (s : State) (q v : Nat) : State := s.setRf Reg.FCL_CP_STATE 0 0 (2 * q + 1) (2 * q) v

theorem State.pairFailed_iff (s : State) (q : Nat) : s.pairFailed q = true ↔ s.pairState q = 3 := beq_iff_eq

theorem State.pairState_showPair_self (s : State) {q v : Nat} (hq : q < 4) (hv : v < 4) : (s.showPair q v).pairState q = v := by
  rw [State.pairState, State.showPair, State.rf_setRf_self _ _ _ _ _ _ (by omega), show 2 * q + 1 + 1 - 2 * q = 2 by omega]
  omega

theorem State.pairState_showPair_of_ne (s : State) {q p : Nat} (v : Nat) (hp : p < 4) (h : p ≠ q) :
    (s.showPair q v).pairState p = s.pairState p :=
  State.rf_setRf_apart _ _ _ _ _ (by omega) (by omega)

theorem State.pairState_raise (s : State) (src unit q : Nat) : (s.raise src unit).pairState q = s.pairState q :=
  State.rf_raise ⟨by decide, by decide⟩ _ _ _ _ _

/-- A die works while one of its two pairs has not failed. -/
theorem State.dieWorks_iff (s : State) (die : Nat) : s.dieWorks die = true ↔ s.pairState (2 * die) ≠ 3 ∨ s.pairState (2 * die + 1) ≠ 3 := by
  simp only [State.dieWorks, State.pairFailed, State.pairState, Bool.not_eq_true', Bool.and_eq_false_iff, beq_eq_false_iff_ne]

theorem State.mgmtLost_iff (s : State) :
    s.mgmtLost = false ↔ s.dieWorks 0 = true ∧ s.rf Reg.HPT_LINK_STATE 0 0 23 16 ≠ 0xFF := by
  simp only [State.mgmtLost, Bool.or_eq_false_iff, Bool.not_eq_false', beq_eq_false_iff_ne]

/-- In flight, a review of the units changes nothing while the management set is kept: another service level waits for the boundary. -/
theorem State.review_of_inFlight {s : State} (hf : s.inFlight = true) (hm : s.mgmtLost = false) : s.review = s := by
  simp [State.review, hf, hm]

/-- The other pair of a pair's die (R31). -/
def otherPair (q : Nat) : Nat := if q % 2 = 0 then q + 1 else q - 1

/-- A die whose other pair works goes on working whatever a pair of it shows. -/
theorem State.dieWorks_of_otherPair {s : State} {q : Nat} (h : s.pairState (otherPair q) ≠ 3) : s.dieWorks (q / 2) = true := by
  rw [State.dieWorks_iff]
  unfold otherPair at h
  split at h
  · exact .inr (by rwa [show 2 * (q / 2) + 1 = q + 1 by omega])
  · exact .inl (by rwa [show 2 * (q / 2) = q - 1 by omega])

theorem State.mild_showPair {s : State} {l : List Nat} (h : s.mild l) (q v : Nat) : (s.showPair q v).mild l := by
  intro n hn
  have hcfg : (s.showPair q v).rf Reg.FCL_SRCn_CFG 0 n 15 8 = s.rf Reg.FCL_SRCn_CFG 0 n 15 8 :=
    State.rf_setRf_of_ne _ _ _ _ _ _ _ _ _ _ _ _ (by simp only [RegFam.addr, Reg.FCL_SRCn_CFG, Reg.FCL_CP_STATE]; omega)
  rw [hcfg]
  exact h n hn

section
variable {s : State} {pair v src : Nat}

/-- A pair's state is shown and a source raised for it, with mild reactions. -/
theorem State.raised_showPair (hsrc : src < 256) (hpair : pair < 4) (hm : s.mild [src]) :
    Raised (s.showPair pair v) ((s.showPair pair v).raise src pair) src pair :=
  State.raise_raised hsrc (by omega) (State.mild_showPair hm pair v)

/-- Lockages run on. -/
theorem State.inFlight_shown_raised (hsrc : src < 256) (hpair : pair < 4) (hm : s.mild [src]) :
    ((s.showPair pair v).raise src pair).inFlight = s.inFlight := by
  have hflt := congrArg State.flt (State.raised_showPair (v := v) hsrc hpair hm).1
  have hreg : ((s.showPair pair v).raise src pair).flightState = s.flightState := by
    rw [State.flightState, State.rf_raise ⟨by decide, by decide⟩]
    exact State.rf_setRf_of_ne _ _ _ _ _ _ _ _ _ _ _ _ (by decide)
  rw [State.inFlight, hreg, hflt]
  rfl

theorem State.pairState_shown_raised_of_ne {p : Nat} (hp : p < 4) (h : p ≠ pair) :
    ((s.showPair pair v).raise src pair).pairState p = s.pairState p := by
  rw [State.pairState_raise, State.pairState_showPair_of_ne _ _ hp h]

theorem State.dieWorks_shown_raised (hpair : pair < 4) (ho : s.pairState (otherPair pair) ≠ 3) :
    ((s.showPair pair v).raise src pair).dieWorks (pair / 2) = true := by
  have hne : otherPair pair < 4 ∧ otherPair pair ≠ pair := by unfold otherPair; split <;> omega
  exact State.dieWorks_of_otherPair (by rwa [State.pairState_shown_raised_of_ne hne.1 hne.2])

/-- The management set stays while the die's other pair works. -/
theorem State.mgmtLost_shown_raised (hpair : pair < 4) (hl : s.mgmtLost = false) (ho : s.pairState (otherPair pair) ≠ 3) :
    ((s.showPair pair v).raise src pair).mgmtLost = false := by
  rw [State.mgmtLost_iff] at hl ⊢
  obtain ⟨hdie, hlanes⟩ := hl
  constructor
  · by_cases h0 : pair / 2 = 0
    · rw [← h0]
      exact State.dieWorks_shown_raised hpair ho
    · rw [State.dieWorks_iff] at hdie ⊢
      rwa [State.pairState_shown_raised_of_ne (by omega) (by omega), State.pairState_shown_raised_of_ne (by omega) (by omega)]
  · rw [State.rf_raise ⟨by decide, by decide⟩, State.showPair, State.rf_setRf_of_ne _ _ _ _ _ _ _ _ _ _ _ _ (by decide)]
    exact hlanes

variable (hfl : s.inFlight = true) (hl : s.mgmtLost = false) (ho : s.pairState (otherPair pair) ≠ 3)
include hfl hl ho

/-- In flight, with the other pair of the die at work, a review after a change of a pair changes nothing. -/
theorem State.review_shown_raised (hsrc : src < 256) (hpair : pair < 4) (hm : s.mild [src]) :
    ((s.showPair pair v).raise src pair).review = (s.showPair pair v).raise src pair :=
  State.review_of_inFlight ((State.inFlight_shown_raised hsrc hpair hm).trans hfl) (State.mgmtLost_shown_raised hpair hl ho)

/-- A pair fails whose die has another pair at work: that is shown and raised. -/
theorem State.failPair_eq (hpair : pair < 4) (hm : s.mild [0x04]) : s.failPair pair = (s.showPair pair 3).raise 0x04 pair := by
  have hd : ((s.showPair pair 3).raise 0x04 pair).dieWorks (pair / 2) = true := State.dieWorks_shown_raised hpair ho
  have hr := State.review_shown_raised (v := 3) hfl hl ho (by decide : 0x04 < 256) hpair hm
  unfold State.failPair
  unfold State.showPair at hd hr ⊢
  simp only [hd, if_true, hr]

/-- The outcome of a pair's failure. -/
theorem finish_failPair (hc : s.calm) (hpair : pair < 4) (hm : s.mild [0x04]) :
    ∃ t, finish (s.failPair pair) = .next t ∧ Raised (s.showPair pair 3) t 0x04 pair ∧ t.pairFailed pair = true := by
  obtain ⟨hnext, hraised⟩ := finish_raise (s := s.showPair pair 3) (src := 0x04) (unit := pair) hc (by decide) (by omega) (State.mild_showPair hm pair 3)
  refine ⟨_, ?_, hraised, ?_⟩
  · rw [State.failPair_eq hfl hl ho hpair hm, hnext]
  · rw [State.pairFailed_iff, State.pairState_raise, State.pairState_showPair_self _ hpair (by decide)]

end

theorem modify_eq_set_of_getElem? {α : Type} {l : List α} {n : Nat} {a : α} (f : α → α) (h : l[n]? = some a) :
    l.modify n f = l.set n (f a) := by
  rw [List.modify_eq_set_getElem?, h]
  rfl

/-- Of two different results one is a pass and one is not. -/
theorem one_of_two_passes : ∀ {a b : Bool}, a ≠ b → (!a && !b) = false ∧ (a && b) = false := by decide

/-- The mild reactions of the sources of a list are those of each part of it. -/
theorem State.mild_of_subset {s : State} {l k : List Nat} (hm : s.mild k) (h : ∀ n ∈ l, n ∈ k) : s.mild l := by
  intro n hn
  refine hm n ?_
  simp only [List.mem_cons] at hn ⊢
  exact hn.imp_right (Or.imp_right (h n))

/-- The state in which the collector's record of a pair is `p`. -/
def State.setPair (s : State) (pair : Nat) (p : Pair) : State := { s with fcl := { s.fcl with pairs := s.fcl.pairs.set pair p } }

section
variable {s : State} {pair : Nat} {p : Pair} (hp : s.fcl.pairs[pair]? = some p)
include hp

/-- The record of a pair after a mismatch: its self-test runs, and whether this is the second mismatch within 10 s. -/
theorem execCpMismatch_of_paired (hb : s.pow.booted = true) (hpair : pair < 4) (hst : s.pairState pair = 0) :
    execCpMismatch pair s = finish ((s.setPair pair ⟨true, some s.now, match p.last with
      | some k => decide (s.now ≤ k + 1250000000)
      | none => false⟩).raise 0x02 pair) := by
  have hgo : ¬((!s.pow.booted) = true ∨ 4 ≤ pair ∨ s.rf Reg.FCL_CP_STATE 0 0 (2 * pair + 1) (2 * pair) ≠ 0) := by
    rw [State.pairState] at hst
    simp [hb, hst]
    omega
  unfold execCpMismatch
  rw [if_neg hgo, modify_eq_set_of_getElem? _ hp]
  rfl

variable (ht : p.testing = true) (pass0 pass1 : Bool)
include ht

/-- The outcome of a self-test ends it, and its two results decide. -/
theorem execCpSelfTestDone_of_testing : execCpSelfTestDone pair pass0 pass1 s =
    if p.again || (!pass0 && !pass1) then finish ((s.setPair pair { p with testing := false }).failPair pair)
    else if pass0 && pass1 then .next (s.setPair pair { p with testing := false })
    else finish (((s.setPair pair { p with testing := false }).showPair pair (if pass0 then 1 else 2)).raise 0x03 pair).review := by
  unfold execCpSelfTestDone
  simp only [hp, ht, modify_eq_set_of_getElem? _ hp]
  rfl

end

/-- A later self-test of an unpaired core: one that fails fails the pair. -/
theorem execCpPeriodicSelfTest_failed {s : State} {pair : Nat} (hpair : pair < 4) (hst : s.pairState pair = 1 ∨ s.pairState pair = 2) :
    execCpPeriodicSelfTest pair false s = finish (s.failPair pair) :=
  if_pos ⟨hpair, hst, rfl⟩

end Sys2Proof.Machine
end

section
/-! SUPPORT. The statement about control pairs, from the lemmas above. -/

namespace Sys2Proof.Machine

/-- Settles O55, case by case: entry to the safe state stops every core and every port; a mismatch, one passed self-test and a failure each show
the pair's state and raise their source, and a review of the units that keeps the management set changes nothing in flight. -/
theorem controlPairs : Obligations.ControlPairs := by
  unfold Obligations.ControlPairs
  intro s pair p pass0 pass1 hc st ended shows fails
  refine ⟨fun hon hsafe => ?_, fun hpair hp => ⟨fun hboot hst hm => ?_, fun htest hagain => ?_, fun hfl hl ho hm => ?_, ?_⟩⟩
  · obtain ⟨hmem, hhpt, hfcl⟩ := State.enterSafe_keeps hsafe 1
    refine ⟨s.enterSafe 1, ?_, State.enterSafe_safe hsafe 1, State.enterSafe_cause hsafe 1, State.enterSafe_stopped hsafe 1,
      fun k hk => State.enterSafe_portDown hsafe 1 hk, hmem, hhpt⟩
    exact (if_pos hon).trans (finish_of_calm hc hfcl)
  · obtain ⟨hnext, hraised⟩ := finish_raise (s := s.setPair pair _) (src := 0x02) (unit := pair) hc (by decide) (by omega) hm
    exact ⟨_, (execCpMismatch_of_paired hp hboot hpair hst).trans hnext, hraised⟩
  · refine (execCpSelfTestDone_of_testing hp htest true true).trans ?_
    rw [if_neg (by simp [hagain]), if_pos rfl]
    rfl
  · have hother : s.pairState (otherPair pair) ≠ 3 := by
      rw [Ne, ← State.pairFailed_iff, Bool.not_eq_true]
      exact ho
    have hm4 : s.mild [0x04] := State.mild_of_subset hm (by simp)
    have hm3 : s.mild [0x03] := State.mild_of_subset hm (by simp)
    refine ⟨fun htest hagain hpass => ?_, fun htest hfail => ?_, fun hst => ?_⟩
    · obtain ⟨hnext, hraised⟩ := finish_raise (s := ended.showPair pair (if pass0 then 1 else 2)) (src := 0x03) (unit := pair) hc (by decide)
        (by omega) (State.mild_showPair (s := ended) hm3 _ _)
      refine ⟨_, ?_, hraised, ?_⟩
      · obtain ⟨hnone, hboth⟩ := one_of_two_passes hpass
        refine (execCpSelfTestDone_of_testing hp htest pass0 pass1).trans ?_
        rw [if_neg (by simp [hagain, hnone]), if_neg (by simp [hboth])]
        exact (congrArg finish (State.review_shown_raised (s := ended) hfl hl hother (by decide) hpair hm3)).trans hnext
      · exact (State.pairState_raise _ _ _ _).trans (State.pairState_showPair_self _ hpair (by split <;> decide))
    · refine Exists.imp (fun t ht => ⟨?_, ht.2⟩) (finish_failPair (s := ended) hfl hl hother hc hpair hm4)
      refine (execCpSelfTestDone_of_testing hp htest pass0 pass1).trans ((if_pos ?_).trans ht.1)
      rcases hfail with h | ⟨h0, h1⟩
      · simp [h]
      · simp [h0, h1]
    · refine Exists.imp (fun t ht => ⟨?_, ht.2⟩) (finish_failPair hfl hl hother hc hpair hm4)
      exact (execCpPeriodicSelfTest_failed hpair hst).trans ht.1
  · exact if_neg (by simp)

end Sys2Proof.Machine
end

section
/-! SUPPORT. What a byte memory reads after a write of the same range. -/

namespace Sys2Proof

theorem Mem.length_expand (n : Nat) : ∀ (m : Mem) (a : Nat), (Mem.expand m a n).length = n := by
  induction n with
  | zero => exact fun _ _ => rfl
  | succ n ih =>
    intro m a
    cases m with
    | nil => simp [Mem.expand, ih]
    | cons c t =>
      simp only [Mem.expand]
      split <;> simp [ih]

@[simp] theorem Mem.length_read (m : Mem) (a n : Nat) : (Mem.read m a n).length = n := Mem.length_expand n _ a

/-- The cells of a list of bytes spell it, those that are 0 left out. -/
theorem Mem.expand_cells (bs : List Byte) :
    ∀ a, Mem.expand (((bs.zipIdx a).map (fun x => (x.2, x.1))).filter (fun c => decide (c.2 ≠ 0))) a bs.length = bs := by
  induction bs with
  | nil => exact fun _ => rfl
  | cons b t ih =>
    intro a
    have hrest : ∀ c ∈ ((t.zipIdx (a + 1)).map (fun x => (x.2, x.1))).filter (fun c => decide (c.2 ≠ 0)), a < c.1 := by
      intro c hc
      have := (Mem.mem_cells (List.mem_filter.mp hc).1).1
      omega
    simp only [List.zipIdx_cons, List.map_cons, List.length_cons]
    by_cases hb : b = 0
    · rw [List.filter_cons_of_neg (by simpa using hb)]
      generalize hl : ((t.zipIdx (a + 1)).map (fun x => (x.2, x.1))).filter (fun c => decide (c.2 ≠ 0)) = l at hrest
      have hih := hl ▸ ih (a + 1)
      cases l with
      | nil => simp only [Mem.expand]; rw [hih, hb]
      | cons c l =>
        have hne : c.1 ≠ a := by have := hrest c (by simp); omega
        simp only [Mem.expand, if_neg hne]
        rw [hih, hb]
    · rw [List.filter_cons_of_pos (by simpa using hb)]
      simp only [Mem.expand, if_true, ih]

/-- A range that has been written reads what has been written. -/
theorem Mem.read_write_self (m : Mem) (a : Nat) (bs : List Byte) : Mem.read (Mem.write m a bs) a bs.length = bs := by
  have hlow : (m.filter (fun c => decide (c.1 < a))).filter (fun c => decide (a ≤ c.1) && decide (c.1 < a + bs.length)) = [] := by
    simp only [List.filter_filter, List.filter_eq_nil_iff, Bool.and_eq_true, decide_eq_true_eq]
    omega
  have hhigh : (m.filter (fun c => decide (a + bs.length ≤ c.1))).filter (fun c => decide (a ≤ c.1) && decide (c.1 < a + bs.length)) = [] := by
    simp only [List.filter_filter, List.filter_eq_nil_iff, Bool.and_eq_true, decide_eq_true_eq]
    omega
  have hmid : ∀ c ∈ ((bs.zipIdx a).map (fun x => (x.2, x.1))).filter (fun c => decide (c.2 ≠ 0)),
      (decide (a ≤ c.1) && decide (c.1 < a + bs.length)) = true := by
    intro c hc
    simpa using Mem.mem_cells (List.mem_filter.mp hc).1
  rw [Mem.read, Mem.write, List.filter_append, List.filter_append, hlow, hhigh, List.filter_eq_self.mpr hmid, List.nil_append,
    List.append_nil, Mem.expand_cells]

end Sys2Proof

namespace Sys2Proof.Machine

/-- A core's own posted write is the last that its reads see (R215). -/
theorem State.memRead_posted_self (s : State) (site a : Nat) (bs : List Byte) (po : List Nat) :
    (({ s with posted := s.posted ++ [⟨site, a, bs, po⟩] } : State).memRead site a bs.length).1 = bs := by
  have hown : (s.posted ++ [(⟨site, a, bs, po⟩ : Posted)]).filter (fun p => p.site == site) =
      s.posted.filter (fun p => p.site == site) ++ [(⟨site, a, bs, po⟩ : Posted)] := by
    simp [List.filter_append]
  simp only [State.memRead, State.memOf, hown, List.foldl_append, List.foldl_cons, List.foldl_nil]
  exact Mem.read_write_self _ _ _

/-- Another core's reads do not see it. -/
theorem State.memRead_posted_of_ne (s : State) {site k : Nat} (a : Nat) (bs : List Byte) (po : List Nat) (h : k ≠ site) (b n : Nat) :
    ({ s with posted := s.posted ++ [⟨site, a, bs, po⟩] } : State).memRead k b n = s.memRead k b n := by
  have hown : (s.posted ++ [(⟨site, a, bs, po⟩ : Posted)]).filter (fun p => p.site == k) = s.posted.filter (fun p => p.site == k) := by
    simp [List.filter_append, Ne.symm h]
  simp only [State.memRead, State.memOf, hown]
  rfl

@[simp] theorem State.length_memRead (s : State) (site a n : Nat) : (s.memRead site a n).1.length = n := Mem.length_read _ _ _

end Sys2Proof.Machine
end

section
/-! SUPPORT. Ways of requests and packets between a core and memory (R28, R214 to R216): they depend on the registers and the schedule alone,
and packets whose ways lead to memory are all on their way. -/

namespace Sys2Proof.Machine

theorem State.tables_congr {s t : State} (hr : t.regs = s.regs) (hs : t.sched = s.sched) : t.tables = s.tables := by
  unfold State.tables State.wideNow
  rw [State.rf_congr hr, hs]

theorem State.routePort_congr {s t : State} (hr : t.regs = s.regs) (hs : t.sched = s.sched) (site : Nat) (d : Dest) :
    t.routePort site d = s.routePort site d := by
  unfold State.routePort
  rw [State.tables_congr hr hs]

theorem State.route_congr {s t : State} (hr : t.regs = s.regs) (hs : t.sched = s.sched) (d : Dest) (fuel : Nat) :
    ∀ site, t.route d site fuel = s.route d site fuel := by
  induction fuel with
  | zero => exact fun _ => rfl
  | succ fuel ih =>
    intro site
    simp only [State.route, State.routePort_congr hr hs, ih]

theorem State.memWay_congr {s t : State} (hr : t.regs = s.regs) (hs : t.sched = s.sched) (site a : Nat) :
    t.memWay site a = s.memWay site a := by
  simp only [State.memWay, State.way, State.route_congr hr hs, State.rf_congr hr]

@[simp] theorem State.memWay_net (s : State) (n : List InFlight) (site a : Nat) : ({ s with net := n } : State).memWay site a = s.memWay site a :=
  State.memWay_congr (s := s) (t := { s with net := n }) rfl rfl site a

@[simp] theorem State.memWay_posted (s : State) (n : List Posted) (site a : Nat) :
    ({ s with posted := n } : State).memWay site a = s.memWay site a :=
  State.memWay_congr (s := s) (t := { s with posted := n }) rfl rfl site a

/-- A range's packets: their numbers stay below the packets that its bytes fill. -/
theorem packetsOf_index_lt (sig : Nat) (fuel : Nat) : ∀ (addr : Nat) (bs : List Byte) (po : List Nat) (k : Nat),
    ∀ q ∈ (packetsOf sig addr bs po fuel).zipIdx k, 512 * (q.2 - k) < bs.length := by
  induction fuel with
  | zero => simp [packetsOf]
  | succ fuel ih =>
    intro addr bs po k q hq
    simp only [packetsOf] at hq
    split at hq
    · simp at hq
    · next hne =>
      have hpos : 0 < bs.length := by simpa [List.length_pos_iff] using hne
      simp only [List.zipIdx_cons, List.mem_cons] at hq
      rcases hq with rfl | hq
      · simpa using hpos
      · have hk := List.le_snd_of_mem_zipIdx hq
        have := ih _ _ _ (k + 1) q hq
        simp only [List.length_drop] at this
        omega

/-- A range of at most 512 bytes goes in one packet. -/
theorem packetsOf_single (sig addr : Nat) (bs : List Byte) (po : List Nat) (fuel : Nat) (h0 : 0 < bs.length) (h : bs.length ≤ 512) :
    ∃ p, packetsOf sig addr bs po (fuel + 1) = [p] := by
  have hne : bs.isEmpty = false := by simpa [List.length_pos_iff] using h0
  have hdrop : bs.drop 512 = [] := List.drop_eq_nil_of_le h
  simp only [packetsOf, hne, hdrop, Bool.false_eq_true, if_false]
  cases fuel <;> exact ⟨_, rfl⟩

/-- Steps that each put one packet on its way to a core put all of them there. -/
theorem foldl_net {α : Type} {f : State → α → State} {g : α → InFlight} (l : List α) : ∀ s : State,
    (∀ x ∈ l, ∀ n, f { s with net := n } x = { s with net := n ++ [g x] }) → l.foldl f s = { s with net := s.net ++ l.map g } := by
  induction l with
  | nil => intro s _; simp
  | cons x t ih =>
    intro s h
    have hx : f s x = { s with net := s.net ++ [g x] } := h x (by simp) s.net
    rw [List.foldl_cons, hx]
    refine (ih { s with net := s.net ++ [g x] } (fun y hy n => h y (by simp [hy]) n)).trans ?_
    simp

/-- Steps that each post one write post all of them. -/
theorem foldl_posted {α : Type} {f : State → α → State} {g : α → Posted} (l : List α) : ∀ s : State,
    (∀ x ∈ l, ∀ n, f { s with posted := n } x = { s with posted := n ++ [g x] }) → l.foldl f s = { s with posted := s.posted ++ l.map g } := by
  induction l with
  | nil => intro s _; simp
  | cons x t ih =>
    intro s h
    have hx : f s x = { s with posted := s.posted ++ [g x] } := h x (by simp) s.posted
    rw [List.foldl_cons, hx]
    refine (ih { s with posted := s.posted ++ [g x] } (fun y hy n => h y (by simp [hy]) n)).trans ?_
    simp

section
variable (s : State) (site : Nat) (ent : Nat → Nat)

/-- The packets that memory sends, where each address of the list has its way to the core. -/
theorem State.sendMem_of_arrives (ps : List (Nat × Packet)) (h : ∀ x ∈ ps, ∃ q, s.memWay site x.1 = .arrives (ent x.1) q) :
    s.sendMem site ps = { s with net := s.net ++ ps.map (fun x => (⟨s.devNo, site, site, ent x.1, x.2⟩ : InFlight)) } := by
  refine foldl_net ps s (fun x hx n => ?_)
  obtain ⟨q, hq⟩ := h x hx
  simp only [State.memWay_net, hq]
  rfl

/-- The packets that a core posts, where each has its way to the memory of its address. -/
theorem State.postMem_of_arrives (a : Nat) (ps : List Packet)
    (h : ∀ x ∈ ps.zipIdx, ∃ q, s.memWay site (a + 512 * x.2) = .arrives (ent (a + 512 * x.2)) q) :
    s.postMem site a ps =
      { s with posted := s.posted ++ ps.zipIdx.map (fun x => (⟨site, a + 512 * x.2, x.1.data, x.1.poison⟩ : Posted)) } := by
  refine foldl_posted ps.zipIdx s (fun x hx n => ?_)
  obtain ⟨q, hq⟩ := h x hx
  simp only [State.memWay_posted, hq]

end

/-- A single packet whose way a fenced router bars counts there. -/
theorem State.sendMem_of_fenced {s : State} {site a r : Nat} (p : Packet) (h : s.memWay site a = .fenced r) :
    s.sendMem site [(a, p)] = s.err Reg.RTR_FENCE_DROP r 0 1 := by
  simp only [State.sendMem, List.foldl_cons, List.foldl_nil, h]

theorem State.postMem_of_fenced {s : State} {site a r : Nat} (p : Packet) (h : s.memWay site a = .fenced r) :
    s.postMem site a [p] = s.err Reg.RTR_FENCE_DROP r 0 1 := by
  simp [State.postMem, h]

end Sys2Proof.Machine
end

section
/-! SUPPORT. What the instructions that reach device memory need besides: no stored bit in error, a range that there is, a core that moves on. -/

namespace Sys2Proof.Machine

/-- Where no stored bit is in error, a read meets none. -/
@[simp] theorem State.meet_of_sound {s : State} (h : s.latent = []) (a n : Nat) : s.meet a n = s := by
  simp [State.meet, h]

theorem State.foldl_meet_of_sound {s : State} (h : s.latent = []) (base row : Nat) (l : List Nat) :
    l.foldl (fun (s : State) j => if inRegion (base + j * row) row then s.meet (base + j * row) row else s) s = s :=
  List.foldl_fixed' (fun j => by simp [h]) l

/-- A range inside a populated region stops nothing. -/
theorem State.memGuard_of_inRegion {s : State} {x : Issue} {addr : Nat → Nat} {n : Nat}
    (h : inRegion (addr ((s.core x.site).stepIdx x)) n = true) (t : State) : s.memGuard x addr n t = finish t := by
  simp [State.memGuard, h]

/-- The core has moved on, and nothing else has changed. -/
theorem coreNext_advance (s : State) (site : Nat) : CoreNext (.next (s.updCore site Core.advance)) s site (s.core site) :=
  ⟨_, rfl, rfl, fun _ hk => State.core_updCore_of_ne _ _ hk, State.core_updCore_self _ _ _⟩

/-- The same as the outcome of a calm state. -/
theorem coreNext_finish_advance {s t : State} {site : Nat} {c : Core} (hc : s.calm) (hf : t.fcl = s.fcl) (hcore : t.core site = c) :
    CoreNext (finish (t.updCore site Core.advance)) t site c := by
  rw [finish_of_calm (t := t.updCore site Core.advance) hc hf, ← hcore]
  exact coreNext_advance t site

/-- A counter with room has counted, and the core has moved on. -/
theorem countNext_advance {s : State} {site : Nat} {f : RegFam} {i j n : Nat} (hc : s.calm) (hr : s.room f i j n) (hn : n ≠ 0) :
    CountNext (finish ((s.err f i j n).updCore site Core.advance)) s site (s.core site) f i j n := by
  rw [State.err_of_room hr, if_neg hn, finish_of_calm hc]
  swap
  · rfl
  refine ⟨_, rfl, rfl, fun k hk => ?_, ?_, ?_, fun a ha => SMap.lookup_put_of_ne _ _ _ ha⟩
  · rw [State.core_updCore_of_ne _ _ hk, State.core_setRf]
  · rw [State.core_updCore_self, State.core_setRf]
  · rw [State.reg_updCore]
    exact State.reg_bumped hr

@[simp] theorem Core.length_sp (c : Core) (a n : Nat) : (c.sp a n).length = n := Mem.length_read _ _ _

/-- A site whose core issues is one of the 544. -/
theorem State.site_lt_of_runs {s : State} {x : Issue} (h : s.runs x) : x.site < nSites := by
  have hi := h.1
  simp only [State.canIssue, State.enabled, Bool.and_eq_true, decide_eq_true_eq] at hi
  exact hi.1.1.1

section
variable {s : State} {l : List Nat}

/-- A register outside the collector's has no part in the reactions. -/
theorem State.mild_setReg (hl : ∀ n ∈ l, n < 256) (hm : s.mild l) (f : RegFam) (i j v : Nat)
    (hf : f.addr i j < 0x30000 ∨ 0x40000 ≤ f.addr i j) : (s.setReg f i j v).mild l := by
  intro n hn
  have hlt : n < 256 := by
    rcases List.mem_cons.mp hn with rfl | hn
    · omega
    · rcases List.mem_cons.mp hn with rfl | hn
      · omega
      · exact hl n hn
  have haddr : RegFam.addr Reg.FCL_SRCn_CFG 0 n = 0x31000 + 8 * n := by simp [RegFam.addr, Reg.FCL_SRCn_CFG]
  have hcfg : (s.setReg f i j v).rf Reg.FCL_SRCn_CFG 0 n 15 8 = s.rf Reg.FCL_SRCn_CFG 0 n 15 8 := by
    unfold State.rf
    rw [State.reg_setReg_of_ne _ _ _ _ _ _ _ _ (by rw [haddr]; omega)]
  rw [hcfg]
  exact hm n hn

/-- An error counter outside the collector's registers has a new value; its saturation does what a raise does (R412). -/
theorem State.err_keeps (hl : ∀ n ∈ l, n < 256) (hm : s.mild l) (f : RegFam) (i j : Nat) (hf : f.addr i j < 0x30000 ∨ 0x40000 ≤ f.addr i j) :
    ∃ v, RaiseKeeps (s.setReg f i j v) (s.err f i j 1) := by
  unfold State.err State.bump State.setRf
  simp only [Nat.one_ne_zero, if_false]
  split
  · refine ⟨0xFFFFFFFF, ?_⟩
    split
    · have hlast := NestedKeeps.setReg (s.setReg f i j 0xFFFFFFFF) Reg.FCL_SAT_LAST 0 0 (f.addr i j) (by decide) (by decide)
      have hmild : (s.setReg f i j 0xFFFFFFFF).mild l := State.mild_setReg hl hm f i j _ hf
      exact (hlast.trans (nestedKeeps_raiseN 5 _ 0 devUnit [] (by omega) (by decide)
        (hlast.mild (by simp) (State.mild_of_subset hmild (by simp))))).toRaiseKeeps
    · exact .refl _
  · exact ⟨_, .refl _⟩

end

/-- What an operand's poison and a fault make of a state with mild reactions: nothing outside the registers and the collector. -/
theorem State.consumed_raise {s : State} {src unit : Nat} (hc : s.calm) (hs : src < 256) (hu : unit < 1024) (hm : s.mild [src]) (b d : Bool) :
    let t := if d then (s.consumed b).raise src unit else s.consumed b
    t = { s with regs := t.regs, fcl := t.fcl, freeCtr := t.freeCtr } ∧ t.calm ∧ (d = true → t.rf Reg.FCL_SRCn_STAT 0 src 31 31 = 1) ∧
      (d = false → b = false → t = s) := by
  have hl : ∀ n ∈ [src], n < 256 := by simpa using hs
  obtain ⟨heq, hcalm, hmild⟩ : s.consumed b = { s with regs := (s.consumed b).regs, fcl := (s.consumed b).fcl, freeCtr := (s.consumed b).freeCtr } ∧
      (s.consumed b).calm ∧ (s.consumed b).mild [src] := by
    cases b with
    | false => exact ⟨rfl, hc, hm⟩
    | true =>
      obtain ⟨v, hk⟩ := State.err_keeps hl hm Reg.MEM_POISON_CONSUMED 0 0 (by decide)
      obtain ⟨h1, h2, h3⟩ := hc
      exact ⟨hk.eq, ⟨hk.host.trans h1, hk.chip.trans h2, hk.safe.trans h3⟩, hk.mild hl (State.mild_setReg hl hm _ _ _ _ (by decide))⟩
  cases d with
  | false =>
    refine ⟨heq, hcalm, by simp, ?_⟩
    rintro - rfl
    rfl
  | true =>
    obtain ⟨hreq, -, -, hrcalm, hstat, -⟩ := State.raise_raised (s := s.consumed b) hs hu hmild
    refine ⟨?_, hrcalm hcalm, fun _ => hstat, by simp⟩
    simp only [if_true]
    generalize (s.consumed b).raise src unit = t at hreq
    rw [heq] at hreq
    exact hreq

end Sys2Proof.Machine
end

section
/-! SUPPORT. `MRD`, `MWR` and `MGATH` (R214 to R216) where their core issues. -/

namespace Sys2Proof.Machine

/-- Whether row `j` of a table lies in the region of the table (R216). -/
def gatherIn (base row j : Nat) : Bool := inRegion (base + j * row) row && regionStart (base + j * row) == regionStart base

/-- The address that row `j` of a gather is read from. -/
def gatherStart (base row j : Nat) : Nat := if gatherIn base row j then base + j * row else base

/-- What row `j` of a gather delivers. -/
def State.gatherRow (s : State) (site base row j : Nat) : List Byte × List Nat :=
  if gatherIn base row j then s.memRead site (base + j * row) row else (List.replicate row 0, [])

/-- The packets of a gather are those of its rows, in index order. -/
theorem gatherPackets_eq (s : State) (site sig base dst row : Nat) (idx : List Nat) : ∀ n, gatherPackets s site sig base dst row idx n =
    (idx.zipIdx n).flatMap (fun y => (packetsOf sig (dst + y.2 * row) (s.gatherRow site base row y.1).1 (s.gatherRow site base row y.1).2 row).zipIdx.map
      (fun p => (gatherStart base row y.1 + 512 * p.2, p.1))) := by
  induction idx with
  | nil => exact fun _ => rfl
  | cons j t ih =>
    intro n
    simp only [gatherPackets, List.zipIdx_cons, List.flatMap_cons, ih, State.gatherRow, gatherStart, gatherIn, Bool.and_eq_true, beq_iff_eq]

@[simp] theorem State.length_gatherRow (s : State) (site base row j : Nat) : (s.gatherRow site base row j).1.length = row := by
  unfold State.gatherRow
  split <;> simp

section
variable {s : State} {x : Issue} {f : MemF} {n a : Nat}

/-- `MRD` of a range that there is. -/
theorem exec_mrd_of_runs (h : s.runs x) (hl : s.latent = []) (hn : n = 64 * (f.gm1.toNat + 1)) (ha : a = memfAddr f ((s.core x.site).stepIdx x))
    (hin : inRegion a n = true) : exec (.mrd x f) s = finish ((s.sendMem x.site
      ((packetsOf f.sig.toNat (memfSp f ((s.core x.site).stepIdx x)) (s.memRead x.site a n).1 (s.memRead x.site a n).2 n).zipIdx.map
        (fun p => (a + 512 * p.2, p.1)))).updCore x.site Core.advance) := by
  subst hn ha
  show execMrd x f s = _
  rw [execMrd, State.memGuard_of_inRegion hin, State.issue_of_runs _ h, State.meet_of_sound hl]

/-- `MWR` of a range that there is. -/
theorem exec_mwr_of_runs (h : s.runs x) (hn : n = 64 * (f.gm1.toNat + 1)) (ha : a = memfAddr f ((s.core x.site).stepIdx x))
    (hin : inRegion a n = true) : exec (.mwr x f) s = finish ((s.postMem x.site a (packetsOf 0 (memfSp f ((s.core x.site).stepIdx x))
      ((s.core x.site).sp (memfSp f ((s.core x.site).stepIdx x)) n) (poisonOf (s.core x.site).spmPoison (memfSp f ((s.core x.site).stepIdx x)) n)
        n)).updCore x.site Core.advance) := by
  subst hn ha
  show execMwr x f s = _
  rw [execMwr, State.memGuard_of_inRegion hin, State.issue_of_runs _ h]

end

/-- The ways of a range's packets, where the range's places have theirs. -/
theorem arrives_packets {s : State} {site b m : Nat} {ent : Nat → Nat}
    (h : ∀ k, 512 * k < m → ∃ q, s.memWay site (b + 512 * k) = .arrives (ent (b + 512 * k)) q)
    {sig addr fuel : Nat} {bs : List Byte} {po : List Nat} (hm : bs.length = m) :
    ∀ y ∈ (packetsOf sig addr bs po fuel).zipIdx, ∃ q, s.memWay site (b + 512 * y.2) = .arrives (ent (b + 512 * y.2)) q :=
  fun y hy => h y.2 (hm ▸ packetsOf_index_lt sig fuel addr bs po 0 y hy)

end Sys2Proof.Machine
end

section
/-! SUPPORT. The clauses of `MemoryTransfers`. -/

namespace Sys2Proof.Machine

section
variable {s : State} {x : Issue} {n a i : Nat}

/-- `MRD`, where the routes lead from the core to the memory of every packet. -/
theorem mrd_of_arrives (f : MemF) {ent : Nat → Nat} (h : s.runs x) (hc : s.calm) (hl : s.latent = []) (hn : n = 64 * (f.gm1.toNat + 1))
    (hi : i = (s.core x.site).stepIdx x) (ha : a = memfAddr f i) (hin : inRegion a n = true)
    (hlead : ∀ k, 512 * k < n → ∃ q, s.memWay x.site (a + 512 * k) = .arrives (ent (a + 512 * k)) q) :
    CoreNext (exec (.mrd x f) s)
      { s with net := s.net ++ (packetsOf f.sig.toNat (memfSp f i) (s.memRead x.site a n).1 (s.memRead x.site a n).2 n).zipIdx.map
                 (fun q => (⟨s.devNo, x.site, x.site, ent (a + 512 * q.2), q.1⟩ : InFlight)) } x.site (s.core x.site) := by
  subst hi
  have hway : ∀ y ∈ (packetsOf f.sig.toNat (memfSp f ((s.core x.site).stepIdx x)) (s.memRead x.site a n).1 (s.memRead x.site a n).2 n).zipIdx.map
      (fun p => (a + 512 * p.2, p.1)), ∃ q, s.memWay x.site y.1 = .arrives (ent y.1) q :=
    List.forall_mem_map.mpr (arrives_packets hlead (State.length_memRead _ _ _ _))
  rw [exec_mrd_of_runs h hl hn ha hin, State.sendMem_of_arrives s x.site ent _ hway, List.map_map]
  exact coreNext_finish_advance hc (by rfl) (by rfl)

/-- `MWR`, where the routes lead from the core to the memory of every packet. -/
theorem mwr_of_arrives (f : MemF) {ent : Nat → Nat} (h : s.runs x) (hc : s.calm) (hn : n = 64 * (f.gm1.toNat + 1))
    (hi : i = (s.core x.site).stepIdx x) (ha : a = memfAddr f i) (hin : inRegion a n = true)
    (hlead : ∀ k, 512 * k < n → ∃ q, s.memWay x.site (a + 512 * k) = .arrives (ent (a + 512 * k)) q) :
    CoreNext (exec (.mwr x f) s)
      { s with posted := s.posted ++ (packetsOf 0 (memfSp f i) ((s.core x.site).sp (memfSp f i) n)
                 (poisonOf (s.core x.site).spmPoison (memfSp f i) n) n).zipIdx.map
                 (fun q => (⟨x.site, a + 512 * q.2, q.1.data, q.1.poison⟩ : Posted)) } x.site (s.core x.site) := by
  subst hi
  rw [exec_mwr_of_runs h hn ha hin, State.postMem_of_arrives s x.site ent a _ (arrives_packets hlead (Core.length_sp _ _ _))]
  exact coreNext_finish_advance hc (by rfl) (by rfl)

/-- `MRD` of one packet, barred by a fenced router. -/
theorem mrd_of_fenced (f : MemF) {r : Nat} (h : s.runs x) (hc : s.calm) (hl : s.latent = []) (hn : n = 64 * (f.gm1.toNat + 1))
    (ha : a = memfAddr f ((s.core x.site).stepIdx x)) (hin : inRegion a n = true) (hn' : n ≤ 512) (hway : s.memWay x.site a = .fenced r)
    (hroom : s.room Reg.RTR_FENCE_DROP r 0 1) : CountNext (exec (.mrd x f) s) s x.site (s.core x.site) Reg.RTR_FENCE_DROP r 0 1 := by
  obtain ⟨m, rfl⟩ : ∃ m, n = m + 1 := Nat.exists_eq_succ_of_ne_zero (by omega)
  obtain ⟨p, hp⟩ := packetsOf_single f.sig.toNat (memfSp f ((s.core x.site).stepIdx x)) (s.memRead x.site a (m + 1)).1
    (s.memRead x.site a (m + 1)).2 m (by simp) (by simpa using hn')
  rw [exec_mrd_of_runs h hl hn ha hin, hp]
  exact (State.sendMem_of_fenced p hway).symm ▸ countNext_advance hc hroom (by decide)

/-- `MWR` of one packet, barred by a fenced router. -/
theorem mwr_of_fenced (f : MemF) {r : Nat} (h : s.runs x) (hc : s.calm) (hn : n = 64 * (f.gm1.toNat + 1))
    (ha : a = memfAddr f ((s.core x.site).stepIdx x)) (hin : inRegion a n = true) (hn' : n ≤ 512) (hway : s.memWay x.site a = .fenced r)
    (hroom : s.room Reg.RTR_FENCE_DROP r 0 1) : CountNext (exec (.mwr x f) s) s x.site (s.core x.site) Reg.RTR_FENCE_DROP r 0 1 := by
  obtain ⟨m, rfl⟩ : ∃ m, n = m + 1 := Nat.exists_eq_succ_of_ne_zero (by omega)
  obtain ⟨p, hp⟩ := packetsOf_single 0 (memfSp f ((s.core x.site).stepIdx x)) ((s.core x.site).sp (memfSp f ((s.core x.site).stepIdx x)) (m + 1))
    (poisonOf (s.core x.site).spmPoison (memfSp f ((s.core x.site).stepIdx x)) (m + 1)) m (by simp) (by simpa using hn')
  rw [exec_mwr_of_runs h hn ha hin, hp, State.postMem_of_fenced p hway]
  exact countNext_advance hc hroom (by decide)

end

/-- The packets that a gather puts under way: those of its rows, in index order, each from the router at which it enters the mesh. -/
def State.gathered (s : State) (x : Issue) (g : GathF) (ent : Nat → Nat) (row base : Nat) (idx : List Nat) : List InFlight :=
  idx.zipIdx.flatMap (fun y =>
    (packetsOf g.sig.toNat (64 * g.dst.toNat + y.2 * row) (s.gatherRow x.site base row y.1).1 (s.gatherRow x.site base row y.1).2 row).zipIdx.map
      (fun q => (⟨s.devNo, x.site, x.site, ent (gatherStart base row y.1 + 512 * q.2), q.1⟩ : InFlight)))

/-- A gather whose rows all have their ways puts its packets under way. -/
theorem State.sendMem_gather {s : State} {x : Issue} {g : GathF} {ent : Nat → Nat} {row base : Nat} {idx : List Nat}
    (hlead : ∀ j ∈ idx, ∀ k, 512 * k < row →
      ∃ q, s.memWay x.site (gatherStart base row j + 512 * k) = .arrives (ent (gatherStart base row j + 512 * k)) q) :
    s.sendMem x.site (gatherPackets s x.site g.sig.toNat base (64 * g.dst.toNat) row idx 0) =
      { s with net := s.net ++ s.gathered x g ent row base idx } := by
  rw [gatherPackets_eq, State.sendMem_of_arrives s x.site ent, List.map_flatMap, State.gathered]
  · simp only [List.map_map, Function.comp_def]
  · intro y hy
    obtain ⟨j, hj, hy⟩ := List.mem_flatMap.mp hy
    obtain ⟨p, hp, rfl⟩ := List.mem_map.mp hy
    exact arrives_packets (hlead j.1 (List.fst_mem_of_mem_zipIdx hj)) (State.length_gatherRow _ _ _ _ _) p hp

/-- `MGATH` from a table that there is: its packets under way, then what the poison of its indices and a row outside make of the state. -/
theorem exec_mgath_of_runs {s : State} {x : Issue} {g : GathF} {ent : Nat → Nat} {row base : Nat} {idx : List Nat} (h : s.runs x)
    (hl : s.latent = []) (hr : row = 64 * (g.rgm1.toNat + 1)) (hb : base = g.mbase.toNat)
    (hidx : idx = wordsOf 4 ((s.core x.site).spRead g.idx.toNat (4 * (g.rm1.toNat + 1)))) (hin : inRegion base 1 = true)
    (hlead : ∀ j ∈ idx, ∀ k, 512 * k < row →
      ∃ q, s.memWay x.site (gatherStart base row j + 512 * k) = .arrives (ent (gatherStart base row j + 512 * k)) q) :
    let u : State := { s with net := s.net ++ s.gathered x g ent row base idx }
    let b := (s.core x.site).spPoisoned g.idx.toNat (4 * (g.rm1.toNat + 1))
    exec (.mgath x g) s = finish ((if idx.any (fun j => !gatherIn base row j) then (u.consumed b).raise 0x24 x.site else u.consumed b).updCore
      x.site Core.advance) := by
  intro u b
  have hsend := State.sendMem_gather (g := g) hlead
  subst hr hb hidx
  show execMgath x g s = _
  rw [execMgath, State.memGuard_of_inRegion hin, State.issue_of_runs _ h]
  dsimp only
  rw [State.foldl_meet_of_sound hl, hsend]
  rfl

/-- `MGATH` with its sources mild. -/
theorem mgath_of_mild {s : State} {x : Issue} {g : GathF} {ent : Nat → Nat} {row base : Nat} {idx : List Nat} (h : s.runs x) (hc : s.calm)
    (hl : s.latent = []) (hr : row = 64 * (g.rgm1.toNat + 1)) (hb : base = g.mbase.toNat)
    (hidx : idx = wordsOf 4 ((s.core x.site).spRead g.idx.toNat (4 * (g.rm1.toNat + 1)))) (hin : inRegion base 1 = true)
    (hlead : ∀ j ∈ idx, ∀ k, 512 * k < row →
      ∃ q, s.memWay x.site (gatherStart base row j + 512 * k) = .arrives (ent (gatherStart base row j + 512 * k)) q)
    (hm : s.mild [0x24]) :
    ∃ t, exec (.mgath x g) s = .next t ∧ 
        t = { s with cores := t.cores, regs := t.regs, fcl := t.fcl, freeCtr := t.freeCtr, net := s.net ++ s.gathered x g ent row base idx } ∧
      (∀ k, k ≠ x.site → t.core k = s.core k) ∧ t.core x.site = (s.core x.site).advance ∧
      ((∃ j ∈ idx, gatherIn base row j = false) → t.rf Reg.FCL_SRCn_STAT 0 0x24 31 31 = 1) ∧
      ((∀ j ∈ idx, gatherIn base row j = true) → (s.core x.site).spPoisoned g.idx.toNat (4 * (g.rm1.toNat + 1)) = false →
        t = { s with cores := t.cores, net := s.net ++ s.gathered x g ent row base idx }) := by
  have hexec := exec_mgath_of_runs h hl hr hb hidx hin hlead
  have hu : x.site < 1024 := (State.site_lt_of_runs h).trans (by decide)
  obtain ⟨heq, hcalm, hstat, hsame⟩ := State.consumed_raise (s := { s with net := s.net ++ s.gathered x g ent row base idx }) (src := 0x24) hc
    (by decide) hu hm ((s.core x.site).spPoisoned g.idx.toNat (4 * (g.rm1.toNat + 1))) (idx.any (fun j => !gatherIn base row j))
  simp only at hexec
  generalize (if idx.any (fun j => !gatherIn base row j) = true then _ else _) = t at hexec heq hcalm hstat hsame
  rw [hexec, finish_of_calm (t := t.updCore x.site Core.advance) hcalm rfl]
  have hcores : t.cores = s.cores := by rw [heq]
  have hcore : ∀ k, t.core k = s.core k := fun k => by simp only [State.core, hcores]
  refine ⟨_, rfl, ?_, fun k hk => ?_, ?_, fun hout => ?_, fun hall hp => ?_⟩
  · rw [heq]; rfl
  · rw [State.core_updCore_of_ne _ _ hk, hcore]
  · rw [State.core_updCore_self, hcore]
  · exact hstat (by simpa using hout)
  · rw [hsame (by simpa using hall) hp]; rfl

/-- Settles O12: packets are under way or posted where the routes lead; a fenced router counts the one packet; a gather's rows follow in index
order; a core's own posted write is the last that its reads see. -/
theorem memoryTransfers : Obligations.MemoryTransfers := by
  unfold Obligations.MemoryTransfers
  refine ⟨fun s x f g ent h hc hl => ⟨fun hin hlead => ?_, fun hin hn r hway hroom => ?_, fun hin hlead hm => ?_⟩,
    fun s site k a bs _ => ⟨State.memRead_posted_self s site a bs [], fun hk b n => State.memRead_posted_of_ne s a bs [] hk b n⟩⟩
  · exact ⟨mrd_of_arrives f h hc hl rfl rfl rfl hin hlead, mwr_of_arrives f h hc rfl rfl rfl hin hlead⟩
  · exact ⟨mrd_of_fenced f h hc hl rfl rfl hin hn hway hroom, mwr_of_fenced f h hc rfl rfl hin hn hway hroom⟩
  · exact mgath_of_mild h hc hl rfl rfl rfl hin hlead hm

end Sys2Proof.Machine
end

section
/-! SUPPORT. The weir gain with row groups (R50, R54, R57), and the statement about it. -/

namespace Sys2Proof.Machine

/-- A list whose length the piece length divides is cut into pieces that are all whole. -/
theorem length_of_mem_chunks {α : Type} {n : Nat} (fuel : Nat) :
    ∀ l : List α, l.length = n * fuel → ∀ g ∈ chunks n l fuel, g.length = n := by
  induction fuel with
  | zero => intro l _ g hg; simp [chunks] at hg
  | succ fuel ih =>
    intro l hl g hg
    have hrest : n * (fuel + 1) = n * fuel + n := Nat.mul_succ n fuel
    rw [chunks] at hg
    split at hg
    · simp at hg
    · rcases List.mem_cons.mp hg with rfl | hg
      · rw [List.length_take]; omega
      · exact ih (l.drop n) (by rw [List.length_drop]; omega) g hg

/-- Every sub-phase of a whole operand drives 1,024 / S rows. -/
theorem length_of_mem_subDrives {aw : BitVec 3} {s n : Nat} {q : List Int} (hn : 1024 / s = n) (hq : q.length = n * s) :
    ∀ g ∈ subDrives aw s q, g.length = n := by
  intro g hg
  obtain ⟨p, -, hg⟩ := List.mem_flatMap.mp hg
  obtain ⟨r, hr, rfl⟩ := List.mem_map.mp hg
  rw [rowGroups, hn] at hr
  rw [List.length_map]
  exact length_of_mem_chunks s q hq r hr

/-- No more rows are active in a sub-phase than its group holds, so the group's size bounds the gain. -/
theorem weirGain_of_mem_subGains {aw : BitVec 3} {s n : Nat} {q : List Int} (h : ∀ g ∈ subDrives aw s q, g.length = n) :
    ∀ g ∈ subGains aw s q, ∃ active ≤ n, g = weirGain active := by
  intro g hg
  obtain ⟨d, hd, rfl⟩ := List.mem_map.mp hg
  exact ⟨_, (List.length_filter_le _ d).trans (h d hd).le, rfl⟩

/-- Settles O14: a group of 256 rows never exceeds the 256 active rows of gain 1, a group of 512 never the 512 of gain 1/2. -/
theorem gainByRowGroups : Obligations.GainByRowGroups := by
  unfold Obligations.GainByRowGroups
  intro aw q hq
  have hfour : ∀ g ∈ subDrives aw 4 q, g.length = 256 := length_of_mem_subDrives (by decide) hq
  have htwo : ∀ g ∈ subDrives aw 2 q, g.length = 512 := length_of_mem_subDrives (by decide) hq
  refine ⟨hfour, fun g hg => ?_, fun g hg => ?_⟩
  · obtain ⟨active, hle, rfl⟩ := weirGain_of_mem_subGains hfour g hg
    exact if_pos hle
  · obtain ⟨active, hle, rfl⟩ := weirGain_of_mem_subGains htwo g hg
    unfold weirGain
    rw [if_pos hle]
    exact (ite_eq_or_eq _ 0 1)

end Sys2Proof.Machine
end

section
/-! SUPPORT. A retraining of the host port whose raise resets the device. Leaving `UP` raises 0x68 (R402), and the reactions of 0x68 are
what its register asks for (R404); the statement does not ask that they are mild where it says what the port shows afterwards. -/

namespace Sys2Proof.Machine

/-- A booted device with its host link up, on which 0x68 asks for a chip reset. -/
def resetOnLinkDown : State :=
  (({ State.reset with pow := { State.reset.pow with booted := true } } : State).setReg Reg.HPT_LINK_STATE 0 0 3).setReg
    Reg.FCL_SRCn_CFG 0 0x68 0x800

/-- The bit of `HPT_CTL` that a retraining sets is 0 again after the reset. -/
theorem exec_hptRetrainWrite_resetOnLinkDown :
    ∃ t, exec .hptRetrainWrite resetOnLinkDown = .next t ∧ t.rf Reg.HPT_CTL 0 0 0 0 = 0 :=
  ⟨_, rfl, by decide +kernel⟩

/-- Refutes O34, at the retraining: where 0x68 asks for a chip reset, the write of `HPT_CTL.RETRAIN` ends in one, and the bit reads 0. -/
theorem not_managementWriteEffects : ¬ Obligations.ManagementWriteEffects := by
  unfold Obligations.ManagementWriteEffects
  intro h
  obtain ⟨-, -, -, -, -, hretrain, -⟩ := h resetOnLinkDown 0 0 0 0 0 (by unfold State.calm; decide +kernel) rfl
  obtain ⟨t, hexec, -, -, hbit, -⟩ := hretrain (by decide +kernel) (by decide +kernel) (by decide +kernel) (by decide +kernel)
  obtain ⟨u, hreset, hzero⟩ := exec_hptRetrainWrite_resetOnLinkDown
  rw [hexec] at hreset
  cases hreset
  exact absurd (hzero.symm.trans hbit) (by decide)

end Sys2Proof.Machine
end

section
/-! SUPPORT. An erasure that a programmed array completes although its wave has arrays left. A die that is done has none left in any state that
programming reaches, but the statement does not ask it; the life-cycle transition then ends at once (R473), and the reactions of 0x94, which
it raises, are what its register asks for (R404). -/

namespace Sys2Proof.Machine

/-- The erasure for a transition to another state; its one die is done, with two arrays of site 0 still listed. -/
def doneErasure : Prog :=
  { slot := 0, erase := some (⟨0, 0x0181, 0⟩, ⟨0, 0, 3, 0, 0, 0, 0, [], ⟨[], false, (0, 0), (0, 0), none⟩, []⟩, 0), resumed := false,
    dies := [⟨7, [(0, 0), (0, 1)], false, false, true⟩], spares := [], placed := [], unplaced := [], complete := false }

/-- That erasure on a device on which 0x94 asks for a chip reset; the scratchpad of site 1 holds a byte. -/
def erasureThatResets : State :=
  ({ State.reset with prog := some doneErasure, cores := [(1, { coreDefault with spm := [(0, 1)] })] } : State).setReg Reg.FCL_SRCn_CFG 0 0x94 0x800

/-- A chip reset leaves no byte in a scratchpad (R408). -/
theorem State.chipReset_spm (s : State) (cause k : Nat) : ((s.chipReset cause).core k).spm = [] := by
  have hkept := SMap.get_foldl_put (P := fun c : Core => c.spm = []) (d := coreDefault) Core.keep (fun _ => rfl) s.cutWrites.cores []
    (fun _ => rfl) k
  unfold State.chipReset
  dsimp only
  split <;> exact hkept

/-- A reaction that asks for a chip reset has it carried out (R406). -/
theorem State.settle_of_chipReset {s : State} (hhost : s.fcl.hostReset = false) (hchip : s.fcl.chipReset = true) :
    s.settle = s.chipReset 3 := by
  simp [State.settle, hhost, hchip]

/-- The array programmed, its transition ends, and the raise of that asks for the reset. -/
theorem exec_arrayProgramDone_erasureThatResets :
    ∃ u : State, exec (.arrayProgramDone 0 0 []) erasureThatResets = .next (u.chipReset 3) := by
  obtain ⟨u, hexec, hhost, hchip⟩ : ∃ u : State, exec (.arrayProgramDone 0 0 []) erasureThatResets = .next u.settle ∧
      u.fcl.hostReset = false ∧ u.fcl.chipReset = true := ⟨_, rfl, by decide +kernel, by decide +kernel⟩
  exact ⟨u, by rw [hexec, State.settle_of_chipReset hhost hchip]⟩

/-- Refutes O42, at the array of an erasure that is followed by others: on a die that is done it completes the erasure, 0x94 asks for a chip
reset, and the core of another site loses its scratchpad. -/
theorem not_programmingProceeds : ¬ Obligations.ProgrammingProceeds := by
  unfold Obligations.ProgrammingProceeds
  intro h
  obtain ⟨-, -, herase, -⟩ := h erasureThatResets 0 0 0 doneErasure ⟨7, [(0, 0), (0, 1)], false, false, true⟩
    (0, 0, 0, ⟨0, 0, .near 0, 0, 0, [], [], [], 0, []⟩) (by unfold State.calm; decide +kernel) rfl rfl
  obtain ⟨t, hexec, hothers, -⟩ := herase rfl (by decide) (by decide +kernel) rfl ⟨(0, 1), by decide, by decide⟩ (by decide +kernel)
  obtain ⟨u, hreset⟩ := exec_arrayProgramDone_erasureThatResets
  rw [hexec] at hreset
  cases hreset
  have hspm : (erasureThatResets.core 1).spm = [] := by rw [← hothers 1 (by decide)]; exact u.chipReset_spm 3 1
  exact absurd hspm (by decide +kernel)

end Sys2Proof.Machine
end

section
/-! SUPPORT. Keyed maps after a list of writes, and the arrays of a core after one of them has been set. -/

namespace Sys2Proof

section
variable {α : Type} [DecidableEq α]

/-- A key that no write of a list names keeps its value. -/
theorem SMap.get_foldl_put_of_notMem {d : α} {k : Nat} (l : List (Nat × α)) :
    ∀ m : SMap α, (∀ c ∈ l, k ≠ c.1) → SMap.get (l.foldl (fun m c => SMap.put m d c.1 c.2) m) d k = SMap.get m d k := by
  induction l with
  | nil => exact fun _ _ => rfl
  | cons c t ih =>
    intro m h
    obtain ⟨hc, ht⟩ := List.forall_mem_cons.mp h
    rw [List.foldl_cons, ih _ ht, SMap.get_put_of_ne _ _ _ _ hc]

/-- Of writes to different keys each is found. -/
theorem SMap.get_foldl_put_of_mem {d : α} {c : Nat × α} (l : List (Nat × α)) :
    ∀ m : SMap α, (l.map Prod.fst).Nodup → c ∈ l → SMap.get (l.foldl (fun m c => SMap.put m d c.1 c.2) m) d c.1 = c.2 := by
  induction l with
  | nil => exact fun _ _ h => absurd h List.not_mem_nil
  | cons x t ih =>
    intro m hnodup hc
    obtain ⟨hx, ht⟩ := List.nodup_cons.mp hnodup
    rw [List.foldl_cons]
    rcases List.mem_cons.mp hc with rfl | hc
    · have hother : ∀ y ∈ t, c.1 ≠ y.1 := fun y hy he => hx (by rw [he]; exact List.mem_map_of_mem hy)
      rw [SMap.get_foldl_put_of_notMem t _ hother, SMap.get_put_self]
    · exact ih _ ht hc

end

end Sys2Proof

namespace Sys2Proof.Machine

@[simp] theorem Core.arr_setArr_self (c : Core) (a : Nat) (r : Arr) : (c.setArr a r).arr a = r := SMap.get_put_self _ _ _ _

theorem Core.arr_setArr_of_ne (c : Core) {a b : Nat} (r : Arr) (h : b ≠ a) : (c.setArr a r).arr b = c.arr b :=
  SMap.get_put_of_ne _ _ _ _ h

end Sys2Proof.Machine
end

section
/-! SUPPORT. The programming of a spare element (R41): which cells it writes, and what they hold. -/

namespace Sys2Proof.Machine

/-- The cell of an array at a physical row and column. -/
theorem cell_place {row col : Nat} (h : col < 528) : (528 * row + col) / 528 = row ∧ (528 * row + col) % 528 = col := by omega

/-- Whether a cell lies in the spare of a retirement. -/
def Retire.covers (u : Retire) (k : Nat) : Prop := (if u.isRow then k / 528 else k % 528) = u.spare

/-- The physical places of a retirement's element lie within the array, and no two of them are the same. -/
def Arr.placesOk (r : Arr) (u : Retire) : Prop :=
  (u.isRow = true → ((List.range 512).map (remapped r.steer)).Nodup ∧ ∀ k, k < 512 → remapped r.steer k < 528) ∧
  (u.isRow = false → u.spare < 528 ∧ ((List.range 1024).map (remapped r.rowMap)).Nodup)

/-- The cells of an array after a spare element has been programmed: what stood in the spare goes, the master weights' levels come. -/
def Arr.spared (r : Arr) (tile : Option Tile) (u : Retire) : Mem :=
  (r.spareCells tile u).foldl (fun m k => SMap.put m 0 k.1 k.2)
    (r.cells.filter (fun k => if u.isRow then k.1 / 528 != u.spare else k.1 % 528 != u.spare))

section
variable {r : Arr} {u : Retire} {tile : Tile} (h : r.placesOk u)
include h

/-- Every cell written lies in the spare. -/
theorem Arr.covers_of_mem_spareCells : ∀ c ∈ r.spareCells (some tile) u, u.covers c.1 := by
  obtain ⟨hrow, hcol⟩ := h
  intro c hc
  cases hu : u.isRow with
  | true =>
    simp only [Arr.spareCells, hu, if_true, List.mem_map, List.mem_range] at hc
    obtain ⟨k, hk, rfl⟩ := hc
    simp only [Retire.covers, hu, if_true]
    exact (cell_place ((hrow hu).2 k hk)).1
  | false =>
    simp only [Arr.spareCells, hu, Bool.false_eq_true, if_false, List.mem_map] at hc
    obtain ⟨k, -, rfl⟩ := hc
    simp only [Retire.covers, hu, Bool.false_eq_true, if_false]
    exact (cell_place (hcol hu).1).2

/-- No cell is written twice. -/
theorem Arr.nodup_spareCells : ((r.spareCells (some tile) u).map Prod.fst).Nodup := by
  obtain ⟨hrow, hcol⟩ := h
  cases hu : u.isRow with
  | true =>
    have hplaces : (r.spareCells (some tile) u).map Prod.fst =
        ((List.range 512).map (remapped r.steer)).map (fun p => 528 * u.spare + p) := by
      simp [Arr.spareCells, hu, Function.comp_def]
    rw [hplaces]
    exact (hrow hu).1.map (fun _ _ he => Nat.add_left_cancel he)
  | false =>
    have hplaces : (r.spareCells (some tile) u).map Prod.fst =
        ((List.range 1024).map (remapped r.rowMap)).map (fun p => 528 * p + u.spare) := by
      simp [Arr.spareCells, hu, Function.comp_def]
    rw [hplaces]
    exact (hcol hu).2.map (fun _ _ he => Nat.eq_of_mul_eq_mul_left (by decide) (Nat.add_right_cancel he))

/-- A cell written holds its level. -/
theorem Arr.get_spared_of_mem {c : Nat × Byte} (hc : c ∈ r.spareCells (some tile) u) :
    Mem.get (r.spared (some tile) u) c.1 = c.2 :=
  SMap.get_foldl_put_of_mem _ _ (Arr.nodup_spareCells h) hc

/-- A cell outside the spare keeps its level. -/
theorem Arr.get_spared_of_not_covers {k : Nat} (hk : ¬u.covers k) :
    Mem.get (r.spared (some tile) u) k = Mem.get r.cells k := by
  have hother : ∀ c ∈ r.spareCells (some tile) u, k ≠ c.1 := fun c hc he => hk (by rw [he]; exact Arr.covers_of_mem_spareCells h c hc)
  unfold Mem.get Arr.spared
  rw [SMap.get_foldl_put_of_notMem _ _ hother]
  refine SMap.get_filter _ _ _ _ (fun c _ he => ?_)
  unfold Retire.covers at hk
  cases hu : u.isRow with
  | true => simpa [hu, he] using hk
  | false => simpa [hu, he] using hk

end

/-- The array once the programming of a spare element is over. -/
def Arr.withSpare (r : Arr) (tile : Option Tile) (u : Retire) : Arr :=
  { r with
    cells := r.spared tile u
    retire := r.retire.map (fun (y : Retire) => if y.isRow = u.isRow ∧ y.spare = u.spare then { y with done := true } else y) }

/-- A programming of a spare element in progress ends (R41). -/
theorem State.spareDone_of_writing {s : State} {site arr : Nat} {u : Retire} (ha : arr < 17)
    (hu : ((s.core site).arr arr).retire.find? Retire.writing = some u) :
    s.spareDone site arr = s.setCore site ((s.core site).setArr arr
      (((s.core site).arr arr).withSpare (s.tileOf ((s.core site).arr arr).holds) u)) := by
  unfold State.spareDone
  simp only [hu, if_pos ha]
  rfl

section
variable {s : State} {site arr : Nat}

/-- Without master weights to program from, or without a loader (R31), nothing happens. -/
theorem exec_spareProgramDone_of_not
    (h : (((s.core site).arr arr).holds ≠ .none ∧ s.tileOf ((s.core site).arr arr).holds = none) ∨ s.dieWorks (dieOf site) = false) :
    exec (.spareProgramDone site arr) s = .next s := by
  show execSpareProgramDone site arr s = _
  unfold execSpareProgramDone
  rcases h with ⟨hholds, htile⟩ | hdie
  · simp [hholds, htile]
  · simp [hdie]

theorem exec_spareProgramDone_of_tile {tile : Tile} (hdie : s.dieWorks (dieOf site) = true)
    (htile : s.tileOf ((s.core site).arr arr).holds = some tile) :
    exec (.spareProgramDone site arr) s = .next (s.spareDone site arr) := by
  show execSpareProgramDone site arr s = _
  unfold execSpareProgramDone
  simp [hdie, htile]

end

/-- The first clause of `SparesAndConverters`. -/
theorem spareProgramDone_programs {s : State} {site arr : Nat} {u : Retire} {tile : Tile} (ha : arr < 17)
    (hu : ((s.core site).arr arr).retire.find? Retire.writing = some u) (hdie : s.dieWorks (dieOf site) = true)
    (htile : s.tileOf ((s.core site).arr arr).holds = some tile) (hplaces : ((s.core site).arr arr).placesOk u) :
    let r := (s.core site).arr arr
    ∃ t, exec (.spareProgramDone site arr) s = .next t ∧ t = { s with cores := t.cores } ∧ (∀ k, k ≠ site → t.core k = s.core k) ∧
      let q := (t.core site).arr arr
      q = { r with cells := q.cells, retire := r.retire.map (fun (y : Retire) =>
        if y.isRow = u.isRow ∧ y.spare = u.spare then { y with done := true } else y) } ∧
      (u.isRow = true → ∀ k, k < 512 → Mem.get q.cells (528 * u.spare + remapped r.steer k) = masterLevel tile u.elem k) ∧
      (u.isRow = false → ∀ k, k < 1024 → Mem.get q.cells (528 * remapped r.rowMap k + u.spare) = masterLevel tile k u.elem) ∧
      ∀ row col, col < 528 → (if u.isRow then row else col) ≠ u.spare → Mem.get q.cells (528 * row + col) = Mem.get r.cells (528 * row + col) := by
  intro r
  have hexec := exec_spareProgramDone_of_tile hdie htile
  rw [State.spareDone_of_writing ha hu, htile] at hexec
  refine ⟨_, hexec, rfl, fun k hk => State.core_setCore_of_ne _ _ hk, ?_⟩
  rw [State.core_setCore_self, Core.arr_setArr_self]
  refine ⟨rfl, fun hrow k hk => ?_, fun hcol k hk => ?_, fun row col hlt hne => ?_⟩
  · refine Arr.get_spared_of_mem hplaces (c := (528 * u.spare + remapped r.steer k, masterLevel tile u.elem k)) ?_
    simp only [Arr.spareCells, hrow, if_true]
    exact List.mem_map_of_mem (List.mem_range.mpr hk)
  · refine Arr.get_spared_of_mem hplaces (c := (528 * remapped r.rowMap k + u.spare, masterLevel tile k u.elem)) ?_
    simp only [Arr.spareCells, hcol, Bool.false_eq_true, if_false]
    exact List.mem_map_of_mem (List.mem_range.mpr hk)
  · refine Arr.get_spared_of_not_covers hplaces ?_
    rwa [Retire.covers, (cell_place hlt).1, (cell_place hlt).2]

end Sys2Proof.Machine
end

section
/-! SUPPORT. The converter rotation (R49, R436): a handover whose relieved converter passes its check. -/

namespace Sys2Proof.Machine

/-- A converter that passes its check with a DNL within ±0.4 LSB is left alone (R432, R434). -/
theorem State.judgeConv_of_passes (s : State) (site a : Nat) {x : ConvFound} (hpass : convPasses x = true) (hdnl : x.dnl ≤ 400) :
    s.judgeConv site a x = s := by
  have hselect : ¬400 < x.dnl := by omega
  simp [State.judgeConv, hpass, hselect]

/-- One bit of a field as a field of its own. -/
theorem testBit_of_bitsOf_eq_zero {w hi lo k : Nat} (h : bitsOf w (lo + k) (lo + k) = 0) : (bitsOf w hi lo).testBit k = false := by
  have hbit : (bitsOf w (lo + k) (lo + k)).testBit 0 = w.testBit (lo + k) := by
    rw [testBit_bitsOf, decide_eq_true (by omega), Bool.true_and, Nat.add_zero]
  rw [testBit_bitsOf, ← hbit, h, Nat.zero_testBit, Bool.and_false]

/-- The slot that the spare takes after the one it holds, from 0 when it holds none. -/
def nextSlot (cur : Nat) : Nat := if 8 ≤ cur then 0 else (cur + 1) % 8

theorem nextSlot_lt (cur : Nat) : nextSlot cur < 8 := by
  unfold nextSlot
  split <;> omega

@[simp] theorem State.calAppend_core (s : State) (die typ arr site k : Nat) (bs : List Byte) :
    (s.calAppend die typ arr site bs).core k = s.core k := rfl

@[simp] theorem State.calAppend_regs (s : State) (die typ arr site : Nat) (bs : List Byte) :
    (s.calAppend die typ arr site bs).regs = s.regs := rfl

/-- The types of the records that a die's store commits next. -/
def CalStore.types (q : CalStore) : List Nat := q.waiting.map (fun z => z.typ)

/-- A record goes behind those that wait. -/
theorem State.types_calAppend {s t : State} (ht : t.cal = s.cal) (die typ arr site : Nat) (bs : List Byte) :
    (t.calAppend die typ arr site bs).cal[die]?.map CalStore.types = s.cal[die]?.map (fun q => q.types ++ [typ]) := by
  simp [CalStore.types, State.calAppend, ht, Option.map_map, Function.comp_def]

/-- What a handover makes of the state before the store is written: the spare in its next slot, the trims found applied. -/
def State.handed (s : State) (site arr : Nat) (y : ConvFound) : State :=
  let next := nextSlot (s.rf Reg.ARY_CONVa site arr 3 0)
  (s.setRf Reg.ARY_CONVa site arr 3 0 next).setConvTrims site arr { y with k := next }

section
variable {s : State} {site arr : Nat} {y : ConvFound} (hsite : s.enabled site = true) (harr : arr < 19)
  (hrot : s.rf Reg.ARY_CONV_ROT site 0 0 0 = 1) (hdie : s.dieWorks (dieOf site) = true)
  (hevals : (s.core site).evals.any (fun e => e.selects arr) = false)
  (harbs : (s.core site).arbs.any (fun b => b.running && b.arr == arr && b.rep.isSome) = false)
  (hfixed : s.rf Reg.ARY_CONVa site arr 4 4 = 0) (hspare : s.rf Reg.ARY_CONVa site arr 24 24 = 0) (hcal : s.jobs.calibrate = none)
  (hpass : convPasses y = true) (hdnl : y.dnl ≤ 400)
include hsite harr hrot hdie hevals harbs hfixed hspare hcal hpass hdnl

/-- A handover that nothing holds back: the relieved converter passes, and the trims of the array go to the store. -/
theorem exec_convHandover_of_passes (hc : s.calm) :
    exec (.convHandover site arr y) s = .next ((s.handed site arr y).calAppend (dieOf site) 1 arr site
      (((s.handed site arr y).core site).arr arr).trimPayload) := by
  have hbit : (bitsOf (s.reg Reg.ARY_CONVa site arr) 24 16).testBit 8 = false := testBit_of_bitsOf_eq_zero hspare
  have hfix : (bitsOf (s.reg Reg.ARY_CONVa site arr) 4 4 == 1) = false := by
    rw [show bitsOf (s.reg Reg.ARY_CONVa site arr) 4 4 = 0 from hfixed]; rfl
  have hidle : s.calibrating site = false := by simp [State.calibrating, hcal]
  have hstays : ((s.handed site arr y).calAppend (dieOf site) 1 arr site
      (((s.handed site arr y).core site).arr arr).trimPayload).rf Reg.ARY_CONVa site arr 4 4 ≠ 1 := by
    have hkeep : (s.setRf Reg.ARY_CONVa site arr 3 0 (nextSlot (s.rf Reg.ARY_CONVa site arr 3 0))).rf Reg.ARY_CONVa site arr 4 4 = 0 :=
      (State.rf_setRf_apart _ _ _ _ _ (by decide) (by decide)).trans hfixed
    exact fun he => absurd (hkeep.symm.trans he) (by decide)
  have hjudge : ∀ (t : State) (n : Nat), t.judgeConv site arr { y with k := n } = t := fun t n => t.judgeConv_of_passes site arr hpass hdnl
  have hpass' : ∀ n, convPasses { y with k := n } = true := fun _ => hpass
  show execConvHandover site arr y s = _
  unfold execConvHandover
  simp only [hsite, hdie, hrot, hbit, hfix, hevals, harbs, hidle, hjudge, hpass', Nat.not_le.mpr harr, decide_false, Bool.not_true,
    Bool.or_self, Bool.false_eq_true, if_false, if_true, Nat.reduceBEq]
  exact (congrArg finish (if_neg hstays)).trans (finish_of_calm hc rfl)

/-- The second clause of `SparesAndConverters`. -/
theorem convHandover_hands (hc : s.calm) :
    let r := (s.core site).arr arr
    let nxt := nextSlot (s.rf Reg.ARY_CONVa site arr 3 0)
    ∃ t, exec (.convHandover site arr y) s = .next t ∧ t = { s with cores := t.cores, regs := t.regs, cal := t.cal } ∧
      (∀ k, k ≠ site → t.core k = s.core k) ∧ t.rf Reg.ARY_CONVa site arr 3 0 = nxt ∧
      (∀ k, SMap.get ((t.core site).arr arr).convRef 512 k = if k = nxt then trimCode y.ref else SMap.get r.convRef 512 k) ∧
      (∀ k, SMap.get ((t.core site).arr arr).convOff 512 k = if k = nxt then trimCode y.off else SMap.get r.convOff 512 k) ∧
      ((t.core site).arr arr).corr = r.corr ∧ ((t.core site).arr arr).cells = r.cells ∧
      (t.cal[dieOf site]?).map (fun q => q.waiting.map (fun z => z.typ)) =
        (s.cal[dieOf site]?).map (fun q => q.waiting.map (fun z => z.typ) ++ [1]) ∧
      ∀ w, w ∉ [Reg.ARY_CONVa.addr site arr] → t.word w = s.word w := by
  intro r nxt
  have hput : ∀ (m : SMap (BitVec 10)) (v : BitVec 10) (k : Nat), SMap.get (SMap.put m 512 nxt v) 512 k = if k = nxt then v else SMap.get m 512 k := by
    intro m v k
    split
    · next he => rw [he, SMap.get_put_self]
    · next hne => exact SMap.get_put_of_ne _ _ _ _ hne
  have hcore : (s.handed site arr y).core site = (s.core site).setArr arr
      { r with convRef := SMap.put r.convRef 512 nxt (trimCode y.ref), convOff := SMap.put r.convOff 512 nxt (trimCode y.off) } :=
    State.core_setCore_self _ _ _
  have hregs : (s.handed site arr y).regs = (s.setRf Reg.ARY_CONVa site arr 3 0 nxt).regs := rfl
  have hrf : (s.handed site arr y).rf Reg.ARY_CONVa site arr 3 0 = nxt := by
    rw [State.rf_congr hregs, State.rf_setRf_self _ _ _ _ _ _ (by decide)]
    exact Nat.mod_eq_of_lt ((nextSlot_lt _).trans (by decide))
  have hwords : ∀ w, w ∉ [Reg.ARY_CONVa.addr site arr] → (s.handed site arr y).word w = s.word w := fun w hw =>
    State.word_setReg_of_ne s Reg.ARY_CONVa site arr _ w (by simpa using hw)
  generalize hu : s.handed site arr y = u at hcore hrf hwords
  refine ⟨u.calAppend (dieOf site) 1 arr site ((u.core site).arr arr).trimPayload, ?_, ?_, fun k hk => ?_, ?_, ?_⟩
  · rw [exec_convHandover_of_passes hsite harr hrot hdie hevals harbs hfixed hspare hcal hpass hdnl hc, hu]
  · rw [← hu]; rfl
  · rw [State.calAppend_core, ← hu]
    exact State.core_setCore_of_ne _ _ hk
  · rw [State.rf_congr (State.calAppend_regs ..), hrf]
  · rw [State.calAppend_core, hcore, Core.arr_setArr_self]
    refine ⟨hput _ _, hput _ _, rfl, rfl, ?_, hwords⟩
    exact State.types_calAppend (s := s) (t := u) (by rw [← hu]; rfl) _ _ _ _ _

end

end Sys2Proof.Machine
end

section
/-! SUPPORT. The statement about spare elements and converters, from the lemmas above. -/

namespace Sys2Proof.Machine

/-- Settles O28: the cells that a spare's programming writes are found by their places, and a handover whose relieved converter passes changes
the trims of its slot, the slot and the store. -/
theorem sparesAndConverters : Obligations.SparesAndConverters := by
  unfold Obligations.SparesAndConverters
  constructor
  · intro s site arr u ha c r hu
    exact ⟨exec_spareProgramDone_of_not, fun tile hdie _ htile hrow hcol => spareProgramDone_programs ha hu hdie htile ⟨hrow, hcol⟩⟩
  · intro s site arr y hc hsite harr hrot hdie hevals harbs hfixed hspare hcal hpass hdnl
    exact convHandover_hands hsite harr hrot hdie hevals harbs hfixed hspare hcal hpass hdnl hc

end Sys2Proof.Machine
end

section
/-! SUPPORT. Effective ages (R66, R441 to R443): what time adds to, and to which registers. -/

namespace Sys2Proof.Machine

/-- One array grows older, up to the largest age that its register holds. -/
def State.ageOne (s : State) (n : Nat) (p : Nat × Nat) : State :=
  s.setReg Reg.ARY_AGEa p.1 p.2 (min (2 ^ 64 - 1) (s.reg Reg.ARY_AGEa p.1 p.2 + n))

/-- The resident arrays of the enabled cores of a die. -/
def State.residents (s : State) (die : Nat) : List (Nat × Nat) :=
  (s.sites.filter (fun x => dieOf x == die)).flatMap (fun x => (List.range 17).map (fun a => (x, a)))

theorem State.addAge_eq (s : State) (die n : Nat) : s.addAge die n = (s.residents die).foldl (fun t p => t.ageOne n p) s := by
  simp only [State.addAge, State.residents, List.foldl_flatMap, List.foldl_map]
  rfl

theorem State.lt_of_enabled {s : State} {i : Nat} (h : s.enabled i = true) : i < nSites := by
  simp only [State.enabled, Bool.and_eq_true, decide_eq_true_eq] at h
  exact h.1

/-- A device has two dies. -/
theorem dieOf_of_enabled {s : State} {i : Nat} (h : s.enabled i = true) : dieOf i = 0 ∨ dieOf i = 1 := by
  have hlt := State.lt_of_enabled h
  simp only [dieOf, nSites] at hlt ⊢
  omega

theorem State.mem_residents {s : State} {die : Nat} {p : Nat × Nat} :
    p ∈ s.residents die ↔ s.enabled p.1 = true ∧ dieOf p.1 = die ∧ p.2 < 17 := by
  obtain ⟨x, a⟩ := p
  simp only [State.residents, State.sites, List.mem_flatMap, List.mem_filter, List.mem_range, List.mem_map, Prod.mk.injEq, beq_iff_eq]
  constructor
  · rintro ⟨y, ⟨⟨_, hen⟩, hdie⟩, b, hb, rfl, rfl⟩
    exact ⟨hen, hdie, hb⟩
  · rintro ⟨hen, hdie, ha⟩
    exact ⟨x, ⟨⟨State.lt_of_enabled hen, hen⟩, hdie⟩, a, ha, rfl, rfl⟩

theorem State.nodup_residents (s : State) (die : Nat) : (s.residents die).Nodup := by
  refine List.nodup_flatMap.mpr ⟨fun x _ => List.nodup_range.map (fun a b h => (Prod.mk.inj h).2), ?_⟩
  refine ((List.nodup_range.filter _).filter _).imp (fun {x y} hne p hp hq => hne ?_)
  obtain ⟨a, -, rfl⟩ := List.mem_map.mp hp
  obtain ⟨b, -, he⟩ := List.mem_map.mp hq
  exact (Prod.mk.inj he).1.symm

/-- Different resident arrays have their ages at different addresses. -/
theorem ageAddr_inj {p q : Nat × Nat} (hp : p.2 < 17) (hq : q.2 < 17)
    (h : Reg.ARY_AGEa.addr p.1 p.2 = Reg.ARY_AGEa.addr q.1 q.2) : p = q := by
  simp only [RegFam.addr, Reg.ARY_AGEa] at h
  exact Prod.ext (by omega) (by omega)

/-- Each array of a list without repetitions grows older once; no other word changes. -/
theorem State.foldl_ageOne (n : Nat) (l : List (Nat × Nat)) : ∀ s : State, l.Nodup → (∀ p ∈ l, p.2 < 17) →
    OnlyRegs s (l.foldl (fun t p => t.ageOne n p) s) (l.map (fun p => Reg.ARY_AGEa.addr p.1 p.2)) ∧
      ∀ p, p.2 < 17 → (l.foldl (fun t p => t.ageOne n p) s).reg Reg.ARY_AGEa p.1 p.2 =
        if p ∈ l then min (2 ^ 64 - 1) (s.reg Reg.ARY_AGEa p.1 p.2 + n) else s.reg Reg.ARY_AGEa p.1 p.2 := by
  induction l with
  | nil => exact fun s _ _ => ⟨⟨rfl, fun _ _ => rfl⟩, fun p _ => by simp⟩
  | cons q t ih =>
    intro s hnodup hlt
    obtain ⟨hq, ht⟩ := List.nodup_cons.mp hnodup
    obtain ⟨hqlt, htlt⟩ := List.forall_mem_cons.mp hlt
    obtain ⟨⟨heq, hwords⟩, hreg⟩ := ih (s.ageOne n q) ht htlt
    refine ⟨⟨heq, fun a ha => ?_⟩, fun p hp => ?_⟩
    · simp only [List.map_cons, List.mem_cons, not_or] at ha
      exact (hwords a ha.2).trans (State.word_setReg_of_ne _ _ _ _ _ _ ha.1)
    · rw [List.foldl_cons, hreg p hp]
      by_cases hpq : p = q
      · subst hpq
        rw [if_neg hq, if_pos (List.mem_cons_self ..), State.ageOne, State.reg_setReg_self]
        exact Nat.mod_eq_of_lt (by omega)
      · have hne : Reg.ARY_AGEa.addr p.1 p.2 ≠ Reg.ARY_AGEa.addr q.1 q.2 := fun he => hpq (ageAddr_inj hp hqlt he)
        have hmem : p ∈ q :: t ↔ p ∈ t := by simp [hpq]
        simp only [State.ageOne, State.reg_setReg_of_ne _ _ _ _ _ _ _ _ hne, hmem]

/-- Every resident array of an enabled core is `n` of its die older. -/
def Older (s t : State) (n : Nat → Nat) : Prop :=
  ∀ i b, s.enabled i = true → b < 17 → t.reg Reg.ARY_AGEa i b = min (2 ^ 64 - 1) (s.reg Reg.ARY_AGEa i b + n (dieOf i))

/-- An address other than those of the ages of enabled cores. -/
def State.noAge (s : State) (w : Nat) : Prop := ∀ i b, s.enabled i = true → b < 17 → w ≠ Reg.ARY_AGEa.addr i b

theorem State.addAge_spec (s : State) (die n : Nat) :
    OnlyRegs s (s.addAge die n) ((s.residents die).map (fun p => Reg.ARY_AGEa.addr p.1 p.2)) ∧
      ∀ i b, s.enabled i = true → b < 17 → (s.addAge die n).reg Reg.ARY_AGEa i b =
        if dieOf i = die then min (2 ^ 64 - 1) (s.reg Reg.ARY_AGEa i b + n) else s.reg Reg.ARY_AGEa i b := by
  rw [State.addAge_eq]
  obtain ⟨honly, hreg⟩ := State.foldl_ageOne n (s.residents die) s (s.nodup_residents die) (fun p hp => (State.mem_residents.mp hp).2.2)
  refine ⟨honly, fun i b hen hb => (hreg (i, b) hb).trans ?_⟩
  simp [State.mem_residents, hen, hb]

/-- A register that is no age and not `CAL_AGE` keeps its value through the ageing of a die. -/
theorem State.reg_addAge_of_ne (s : State) (die n : Nat) (f : RegFam) (i j : Nat) (h : f.addr i j < 0x1000000) :
    (s.addAge die n).reg f i j = s.reg f i j := by
  rw [State.addAge_eq]
  generalize s.residents die = l
  induction l generalizing s with
  | nil => rfl
  | cons p t ih =>
    rw [List.foldl_cons, ih]
    exact State.reg_setReg_of_ne _ _ _ _ _ _ _ _ (by simp only [RegFam.addr, Reg.ARY_AGEa] at h ⊢; omega)

/-- Register changes one after the other. -/
theorem eq_withRegs_trans {s t u : State} (h : t = { s with regs := t.regs }) (k : u = { t with regs := u.regs }) :
    u = { s with regs := u.regs } := by
  rw [h] at k
  exact k

theorem fcl_of_withRegs {s t : State} (h : t = { s with regs := t.regs }) : t.fcl = s.fcl := by rw [h]

theorem enabled_of_withRegs {s t : State} (h : t = { s with regs := t.regs }) (i : Nat) : t.enabled i = s.enabled i := by
  rw [h]
  rfl

/-- Both dies age, and nothing else changes. -/
theorem State.addAge_both (s : State) (n m : Nat) :
    (s.addAge 0 n).addAge 1 m = { s with regs := ((s.addAge 0 n).addAge 1 m).regs } ∧
      Older s ((s.addAge 0 n).addAge 1 m) (fun die => if die = 0 then n else m) ∧
      ∀ w, s.noAge w → ((s.addAge 0 n).addAge 1 m).word w = s.word w := by
  obtain ⟨⟨heq0, hword0⟩, hreg0⟩ := s.addAge_spec 0 n
  obtain ⟨⟨heq1, hword1⟩, hreg1⟩ := (s.addAge 0 n).addAge_spec 1 m
  have hen : ∀ i, (s.addAge 0 n).enabled i = s.enabled i := enabled_of_withRegs heq0
  refine ⟨eq_withRegs_trans heq0 heq1, fun i b hi hb => ?_, fun w hw => ?_⟩
  · have hdie : dieOf i = 0 ∨ dieOf i = 1 := dieOf_of_enabled hi
    rw [hreg1 i b ((hen i).trans hi) hb, hreg0 i b hi hb]
    rcases hdie with h | h <;> simp [h]
  · have hout : ∀ (t : State) (die : Nat), (∀ i, t.enabled i = s.enabled i) →
        w ∉ (t.residents die).map (fun p => Reg.ARY_AGEa.addr p.1 p.2) := by
      intro t die ht hmem
      obtain ⟨p, hp, he⟩ := List.mem_map.mp hmem
      obtain ⟨hi, -, hb⟩ := State.mem_residents.mp hp
      exact hw p.1 p.2 ((ht p.1).symm.trans hi) hb he.symm
    exact (hword1 w (hout _ 1 hen)).trans (hword0 w (hout s 0 (fun _ => rfl)))

end Sys2Proof.Machine
end

section
/-! SUPPORT. Ages on command, by time and in the store; the start of a calibration (R66, R433, R441, R442). -/

namespace Sys2Proof.Machine

/-- The ages of a statement: `CAL_AGE` may have changed besides. -/
def Aged (s t : State) (n : Nat → Nat) : Prop :=
  Older s t n ∧ ∀ w, s.noAge w → w ≠ Reg.CAL_AGE.addr 0 0 → t.word w = s.word w

/-- An accepted `ELAPSED` of a device whose ages are still unknown (R442). -/
theorem elapsed_ages {s : State} {h : Hdr} {x : Session} {seconds : Nat} (hc : s.calm)
    (ha : s.accepts h (opRowM 0x0161) false true true x) (hsec : seconds ≤ 3155760000) (hage : s.rf Reg.CAL_AGE 0 0 1 0 = 0) :
    ∃ t, Done (exec (.elapsed h seconds) s) h 0x0161 t [] ∧ t = { s.taken h with regs := t.regs } ∧ t.rf Reg.CAL_AGE 0 0 1 0 = 1 ∧
      Aged s t (fun _ => seconds * 1000 * s.rf Reg.CAL_AGE_CTL 0 0 20 16) := by
  generalize hn : seconds * 1000 * s.rf Reg.CAL_AGE_CTL 0 0 20 16 = n
  obtain ⟨heq, hages, hwords⟩ := (s.taken h).addAge_both n n
  have hrun : Done (exec (.elapsed h seconds) s) h 0x0161 ((((s.taken h).addAge 0 n).addAge 1 n).setRf Reg.CAL_AGE 0 0 1 0 1) [] := by
    have hknown : ¬(s.taken h).rf Reg.CAL_AGE 0 0 1 0 ≠ 0 := not_not.mpr hage
    show Done (execElapsed h seconds s) _ _ _ _
    rw [execElapsed, decide_eq_true hsec]
    have hfcl := fcl_of_withRegs heq
    refine done_of_accepts hc ha ?_ (by rw [State.setRf_fcl]; exact hfcl)
    rw [if_neg hknown, ← hn]
    rfl
  generalize ((s.taken h).addAge 0 n).addAge 1 n = v at heq hages hwords hrun
  refine ⟨_, hrun, ?_, State.rf_setRf_self _ _ _ _ _ _ (by decide), fun i b hi hb => ?_, fun w hw hne => ?_⟩
  · rw [heq]; rfl
  · have hne : Reg.ARY_AGEa.addr i b ≠ Reg.CAL_AGE.addr 0 0 := by simp only [RegFam.addr, Reg.ARY_AGEa, Reg.CAL_AGE]; omega
    rw [State.reg_setRf_of_ne _ _ _ _ _ _ _ _ _ _ hne, hages i b hi hb]
    simp only [ite_self]
    rfl
  · exact (State.word_setReg_of_ne _ _ _ _ _ _ hne).trans (hwords w hw)

/-- The time that PWR_EN has been low, a millisecond later (R494). -/
def State.timedLow (s : State) : State :=
  { s with pow := { s.pow with lowMs := if s.pow.pwrEn then s.pow.lowMs else min 10 (s.pow.lowMs + 1) } }

@[simp] theorem State.timedLow_reg (s : State) (f : RegFam) (i j : Nat) : s.timedLow.reg f i j = s.reg f i j := rfl

@[simp] theorem State.timedLow_tj (s : State) (die : Nat) : s.timedLow.tj die = s.tj die := rfl

theorem exec_ageTick_of_vin {s : State} (hvin : s.pow.vin = true) :
    exec .ageTick s = .next ((s.timedLow.addAge 0 (ageFactor (s.tj 0))).addAge 1 (ageFactor (s.tj 1))) := by
  have htj : (s.timedLow.addAge 0 (ageFactor (s.tj 0))).tj 1 = s.tj 1 := by
    rw [State.tj, State.rf, State.reg_addAge_of_ne _ _ _ _ _ _ (by decide)]
    exact s.timedLow_tj 1
  have hlow : (if s.pow.pwrEn then s else { s with pow := { s.pow with lowMs := min 10 (s.pow.lowMs + 1) } }) = s.timedLow := by
    unfold State.timedLow
    cases s.pow.pwrEn <;> rfl
  show execAgeTick s = _
  rw [execAgeTick, if_pos hvin, hlow]
  simp only [List.range, List.range.loop, List.foldl_cons, List.foldl_nil, s.timedLow_tj, htj]

/-- Every millisecond under input power adds what the temperature of each die says (R441). -/
theorem ageTick_ages {s : State} (hvin : s.pow.vin = true) :
    ∃ t, exec .ageTick s = .next t ∧
      t = { s with regs := t.regs, pow := { s.pow with lowMs := if s.pow.pwrEn then s.pow.lowMs else min 10 (s.pow.lowMs + 1) } } ∧
      Aged s t (fun y => ageFactor (s.tj y)) ∧ t.word (Reg.CAL_AGE.addr 0 0) = s.word (Reg.CAL_AGE.addr 0 0) := by
  obtain ⟨heq, hages, hwords⟩ := s.timedLow.addAge_both (ageFactor (s.tj 0)) (ageFactor (s.tj 1))
  refine ⟨_, exec_ageTick_of_vin hvin, heq, ⟨fun i b hi hb => ?_, fun w hw _ => hwords w hw⟩, hwords _ (fun i b _ _ => ?_)⟩
  · have hdie : dieOf i = 0 ∨ dieOf i = 1 := dieOf_of_enabled hi
    rw [hages i b hi hb]
    rcases hdie with h | h <;> simp [h]
  · simp only [RegFam.addr, Reg.ARY_AGEa, Reg.CAL_AGE]
    omega

/-- The ages of both dies go to the store (R441). -/
theorem exec_ageRecordCommit_of_booted {s : State} {c d : CalStore} (hboot : s.pow.booted = true) (hcal : s.cal = [c, d]) :
    exec .ageRecordCommit s = .next { s with cal := [
      { c with waiting := c.waiting ++ [(⟨5, 0xFF, 0xFFFF, c.next, s.agePayload 0⟩ : CalRec)], next := c.next + 1 },
      { d with waiting := d.waiting ++ [(⟨5, 0xFF, 0xFFFF, d.next, s.agePayload 1⟩ : CalRec)], next := d.next + 1 }] } := by
  have hpay : ∀ l, ({ s with cal := l } : State).agePayload 1 = s.agePayload 1 := fun _ => rfl
  show execAgeRecordCommit s = _
  rw [execAgeRecordCommit, if_pos hboot]
  simp only [State.ageRecords, List.range, List.range.loop, List.foldl_cons, List.foldl_nil, State.calAppend, hcal, hpay,
    List.modify_zero_cons, List.modify_succ_cons]

/-- What the registers show of a calibration on command (R433). -/
def State.calShown (s : State) (scope site : Nat) : State :=
  if scope = 3 then (s.setReg Reg.CAL_STATE 0 0 (scope * 2 ^ 16 + site)).setRf Reg.CAL_AGE 0 0 1 0 2
  else s.setReg Reg.CAL_STATE 0 0 (scope * 2 ^ 16 + site)

/-- A calibration on command has started. -/
def State.calStarted (s : State) (r : Reply) (scope site : Nat) : State :=
  { s.calShown scope site with jobs := { (s.calShown scope site).jobs with calibrate := some r, calScope := scope, calSite := site } }

theorem State.calShown_eq (s : State) (scope site : Nat) : s.calShown scope site = { s with regs := (s.calShown scope site).regs } := by
  unfold State.calShown
  split <;> rfl

theorem State.calShown_reg (s : State) {scope site : Nat} (h1 : scope ≤ 4) (h2 : site < 2 ^ 16) :
    (s.calShown scope site).reg Reg.CAL_STATE 0 0 = scope * 2 ^ 16 + site := by
  have hval : (s.setReg Reg.CAL_STATE 0 0 (scope * 2 ^ 16 + site)).reg Reg.CAL_STATE 0 0 = scope * 2 ^ 16 + site := by
    rw [State.reg_setReg_self]
    exact Nat.mod_eq_of_lt (by omega)
  unfold State.calShown
  split
  · rw [State.reg_setRf_of_ne _ _ _ _ _ _ _ _ _ _ (by decide), hval]
  · exact hval

theorem State.calShown_age (s : State) (site : Nat) : (s.calShown 3 site).rf Reg.CAL_AGE 0 0 1 0 = 2 :=
  State.rf_setRf_self (s.setReg Reg.CAL_STATE 0 0 (3 * 2 ^ 16 + site)) Reg.CAL_AGE 0 0 0 2 (by decide)

/-- A site that a calibration may name fits its field. -/
theorem State.site_of_calCheck {s : State} {scope site : Nat} (hsite : scope = 1 ∨ site = 0) (hcheck : s.calCheck scope site = stOk) :
    (if scope = 1 then site else 0) = site ∧ site < 2 ^ 16 := by
  rcases hsite with rfl | rfl
  · have hen : s.enabled site = true := by
      cases hen : s.enabled site with
      | true => rfl
      | false => simp [State.calCheck, hen, stNotFound, stOk] at hcheck
    have hlt := State.lt_of_enabled hen
    simp only [nSites] at hlt
    exact ⟨rfl, by omega⟩
  · exact ⟨ite_self _, by decide⟩

/-- An accepted `CALIBRATE` that its scope lets start (R433). -/
theorem exec_calibrate_of_calCheck {s : State} {h : Hdr} {x : Session} {scope site : Nat} (hc : s.calm)
    (ha : s.accepts h (opRow 0x0162) false true true x) (hscope : 1 ≤ scope ∧ scope ≤ 4) (hsite : scope = 1 ∨ site = 0)
    (hcheck : s.calCheck scope site = stOk) :
    exec (.calibrate h scope site) s = .next ((s.taken h).calStarted (replyTo h 0x0162) scope site) := by
  have hgo : ¬(s.taken h).calCheck scope site ≠ stOk := not_not.mpr hcheck
  have hform : decide (scope = 1 ∨ site = 0 ∨ scope = 0 ∨ 5 ≤ scope) = true := decide_eq_true (hsite.imp_right .inl)
  have hfcl := fcl_of_withRegs ((s.taken h).calShown_eq scope site)
  show execCalibrate h scope site s = _
  rw [execCalibrate, hform, decide_eq_true hscope, State.command_of_accepts ha, if_neg hgo, (State.site_of_calCheck hsite hcheck).1]
  exact finish_of_calm (t := (s.taken h).calStarted (replyTo h 0x0162) scope site) hc hfcl

/-- A calibration on command starts, and the registers show it. -/
theorem calibrate_starts {s : State} {h : Hdr} {x : Session} {scope site : Nat} (hc : s.calm) (ha : s.accepts h (opRow 0x0162) false true true x)
    (hscope : 1 ≤ scope ∧ scope ≤ 4) (hsite : scope = 1 ∨ site = 0) (hcheck : s.calCheck scope site = stOk) :
    ∃ t, exec (.calibrate h scope site) s = .next t ∧
      t = { s.taken h with regs := t.regs, jobs := { s.jobs with calibrate := some (replyTo h 0x0162), calScope := scope, calSite := site } } ∧
      t.reg Reg.CAL_STATE 0 0 = scope * 2 ^ 16 + site ∧ (scope = 3 → t.rf Reg.CAL_AGE 0 0 1 0 = 2) := by
  have hreg := (s.taken h).calShown_reg hscope.2 (State.site_of_calCheck hsite hcheck).2
  have hshown := (s.taken h).calShown_eq scope site
  refine ⟨_, exec_calibrate_of_calCheck hc ha hscope hsite hcheck, ?_, hreg, ?_⟩
  · rw [State.calStarted, hshown]
    rfl
  · rintro rfl
    exact (s.taken h).calShown_age site

end Sys2Proof.Machine
end

section
/-! SUPPORT. What a calibration on command leaves on an array of which it has measured one column (R432, R434). -/

namespace Sys2Proof.Machine

/-- The array with the trim that a calibration found for a column. -/
def Arr.trimmed (r : Arr) (col : Nat) (tr : Int) : Arr := { r with colTrim := SMap.put r.colTrim 512 col (trimCode tr) }

/-- A column whose trim stays within its range, with a gain error within 2 %, keeps its place (R432). -/
theorem State.calColumn_of_in_range (s : State) (site a : Nat) {x : ColFound} (h0 : 0 ≤ x.trim) (h1 : x.trim ≤ 1023)
    (hgain : x.gainErr.natAbs ≤ 200) :
    s.calColumn site a x = s.setCore site ((s.core site).setArr a (((s.core site).arr a).trimmed x.col x.trim)) := by
  have hlow : ¬x.trim < 0 := by omega
  have hhigh : ¬1023 < x.trim := by omega
  have hsmall : ¬200 < x.gainErr.natAbs := by omega
  unfold State.calColumn
  simp only [hlow, hhigh, hsmall, or_self, decide_false, Bool.and_false]
  split
  · rfl
  · simp only [Bool.or_self, Bool.false_eq_true, if_false, ite_self]
    rfl

/-- The records of an array wait in the store of its die; nothing else changes. -/
theorem State.calAppendArray_eq (s : State) (site a : Nat) : ∃ l, s.calAppendArray site a = { s with cal := l } := by
  have happend : ∀ (t : State) (d typ : Nat) (p : List Byte), ∃ l, t.calAppend d typ a site p = { t with cal := l } := fun _ _ _ _ => ⟨_, rfl⟩
  unfold State.calAppendArray
  obtain ⟨l, h1⟩ := happend s (dieOf site) 1 ((s.core site).arr a).trimPayload
  obtain ⟨l, h2⟩ := happend { s with cal := l } (dieOf site) 2 ((s.core site).arr a).corrPayload
  simp only [h1, h2]
  obtain ⟨l, h3⟩ := happend { s with cal := l } (dieOf site) 3
    (driftPayload (({ s with cal := l } : State).rf Reg.ARY_DRIFT_COEFa site a 15 0) ((s.core site).arr a).meanGain)
  rw [h3]
  exact ⟨_, rfl⟩

@[simp] theorem State.calAppendArray_core (s : State) (site a k : Nat) : (s.calAppendArray site a).core k = s.core k := by
  obtain ⟨l, hl⟩ := s.calAppendArray_eq site a
  rw [hl]
  rfl

/-- After changes of cores and registers the records of an array go to the store. -/
theorem State.calAppendArray_of_withCores {s v w : State} (site a : Nat) (hv : v = { s with cores := v.cores })
    (hw : ∃ g, w = { v with regs := g }) :
    w.calAppendArray site a =
      { s with cores := (w.calAppendArray site a).cores, regs := (w.calAppendArray site a).regs, cal := (w.calAppendArray site a).cal } := by
  obtain ⟨g, rfl⟩ := hw
  obtain ⟨l, hl⟩ := State.calAppendArray_eq { v with regs := g } site a
  rw [hl, hv]

/-- What follows the columns of a calibration that found no entries of an array that holds a tile: entries stay, ν may be refitted, and the records
go to the store. -/
theorem State.calArray_of_column {s : State} {cal : ArrayCal} {site a col : Nat} {tr ge : Int} (hsite : cal.site = site) (harr : cal.arr = a)
    (hconvs : cal.convs = []) (hentries : cal.entries = []) (hcols : cal.cols = [⟨col, tr, ge⟩]) (h0 : 0 ≤ tr) (h1 : tr ≤ 1023)
    (hgain : ge.natAbs ≤ 200) (hholds : ((s.core site).arr a).holds ≠ .none) :
    s.calArray cal = { s with cores := (s.calArray cal).cores, regs := (s.calArray cal).regs, cal := (s.calArray cal).cal } ∧
      ((s.calArray cal).core site).arr a = ((s.core site).arr a).trimmed col tr ∧ ∀ y, y ≠ site → (s.calArray cal).core y = s.core y := by
  subst hsite harr
  have hcolumn := s.calColumn_of_in_range cal.site cal.arr (x := ⟨col, tr, ge⟩) h0 h1 hgain
  generalize hu : s.setCore cal.site ((s.core cal.site).setArr cal.arr (((s.core cal.site).arr cal.arr).trimmed col tr)) = u at hcolumn
  have harr : (u.core cal.site).arr cal.arr = ((s.core cal.site).arr cal.arr).trimmed col tr := by
    rw [← hu, State.core_setCore_self, Core.arr_setArr_self]
  have hothers : ∀ y, y ≠ cal.site → u.core y = s.core y := fun y hy => by rw [← hu, State.core_setCore_of_ne _ _ hy]
  have hkept : ((u.core cal.site).arr cal.arr).holds ≠ .none := by rw [harr]; exact hholds
  unfold State.calArray
  simp only [hconvs, hentries, hcols, List.foldl_nil, List.foldl_cons, hcolumn, if_neg hkept]
  generalize hv : u.setCore cal.site ((u.core cal.site).setArr cal.arr ((u.core cal.site).arr cal.arr)) = v
  have hvcore : (v.core cal.site).arr cal.arr = ((s.core cal.site).arr cal.arr).trimmed col tr := by
    rw [← hv, State.core_setCore_self, Core.arr_setArr_self, harr]
  have hvothers : ∀ y, y ≠ cal.site → v.core y = s.core y := fun y hy => by
    rw [← hv, State.core_setCore_of_ne _ _ hy, hothers y hy]
  have hveq : v = { s with cores := v.cores } := by rw [← hv, ← hu]; rfl
  split
  · exact ⟨State.calAppendArray_of_withCores _ _ hveq ⟨_, rfl⟩, by simpa using hvcore, by simpa using hvothers⟩
  · exact ⟨State.calAppendArray_of_withCores _ _ hveq ⟨v.regs, rfl⟩, by simpa using hvcore, by simpa using hvothers⟩

/-- A field that is set changes registers alone. -/
theorem State.setRf_eq_withRegs (s : State) (f : RegFam) (i j hi lo v : Nat) : ∃ g, s.setRf f i j hi lo v = { s with regs := g } := ⟨_, rfl⟩

/-- No calibration on command runs or waits any more. -/
def State.calStopped (s : State) : State := { s with jobs := { s.jobs with calibrate := none, calScope := 0 } }

/-- A calibration of one core on command ends: its method counts as calibrated, and nothing shows or waits any more. -/
def State.calEnded (s : State) (site : Nat) : State :=
  (s.setRf Reg.ARY_CAL_METHOD site 0 31 31 1).calStopped.setReg Reg.CAL_STATE 0 0 0

section
variable (s : State) (site : Nat)

theorem State.calEnded_eq : ∃ g, s.calEnded site = { s with regs := g, jobs := { s.jobs with calibrate := none, calScope := 0 } } := by
  obtain ⟨g, hg⟩ := s.setRf_eq_withRegs Reg.ARY_CAL_METHOD site 0 31 31 1
  rw [State.calEnded, hg]
  exact ⟨_, rfl⟩

theorem State.calEnded_keeps : (s.calEnded site).fcl = s.fcl ∧ (s.calEnded site).mem = s.mem ∧ (s.calEnded site).seq = s.seq ∧
    (s.calEnded site).jobs.calibrate = none ∧ ∀ k, (s.calEnded site).core k = s.core k := by
  obtain ⟨g, hg⟩ := s.calEnded_eq site
  rw [hg]
  exact ⟨rfl, rfl, rfl, rfl, fun _ => rfl⟩

theorem State.calEnded_reg : (s.calEnded site).reg Reg.CAL_STATE 0 0 = 0 := State.reg_setReg_self _ _ _ _ _

theorem State.calEnded_method : (s.calEnded site).rf Reg.ARY_CAL_METHOD site 0 31 31 = 1 := by
  have hne : Reg.ARY_CAL_METHOD.addr site 0 ≠ Reg.CAL_STATE.addr 0 0 := by simp only [RegFam.addr, Reg.ARY_CAL_METHOD, Reg.CAL_STATE]; omega
  have hset := s.rf_setRf_self Reg.ARY_CAL_METHOD site 0 31 1 (hi := 31) (by decide)
  obtain ⟨g, hg⟩ := s.setRf_eq_withRegs Reg.ARY_CAL_METHOD site 0 31 31 1
  rw [hg] at hset
  rw [State.calEnded, hg, State.rf, State.reg_setReg_of_ne _ _ _ _ _ _ _ _ hne]
  exact hset

end


/-- `CALIBRATION_DONE` of a core with the one array that has been measured. -/
theorem exec_calibrationDone_of_core {s : State} {r : Reply} {cal : ArrayCal} {site : Nat} (hjob : s.jobs.calibrate = some r)
    (hscope : s.jobs.calScope = 1) (hjsite : s.jobs.calSite = site) (hsite : cal.site = site) (harr : cal.arr < 19)
    (hdie : s.dieWorks (dieOf site) = true) :
    exec (.calibrationDone [cal] []) s = finish (((s.calArray cal).calEnded site).answer r stOk []) := by
  have hone : [site].filter (fun x => s.dieWorks (dieOf x)) = [site] := by simp [hdie]
  have hin : ([site].contains cal.site && decide (cal.arr < 19)) = true := by simp [hsite, harr]
  show execCalibrationDone [cal] [] s = _
  unfold execCalibrationDone
  simp only [hjob, hscope, hjsite, reduceIte, Nat.reduceEqDiff, hone, hin, List.foldl_cons, List.foldl_nil]
  rfl

/-- `CALIBRATION_DONE` of a core on which one column was measured. -/
theorem calibrationDone_column {s : State} {r : Reply} {cal : ArrayCal} {site a col : Nat} {tr ge : Int} (hc : s.calm)
    (hjob : s.jobs.calibrate = some r) (hscope : s.jobs.calScope = 1) (hjsite : s.jobs.calSite = site) (hsite : cal.site = site)
    (harr : cal.arr = a) (ha : a < 19) (hconvs : cal.convs = []) (hentries : cal.entries = []) (hcols : cal.cols = [⟨col, tr, ge⟩])
    (h0 : 0 ≤ tr) (h1 : tr ≤ 1023) (hgain : ge.natAbs ≤ 200) (hholds : ((s.core site).arr a).holds ≠ .none)
    (hdie : s.dieWorks (dieOf site) = true) :
    let arr := (s.core site).arr a
    ∃ t : State, exec (.calibrationDone [cal] []) s = .next (t.answer r stOk []) ∧ t.jobs.calibrate = none ∧ t.reg Reg.CAL_STATE 0 0 = 0 ∧
      t.rf Reg.ARY_CAL_METHOD site 0 31 31 = 1 ∧ SMap.get ((t.core site).arr a).colTrim 512 col = trimCode tr ∧
      (∀ y, y ≠ col → SMap.get ((t.core site).arr a).colTrim 512 y = SMap.get arr.colTrim 512 y) ∧
      ((t.core site).arr a).corr = arr.corr ∧ ((t.core site).arr a).cells = arr.cells ∧ (∀ y, y ≠ site → t.core y = s.core y) ∧
      t.mem = s.mem ∧ t.seq = s.seq := by
  intro arr
  obtain ⟨heq, hcore, hothers⟩ := State.calArray_of_column hsite harr hconvs hentries hcols h0 h1 hgain hholds
  have hexec := exec_calibrationDone_of_core hjob hscope hjsite hsite (harr ▸ ha) hdie
  generalize s.calArray cal = u at heq hcore hothers hexec
  have hfcl : u.fcl = s.fcl := by rw [heq]
  obtain ⟨hefcl, hemem, heseq, hejob, hecore⟩ := u.calEnded_keeps site
  rw [finish_of_calm hc (by rw [State.answer_ok_fcl, hefcl, hfcl])] at hexec
  refine ⟨_, hexec, hejob, u.calEnded_reg site, u.calEnded_method site, ?_⟩
  rw [hecore, hcore, hemem, heseq]
  refine ⟨SMap.get_put_self _ _ _ _, fun y hy => SMap.get_put_of_ne _ _ _ _ hy, rfl, rfl, fun y hy => (hecore y).trans (hothers y hy), ?_, ?_⟩
  · rw [heq]
  · rw [heq]

end Sys2Proof.Machine
end

section
/-! SUPPORT. An estimation of the ages, the fit of a column's statistics, and a batch that goes into the calibration store (R437, R440, R443,
R456). -/

namespace Sys2Proof.Machine

/-- The age that an estimation gives an array (R443). -/
def State.estimatedAge (s : State) (site a : Nat) (g : F32) : Nat :=
  max (s.reg Reg.ARY_AGEa site a) (min (2 ^ 64 - 1) (ageOf g (s.rf Reg.ARY_DRIFT_COEFa site a 15 0)))

/-- The estimated age of an array stands, and the estimation shows as done. -/
def State.ageEstimated (s : State) (site a : Nat) (g : F32) : State :=
  (s.setReg Reg.ARY_AGEa site a (s.estimatedAge site a g)).setRf Reg.CAL_AGE 0 0 1 0 3

section
variable (s : State) (site a : Nat) (g : F32)

theorem State.estimatedAge_lt : s.estimatedAge site a g < 2 ^ 64 := by
  have hlt := s.reg_lt Reg.ARY_AGEa site a
  unfold State.estimatedAge
  omega

theorem ageAddr_ne_calAge : Reg.ARY_AGEa.addr site a ≠ Reg.CAL_AGE.addr 0 0 := by
  simp only [RegFam.addr, Reg.ARY_AGEa, Reg.CAL_AGE]
  omega

theorem State.ageEstimated_state : (s.ageEstimated site a g).rf Reg.CAL_AGE 0 0 1 0 = 3 :=
  State.rf_setRf_self _ _ _ _ _ _ (by decide)

theorem State.ageEstimated_age : (s.ageEstimated site a g).reg Reg.ARY_AGEa site a = s.estimatedAge site a g := by
  rw [State.ageEstimated, State.reg_setRf_of_ne _ _ _ _ _ _ _ _ _ _ (ageAddr_ne_calAge site a), State.reg_setReg_self]
  exact Nat.mod_eq_of_lt (s.estimatedAge_lt site a g)

theorem State.ageEstimated_onlyRegs : OnlyRegs s (s.ageEstimated site a g) [Reg.CAL_AGE.addr 0 0, Reg.ARY_AGEa.addr site a] := by
  refine ⟨rfl, fun w hw => ?_⟩
  simp only [List.mem_cons, List.not_mem_nil, or_false, not_or] at hw
  exact (State.word_setReg_of_ne _ _ _ _ _ _ hw.1).trans (State.word_setReg_of_ne _ _ _ _ _ _ hw.2)

theorem State.mild_ageEstimated (hm : s.mild [0x7C]) : (s.ageEstimated site a g).mild [0x7C] :=
  State.mild_setReg (by decide) (State.mild_setReg (by decide) hm _ _ _ _ (Or.inr (by simp only [RegFam.addr, Reg.ARY_AGEa]; omega))) _ _ _ _
    (by decide)

end


/-- Whether an estimation may run. -/
theorem ageEstimation_open {s : State} (hstate : s.rf Reg.CAL_AGE 0 0 1 0 = 0 ∨ s.rf Reg.CAL_AGE 0 0 1 0 = 2) :
    (s.rf Reg.CAL_AGE 0 0 1 0 == 0 || s.rf Reg.CAL_AGE 0 0 1 0 == 2) = true := by
  simpa using hstate

/-- Outside IDLE an estimation only shows that it waits. -/
theorem ageEstimation_waits {s : State} {gains : List (Nat × Nat × F32)} (hboot : s.pow.booted = true)
    (hstate : s.rf Reg.CAL_AGE 0 0 1 0 = 0 ∨ s.rf Reg.CAL_AGE 0 0 1 0 = 2) (hidle : s.rf Reg.PWR_STATE 0 0 2 0 ≠ 1) :
    exec (.ageEstimation gains) s = .next (s.setRf Reg.CAL_AGE 0 0 1 0 2) := by
  show execAgeEstimation gains s = _
  simp only [execAgeEstimation, hboot, ageEstimation_open hstate, Bool.not_true, Bool.or_self, Bool.false_eq_true, if_false, if_pos hidle]

/-- In IDLE the array takes the larger age, and its end is raised. -/
theorem exec_ageEstimation_of_idle {s : State} {site a : Nat} {g : F32} (hboot : s.pow.booted = true)
    (hstate : s.rf Reg.CAL_AGE 0 0 1 0 = 0 ∨ s.rf Reg.CAL_AGE 0 0 1 0 = 2) (hidle : s.rf Reg.PWR_STATE 0 0 2 0 = 1)
    (hjob : s.jobs.calibrate = none) (hen : s.enabled site = true) (hdie : s.dieWorks (dieOf site) = true) (ha : a < 17)
    (hholds : ((s.core site).arr a).holds ≠ .none) (hm : s.mild [0x7C]) :
    exec (.ageEstimation [(site, a, g)]) s = finish ((s.ageEstimated site a g).raise 0x7C devUnit) := by
  have hnow : ¬s.rf Reg.PWR_STATE 0 0 2 0 ≠ 1 := not_not.mpr hidle
  have hserves : (s.enabled site && s.dieWorks (dieOf site) && decide (a < 17) && ((s.core site).arr a).holds != .none) = true := by
    simp [hen, hdie, ha, hholds]
  have hnone : ((s.ageEstimated site a g).raise 0x7C devUnit).jobs.calibrate = none := by
    obtain ⟨heq, -⟩ := State.raise_raised (src := 0x7C) (unit := devUnit) (by decide) (by decide) (s.mild_ageEstimated site a g hm)
    rw [heq]
    exact hjob
  show execAgeEstimation [(site, a, g)] s = _
  simp only [execAgeEstimation, hboot, ageEstimation_open hstate, Bool.not_true, Bool.or_self, Bool.false_eq_true, if_false, if_neg hnow,
    List.foldl_cons, List.foldl_nil, if_pos hserves]
  unfold State.ageEstimated State.estimatedAge at hnone ⊢
  rw [hnone]

theorem ageEstimation_idle {s : State} {site a : Nat} {g : F32} (hc : s.calm) (hboot : s.pow.booted = true)
    (hstate : s.rf Reg.CAL_AGE 0 0 1 0 = 0 ∨ s.rf Reg.CAL_AGE 0 0 1 0 = 2) (hidle : s.rf Reg.PWR_STATE 0 0 2 0 = 1)
    (hjob : s.jobs.calibrate = none) (hen : s.enabled site = true) (hdie : s.dieWorks (dieOf site) = true) (ha : a < 17)
    (hholds : ((s.core site).arr a).holds ≠ .none) (hm : s.mild [0x7C]) :
    ∃ q t, exec (.ageEstimation [(site, a, g)]) s = .next t ∧ Raised q t 0x7C devUnit ∧ q.rf Reg.CAL_AGE 0 0 1 0 = 3 ∧
      q.reg Reg.ARY_AGEa site a = max (s.reg Reg.ARY_AGEa site a) (min (2 ^ 64 - 1) (ageOf g (s.rf Reg.ARY_DRIFT_COEFa site a 15 0))) ∧
      q = { s with regs := q.regs } ∧ ∀ w, w ∉ [Reg.CAL_AGE.addr 0 0, Reg.ARY_AGEa.addr site a] → q.word w = s.word w := by
  have hexec := exec_ageEstimation_of_idle (g := g) hboot hstate hidle hjob hen hdie ha hholds hm
  obtain ⟨heq, hwords⟩ := s.ageEstimated_onlyRegs site a g
  have hcalm : (s.ageEstimated site a g).calm := by rw [heq]; exact hc
  obtain ⟨hfin, hraised⟩ := finish_raise (src := 0x7C) (unit := devUnit) hcalm (by decide) (by decide) (s.mild_ageEstimated site a g hm)
  exact ⟨_, _, hexec.trans hfin, hraised, s.ageEstimated_state site a g, s.ageEstimated_age site a g, heq, hwords⟩

/-- The statistics of a column are used once (R437). -/
theorem calStatsFit_uses {s : State} {site a col : Nat} (hen : s.enabled site = true) (hdie : s.dieWorks (dieOf site) = true)
    (hctl : s.rf Reg.CAL_STATS_CTL 0 0 0 0 = 1)
    (hmin : s.rf Reg.CAL_STATS_CTL 0 0 15 8 ≤ (SMap.get ((s.core site).arr a).stats statsDefault col).n) :
    let arr := (s.core site).arr a
    let used := s.setCore site ((s.core site).setArr a { arr with stats := SMap.erase arr.stats col })
    exec (.calStatsFit site a col) s = .next { used with sense := { s.sense with fits := s.sense.fits ++
      ((fitEntry (SMap.get arr.stats statsDefault col) (SMap.get arr.corr corrDefault col)).toList.map (fun y => (site, a, col, y))) } } := by
  intro arr used
  have henough : ¬(SMap.get arr.stats statsDefault col).n < s.rf Reg.CAL_STATS_CTL 0 0 15 8 := Nat.not_lt.mpr hmin
  have hgo : ¬(!s.enabled site || !s.dieWorks (dieOf site) || s.rf Reg.CAL_STATS_CTL 0 0 0 0 == 0 ||
      decide ((SMap.get arr.stats statsDefault col).n < s.rf Reg.CAL_STATS_CTL 0 0 15 8)) = true := by
    simp [hen, hdie, hctl, henough]
  show execCalStatsFit site a col s = _
  rw [execCalStatsFit, if_neg hgo]
  cases fitEntry (SMap.get arr.stats statsDefault col) (SMap.get arr.corr corrDefault col) with
  | none =>
    simp only [Option.toList_none, List.map_nil, List.append_nil]
    rfl
  | some y => rfl

end Sys2Proof.Machine
end

section
/-! SUPPORT. A batch of one record that goes into the calibration store of die 0, and the obligation O53 (R440, R456). -/

namespace Sys2Proof.Machine

theorem takeBytes_one {e : CalRec} (h : e.size ≤ 65536) : takeBytes 65536 [e] = ([e], []) := by
  simp [takeBytes, h]

/-- The half of a die's store is full by so many bytes. -/
def State.calFill (s : State) (die n : Nat) : State := s.setRf Reg.CAL_STOREd 0 die 6 0 (min 100 (100 * n / halfSize))

theorem State.calFill_shown (s : State) {die n : Nat} (h : n ≤ halfSize) :
    (s.calFill die n).rf Reg.CAL_STOREd 0 die 6 0 = 100 * n / halfSize := by
  have hpart : 100 * n / halfSize ≤ 100 := Nat.div_le_of_le_mul (by omega)
  rw [State.calFill, State.rf_setRf_self _ _ _ _ _ _ (by decide), Nat.min_eq_right hpart]
  exact Nat.mod_eq_of_lt (by omega)

theorem State.calFill_onlyRegs (s : State) (die n : Nat) : OnlyRegs s (s.calFill die n) [Reg.CAL_STOREd.addr 0 die] :=
  ⟨rfl, fun _ hw => State.word_setReg_of_ne _ _ _ _ _ _ (by simpa using hw)⟩

/-- The batch of one record stands in the store of die 0; `again` bytes of it have been written once more. -/
def State.batchIn (s : State) (c d : CalStore) (e : CalRec) (again : Nat) : State :=
  ({ s with cal := [{ c with recs := c.recs ++ [e], waiting := [], lost := c.lost + again }, d] } : State).calFill 0
    (recsSize c.recs + c.lost + e.size + again)

theorem recsSize_append_one (l : List CalRec) (e : CalRec) : recsSize (l ++ [e]) = recsSize l + e.size := by
  simp [recsSize]

/-- A record that waits alone goes into the store where it fits, and once more when it reads back wrong. -/
theorem State.commitBatch_of_one {s : State} {c d : CalStore} {e : CalRec} {bad : List Nat} {again : List CalRec} (hcal : s.cal = [c, d])
    (hwait : c.waiting = [e]) (hsize : e.size ≤ 65536) (hagain : [e].filter (fun r => bad.contains r.seq) = again)
    (hfit : recsSize c.recs + c.lost + e.size + recsSize again ≤ halfSize) :
    s.commitBatch 0 bad = again.foldl (fun t _ => t.raise 0x7B 0) (s.batchIn c d e (recsSize again)) := by
  have hone : recsSize [e] = e.size := by simp [recsSize]
  have hplace : ¬halfSize < recsSize c.recs + c.lost + recsSize [e] + recsSize again := by omega
  have htotal : recsSize (c.recs ++ [e]) + c.lost + recsSize again = recsSize c.recs + c.lost + e.size + recsSize again := by
    rw [recsSize_append_one]
    omega
  unfold State.commitBatch
  simp only [hcal, List.getElem?_cons_zero, hwait, takeBytes_one hsize, List.isEmpty_cons, Bool.false_eq_true, if_false, hagain,
    if_neg hplace, htotal, List.set_cons_zero]
  rfl

section
variable {s : State} {c d : CalStore} {e : CalRec} {k : Nat}

/-- With no record waiting on die 1, only what becomes of die 0 stays. -/
theorem exec_calBatchCommit_of_first {u : State} (hw : s.writesOk = true) (hcal : s.cal = [c, d]) (hwait : c.waiting = [e])
    (hnv : s.nvWriting 0 = false)
    (hfirst : (if s.holdup 100 then s.commitBatch 0 [k] else s.holdupCheck 0 100) = u)
    (hother : ∃ b, u.cal = [b, d]) (hd : d.waiting = []) : exec (.calBatchCommit [k]) s = finish u := by
  obtain ⟨b, hu⟩ := hother
  have hgo : ¬(!s.writesOk) = true := by simp [hw]
  have hopen : ¬(((s.cal[0]?).map (fun c => c.waiting.isEmpty)).getD true || s.nvWriting 0) = true := by simp [hcal, hwait, hnv]
  have hskip : (((u.cal[1]?).map (fun c => c.waiting.isEmpty)).getD true || u.nvWriting 1) = true := by simp [hu, hd]
  show execCalBatchCommit [k] s = _
  rw [execCalBatchCommit, if_neg hgo]
  simp only [List.range, List.range.loop, List.foldl_cons, List.foldl_nil, if_neg hopen, hfirst, if_pos hskip]

/-- A record that reads back right. -/
theorem calBatchCommit_good (hc : s.calm) (hw : s.writesOk = true) (hcal : s.cal = [c, d]) (hwait : c.waiting = [e]) (hd : d.waiting = [])
    (hsize : e.size ≤ 65536) (hnv : s.nvWriting 0 = false) (hbank : s.holdup 100 = true)
    (hfit : recsSize c.recs + c.lost + e.size ≤ halfSize) (hk : k ≠ e.seq) :
    ∃ t, exec (.calBatchCommit [k]) s = .next t ∧
      t = { s with regs := t.regs, cal := [{ c with recs := c.recs ++ [e], waiting := [] }, d] } ∧
      t.rf Reg.CAL_STOREd 0 0 6 0 = 100 * (recsSize c.recs + c.lost + e.size) / halfSize ∧
      ∀ w, w ≠ Reg.CAL_STOREd.addr 0 0 → t.word w = s.word w := by
  have hagain : [e].filter (fun r => [k].contains r.seq) = [] := by simp [Ne.symm hk]
  have hcommit : s.commitBatch 0 [k] = s.batchIn c d e 0 := s.commitBatch_of_one hcal hwait hsize hagain hfit
  refine ⟨s.batchIn c d e 0, ?_, rfl, State.calFill_shown _ hfit, fun w hne => (State.calFill_onlyRegs _ _ _).2 w (by simpa using hne)⟩
  rw [exec_calBatchCommit_of_first hw hcal hwait hnv ((if_pos hbank).trans hcommit) ⟨_, rfl⟩ hd]
  exact finish_of_calm hc rfl

theorem mild_batchIn {l : List Nat} (hl : ∀ n ∈ l, n < 256) (hm : s.mild l) (again : Nat) : (s.batchIn c d e again).mild l :=
  State.mild_setReg (s := { s with cal := [{ c with recs := c.recs ++ [e], waiting := [], lost := c.lost + again }, d] }) hl hm _ _ _ _
    (by decide)

/-- A record that reads back wrong is written again, and `CAL_STORE` is raised. -/
theorem calBatchCommit_again (hc : s.calm) (hw : s.writesOk = true) (hcal : s.cal = [c, d]) (hwait : c.waiting = [e]) (hd : d.waiting = [])
    (hsize : e.size ≤ 65536) (hnv : s.nvWriting 0 = false) (hbank : s.holdup 100 = true)
    (hfit : recsSize c.recs + c.lost + 2 * e.size ≤ halfSize) (hm : s.mild [0x7B]) :
    ∃ q t, exec (.calBatchCommit [e.seq]) s = .next t ∧ Raised q t 0x7B 0 ∧
      q = { s with regs := q.regs, cal := [{ c with recs := c.recs ++ [e], waiting := [], lost := c.lost + e.size }, d] } ∧
      q.rf Reg.CAL_STOREd 0 0 6 0 = 100 * (recsSize c.recs + c.lost + 2 * e.size) / halfSize := by
  have hagain : [e].filter (fun r => [e.seq].contains r.seq) = [e] := by simp
  have hone : recsSize [e] = e.size := by simp [recsSize]
  have htwice : recsSize c.recs + c.lost + 2 * e.size = recsSize c.recs + c.lost + e.size + e.size := by omega
  rw [htwice] at hfit ⊢
  have hcommit : s.commitBatch 0 [e.seq] = (s.batchIn c d e e.size).raise 0x7B 0 := by
    rw [s.commitBatch_of_one hcal hwait hsize hagain (by omega), hone]
    rfl
  obtain ⟨hfin, hraised⟩ := finish_raise (s := s.batchIn c d e e.size) (src := 0x7B) (unit := 0) hc (by decide) (by decide)
    (mild_batchIn (by decide) hm _)
  have hstore : ∃ b, ((s.batchIn c d e e.size).raise 0x7B 0).cal = [b, d] := by
    obtain ⟨heq, -⟩ := hraised
    rw [heq]
    exact ⟨_, rfl⟩
  refine ⟨s.batchIn c d e e.size, _, ?_, hraised, rfl, State.calFill_shown _ hfit⟩
  rw [exec_calBatchCommit_of_first hw hcal hwait hnv ((if_pos hbank).trans hcommit) hstore hd, hfin]

/-- A batch that the hold-up bank cannot cover waits. -/
theorem calBatchCommit_deferred (hc : s.calm) (hw : s.writesOk = true) (hcal : s.cal = [c, d]) (hwait : c.waiting = [e]) (hd : d.waiting = [])
    (hnv : s.nvWriting 0 = false) (hbank : s.holdup 100 = false) (hroom : s.room Reg.PWR_HOLDUP_DEFER 0 0 1) (hm : s.mild [0x7D]) :
    ∃ q t, exec (.calBatchCommit [k]) s = .next t ∧ Raised q t 0x7D 0 ∧ OnlyRegs s q [Reg.PWR_HOLDUP_DEFER.addr 0 0] ∧
      q.reg Reg.PWR_HOLDUP_DEFER 0 0 = s.reg Reg.PWR_HOLDUP_DEFER 0 0 + 1 := by
  have hshort : ¬s.holdup 100 = true := by simp [hbank]
  have hcount := (State.err_of_room hroom).trans (if_neg Nat.one_ne_zero)
  have hnew := State.reg_bumped hroom
  have hmild : (s.setRf Reg.PWR_HOLDUP_DEFER 0 0 30 0 (s.rf Reg.PWR_HOLDUP_DEFER 0 0 30 0 + 1)).mild [0x7D] :=
    State.mild_setReg (by decide) hm _ _ _ _ (by decide)
  have honly : OnlyRegs s (s.setRf Reg.PWR_HOLDUP_DEFER 0 0 30 0 (s.rf Reg.PWR_HOLDUP_DEFER 0 0 30 0 + 1)) [Reg.PWR_HOLDUP_DEFER.addr 0 0] :=
    ⟨rfl, fun w hne => State.word_setReg_of_ne _ _ _ _ _ _ (by simpa using hne)⟩
  generalize s.setRf Reg.PWR_HOLDUP_DEFER 0 0 30 0 (s.rf Reg.PWR_HOLDUP_DEFER 0 0 30 0 + 1) = q at hcount hnew hmild honly
  have hqc : q.calm := by rw [honly.1]; exact hc
  obtain ⟨hfin, hraised⟩ := finish_raise (src := 0x7D) (unit := 0) hqc (by decide) (by decide) hmild
  have hcheck : (if s.holdup 100 then s.commitBatch 0 [k] else s.holdupCheck 0 100) = q.raise 0x7D 0 := by
    rw [if_neg hshort, State.holdupCheck, if_neg hshort, hcount]
  have hstore : ∃ b, (q.raise 0x7D 0).cal = [b, d] := by
    obtain ⟨heq, -⟩ := hraised
    rw [heq, honly.1]
    exact ⟨c, hcal⟩
  refine ⟨q, _, ?_, hraised, honly, hnew⟩
  rw [exec_calBatchCommit_of_first hw hcal hwait hnv hcheck hstore hd, hfin]

/-- Beside another write of its die a batch waits. -/
theorem calBatchCommit_busy (hc : s.calm) (hw : s.writesOk = true) (hcal : s.cal = [c, d]) (hd : d.waiting = [])
    (hnv : s.nvWriting 0 = true) : exec (.calBatchCommit [k]) s = .next s := by
  have hgo : ¬(!s.writesOk) = true := by simp [hw]
  have hskip : (((s.cal[0]?).map (fun c => c.waiting.isEmpty)).getD true || s.nvWriting 0) = true := by simp [hnv]
  have hother : (((s.cal[1]?).map (fun c => c.waiting.isEmpty)).getD true || s.nvWriting 1) = true := by simp [hcal, hd]
  show execCalBatchCommit [k] s = _
  rw [execCalBatchCommit, if_neg hgo]
  simp only [List.range, List.range.loop, List.foldl_cons, List.foldl_nil, if_pos hskip, if_pos hother]
  exact finish_of_calm hc rfl

end


/-- Settles O53: ages by what each die adds (R441, R442), the calibration on command and what it found (R432, R433), the estimation (R443), the
statistics of a column (R437), and the batch of a calibration store in each of its outcomes (R440, R456). -/
theorem agesAndCalibration : Obligations.AgesAndCalibration := by
  unfold Obligations.AgesAndCalibration
  intro s h x r c d e site a scope seconds col k tr ge g cal hc u aged arr
  refine ⟨elapsed_ages hc, ageTick_ages, exec_ageRecordCommit_of_booted, fun hacc hlow hhigh => calibrate_starts hc hacc ⟨hlow, hhigh⟩,
    calibrationDone_column hc, fun hboot hstate => ⟨ageEstimation_waits hboot hstate, ageEstimation_idle hc hboot hstate⟩, calStatsFit_uses,
    fun hw hcal hwait hd hsize hnv => ⟨calBatchCommit_good hc hw hcal hwait hd hsize hnv, calBatchCommit_again hc hw hcal hwait hd hsize hnv,
      calBatchCommit_deferred hc hw hcal hwait hd hnv⟩, calBatchCommit_busy hc⟩

end Sys2Proof.Machine
end


section
/-! SUPPORT. The array unit's queue, and the audit columns that an evaluation's start draws (R123, R192; notes/assumptions/35.md). -/

namespace Sys2Proof.Machine

/-! ### The queue -/

theorem State.startArrays_of_empty {s : State} {site n : Nat} (h : (s.core site).arrQ = []) : s.startArrays site (n + 1) = s := by
  rw [State.startArrays]
  simp only [h]

/-- While the head of the queue waits, nothing starts. -/
theorem State.startArrays_of_headWaits {s : State} {site n : Nat} (h : (s.core site).headWaits = true) : s.startArrays site (n + 1) = s := by
  unfold Core.headWaits at h
  rw [State.startArrays]
  split at h
  case h_1 pc w rest hq => simp only [hq, h, if_true]
  case h_2 pc e rest hq =>
    simp only [hq]
    cases hfill : (s.core site).filling e with
    | nil =>
      have hsame : ((s.core site).evals.any fun b => b.tile == e.tile) = true := by simpa [hfill] using h
      simp only [hsame, if_true]
    | cons y l =>
      have hstalled : e.stalled = true := by simpa [hfill] using h
      simp only [hstalled, if_true]
  case h_3 => exact absurd h Bool.false_ne_true

/-- The core with one more instruction in the array unit's queue. -/
def Core.queue (c : Core) (q : ArrItem) : Core := { c with arrQ := c.arrQ ++ [q] }

/-- A head that waits waits on, whatever comes behind it. -/
theorem Core.headWaits_queue {c : Core} (q : ArrItem) (h : c.headWaits = true) : (c.queue q).headWaits = true := by
  unfold Core.headWaits at h ⊢
  cases hq : c.arrQ with
  | nil => simp [hq] at h
  | cons y l =>
    simp only [hq] at h
    simp only [Core.queue, hq, List.cons_append]
    cases y with
    | eval pc e => exact h
    | fill pc w => exact h
    | desc pc la d => exact h

/-! ### Audit columns -/

/-- An array that draws no audit column: it has one, or its audits are suspended (R123, R127). -/
def Arr.keepsDraw (r : Arr) : Prop := r.draw.isSome = true ∨ r.suspended = true

/-- A logical column, or the first of a pair, that no substitution serves (R123). -/
def Core.mayDraw (c : Core) (a : Nat) (pair : Bool) (j : Nat) : Prop :=
  j < 512 ∧ (pair = true → j % 2 = 0) ∧ ∀ u ∈ c.substs, u.arr = a → u.logical ≠ j ∧ (pair = true → u.logical ≠ j + 1)

/-- The columns that an audit may draw. -/
def Core.drawable (c : Core) (a : Nat) (pair : Bool) : List Nat :=
  (if pair then (List.range 256).map (fun j => 2 * j) else List.range 512).filter
    (fun j => !c.substs.any (fun u => u.arr == a && (u.logical == j || (pair && u.logical == j + 1))))

theorem Core.mem_drawable {c : Core} {a : Nat} {pair : Bool} {j : Nat} : j ∈ c.drawable a pair ↔ c.mayDraw a pair j := by
  have hall : j ∈ (if pair then (List.range 256).map (fun j => 2 * j) else List.range 512) ↔ j < 512 ∧ (pair = true → j % 2 = 0) := by
    cases pair with
    | false => simp
    | true =>
      simp only [if_true, List.mem_map, List.mem_range, true_imp_iff]
      exact ⟨fun ⟨k, hk, hj⟩ => by omega, fun ⟨hj, heven⟩ => ⟨j / 2, by omega, by omega⟩⟩
  have hfree : (!c.substs.any (fun u => u.arr == a && (u.logical == j || (pair && u.logical == j + 1)))) = true ↔
      ∀ u ∈ c.substs, u.arr = a → u.logical ≠ j ∧ (pair = true → u.logical ≠ j + 1) := by
    simp
  rw [Core.drawable, List.mem_filter, hall, hfree, and_assoc]
  rfl

/-- The array with the column of its next audit drawn. -/
def Arr.drawn (r : Arr) (j : Nat) : Arr := { r with draw := some ⟨j, false, false⟩ }

theorem State.drawAudit_of_keepsDraw {s : State} {site a : Nat} (pair : Bool) (h : ((s.core site).arr a).keepsDraw) :
    s.drawAudit site a pair = s := by
  have h' : (((s.core site).arr a).draw.isSome || ((s.core site).arr a).suspended) = true := by simpa [Arr.keepsDraw] using h
  simp only [State.drawAudit, h', if_true]

/-- An array that may draw draws a column where there is one. -/
theorem State.drawAudit_of_draws {s : State} {site a : Nat} {pair : Bool} (h : ¬((s.core site).arr a).keepsDraw) :
    ((¬∃ j, (s.core site).mayDraw a pair j) ∧ s.drawAudit site a pair = s) ∨
      ∃ j, (s.core site).mayDraw a pair j ∧
        s.drawAudit site a pair = (s.setCore site ((s.core site).setArr a (((s.core site).arr a).drawn j))).nextFree := by
  have h' : ¬(((s.core site).arr a).draw.isSome || ((s.core site).arr a).suspended) = true := by simpa [Arr.keepsDraw] using h
  have heq : s.drawAudit site a pair =
      match ((s.core site).drawable a pair)[(s.free 64).toNat % ((s.core site).drawable a pair).length]? with
      | some j => (s.setCore site ((s.core site).setArr a (((s.core site).arr a).drawn j))).nextFree
      | none => s := by
    simp only [State.drawAudit, if_neg h']
    rfl
  rw [heq]
  cases hpick : ((s.core site).drawable a pair)[(s.free 64).toNat % ((s.core site).drawable a pair).length]? with
  | some j => exact .inr ⟨j, Core.mem_drawable.mp (List.mem_of_getElem? hpick), rfl⟩
  | none =>
    refine .inl ⟨fun ⟨j, hj⟩ => ?_, rfl⟩
    have hpos := List.length_pos_of_mem (Core.mem_drawable.mpr hj)
    have hlow := Nat.mod_lt (s.free 64).toNat hpos
    rw [List.getElem?_eq_none_iff] at hpick
    omega

/-- `c'` is `c` after draws for the arrays of a list. -/
structure Drawn (c c' : Core) (pair : Bool) (l : List Nat) : Prop where
  frame : c' = { c with arrs := c'.arrs }
  kept : ∀ a, (c.arr a).keepsDraw → c'.arr a = c.arr a
  others : ∀ a, a ∉ l → c'.arr a = c.arr a
  draws : ∀ a ∈ l, ¬(c.arr a).keepsDraw → (∃ j, c.mayDraw a pair j) → ∃ j, c.mayDraw a pair j ∧ (c'.arr a).draw = some ⟨j, false, false⟩

theorem Drawn.refl (c : Core) (pair : Bool) : Drawn c c pair [] := ⟨rfl, fun _ _ => rfl, fun _ _ => rfl, fun _ h => absurd h List.not_mem_nil⟩

theorem Drawn.mayDraw_iff {c c' : Core} {pair : Bool} {l : List Nat} (h : Drawn c c' pair l) (a : Nat) (q : Bool) (j : Nat) :
    c'.mayDraw a q j ↔ c.mayDraw a q j := by
  rw [h.frame]
  rfl

/-- Draws for one array, then for others. -/
theorem Drawn.cons {c c1 c2 : Core} {pair : Bool} {a : Nat} {l : List Nat} (h : Drawn c c1 pair [a]) (k : Drawn c1 c2 pair l) :
    Drawn c c2 pair (a :: l) where
  frame := by
    have hk := k.frame
    rw [h.frame] at hk
    exact hk
  kept b hb := by
    have hsame := h.kept b hb
    rw [k.kept b (hsame ▸ hb), hsame]
  others b hb := by
    obtain ⟨hne, hl⟩ := not_or.mp (List.mem_cons.not.mp hb)
    rw [k.others b hl, h.others b (by simpa using hne)]
  draws b hb hdraws hmay := by
    by_cases hba : b = a
    · obtain ⟨j, hj, hdrawn⟩ := h.draws b (by simp [hba]) hdraws hmay
      exact ⟨j, hj, by rw [k.kept b (.inl (by rw [hdrawn]; rfl)), hdrawn]⟩
    · have hsame := h.others b (by simpa using hba)
      obtain ⟨j, hj, hdrawn⟩ := k.draws b ((List.mem_cons.mp hb).resolve_left hba) (hsame ▸ hdraws)
        (hmay.imp fun j hj => (h.mayDraw_iff b pair j).mpr hj)
      exact ⟨j, (h.mayDraw_iff b pair j).mp hj, hdrawn⟩

theorem drawn_arr (c : Core) {a j : Nat} {pair : Bool} (hdraws : ¬(c.arr a).keepsDraw) (hj : c.mayDraw a pair j) :
    Drawn c (c.setArr a ((c.arr a).drawn j)) pair [a] where
  frame := rfl
  kept b hb := Core.arr_setArr_of_ne _ _ (fun he => hdraws (he ▸ hb))
  others b hb := Core.arr_setArr_of_ne _ _ (by simpa using hb)
  draws b hb _ _ := by
    rw [List.mem_singleton.mp hb, Core.arr_setArr_self]
    exact ⟨j, hj, rfl⟩

/-- `t` is `s` after draws for arrays of a site. -/
structure DrawnAt (s t : State) (site : Nat) (pair : Bool) (l : List Nat) : Prop where
  state : t = { s with cores := t.cores, freeCtr := t.freeCtr }
  cores : ∀ k, k ≠ site → t.core k = s.core k
  core : Drawn (s.core site) (t.core site) pair l

theorem DrawnAt.cons {s t u : State} {site a : Nat} {pair : Bool} {l : List Nat} (h : DrawnAt s t site pair [a]) (k : DrawnAt t u site pair l) :
    DrawnAt s u site pair (a :: l) := by
  refine ⟨?_, fun i hi => (k.cores i hi).trans (h.cores i hi), h.core.cons k.core⟩
  have hk := k.state
  rw [h.state] at hk
  exact hk

theorem State.drawnAt_drawAudit (s : State) (site a : Nat) (pair : Bool) : DrawnAt s (s.drawAudit site a pair) site pair [a] := by
  have hsame : ((s.core site).arr a).keepsDraw ∨ (¬∃ j, (s.core site).mayDraw a pair j) → DrawnAt s s site pair [a] := fun hno =>
    ⟨rfl, fun _ _ => rfl, rfl, fun _ _ => rfl, fun _ _ => rfl, fun b hb hdraws hmay => by
      rw [List.mem_singleton.mp hb] at hdraws hmay
      exact absurd hno (not_or.mpr ⟨hdraws, not_not.mpr hmay⟩)⟩
  by_cases hkeeps : ((s.core site).arr a).keepsDraw
  · rw [State.drawAudit_of_keepsDraw pair hkeeps]
    exact hsame (.inl hkeeps)
  · rcases State.drawAudit_of_draws (pair := pair) hkeeps with ⟨hnone, heq⟩ | ⟨j, hj, heq⟩
    · rw [heq]
      exact hsame (.inr hnone)
    · rw [heq]
      refine ⟨rfl, fun k hk => State.core_setCore_of_ne _ _ hk, ?_⟩
      have hcore : ((s.setCore site ((s.core site).setArr a (((s.core site).arr a).drawn j))).nextFree).core site =
          (s.core site).setArr a (((s.core site).arr a).drawn j) := State.core_setCore_self _ _ _
      rw [hcore]
      exact drawn_arr _ hkeeps hj

/-- The draws that follow the start of an evaluation. -/
def State.drawAll (s : State) (site : Nat) (pair : Bool) (l : List EvalArr) : State := l.foldl (fun s a => s.drawAudit site a.phys pair) s

theorem State.drawnAt_drawAll (site : Nat) (pair : Bool) (l : List EvalArr) :
    ∀ s : State, DrawnAt s (s.drawAll site pair l) site pair (l.map (fun e => e.phys)) := by
  induction l with
  | nil => exact fun s => ⟨rfl, fun _ _ => rfl, .refl _ _⟩
  | cons e t ih =>
    intro s
    exact (s.drawnAt_drawAudit site e.phys pair).cons (ih (s.drawAudit site e.phys pair))

/-- Where every array has its column or is suspended, nothing is drawn. -/
theorem State.drawAll_of_keepsDraw {s : State} {site : Nat} {pair : Bool} {l : List EvalArr}
    (h : ∀ e ∈ l, ((s.core site).arr e.phys).keepsDraw) : s.drawAll site pair l = s := by
  induction l with
  | nil => rfl
  | cons e t ih =>
    obtain ⟨he, ht⟩ := List.forall_mem_cons.mp h
    rw [State.drawAll, List.foldl_cons, State.drawAudit_of_keepsDraw pair he]
    exact ih ht

/-! ### Gain counters -/

/-- An address other than those of the gain counters of arrays. -/
def noGain (site : Nat) (l : List EvalArr) (w : Nat) : Prop :=
  ∀ e ∈ l, w ≠ Reg.ARY_GAIN1_SUBPHASESa.addr site e.phys ∧ w ≠ Reg.ARY_GAIN2_SUBPHASESa.addr site e.phys ∧
    w ≠ Reg.ARY_GAIN4_SUBPHASESa.addr site e.phys

/-- The sub-phases of an evaluation count. -/
def State.countAll (s : State) (site reads : Nat) (l : List EvalArr) : State := l.foldl (fun s a => s.countGains site a reads) s

theorem State.countAll_spec (site reads : Nat) (l : List EvalArr) : ∀ s : State,
    s.countAll site reads l = { s with regs := (s.countAll site reads l).regs } ∧
      ∀ w, noGain site l w → (s.countAll site reads l).word w = s.word w := by
  induction l with
  | nil => exact fun s => ⟨rfl, fun _ _ => rfl⟩
  | cons e t ih =>
    intro s
    obtain ⟨heq, hwords⟩ := ih (s.countGains site e reads)
    refine ⟨eq_withRegs_trans (t := s.countGains site e reads) rfl heq, fun w hw => ?_⟩
    obtain ⟨⟨h1, h2, h4⟩, ht⟩ := List.forall_mem_cons.mp hw
    refine (hwords w ht).trans ?_
    unfold State.countGains State.wide
    rw [State.word_setReg_of_ne _ _ _ _ _ _ h4, State.word_setReg_of_ne _ _ _ _ _ _ h2, State.word_setReg_of_ne _ _ _ _ _ _ h1]

end Sys2Proof.Machine
end

section
/-! SUPPORT. `EVAL`: what it puts into the array unit's queue, and what its start does (R58, R192, R198, R199). -/

namespace Sys2Proof.Machine

theorem State.err_zero (s : State) (f : RegFam) (i j : Nat) : s.err f i j 0 = s := by simp [State.err, State.bump]

/-- Part of a range without poison. -/
theorem Core.spPoisoned_of_within {c : Core} {a n b m : Nat} (h : c.spPoisoned a n = false) (hlow : a ≤ b) (hhigh : b + m ≤ a + n) :
    c.spPoisoned b m = false := by
  simp only [Core.spPoisoned, poisonIn, List.any_eq_false, decide_eq_true_eq, not_and] at h ⊢
  intro w hw hlt
  have := h w hw
  omega

/-- The address of the first operand of an evaluation. -/
def State.evalOpa (s : State) (x : Issue) (f : EvalF) : Nat := stepAddr f.opa.toNat f.ops.toNat 16 ((s.core x.site).stepIdx x)

/-- What the selected arrays of an evaluation drive. -/
def State.evalArrs (s : State) (x : Issue) (f : EvalF) (sc : Nat) : List EvalArr :=
  (maskArrays f.amask).zipIdx.map (fun p => s.evalArr x.site f sc (s.evalOpa x f + 1088 * p.2) p.1)

/-- The evaluation that an `EVAL` issues. -/
def State.evalIssued (s : State) (x : Issue) (f : EvalF) (sc : Nat) : EvalIn :=
  ⟨f, sc, phases f.aw, f.tile.toNat + f.tstep.toNat * (s.core x.site).stepIdx x, false, s.reg Reg.FLK_TIME 0 0, s.evalArrs x f sc⟩

/-- No operand and no outlier list of the evaluation comes poisoned. -/
structure State.EvalClean (s : State) (x : Issue) (f : EvalF) (sc : Nat) : Prop where
  lists : ∀ e ∈ s.evalArrs x f sc,
    (s.core x.site).spPoisoned (64 * ((s.core x.site).descAt e.la).oaddr) (olistBytes ((s.core x.site).descAt e.la).ocount) = false
  operands : (s.core x.site).spPoisoned (s.evalOpa x f) (1088 * (s.evalArrs x f sc).length) = false

section
variable {s : State} {x : Issue} {f : EvalF} {sc : Nat}

theorem State.EvalClean.badLists (h : s.EvalClean x f sc) : (s.evalArrs x f sc).filter (fun e => e.badList) = [] := by
  refine List.filter_eq_nil_iff.mpr fun e he => ?_
  have hclean := h.lists e he
  obtain ⟨p, -, rfl⟩ := List.mem_map.mp he
  exact ne_true_of_eq_false hclean

theorem State.EvalClean.badOperands (h : s.EvalClean x f sc) :
    (maskArrays f.amask).zipIdx.filter (fun p => (s.core x.site).spPoisoned (s.evalOpa x f + 1088 * p.2) 1088) = [] := by
  refine List.filter_eq_nil_iff.mpr fun p hp => ?_
  have hlt : p.2 < (maskArrays f.amask).length := by
    have := List.snd_lt_add_of_mem_zipIdx hp
    omega
  have hlen : (s.evalArrs x f sc).length = (maskArrays f.amask).length := by simp [State.evalArrs]
  exact ne_true_of_eq_false (Core.spPoisoned_of_within h.operands (by omega) (by omega))

/-- The state in which the evaluation stands in the array unit's queue. -/
def State.evalQueued (s : State) (x : Issue) (f : EvalF) (sc : Nat) : State :=
  s.setCore x.site ((s.core x.site).queue (.eval (s.core x.site).pc (s.evalIssued x f sc)))

theorem State.evalQueued_core : (s.evalQueued x f sc).core x.site = (s.core x.site).queue (.eval (s.core x.site).pc (s.evalIssued x f sc)) :=
  State.core_setCore_self _ _ _

/-- While the queue is full, issue stalls. -/
theorem exec_eval_of_full (hc : s.calm) (h : (s.core x.site).arrQ.length = 8) : exec (.eval x f) s = .next s := by
  have hfull : 8 ≤ (s.core x.site).arrQ.length := h.ge
  show execEval x f s = _
  rw [execEval, State.issueArr, if_pos hfull]
  exact finish_of_calm hc rfl

/-- An `EVAL` without poison goes into the queue, and the queue starts what it can. -/
theorem exec_eval_of_clean (hr : s.runs x) (hsc : subPhases f.sc = some sc) (hclean : s.EvalClean x f sc)
    (hlen : (s.core x.site).arrQ.length < 8) :
    exec (.eval x f) s = finish (((s.evalQueued x f sc).startArrays x.site 8).updCore x.site Core.advance) := by
  have hroom : ¬8 ≤ (s.core x.site).arrQ.length := Nat.not_le.mpr hlen
  have hbad := hclean.badLists
  have hops := hclean.badOperands
  unfold State.evalArrs State.evalOpa at hbad
  unfold State.evalOpa at hops
  show execEval x f s = _
  rw [execEval, State.issueArr, if_neg hroom, State.issue_of_runs _ hr]
  simp only [hsc, hbad, hops, List.map_nil, List.filter_nil, List.append_nil, List.length_nil, Nat.add_zero, State.err_zero]
  rfl

/-- Behind a head that waits, the evaluation waits in the queue. -/
theorem exec_eval_waits (hr : s.runs x) (hc : s.calm) (hsc : subPhases f.sc = some sc) (hclean : s.EvalClean x f sc)
    (hwaits : (s.core x.site).headWaits = true) (hlen : (s.core x.site).arrQ.length < 8) :
    CoreNext (exec (.eval x f) s) s x.site ((s.core x.site).queue (.eval (s.core x.site).pc (s.evalIssued x f sc))) := by
  have hstays : ((s.evalQueued x f sc).core x.site).headWaits = true := by
    rw [State.evalQueued_core]
    exact Core.headWaits_queue _ hwaits
  rw [exec_eval_of_clean hr hsc hclean hlen, State.startArrays_of_headWaits hstays,
    finish_of_calm (t := (s.evalQueued x f sc).updCore x.site Core.advance) hc rfl]
  exact coreNext_of rfl

/-- The tile's entries that an evaluation with `ZT` clears. -/
def Core.clearsEntries (c : Core) (e : EvalIn) : Core :=
  if e.f.zt then
    c.setEntries e.tile (if isPair e.f.ww && e.f.half then 256 else 0) (List.replicate (if isPair e.f.ww then 256 else 512) (0, 0))
  else c

/-- The reads of an evaluation's operand (R108). -/
def EvalIn.readCount (e : EvalIn) : Nat := if e.f.dr then 2 else 1

/-- The core with the evaluation in flight (R198). -/
def Core.inFlight (c : Core) (e : EvalIn) : Core :=
  { c.clearsEntries e with
    evals := c.evals ++ [e]
    layers := SMap.upd c.layers 0 e.f.ltag.toNat (fun n => n + e.readCount * (e.arrays.map (fun a => a.gains.sum)).sum) }

theorem Core.clearsEntries_eq (c : Core) (e : EvalIn) :
    c.clearsEntries e = { c with tiles := (c.clearsEntries e).tiles, tilePoison := (c.clearsEntries e).tilePoison } := by
  unfold Core.clearsEntries
  split
  · rfl
  · rfl

theorem Core.clearsEntries_keeps (c : Core) (e : EvalIn) : (c.clearsEntries e).evals = c.evals ∧ (c.clearsEntries e).layers = c.layers := by
  rw [c.clearsEntries_eq e]
  exact ⟨rfl, rfl⟩

/-- An evaluation as it stands at its start (R114). -/
def State.evalTaken (v : State) (site : Nat) (e : EvalIn) : EvalIn :=
  { e with arrays := e.arrays.map (v.core site).evalStart, since := v.reg Reg.FLK_TIME 0 0 }

/-- What starts an evaluation: it is in flight, its sub-phases count, and audit columns are drawn. -/
def State.evalRuns (v : State) (site : Nat) (e : EvalIn) : State :=
  ((v.setCore site ((v.core site).inFlight e)).countAll site e.readCount e.arrays).drawAll site (isPair e.f.ww) e.arrays

theorem State.startEval_eq (v : State) (site : Nat) (e : EvalIn) : v.startEval site e = v.evalRuns site (v.evalTaken site e) := by
  obtain ⟨hevals, hlayers⟩ := (v.core site).clearsEntries_keeps (v.evalTaken site e)
  unfold State.evalRuns
  rw [Core.inFlight, ← hevals, ← hlayers]
  rfl

theorem Core.inFlight_arr (c : Core) (e : EvalIn) (a : Nat) : (c.inFlight e).arr a = c.arr a := by
  unfold Core.inFlight
  rw [c.clearsEntries_eq e]
  rfl

theorem Core.inFlight_arrQ (c : Core) (e : EvalIn) : (c.inFlight e).arrQ = c.arrQ := by
  unfold Core.inFlight
  rw [c.clearsEntries_eq e]

theorem Core.inFlight_mayDraw (c : Core) (e : EvalIn) (a : Nat) (pair : Bool) (j : Nat) : (c.inFlight e).mayDraw a pair j ↔ c.mayDraw a pair j := by
  unfold Core.inFlight
  rw [c.clearsEntries_eq e]
  rfl

/-- What the start of an evaluation does to its core and to the registers. -/
theorem State.evalRuns_spec (v : State) (site : Nat) (e : EvalIn) :
    v.evalRuns site e = { v with cores := (v.evalRuns site e).cores, regs := (v.evalRuns site e).regs, freeCtr := (v.evalRuns site e).freeCtr } ∧
      (∀ k, k ≠ site → (v.evalRuns site e).core k = v.core k) ∧
      Drawn ((v.core site).inFlight e) ((v.evalRuns site e).core site) (isPair e.f.ww) (e.arrays.map (fun a => a.phys)) ∧
      ∀ w, noGain site e.arrays w → (v.evalRuns site e).word w = v.word w := by
  generalize hu : v.setCore site ((v.core site).inFlight e) = u
  obtain ⟨hcount, hwords⟩ := State.countAll_spec site e.readCount e.arrays u
  have hdraws := State.drawnAt_drawAll site (isPair e.f.ww) e.arrays (u.countAll site e.readCount e.arrays)
  have hruns : v.evalRuns site e = (u.countAll site e.readCount e.arrays).drawAll site (isPair e.f.ww) e.arrays := by rw [← hu]; rfl
  rw [hruns]
  generalize u.countAll site e.readCount e.arrays = w at hcount hwords hdraws
  have hcore : ∀ k, w.core k = u.core k := fun k => by rw [hcount]; rfl
  have hself : u.core site = (v.core site).inFlight e := by rw [← hu, State.core_setCore_self]
  have hstate := hdraws.state
  generalize w.drawAll site (isPair e.f.ww) e.arrays = z at hdraws hstate
  refine ⟨?_, fun k hk => ?_, ?_, fun a ha => ?_⟩
  · have hregs : z.regs = w.regs := by rw [hstate]
    rw [hregs]
    rw [hcount, ← hu] at hstate
    exact hstate
  · rw [hdraws.cores k hk, hcore, ← hu, State.core_setCore_of_ne _ _ hk]
  · rw [← hself, ← hcore]
    exact hdraws.core
  · have hword := hwords a ha
    rw [← hu] at hword
    rw [hstate]
    exact hword

/-- Where no column is drawn, the core holds the evaluation in flight and nothing more, and no free value is taken. -/
theorem State.evalRuns_of_keepsDraw {v : State} {site : Nat} {e : EvalIn} (h : ∀ a ∈ e.arrays, ((v.core site).arr a.phys).keepsDraw) :
    (v.evalRuns site e).core site = (v.core site).inFlight e ∧ (v.evalRuns site e).freeCtr = v.freeCtr := by
  generalize hu : v.setCore site ((v.core site).inFlight e) = u
  obtain ⟨hcount, -⟩ := State.countAll_spec site e.readCount e.arrays u
  have hcore : (u.countAll site e.readCount e.arrays).core site = (v.core site).inFlight e := by
    rw [hcount, ← hu]
    exact State.core_setCore_self _ _ _
  have hkeep : ∀ a ∈ e.arrays, (((u.countAll site e.readCount e.arrays).core site).arr a.phys).keepsDraw := fun a ha => by
    rw [hcore, Core.inFlight_arr]
    exact h a ha
  have hruns : v.evalRuns site e = u.countAll site e.readCount e.arrays := by
    rw [State.evalRuns, hu, State.drawAll_of_keepsDraw hkeep]
  rw [hruns]
  refine ⟨hcore, ?_⟩
  rw [hcount, ← hu]
  rfl

/-- The state in which the evaluation has left the queue that it alone stood in. -/
def State.evalPopped (s : State) (x : Issue) (f : EvalF) (sc : Nat) : State :=
  (s.evalQueued x f sc).setCore x.site { (s.evalQueued x f sc).core x.site with arrQ := [] }

theorem State.evalPopped_core (hq : (s.core x.site).arrQ = []) : (s.evalPopped x f sc).core x.site = s.core x.site := by
  have hsame : ({ s.core x.site with arrQ := [] } : Core) = s.core x.site := by rw [← hq]
  rw [State.evalPopped, State.core_setCore_self, State.evalQueued_core]
  exact hsame

theorem State.evalPopped_core_of_ne {k : Nat} (hk : k ≠ x.site) : (s.evalPopped x f sc).core k = s.core k := by
  rw [State.evalPopped, State.core_setCore_of_ne _ _ hk, State.evalQueued, State.core_setCore_of_ne _ _ hk]

/-- An evaluation starts as it was issued. -/
theorem State.evalTaken_evalPopped (hq : (s.core x.site).arrQ = []) :
    (s.evalPopped x f sc).evalTaken x.site (s.evalIssued x f sc) = s.evalIssued x f sc := by
  have hstart : ∀ a ∈ s.evalArrs x f sc, (s.core x.site).evalStart a = a := fun a ha => by
    obtain ⟨p, -, rfl⟩ := List.mem_map.mp ha
    rfl
  have hsame : (s.evalArrs x f sc).map (s.core x.site).evalStart = s.evalArrs x f sc := (List.map_congr_left hstart).trans (List.map_id _)
  unfold State.evalTaken
  rw [State.evalPopped_core hq, State.evalIssued, hsame]
  rfl

/-- Into an empty queue, with its arrays and its tile free, the evaluation starts at once. -/
theorem State.startArrays_evalQueued (hq : (s.core x.site).arrQ = []) (hfill : ∀ e ∈ s.evalArrs x f sc, ((s.core x.site).arr e.phys).fill = none)
    (htile : ∀ e ∈ (s.core x.site).evals, e.tile ≠ (s.evalIssued x f sc).tile) :
    (s.evalQueued x f sc).startArrays x.site 8 = (s.evalPopped x f sc).evalRuns x.site (s.evalIssued x f sc) := by
  have hqueue : ((s.evalQueued x f sc).core x.site).arrQ = [.eval (s.core x.site).pc (s.evalIssued x f sc)] := by
    rw [State.evalQueued_core, Core.queue, hq, List.nil_append]
  have hfilling : ((s.evalQueued x f sc).core x.site).filling (s.evalIssued x f sc) = [] := by
    rw [State.evalQueued_core]
    refine List.filter_eq_nil_iff.mpr fun e he => ?_
    have hnone : (((s.core x.site).queue (.eval (s.core x.site).pc (s.evalIssued x f sc))).arr e.phys).fill = none := hfill e he
    simp [hnone]
  have hfree : (((s.evalQueued x f sc).core x.site).evals.any fun b => b.tile == (s.evalIssued x f sc).tile) = false := by
    rw [State.evalQueued_core]
    exact List.any_eq_false.mpr fun e he => by simpa using htile e he
  have hstart : (s.evalQueued x f sc).startArrays x.site 8 = ((s.evalPopped x f sc).startEval x.site (s.evalIssued x f sc)).startArrays x.site 7 := by
    rw [State.startArrays]
    simp only [hqueue, hfilling, hfree, Bool.false_eq_true, if_false]
    rfl
  rw [hstart, State.startEval_eq, State.evalTaken_evalPopped hq]
  obtain ⟨-, -, hdrawn, -⟩ := (s.evalPopped x f sc).evalRuns_spec x.site (s.evalIssued x f sc)
  refine State.startArrays_of_empty ?_
  rw [hdrawn.frame]
  exact (Core.inFlight_arrQ _ _).trans ((congrArg Core.arrQ (State.evalPopped_core hq)).trans hq)

/-- The evaluation is in flight behind those before it (R198). -/
theorem exec_eval_starts (hr : s.runs x) (hc : s.calm) (hsc : subPhases f.sc = some sc) (hclean : s.EvalClean x f sc)
    (hq : (s.core x.site).arrQ = []) (hfill : ∀ e ∈ s.evalArrs x f sc, ((s.core x.site).arr e.phys).fill = none)
    (htile : ∀ e ∈ (s.core x.site).evals, e.tile ≠ (s.evalIssued x f sc).tile) :
    ∃ t : State, exec (.eval x f) s = .next t ∧ t = { s with cores := t.cores, regs := t.regs, freeCtr := t.freeCtr } ∧
      (∀ k, k ≠ x.site → t.core k = s.core k) ∧ (t.core x.site).evals = (s.core x.site).evals ++ [s.evalIssued x f sc] ∧
      (∀ e ∈ s.evalArrs x f sc,
        (((s.core x.site).arr e.phys).keepsDraw → (t.core x.site).arr e.phys = (s.core x.site).arr e.phys) ∧
        (¬((s.core x.site).arr e.phys).keepsDraw → (∃ j, (s.core x.site).mayDraw e.phys (isPair f.ww) j) →
          ∃ j, (s.core x.site).mayDraw e.phys (isPair f.ww) j ∧ ((t.core x.site).arr e.phys).draw = some ⟨j, false, false⟩)) ∧
      ((∀ e ∈ s.evalArrs x f sc, ((s.core x.site).arr e.phys).keepsDraw) → t.freeCtr = s.freeCtr ∧
        t.core x.site = ((s.core x.site).inFlight (s.evalIssued x f sc)).advance) ∧
      ∀ w, noGain x.site (s.evalArrs x f sc) w → t.word w = s.word w := by
  have hexec := exec_eval_of_clean hr hsc hclean (by rw [hq]; decide)
  rw [State.startArrays_evalQueued hq hfill htile] at hexec
  have hcore := State.evalPopped_core (f := f) (sc := sc) hq
  obtain ⟨hstate, hothers, hdrawn, hwords⟩ := (s.evalPopped x f sc).evalRuns_spec x.site (s.evalIssued x f sc)
  have hkeeps := State.evalRuns_of_keepsDraw (v := s.evalPopped x f sc) (site := x.site) (e := s.evalIssued x f sc)
  rw [hcore] at hdrawn hkeeps
  generalize (s.evalPopped x f sc).evalRuns x.site (s.evalIssued x f sc) = t at hexec hstate hothers hdrawn hwords hkeeps
  have hfcl : (t.updCore x.site Core.advance).fcl = s.fcl := by rw [hstate]; rfl
  rw [finish_of_calm hc hfcl] at hexec
  refine ⟨_, hexec, ?_, fun k hk => ?_, ?_, fun e he => ?_, fun hstays => ?_, fun w hw => hwords w hw⟩
  · rw [hstate]
    rfl
  · rw [State.core_updCore_of_ne _ _ hk, hothers k hk, State.evalPopped_core_of_ne hk]
  · rw [State.core_updCore_self, hdrawn.frame]
    rfl
  · have harr : ((t.updCore x.site Core.advance).core x.site).arr e.phys = (t.core x.site).arr e.phys := by
      rw [State.core_updCore_self]
      rfl
    rw [harr, ← Core.inFlight_arr _ (s.evalIssued x f sc)]
    refine ⟨hdrawn.kept e.phys, fun hdraws hmay => ?_⟩
    simp only [← Core.inFlight_mayDraw (s.core x.site) (s.evalIssued x f sc)] at hmay ⊢
    exact hdrawn.draws e.phys (List.mem_map_of_mem he) hdraws hmay
  · obtain ⟨hrun, hfree⟩ := hkeeps hstays
    exact ⟨hfree, by rw [State.core_updCore_self, hrun]⟩

end

end Sys2Proof.Machine
end

section
/-! SUPPORT. `SLUICE_CORRECTION`: the delivery into the tile, and what follows while audits are off (R106, R107, R122, R148, R195, R198). -/

namespace Sys2Proof.Machine

/-! ### The delivery -/

/-- The sums that an evaluation delivers into its tile, with the overflows that they count (R148, R161). -/
def State.sluiceSums (s : State) (site : Nat) (codes : List Byte) (e : EvalIn) : List (F32 × F32) × Nat :=
  ((e.arrays.zipIdx.map (fun y =>
      readsOf ((s.core site).gDrift y.1.phys) (BitVec.ofNat 32 (s.reg Reg.SLU_INV_Ga site y.1.phys)) e y.1 codes.toArray y.2)).map
    (fun q => arrayOutputs q (if isPair e.f.ww then 256 else 512))).foldl
    (fun a ys => ((accumulateAll a.1 ys).1, a.2 + (accumulateAll a.1 ys).2))
    ((s.core site).entries e.tile (if isPair e.f.ww && e.f.half then 256 else 0) (if isPair e.f.ww then 256 else 512), 0)

/-- The core after a delivery. -/
def Core.delivered (c : Core) (e : EvalIn) (rest : List EvalIn) (ps : List (F32 × F32)) : Core :=
  { c with evals := rest }.setEntries e.tile (if isPair e.f.ww && e.f.half then 256 else 0) ps

/-- The state after a delivery, before its overflows count. -/
def State.sluiceStored (s : State) (site : Nat) (codes : List Byte) (e : EvalIn) (rest : List EvalIn) : State :=
  (s.setCore site { s.core site with evals := rest }).setCore site ((s.core site).delivered e rest (s.sluiceSums site codes e).1)

section
variable (s : State) (site : Nat) (codes : List Byte) (e : EvalIn) (rest : List EvalIn)

theorem State.sluiceStored_core : (s.sluiceStored site codes e rest).core site = (s.core site).delivered e rest (s.sluiceSums site codes e).1 :=
  State.core_setCore_self _ _ _

theorem State.sluiceStored_core_of_ne {k : Nat} (hk : k ≠ site) : (s.sluiceStored site codes e rest).core k = s.core k := by
  rw [State.sluiceStored, State.core_setCore_of_ne _ _ hk, State.core_setCore_of_ne _ _ hk]

/-- The codes of one array of an evaluation. -/
def EvalIn.codesOf (e : EvalIn) (codes : List Byte) (n : Nat) : List Byte :=
  (codes.drop (n * ((if e.f.dr then 2 else 1) * (e.p * e.s) * 528))).take ((if e.f.dr then 2 else 1) * (e.p * e.s) * 528)

/-- The evaluation counts at an array, and its audit is made where it is due. -/
def State.sluiceAudit (s0 : State) (site : Nat) (codes : List Byte) (e : EvalIn) (delta : Int) (t : State) (y : EvalArr × Nat) : State :=
  t.auditDue site e
    (readsOf ((s0.core site).gDrift y.1.phys) (BitVec.ofNat 32 (s0.reg Reg.SLU_INV_Ga site y.1.phys)) e y.1 codes.toArray y.2)
    (e.codesOf codes y.2) delta y.1.phys

/-- The codes of the oldest evaluation arrive. -/
theorem exec_sluiceCorrection_of_evals {s : State} {site : Nat} {e : EvalIn} {rest : List EvalIn} (codes : List Byte) (delta : Int)
    (h : (s.core site).evals = e :: rest) :
    exec (.sluiceCorrection site codes delta) s = finish (((e.arrays.zipIdx.foldl (s.sluiceAudit site codes e delta)
      ((s.sluiceStored site codes e rest).accOvf (s.sluiceSums site codes e).2)).startArrays site 8).settleBarrier site) := by
  have hstored : (s.setCore site { s.core site with evals := rest }).deliverEval site e ((e.arrays.zipIdx.map (fun y =>
      readsOf ((s.core site).gDrift y.1.phys) (BitVec.ofNat 32 (s.reg Reg.SLU_INV_Ga site y.1.phys)) e y.1 codes.toArray y.2)).map
        (fun q => arrayOutputs q (if isPair e.f.ww then 256 else 512))) =
      (s.sluiceStored site codes e rest).accOvf (s.sluiceSums site codes e).2 := by
    unfold State.deliverEval
    rw [State.core_setCore_self]
    rfl
  show execSluiceCorrection site codes delta s = _
  unfold execSluiceCorrection
  simp only [h, ← hstored, List.map_map, List.foldl_map]
  rfl

end

/-! ### The barrier -/

/-- A core that holds at its barrier arrives once its evaluations, its array unit's queue and its packets are through (R195). -/
theorem State.settleBarrier_spec (s : State) (site : Nat) :
    s.settleBarrier site = { s with cores := (s.settleBarrier site).cores } ∧ (∀ k, k ≠ site → (s.settleBarrier site).core k = s.core k) ∧
      (s.settleBarrier site).core site = { s.core site with
        run := if (s.core site).run = .barrier ∧ (s.core site).evals = [] ∧ (s.core site).arrQ = [] ∧ s.localFlits site = false
          then .arrived else (s.core site).run } := by
  have hiff : ((s.core site).run = .barrier ∧ (s.core site).evals.isEmpty ∧ (s.core site).arrQ.isEmpty ∧ !s.localFlits site) ↔
      ((s.core site).run = .barrier ∧ (s.core site).evals = [] ∧ (s.core site).arrQ = [] ∧ s.localFlits site = false) := by
    simp
  unfold State.settleBarrier
  simp only [hiff]
  split
  · exact ⟨rfl, fun k hk => State.core_setCore_of_ne _ _ hk, State.core_setCore_self _ _ _⟩
  · exact ⟨rfl, fun _ _ => rfl, rfl⟩

/-! ### Evaluations counted -/

theorem SMap.get_eq_lookup {α : Type} (m : SMap α) (d : α) (k : Nat) : SMap.get m d k = (m.lookup k).getD d := by
  induction m with
  | nil => rfl
  | cons c t ih =>
    obtain ⟨i, v⟩ := c
    by_cases h : i = k
    · simp [SMap.get, h]
    · have hne : (k == i) = false := by simpa using Ne.symm h
      simp [SMap.get, List.lookup_cons, h, hne, ih]

/-- A register reads the same where its stored word is the same. -/
theorem State.reg_of_word {s t : State} {f : RegFam} {i j : Nat} (h : t.word (f.addr i j) = s.word (f.addr i j)) : t.reg f i j = s.reg f i j := by
  unfold State.word at h
  rw [State.reg, State.reg, SMap.get_eq_lookup, SMap.get_eq_lookup, h]

section
variable {s t : State} (hslots : ∀ n, n < 2 → t.word (Reg.WGT_GEN_SLOTn.addr 0 n) = s.word (Reg.WGT_GEN_SLOTn.addr 0 n))
include hslots

theorem State.heldSlot_of_words : t.heldSlot = s.heldSlot := by
  simp only [State.heldSlot, List.range, List.range.loop, List.find?_cons, List.find?_nil, State.rf, State.reg_of_word (hslots 0 (by decide)),
    State.reg_of_word (hslots 1 (by decide))]

/-- Whether the active schedule streams a tile rests on the schedule and on the states of the two slots alone. -/
theorem State.streamed_of_words (hsched : t.sched = s.sched) (w : Holds) : t.streamed w = s.streamed w := by
  unfold State.streamed
  rw [State.heldSlot_of_words hslots, hsched]

/-- The tile that an array holds rests on the schedule, the packages and the states of the two slots. -/
theorem State.tileOf_of_words (hsched : t.sched = s.sched) (hgens : t.gens = s.gens) (w : Holds) : t.tileOf w = s.tileOf w := by
  have himage : ∀ n a, t.imageTile n a = s.imageTile n a := fun n a => by
    unfold State.imageTile State.pkg
    rw [hsched, hgens]
  unfold State.tileOf State.tileNo State.pkg
  rw [State.heldSlot_of_words hslots, hgens]
  cases w with
  | none => rfl
  | gen n k => rfl
  | image a => simp only [himage]

end

/-- The array counts the evaluation, unless it is out of service (R122, R346). -/
def State.countEval (s : State) (site a : Nat) : State :=
  if s.streamed ((s.core site).arr a).holds then s
  else s.setCore site ((s.core site).setArr a { (s.core site).arr a with evals := (((s.core site).arr a).evals + 1) % 2 ^ 64 })

/-- With audits switched off an evaluation only counts. -/
theorem State.auditDue_of_off {s : State} {site : Nat} (e : EvalIn) (rs : List ReadIn) (codes : List Byte) (delta : Int) (a : Nat)
    (h : bitsOf (s.core site).auditCtl 0 0 = 0) : s.auditDue site e rs codes delta a = s.countEval site a := by
  have hoff : (s.streamed ((s.core site).arr a).holds || decide (bitsOf (s.core site).auditCtl 0 0 = 0)) = true := by simp [h]
  exact if_pos hoff

/-- The evaluation counts at each array of a list. -/
def State.countEvals (s : State) (site : Nat) (l : List Nat) : State := l.foldl (fun t a => t.countEval site a) s

/-- `t` is `s` but for the arrays of a core. -/
structure OnlyArrs (s t : State) (site : Nat) : Prop where
  state : t = { s with cores := t.cores }
  cores : ∀ k, k ≠ site → t.core k = s.core k
  core : t.core site = { s.core site with arrs := (t.core site).arrs }

theorem OnlyArrs.refl (s : State) (site : Nat) : OnlyArrs s s site := ⟨rfl, fun _ _ => rfl, rfl⟩

theorem OnlyArrs.trans {s t u : State} {site : Nat} (h : OnlyArrs s t site) (k : OnlyArrs t u site) : OnlyArrs s u site := by
  refine ⟨?_, fun i hi => (k.cores i hi).trans (h.cores i hi), ?_⟩
  · have hk := k.state
    rw [h.state] at hk
    exact hk
  · have hk := k.core
    rw [h.core] at hk
    exact hk

theorem onlyArrs_setArr (s : State) (site a : Nat) (r : Arr) : OnlyArrs s (s.setCore site ((s.core site).setArr a r)) site :=
  ⟨rfl, fun _ hk => State.core_setCore_of_ne _ _ hk, by rw [State.core_setCore_self]; rfl⟩

/-- Whether the active schedule streams a tile rests on the schedule and on registers alone. -/
theorem OnlyArrs.streamed {s t : State} {site : Nat} (h : OnlyArrs s t site) (w : Holds) : t.streamed w = s.streamed w := by
  rw [h.state]
  rfl

/-- The count of an array after an evaluation. -/
def State.evalsAfter (s : State) (r : Arr) : Nat := if s.streamed r.holds then r.evals else (r.evals + 1) % 2 ^ 64

theorem State.countEval_spec (s : State) (site a : Nat) :
    OnlyArrs s (s.countEval site a) site ∧ (((s.countEval site a).core site).arr a).evals = s.evalsAfter ((s.core site).arr a) ∧
      ∀ b, b ≠ a → ((s.countEval site a).core site).arr b = (s.core site).arr b := by
  unfold State.countEval State.evalsAfter
  split
  · exact ⟨.refl _ _, rfl, fun _ _ => rfl⟩
  · refine ⟨onlyArrs_setArr _ _ _ _, ?_, fun b hb => ?_⟩
    · rw [State.core_setCore_self, Core.arr_setArr_self]
    · rw [State.core_setCore_self, Core.arr_setArr_of_ne _ _ hb]

/-- Each array of a list without repetitions counts once. -/
theorem State.countEvals_spec (site : Nat) (l : List Nat) : ∀ s : State, l.Nodup → OnlyArrs s (s.countEvals site l) site ∧
    (∀ a ∈ l, (((s.countEvals site l).core site).arr a).evals = s.evalsAfter ((s.core site).arr a)) ∧
      ∀ b, b ∉ l → ((s.countEvals site l).core site).arr b = (s.core site).arr b := by
  induction l with
  | nil => exact fun s _ => ⟨.refl _ _, fun _ h => absurd h List.not_mem_nil, fun _ _ => rfl⟩
  | cons a t ih =>
    intro s hnodup
    obtain ⟨ha, ht⟩ := List.nodup_cons.mp hnodup
    obtain ⟨hfirst, hcount, hothers⟩ := s.countEval_spec site a
    obtain ⟨hrest, hcounts, hstay⟩ := ih (s.countEval site a) ht
    refine ⟨hfirst.trans hrest, fun b hb => ?_, fun b hb => ?_⟩
    · rcases List.mem_cons.mp hb with rfl | hb
      · exact (congrArg Arr.evals (hstay b ha)).trans hcount
      · refine (hcounts b hb).trans ?_
        rw [hothers b (fun he => ha (he ▸ hb)), State.evalsAfter, hfirst.streamed]
        rfl
    · obtain ⟨hba, hbt⟩ := not_or.mp (List.mem_cons.not.mp hb)
      exact (hstay b hbt).trans (hothers b hba)

/-- With audits switched off, the arrays of the evaluation count, and that is all. -/
theorem State.foldl_sluiceAudit_of_off (s0 : State) (site : Nat) (codes : List Byte) (e : EvalIn) (delta : Int) (l : List (EvalArr × Nat)) :
    ∀ s : State, bitsOf (s.core site).auditCtl 0 0 = 0 →
      l.foldl (s0.sluiceAudit site codes e delta) s = s.countEvals site (l.map (fun y => y.1.phys)) := by
  induction l with
  | nil => exact fun _ _ => rfl
  | cons y t ih =>
    intro s hoff
    have hnext : bitsOf ((s.countEval site y.1.phys).core site).auditCtl 0 0 = 0 := by
      rw [(s.countEval_spec site y.1.phys).1.core]
      exact hoff
    rw [List.foldl_cons, State.sluiceAudit, State.auditDue_of_off _ _ _ _ _ hoff, ih _ hnext]
    rfl

/-! ### With audits off -/

section
variable {s : State} {site : Nat} {codes : List Byte} {delta : Int} {e : EvalIn} {rest : List EvalIn}

/-- The overflows of a delivery with room in their counter. -/
theorem State.sluiceStored_accOvf (hroom : s.room Reg.CNT_ACC_OVERFLOW 0 0 (s.sluiceSums site codes e).2) :
    ∃ g, (s.sluiceStored site codes e rest).accOvf (s.sluiceSums site codes e).2 = { s.sluiceStored site codes e rest with regs := g } ∧
      ((s.sluiceStored site codes e rest).accOvf (s.sluiceSums site codes e).2).reg Reg.CNT_ACC_OVERFLOW 0 0 =
        s.reg Reg.CNT_ACC_OVERFLOW 0 0 + (s.sluiceSums site codes e).2 ∧
      ∀ w, w ≠ Reg.CNT_ACC_OVERFLOW.addr 0 0 →
        ((s.sluiceStored site codes e rest).accOvf (s.sluiceSums site codes e).2).word w = s.word w := by
  generalize (s.sluiceSums site codes e).2 = n at hroom
  have hroom' : (s.sluiceStored site codes e rest).room Reg.CNT_ACC_OVERFLOW 0 0 n := hroom
  rw [State.accOvf, State.err_of_room hroom']
  split
  case isTrue h =>
    subst h
    exact ⟨_, rfl, rfl, fun _ _ => rfl⟩
  case isFalse h =>
    obtain ⟨g, hg⟩ := (s.sluiceStored site codes e rest).setRf_eq_withRegs Reg.CNT_ACC_OVERFLOW 0 0 30 0
      ((s.sluiceStored site codes e rest).rf Reg.CNT_ACC_OVERFLOW 0 0 30 0 + n)
    exact ⟨g, hg, State.reg_bumped hroom', fun w hw => State.word_setReg_of_ne _ _ _ _ _ _ hw⟩

/-- The delivery of the oldest evaluation while audits are off (R106, R107, R148, R198). -/
theorem sluiceCorrection_of_off (hc : s.calm) (hoff : bitsOf (s.core site).auditCtl 0 0 = 0) (hevals : (s.core site).evals = e :: rest)
    (hq : (s.core site).arrQ = []) (hnodup : (e.arrays.map (fun a => a.phys)).Nodup)
    (hroom : s.room Reg.CNT_ACC_OVERFLOW 0 0 (s.sluiceSums site codes e).2) :
    ∃ t : State, exec (.sluiceCorrection site codes delta) s = .next t ∧ t = { s with cores := t.cores, regs := t.regs } ∧
      (∀ k, k ≠ site → t.core k = s.core k) ∧
      (∀ k n, (t.core site).entries k 0 n = ((s.core site).delivered e rest (s.sluiceSums site codes e).1).entries k 0 n) ∧
      (t.core site).evals = rest ∧ (t.core site).spm = (s.core site).spm ∧ (t.core site).v = (s.core site).v ∧
      (t.core site).g = (s.core site).g ∧
      ((t.core site).run = if (s.core site).run = .barrier ∧ rest = [] ∧ s.localFlits site = false then .arrived else (s.core site).run) ∧
      (∀ a ∈ e.arrays, ((t.core site).arr a.phys).evals = s.evalsAfter ((s.core site).arr a.phys)) ∧
      t.reg Reg.CNT_ACC_OVERFLOW 0 0 = s.reg Reg.CNT_ACC_OVERFLOW 0 0 + (s.sluiceSums site codes e).2 ∧
      ∀ w, w ≠ Reg.CNT_ACC_OVERFLOW.addr 0 0 → t.word w = s.word w := by
  obtain ⟨g, hu, hreg, hwords⟩ := State.sluiceStored_accOvf (rest := rest) hroom
  have hexec := exec_sluiceCorrection_of_evals codes delta hevals
  generalize (s.sluiceStored site codes e rest).accOvf (s.sluiceSums site codes e).2 = u at hu hreg hwords hexec
  have hcores : ∀ k, u.core k = (s.sluiceStored site codes e rest).core k := fun k => by rw [hu]; rfl
  have hcore : u.core site = (s.core site).delivered e rest (s.sluiceSums site codes e).1 := (hcores site).trans (s.sluiceStored_core site codes e rest)
  have hstate : u = { s with cores := u.cores, regs := u.regs } := by rw [hu]; rfl
  have hphys : e.arrays.zipIdx.map (fun y => y.1.phys) = e.arrays.map (fun a => a.phys) := by
    conv_rhs => rw [← List.zipIdx_map_fst 0 e.arrays, List.map_map]
    rfl
  rw [State.foldl_sluiceAudit_of_off s site codes e delta _ u (by rw [hcore]; exact hoff), hphys] at hexec
  obtain ⟨hcounted, hcounts, -⟩ := State.countEvals_spec site (e.arrays.map (fun a => a.phys)) u hnodup
  generalize u.countEvals site (e.arrays.map (fun a => a.phys)) = w at hexec hcounted hcounts
  have hwq : (w.core site).arrQ = [] := by rw [hcounted.core, hcore]; exact hq
  have hwrest : (w.core site).evals = rest := by rw [hcounted.core, hcore]; rfl
  have hwrun : (w.core site).run = (s.core site).run := by rw [hcounted.core, hcore]; rfl
  have hflits : w.localFlits site = s.localFlits site := by rw [hcounted.state, hstate]; rfl
  rw [State.startArrays_of_empty hwq] at hexec
  obtain ⟨hsettled, hothers, hat⟩ := w.settleBarrier_spec site
  rw [hwq, hwrest, hwrun, hflits] at hat
  generalize w.settleBarrier site = t at hexec hsettled hothers hat
  have hfcl : t.fcl = s.fcl := by rw [hsettled, hcounted.state, hstate]
  have hregs : t.regs = u.regs := by rw [hsettled, hcounted.state]
  rw [finish_of_calm hc hfcl] at hexec
  refine ⟨t, hexec, ?_, fun k hk => ?_, fun k n => ?_, ?_, ?_, ?_, ?_, ?_, fun a ha => ?_, ?_, fun v hv => ?_⟩
  · rw [hregs]
    rw [hcounted.state, hstate] at hsettled
    exact hsettled
  · rw [hothers k hk, hcounted.cores k hk, hcores, State.sluiceStored_core_of_ne _ _ _ _ _ hk]
  · rw [hat, hcounted.core, hcore]
    rfl
  · rw [hat]
    exact hwrest
  · rw [hat, hcounted.core, hcore]
    rfl
  · rw [hat, hcounted.core, hcore]
    rfl
  · rw [hat, hcounted.core, hcore]
    rfl
  · rw [hat]
    simp
  · have harr : (t.core site).arr a.phys = (w.core site).arr a.phys := by rw [hat]; rfl
    have hstreamed := State.streamed_of_words (s := s) (t := u) (fun n hn => hwords _ (by
      simp only [RegFam.addr, Reg.WGT_GEN_SLOTn, Reg.CNT_ACC_OVERFLOW]; omega)) (by rw [hstate])
    rw [harr, hcounts a.phys (List.mem_map_of_mem ha), State.evalsAfter, hstreamed, hcore]
    rfl
  · exact (State.reg_congr hregs _ _ _).trans hreg
  · exact (congrArg (fun m => List.lookup v m) hregs).trans (hwords v hv)

end

end Sys2Proof.Machine
end

section
/-! SUPPORT. The audit of one array that has no column pairs (R122, R125 to R127, R412). -/

namespace Sys2Proof.Machine

/-! ### An error counter that may saturate -/

/-- `t` is `s` after the error counter at an address may have counted: its saturation reaches the collector alone (R412). -/
structure Counted (s t : State) (w : Nat) : Prop where
  state : t = { s with regs := t.regs, fcl := t.fcl, freeCtr := t.freeCtr }
  calm : s.calm → t.calm
  mild : s.mild [] → t.mild []
  word : ∀ a, a ≠ w → a < 0x30000 ∨ 0x40000 ≤ a → t.word a = s.word a

section
variable {s t : State} {w : Nat}

theorem Counted.refl (s : State) (w : Nat) : Counted s s w := ⟨rfl, id, id, fun _ _ _ => rfl⟩

theorem counted_setReg (s : State) (f : RegFam) (i j v : Nat) (hf : f.addr i j < 0x30000 ∨ 0x40000 ≤ f.addr i j) :
    Counted s (s.setReg f i j v) (f.addr i j) :=
  ⟨rfl, id, fun hm => State.mild_setReg (by simp) hm f i j v hf, fun _ ha _ => State.word_setReg_of_ne _ _ _ _ _ _ ha⟩

theorem Counted.raise {u : State} (h : Counted s t w) (k : RaiseKeeps t u) : Counted s u w where
  state := by
    have hk := k.eq
    rw [h.state] at hk
    exact hk
  calm hc := by
    obtain ⟨h1, h2, h3⟩ := h.calm hc
    exact ⟨k.host.trans h1, k.chip.trans h2, k.safe.trans h3⟩
  mild hm := k.mild (by simp) (h.mild hm)
  word a ha hout := (k.word a hout).trans (h.word a ha hout)

/-- An error counter outside the collector's registers counts. -/
theorem State.counted_err (hm : s.mild []) (f : RegFam) (i j n : Nat) (hf : f.addr i j < 0x30000 ∨ 0x40000 ≤ f.addr i j) :
    Counted s (s.err f i j n) (f.addr i j) := by
  unfold State.err State.bump State.setRf
  dsimp only
  split
  case isTrue => exact .refl _ _
  case isFalse =>
    split
    case isFalse => exact counted_setReg _ _ _ _ _ hf
    case isTrue =>
      have hfull := counted_setReg s f i j 0xFFFFFFFF hf
      split
      case isFalse => exact hfull
      case isTrue =>
        have hlast := NestedKeeps.setReg (s.setReg f i j 0xFFFFFFFF) Reg.FCL_SAT_LAST 0 0 (f.addr i j) (by decide) (by decide)
        exact hfull.raise (hlast.trans (nestedKeeps_raiseN 5 _ 0 devUnit [] (by omega) (by decide)
          (hlast.mild (by simp) (hfull.mild hm)))).toRaiseKeeps

theorem Counted.core (h : Counted s t w) (k : Nat) : t.core k = s.core k := by
  rw [h.state]
  rfl

theorem Counted.reg {f : RegFam} {i j : Nat} (h : Counted s t w) (hne : f.addr i j ≠ w) (hout : f.addr i j < 0x30000 ∨ 0x40000 ≤ f.addr i j) :
    t.reg f i j = s.reg f i j := State.reg_of_word (h.word _ hne hout)

end

/-! ### The judgement of a column -/

/-- What an audit finds of a column without a pair (R125, R126). -/
def State.judged (s : State) (site : Nat) (e : EvalIn) (r : ReadIn) (rs : List ReadIn) (col : Nat) (t : Tile) (delta : Int) : ArbCol :=
  ⟨steered r.ev.steer col, col, meanRead (rs.map (fun x => x.value col)), exactSum (masterColumn t false col) r.ev.q + delta,
    s.tolerance site (sigmaV (SMap.get r.ev.corr corrDefault (steered r.ev.steer col)) (stepK e.f.ww) r.invG r.ev.gains r.s e.f.dr)
      (exactSum (masterColumn t false col) r.ev.q + delta), masterColumn t false col, masterWeights t false col⟩

/-- Whether a column lies outside its tolerance (R127). -/
def ArbCol.bad (y : ArbCol) : Bool := outside y.a y.c1 y.tol

/-- The array after an audit: the drawn column is used, and nothing is owed. -/
def Arr.audited (r : Arr) : Arr := { r with draw := none, owed := false }

/-- The core after an audit of one of its arrays. -/
def Core.audited (c : Core) (a : Nat) : Core := c.setArr a (c.arr a).audited

/-- The arbitration that a disagreement asks for (R127, R129). -/
def State.arbOf (s : State) (site : Nat) (e : EvalIn) (r : ReadIn) (codes : List Byte) (y : ArbCol) : Arb :=
  { arr := r.ev.phys, cols := [y], ev := r.ev, f := e.f, s := e.s, p := e.p, codes := codes
    evalNo := ((s.core site).arr r.ev.phys).evals, lockage := s.reg Reg.FLK_LOCKAGE 0 0, invG := r.invG, replaced := false, rep := none
    byPeer := none, carried := 0, starved := false, running := false, checker2 := none, c2 := [] }

/-- The audit counts, and the drawn column is used. -/
def State.auditMade (s : State) (site a : Nat) : State := (s.wide Reg.SLU_AUDITS site 0 1).updCore site (fun c => c.audited a)

/-- A disagreeing array is suspended and awaits its arbitration. -/
def Core.suspends (c : Core) (a : Nat) (arb : Arb) : Core :=
  { c.setArr a { c.arr a with suspended := true } with arbs := c.arbs ++ [arb] }

/-- The audit disagrees (R127). -/
def State.disagrees (s : State) (site a : Nat) (arb : Arb) : State :=
  (((s.auditMade site a).err Reg.SLU_DISAGREE site 0 1).updCore site (fun c => c.suspends a arb)).showResolving site

/-- The audit agrees: the column may feed the statistics, and the next column is drawn (R123, R437). -/
def State.agrees (s : State) (site a : Nat) (y : ArbCol) (m : F32) : State :=
  (((s.wide Reg.SLU_AUDITS site 0 1).auditStats site a y.phys y.a y.c1 m).updCore site (fun c => c.audited a)).drawAudit site a false

section
variable {s : State} {site : Nat} {e : EvalIn} {r : ReadIn} {tl : List ReadIn} {codes : List Byte} {d : Draw} {t : Tile} {delta : Int}

theorem State.auditArray_of_good (hpair : isPair e.f.ww = false) (hgood : (s.judged site e r (r :: tl) d.col t delta).bad = false) :
    ∃ m, s.auditArray site e (r :: tl) codes d t none delta = s.agrees site r.ev.phys (s.judged site e r (r :: tl) d.col t delta) m := by
  unfold State.judged ArbCol.bad at hgood
  refine ⟨sensitivity (SMap.get r.ev.corr corrDefault (steered r.ev.steer d.col)) (stepK e.f.ww) r.invG r.ev.gains r.s, ?_⟩
  unfold State.auditArray
  simp only [hpair, Bool.false_eq_true, if_false, List.map_cons, List.map_nil] at hgood ⊢
  simp only [hgood, List.filter_cons, List.filter_nil, Bool.not_false, if_true, Bool.false_eq_true, if_false, List.isEmpty_nil, List.foldl_cons,
    List.foldl_nil]
  rfl

theorem State.auditArray_of_bad (hpair : isPair e.f.ww = false) (hbad : (s.judged site e r (r :: tl) d.col t delta).bad = true) :
    s.auditArray site e (r :: tl) codes d t none delta = s.disagrees site r.ev.phys
      ((s.auditMade site r.ev.phys).arbOf site e r codes (s.judged site e r (r :: tl) d.col t delta)) := by
  unfold State.judged ArbCol.bad at hbad
  unfold State.auditArray
  simp only [hpair, Bool.false_eq_true, if_false, List.map_cons, List.map_nil] at hbad ⊢
  simp only [hbad, List.filter_cons, List.filter_nil, Bool.not_true, if_true, Bool.false_eq_true, if_false, List.isEmpty_cons,
    List.foldl_nil]
  rfl

end

/-! ### What an audit leaves -/

/-- `t` is `s` after an audit of an array, whatever it has found. -/
structure Audited (s t : State) (site a : Nat) : Prop where
  calm : s.calm → t.calm
  queue : (t.core site).arrQ = (s.core site).arrQ
  audits : t.reg Reg.SLU_AUDITS site 0 = (s.reg Reg.SLU_AUDITS site 0 + 1) % 2 ^ 64
  evals : ((t.core site).arr a).evals = ((s.core site).arr a).evals
  owed : ((t.core site).arr a).owed = false

section
variable (s : State) (site a : Nat)

theorem onlyArrs_auditStats (col : Nat) (v : F32) (exact : Int) (m : F32) : OnlyArrs s (s.auditStats site a col v exact m) site ∧
    ∃ x, ((s.auditStats site a col v exact m).core site).arr a = { (s.core site).arr a with stats := x } := by
  unfold State.auditStats
  split
  · refine ⟨onlyArrs_setArr _ _ _ _, ?_⟩
    simp only [State.core_updCore_self, Core.arr_setArr_self]
    exact ⟨_, rfl⟩
  · exact ⟨.refl _ _, _, rfl⟩

theorem State.drawAudit_arr (pair : Bool) : ∃ x, ((s.drawAudit site a pair).core site).arr a = { (s.core site).arr a with draw := x } := by
  by_cases hkeeps : ((s.core site).arr a).keepsDraw
  · rw [State.drawAudit_of_keepsDraw pair hkeeps]
    exact ⟨_, rfl⟩
  · rcases State.drawAudit_of_draws (pair := pair) hkeeps with ⟨-, heq⟩ | ⟨j, -, heq⟩
    · rw [heq]
      exact ⟨_, rfl⟩
    · have hcore : ((s.setCore site ((s.core site).setArr a (((s.core site).arr a).drawn j))).nextFree).core site =
          (s.core site).setArr a (((s.core site).arr a).drawn j) := State.core_setCore_self _ _ _
      rw [heq, hcore, Core.arr_setArr_self]
      exact ⟨_, rfl⟩

theorem State.reg_wide_self (f : RegFam) (i j n : Nat) : (s.wide f i j n).reg f i j = (s.reg f i j + n) % 2 ^ 64 := by
  rw [State.wide, State.reg_setReg_self, Nat.mod_mod]

/-- An agreeing audit (R123, R127, R437). -/
theorem State.agrees_spec (y : ArbCol) (m : F32) : Audited s (s.agrees site a y m) site a ∧
    ((s.agrees site a y m).core site).arbs = (s.core site).arbs ∧
      (((s.agrees site a y m).core site).arr a).suspended = ((s.core site).arr a).suspended := by
  have hreg := s.reg_wide_self Reg.SLU_AUDITS site 0 1
  obtain ⟨hstats, x, hx⟩ := onlyArrs_auditStats (s.wide Reg.SLU_AUDITS site 0 1) site a y.phys y.a y.c1 m
  have hagrees : s.agrees site a y m =
      (((s.wide Reg.SLU_AUDITS site 0 1).auditStats site a y.phys y.a y.c1 m).updCore site (fun c => c.audited a)).drawAudit site a false := rfl
  have hwide : s.wide Reg.SLU_AUDITS site 0 1 = { s with regs := (s.wide Reg.SLU_AUDITS site 0 1).regs } := rfl
  generalize s.wide Reg.SLU_AUDITS site 0 1 = u at hreg hstats hx hagrees hwide
  have hucore : u.core site = s.core site := by rw [hwide]; rfl
  rw [hucore] at hx
  have hufcl : u.fcl = s.fcl := by rw [hwide]
  generalize u.auditStats site a y.phys y.a y.c1 m = v at hstats hx hagrees
  have hmade : OnlyArrs v (v.updCore site (fun c => c.audited a)) site := onlyArrs_setArr v site a ((v.core site).arr a).audited
  have harr : ((v.updCore site (fun c => c.audited a)).core site).arr a = ((v.core site).arr a).audited := by
    rw [State.core_updCore_self, Core.audited, Core.arr_setArr_self]
  rw [hx] at harr
  have hboth := hstats.trans hmade
  generalize v.updCore site (fun c => c.audited a) = w at hagrees harr hboth
  have hdrawn := w.drawnAt_drawAudit site a false
  obtain ⟨z, hz⟩ := w.drawAudit_arr site a false
  rw [harr] at hz
  rw [hagrees]
  generalize w.drawAudit site a false = t at hdrawn hz
  have hcore : t.core site = { s.core site with arrs := (t.core site).arrs } := by
    have h := hdrawn.core.frame
    rw [hboth.core, hucore] at h
    exact h
  have hregs : t.regs = u.regs := by rw [hdrawn.state, hboth.state]
  have hfcl : t.fcl = s.fcl := by rw [hdrawn.state, hboth.state, hufcl]
  refine ⟨⟨fun hc => ?_, ?_, ?_, ?_, ?_⟩, ?_, ?_⟩
  · unfold State.calm
    rw [hfcl]
    exact hc
  · rw [hcore]
  · exact (State.reg_congr hregs _ _ _).trans hreg
  · rw [hz]
    rfl
  · rw [hz]
    rfl
  · rw [hcore]
  · rw [hz]
    rfl

theorem State.auditMade_core : (s.auditMade site a).core site = (s.core site).audited a := by
  rw [State.auditMade, State.core_updCore_self]
  rfl

theorem State.mild_auditMade (hm : s.mild []) : (s.auditMade site a).mild [] := by
  have hwide : (s.wide Reg.SLU_AUDITS site 0 1).mild [] :=
    State.mild_setReg (by simp) hm _ _ _ _ (.inr (by simp only [RegFam.addr, Reg.SLU_AUDITS]; omega))
  exact hwide

theorem State.core_showResolving (k : Nat) : (s.showResolving site).core k = s.core k := by
  unfold State.showResolving
  exact State.core_setRf _ _ _ _ _ _ _ _

/-- A register other than `SLU_STATE` keeps its value while the pending arbitrations are shown. -/
theorem State.reg_showResolving_of_ne (f : RegFam) (i j : Nat) (h : f.addr i j ≠ Reg.SLU_STATE.addr site 0) :
    (s.showResolving site).reg f i j = s.reg f i j := by
  unfold State.showResolving
  exact State.reg_setRf_of_ne _ _ _ _ _ _ _ _ _ _ h

/-- A disagreeing audit (R127, R129, R412). -/
theorem State.disagrees_spec (arb : Arb) (hm : s.mild []) : Audited s (s.disagrees site a arb) site a ∧
    ((s.disagrees site a arb).core site).arbs = (s.core site).arbs ++ [arb] ∧
      (((s.disagrees site a arb).core site).arr a).suspended = true ∧ (((s.disagrees site a arb).core site).arr a).draw = none ∧
        (s.room Reg.SLU_DISAGREE site 0 1 → (s.disagrees site a arb).reg Reg.SLU_DISAGREE site 0 = s.reg Reg.SLU_DISAGREE site 0 + 1) := by
  have hmade : Reg.SLU_AUDITS.addr site 0 = 0x1004100 + 0x10000 * site := by simp [RegFam.addr, Reg.SLU_AUDITS]
  have hdis : Reg.SLU_DISAGREE.addr site 0 = 0x1004110 + 0x10000 * site := by simp [RegFam.addr, Reg.SLU_DISAGREE]
  have hshow : Reg.SLU_STATE.addr site 0 = 0x1004000 + 0x10000 * site := by simp [RegFam.addr, Reg.SLU_STATE]
  have hcount := (s.auditMade site a).counted_err (s.mild_auditMade site a hm) Reg.SLU_DISAGREE site 0 1 (.inr (by omega))
  have hroom : s.room Reg.SLU_DISAGREE site 0 1 →
      ((s.auditMade site a).err Reg.SLU_DISAGREE site 0 1).reg Reg.SLU_DISAGREE site 0 = s.reg Reg.SLU_DISAGREE site 0 + 1 := by
    intro hr
    have hold : (s.auditMade site a).reg Reg.SLU_DISAGREE site 0 = s.reg Reg.SLU_DISAGREE site 0 :=
      State.reg_setReg_of_ne _ _ _ _ _ _ _ _ (by omega)
    have hr' : (s.auditMade site a).room Reg.SLU_DISAGREE site 0 1 := by
      unfold State.room State.rf
      rw [hold]
      exact hr
    rw [State.err_of_room hr', if_neg Nat.one_ne_zero, State.reg_bumped hr', hold]
  have haudits : ((s.auditMade site a).err Reg.SLU_DISAGREE site 0 1).reg Reg.SLU_AUDITS site 0 = (s.reg Reg.SLU_AUDITS site 0 + 1) % 2 ^ 64 :=
    (hcount.reg (by omega) (.inr (by omega))).trans (s.reg_wide_self Reg.SLU_AUDITS site 0 1)
  have hcore : ((s.auditMade site a).err Reg.SLU_DISAGREE site 0 1).core site = (s.core site).audited a :=
    (hcount.core site).trans (s.auditMade_core site a)
  have hcalm : s.calm → ((s.auditMade site a).err Reg.SLU_DISAGREE site 0 1).calm := hcount.calm
  unfold State.disagrees
  generalize (s.auditMade site a).err Reg.SLU_DISAGREE site 0 1 = v at hroom haudits hcore hcalm
  have hnew : ((v.updCore site (fun c => c.suspends a arb)).showResolving site).core site = ((s.core site).audited a).suspends a arb := by
    rw [State.core_showResolving, State.core_updCore_self, hcore]
  have hreg : ∀ (f : RegFam), f.addr site 0 ≠ Reg.SLU_STATE.addr site 0 →
      ((v.updCore site (fun c => c.suspends a arb)).showResolving site).reg f site 0 = v.reg f site 0 := fun f hne =>
    State.reg_showResolving_of_ne _ site f site 0 hne
  have harr : (((s.core site).audited a).suspends a arb).arr a = { ((s.core site).arr a).audited with suspended := true } := by
    have haud : ((s.core site).audited a).arr a = ((s.core site).arr a).audited := Core.arr_setArr_self _ _ _
    have hset : (((s.core site).audited a).suspends a arb).arr a = { ((s.core site).audited a).arr a with suspended := true } :=
      Core.arr_setArr_self _ _ _
    rw [hset, haud]
  refine ⟨⟨hcalm, ?_, ?_, ?_, ?_⟩, ?_, ?_, ?_, fun hr => ?_⟩
  · rw [hnew]
    rfl
  · rw [hreg _ (by omega), haudits]
  · rw [hnew, harr]
    rfl
  · rw [hnew, harr]
    rfl
  · rw [hnew]
    rfl
  · rw [hnew, harr]
  · rw [hnew, harr]
    rfl
  · rw [hreg _ (by omega), hroom hr]

end

end Sys2Proof.Machine
end

section
/-! SUPPORT. An evaluation of one array whose audit is due, and the obligation O16 (R122, R125, R127). -/

namespace Sys2Proof.Machine

/-- The first read of an array. -/
theorem readsOf_cons (g invG : F32) (e : EvalIn) (a : EvalArr) (codes : Array Byte) (n : Nat) :
    ∃ r tl, readsOf g invG e a codes n = r :: tl ∧ r.ev = a ∧ r.s = e.s ∧ r.invG = invG := by
  unfold readsOf
  cases e.f.dr with
  | false => exact ⟨_, _, rfl, rfl, rfl, rfl⟩
  | true => exact ⟨_, _, rfl, rfl, rfl, rfl⟩

/-- The words other than the one at an address, outside the collector, are as they were. -/
def SameWords (s t : State) (w : Nat) : Prop := ∀ a, a ≠ w → a < 0x30000 ∨ 0x40000 ≤ a → t.word a = s.word a

theorem SameWords.reg {s t : State} {w : Nat} (h : SameWords s t w) {f : RegFam} {i j : Nat} (hne : f.addr i j ≠ w)
    (hout : f.addr i j < 0x30000 ∨ 0x40000 ≤ f.addr i j) : t.reg f i j = s.reg f i j := State.reg_of_word (h _ hne hout)

/-- What makes an audit of an array be held at once (R122, R124, R128, R132). -/
structure State.AuditDue (s : State) (site : Nat) (a : EvalArr) (p : Nat) (d : Draw) (t : Tile) : Prop where
  serves : s.streamed ((s.core site).arr a.phys).holds = false
  on : bitsOf (s.core site).auditCtl 0 0 = 1
  due : (((s.core site).arr a.phys).evals + 1) % 2 ^ 64 % 2 ^ bitsOf (s.core site).auditCtl 12 8 = 0 ∨ ((s.core site).arr a.phys).owed = true
  active : ((s.core site).arr a.phys).suspended = false
  peer : s.peer site = some p
  checker : s.checkerOk p = true
  own : s.rf Reg.SLU_STATE site 0 1 0 ≠ 1
  whole : a.lost = false
  tile : s.tileOf a.holds = some t
  draw : ((s.core site).arr a.phys).draw = some d
  arrived : d.arrived = true
  clean : d.poisoned = false

section
variable {s : State} {site p : Nat} {a : EvalArr} {d : Draw} {t : Tile}

/-- The state in which the array has counted the evaluation. -/
def State.counted (s : State) (site a : Nat) : State :=
  s.setCore site ((s.core site).setArr a { (s.core site).arr a with evals := (((s.core site).arr a).evals + 1) % 2 ^ 64 })

/-- A due audit is made by the core's own checker. -/
theorem State.AuditDue.auditDue_eq (h : s.AuditDue site a p d t) {e : EvalIn} {r : ReadIn} {tl : List ReadIn} (hr : r.ev = a)
    (codes : List Byte) (delta : Int) :
    s.auditDue site e (r :: tl) codes delta a.phys = (s.counted site a.phys).auditArray site e (r :: tl) codes d t none delta := by
  have hpeer : (s.counted site a.phys).peer site = some p := h.peer
  have hcheck : (s.counted site a.phys).checkerOk p = true := h.checker
  have hown : ((s.counted site a.phys).rf Reg.SLU_STATE site 0 1 0 != 1) = true := bne_iff_ne.mpr h.own
  have htile : (s.counted site a.phys).tileOf (if r.ev.lost then Holds.none else r.ev.holds) = some t := by
    rw [hr, h.whole]
    exact h.tile
  have hdue : ¬(!((((s.core site).arr a.phys).evals + 1) % 2 ^ 64 % 2 ^ bitsOf (s.core site).auditCtl 12 8 == 0 ||
      ((s.core site).arr a.phys).owed)) = true := by
    rcases h.due with hn | ho
    · rw [beq_iff_eq.mpr hn]
      simp
    · rw [ho]
      simp
  have hactive : ¬((s.core site).arr a.phys).suspended = true := by simp [h.active]
  have huse : (d.arrived && !d.poisoned) = true := by simp [h.arrived, h.clean]
  dsimp only [State.counted] at hpeer hcheck hown htile ⊢
  unfold State.auditDue
  simp only [h.serves, h.on, Bool.false_eq_true, if_false, Nat.one_ne_zero, decide_false, Bool.or_false]
  rw [if_neg hactive, if_neg hdue]
  simp only [hpeer, hcheck, hown, htile, Bool.not_true, Bool.false_eq_true, if_true, if_false]
  rw [h.draw]
  simp only [huse, if_true]

/-- A delivery leaves what makes an audit due. -/
theorem State.AuditDue.after (h : s.AuditDue site a p d t) {u : State} (harr : (u.core site).arr a.phys = (s.core site).arr a.phys)
    (hctl : (u.core site).auditCtl = (s.core site).auditCtl) (hsched : u.sched = s.sched) (hgens : u.gens = s.gens) (hen : u.siteEn = s.siteEn)
    (hwords : SameWords s u (Reg.CNT_ACC_OVERFLOW.addr 0 0)) : u.AuditDue site a p d t := by
  have hslots : ∀ n, n < 2 → u.word (Reg.WGT_GEN_SLOTn.addr 0 n) = s.word (Reg.WGT_GEN_SLOTn.addr 0 n) := fun n hn =>
    hwords _ (by simp only [RegFam.addr, Reg.WGT_GEN_SLOTn, Reg.CNT_ACC_OVERFLOW]; omega)
      (by simp only [RegFam.addr, Reg.WGT_GEN_SLOTn]; omega)
  have hstate : ∀ k, u.reg Reg.SLU_STATE k 0 = s.reg Reg.SLU_STATE k 0 := fun k =>
    hwords.reg (by simp only [RegFam.addr, Reg.SLU_STATE, Reg.CNT_ACC_OVERFLOW]; omega) (by simp only [RegFam.addr, Reg.SLU_STATE]; omega)
  have hpeer : u.reg Reg.SLU_PEER site 0 = s.reg Reg.SLU_PEER site 0 :=
    hwords.reg (by simp only [RegFam.addr, Reg.SLU_PEER, Reg.CNT_ACC_OVERFLOW]; omega) (by simp only [RegFam.addr, Reg.SLU_PEER]; omega)
  have hfence : u.reg Reg.RTR_FENCE p 0 = s.reg Reg.RTR_FENCE p 0 :=
    hwords.reg (by simp only [RegFam.addr, Reg.RTR_FENCE, Reg.CNT_ACC_OVERFLOW]; omega) (by simp only [RegFam.addr, Reg.RTR_FENCE]; omega)
  obtain ⟨hserves, hon, hdue, hactive, hp, hcheck, hown, hwhole, htile, hdraw, harrived, hclean⟩ := h
  refine ⟨?_, ?_, ?_, ?_, ?_, ?_, ?_, hwhole, ?_, ?_, harrived, hclean⟩
  · rw [State.streamed_of_words hslots hsched, harr]
    exact hserves
  · rw [hctl]
    exact hon
  · rw [harr, hctl]
    exact hdue
  · rw [harr]
    exact hactive
  · simp only [State.peer, State.rf, hpeer] at hp ⊢
    exact hp
  · simp only [State.checkerOk, State.enabled, State.rf, hen, hfence, hstate] at hcheck ⊢
    exact hcheck
  · simp only [State.rf, hstate] at hown ⊢
    exact hown
  · rw [State.tileOf_of_words hslots hsched hgens]
    exact htile
  · rw [harr]
    exact hdraw

/-- Room in a counter rests on its register alone. -/
theorem State.room_of_reg {s u : State} {f : RegFam} {i j n : Nat} (h : u.reg f i j = s.reg f i j) (hr : s.room f i j n) : u.room f i j n := by
  unfold State.room State.rf at hr ⊢
  rw [h]
  exact hr

theorem State.counted_arr (s : State) (site a : Nat) : ((s.counted site a).core site).arr a =
    { (s.core site).arr a with evals := (((s.core site).arr a).evals + 1) % 2 ^ 64 } := by
  rw [State.counted, State.core_setCore_self, Core.arr_setArr_self]

/-- A tolerance rests on the audit control of the core alone. -/
theorem State.tolerance_of_ctl {s u : State} (h : (u.core site).auditCtl = (s.core site).auditCtl) (sv : F32) (x : Int) :
    u.tolerance site sv x = s.tolerance site sv x := by
  unfold State.tolerance
  rw [h]

end

/-- What a delivery before an audit leaves as it was. -/
theorem State.accOvf_before_audit {s : State} {site : Nat} {codes : List Byte} {e : EvalIn} {rest : List EvalIn} (hm : s.mild []) :
    ∃ u, (s.sluiceStored site codes e rest).accOvf (s.sluiceSums site codes e).2 = u ∧
      u = { s with cores := u.cores, regs := u.regs, fcl := u.fcl, freeCtr := u.freeCtr } ∧ (s.calm → u.calm) ∧ u.mild [] ∧
      SameWords s u (Reg.CNT_ACC_OVERFLOW.addr 0 0) ∧ u.core site = (s.core site).delivered e rest (s.sluiceSums site codes e).1 := by
  have hmild : (s.sluiceStored site codes e rest).mild [] := hm
  have h := State.counted_err hmild Reg.CNT_ACC_OVERFLOW 0 0 (s.sluiceSums site codes e).2 (.inr (by decide))
  refine ⟨_, rfl, ?_, h.calm, h.mild hmild, h.word, (h.core site).trans (s.sluiceStored_core site codes e rest)⟩
  have hstate := h.state
  unfold State.accOvf
  generalize (s.sluiceStored site codes e rest).err Reg.CNT_ACC_OVERFLOW 0 0 (s.sluiceSums site codes e).2 = u at hstate
  have hcores : u.cores = (s.sluiceStored site codes e rest).cores := by rw [hstate]
  rw [hcores]
  exact hstate

end Sys2Proof.Machine
end

section
/-! SUPPORT. An audit made within a delivery, and the obligation O16. -/

namespace Sys2Proof.Machine

/-- Behind an audit nothing starts; the barrier changes at most whether the core has arrived. -/
theorem finish_of_emptyQueue {w : State} {site : Nat} (hc : w.calm) (hq : (w.core site).arrQ = []) :
    ∃ t, finish ((w.startArrays site 8).settleBarrier site) = .next t ∧ (∀ f i j, t.reg f i j = w.reg f i j) ∧
      (∀ b, (t.core site).arr b = (w.core site).arr b) ∧ (t.core site).arbs = (w.core site).arbs := by
  obtain ⟨hstate, -, hcore⟩ := w.settleBarrier_spec site
  rw [State.startArrays_of_empty hq]
  generalize w.settleBarrier site = t at hstate hcore
  refine ⟨t, finish_of_calm hc (by rw [hstate]), fun f i j => State.reg_congr (by rw [hstate]) f i j, fun b => ?_, ?_⟩
  · rw [hcore]
    rfl
  · rw [hcore]

section
variable {s : State} {site : Nat} {e : EvalIn} {r : ReadIn} {tl : List ReadIn} {codes : List Byte} {a : EvalArr} {d : Draw} {tile : Tile} {p : Nat}
  {delta : Int}

/-- What an audit that is due leaves, by what it finds. -/
theorem State.AuditDue.outcome (h : s.AuditDue site a p d tile) (hc : s.calm) (hm : s.mild []) (hq : (s.core site).arrQ = [])
    (hpair : isPair e.f.ww = false) (hr : r.ev = a) :
    let y := s.judged site e r (r :: tl) d.col tile delta
    ∃ t, finish (((s.auditDue site e (r :: tl) codes delta a.phys).startArrays site 8).settleBarrier site) = .next t ∧
      t.reg Reg.SLU_AUDITS site 0 = (s.reg Reg.SLU_AUDITS site 0 + 1) % 2 ^ 64 ∧
      ((t.core site).arr a.phys).evals = (((s.core site).arr a.phys).evals + 1) % 2 ^ 64 ∧ ((t.core site).arr a.phys).owed = false ∧
      (y.bad = false → (t.core site).arbs = (s.core site).arbs ∧ ((t.core site).arr a.phys).suspended = false) ∧
      (y.bad = true → ((t.core site).arr a.phys).suspended = true ∧ ((t.core site).arr a.phys).draw = none ∧
        (s.room Reg.SLU_DISAGREE site 0 1 → t.reg Reg.SLU_DISAGREE site 0 = s.reg Reg.SLU_DISAGREE site 0 + 1) ∧
        ∃ b : Arb, (t.core site).arbs = (s.core site).arbs ++ [b] ∧ b.arr = a.phys ∧ b.running = false ∧ b.cols = [y]) := by
  intro y
  have hcore : (s.counted site a.phys).core site = (s.core site).setArr a.phys
      { (s.core site).arr a.phys with evals := (((s.core site).arr a.phys).evals + 1) % 2 ^ 64 } := State.core_setCore_self _ _ _
  have hy : (s.counted site a.phys).judged site e r (r :: tl) d.col tile delta = y := by
    unfold y State.judged
    rw [State.tolerance_of_ctl (s := s) (by rw [hcore]; rfl)]
  have harr := s.counted_arr site a.phys
  have hvq : ((s.counted site a.phys).core site).arrQ = [] := by rw [hcore]; exact hq
  have hvarbs : ((s.counted site a.phys).core site).arbs = (s.core site).arbs := by rw [hcore]; rfl
  have hvreg : ∀ f i j, (s.counted site a.phys).reg f i j = s.reg f i j := fun _ _ _ => rfl
  have hvcalm : (s.counted site a.phys).calm := hc
  have hvmild : (s.counted site a.phys).mild [] := hm
  rw [h.auditDue_eq hr codes delta]
  cases hbad : y.bad with
  | false =>
    obtain ⟨m, heq⟩ := State.auditArray_of_good (codes := codes) hpair (hy ▸ hbad)
    rw [heq, hy, hr]
    obtain ⟨haud, harbs, hsusp⟩ := (s.counted site a.phys).agrees_spec site a.phys y m
    obtain ⟨t, hfin, hreg, harrs, harb⟩ := finish_of_emptyQueue (haud.calm hvcalm) (haud.queue.trans hvq)
    refine ⟨t, hfin, ?_, ?_, ?_, fun _ => ⟨?_, ?_⟩, fun hno => absurd hno Bool.false_ne_true⟩
    · rw [hreg, haud.audits, hvreg]
    · rw [harrs, haud.evals, harr]
    · rw [harrs, haud.owed]
    · rw [harb, harbs, hvarbs]
    · rw [harrs, hsusp, harr]
      exact h.active
  | true =>
    rw [State.auditArray_of_bad hpair (hy ▸ hbad), hy, hr]
    obtain ⟨haud, harbs, hsusp, hdraw, hroom⟩ := (s.counted site a.phys).disagrees_spec site a.phys
      (((s.counted site a.phys).auditMade site a.phys).arbOf site e r codes y) hvmild
    have hnew : ((((s.counted site a.phys).auditMade site a.phys).arbOf site e r codes y).arr = a.phys ∧
        (((s.counted site a.phys).auditMade site a.phys).arbOf site e r codes y).running = false ∧
        (((s.counted site a.phys).auditMade site a.phys).arbOf site e r codes y).cols = [y]) := ⟨congrArg EvalArr.phys hr, rfl, rfl⟩
    rw [hvarbs] at harbs
    obtain ⟨t, hfin, hreg, harrs, harb⟩ := finish_of_emptyQueue (haud.calm hvcalm) (haud.queue.trans hvq)
    refine ⟨t, hfin, ?_, ?_, ?_, fun hno => absurd hno.symm Bool.false_ne_true, fun _ => ⟨?_, ?_, fun hfree => ?_, _, harb.trans harbs, hnew⟩⟩
    · rw [hreg, haud.audits, hvreg]
    · rw [harrs, haud.evals, harr]
    · rw [harrs, haud.owed]
    · rw [harrs, hsusp]
    · rw [harrs, hdraw]
    · rw [hreg, hroom (State.room_of_reg (hvreg _ _ _) hfree), hvreg]

end

/-- The delivery of an evaluation of one array whose audit is due (R122, R125, R127). -/
theorem sluiceCorrection_of_due {s : State} {site : Nat} {codes : List Byte} {delta : Int} {e : EvalIn} {rest : List EvalIn} {a : EvalArr}
    {d : Draw} {tile : Tile} {p : Nat} (hc : s.calm) (hm : s.mild []) (hevals : (s.core site).evals = e :: rest)
    (hq : (s.core site).arrQ = []) (harrays : e.arrays = [a]) (hpair : isPair e.f.ww = false) (hdue : s.AuditDue site a p d tile) :
    let c := s.core site
    let rs := readsOf (c.gDrift a.phys) (BitVec.ofNat 32 (s.reg Reg.SLU_INV_Ga site a.phys)) e a codes.toArray 0
    let v := meanRead (rs.map (fun y => y.value d.col))
    let c1 := exactSum (masterColumn tile false d.col) a.q + delta
    let tol := s.tolerance site (sigmaV (SMap.get a.corr corrDefault (steered a.steer d.col)) (stepK e.f.ww)
      (BitVec.ofNat 32 (s.reg Reg.SLU_INV_Ga site a.phys)) a.gains e.s e.f.dr) c1
    ∃ (t : State), exec (.sluiceCorrection site codes delta) s = .next t ∧
      t.reg Reg.SLU_AUDITS site 0 = (s.reg Reg.SLU_AUDITS site 0 + 1) % 2 ^ 64 ∧
      ((t.core site).arr a.phys).evals = ((c.arr a.phys).evals + 1) % 2 ^ 64 ∧ ((t.core site).arr a.phys).owed = false ∧
      (outside v c1 tol = false → (t.core site).arbs = c.arbs ∧ ((t.core site).arr a.phys).suspended = false) ∧
      (outside v c1 tol = true → ((t.core site).arr a.phys).suspended = true ∧ ((t.core site).arr a.phys).draw = none ∧
        (s.room Reg.SLU_DISAGREE site 0 1 → t.reg Reg.SLU_DISAGREE site 0 = s.reg Reg.SLU_DISAGREE site 0 + 1) ∧
        ∃ b, (t.core site).arbs = c.arbs ++ [b] ∧ b.arr = a.phys ∧ b.running = false ∧
          b.cols.map (fun y => (y.col, y.phys, y.a, y.c1, y.tol)) = [(d.col, steered a.steer d.col, v, c1, tol)]) := by
  intro c rs v c1 tol
  obtain ⟨u, hu, hstate, hcalm, hmild, hwords, hcore⟩ := State.accOvf_before_audit (site := site) (codes := codes) (e := e) (rest := rest) hm
  have hexec := exec_sluiceCorrection_of_evals codes delta hevals
  obtain ⟨r, tl, hrs, hr, hrsub, hrinv⟩ := readsOf_cons (c.gDrift a.phys) (BitVec.ofNat 32 (s.reg Reg.SLU_INV_Ga site a.phys)) e a codes.toArray 0
  have hone : e.arrays.zipIdx.foldl (s.sluiceAudit site codes e delta) u = u.auditDue site e (r :: tl) (e.codesOf codes 0) delta a.phys := by
    rw [harrays, ← hrs]
    rfl
  rw [hu, hone] at hexec
  have harr : (u.core site).arr a.phys = c.arr a.phys := by rw [hcore]; rfl
  have hctl : (u.core site).auditCtl = c.auditCtl := by rw [hcore]; rfl
  have harbs : (u.core site).arbs = c.arbs := by rw [hcore]; rfl
  have huq : (u.core site).arrQ = [] := by rw [hcore]; exact hq
  have hudue := hdue.after harr hctl (by rw [hstate]) (by rw [hstate]) (by rw [hstate]) hwords
  have haudits : u.reg Reg.SLU_AUDITS site 0 = s.reg Reg.SLU_AUDITS site 0 :=
    hwords.reg (by simp only [RegFam.addr, Reg.SLU_AUDITS, Reg.CNT_ACC_OVERFLOW]; omega) (by simp only [RegFam.addr, Reg.SLU_AUDITS]; omega)
  have hdis : u.reg Reg.SLU_DISAGREE site 0 = s.reg Reg.SLU_DISAGREE site 0 :=
    hwords.reg (by simp only [RegFam.addr, Reg.SLU_DISAGREE, Reg.CNT_ACC_OVERFLOW]; omega) (by simp only [RegFam.addr, Reg.SLU_DISAGREE]; omega)
  have hy : u.judged site e r (r :: tl) d.col tile delta =
      ⟨steered a.steer d.col, d.col, v, c1, tol, masterColumn tile false d.col, masterWeights tile false d.col⟩ := by
    unfold State.judged
    rw [hr, hrsub, hrinv, State.tolerance_of_ctl hctl, ← hrs]
  obtain ⟨t, hfin, ht, hevs, howed, hgood, hbad⟩ := hudue.outcome (e := e) (r := r) (tl := tl) (codes := e.codesOf codes 0) (delta := delta)
    (hcalm hc) hmild huq hpair hr
  rw [hy, harbs] at hgood hbad
  rw [harr] at hevs
  rw [haudits] at ht
  refine ⟨t, hexec.trans hfin, ht, hevs, howed, hgood, fun hout => ?_⟩
  obtain ⟨hsusp, hdraw, hroom, b, hb, hbarr, hrun, hcols⟩ := hbad hout
  rw [hdis] at hroom
  refine ⟨hsusp, hdraw, fun hfree => hroom (State.room_of_reg hdis hfree), b, hb, hbarr, hrun, ?_⟩
  rw [hcols]
  rfl

/-- Settles O16: an `EVAL` waits in its queue or starts at once (R192, R198), and the codes of the oldest evaluation deliver it (R106, R148), with its
audit where one is due (R125, R127). -/
theorem evaluationRunsAndDelivers : Obligations.EvaluationRunsAndDelivers := by
  unfold Obligations.EvaluationRunsAndDelivers
  refine ⟨?_, ?_, ?_⟩
  · intro s x f sc hr hc hsc c opa arrs steps tile pair d ev stays may hlists hoperands
    have hclean : s.EvalClean x f sc := ⟨hlists, hoperands⟩
    exact ⟨exec_eval_of_full hc, exec_eval_waits hr hc hsc hclean, exec_eval_starts hr hc hsc hclean⟩
  · intro s site codes delta e rest hc hoff c hevals hq hnodup pair n first reads start r hroom
    exact sluiceCorrection_of_off hc hoff hevals hq hnodup hroom
  · intro s site codes delta e rest a d tile p hc hm c ctl r hevals hq harrays hpair hon hserves hdue hactive hpeer hcheck hown hwhole htile hdraw
      harrived hclean
    exact sluiceCorrection_of_due hc hm hevals hq harrays hpair
      ⟨hserves, hon, hdue, hactive, hpeer, hcheck, hown, hwhole, htile, hdraw, harrived, hclean⟩

end Sys2Proof.Machine
end

section
/-! SUPPORT. Conversion, rotation and quantisation (R78 to R86, R94 to R96, R207, R208): what each makes of the state when it runs, what a
quantisation gives at its two limits, and the statement about them. -/

namespace Sys2Proof.Machine

/-! ### The state that each leaves -/

/-- A meaning that replaces the core of a calm state and raises nothing. -/
theorem coreNext_finish_setCore {s : State} {site : Nat} (c : Core) (hc : s.calm) :
    CoreNext (finish ((s.setCore site c).updCore site Core.advance)) s site c := by
  rw [finish_of_calm hc (by rfl)]
  exact coreNext_of rfl

/-- A read that consumes poison counts one, any other none. -/
theorem State.consumed_eq_err (s : State) (b : Bool) :
    s.consumed b = s.err Reg.MEM_POISON_CONSUMED 0 0 (if b then 1 else 0) := by
  cases b with
  | false => exact (s.err_zero _ _ _).symm
  | true => rfl

theorem State.room_mono {s : State} {f : RegFam} {i j m n : Nat} (hr : s.room f i j n) (h : m ≤ n) : s.room f i j m := by
  unfold State.room at hr ⊢
  omega

/-- What an event of a quantisation counts (R79, R81, R82). -/
def State.countQuant (s : State) : QuantEvent → State
  | .none => s
  | .clamp => s.err Reg.CNT_ASCALE_CLAMP 0 0 1
  | .nonfinite => s.err Reg.CNT_QUANT_NONFINITE 0 0 1

section
variable {s : State} {x : Issue} {f : VecF} {fm : Fmt} (h : s.runs x)
include h

theorem exec_vcvt_of_runs (ht : f.t.toNat ≤ 5) (ht2 : f.t2.toNat ≤ 5) :
    let c := s.core x.site
    let vs := (wordsOf (typeBytes f.t) (c.vreg f.va.toNat (vecN f))).map (typeDecode f.t)
    let bs := bytesOf (typeBytes f.t2) (vs.map (typeEncode f.t2))
    exec (.vcvt x f) s = finish (((s.setCore x.site (c.setVreg f.vd.toNat (bs ++ List.replicate ((1024 - bs.length % 1024) % 1024) 0))).err
      Reg.CNT_FP8_SAT 0 0 (vs.filter (typeSaturates f.t2)).length).updCore x.site Core.advance) := by
  show execVcvt x f s = _
  rw [execVcvt, State.issue_of_runs _ h, if_pos ⟨ht, ht2⟩]

theorem exec_vhad_of_runs (ht : f.t.toNat ≤ 1) (hf : vecFmt f.t = some fm) :
    let c := s.core x.site
    let xs := c.elems fm f.va.toNat (vecN f)
    let blocks := chunks (2 ^ (f.aux.toNat % 16)) xs xs.length
    let a := vecAddr f (c.stepIdx x)
    let seeds := (wordsOf 8 (c.spRead a (8 * blocks.length))).map (BitVec.ofNat 64)
    exec (.vhad x f) s = finish (((s.setCore x.site
      (c.setElems .fp32 f.vd.toNat ((blocks.zip seeds).flatMap (fun p => rotateBlock (f.aux.toNat % 16) p.2 p.1)))).consumed
        (c.spPoisoned a (8 * blocks.length))).updCore x.site Core.advance) := by
  show execVhad x f s = _
  rw [execVhad, State.issue_of_runs _ h, if_pos ht, hf]

theorem exec_vqnt_of_runs (hf : vecFmt f.t = some fm) :
    let c := s.core x.site
    let q := quantise (f.aux.toNat % 8 + 1) (c.elems fm f.va.toNat (vecN f))
    exec (.vqnt x f) s = finish (((s.setCore x.site (c.setSp (vecAddr f (c.stepIdx x)) (operandBlocks q.1 q.2.1))).countQuant q.2.2).updCore
      x.site Core.advance) := by
  intro c q
  show execVqnt x f s = _
  rw [execVqnt, State.issue_of_runs _ h, hf]
  rfl

end

/-! ### The limits of quantisation -/

/-- A NaN or an infinity anywhere in the vector (R82). -/
theorem quantise_of_not_finite {w : Nat} {xs : List F32} (h : ∃ a ∈ xs, F32.isFin a = false) :
    quantise w xs = (xs.map (fun _ => 0), 0x7E00, .nonfinite) := by
  have hany : xs.any (fun a => !F32.isFin a) = true := by simpa using h
  rw [quantise, if_pos hany]

/-- No magnitude of a vector of zeros exceeds 0. -/
theorem largest_of_zeros {xs : List F32} (h : ∀ a ∈ xs, a = 0 ∨ a = 0x80000000) :
    xs.foldl (fun a b => Num.larger a (Num.abs (F32.num b))) (Num.int 0) = Num.int 0 := by
  refine List.foldlRecOn xs _ (motive := (· = Num.int 0)) rfl fun m hm a ha => ?_
  subst hm
  rcases h a ha with rfl | rfl <;> decide

/-- A vector of zeros at more than one bit (R80). -/
theorem quantise_of_zeros {w : Nat} {xs : List F32} (hw : 2 ≤ w) (h : ∀ a ∈ xs, a = 0 ∨ a = 0x80000000) :
    quantise w xs = (xs.map (fun _ => 0), 0, .none) := by
  have hany : ¬xs.any (fun a => !F32.isFin a) = true := by
    rw [List.any_eq_true]
    rintro ⟨a, ha, hfin⟩
    rcases h a ha with rfl | rfl <;> exact absurd hfin (by decide)
  have hone : w ≠ 1 := by omega
  rw [quantise, if_neg hany, if_neg hone, largest_of_zeros h]
  rfl

/-- Settles O8: each instruction replaces its core and counts in one register, which has room; the limits of `VQNT` are those of
quantisation. -/
theorem conversionInstructionResults : Obligations.ConversionInstructionResults := by
  unfold Obligations.ConversionInstructionResults
  refine ⟨fun s x f h hc => ⟨fun ht ht2 hr => ?_, fun fm ht hf hr => ?_⟩,
    fun s x f fm h hc hf => ⟨fun hq => ?_, fun hq hr => ?_, fun hq hr => ?_, quantise_of_not_finite, fun hz hw => quantise_of_zeros hw hz⟩⟩
  · rw [exec_vcvt_of_runs h ht ht2]
    exact countNext_of hc hr
  · rw [exec_vhad_of_runs h ht hf, State.consumed_eq_err]
    exact countNext_of hc (State.room_mono hr (by split <;> decide))
  · rw [exec_vqnt_of_runs h hf, hq]
    exact coreNext_finish_setCore _ hc
  · rw [exec_vqnt_of_runs h hf, hq]
    exact countNext_of hc hr
  · rw [exec_vqnt_of_runs h hf, hq]
    exact countNext_of hc hr

end Sys2Proof.Machine
end

section
/-! SUPPORT. The signature store (R414, R416, R456): the outcomes of a commit, what a short hold-up bank makes of a write, and what a read gives. -/

namespace Sys2Proof.Machine

theorem RaiseKeeps.calm {s t : State} (h : RaiseKeeps s t) (hc : s.calm) : t.calm := by
  obtain ⟨hhost, hchip, hsafe⟩ := hc
  exact ⟨h.host.trans hhost, h.chip.trans hchip, h.safe.trans hsafe⟩

/-- Mild reactions name the source of a full buffer among those of a full counter and a full buffer (R404). -/
theorem State.mild.full {s : State} (hm : s.mild []) : s.mild [0x01] := fun n hn => hm n (by simpa using hn)

/-- A counter of the collector's own counts; its saturation is a nested raise (R412). -/
theorem State.nestedKeeps_err {s : State} (hm : s.mild []) (f : RegFam) (j : Nat) (h1 : 0x30000 ≤ f.addr 0 j)
    (h2 : f.addr 0 j < 0x31000 ∨ (0x32000 ≤ f.addr 0 j ∧ f.addr 0 j < 0x32008)) : NestedKeeps s (s.err f 0 j 1) :=
  NestedKeeps.countWith State.raise s f j h1 h2 fun t ht => nestedKeeps_raiseN 5 t 0 devUnit [] (by decide) (by decide) (ht.mild (by simp) hm)

/-- A write that the bank cannot cover counts as deferred, and `PWR_HOLDUP_LOW` is raised for its die (R456). -/
theorem holdupCheck_defers {s : State} {die mj : Nat} (hc : s.calm) (hdie : die < 1024) (hbank : s.holdup mj = false)
    (hroom : s.room Reg.PWR_HOLDUP_DEFER 0 0 1) (hm : s.mild [0x7D]) :
    ∃ q t, finish (s.holdupCheck die mj) = .next t ∧ Raised q t 0x7D die ∧ OnlyRegs s q [Reg.PWR_HOLDUP_DEFER.addr 0 0] ∧
      q.reg Reg.PWR_HOLDUP_DEFER 0 0 = s.reg Reg.PWR_HOLDUP_DEFER 0 0 + 1 := by
  have hcheck : s.holdupCheck die mj =
      (s.setRf Reg.PWR_HOLDUP_DEFER 0 0 30 0 (s.rf Reg.PWR_HOLDUP_DEFER 0 0 30 0 + 1)).raise 0x7D die := by
    rw [State.holdupCheck, if_neg (by simp [hbank]), State.err_of_room hroom, if_neg Nat.one_ne_zero]
  obtain ⟨hfin, hraised⟩ := finish_raise (s := s.setRf Reg.PWR_HOLDUP_DEFER 0 0 30 0 (s.rf Reg.PWR_HOLDUP_DEFER 0 0 30 0 + 1)) (src := 0x7D) hc
    (by decide) hdie (State.mild_setReg (by decide) hm _ _ _ _ (by decide))
  exact ⟨_, _, (congrArg finish hcheck).trans hfin, hraised, onlyRegs_setReg _ _ _ _ _, State.reg_bumped hroom⟩

/-- The oldest record has left the buffer, and the partition holds `l`. -/
def State.recordsAre (s : State) (rest l : List SigRec) : State := { s with fcl := { s.fcl with buffer := rest, store := l } }

section
variable {s : State} {e y : SigRec} {rest : List SigRec} (hbuf : s.fcl.buffer = e :: rest)
include hbuf

theorem State.commitOldest_of_room (hlen : s.fcl.store.length < 1024) : s.commitOldest = s.recordsAre rest (s.fcl.store ++ [e]) := by
  unfold State.commitOldest
  rw [hbuf]
  exact if_pos hlen

/-- A full partition gives up its oldest record of low severity. -/
theorem State.commitOldest_of_lower (hlen : 1024 ≤ s.fcl.store.length) (hlow : s.fcl.store.find? (fun z => decide (z.sev ≤ 1)) = some y)
    (hsev : 2 ≤ e.sev) : s.commitOldest = s.recordsAre rest (s.fcl.store.erase y ++ [e]) := by
  unfold State.commitOldest
  simp only [hbuf, if_neg (Nat.not_lt.mpr hlen), hlow, if_pos hsev]
  rfl

/-- A full partition with nothing to give up loses the new record. -/
theorem State.commitOldest_of_full (hlen : 1024 ≤ s.fcl.store.length) (hkeep : e.sev ≤ 1 ∨ ∀ z ∈ s.fcl.store, 2 ≤ z.sev) :
    s.commitOldest = ((s.recordsAre rest s.fcl.store).err Reg.FCL_SIG_DROPPED 0 0 1).raise 0x01 devUnit := by
  unfold State.commitOldest
  simp only [hbuf, if_neg (Nat.not_lt.mpr hlen)]
  cases hlow : s.fcl.store.find? (fun z => decide (z.sev ≤ 1)) with
  | none => rfl
  | some z =>
    have hz : z.sev ≤ 1 := by simpa using List.find?_some hlow
    have hnew : ¬2 ≤ e.sev := by
      rcases hkeep with h | h
      · omega
      · have := h z (List.mem_of_find?_eq_some hlow)
        omega
    exact if_neg hnew

/-- The loss of a record is counted and raised; the partition stays. -/
theorem commitOldest_loses (hc : s.calm) (hm : s.mild []) (hlen : 1024 ≤ s.fcl.store.length)
    (hkeep : e.sev ≤ 1 ∨ ∀ z ∈ s.fcl.store, 2 ≤ z.sev) :
    ∃ t, finish s.commitOldest = .next t ∧ t.fcl.store = s.fcl.store ∧ t.rf Reg.FCL_SRCn_STAT 0 0x01 31 31 = 1 ∧
      t = { s with regs := t.regs, fcl := t.fcl, freeCtr := t.freeCtr } := by
  have hpop : NestedKeeps s (s.recordsAre rest s.fcl.store) := .fcl s _ s.freeCtr rfl rfl rfl rfl rfl
  have hcount := State.nestedKeeps_err (hpop.mild (by simp) hm) Reg.FCL_SIG_DROPPED 0 (by decide) (by decide)
  have hcommit := State.commitOldest_of_full hbuf hlen hkeep
  generalize (s.recordsAre rest s.fcl.store).err Reg.FCL_SIG_DROPPED 0 0 1 = q at hcount hcommit
  have hkeeps := (hpop.trans hcount).toRaiseKeeps
  obtain ⟨hfin, heq, hstore, -, -, hpend, -⟩ := finish_raise (src := 0x01) (unit := devUnit) (hkeeps.calm hc) (by decide) (by decide)
    (hkeeps.mild (by decide) hm.full)
  generalize q.raise 0x01 devUnit = t at hcommit hfin heq hstore hpend
  refine ⟨t, (congrArg finish hcommit).trans hfin, hstore.trans hkeeps.store, hpend, ?_⟩
  rw [hkeeps.eq] at heq
  exact heq

/-- Where a write may start, the hold-up bank decides. -/
theorem exec_signatureCommit_of_waiting (hboot : s.pow.booted = true) (hw : s.writesOk = true) (hnv : s.nvWriting 0 = false) :
    exec .signatureCommit s = if s.holdup 200 then finish s.commitOldest else finish (s.holdupCheck 0 200) := by
  show execSignatureCommit s = _
  unfold execSignatureCommit
  simp only [hboot, hbuf, hw, hnv, List.isEmpty_cons]
  cases s.holdup 200 <;> rfl

end

/-- Records in order of their numbers are read as they stand, from a number on. -/
theorem sigRead_gives {s : State} {h : Hdr} {x : Session} {first count : Nat} (hc : s.calm) (ha : s.accepts h (opRowM 0x0172) false true true x)
    (hlow : 1 ≤ count) (hhigh : count ≤ 64) (hsorted : (s.fcl.store ++ s.fcl.buffer).Pairwise (fun a b => a.number ≤ b.number)) :
    Done (exec (.sigRead h first count) s) h 0x0172 (s.taken h)
      ((((s.fcl.store ++ s.fcl.buffer).filter (fun z => decide (first ≤ z.number))).take count).flatMap
        (SigRec.cper (s.identityPublic.getD []))) := by
  have hsort : (s.fcl.store ++ s.fcl.buffer).mergeSort (fun a b => decide (a.number ≤ b.number)) = s.fcl.store ++ s.fcl.buffer :=
    List.mergeSort_of_pairwise (hsorted.imp fun hab => decide_eq_true hab)
  have hrange : decide (1 ≤ count ∧ count ≤ 64) = true := decide_eq_true ⟨hlow, hhigh⟩
  show Done (execSigRead h first count s) h 0x0172 _ _
  rw [execSigRead, hrange]
  refine done_of_accepts hc ha ?_ rfl
  simp only [State.taken_fcl, hsort]
  rfl

end Sys2Proof.Machine
end

section
/-! SUPPORT. Fence requests and self-tests of the sluice (R137, R417, R418, R426), and the statement about the collector's own rows. -/

namespace Sys2Proof.Machine

section
variable {s : State} {h : Hdr} {x : Session} {site kind : Nat} (hc : s.calm)
include hc

section
variable (ha : s.accepts h (opRow 0x0170) false true true x) (hkind : kind ≤ 2)
include ha hkind

/-- A fence that stands already, with no request pending, is answered at once. -/
theorem fence_stands (hsite : site < nSites) (hst : s.rf Reg.RTR_FENCE site 0 1 0 = kind) (hidle : s.rf Reg.RTR_FENCE site 0 5 4 = 0)
    (hcore : kind = 1 → s.enabled site = true) : Done (exec (.fence h site kind) s) h 0x0170 (s.taken h) [] := by
  show Done (execFence h site kind s) h 0x0170 _ _
  have hthere : ¬kind = 1 ∨ (s.taken h).enabled site = true := Decidable.not_or_of_imp hcore
  rw [execFence, decide_eq_true hkind]
  exact done_of_accepts hc ha (if_pos ⟨hsite, hst, hidle, by simpa using hthere⟩) rfl

/-- A request that passes its checks is shown in its register and waits for its boundary. -/
theorem fence_waits (hst : s.rf Reg.RTR_FENCE site 0 1 0 ≠ kind) (hcheck : s.fenceCheck site kind = stOk) :
    exec (.fence h site kind) s = .next { (s.taken h).setRf Reg.RTR_FENCE site 0 5 4 (if kind = 0 then 3 else kind) with
      jobs := { s.jobs with fences := s.jobs.fences ++ [(site, replyTo h 0x0170)] } } := by
  show execFence h site kind s = _
  rw [execFence, decide_eq_true hkind, State.command_of_accepts ha]
  have hrest : ¬(site < nSites ∧ (s.taken h).rf Reg.RTR_FENCE site 0 1 0 = kind ∧ (s.taken h).rf Reg.RTR_FENCE site 0 5 4 = 0 ∧
      (!decide (kind = 1 ∧ (!(s.taken h).enabled site) = true)) = true) := fun hall => hst hall.2.1
  have hok : ¬(s.taken h).fenceCheck site kind ≠ stOk := not_not_intro hcheck
  simp only [if_neg hrest, if_neg hok]
  exact finish_of_calm hc rfl

end

/-- On a fenced core that runs no test, a self-test starts. -/
theorem selfTest_starts (ha : s.accepts h (opRow 0x0171) false true true x) (hen : s.enabled site = true) (hfence : s.fenced site = true)
    (hidle : s.testing site = false) : exec (.selfTest h site 1) s =
      .next { s.taken h with jobs := { s.jobs with selfTests := s.jobs.selfTests ++ [(site, replyTo h 0x0171)] } } := by
  show execSelfTest h site 1 s = _
  rw [execSelfTest, decide_eq_true rfl, State.command_of_accepts ha]
  have hthere : ¬(!(s.taken h).enabled site) = true := by
    show ¬(!s.enabled site) = true
    simp [hen]
  have hfree : ¬(!(s.taken h).fenced site || (s.taken h).testing site) = true := by
    show ¬(!s.fenced site || s.testing site) = true
    simp [hfence, hidle]
  simp only [if_neg hthere, if_neg hfree]
  exact finish_of_calm hc rfl

end

/-- The only self-test ends: it is answered with its outcome, and a pass is noted for the next boundary. -/
theorem exec_sluiceSelfTestDone_of_only {s : State} {site : Nat} {r : Reply} (htests : s.jobs.selfTests = [(site, r)]) (pass : Bool) :
    exec (.sluiceSelfTestDone site pass) s = .next
      (({ s with jobs := { s.jobs with selfTests := [], passed := if pass then s.jobs.passed ++ [site] else s.jobs.passed } } : State).answer
        r stOk [if pass then 0 else 1]) := by
  show execSluiceSelfTestDone site pass s = _
  have hfind : s.jobs.selfTests.find? (fun t => t.1 == site) = some (site, r) := by simp [htests]
  have hrest : s.jobs.selfTests.filter (fun t => t.1 != site) = [] := by simp [htests]
  simp only [execSluiceSelfTestDone, hfind, hrest]

/-- Settles O56, row by row: a commit with and without the bank's energy (R414, R456), a read of records (R416), a fence that stands and one
that waits (R417, R418), and a self-test from its start to its answer (R137, R426). -/
theorem recordsFencesAndSelfTests : Obligations.RecordsFencesAndSelfTests := by
  unfold Obligations.RecordsFencesAndSelfTests
  intro s h x e y rest r first count site kind pass hc u all
  refine ⟨fun hboot hbuf hw hnv => ?_, fun ha hlow hhigh hsorted => sigRead_gives hc ha hlow hhigh hsorted,
    fun ha hkind hsite => ⟨fun hst hidle hcore => fence_stands hc ha hkind hsite hst hidle hcore, fun hst hcheck => ?_⟩,
    fun ha hen hfence hidle => selfTest_starts hc ha hen hfence hidle, fun htests => exec_sluiceSelfTestDone_of_only htests pass⟩
  · rw [exec_signatureCommit_of_waiting hbuf hboot hw hnv]
    refine ⟨fun hbank => ?_, fun hbank hroom hm => ?_⟩
    · rw [if_pos hbank]
      refine ⟨fun hlen => ?_, fun hlen hlower hsev => ?_, fun hlen hkeep hm => commitOldest_loses hbuf hc hm hlen hkeep⟩
      · rw [State.commitOldest_of_room hbuf hlen]
        exact finish_of_calm (s := s.recordsAre rest (s.fcl.store ++ [e])) hc rfl
      · rw [State.commitOldest_of_lower hbuf hlen hlower hsev]
        exact finish_of_calm (s := s.recordsAre rest (s.fcl.store.erase y ++ [e])) hc rfl
    · rw [if_neg (by simp [hbank])]
      exact holdupCheck_defers hc (by decide) hbank hroom hm
  · refine ⟨_, fence_waits hc ha hkind hst hcheck, rfl, ?_, ?_, fun w hw => State.word_setReg_of_ne (s.taken h) _ _ _ _ _ hw⟩
    · refine (State.rf_setRf_self (s.taken h) _ _ _ _ _ (by decide)).trans (Nat.mod_eq_of_lt ?_)
      split <;> omega
    · exact State.rf_setRf_apart (s.taken h) _ _ _ _ (by decide) (by decide)

end Sys2Proof.Machine
end

section
/-! SUPPORT. The audit's arrivals and checks, and its verdicts (R123, R129 to R132, R363): what each row makes of the state, and the statement
about them. -/

namespace Sys2Proof.Machine

/-! ### Master columns -/

/-- A meaning that replaces one core and nothing else. -/
theorem coreIs_setCore (s : State) (site : Nat) (c : Core) : CoreIs (.next (s.setCore site c)) s site c :=
  ⟨_, rfl, rfl, fun _ hk => State.core_setCore_of_ne _ _ hk, State.core_setCore_self _ _ _⟩

/-- Where registers have changed besides one core: all else, every other core among it, stays. -/
theorem keeps_of_setCore_withRegs {s t : State} {site : Nat} {c : Core} (h : t = { s.setCore site c with regs := t.regs }) :
    t = { s with cores := t.cores, regs := t.regs } ∧ (∀ k, k ≠ site → t.core k = s.core k) ∧ t.core site = c := by
  generalize t.regs = g at h
  subst h
  exact ⟨rfl, fun _ hk => State.core_setCore_of_ne s c hk, State.core_setCore_self s site c⟩

theorem State.wide_withRegs (s : State) (f : RegFam) (i j n : Nat) : s.wide f i j n = { s with regs := (s.wide f i j n).regs } := rfl

/-- The gain counters are registers (R58). -/
theorem State.countGains_withRegs (s : State) (site : Nat) (e : EvalArr) (reads : Nat) :
    s.countGains site e reads = { s with regs := (s.countGains site e reads).regs } :=
  eq_withRegs_trans (eq_withRegs_trans (State.wide_withRegs _ _ _ _ _) (State.wide_withRegs _ _ _ _ _)) (State.wide_withRegs _ _ _ _ _)

section
variable {s : State} {site arr : Nat} {d : Draw} (hdraw : ((s.core site).arr arr).draw = some d)
include hdraw

/-- The drawn column of a tile whose master weights are lost does not arrive (R363). -/
theorem exec_masterColumnArrival_of_lost (hlost : s.masterLost ((s.core site).arr arr).holds = true) (poisoned : Bool) :
    exec (.masterColumnArrival site arr poisoned) s = .next s := by
  show execMasterColumnArrival site arr poisoned s = _
  simp only [execMasterColumnArrival, hdraw, hlost, if_true]

/-- Any other arrives (R123). -/
theorem masterColumnArrival_arrives (hc : s.calm) (hkept : s.masterLost ((s.core site).arr arr).holds = false) :
    CoreIs (exec (.masterColumnArrival site arr false) s) s site ((s.core site).setArr arr
      { (s.core site).arr arr with draw := some { d with arrived := true, poisoned := false } }) := by
  have hexec : exec (.masterColumnArrival site arr false) s = finish (s.setCore site ((s.core site).setArr arr
      { (s.core site).arr arr with draw := some { d with arrived := true, poisoned := false } })) := by
    show execMasterColumnArrival site arr false s = _
    simp only [execMasterColumnArrival, hdraw, hkept, Bool.false_eq_true, if_false]
    rfl
  rw [hexec, finish_of_calm hc (by rfl)]
  exact coreIs_setCore _ _ _

end

/-! ### Arbitrations -/

/-- The array still holds the tile that was audited, so that its evaluation can be repeated (R131). -/
def Core.canRepeat (c : Core) (a : Arb) : Prop := a.replaced = false ∧ (c.arr a.arr).fill = none ∧ (c.arr a.arr).holds = a.ev.holds

/-- The repeat's table, G and 1 ÷ G as they stand at its start (R107, R114). -/
def State.repeatOf (s : State) (site : Nat) (a : Arb) : EvalArr × F32 × F32 :=
  ((s.core site).evalStart a.ev, (s.core site).gDrift a.arr, BitVec.ofNat 32 (s.reg Reg.SLU_INV_Ga site a.arr))

/-- The core once its arbitration `a` runs, with or without a repeat. -/
def State.arbStarted (s : State) (site : Nat) (a : Arb) (rep : Option (EvalArr × F32 × F32)) : Core :=
  (s.core site).updArb (fun b => b == a) (fun b => { b with running := true, checker2 := s.secondChecker site a, c2 := [], rep := rep })

/-- The core once C2 of its arbitration `a` stands, off by `delta` where the checker is defective (R130). -/
def State.c2Formed (s : State) (site : Nat) (a : Arb) (delta : Int) : Core :=
  (s.core site).updArb (fun b => b == a) (fun b => { b with c2 := a.cols.map (fun y => exactSum y.master a.ev.q + delta) })

section
variable {s : State} {site : Nat} {a : Arb} (hopen : (s.core site).window = true) (hnone : ∀ b ∈ (s.core site).arbs, b.running = false)
  (hfirst : (s.core site).arbs.find? (fun b => (s.secondChecker site b).isSome) = some a)
include hopen hnone hfirst

/-- In the open window, with no arbitration running, the first that finds a checker starts (R129). -/
theorem exec_arbitrationStart_of_ready : exec (.arbitrationStart site) s =
    let ran := !a.replaced && ((s.core site).arr a.arr).fill.isNone && ((s.core site).arr a.arr).holds == a.ev.holds
    let t := s.setCore site (s.arbStarted site a (if ran then some (s.repeatOf site a) else none))
    .next (if ran then t.countGains site a.ev (if a.f.dr then 2 else 1) else t) := by
  show execArbitrationStart site s = _
  have hgo : ¬(!(s.core site).window || (s.core site).arbs.any (fun b => b.running)) = true := by simpa [hopen] using hnone
  unfold execArbitrationStart
  simp only [if_neg hgo, hfirst]
  rfl

/-- With a repeat, whose sub-phases count (R58). -/
theorem exec_arbitrationStart_of_canRepeat (hran : (s.core site).canRepeat a) : exec (.arbitrationStart site) s =
    .next ((s.setCore site (s.arbStarted site a (some (s.repeatOf site a)))).countGains site a.ev (if a.f.dr then 2 else 1)) := by
  obtain ⟨hkept, hfill, hholds⟩ := hran
  rw [exec_arbitrationStart_of_ready hopen hnone hfirst]
  simp [hkept, hfill, hholds]

/-- Without one, where the array has lost the tile. -/
theorem exec_arbitrationStart_of_not_canRepeat (hnot : ¬(s.core site).canRepeat a) : exec (.arbitrationStart site) s =
    .next (s.setCore site (s.arbStarted site a none)) := by
  have hran : (!a.replaced && ((s.core site).arr a.arr).fill.isNone && ((s.core site).arr a.arr).holds == a.ev.holds) = false := by
    rw [← Bool.not_eq_true]
    refine fun hall => hnot ?_
    simpa [Core.canRepeat, and_assoc] using hall
  rw [exec_arbitrationStart_of_ready hopen hnone hfirst, hran]
  rfl

end

/-- The checker of the running arbitration forms C2 from the retained operands, and counts once (R130). -/
theorem exec_peerCheck_of_running {s : State} {site p : Nat} {a : Arb}
    (hfirst : (s.core site).arbs.find? (fun b => b.running && b.c2.isEmpty) = some a) (hchecker : a.checker2 = some p) (delta : Int) :
    exec (.peerCheck site false delta) s = .next ((s.setCore site (s.c2Formed site a delta)).wide Reg.SLU_PEER_AUDITS p 0 1) := by
  show execPeerCheck site false delta s = _
  simp only [execPeerCheck, hfirst, hchecker, Bool.false_eq_true, if_false]
  rfl

/-! ### Verdicts -/

/-- The transient verdict counts, is raised, and is recorded whatever the mask (R131, R138, R415). -/
theorem State.applyVerdict_of_transient (s : State) (site : Nat) (a : Arb) {y : ArbCol} {c2 : Int} {rep : Option F32} (codes : List Byte)
    (hv : verdictOf y c2 rep = .transient) : s.applyVerdict site a y c2 rep codes =
      ((s.err Reg.SLU_TRANSIENT site 0 1).raise 0x18 site).captureAudit 0x18 site (auditRecord site a y .transient rep c2 codes) := by
  simp only [State.applyVerdict, hv]

/-- With both sums in, the arbitration leaves the list, audits of its array resume, and the verdicts follow in the order of the columns. -/
theorem exec_arbitrationVerdict_of_checked {s : State} {site : Nat} {a : Arb} (codes : List Byte)
    (hfirst : (s.core site).arbs.find? (fun b => b.running && !b.c2.isEmpty) = some a) :
    let c := s.core site
    let e : EvalIn := { f := a.f, s := a.s, p := a.p, tile := 0, stalled := false, since := 0, arrays := [a.ev] }
    let rep := fun (y : ArbCol) => a.rep.map (fun z =>
      meanRead ((readsOf z.2.1 z.2.2 e z.1 codes.toArray 0).map (fun r => r.analogue y.phys (y.col % 2 == 0))))
    let resumed := (s.setCore site { c with arbs := c.arbs.filter (fun b => b != a) }).updCore site
      (fun y => y.setArr a.arr { y.arr a.arr with suspended := false })
    let u := (a.cols.zip a.c2).foldl (fun (t : State) y => t.applyVerdict site a y.1 y.2 (rep y.1) codes) resumed
    exec (.arbitrationVerdict site codes) s = finish ((u.drawAudit site a.arr (isPair a.f.ww)).showResolving site) := by
  show execArbitrationVerdict site codes s = _
  simp only [execArbitrationVerdict, hfirst]

/-- Settles O27, row by row: what arrives (R123, R363), which arbitration starts and with what (R129, R131), the sum C2 (R130), and the verdicts
with their order and the effect of the transient one (R130 to R132). -/
theorem auditsAndVerdicts : Obligations.AuditsAndVerdicts := by
  unfold Obligations.AuditsAndVerdicts
  refine ⟨?_, ?_, fun x c2 v => ⟨rfl, fun heq => if_pos heq, fun hne => if_neg hne⟩⟩
  · intro s site arr delta hc c
    refine ⟨fun d hdraw => ⟨fun hlost => exec_masterColumnArrival_of_lost hdraw hlost false, masterColumnArrival_arrives hdraw hc⟩, ?_, ?_⟩
    · intro a hopen hnone hfirst ran r
      by_cases hran : c.canRepeat a
      · obtain ⟨hstate, hothers, hcore⟩ := keeps_of_setCore_withRegs (State.countGains_withRegs
          (s.setCore site (s.arbStarted site a (some (s.repeatOf site a)))) site a.ev (if a.f.dr then 2 else 1))
        exact ⟨_, exec_arbitrationStart_of_canRepeat hopen hnone hfirst hran, hstate, hothers, fun _ => hcore, fun hnot => absurd hran hnot⟩
      · obtain ⟨hstate, hothers, hcore⟩ := keeps_of_setCore_withRegs (t := s.setCore site (s.arbStarted site a none)) rfl
        exact ⟨_, exec_arbitrationStart_of_not_canRepeat hopen hnone hfirst hran, hstate, hothers, fun h => absurd h hran,
          fun _ => ⟨rfl, hcore⟩⟩
    · intro a p hfirst hchecker
      obtain ⟨hstate, hothers, hcore⟩ := keeps_of_setCore_withRegs (State.wide_withRegs
        (s.setCore site (s.c2Formed site a delta)) Reg.SLU_PEER_AUDITS p 0 1)
      exact ⟨_, exec_peerCheck_of_running hfirst hchecker delta, hstate, hothers, hcore, State.reg_wide_self _ _ _ _ _,
        fun w hw => State.word_setReg_of_ne _ _ _ _ _ _ hw⟩
  · intro s site codes a hfirst c e rep d u
    exact ⟨exec_arbitrationVerdict_of_checked codes hfirst, fun t y c2 rep hv => t.applyVerdict_of_transient site a codes hv⟩

end Sys2Proof.Machine
end

section
/-! SUPPORT. What one address of a byte memory reads after a write, and what a range outside the written one reads. -/

namespace Sys2Proof

/-- Of two maps in a row, the second gives what the first does not list. -/
theorem SMap.get_append {α : Type} (l r : SMap α) (d : α) (k : Nat) : SMap.get (l ++ r) d k = SMap.get l (SMap.get r d k) k := by
  induction l with
  | nil => rfl
  | cons c t ih => simp only [List.cons_append, SMap.get, ih]

/-- The cells of a list of bytes at one address, those that are 0 left out. -/
theorem Mem.get_cells (bs : List Byte) {b : Nat} :
    ∀ a, a ≤ b → SMap.get (((bs.zipIdx a).map (fun x => (x.2, x.1))).filter (fun c => decide (c.2 ≠ 0))) 0 b = bs.getD (b - a) 0 := by
  induction bs with
  | nil => exact fun _ _ => rfl
  | cons x t ih =>
    intro a hab
    simp only [List.zipIdx_cons, List.map_cons]
    rcases Nat.eq_or_lt_of_le hab with rfl | hlt
    · have hrest : SMap.get (((t.zipIdx (a + 1)).map (fun x => (x.2, x.1))).filter (fun c => decide (c.2 ≠ 0))) 0 a = 0 := by
        refine SMap.get_of_notMem _ _ _ fun c hc => ?_
        have := (Mem.mem_cells (List.mem_filter.mp hc).1).1
        omega
      by_cases hx : x = 0
      · rw [List.filter_cons_of_neg (by simpa using hx), hrest, hx]
        simp
      · rw [List.filter_cons_of_pos (by simpa using hx)]
        simp [SMap.get]
    · have hskip : SMap.get (((a, x) :: (t.zipIdx (a + 1)).map (fun x => (x.2, x.1))).filter (fun c => decide (c.2 ≠ 0))) 0 b =
          SMap.get (((t.zipIdx (a + 1)).map (fun x => (x.2, x.1))).filter (fun c => decide (c.2 ≠ 0))) 0 b := by
        by_cases hx : x = 0
        · rw [List.filter_cons_of_neg (by simpa using hx)]
        · rw [List.filter_cons_of_pos (by simpa using hx), SMap.get, if_neg (by omega)]
      rw [hskip, ih (a + 1) hlt, show b - a = b - (a + 1) + 1 by omega, List.getD_cons_succ]

/-- One byte after a write: what was written there, or what stood there before. -/
theorem Mem.get_write (m : Mem) (a : Nat) (bs : List Byte) (b : Nat) :
    Mem.get (Mem.write m a bs) b = if a ≤ b ∧ b < a + bs.length then bs.getD (b - a) 0 else Mem.get m b := by
  have hlow : a ≤ b → ∀ d, SMap.get (m.filter (fun c => decide (c.1 < a))) d b = d := fun hab d =>
    SMap.get_of_notMem _ d b fun c hc => by
      have := of_decide_eq_true (List.mem_filter.mp hc).2
      omega
  have hmid : b < a ∨ a + bs.length ≤ b → ∀ d,
      SMap.get (((bs.zipIdx a).map (fun x => (x.2, x.1))).filter (fun c => decide (c.2 ≠ 0))) d b = d := fun hout d =>
    SMap.get_of_notMem _ d b fun c hc => by
      have := Mem.mem_cells (List.mem_filter.mp hc).1
      omega
  have hhigh : b < a + bs.length → SMap.get (m.filter (fun c => decide (a + bs.length ≤ c.1))) 0 b = 0 := fun hb =>
    SMap.get_of_notMem _ 0 b fun c hc => by
      have := of_decide_eq_true (List.mem_filter.mp hc).2
      omega
  rw [Mem.get, Mem.write, SMap.get_append, SMap.get_append]
  rcases Nat.lt_or_ge b a with hbelow | hab
  · rw [if_neg (by omega), hhigh (by omega), hmid (.inl hbelow)]
    exact SMap.get_filter m 0 b _ fun c _ e => decide_eq_true (e ▸ hbelow)
  · rw [hlow hab]
    rcases Nat.lt_or_ge b (a + bs.length) with hin | habove
    · rw [if_pos ⟨hab, hin⟩, hhigh hin, Mem.get_cells bs a hab]
    · rw [if_neg (by omega), hmid (.inr habove)]
      exact SMap.get_filter m 0 b _ fun c _ e => decide_eq_true (e ▸ habove)

/-- Cells outside a range do not count for it. -/
theorem Mem.filter_range_of_outside {l : Mem} {b n : Nat} (h : ∀ c ∈ l, c.1 < b ∨ b + n ≤ c.1) :
    l.filter (fun c => decide (b ≤ c.1) && decide (c.1 < b + n)) = [] := by
  refine List.filter_eq_nil_iff.mpr fun c hc => ?_
  have := h c hc
  simp only [Bool.and_eq_true, decide_eq_true_eq]
  omega

/-- A filter that keeps every address of a range leaves the range's cells. -/
theorem Mem.filter_range_of_keeps (m : Mem) {b n : Nat} {p : Host.Cell → Bool} (h : ∀ c : Host.Cell, b ≤ c.1 → c.1 < b + n → p c = true) :
    (m.filter p).filter (fun c => decide (b ≤ c.1) && decide (c.1 < b + n)) =
      m.filter (fun c => decide (b ≤ c.1) && decide (c.1 < b + n)) := by
  rw [List.filter_filter]
  refine List.filter_congr fun c _ => ?_
  by_cases hc : b ≤ c.1 ∧ c.1 < b + n
  · simp [h c hc.1 hc.2]
  · simp [hc]

/-- A range outside the written one reads as before. -/
theorem Mem.read_write_of_disjoint (m : Mem) (a : Nat) (bs : List Byte) {b n : Nat} (h : b + n ≤ a ∨ a + bs.length ≤ b) :
    Mem.read (Mem.write m a bs) b n = Mem.read m b n := by
  have hmid : (((bs.zipIdx a).map (fun x => (x.2, x.1))).filter (fun c => decide (c.2 ≠ 0))).filter
      (fun c => decide (b ≤ c.1) && decide (c.1 < b + n)) = [] := Mem.filter_range_of_outside fun c hc => by
    have := Mem.mem_cells (List.mem_filter.mp hc).1
    omega
  rw [Mem.read, Mem.write, List.filter_append, List.filter_append, hmid, List.append_nil, Mem.read]
  rcases h with hbefore | hafter
  · have hhigh := Mem.filter_range_of_outside (l := m.filter (fun c => decide (a + bs.length ≤ c.1))) (b := b) (n := n) fun c hc => by
      have := of_decide_eq_true (List.mem_filter.mp hc).2
      omega
    rw [hhigh, List.append_nil, Mem.filter_range_of_keeps m fun c _ hlt => decide_eq_true (by omega)]
  · have hlow := Mem.filter_range_of_outside (l := m.filter (fun c => decide (c.1 < a))) (b := b) (n := n) fun c hc => by
      have := of_decide_eq_true (List.mem_filter.mp hc).2
      omega
    rw [hlow, List.nil_append, Mem.filter_range_of_keeps m fun c hle _ => decide_eq_true (by omega)]

end Sys2Proof

namespace Sys2Proof.Machine

/-- Settles O5: the cells of a write lie between those that it keeps, in rising order, and spell what was written. -/
theorem memoryReadsWhatWasWritten : Obligations.MemoryReadsWhatWasWritten := by
  unfold Obligations.MemoryReadsWhatWasWritten
  exact fun m a bs hwf => ⟨Mem.wf_write a bs hwf, Mem.read_write_self m a bs,
    fun _ _ hout => Mem.read_write_of_disjoint m a bs hout, Mem.get_write m a bs⟩

end Sys2Proof.Machine
end

section
/-! SUPPORT. Lists cut into pieces, and the entries of a tile. -/

namespace Sys2Proof

/-- A list that holds `m` pieces of `n` elements, cut. -/
theorem chunks_eq_map_range {α : Type} {n : Nat} (hn : 0 < n) (m : Nat) :
    ∀ (l : List α) (fuel : Nat), l.length = n * m → m ≤ fuel → chunks n l fuel = (List.range m).map (fun k => (l.drop (n * k)).take n) := by
  induction m with
  | zero =>
    intro l fuel hl _
    obtain rfl : l = [] := List.eq_nil_of_length_eq_zero hl
    cases fuel <;> rfl
  | succ m ih =>
    intro l fuel hl hf
    obtain ⟨fuel, rfl⟩ : ∃ k, fuel = k + 1 := ⟨fuel - 1, by omega⟩
    rw [Nat.mul_add_one] at hl
    have hne : ¬l.isEmpty = true := by
      rw [List.isEmpty_iff]
      rintro rfl
      simp only [List.length_nil] at hl
      omega
    rw [chunks, if_neg hne, ih (l.drop n) fuel (by simp [hl]) (by omega), List.range_succ_eq_map, List.map_cons, List.map_map]
    simp [Function.comp_def, Nat.mul_add_one, Nat.add_comm n]

end Sys2Proof

namespace Sys2Proof.Machine

/-- A read of `n` entries gives `n`, wherever it starts. -/
@[simp] theorem Core.length_entries (c : Core) (t first n : Nat) : (c.entries t first n).length = n := by
  rw [Core.entries, chunks_eq_map_range (by decide) n _ n (Mem.length_read _ _ _) le_rfl]
  simp

end Sys2Proof.Machine
end

section
/-! SUPPORT. `WAITR` and `RSEND` (R153, R157, R169, R196, R205). -/

namespace Sys2Proof.Machine

/-! ### `WAITR` -/

/-- A root that holds nothing back has nothing to deliver (R150). -/
theorem State.drainRoot_of_empty {s : State} {site : Nat} (h : (s.core site).redHold = []) (fuel : Nat) : s.drainRoot site fuel = s := by
  cases fuel with
  | zero => rfl
  | succ fuel => simp [State.drainRoot, h]

/-- A wait takes nothing from the root. -/
@[simp] theorem Core.settleWaitr_redHold (c : Core) : c.settleWaitr.redHold = c.redHold := by
  unfold Core.settleWaitr
  split
  · split <;> rfl
  · rfl

/-- The use has been delivered: the wait completes (R157). -/
theorem Core.settleWaitr_of_mem {c : Core} {tree use : Nat} (h : (tree, use) ∈ c.redIn) :
    { c with run := .waitRed tree use }.settleWaitr = { c with run := .issue, redWaited := c.redWaited ++ [(tree, use)] } := by
  simp [Core.settleWaitr, h]

/-- The use has not been delivered: the wait goes on. -/
theorem Core.settleWaitr_of_notMem {c : Core} {tree use : Nat} (h : (tree, use) ∉ c.redIn) :
    { c with run := .waitRed tree use }.settleWaitr = { c with run := .waitRed tree use } := by
  simp [Core.settleWaitr, h]

/-- A core that waits for a use at a root that holds nothing back. -/
theorem exec_waitr_of_runs {s : State} {x : Issue} (h : s.runs x) (tree use : BitVec 8) (ustep : BitVec 4)
    (hhold : (s.core x.site).redHold = []) :
    CoreNext (exec (.waitr x tree use ustep) s) s x.site
      { s.core x.site with run := .waitRed tree.toNat (use.toNat + ustep.toNat * (s.core x.site).stepIdx x) }.settleWaitr := by
  refine coreNext_of ?_
  rw [State.issue_of_runs _ h, State.drainRoot_of_empty]
  · rfl
  · rw [State.core_updCore_self, Core.settleWaitr_redHold, hhold]

/-! ### `RSEND` -/

/-- The flits of a packet that has all its pairs (R153, R205). -/
theorem rsendFlits_eq (f : AccF) (i : Nat) {pairs : List (F32 × F32)} (h : pairs.length = 64 * (f.flm1.toNat + 1)) :
    rsendFlits f i pairs = (List.range (f.flm1.toNat + 1)).map (fun k =>
      { tree := f.tree.toNat, use := f.use.toNat + f.ustep.toNat * i, tile := f.td.toNat + f.tstep.toNat * i,
        seg := 64 * f.segq.toNat, flits := f.flm1.toNat + 1, k := k, pairs := (pairs.drop (64 * k)).take 64 }) := by
  rw [rsendFlits, chunks_eq_map_range (by decide) _ _ _ h (by omega)]
  refine List.ext_getElem (by simp) fun k _ _ => ?_
  simp [accDst, stepIx]

/-- The pairs that `RSEND` sends: its tile's, and (+0, +0) throughout where it is predicated off (R169, R205). -/
def Core.rsendPairs (c : Core) (x : Issue) (f : AccF) : List (F32 × F32) :=
  if c.on x.pred then c.entries (accSrc f (c.stepIdx x)) (64 * f.segq.toNat) (64 * (f.flm1.toNat + 1))
  else List.replicate (64 * (f.flm1.toNat + 1)) (0, 0)

theorem Core.length_rsendPairs (c : Core) (x : Issue) (f : AccF) : (c.rsendPairs x f).length = 64 * (f.flm1.toNat + 1) := by
  unfold Core.rsendPairs
  split
  · exact c.length_entries _ _ _
  · exact List.length_replicate

/-- `RSEND` sends its packet whether its predicate lets it run or not (R169). -/
theorem exec_rsend_of_canIssue {s : State} {x : Issue} {f : AccF} (h : s.canIssue x.site = true)
    (hfree : (s.core x.site).tilesFree [accSrc f ((s.core x.site).stepIdx x)]) :
    exec (.rsend x f) s = .next ((s.sendRed x.site (rsendFlits f ((s.core x.site).stepIdx x) ((s.core x.site).rsendPairs x f))).updCore
      x.site Core.advance) := by
  show execRsend x f s = _
  rw [execRsend, State.issueTiles_of_free _ _ _ hfree, Core.rsendPairs]
  cases hon : (s.core x.site).on x.pred with
  | true => rw [State.issueWith_of_runs _ _ ⟨h, hon⟩, if_pos rfl]
  | false => rw [State.issueWith_of_predOff _ _ ⟨h, hon⟩, if_neg Bool.false_ne_true]

end Sys2Proof.Machine
end

section
/-! SUPPORT. `REDUCTION_FLIT_ARRIVAL` (R154, R158, R195): a flit that joins its context and completes nothing, and the statement about
reductions. -/

namespace Sys2Proof.Machine

/-- The context that a flit joins, or opens (R154). -/
def Core.redJoined (c : Core) (port : Nat) (f : RedFlit) : RedCtx :=
  match c.reds.find? (fun y => y.tree == f.tree && y.use == f.use) with
  | some y => { y with got := y.got ++ [(port, f)] }
  | none => { tree := f.tree, use := f.use, got := [(port, f)], merged := 0 }

/-- The core's contexts once a flit has joined its own. -/
def Core.joinRed (c : Core) (port : Nat) (f : RedFlit) : Core :=
  { c with reds := c.reds.filter (fun y => !(y.tree == f.tree && y.use == f.use)) ++ [c.redJoined port f] }

theorem Core.redJoined_of_some {c : Core} {f : RedFlit} {y : RedCtx} (port : Nat)
    (h : c.reds.find? (fun y => y.tree == f.tree && y.use == f.use) = some y) : c.redJoined port f = { y with got := y.got ++ [(port, f)] } := by
  simp only [Core.redJoined, h]

theorem Core.redJoined_of_none {c : Core} {f : RedFlit} (port : Nat)
    (h : c.reds.find? (fun y => y.tree == f.tree && y.use == f.use) = none) :
    c.redJoined port f = { tree := f.tree, use := f.use, got := [(port, f)], merged := 0 } := by
  simp only [Core.redJoined, h]

/-- The context is that of the flit's use. -/
theorem Core.redJoined_use (c : Core) (port : Nat) (f : RedFlit) :
    ((c.redJoined port f).tree == f.tree && (c.redJoined port f).use == f.use) = true := by
  cases h : c.reds.find? (fun y => y.tree == f.tree && y.use == f.use) with
  | none => simp [Core.redJoined_of_none port h]
  | some y =>
    have huse := List.find?_some h
    rw [Core.redJoined_of_some port h]
    exact huse

/-- After a flit has joined, its use's context is found. -/
theorem Core.find?_joinRed (c : Core) (port : Nat) (f : RedFlit) :
    (c.joinRed port f).reds.find? (fun y => y.tree == f.tree && y.use == f.use) = some (c.redJoined port f) := by
  have hothers : (c.reds.filter (fun y => !(y.tree == f.tree && y.use == f.use))).find? (fun y => y.tree == f.tree && y.use == f.use) = none := by
    refine List.find?_eq_none.mpr fun y hy hmatch => ?_
    simpa [hmatch] using (List.mem_filter.mp hy).2
  rw [Core.joinRed, List.find?_append, hothers, Option.none_or, List.find?_singleton, if_pos (c.redJoined_use port f)]

/-- While a child's flit of the next number is missing, a node merges nothing (R154). -/
theorem State.mergeNode_of_waiting {s : State} {site tree use : Nat} {n : RedNode} {x : RedCtx}
    (hctx : (s.core site).reds.find? (fun y => y.tree == tree && y.use == use) = some x) (hwait : childFlits n.order x.got x.merged = none)
    (fuel : Nat) : s.mergeNode site n tree use fuel = s := by
  cases fuel with
  | zero => rfl
  | succ fuel => simp only [State.mergeNode, hctx, hwait]

/-- A flit that its node expects and that completes no flit number. -/
theorem State.redArrive_of_waiting {s : State} {site port : Nat} {f : RedFlit} {n : RedNode} (hfence : s.rf Reg.RTR_FENCE site 0 1 0 ≠ 2)
    (hnode : s.redNode site f.tree = some n) (hstray : s.stray site port f = false)
    (hwait : childFlits n.order ((s.core site).redJoined port f).got ((s.core site).redJoined port f).merged = none) :
    s.redArrive site port f = s.setCore site ((s.core site).joinRed port f) := by
  have harrive : s.redArrive site port f = (s.setCore site ((s.core site).joinRed port f)).mergeNode site n f.tree f.use 8 := by
    rw [State.redArrive, if_neg hfence, if_neg (by simp [hstray]), hnode]
    rfl
  have hctx : ((s.setCore site ((s.core site).joinRed port f)).core site).reds.find? (fun y => y.tree == f.tree && y.use == f.use) =
      some ((s.core site).redJoined port f) := by
    rw [State.core_setCore_self, Core.find?_joinRed]
  rw [harrive, State.mergeNode_of_waiting hctx hwait]

/-- A stray flit (R158). -/
theorem State.redArrive_of_stray {s : State} {site port : Nat} {f : RedFlit} (hfence : s.rf Reg.RTR_FENCE site 0 1 0 ≠ 2)
    (hstray : s.stray site port f = true) :
    s.redArrive site port f = if f.k = 0 then (s.err Reg.RTR_RED_STRAY site 0 1).raise 0x21 site else s := by
  rw [State.redArrive, if_neg hfence, if_pos hstray]

/-- A core replaced, whose barrier is then looked at (R195). -/
theorem coreIs_settleBarrier {s : State} (hc : s.calm) (site : Nat) (c : Core) :
    CoreIs (finish ((s.setCore site c).settleBarrier site)) s site
      { c with run := if c.run = .barrier ∧ c.evals = [] ∧ c.arrQ = [] ∧ s.localFlits site = false then .arrived else c.run } := by
  obtain ⟨hstate, hothers, hcore⟩ := (s.setCore site c).settleBarrier_spec site
  rw [State.core_setCore_self] at hcore
  refine ⟨_, finish_of_calm hc (by rw [hstate]; rfl), hstate, fun k hk => ?_, hcore⟩
  rw [hothers k hk, State.core_setCore_of_ne _ _ hk]

/-- The flit leaves those under way and reaches its port; then the core's barrier is looked at. -/
theorem exec_reductionFlitArrival_of_site {s : State} {site : Nat} (h : site < nSites) (port : Nat) (f : RedFlit) :
    exec (.reductionFlitArrival site port f) s =
      finish (({ s with flits := s.flits.erase { hop := .router site port, flit := f } }.redArrive site port f).settleBarrier site) := by
  show execReductionFlitArrival site port f s = _
  rw [execReductionFlitArrival, if_pos h]

/-- Settles O18: a wait that completes or goes on (R157), the flits of a packet (R153), and a flit that joins its context or is discarded
(R154, R158). -/
theorem reductionTraffic : Obligations.ReductionTraffic := by
  unfold Obligations.ReductionTraffic
  refine ⟨⟨?_, ?_⟩, ?_⟩
  · intro s x tree use ustep h c u hhold
    have hnext := exec_waitr_of_runs h tree use ustep hhold
    exact ⟨fun hin => Core.settleWaitr_of_mem hin ▸ hnext, fun hout => Core.settleWaitr_of_notMem hout ▸ hnext⟩
  · intro s x f h c i n ta pairs flits hfree
    rw [exec_rsend_of_canIssue h hfree, rsendFlits_eq f _ (Core.length_rsendPairs _ _ _), State.sendRed, List.map_map]
    rfl
  · intro s site port f hsite hc hfence c t
    have hexec : exec (.reductionFlitArrival site port f) s = finish ((t.redArrive site port f).settleBarrier site) :=
      exec_reductionFlitArrival_of_site hsite port f
    rw [hexec]
    refine ⟨fun n hnode hstray hsome hnone => ?_, fun hstray => ?_⟩
    · have hwait : childFlits n.order (c.redJoined port f).got (c.redJoined port f).merged = none := by
        cases hctx : c.reds.find? (fun y => y.tree == f.tree && y.use == f.use) with
        | none => simpa only [Core.redJoined_of_none port hctx] using hnone hctx
        | some y => simpa only [Core.redJoined_of_some port hctx] using hsome y hctx
      have harrive : t.redArrive site port f = t.setCore site (c.joinRed port f) := State.redArrive_of_waiting hfence hnode hstray hwait
      rw [harrive]
      exact coreIs_settleBarrier (s := t) hc site (c.joinRed port f)
    · have harrive : t.redArrive site port f = if f.k = 0 then (t.err Reg.RTR_RED_STRAY site 0 1).raise 0x21 site else t :=
        State.redArrive_of_stray hfence hstray
      rw [harrive, finish_eq]

end Sys2Proof.Machine
end

section
/-! SUPPORT. The accumulator instructions (R143 to R146, R203, R204), compensated arithmetic (R144, R145), and the statement about them. -/

namespace Sys2Proof.Machine

/-! ### Compensated arithmetic -/

/-- A sum that is not finite, and a finite sum whose error term is not (R145). -/
theorem settlePair_eq (s e : F32) :
    settlePair s e = if F32.isFin s = false then ((if F32.isNan s then F32.nan else s), 0)
      else if F32.isFin e = false then (F32.add s e, 0) else (s, e) := by
  simp only [settlePair, Bool.not_eq_true']

/-- The new error term is the old one and the rounding error of the sum (R144). -/
theorem accumulate_eq (s1 e1 x : F32) :
    accumulate (s1, e1) x = settlePair (F32.add s1 x) (F32.add e1 (twoSum s1 x).2) := rfl

theorem mergePair_eq (s1 e1 s2 e2 : F32) :
    mergePair (s1, e1) (s2, e2) = settlePair (F32.add s1 s2) (F32.add (F32.add e1 e2) (twoSum s1 s2).2) := rfl

/-! ### Issue -/

section
variable {s : State} {x : Issue} {tiles : Nat → List Nat} (h : s.runs x)
  (hfree : (s.core x.site).tilesFree (tiles ((s.core x.site).stepIdx x)))
include h hfree

/-- An accumulator instruction that runs and whose tiles are free (R179). -/
theorem State.issueAcc_of_free (f : State → Nat → State) :
    s.issueAcc x tiles f = (f s ((s.core x.site).stepIdx x)).updCore x.site Core.advance := by
  rw [State.issueAcc, State.issueTiles_of_free _ _ _ hfree, State.issueWith_of_runs _ _ h]

/-- One whose effect lies in its core alone. -/
theorem coreNext_issueAcc (f : Core → Nat → Core) :
    CoreNext (.next (s.issueAcc x tiles (fun t i => t.updCore x.site (fun c => f c i)))) s x.site
      (f (s.core x.site) ((s.core x.site).stepIdx x)) := by
  rw [State.issueAcc_of_free h hfree]
  exact coreNext_of rfl

/-- One that replaces its core and counts in an error counter with room. -/
theorem countNext_issueAcc {f : State → Nat → State} {c : Core} {g : RegFam} {n : Nat} (hc : s.calm) (hr : s.room g 0 0 n)
    (hf : f s ((s.core x.site).stepIdx x) = (s.setCore x.site c).err g 0 0 n) :
    CountNext (finish (s.issueAcc x tiles f)) s x.site c g 0 0 n := by
  rw [State.issueAcc_of_free h hfree, hf]
  exact countNext_of hc hr

end

/-! ### The statement -/

/-- Settles O9: moves and settings replace their core (R143, R203); merges, accumulations and resolutions replace it and count (R144 to R146,
R204); the arithmetic is TwoSum with the limits of R145. -/
theorem accumulatorInstructionResults : Obligations.AccumulatorInstructionResults := by
  unfold Obligations.AccumulatorInstructionResults
  refine ⟨fun s x f h => ⟨fun hfree => ?_, fun hfree => ?_⟩,
    fun s x f h hc => ⟨fun hfree hr => ?_, fun hfree hr => ?_, fun fm hfm hfree hr => ?_⟩, fun s1 e1 x e2 => ⟨?_, ?_⟩⟩
  -- `ACLR`, `ASETV`, `ALDV`, `ALDS` into a tile; `ASTV`, `ASTS` out of one; then those that count
  · exact ⟨coreNext_issueAcc h hfree _, coreNext_issueAcc h hfree _, coreNext_issueAcc h hfree _, coreNext_issueAcc h hfree _⟩
  · exact ⟨coreNext_issueAcc h hfree _, coreNext_issueAcc h hfree _⟩
  · exact countNext_issueAcc h hfree hc hr rfl
  · exact countNext_issueAcc h hfree hc hr rfl
  · refine countNext_issueAcc h hfree hc hr ?_
    simp only [hfm]
    rfl
  · rw [accumulate_eq, settlePair_eq]
    rfl
  · rw [mergePair_eq, settlePair_eq]
    rfl

end Sys2Proof.Machine
end

section
/-! SUPPORT. Instructions that are predicated off (R169): what each shape of issue makes of the state, what an instruction waits for even so
(R179, R192), and the statement about them. -/

namespace Sys2Proof.Machine

/-! ### What an instruction waits for -/

/-- The instructions that go through the array unit's queue (R192). -/
def usesQueue : Instr → Bool
  | .eval .. | .fill .. | .sdesc .. => true
  | _ => false

/-- What an instruction waits for before it issues, predicated off or not: room in the array unit's queue (R192), and but for `EVAL`, whose
queue sees to it, the tiles that it names (R179). -/
def waitsToIssue (i : Instr) (x : Issue) (c : Core) : Prop :=
  (((∃ f, i = .eval x f) ∨ (∃ f l, i = .fill x f l) ∨ ∃ f, i = .sdesc x f) ∧ 8 ≤ c.arrQ.length) ∨
    (¬(∃ f, i = .eval x f) ∧ ¬c.tilesFree (ownTiles i (c.stepIdx x)))

theorem Core.tilesFree_nil (c : Core) : c.tilesFree [] := rfl

section
variable {i : Instr} {x : Issue} {c : Core}

/-- An instruction outside the array unit's queue waits for its tiles alone. -/
theorem waitsToIssue_of_not_usesQueue (h : usesQueue i = false) : waitsToIssue i x c ↔ ¬c.tilesFree (ownTiles i (c.stepIdx x)) := by
  have heval : ¬∃ f, i = .eval x f := by rintro ⟨f, rfl⟩; exact nomatch h
  have hfill : ¬∃ f l, i = .fill x f l := by rintro ⟨f, l, rfl⟩; exact nomatch h
  have hsdesc : ¬∃ f, i = .sdesc x f := by rintro ⟨f, rfl⟩; exact nomatch h
  simp only [waitsToIssue, heval, hfill, hsdesc, or_self, false_and, false_or, not_false_eq_true, true_and]

/-- One of the array unit waits for room in the queue alone. -/
theorem waitsToIssue_of_queued (hform : (∃ f, i = .eval x f) ∨ (∃ f l, i = .fill x f l) ∨ ∃ f, i = .sdesc x f) :
    waitsToIssue i x c ↔ 8 ≤ c.arrQ.length := by
  have htiles : ¬(¬(∃ f, i = .eval x f) ∧ ¬c.tilesFree (ownTiles i (c.stepIdx x))) := by
    rintro ⟨heval, htiles⟩
    obtain hf | ⟨f, l, rfl⟩ | ⟨f, rfl⟩ := hform
    · exact heval hf
    · exact htiles c.tilesFree_nil
    · exact htiles c.tilesFree_nil
  simp only [waitsToIssue, hform, htiles, true_and, or_false]

end

/-! ### The shapes of issue -/

/-- The outcome is that of an instruction predicated off: the core moves on, or waits and everything stays. -/
def OffOut (o : Out) (s : State) (x : Issue) (waits : Prop) : Prop :=
  (¬waits → o = .next (s.updCore x.site Core.advance)) ∧ (waits → o = .next s)

section
variable {s : State} {x : Issue} (hc : s.calm) (hoff : s.predOff x)
include hoff

theorem State.issue_of_predOff (f : State → Nat → State) : s.issue x f = s.updCore x.site Core.advance :=
  State.issueWith_of_predOff f _ hoff

/-- Issue that waits for nothing, of an instruction that names no tile. -/
theorem offOut_next {i : Instr} {f : State → Nat → State} (hexec : exec i s = .next (s.issue x f)) (hq : usesQueue i = false)
    (ht : ∀ n, ownTiles i n = []) : OffOut (exec i s) s x (waitsToIssue i x (s.core x.site)) := by
  have hnot : ¬waitsToIssue i x (s.core x.site) := by
    rw [waitsToIssue_of_not_usesQueue hq, ht]
    exact not_not_intro (Core.tilesFree_nil _)
  rw [hexec, State.issue_of_predOff hoff]
  exact ⟨fun _ => rfl, fun hw => absurd hw hnot⟩

/-- The same of one whose effect lies in its core alone. -/
theorem offOut_core {i : Instr} {f : Core → Nat → Core} (hexec : exec i s = .next (s.issueCore x f)) (hq : usesQueue i = false)
    (ht : ∀ n, ownTiles i n = []) : OffOut (exec i s) s x (waitsToIssue i x (s.core x.site)) := offOut_next hoff hexec hq ht

/-- Issue that waits for the tiles that the instruction names (R179). -/
theorem offOut_acc {i : Instr} {f : State → Nat → State} (hexec : exec i s = .next (s.issueAcc x (ownTiles i) f)) (hq : usesQueue i = false) :
    OffOut (exec i s) s x (waitsToIssue i x (s.core x.site)) := by
  rw [waitsToIssue_of_not_usesQueue hq, hexec]
  refine ⟨fun hfree => ?_, fun hbusy => ?_⟩
  · rw [State.issueAcc, State.issueTiles_of_free _ _ _ (not_not.mp hfree), State.issueWith_of_predOff _ _ hoff]
  · rw [State.issueAcc, State.issueTiles, if_pos (Bool.not_eq_false _ ▸ hbusy)]

theorem State.issueArr_of_predOff (f : State → Nat → State) :
    s.issueArr x f = if 8 ≤ (s.core x.site).arrQ.length then s else s.updCore x.site Core.advance := by
  rw [State.issueArr, State.issue_of_predOff hoff]

omit hoff in
/-- Issue that waits for room in the array unit's queue (R192). -/
theorem offOut_arr {i : Instr} (hexec : exec i s = .next (if 8 ≤ (s.core x.site).arrQ.length then s else s.updCore x.site Core.advance))
    (hform : (∃ f, i = .eval x f) ∨ (∃ f l, i = .fill x f l) ∨ ∃ f, i = .sdesc x f) :
    OffOut (exec i s) s x (waitsToIssue i x (s.core x.site)) := by
  rw [waitsToIssue_of_queued hform, hexec]
  exact ⟨fun hroom => by rw [if_neg hroom], fun hfull => by rw [if_pos hfull]⟩

/-- Predicated off, an instruction reaches no memory, so that an address that is none stops nothing. -/
theorem State.memGuard_of_predOff (addr : Nat → Nat) (n : Nat) (t : State) : s.memGuard x addr n t = finish t := by
  obtain ⟨-, hpred⟩ := hoff
  simp [State.memGuard, hpred]

include hc

/-- A calm state has nothing to settle where an instruction predicated off has been issued. -/
theorem finish_issue_of_predOff (f : State → Nat → State) : finish (s.issue x f) = .next (s.issue x f) := by
  rw [State.issue_of_predOff hoff]
  exact finish_of_calm hc rfl

theorem finish_issueAcc_of_predOff (tiles : Nat → List Nat) (f : State → Nat → State) :
    finish (s.issueAcc x tiles f) = .next (s.issueAcc x tiles f) := by
  rw [State.issueAcc, State.issueTiles]
  split
  · exact finish_of_calm hc rfl
  · rw [State.issueWith_of_predOff _ _ hoff]
    exact finish_of_calm hc rfl

theorem finish_issueArr_of_predOff (f : State → Nat → State) :
    finish (s.issueArr x f) = .next (if 8 ≤ (s.core x.site).arrQ.length then s else s.updCore x.site Core.advance) := by
  rw [State.issueArr_of_predOff hoff]
  split
  · exact finish_of_calm hc rfl
  · exact finish_of_calm hc rfl

/-! ### The instructions -/

theorem exec_fill_of_predOff (f : FillF) (l : List Nat) :
    exec (.fill x f l) s = .next (if 8 ≤ (s.core x.site).arrQ.length then s else s.updCore x.site Core.advance) := by
  show execFill x f l s = _
  rw [execFill, State.memGuard_of_predOff hoff, finish_issueArr_of_predOff hc hoff]

/-- Every instruction but `RSEND`, by the shape of its issue. -/
theorem exec_of_predOff {i : Instr} (hi : issueOf i = some x) : OffOut (exec i s) s x (waitsToIssue i x (s.core x.site)) := by
  cases i with
  | nop | loop | wopen | wclose | waits | lidx | sysv | li | add | addi | sub | mul | and | or | xor | shl | shr | sar
  | cmp | cmpi | plog | vadd | vsub | vmul | vfma | vmax | vmin | vadds | vmuls | vabs | vneg | vexp | vrcp | vrsq | vsilu | vsigm | vsum
  | vmaxr | vtopk | vrms | vrope | vbc | stv | stg | copy =>
    obtain rfl := Option.some.inj hi
    exact offOut_core hoff rfl rfl fun _ => rfl
  | barrier | waitr | nsend | brgSlot | brgInfo =>
    obtain rfl := Option.some.inj hi
    exact offOut_next hoff rfl rfl fun _ => rfl
  | vcvt | vhad | vqnt | vroute | ldv | ldg | nrecv | attKvw | attRun | attMrg | attFin | attRcmp | brgVar | brgSamp | brgAcpt | brgEmit =>
    obtain rfl := Option.some.inj hi
    exact offOut_next hoff (finish_issue_of_predOff hc hoff _) rfl fun _ => rfl
  | mrd | mwr =>
    obtain rfl := Option.some.inj hi
    exact offOut_next hoff ((State.memGuard_of_predOff hoff _ _ _).trans (finish_issue_of_predOff hc hoff _)) rfl fun _ => rfl
  | mgath y f =>
    obtain rfl := Option.some.inj hi
    exact offOut_next hoff (show execMgath y f s = _ from (State.memGuard_of_predOff hoff _ _ _).trans (finish_issue_of_predOff hc hoff _)) rfl
      fun _ => rfl
  | aclr | asetv | aldv | astv | alds | asts =>
    obtain rfl := Option.some.inj hi
    exact offOut_acc hoff rfl rfl
  | amrg | aaddv | ares =>
    obtain rfl := Option.some.inj hi
    exact offOut_acc hoff (finish_issueAcc_of_predOff hc hoff _ _) rfl
  | sdesc _ f =>
    obtain rfl := Option.some.inj hi
    exact offOut_arr (congrArg Host.Outcome.next (State.issueArr_of_predOff hoff _)) (.inr (.inr ⟨f, rfl⟩))
  | eval _ f =>
    obtain rfl := Option.some.inj hi
    exact offOut_arr (finish_issueArr_of_predOff hc hoff _) (.inl ⟨f, rfl⟩)
  | fill y f l =>
    obtain rfl := Option.some.inj hi
    exact offOut_arr (exec_fill_of_predOff hc hoff f l) (.inr (.inl ⟨f, l, rfl⟩))
  | _ => exact nomatch hi

end

/-- Settles O46: by the shape of each instruction's issue. -/
theorem predicatedOffHasNoEffect : Obligations.PredicatedOffHasNoEffect := by
  unfold Obligations.PredicatedOffHasNoEffect
  exact fun s i x hc hi hoff => exec_of_predOff hc hoff hi

end Sys2Proof.Machine
end

section
/-! SUPPORT. Control instructions (R168, R177, R194 to R196), counted loops (R168), and the statement about them. -/

namespace Sys2Proof.Machine

/-! ### Loops -/

theorem Core.advance_eq (c : Core) :
    c.advance = { c with loops := (stepLoops c.loops (c.pc + 1)).1, pc := (stepLoops c.loops (c.pc + 1)).2 } := rfl

section
variable {l : Loop} {rest : List Loop} {pc : Nat}

theorem stepLoops_nil : stepLoops [] pc = ([], pc) := rfl

/-- Inside the innermost body. -/
theorem stepLoops_of_inside (h : pc ≠ l.start + l.len) : stepLoops (l :: rest) pc = (l :: rest, pc) := if_neg h

/-- At the body's end, iterations left. -/
theorem stepLoops_of_more (h : pc = l.start + l.len) (hmore : l.i + 1 < l.trip) :
    stepLoops (l :: rest) pc = ({ l with i := l.i + 1 } :: rest, l.start) := by
  rw [stepLoops, if_pos h, if_pos hmore]

/-- At the body's end, the last iteration done. -/
theorem stepLoops_of_done (h : pc = l.start + l.len) (hdone : l.trip ≤ l.i + 1) : stepLoops (l :: rest) pc = stepLoops rest pc := by
  rw [stepLoops, if_pos h, if_neg (Nat.not_lt.mpr hdone)]

end

/-! ### Waits for a counter -/

section
variable {c : Core} {k : Nat}

theorem Core.settleWaits_of_unarmed (h : c.arms.find? (fun a => a.k == k) = none) :
    { c with run := .waitSig k }.settleWaits = { c with run := .issue } := by
  simp only [Core.settleWaits, h]

theorem Core.settleWaits_of_reached {a : Arm} (h : c.arms.find? (fun a => a.k == k) = some a) (hcount : a.expect ≤ a.count) :
    { c with run := .waitSig k }.settleWaits = { c with run := .issue, arms := c.arms.filter (fun b => b.k != k) } := by
  simp only [Core.settleWaits, h, if_pos hcount]

theorem Core.settleWaits_of_short {a : Arm} (h : c.arms.find? (fun a => a.k == k) = some a) (hcount : a.count < a.expect) :
    { c with run := .waitSig k }.settleWaits = { c with run := .waitSig k } := by
  simp only [Core.settleWaits, h, if_neg (Nat.not_le.mpr hcount)]

end

/-! ### Instructions -/

/-- A core changed and moved on, nothing else. -/
theorem coreNext_of_coreIs {s t : State} {site : Nat} {c : Core} (h : CoreIs (.next t) s site c) :
    CoreNext (.next (t.updCore site Core.advance)) s site c := by
  obtain ⟨u, hu, hstate, hothers, hcore⟩ := h
  obtain rfl : t = u := Host.Outcome.next.inj hu
  refine ⟨_, rfl, ?_, fun k hk => ?_, ?_⟩
  · rw [hstate]
    rfl
  · rw [State.core_updCore_of_ne _ _ hk, hothers k hk]
  · rw [State.core_updCore_self, hcore]

section
variable {s : State} {x : Issue} (h : s.runs x)
include h

theorem exec_barrier_of_runs :
    CoreNext (exec (.barrier x) s) s x.site { s.core x.site with
      run := if (s.core x.site).evals = [] ∧ (s.core x.site).arrQ = [] ∧ s.localFlits x.site = false then .arrived else .barrier } := by
  have hexec : exec (.barrier x) s = .next (((s.setCore x.site { s.core x.site with run := .barrier }).settleBarrier x.site).updCore
      x.site Core.advance) := by
    show execBarrier x s = _
    rw [execBarrier, State.issue_of_runs _ h]
    rfl
  obtain ⟨hstate, hothers, hcore⟩ := (s.setCore x.site { s.core x.site with run := .barrier }).settleBarrier_spec x.site
  rw [hexec]
  refine coreNext_of_coreIs ⟨_, rfl, hstate, fun k hk => ?_, ?_⟩
  · rw [hothers k hk, State.core_setCore_of_ne _ _ hk]
  · rw [hcore, State.core_setCore_self]
    simp only [true_and]
    rfl

theorem exec_waits_of_runs (k : BitVec 4) :
    CoreNext (exec (.waits x k) s) s x.site { s.core x.site with run := .waitSig k.toNat }.settleWaits :=
  State.issueCore_of_runs _ h

end

/-- Settles O4: each instruction replaces its core; the loops step as their stack says (R168). -/
theorem controlInstructionResults : Obligations.ControlInstructionResults := by
  unfold Obligations.ControlInstructionResults
  refine ⟨fun s x trip body k h => ?_, fun c l rest => ?_⟩
  · have hwaits := exec_waits_of_runs h k
    exact ⟨State.issueCore_of_runs _ h, State.issueCore_of_runs _ h, State.issueCore_of_runs _ h, State.issueCore_of_runs _ h,
      exec_barrier_of_runs h, fun hnone => Core.settleWaits_of_unarmed hnone ▸ hwaits,
      fun a ha hle => Core.settleWaits_of_reached ha hle ▸ hwaits, fun a ha hlt => Core.settleWaits_of_short ha hlt ▸ hwaits⟩
  · refine ⟨fun hl => ?_, fun hl hin => ?_, fun hl hend hmore => ?_, fun hl hend hdone => ?_⟩
    · rw [Core.advance_eq, hl, stepLoops_nil, ← hl]
    · rw [Core.advance_eq, hl, stepLoops_of_inside hin, ← hl]
    · rw [Core.advance_eq, hl, stepLoops_of_more hend hmore]
    · rw [Core.advance_eq, Core.advance_eq, hl, stepLoops_of_done hend hdone]

end Sys2Proof.Machine
end

section
/-! SUPPORT. `VROUTE` and the choice of experts (R183, R184, R212), and the statement about them. -/

namespace Sys2Proof.Machine

/-! ### The choice of experts -/

section
variable (cap k : Nat) (used : List Nat)

/-- While experts are missing, one with room is taken. -/
theorem chooseExperts_of_room {e : Nat × F32} {t : List (Nat × F32)} {got : Nat} (pos : Nat) (hgot : got ≠ k) (hroom : used.getD e.1 0 < cap) :
    chooseExperts cap k used (e :: t) pos got = (e.1, e.2, decide (k ≤ pos)) :: chooseExperts cap k used t (pos + 1) (got + 1) := by
  rw [chooseExperts, if_neg hgot, if_pos hroom]

/-- A full one is passed over. -/
theorem chooseExperts_of_full {e : Nat × F32} {t : List (Nat × F32)} {got : Nat} (pos : Nat) (hgot : got ≠ k) (hfull : ¬used.getD e.1 0 < cap) :
    chooseExperts cap k used (e :: t) pos got = chooseExperts cap k used t (pos + 1) got := by
  rw [chooseExperts, if_neg hgot, if_neg hfull]

/-- Once there are k experts, no more are taken. -/
theorem chooseExperts_of_enough (rank : List (Nat × F32)) (pos : Nat) : chooseExperts cap k used rank pos k = [] := by
  cases rank with
  | nil => rfl
  | cons e t => rw [chooseExperts, if_pos rfl]

/-- A property of what is chosen that holds of nothing chosen, and that a taken expert and a full one keep. -/
theorem chooseExperts_induction {P : List (Nat × F32) → Nat → Nat → List (Nat × F32 × Bool) → Prop} (hnil : ∀ pos got, P [] pos got [])
    (henough : ∀ rank pos, P rank pos k [])
    (hroom : ∀ e t pos got l, got ≠ k → used.getD e.1 0 < cap → P t (pos + 1) (got + 1) l →
      P (e :: t) pos got ((e.1, e.2, decide (k ≤ pos)) :: l))
    (hfull : ∀ e t pos got l, got ≠ k → ¬used.getD e.1 0 < cap → P t (pos + 1) got l → P (e :: t) pos got l) (rank : List (Nat × F32)) :
    ∀ pos got, P rank pos got (chooseExperts cap k used rank pos got) := by
  induction rank with
  | nil => exact hnil
  | cons e t ih =>
    intro pos got
    by_cases hgot : got = k
    · rw [hgot, chooseExperts_of_enough]
      exact henough _ pos
    · by_cases hlt : used.getD e.1 0 < cap
      · rw [chooseExperts_of_room cap k used pos hgot hlt]
        exact hroom e t pos got _ hgot hlt (ih _ _)
      · rw [chooseExperts_of_full cap k used pos hgot hlt]
        exact hfull e t pos got _ hgot hlt (ih _ _)

/-- No more than the missing experts are chosen. -/
theorem length_chooseExperts_le (rank : List (Nat × F32)) (pos got : Nat) :
    got ≤ k → (chooseExperts cap k used rank pos got).length + got ≤ k := by
  refine chooseExperts_induction cap k used (P := fun _ _ got l => got ≤ k → l.length + got ≤ k) ?_ ?_ ?_ ?_ rank pos got
  · simp
  · simp
  · intro e t pos got l hgot _ ih hle
    have := ih (by omega)
    simp only [List.length_cons]
    omega
  · exact fun e t pos got l _ _ ih => ih

theorem chooseExperts_sublist (rank : List (Nat × F32)) (pos got : Nat) :
    ((chooseExperts cap k used rank pos got).map (fun e => (e.1, e.2.1))).Sublist rank := by
  refine chooseExperts_induction cap k used (P := fun rank _ _ l => (l.map (fun e => (e.1, e.2.1))).Sublist rank) ?_ ?_ ?_ ?_ rank pos got
  · exact fun _ _ => .slnil
  · exact fun rank _ => List.nil_sublist rank
  · exact fun e t pos got l _ _ ih => ih.cons_cons e
  · exact fun e t pos got l _ _ ih => ih.cons e

theorem room_of_mem_chooseExperts (rank : List (Nat × F32)) (pos got : Nat) :
    ∀ e ∈ chooseExperts cap k used rank pos got, used.getD e.1 0 < cap := by
  refine chooseExperts_induction cap k used (P := fun _ _ _ l => ∀ e ∈ l, used.getD e.1 0 < cap) ?_ ?_ ?_ ?_ rank pos got
  · simp
  · simp
  · exact fun e t pos got l _ hlt ih => List.forall_mem_cons.mpr ⟨hlt, ih⟩
  · exact fun e t pos got l _ _ ih => ih

/-- While experts are still missing at the end, every one with room has been chosen. -/
theorem mem_chooseExperts_of_short (rank : List (Nat × F32)) (pos got : Nat) :
    (chooseExperts cap k used rank pos got).length + got < k → ∀ r ∈ rank, used.getD r.1 0 < cap →
      ∃ b, (r.1, r.2, b) ∈ chooseExperts cap k used rank pos got := by
  refine chooseExperts_induction cap k used
    (P := fun rank _ got l => l.length + got < k → ∀ r ∈ rank, used.getD r.1 0 < cap → ∃ b, (r.1, r.2, b) ∈ l) ?_ ?_ ?_ ?_ rank pos got
  · simp
  · simp
  · intro e t pos got l _ _ ih hshort r hr hroom
    rcases List.mem_cons.mp hr with rfl | hr
    · exact ⟨_, List.mem_cons_self⟩
    · obtain ⟨b, hb⟩ := ih (by simp only [List.length_cons] at hshort; omega) r hr hroom
      exact ⟨b, List.mem_cons_of_mem _ hb⟩
  · intro e t pos got l _ hlt ih hshort r hr hroom
    rcases List.mem_cons.mp hr with rfl | hr
    · exact absurd hroom hlt
    · exact ih hshort r hr hroom

/-- Each choice comes from a place of the ranking, and overflows where that place lies behind the first k (R183). -/
theorem place_of_mem_chooseExperts (rank : List (Nat × F32)) (pos got : Nat) :
    ∀ e ∈ chooseExperts cap k used rank pos got, ∃ n, rank[n]? = some (e.1, e.2.1) ∧ e.2.2 = decide (k ≤ pos + n) := by
  refine chooseExperts_induction cap k used
    (P := fun rank pos _ l => ∀ e ∈ l, ∃ n, rank[n]? = some (e.1, e.2.1) ∧ e.2.2 = decide (k ≤ pos + n)) ?_ ?_ ?_ ?_ rank pos got
  · simp
  · simp
  · intro e t pos got l _ _ ih
    refine List.forall_mem_cons.mpr ⟨⟨0, rfl, rfl⟩, fun y hy => ?_⟩
    obtain ⟨n, hn, hb⟩ := ih y hy
    exact ⟨n + 1, hn, by rw [hb, Nat.add_right_comm, Nat.add_assoc]⟩
  · intro e t pos got l _ _ ih y hy
    obtain ⟨n, hn, hb⟩ := ih y hy
    exact ⟨n + 1, hn, by rw [hb, Nat.add_right_comm, Nat.add_assoc]⟩

/-- Where no expert is ranked twice, a choice has overflowed exactly where its expert is not among the first k (R183). -/
theorem overflow_iff_of_mem_chooseExperts {rank : List (Nat × F32)} (hnodup : rank.Nodup) {e : Nat × F32 × Bool}
    (he : e ∈ chooseExperts cap k used rank 0 0) : e.2.2 = true ↔ ∃ n, k ≤ n ∧ rank[n]? = some (e.1, e.2.1) := by
  obtain ⟨m, hm, hb⟩ := place_of_mem_chooseExperts cap k used rank 0 0 e he
  rw [hb, Nat.zero_add, decide_eq_true_iff]
  refine ⟨fun hle => ⟨m, hle, hm⟩, fun ⟨n, hle, hn⟩ => ?_⟩
  obtain ⟨hlt, -⟩ := List.getElem?_eq_some_iff.mp hm
  rwa [List.getElem?_inj hlt hnodup |>.mp (hm.trans hn.symm)]

end

/-! ### The instruction -/

/-- The slots of a `VROUTE` in ascending order: each one's scores, none where it is unoccupied (R212). -/
def State.routeRows (s : State) (c : Core) (f : RouteF) : List (Option (List F32)) :=
  (List.range (f.ntm1.toNat + 1)).map (fun j =>
    if (s.slotBarge (f.t0.toNat + j)).isSome then
      some (f32s (c.spRead (f.scores.toNat + 4 * (f.xm1.toNat + 1) * j) (4 * (f.xm1.toNat + 1))))
    else none)

/-- The records, the occupancy and the overflow count of a `VROUTE`. -/
def State.routed (s : State) (c : Core) (f : RouteF) : List Byte × List Nat × Nat :=
  routeSlots (ofLE (c.spRead f.occ.toNat 2)) (f.km1.toNat + 1) (s.routeRows c f)
    (wordsOf 2 (c.spRead (f.occ.toNat + 4) (2 * (f.xm1.toNat + 1)))) 0

/-- A `VROUTE` whose scores and occupancy carry no poison. -/
theorem exec_vroute_of_clean {s : State} {x : Issue} {f : RouteF} (h : s.runs x)
    (hscores : (s.core x.site).spPoisoned f.scores.toNat (4 * (f.xm1.toNat + 1) * (f.ntm1.toNat + 1)) = false)
    (hocc : (s.core x.site).spPoisoned f.occ.toNat (4 + 2 * (f.xm1.toNat + 1)) = false) :
    let c := s.core x.site
    let r := s.routed c f
    exec (.vroute x f) s = finish (((s.setCore x.site ((c.setSp (f.occ.toNat + 4) (bytesOf 2 r.2.1)).setSp f.out.toNat r.1)).err
      Reg.CNT_EXPERT_OVERFLOW 0 0 r.2.2).updCore x.site Core.advance) := by
  intro c r
  show execVroute x f s = _
  rw [execVroute, State.issue_of_runs _ h]
  simp only [hscores, hocc, Bool.or_self]
  rfl

/-- Settles O17: `VROUTE` replaces its core and counts; a choice follows the recursion along the ranking (R183). -/
theorem expertRouting : Obligations.ExpertRouting := by
  unfold Obligations.ExpertRouting
  refine ⟨?_, fun cap k used rank => ⟨?_, ?_, ?_, fun hshort => ?_, fun hnodup e he => ?_⟩⟩
  · intro s x f h hc c nx k occ rows r hscores hocc hroom
    rw [exec_vroute_of_clean h hscores hocc]
    exact countNext_of hc hroom
  · exact length_chooseExperts_le cap k used rank 0 0 (Nat.zero_le k)
  · exact chooseExperts_sublist cap k used rank 0 0
  · exact room_of_mem_chooseExperts cap k used rank 0 0
  · exact mem_chooseExperts_of_short cap k used rank 0 0 hshort
  · exact overflow_iff_of_mem_chooseExperts cap k used hnodup he

end Sys2Proof.Machine
end

section
/-! SUPPORT. `BRG.EMIT` (R175, R220, R272, R397): the output that holds one entry, the truncation, and the statement about them. -/

namespace Sys2Proof.Machine

/-! ### The output -/

/-- The tokens of a barge can still change, or another of its session comes first (R34, R397). -/
def State.emitsEarly (s : State) (m : Nat) : Prop := s.unsampled m = true ∨ s.waitsBelow (s.barge m).session m = true

/-- The state with nothing waiting in the output. -/
def State.emptied (s : State) : State := { s with seq := { s.seq with outbox := [] } }

section
variable {s : State} {m : Nat} {ts : List (BitVec 32)}

/-- Whether an entry is ready. -/
theorem State.ready_iff : (!s.unsampled m && !s.waitsBelow (s.barge m).session m) = true ↔ ¬s.emitsEarly m := by
  simp [State.emitsEarly]

variable (hout : s.seq.outbox = [(m, ts)])
include hout

/-- An entry that comes too early stays. -/
theorem State.flushOutput_of_early (h : s.emitsEarly m) : s.flushOutput false = s := by
  have hready : (!s.unsampled m && !s.waitsBelow (s.barge m).session m) = false :=
    Bool.eq_false_iff.mpr fun hr => State.ready_iff.mp hr h
  simp only [State.flushOutput, hout, List.mergeSort_singleton, Bool.false_or, List.filter_cons, List.filter_nil, hready, Bool.not_false,
    if_true, Bool.false_eq_true, if_false, List.foldl_nil]
  rw [← hout]

/-- An entry that is ready leaves the output; it is sent unless there is nothing to send (R175). -/
theorem State.flushOutput_of_ready (h : ¬s.emitsEarly m) :
    s.flushOutput false = if ts.isEmpty || s.noToken m then s.emptied else s.emptied.sendTokens m ts := by
  have hready := State.ready_iff.mpr h
  simp only [State.flushOutput, hout, List.mergeSort_singleton, Bool.false_or, List.filter_cons, List.filter_nil, hready, Bool.not_true,
    if_true, Bool.false_eq_true, if_false, List.foldl_cons, List.foldl_nil]
  rfl

/-- Nothing to send: no token, or a slot that yields none (R175). -/
theorem State.flushOutput_of_nothing (h : ¬s.emitsEarly m) (hnothing : ts = [] ∨ s.noToken m = true) : s.flushOutput false = s.emptied := by
  rw [State.flushOutput_of_ready hout h, if_pos]
  simpa using hnothing

theorem State.flushOutput_of_tokens (h : ¬s.emitsEarly m) (hts : ts ≠ []) (htoken : s.noToken m = false) :
    s.flushOutput false = s.emptied.sendTokens m ts := by
  rw [State.flushOutput_of_ready hout h, if_neg]
  simp [hts, htoken]

end

/-! ### The instruction -/

/-- The entry of a slot is marked as handed on, and the output holds `o`. -/
def State.handedOn (s : State) (slot : Nat) (o : List (Nat × List (BitVec 32))) : State :=
  { s with seq := { s.seq with
    accepts := s.seq.accepts.map (fun z => if z.slot = slot then ({ z with emitted := true } : AccSlot) else z)
    outbox := o } }

/-- The tokens of a staged entry that a barge hands on, as R272 cuts them. -/
def Barge.emits (b : Barge) (e : AccSlot) (slot : Nat) : List (BitVec 32) :=
  if b.stepSlot slot then e.tokens.take (b.truncate e.a e.tokens) else []

section
variable {s : State} {x : Issue} {f : BrgF} {m : Nat} (h : s.runs x)
  (hbarge : s.brgBarge x.site f ((s.core x.site).stepIdx x) = some m)
include h hbarge

theorem exec_brgEmit_of_none
    (hnone : s.seq.accepts.find? (fun z => z.slot == (s.core x.site).brgSlot f ((s.core x.site).stepIdx x) && !z.emitted) = none) :
    exec (.brgEmit x f) s = finish (s.updCore x.site Core.advance) := by
  show execBrgEmit x f s = _
  rw [execBrgEmit, State.issue_of_runs _ h]
  simp only [hbarge, hnone]

theorem exec_brgEmit_of_staged {e : AccSlot}
    (hsome : s.seq.accepts.find? (fun z => z.slot == (s.core x.site).brgSlot f ((s.core x.site).stepIdx x) && !z.emitted) = some e)
    (hout : s.seq.outbox = []) :
    let slot := (s.core x.site).brgSlot f ((s.core x.site).stepIdx x)
    exec (.brgEmit x f) s =
      finish (((s.handedOn slot [(m, (s.barge m).emits e slot)]).flushOutput false).updCore x.site Core.advance) := by
  intro slot
  show execBrgEmit x f s = _
  rw [execBrgEmit, State.issue_of_runs _ h]
  simp only [hbarge, hsome, hout, List.nil_append]
  rfl

end

/-! ### Truncation -/

/-- No token before the first stop token is one. -/
theorem toNat_ne_of_lt_stopAt {stop : Nat} {ts : List (BitVec 32)} {k : Nat} {t : BitVec 32} (ht : ts[k]? = some t)
    (h : stopAt stop ts = 0 ∨ k + 1 < stopAt stop ts) : t.toNat ≠ stop := by
  obtain ⟨hk, rfl⟩ := List.getElem?_eq_some_iff.mp ht
  rw [stopAt] at h
  split at h
  · next n hn =>
    have hlt : k < n := by omega
    obtain ⟨_, _, hbefore⟩ := List.findIdx?_eq_some_iff_getElem.mp hn
    simpa using hbefore k hlt
  · next hnone =>
    simpa using List.findIdx?_eq_none_iff.mp hnone _ (List.getElem_mem hk)

section
variable (b : Barge) (a : Nat) (ts : List (BitVec 32)) (hstate : b.state = .decode)

/-- The tokens of a decode barge up to its first stop token (R272). -/
def Barge.toStop (b : Barge) (a : Nat) (ts : List (BitVec 32)) : Nat :=
  if (if b.stop = 0xFFFFFF then 0 else stopAt b.stop (ts.take a)) = 0 then a
  else min a (if b.stop = 0xFFFFFF then 0 else stopAt b.stop (ts.take a))

/-- The tokens that a barge's output limit leaves (R272); 0 is no limit. -/
def Barge.toLimit (b : Barge) (a : Nat) : Nat :=
  if b.maxNew = 0 then a else min a (b.maxNew + b.promptLen - (b.length + 1))

include hstate in
theorem Barge.truncate_of_decode : b.truncate a ts = min (b.toLimit (b.toStop a ts)) (1048576 - b.length) := by
  rw [Barge.truncate, if_neg (not_not_intro hstate)]
  rfl

theorem Barge.toStop_le : b.toStop a ts ≤ a := by
  unfold Barge.toStop
  generalize (if b.stop = 0xFFFFFF then 0 else stopAt b.stop (ts.take a)) = st
  split
  · exact le_rfl
  · exact Nat.min_le_left _ _

theorem Barge.toLimit_le : b.toLimit a ≤ a := by
  rw [Barge.toLimit]
  split
  · exact le_rfl
  · exact Nat.min_le_left _ _

theorem Barge.toLimit_le_limit (h : b.maxNew ≠ 0) : b.toLimit a ≤ b.maxNew + b.promptLen - (b.length + 1) := by
  rw [Barge.toLimit, if_neg h]
  exact Nat.min_le_right _ _

/-- No stop token stands before the last of them. -/
theorem Barge.toNat_ne_stop_of_lt_toStop (hstop : b.stop ≠ 0xFFFFFF) {k : Nat} {t : BitVec 32} (hk : k + 1 < b.toStop a ts)
    (ht : ts[k]? = some t) : t.toNat ≠ b.stop := by
  have hle := b.toStop_le a ts
  have htake : (ts.take a)[k]? = some t := by rw [List.getElem?_take_of_lt (by omega), ht]
  refine toNat_ne_of_lt_stopAt htake ?_
  rw [Barge.toStop, if_neg hstop] at hk
  split at hk <;> omega

end

/-- Settles O26: the one entry of the output is sent, dropped or kept; the truncation is the least of its limits (R272). -/
theorem emitHandsOn : Obligations.EmitHandsOn := by
  unfold Obligations.EmitHandsOn
  refine ⟨?_, ?_⟩
  · intro s x f m h hc hbarge slot
    refine ⟨fun hnone => ?_, ?_⟩
    · rw [exec_brgEmit_of_none h hbarge hnone]
      exact coreNext_finish_advance hc rfl rfl
    · intro e hsome hout ts put u early
      have hexec : exec (.brgEmit x f) s = finish (((s.handedOn slot [(m, ts)]).flushOutput false).updCore x.site Core.advance) :=
        exec_brgEmit_of_staged h hbarge hsome hout
      rw [hexec]
      refine ⟨fun hearly => ?_, fun hready hnothing => ?_, fun hready hts htoken => ?_⟩
      · rw [State.flushOutput_of_early (s := s.handedOn slot [(m, ts)]) rfl hearly]
        exact finish_of_calm hc rfl
      · rw [State.flushOutput_of_nothing (s := s.handedOn slot [(m, ts)]) rfl hready hnothing]
        exact finish_of_calm hc rfl
      · rw [State.flushOutput_of_tokens (s := s.handedOn slot [(m, ts)]) rfl hready hts htoken]
        rfl
  · intro b a ts hstate hlen a'
    have htrunc : a' = min (b.toLimit (b.toStop a ts)) (1048576 - b.length) := b.truncate_of_decode a ts hstate
    have hstop := b.toStop_le a ts
    have hlimit := b.toLimit_le (b.toStop a ts)
    refine ⟨by omega, by omega, fun hmax => ?_, fun hstop k t hk => ?_⟩
    · have := b.toLimit_le_limit (b.toStop a ts) hmax
      omega
    · exact b.toNat_ne_stop_of_lt_toStop a ts hstop (by omega)

end Sys2Proof.Machine
end

section
/-! SUPPORT. Packets (R24, R214): how a range is cut into them, and which of those under way arrives first. -/

namespace Sys2Proof.Machine

/-! ### A range cut into packets -/

section
variable (sig : Nat)

theorem packetsOf_nil (addr : Nat) (po : List Nat) (fuel : Nat) : packetsOf sig addr [] po fuel = [] := by
  cases fuel <;> rfl

theorem packetsOf_of_ne_nil (addr : Nat) {bs : List Byte} (po : List Nat) (fuel : Nat) (h : bs ≠ []) :
    packetsOf sig addr bs po (fuel + 1) =
      { sig := sig, addr := addr, data := bs.take 512, poison := po.filter (fun w => decide (w < 64)), secure := false, conflict := false } ::
        packetsOf sig (addr + 512) (bs.drop 512) ((po.filter (fun w => decide (64 ≤ w))).map (fun w => w - 64)) fuel := by
  rw [packetsOf, if_neg (by simpa using h)]

/-- Together the packets carry the range. -/
theorem packetsOf_data (fuel : Nat) : ∀ (addr : Nat) (bs : List Byte) (po : List Nat), bs.length ≤ fuel →
    (packetsOf sig addr bs po fuel).flatMap (fun p => p.data) = bs := by
  induction fuel with
  | zero =>
    intro addr bs po hlen
    rw [List.eq_nil_of_length_eq_zero (Nat.le_zero.mp hlen)]
    rfl
  | succ fuel ih =>
    intro addr bs po hlen
    by_cases hne : bs = []
    · rw [hne, packetsOf_nil]
      rfl
    · have hpos := List.length_pos_iff.mpr hne
      rw [packetsOf_of_ne_nil sig addr po fuel hne, List.flatMap_cons, ih _ _ _ (by rw [List.length_drop]; omega), List.take_append_drop]

/-- A packet for every 512 bytes begun. -/
theorem length_packetsOf (fuel : Nat) : ∀ (addr : Nat) (bs : List Byte) (po : List Nat), bs.length ≤ fuel →
    (packetsOf sig addr bs po fuel).length = (bs.length + 511) / 512 := by
  induction fuel with
  | zero =>
    intro addr bs po hlen
    rw [List.eq_nil_of_length_eq_zero (Nat.le_zero.mp hlen)]
    rfl
  | succ fuel ih =>
    intro addr bs po hlen
    by_cases hne : bs = []
    · rw [hne, packetsOf_nil]
      rfl
    · have hpos := List.length_pos_iff.mpr hne
      rw [packetsOf_of_ne_nil sig addr po fuel hne, List.length_cons, ih _ _ _ (by rw [List.length_drop]; omega), List.length_drop]
      omega

/-- Packet `n` carries the bytes from `512 * n` on. -/
theorem getElem?_packetsOf (fuel : Nat) : ∀ (addr : Nat) (bs : List Byte) (po : List Nat) (n : Nat) (p : Packet),
    (packetsOf sig addr bs po fuel)[n]? = some p →
      p.sig = sig ∧ p.addr = addr + 512 * n ∧ p.data = (bs.drop (512 * n)).take 512 ∧ p.secure = false := by
  induction fuel with
  | zero => exact fun addr bs po n p h => nomatch h
  | succ fuel ih =>
    intro addr bs po n p h
    by_cases hne : bs = []
    · rw [hne, packetsOf_nil] at h
      exact nomatch h
    · rw [packetsOf_of_ne_nil sig addr po fuel hne] at h
      cases n with
      | zero =>
        obtain rfl := Option.some.inj h
        exact ⟨rfl, rfl, rfl, rfl⟩
      | succ n =>
        obtain ⟨hsig, haddr, hdata, hsecure⟩ := ih _ _ _ n p h
        refine ⟨hsig, by omega, ?_, hsecure⟩
        rw [hdata, List.drop_drop, Nat.mul_succ, Nat.add_comm]

end

/-! ### Packets under way -/

section
variable {dev site : Nat} {p : Packet} {m : InFlight}

/-- A packet found is one to the site that reads as `p`, and none of those passed has its source and destination (R24). -/
theorem firstOf_spec (l : List InFlight) : ∀ before, firstOf before l dev site p = some m →
    (m.dev = dev ∧ m.site = site ∧ m.pkt = { p with conflict := false }) ∧
      ∃ a b, l = a ++ m :: b ∧ (before ++ a).any m.sameWay = false := by
  induction l with
  | nil => exact fun _ h => nomatch h
  | cons y t ih =>
    intro before h
    rw [firstOf] at h
    split at h
    · next hy =>
      obtain rfl := Option.some.inj h
      obtain ⟨hdev, hsite, hpkt, hfirst⟩ := hy
      exact ⟨⟨hdev, hsite, hpkt⟩, [], t, rfl, by simpa using hfirst⟩
    · obtain ⟨hm, a, b, hl, hany⟩ := ih _ h
      exact ⟨hm, y :: a, b, by rw [hl]; rfl, by rwa [List.append_assoc] at hany⟩

theorem firstOf_of_not_underWay {s : State} (h : s.underWay site p = false) : firstOf [] s.net s.devNo site p = none := by
  cases hfirst : firstOf [] s.net s.devNo site p with
  | none => rfl
  | some m =>
    obtain ⟨hm, a, b, hl, -⟩ := firstOf_spec s.net [] hfirst
    have hin : m ∈ s.net := by simp [hl]
    have := List.any_eq_false.mp h m hin
    exact absurd (decide_eq_true hm) this

/-- The first of its way: no packet before it comes from the same source by the same entry to the site (R24). -/
theorem firstOf_first {l : List InFlight} (h : firstOf [] l dev site p = some m) :
    m.dev = dev ∧ m.site = site ∧ m.pkt = { p with conflict := false } ∧
      ∃ a b, l = a ++ m :: b ∧ ∀ n ∈ a, n.source = m.source → n.entry = m.entry → n.dev = dev → n.site ≠ site := by
  obtain ⟨⟨hdev, hsite, hpkt⟩, a, b, hl, hany⟩ := firstOf_spec l [] h
  refine ⟨hdev, hsite, hpkt, a, b, hl, fun n hn hsource hentry hndev hnsite => ?_⟩
  have := List.any_eq_false.mp hany n hn
  simp [InFlight.sameWay, hsource, hentry, hndev, hnsite, hdev, hsite] at this

end

end Sys2Proof.Machine
end

section
/-! SUPPORT. What becomes of a packet at a core's local port (R177, R178), `NSEND` and `NRECV` (R177, R178, R180), and the statement about
the network. -/

namespace Sys2Proof.Machine

/-! ### The local port of a working core -/

/-- The port takes the packet: router and scratchpad work, the secure window is closed, and no core write meets it (R365, R371, R372, R417). -/
structure State.PortTakes (s : State) (site : Nat) (p : Packet) : Prop where
  fence : s.rf Reg.RTR_FENCE site 0 1 0 = 0
  enabled : s.enabled site = true
  power : s.rf Reg.SPM_PWR site 0 9 8 = 0
  window : s.rf Reg.SPM_SECURE site 0 0 0 = 0
  plain : p.secure = false
  alone : p.conflict = false

/-- A port takes what its registers and the map of enabled sites let it take. -/
theorem State.PortTakes.of_regs {s t : State} {site : Nat} {p : Packet} (ht : s.PortTakes site p) (hregs : t.regs = s.regs)
    (hsites : t.siteEn = s.siteEn) : t.PortTakes site p where
  fence := (State.rf_congr hregs _ _ _ _ _).trans ht.fence
  enabled := by
    rw [State.enabled, hsites]
    exact ht.enabled
  power := (State.rf_congr hregs _ _ _ _ _).trans ht.power
  window := (State.rf_congr hregs _ _ _ _ _).trans ht.window
  plain := ht.plain
  alone := ht.alone

/-- A counter, one packet for counter `sig` further (R177). -/
def countArm (sig : Nat) (b : Arm) : Arm := if b.k = sig then { b with count := (b.count + 1) % 65536 } else b

theorem countArm_eq (sig : Nat) : countArm sig = fun (b : Arm) => if b.k = sig then { b with count := (b.count + 1) % 65536 } else b := rfl

/-- A packet counts for the counter that it names (R177). -/
def Core.counts (c : Core) (p : Packet) : Core := { c with arms := c.arms.map (countArm p.sig) }

section
variable {s : State} {site : Nat} {p : Packet} (ht : s.PortTakes site p) (src : Nat)
include ht

/-- With a counter that is not armed, the packet is held (R178). -/
theorem State.deliver_of_unarmed (h : (s.core site).arms.find? (fun a => a.k == p.sig) = none) :
    s.deliver site src p = s.setCore site { s.core site with held := (s.core site).held ++ [(src, p)] } := by
  simp [State.deliver, ht.fence, ht.enabled, ht.power, ht.window, ht.plain, h]

/-- With an armed one whose range holds it, it is written and counts (R177). -/
theorem State.deliver_of_armed {a : Arm} (h : (s.core site).arms.find? (fun a => a.k == p.sig) = some a) (hlow : a.base ≤ p.addr)
    (hhigh : p.addr + p.data.length ≤ a.base + a.bytes) :
    s.deliver site src p = s.setCore site (((s.core site).counts p).land p).settleWaits := by
  have hrange : a.base ≤ p.addr ∧ p.addr + p.data.length ≤ a.base + a.bytes := ⟨hlow, hhigh⟩
  simp [State.deliver, ht.fence, ht.enabled, ht.power, ht.window, ht.plain, ht.alone, h, hrange, Core.counts, countArm_eq]

/-- Behind a held packet it waits (R178). -/
theorem State.atPort_of_held (h : (s.core site).held ≠ []) :
    s.atPort site src p = s.setCore site { s.core site with held := (s.core site).held ++ [(src, p)] } := by
  have hwaits : s.rf Reg.RTR_FENCE site 0 1 0 = 0 ∧ !(s.core site).held.isEmpty ∧ !p.secure := by
    simp [ht.fence, ht.plain, h]
  rw [State.atPort, if_pos hwaits]
  rfl

omit ht in
theorem State.atPort_of_empty (h : (s.core site).held = []) : s.atPort site src p = s.deliver site src p := by
  rw [State.atPort, if_neg (by simp [h])]

end

/-! ### Arrival -/

/-- The outcome is a next state in which the packets under way are `net` and the core of `site` is `d`; nothing else has changed. -/
def GoesTo (o : Out) (s : State) (site : Nat) (net : List InFlight) (d : Core) : Prop :=
  ∃ t, o = .next t ∧ t.core site = d ∧ (∀ k, k ≠ site → t.core k = s.core k) ∧ t = { s with cores := t.cores, net := net }

/-- A core replaced in a calm state. -/
theorem goesTo_setCore {s : State} (hc : s.calm) (site : Nat) (net : List InFlight) (d : Core) :
    GoesTo (finish (({ s with net := net } : State).setCore site d)) s site net d :=
  ⟨_, finish_of_calm hc rfl, State.core_setCore_self _ _ _, fun _ hk => State.core_setCore_of_ne _ _ hk, rfl⟩

/-- What the arrival of a packet makes of a working core: it waits behind a held one, is held, or is written and counts (R177, R178). -/
theorem goesTo_atPort {s : State} (hc : s.calm) {site : Nat} {p : Packet} (ht : s.PortTakes site p) (src : Nat) (net : List InFlight) :
    let c := s.core site
    let e := finish (({ s with net := net } : State).atPort site src p)
    (c.held ≠ [] → GoesTo e s site net { c with held := c.held ++ [(src, p)] }) ∧
    (c.held = [] → c.arms.find? (fun a => a.k == p.sig) = none → GoesTo e s site net { c with held := [(src, p)] }) ∧
    (c.held = [] → ∀ a, c.arms.find? (fun a => a.k == p.sig) = some a → a.base ≤ p.addr → p.addr + p.data.length ≤ a.base + a.bytes →
      GoesTo e s site net ((c.counts p).land p).settleWaits) := by
  intro c e
  have ht' : State.PortTakes { s with net := net } site p := ht.of_regs rfl rfl
  have hgoes := goesTo_setCore hc site net
  refine ⟨fun hheld => ?_, fun hheld hnone => ?_, fun hheld a ha hlow hhigh => ?_⟩
  · have he : e = finish (({ s with net := net } : State).setCore site { c with held := c.held ++ [(src, p)] }) :=
      congrArg finish (State.atPort_of_held ht' src hheld)
    exact he ▸ hgoes _
  · have he : e = finish (({ s with net := net } : State).setCore site { c with held := c.held ++ [(src, p)] }) :=
      congrArg finish ((State.atPort_of_empty (s := { s with net := net }) src hheld).trans (State.deliver_of_unarmed ht' src hnone))
    rw [hheld] at he
    exact he ▸ hgoes _
  · have he : e = finish (({ s with net := net } : State).setCore site ((c.counts p).land p).settleWaits) :=
      congrArg finish ((State.atPort_of_empty (s := { s with net := net }) src hheld).trans (State.deliver_of_armed ht' src ha hlow hhigh))
    exact he ▸ hgoes _

section
variable {s : State} {site : Nat} {p : Packet} (hsite : site < nSites)
include hsite

theorem exec_netPacketArrival_of_none (hfirst : firstOf [] s.net s.devNo site p = none) :
    exec (.netPacketArrival site p) s = if s.underWay site p then .next s else finish (s.atPort site nSites p) := by
  show execNetPacketArrival site p s = _
  rw [execNetPacketArrival, if_pos hsite, hfirst]

section
variable {m : InFlight} (hfirst : firstOf [] s.net s.devNo site p = some m)
include hfirst

/-- A packet whose way arrives leaves those under way and reaches the core's local port. -/
theorem exec_netPacketArrival_of_arrives (hway : s.way (.site site) m.entry false = .arrives site 0) :
    exec (.netPacketArrival site p) s = finish (({ s with net := s.net.erase m } : State).atPort site m.source p) := by
  show execNetPacketArrival site p s = _
  simp only [execNetPacketArrival, if_pos hsite, hfirst, hway, and_self, if_true]

theorem exec_netPacketArrival_of_lost (hway : s.way (.site site) m.entry false = .lost) : exec (.netPacketArrival site p) s = .next s := by
  show execNetPacketArrival site p s = _
  simp only [execNetPacketArrival, if_pos hsite, hfirst, hway]

theorem exec_netPacketArrival_of_fenced {r : Nat} (hway : s.way (.site site) m.entry false = .fenced r) :
    exec (.netPacketArrival site p) s = finish (({ s with net := s.net.erase m } : State).err Reg.RTR_FENCE_DROP r 0 1) := by
  show execNetPacketArrival site p s = _
  simp only [execNetPacketArrival, if_pos hsite, hfirst, hway]

end

end

/-- A fenced router on the way discards and counts (R417). -/
theorem finish_err_fenced {s : State} (hc : s.calm) {r : Nat} (hroom : s.room Reg.RTR_FENCE_DROP r 0 1) (net : List InFlight) :
    ∃ t, finish (({ s with net := net } : State).err Reg.RTR_FENCE_DROP r 0 1) = .next t ∧ t = { s with regs := t.regs, net := net } ∧
      t.reg Reg.RTR_FENCE_DROP r 0 = s.reg Reg.RTR_FENCE_DROP r 0 + 1 := by
  have hroom' : ({ s with net := net } : State).room Reg.RTR_FENCE_DROP r 0 1 := hroom
  rw [State.err_of_room hroom', if_neg Nat.one_ne_zero, finish_of_calm hc (by rfl)]
  exact ⟨_, rfl, rfl, State.reg_bumped hroom'⟩

/-! ### `NSEND` -/

/-- The packets that an `NSEND` cuts from its source range (R180, R214). -/
def Core.nsendPackets (c : Core) (f : SendF) (i : Nat) : List Packet :=
  let n := 64 * (f.gm1.toNat + 1)
  let src := stepAddr f.spa.toNat f.sps.toNat 16 i
  packetsOf f.dcnt.toNat (stepAddr f.dst.toNat f.sps.toNat 16 i) (c.sp src n) (poisonOf c.spmPoison src n) n

/-- The packets are on their way to the site that the destination core has. -/
theorem exec_nsend_of_runs {s : State} {x : Issue} {f : SendF} {site : Nat} (h : s.runs x)
    (hsite : if f.ddev.toNat = s.devNo then s.siteOf f.dcore.toNat = some site else site = f.dcore.toNat) :
    exec (.nsend x f) s = .next ((s.send f.ddev.toNat site x.site ((s.core x.site).nsendPackets f ((s.core x.site).stepIdx x))).updCore
      x.site Core.advance) := by
  show execNsend x f s = _
  rw [execNsend, State.issue_of_runs _ h]
  by_cases hdev : f.ddev.toNat = s.devNo
  · rw [if_pos hdev] at hsite
    simp only [if_pos hdev, hsite]
    rfl
  · rw [if_neg hdev] at hsite
    simp only [if_neg hdev, hsite]
    rfl

/-! ### `NRECV` -/

/-- A held packet whose counter is not armed stays held, and with it those behind it (R178). -/
theorem State.drainHeld_of_waiting {s : State} {site : Nat}
    (h : ∀ m, (s.core site).held.head? = some m → (s.core site).arms.any (fun a => a.k == m.2.sig) = false) (fuel : Nat) :
    s.drainHeld site fuel = s := by
  cases fuel with
  | zero => rfl
  | succ fuel =>
    rw [State.drainHeld]
    cases hheld : (s.core site).held with
    | nil => rfl
    | cons m t =>
      have hnone := h m (by rw [hheld]; rfl)
      simp only [hnone, Bool.false_eq_true, if_false]

/-- A core that issues waits for no counter. -/
theorem Core.settleWaits_of_issue {c : Core} (h : c.run = .issue) : c.settleWaits = c := by
  simp only [Core.settleWaits, h]

/-- The only held packet, its counter armed with a range that holds it, is written and counts at a core that waits for nothing (R178). -/
theorem State.drainHeld_of_taken {s : State} {site src : Nat} {p : Packet} {a : Arm} (ht : s.PortTakes site p)
    (hheld : (s.core site).held = [(src, p)]) (harm : (s.core site).arms.find? (fun a => a.k == p.sig) = some a) (hlow : a.base ≤ p.addr)
    (hhigh : p.addr + p.data.length ≤ a.base + a.bytes) (hrun : (s.core site).run = .issue) (fuel : Nat) :
    s.drainHeld site (fuel + 1) = (s.setCore site { s.core site with held := [] }).setCore site
      (({ s.core site with held := [] }.counts p).land p) := by
  set d : Core := { s.core site with held := [] }
  have harmed : (s.core site).arms.any (fun a => a.k == p.sig) = true :=
    List.any_eq_true.mpr ⟨a, List.mem_of_find?_eq_some harm, by simpa using List.find?_some harm⟩
  have hcore : (s.setCore site d).core site = d := State.core_setCore_self _ _ _
  have ht' : (s.setCore site d).PortTakes site p := ht.of_regs rfl rfl
  have hdeliver : (s.setCore site d).deliver site src p = (s.setCore site d).setCore site ((d.counts p).land p) := by
    rw [State.deliver_of_armed ht' src (by rw [hcore]; exact harm) hlow hhigh, hcore,
      Core.settleWaits_of_issue (c := (d.counts p).land p) hrun]
  rw [State.drainHeld]
  simp only [hheld, harmed, if_true]
  rw [hdeliver, State.drainHeld_of_waiting]
  rw [State.core_setCore_self]
  exact fun m hm => nomatch hm

theorem State.run_of_canIssue {s : State} {site : Nat} (h : s.canIssue site = true) : (s.core site).run = .issue := by
  simp only [State.canIssue, Bool.and_eq_true, decide_eq_true_eq] at h
  exact h.1.2

theorem State.enabled_of_canIssue {s : State} {site : Nat} (h : s.canIssue site = true) : s.enabled site = true := by
  simp only [State.canIssue, Bool.and_eq_true] at h
  exact h.1.1

/-- The counter that an `NRECV` arms (R177), `n` packets counted. -/
def Core.recvArm (c : Core) (x : Issue) (f : RecvF) (n : Nat) : Arm :=
  ⟨f.sig.toNat, stepAddr f.spa.toNat f.sps.toNat 16 (c.stepIdx x), 64 * (f.gm1.toNat + 1), f.expect.toNat, n⟩

/-- The counters of a core once an `NRECV` has armed its own. -/
def Core.recvArms (c : Core) (x : Issue) (f : RecvF) (n : Nat) : List Arm :=
  c.arms.filter (fun b => b.k != f.sig.toNat) ++ [c.recvArm x f n]

section
variable (c : Core) (x : Issue) (f : RecvF)

/-- The other counters stay. -/
theorem Core.any_recvArms_of_ne {sig : Nat} (hne : sig ≠ f.sig.toNat) (h : c.arms.all (fun a => a.k != sig) = true) (n : Nat) :
    (c.recvArms x f n).any (fun a => a.k == sig) = false := by
  simp only [Core.recvArms, List.any_append, List.any_cons, List.any_nil, Bool.or_false, Bool.or_eq_false_iff, List.any_eq_false]
  refine ⟨fun a ha => ?_, ?_⟩
  · simpa using List.all_eq_true.mp h a (List.mem_filter.mp ha).1
  · simpa [Core.recvArm] using hne.symm

/-- Its own counter is found. -/
theorem Core.find?_recvArms (n : Nat) : (c.recvArms x f n).find? (fun a => a.k == f.sig.toNat) = some (c.recvArm x f n) := by
  have hothers : (c.arms.filter (fun b => b.k != f.sig.toNat)).find? (fun a => a.k == f.sig.toNat) = none := by
    refine List.find?_eq_none.mpr fun a ha => ?_
    simpa using (List.mem_filter.mp ha).2
  rw [Core.recvArms, List.find?_append, hothers, Option.none_or, List.find?_singleton, if_pos (by simp [Core.recvArm])]

/-- Its first packet counts. -/
theorem Core.map_countArm_recvArms : (c.recvArms x f 0).map (countArm f.sig.toNat) = c.recvArms x f 1 := by
  have hothers : (c.arms.filter (fun b => b.k != f.sig.toNat)).map (countArm f.sig.toNat) = c.arms.filter (fun b => b.k != f.sig.toNat) :=
    (List.map_congr_left fun a ha => if_neg (by simpa using (List.mem_filter.mp ha).2)).trans (List.map_id _)
  have hown : [c.recvArm x f 0].map (countArm f.sig.toNat) = [c.recvArm x f 1] := congrArg (fun b => [b]) (if_pos rfl)
  rw [Core.recvArms, List.map_append, hothers, hown, Core.recvArms]

end

section
variable {s : State} {x : Issue} {f : RecvF} (h : s.runs x)
include h

theorem exec_nrecv_of_runs :
    exec (.nrecv x f) s = finish (((s.setCore x.site { s.core x.site with arms := (s.core x.site).recvArms x f 0 }).drainHeld x.site
      ((s.core x.site).held.length + 1)).updCore x.site Core.advance) := by
  show execNrecv x f s = _
  rw [execNrecv, State.issue_of_runs _ h]
  rfl

/-- Nothing held is for a counter that is armed. -/
theorem nrecv_of_waiting (hc : s.calm)
    (hwait : ∀ m, (s.core x.site).held.head? = some m → m.2.sig ≠ f.sig.toNat ∧ (s.core x.site).arms.all (fun a => a.k != m.2.sig) = true) :
    CoreNext (exec (.nrecv x f) s) s x.site { s.core x.site with arms := (s.core x.site).recvArms x f 0 } := by
  rw [exec_nrecv_of_runs h, State.drainHeld_of_waiting]
  · exact coreNext_finish_setCore _ hc
  · rw [State.core_setCore_self]
    intro m hm
    obtain ⟨hne, hall⟩ := hwait m hm
    exact Core.any_recvArms_of_ne _ x f hne hall 0

/-- The one packet held is for this counter and in its range: it is written and counts. -/
theorem nrecv_of_held (hc : s.calm) {src : Nat} {p : Packet} (ht : s.PortTakes x.site p) (hheld : (s.core x.site).held = [(src, p)])
    (hsig : p.sig = f.sig.toNat) (hlow : ((s.core x.site).recvArm x f 0).base ≤ p.addr)
    (hhigh : p.addr + p.data.length ≤ ((s.core x.site).recvArm x f 0).base + ((s.core x.site).recvArm x f 0).bytes) :
    CoreNext (exec (.nrecv x f) s) s x.site
      ({ s.core x.site with arms := (s.core x.site).recvArms x f 1, held := [] }.moveSp p.addr p.data p.poison) := by
  set c := s.core x.site
  -- the state in which the counter is armed
  set u := s.setCore x.site { c with arms := c.recvArms x f 0 } with hu
  have hucore : u.core x.site = { c with arms := c.recvArms x f 0 } := State.core_setCore_self _ _ _
  have hut : u.PortTakes x.site p := ht.of_regs rfl rfl
  have hcounts : { u.core x.site with held := [] }.counts p = { c with arms := c.recvArms x f 1, held := [] } := by
    simp only [Core.counts, hucore, hsig, Core.map_countArm_recvArms]
  have hdrain := State.drainHeld_of_taken hut (by rw [hucore]; exact hheld) (by rw [hucore, hsig]; exact c.find?_recvArms x f 0) hlow hhigh
    (by rw [hucore]; exact State.run_of_canIssue h.1) c.held.length
  rw [exec_nrecv_of_runs h, hdrain, hcounts, finish_of_calm hc (by rfl)]
  refine coreNext_of_coreIs ⟨_, rfl, rfl, fun k hk => ?_, State.core_setCore_self _ _ _⟩
  rw [State.core_setCore_of_ne _ _ hk, State.core_setCore_of_ne _ _ hk, hu, State.core_setCore_of_ne _ _ hk]

end

/-- Settles O11: packets cut, sent, held and taken (R177, R178, R180, R214), and the first of those under way (R24). -/
theorem networkTraffic : Obligations.NetworkTraffic := by
  unfold Obligations.NetworkTraffic
  refine ⟨⟨?_, ?_⟩, ?_, ?_, ?_⟩
  · intro s x f site h hsite c i n src ps
    exact exec_nsend_of_runs h hsite
  · intro sig addr bs po fuel hlen ps
    exact ⟨packetsOf_data sig fuel addr bs po hlen, length_packetsOf sig fuel addr bs po hlen, getElem?_packetsOf sig fuel addr bs po⟩
  · intro s x f h hc c base bytes armed
    refine ⟨nrecv_of_waiting h hc, fun src p hheld hsig hplain halone hlow hhigh hfence hpower hwindow => ?_⟩
    exact nrecv_of_held h hc ⟨hfence, State.enabled_of_canIssue h.1, hpower, hwindow, hplain, halone⟩ hheld hsig hlow hhigh
  · intro s site p hsite hen hc hfence hpower hwindow hplain halone c e lands
    have hlands := goesTo_atPort hc ⟨hfence, hen, hpower, hwindow, hplain, halone⟩
    refine ⟨fun hnot => ?_, fun hunder hfirst => ?_, fun m hfirst => ⟨fun hway => ?_, fun hway => ?_, fun r hway hroom => ?_⟩⟩
    · have he : e = finish (s.atPort site nSites p) :=
        (exec_netPacketArrival_of_none hsite (firstOf_of_not_underWay hnot)).trans (if_neg (ne_true_of_eq_false hnot))
      simp only [lands, he]
      exact hlands nSites s.net
    · exact (exec_netPacketArrival_of_none hsite hfirst).trans (if_pos hunder)
    · have he : e = finish (({ s with net := s.net.erase m } : State).atPort site m.source p) :=
        exec_netPacketArrival_of_arrives hsite hfirst hway
      simp only [lands, he]
      exact hlands m.source (s.net.erase m)
    · exact exec_netPacketArrival_of_lost hsite hfirst hway
    · have he : e = finish (({ s with net := s.net.erase m } : State).err Reg.RTR_FENCE_DROP r 0 1) :=
        exec_netPacketArrival_of_fenced hsite hfirst hway
      rw [he]
      exact finish_err_fenced hc hroom _
  · intro l dev site p m hfirst
    exact firstOf_first hfirst

end Sys2Proof.Machine
end

section
/-! SUPPORT. The statement about integer, system-value and predicate instructions (R163, R166, R190, R194). -/

namespace Sys2Proof.Machine

/-! ### Registers and predicates of a core (R163) -/

theorem Core.setGr_zero (c : Core) (v : BitVec 64) : c.setGr 0 v = c := rfl

theorem Core.setGr_of_ne (c : Core) {n : Nat} (v : BitVec 64) (h : n ≠ 0) : c.setGr n v = { c with g := SMap.put c.g 0 n v } := if_neg h

theorem Core.gr_zero (c : Core) : c.gr 0 = 0 := rfl

theorem Core.gr_of_ne (c : Core) {n : Nat} (h : n ≠ 0) : c.gr n = SMap.get c.g 0 n := if_neg h

/-- A write touches the general registers alone. -/
theorem Core.setGr_eq (c : Core) (n : Nat) (v : BitVec 64) : c.setGr n v = { c with g := (c.setGr n v).g } := by
  by_cases h : n = 0
  · rw [h, Core.setGr_zero]
  · rw [Core.setGr_of_ne c v h]

/-- A written register reads back, except g0. -/
theorem Core.gr_setGr (c : Core) (n m : Nat) (v : BitVec 64) :
    (c.setGr n v).gr m = if m = 0 then 0 else if m = n then v else c.gr m := by
  by_cases hm : m = 0
  · rw [if_pos hm, hm, Core.gr_zero]
  · rw [if_neg hm]
    by_cases hmn : m = n
    · subst hmn
      rw [if_pos rfl, Core.gr_of_ne _ hm, Core.setGr_of_ne c v hm, SMap.get_put_self]
    · rw [if_neg hmn, Core.gr_of_ne _ hm, Core.gr_of_ne _ hm]
      by_cases hn : n = 0
      · rw [hn, Core.setGr_zero]
      · rw [Core.setGr_of_ne c v hn, SMap.get_put_of_ne _ _ _ _ hmn]

/-- Of the eight predicates, a write sets one. -/
theorem Core.pr_setPr (c : Core) {m n : Nat} (b : Bool) (hn : n < 8) : (c.setPr m b).pr n = if n = m then b else c.pr n := by
  have hbit : (c.setPr m b).pr n = (setBits c.p.toNat m m (if b then 1 else 0)).testBit n := by
    rw [Core.pr, Core.setPr, BitVec.getLsbD_ofNat, decide_eq_true hn, Bool.true_and]
  rw [hbit, testBit_setBits]
  by_cases h : n = m
  · subst h
    cases b <;> simp
  · have hout : ¬(m ≤ n ∧ n ≤ m) := by omega
    rw [if_neg hout, if_neg h, BitVec.testBit_toNat]
    rfl

/-! ### Relations (R194) -/

theorem cmpFn_getD (fn : BitVec 4) (a b : BitVec 64) (old : Bool) : (cmpFn fn a b).getD old =
    if fn = 0 then decide (a = b) else if fn = 1 then decide (a ≠ b) else if fn = 2 then decide (a.toInt < b.toInt)
    else if fn = 3 then decide (b.toInt ≤ a.toInt) else if fn = 4 then decide (a.toNat < b.toNat)
    else if fn = 5 then decide (b.toNat ≤ a.toNat) else old := by
  unfold cmpFn
  split
  next h => obtain rfl : fn = 0 := BitVec.eq_of_toNat_eq h; exact Bool.beq_eq_decide_eq a b
  next h => obtain rfl : fn = 1 := BitVec.eq_of_toNat_eq h; simp [bne, Bool.beq_eq_decide_eq]
  next h => obtain rfl : fn = 2 := BitVec.eq_of_toNat_eq h; rfl
  next h => obtain rfl : fn = 3 := BitVec.eq_of_toNat_eq h; exact decide_not.symm.trans (decide_eq_decide.mpr Int.not_lt)
  next h => obtain rfl : fn = 4 := BitVec.eq_of_toNat_eq h; rfl
  next h => obtain rfl : fn = 5 := BitVec.eq_of_toNat_eq h; exact decide_not.symm.trans (decide_eq_decide.mpr Nat.not_lt)
  next h0 h1 h2 h3 h4 h5 =>
    rw [if_neg, if_neg, if_neg, if_neg, if_neg, if_neg]
    · rfl
    all_goals rintro rfl; simp_all

theorem plogFn_getD (fn : BitVec 4) (a b old : Bool) : (plogFn fn a b).getD old =
    if fn = 0 then a && b else if fn = 1 then a || b else if fn = 2 then a != b else if fn = 3 then a && !b
    else if fn = 4 then true else if fn = 5 then false else old := by
  unfold plogFn
  split <;> simp_all [← BitVec.toNat_inj]

/-- The outcome of an instruction that writes a predicate. -/
theorem State.issuePr_of_runs {s : State} {x : Issue} (h : s.runs x) (pd : BitVec 3) (f : Core → Bool) {b : Bool}
    (hb : f (s.core x.site) = b) :
    ∃ d : Core, CoreNext (.next (s.issuePr x pd f)) s x.site d ∧ d = { s.core x.site with p := d.p } ∧
      ∀ n, n < 8 → d.pr n = if n = pd.toNat then b else (s.core x.site).pr n :=
  ⟨_, State.issueCore_of_runs _ h, rfl, fun _ hn => hb ▸ Core.pr_setPr _ _ hn⟩

/-- The selectors 1 to 15 (R190). -/
theorem Core.on_ofNat (c : Core) {n : Nat} (h1 : 1 ≤ n) (h2 : n ≤ 15) :
    c.on (BitVec.ofNat 4 n) = if n ≤ 8 then c.pr (n - 1) else !c.pr (n - 8) := by
  have hn : (BitVec.ofNat 4 n).toNat = n := by simp; omega
  have h0 : BitVec.ofNat 4 n ≠ 0 := by
    intro h
    rw [h] at hn
    simp at hn
    omega
  rw [Core.on, if_neg h0, hn]

theorem State.sysValue_of_large (s : State) (site : Nat) {k : Nat} (h : 8 < k) : s.sysValue site k = none := by
  obtain ⟨m, rfl⟩ : ∃ m, k = m + 9 := ⟨k - 9, by omega⟩
  rfl

/-- `SYSV` with an index of the table. -/
theorem State.sysv_of_runs {s : State} {x : Issue} {gd : BitVec 5} {k : BitVec 8} {v : Nat} (h : s.runs x)
    (hv : s.sysValue x.site k.toNat = some v) :
    CoreNext (exec (.sysv x gd k) s) s x.site ((s.core x.site).setGr gd.toNat (BitVec.ofNat 64 v)) := by
  show CoreNext (execSysv x gd k s) s x.site _
  rw [execSysv, hv]
  exact State.issueCore_of_runs _ h

/-- Settles O3: a general register or a predicate is written in the core alone; a predicate's value is the relation that `FN` selects. -/
theorem integerAndPredicateResults : Obligations.IntegerAndPredicateResults := by
  unfold Obligations.IntegerAndPredicateResults
  refine ⟨⟨?_, fun c n v => ⟨fun m => c.gr_setGr n m v, c.setGr_eq n v⟩, fun s site => ?_⟩, ?_,
    fun c n => ⟨rfl, fun h1 h8 => ?_, fun h9 h15 => ?_⟩⟩
  · intro s x gd ga gb imm sh k v h c a b r
    have hgr : ∀ f : Core → BitVec 64, CoreNext (.next (s.issueGr x gd f)) s x.site (c.setGr gd.toNat (f c)) :=
      fun _ => State.issueCore_of_runs _ h
    exact ⟨hgr _, hgr _, hgr _, hgr _, hgr _, hgr _, hgr _, hgr _, hgr _, hgr _, hgr _, hgr _, State.sysv_of_runs h⟩
  · exact ⟨rfl, rfl, rfl, rfl, rfl, rfl, rfl, rfl, rfl, fun _ => State.sysValue_of_large s site⟩
  · intro s x pd pa pb ga gb imm fn h c rel log r
    exact ⟨State.issuePr_of_runs h pd _ (cmpFn_getD ..), State.issuePr_of_runs h pd _ (cmpFn_getD ..),
      State.issuePr_of_runs h pd _ (plogFn_getD ..)⟩
  · rw [Core.on_ofNat c h1 (by omega), if_pos h8]
  · rw [Core.on_ofNat c (by omega) h15, if_neg (by omega)]

end Sys2Proof.Machine
end

section
/-! SUPPORT. The statement about elementwise vector instructions (R206, R207). -/

namespace Sys2Proof.Machine

section
variable {s : State} {x : Issue} {f : VecF} {fm : Fmt} (h : s.runs x) (ht : vecFmt f.t = some fm)
include h ht

theorem State.vec1_of_runs (op : F32 → F32) :
    CoreNext (.next (s.vec1 x f op)) s x.site
      ((s.core x.site).setElems fm f.vd.toNat (((s.core x.site).elems fm f.va.toNat (vecN f)).map op)) := by
  rw [State.vec1, ht]
  exact State.issueCore_of_runs _ h

theorem State.vec2_of_runs (op : F32 → F32 → F32) :
    CoreNext (.next (s.vec2 x f op)) s x.site ((s.core x.site).setElems fm f.vd.toNat
      (((s.core x.site).elems fm f.va.toNat (vecN f)).zipWith op ((s.core x.site).elems fm f.vb.toNat (vecN f)))) := by
  rw [State.vec2, ht]
  exact State.issueCore_of_runs _ h

theorem State.vecFn_of_runs (fn : Num → Num) :
    CoreNext (.next (s.vecFn x f fn)) s x.site ((s.core x.site).setVreg f.vd.toNat (bytesOf fm.bytes
      (((s.core x.site).elems fm f.va.toNat (vecN f)).map (fun a => fm.encode (fn (F32.num a)))))) := by
  rw [State.vecFn, ht]
  exact State.issueCore_of_runs _ h

theorem exec_vfma_of_runs :
    CoreNext (exec (.vfma x f) s) s x.site ((s.core x.site).setElems fm f.vd.toNat
      ((((s.core x.site).elems fm f.va.toNat (vecN f)).zip ((s.core x.site).elems fm f.vb.toNat (vecN f))).zipWith
        (fun p z => F32.fma p.1 p.2 z) ((s.core x.site).elems fm f.vc.toNat (vecN f)))) := by
  show CoreNext (execVfma x f s) s x.site _
  rw [execVfma, ht]
  exact State.issueCore_of_runs _ h

theorem exec_vbc_of_runs :
    CoreNext (exec (.vbc x f) s) s x.site
      ((s.core x.site).setElems fm f.vd.toNat (List.replicate (1024 / fm.bytes * vecN f) (vecImm f))) := by
  show CoreNext (execVbc x f s) s x.site _
  rw [execVbc, ht]
  exact State.issueCore_of_runs _ h

end

/-! ### `VMAX` and `VMIN` (R206) -/

section
variable {a b : F32}

theorem vmaxOp_of_nan (h : F32.isNan a = true ∨ F32.isNan b = true) : vmaxOp a b = F32.nan :=
  if_pos (by simpa using h)

theorem vminOp_of_nan (h : F32.isNan a = true ∨ F32.isNan b = true) : vminOp a b = F32.nan :=
  if_pos (by simpa using h)

variable (ha : F32.isNan a = false) (hb : F32.isNan b = false)
include ha hb

theorem vmaxOp_of_lt (h : Num.lt (F32.num a) (F32.num b) = true) : vmaxOp a b = b := by
  simp [vmaxOp, ha, hb, h]

theorem vmaxOp_of_gt (h : Num.lt (F32.num b) (F32.num a) = true) (h' : Num.lt (F32.num a) (F32.num b) = false) : vmaxOp a b = a := by
  simp [vmaxOp, ha, hb, h, h']

theorem vminOp_of_gt (h : Num.lt (F32.num b) (F32.num a) = true) : vminOp a b = b := by
  simp [vminOp, ha, hb, h]

theorem vminOp_of_lt (h : Num.lt (F32.num a) (F32.num b) = true) (h' : Num.lt (F32.num b) (F32.num a) = false) : vminOp a b = a := by
  simp [vminOp, ha, hb, h, h']

/-- The result is one of the operands. -/
theorem vmaxOp_eq_or : vmaxOp a b = a ∨ vmaxOp a b = b := by
  simp only [vmaxOp, ha, hb, Bool.or_self, Bool.false_eq_true, if_false]
  split_ifs <;> simp

theorem vminOp_eq_or : vminOp a b = a ∨ vminOp a b = b := by
  simp only [vminOp, ha, hb, Bool.or_self, Bool.false_eq_true, if_false]
  split_ifs <;> simp

end

/-- Settles O6: each instruction by the shape of its operands; `VMAX` and `VMIN` by the comparison of their operands. -/
theorem elementwiseVectorResults : Obligations.ElementwiseVectorResults := by
  unfold Obligations.ElementwiseVectorResults
  refine ⟨?_, fun a b => ⟨fun hn => ⟨vmaxOp_of_nan hn, vminOp_of_nan hn⟩, fun ha hb => ⟨fun hlt => ?_, fun hgt => ?_, vmaxOp_eq_or ha hb,
    vminOp_eq_or ha hb⟩⟩⟩
  · intro s x f fm h ht c va vb vc r e
    have h1 := State.vec1_of_runs h ht
    have h2 := State.vec2_of_runs h ht
    have hfn := State.vecFn_of_runs h ht
    exact ⟨h2 _, h2 _, h2 _, exec_vfma_of_runs h ht, h2 _, h2 _, h1 _, h1 _, h1 _, h1 _, hfn _, hfn _, hfn _, hfn _, hfn _,
      exec_vbc_of_runs h ht⟩
  · exact ⟨vmaxOp_of_lt ha hb hlt, vminOp_of_lt ha hb hlt⟩
  · exact ⟨vminOp_of_gt ha hb hgt, vmaxOp_of_gt ha hb hgt⟩

end Sys2Proof.Machine
end

section
/-! SUPPORT. Bytes of a memory in canonical form, one by one. -/

namespace Sys2Proof

/-- The bytes that a rising list of cells spells are those that its lookups find. -/
theorem Mem.getElem?_expand (n : Nat) : ∀ (m : Mem) (a k : Nat), m.Pairwise (fun p q => p.1 < q.1) → (∀ c ∈ m, a ≤ c.1) → k < n →
    (Mem.expand m a n)[k]? = some (Mem.get m (a + k)) := by
  induction n with
  | zero => intro m a k _ _ hk; omega
  | succ n ih =>
    intro m a k hsort hlow hk
    cases m with
    | nil =>
      cases k with
      | zero => rfl
      | succ k => exact ih [] (a + 1) k List.Pairwise.nil (by simp) (by omega)
    | cons c t =>
      obtain ⟨hhead, htail⟩ := List.pairwise_cons.mp hsort
      have hc := hlow c (by simp)
      by_cases hca : c.1 = a
      · have hstep : Mem.expand (c :: t) a (n + 1) = c.2 :: Mem.expand t (a + 1) n := if_pos hca
        rw [hstep]
        cases k with
        | zero => simp [Mem.get, SMap.get, hca]
        | succ k =>
          have hne : c.1 ≠ a + (k + 1) := by omega
          rw [List.getElem?_cons_succ, ih t (a + 1) k htail (fun d hd => by have := hhead d hd; omega) (by omega), Nat.add_right_comm a 1 k]
          simp only [Mem.get, SMap.get, if_neg hne]
          rfl
      · have hstep : Mem.expand (c :: t) a (n + 1) = 0 :: Mem.expand (c :: t) (a + 1) n := if_neg hca
        have hgt : ∀ d ∈ c :: t, a + 1 ≤ d.1 := by
          intro d hd
          rcases List.mem_cons.mp hd with rfl | hd
          · omega
          · have := hhead d hd; omega
        rw [hstep]
        cases k with
        | zero =>
          have hnone : Mem.get (c :: t) a = 0 := SMap.get_of_notMem _ _ _ (fun d hd => by have := hgt d hd; omega)
          exact congrArg some hnone.symm
        | succ k => rw [List.getElem?_cons_succ, ih (c :: t) (a + 1) k hsort hgt (by omega), Nat.add_right_comm a 1 k, Nat.add_assoc]

/-- A read of a memory in canonical form finds its bytes. -/
theorem Mem.getElem?_read {m : Mem} (hm : Mem.wf m = true) (a : Nat) {k n : Nat} (hk : k < n) :
    (Mem.read m a n)[k]? = some (Mem.get m (a + k)) := by
  have hsort := ((SMap.wf_iff m 0).mp hm).1
  rw [Mem.read, Mem.getElem?_expand n _ a k (hsort.sublist List.filter_sublist) (fun c hc => ?_) hk]
  · congr 1
    refine SMap.get_filter m 0 (a + k) _ (fun c _ he => ?_)
    simp [he, hk]
  · have := (List.mem_filter.mp hc).2
    simp only [Bool.and_eq_true, decide_eq_true_eq] at this
    exact this.1

end Sys2Proof

namespace Sys2Proof.Machine

/-! ### What a consumer reads of the scratchpad (R362) -/

@[simp] theorem Core.length_spRead (c : Core) (a n : Nat) : (c.spRead a n).length = n := by
  unfold Core.spRead
  split <;> simp

/-- A range free of poison is read as it is stored. -/
theorem Core.spRead_of_sound {c : Core} {a n : Nat} (h : c.spPoisoned a n = false) : c.spRead a n = c.sp a n := by
  simp [Core.spRead, h]

/-- A range that is free of poison holds no byte of a poisoned codeword. -/
theorem Core.notMem_spmPoison {c : Core} {a n k : Nat} (h : c.spPoisoned a n = false) (hk : k < n) : (a + k) / 8 ∉ c.spmPoison := by
  intro hmem
  have := List.any_eq_false.mp h _ hmem
  simp only [decide_eq_true_eq] at this
  omega

theorem Core.getElem?_spRead {c : Core} (hm : Mem.wf c.spm = true) (a : Nat) {k n : Nat} (hk : k < n) :
    (c.spRead a n)[k]? = some (if (a + k) / 8 ∈ c.spmPoison then (if (a + k) % 2 = 0 then 0xC0 else 0x7F) else Mem.get c.spm (a + k)) := by
  have hbyte : (c.sp a n)[k]? = some (Mem.get c.spm (a + k)) := Mem.getElem?_read hm a hk
  cases hp : c.spPoisoned a n with
  | false => rw [Core.spRead_of_sound hp, hbyte, if_neg (Core.notMem_spmPoison hp hk)]
  | true => simp [Core.spRead, hp, List.getElem?_zipIdx, hbyte]

/-! ### Counting a read that consumes poison (R361) -/

/-- A next state in which a core is replaced, and poison that was met has been counted. -/
theorem countNext_consumed {s : State} {site : Nat} {c : Core} (hc : s.calm) (hr : s.room Reg.MEM_POISON_CONSUMED 0 0 1) (b : Bool) :
    CountNext (finish (((s.setCore site c).consumed b).updCore site Core.advance)) s site c Reg.MEM_POISON_CONSUMED 0 0 (if b then 1 else 0) := by
  rw [State.consumed_eq_err]
  exact countNext_of hc (State.room_mono hr (by split <;> decide))

end Sys2Proof.Machine
end

section
/-! SUPPORT. The statement about moves within the core (R213, R361, R362). -/

namespace Sys2Proof.Machine

section
variable {s : State} {x : Issue} (f : LdStF) (h : s.runs x) (hc : s.calm) (hr : s.room Reg.MEM_POISON_CONSUMED 0 0 1)
include h hc hr

theorem ldv_of_runs {c : Core} (hcore : s.core x.site = c) {a n : Nat} (ha : a = ldstAddr f (c.stepIdx x))
    (hn : n = 1024 * (f.nm1.toNat + 1)) :
    CountNext (exec (.ldv x f) s) s x.site (c.setVreg f.reg.toNat (c.spRead a n)) Reg.MEM_POISON_CONSUMED 0 0
      (if c.spPoisoned a n then 1 else 0) := by
  subst hcore ha hn
  show CountNext (execLdv x f s) s x.site _ _ _ _ _
  rw [execLdv, State.issue_of_runs _ h]
  exact countNext_consumed hc hr _

theorem ldg_of_runs {c : Core} (hcore : s.core x.site = c) {a : Nat} (ha : a = ldstAddr f (c.stepIdx x)) :
    CountNext (exec (.ldg x f) s) s x.site (c.setGr f.reg.toNat (BitVec.ofNat 64 (ofLE (c.spRead a 8)))) Reg.MEM_POISON_CONSUMED 0 0
      (if c.spPoisoned a 8 then 1 else 0) := by
  subst hcore ha
  show CountNext (execLdg x f s) s x.site _ _ _ _ _
  rw [execLdg, State.issue_of_runs _ h]
  exact countNext_consumed hc hr _

end

/-- Settles O10: a move has its effect in its core; a load counts the poison it meets; a read finds the stored bytes. -/
theorem scratchpadMoves : Obligations.ScratchpadMoves := by
  unfold Obligations.ScratchpadMoves
  refine ⟨?_, fun c a n hm => ⟨c.length_spRead a n, fun k hk => Core.getElem?_spRead hm a hk⟩⟩
  intro s x f g h c i a n src k hit
  exact ⟨State.issueCore_of_runs _ h, State.issueCore_of_runs _ h, State.issueCore_of_runs _ h,
    fun hc hr => ⟨ldv_of_runs f h hc hr rfl rfl rfl, ldg_of_runs f h hc hr rfl rfl⟩⟩

end Sys2Proof.Machine
end

section
/-! SUPPORT. The merge and the end of partial states of attention (R217, R219), and the statement about them. -/

namespace Sys2Proof.Machine

section
variable {s : State} {x : Issue} {f : AttF} {d : Nat} (h : s.runs x) (hd : headDim f.dh.toNat = some d)
include h hd

theorem exec_attMrg_of_runs :
    let c := s.core x.site
    let heads := f.gm1.toNat + 1
    let size := stateBytes d * heads
    let a := attAddr f.a.toNat size (c.stepIdx x)
    let b := attAddr f.b.toNat size (c.stepIdx x)
    exec (.attMrg x f) s = finish (((s.setCore x.site
      (c.setSp b (((c.partials a heads d).zipWith Partial.merge (c.partials b heads d)).flatMap Partial.bytes))).consumed
        (c.spPoisoned a size || c.spPoisoned b size)).updCore x.site Core.advance) := by
  show execAttMrg x f s = _
  rw [execAttMrg, State.issue_of_runs _ h, hd]

theorem exec_attFin_of_runs :
    let c := s.core x.site
    let heads := f.gm1.toNat + 1
    let a := attAddr f.a.toNat (stateBytes d * heads) (c.stepIdx x)
    let wide := f.imm.getLsbD 0
    let xs := (c.partials a heads d).flatMap Partial.final
    exec (.attFin x f) s = finish (((s.setCore x.site (c.setSp (attAddr f.b.toNat ((if wide then 4 else 2) * d * heads) (c.stepIdx x))
      (if wide then xs.flatMap (fun v => toLE 4 v.toNat) else bytesOf 2 (xs.map (fun v => Fmt.bf16.encode (F32.num v)))))).consumed
        (c.spPoisoned a (stateBytes d * heads))).updCore x.site Core.advance) := by
  show execAttFin x f s = _
  rw [execAttFin, State.issue_of_runs _ h, hd]

end

/-- The merge of two empty states. -/
theorem Partial.merge_of_empty {a b : Partial} (ha : a.m = negInf) (hb : b.m = negInf) : a.merge b = emptyPartial a.o.length :=
  if_pos ⟨ha, hb⟩

/-- Every other merge, state a first. -/
theorem Partial.merge_of_not_empty {a b : Partial} (h : a.m ≠ negInf ∨ b.m ≠ negInf) :
    let m := vmaxOp a.m b.m
    let ea := F32.exp (F32.sub a.m m)
    let eb := F32.exp (F32.sub b.m m)
    a.merge b = ⟨a.o.zipWith (fun p q => F32.add (F32.mul p ea) (F32.mul q eb)) b.o, m, F32.add (F32.mul a.l ea) (F32.mul b.l eb)⟩ :=
  if_neg fun ⟨ha, hb⟩ => h.elim (· ha) (· hb)

/-- Settles O22: both instructions replace their core and count the poison that they have met; a merge is that of two empty states or not. -/
theorem mergeAndFinish : Obligations.MergeAndFinish := by
  unfold Obligations.MergeAndFinish
  refine ⟨?_, ?_⟩
  · intro s x f d h hc hd hr c i heads size a b wide out xs
    refine ⟨?_, ?_⟩
    · rw [exec_attMrg_of_runs h hd]
      exact countNext_consumed hc hr _
    · rw [exec_attFin_of_runs h hd]
      exact countNext_consumed hc hr _
  · intro a b m ea eb
    refine ⟨Partial.merge_of_empty, fun hm => ?_⟩
    rw [Partial.merge_of_not_empty hm]
    exact ⟨rfl, rfl, rfl⟩

end Sys2Proof.Machine
end

section
/-! SUPPORT. What barge instructions read, and an unoccupied slot (R220), with the statement about them. -/

namespace Sys2Proof.Machine

section
variable {s : State} {x : Issue} (h : s.runs x)
include h

/-- An instruction that changes its core alone, by what it reads of the state. -/
theorem coreNext_issue_updCore (g : State → Nat → Core → Core) :
    CoreNext (.next (s.issue x (fun s i => s.updCore x.site (g s i)))) s x.site (g s ((s.core x.site).stepIdx x) (s.core x.site)) := by
  rw [State.issue_of_runs _ h]
  exact coreNext_of rfl

/-- An instruction without an effect in a calm state: the core moves on. -/
theorem coreNext_finish_issue_of_eq (hc : s.calm) {f : State → Nat → State} (hf : f s ((s.core x.site).stepIdx x) = s) :
    CoreNext (finish (s.issue x f)) s x.site (s.core x.site) := by
  rw [State.issue_of_runs _ h, hf]
  exact coreNext_finish_advance hc rfl rfl

variable {f : BrgF}

theorem brgSlot_of_runs {r : Option Nat} (hr : s.brgBarge x.site f ((s.core x.site).stepIdx x) = r) :
    CoreNext (exec (.brgSlot x f) s) s x.site
      (((s.core x.site).setGr f.gd.toNat (r.elim (BitVec.allOnes 64) (BitVec.ofNat 64))).setPr f.pd.toNat r.isSome) := by
  have hexec : CoreNext (exec (.brgSlot x f) s) s x.site _ := coreNext_issue_updCore h _
  rw [hr] at hexec
  cases r <;> exact hexec

theorem brgInfo_of_runs {r : Option Nat} (hr : s.brgBarge x.site f ((s.core x.site).stepIdx x) = r) :
    CoreNext (exec (.brgInfo x f) s) s x.site
      ((s.core x.site).setGr f.gd.toNat (BitVec.ofNat 64 (r.elim 0 fun n => (s.barge n).info (f.x8.toNat % 16)))) := by
  have hexec : CoreNext (exec (.brgInfo x f) s) s x.site _ := coreNext_issue_updCore h _
  rw [hr] at hexec
  cases r <;> exact hexec

/-- The four instructions that change more than a register find no barge on an unoccupied slot. -/
theorem coreNext_of_unoccupied (hc : s.calm) (hnone : s.brgBarge x.site f ((s.core x.site).stepIdx x) = none) :
    ∀ i ∈ [Instr.brgVar x f, .brgSamp x f, .brgAcpt x f, .brgEmit x f], CoreNext (exec i s) s x.site (s.core x.site) := by
  simp only [List.forall_mem_cons, List.not_mem_nil, IsEmpty.forall_iff, implies_true, and_true]
  refine ⟨coreNext_finish_issue_of_eq h hc ?_, coreNext_finish_issue_of_eq h hc ?_, coreNext_finish_issue_of_eq h hc ?_,
    coreNext_finish_issue_of_eq h hc ?_⟩ <;> rw [hnone]

end

/-- A slot above 1,023 counts as unoccupied. -/
theorem State.brgBarge_of_large {s : State} {site i : Nat} {f : BrgF} (h : 1023 < (s.core site).brgSlot f i) : s.brgBarge site f i = none :=
  if_neg (Nat.not_le.mpr h)

/-- Settles O23: what is read of a barge or of an unoccupied slot goes to the core's registers; on such a slot nothing else happens. -/
theorem bargeReads : Obligations.BargeReads := by
  unfold Obligations.BargeReads
  refine ⟨?_, fun s site i f => State.brgBarge_of_large, fun s x f h hc => coreNext_of_unoccupied h hc⟩
  intro s x f h c i
  refine ⟨fun hnone => ⟨brgSlot_of_runs h hnone, brgInfo_of_runs h hnone⟩, ?_⟩
  intro n hn b r k
  have hinfo : ∀ {m : Nat}, k = m → r (b.info m) := fun hk => hk ▸ brgInfo_of_runs h hn
  exact ⟨brgSlot_of_runs h hn, hinfo, hinfo, hinfo, hinfo, hinfo, hinfo, hinfo⟩

end Sys2Proof.Machine
end

section
/-! SUPPORT. The order of floating-point values as a linear order: a NaN below every number, the finite values by the rational that each
denotes (R206, R211). -/

namespace Sys2Proof.Machine

/-- The rational that a sign, a mantissa and an exponent denote. -/
def dyadic (neg : Bool) (m : Nat) (e : Int) : ℚ := (if neg then -(m : ℚ) else m) * 2 ^ e

/-- What a value is ordered by: its kind, then its rational. -/
def Num.key : Num → ℕ ×ₗ ℚ
  | .nan => toLex (0, 0)
  | .inf true => toLex (1, 0)
  | .fin a m e => toLex (2, dyadic a m e)
  | .inf false => toLex (3, 0)

/-- A mantissa aligned at a lower exponent is the value scaled by that exponent. -/
theorem cast_alignTo (neg : Bool) (m : Nat) {e k : Int} (h : k ≤ e) : ((alignTo neg m e k : Int) : ℚ) * 2 ^ k = dyadic neg m e := by
  have hpow : ((2 : ℚ) ^ (e - k).toNat) * 2 ^ k = 2 ^ e := by
    rw [← zpow_natCast, Int.toNat_of_nonneg (by omega), ← zpow_add₀ two_ne_zero, Int.sub_add_cancel]
  have hmag : (((m * 2 ^ (e - k).toNat : Nat) : Int) : ℚ) * 2 ^ k = m * 2 ^ e := by
    push_cast
    rw [mul_assoc, hpow]
  cases neg with
  | false => exact hmag
  | true =>
    show ((-((m * 2 ^ (e - k).toNat : Nat) : Int) : Int) : ℚ) * 2 ^ k = -(m : ℚ) * 2 ^ e
    rw [Int.cast_neg, neg_mul, hmag, neg_mul]

theorem alignTo_lt_iff (a b : Bool) (m n : Nat) (e d : Int) :
    alignTo a m e (min e d) < alignTo b n d (min e d) ↔ dyadic a m e < dyadic b n d := by
  have hpos : (0 : ℚ) < 2 ^ min e d := zpow_pos two_pos _
  rw [← cast_alignTo a m (min_le_left e d), ← cast_alignTo b n (min_le_right e d), mul_lt_mul_iff_left₀ hpos, Int.cast_lt]

/-- The comparison of two values is that of their keys, but that no NaN is below a number. -/
theorem Num.lt_iff_key (x y : Num) : Num.lt x y = true ↔ x.isNan = false ∧ x.key < y.key := by
  cases x with
  | nan => simp [Num.lt, Num.isNan]
  | inf a => cases y with
    | nan => cases a <;> simp [Num.lt, Num.key, Num.isNan, Prod.Lex.toLex_lt_toLex]
    | inf b => cases a <;> cases b <;> simp [Num.lt, Num.key, Num.isNan, Prod.Lex.toLex_lt_toLex]
    | fin b n d => cases a <;> simp [Num.lt, Num.key, Num.isNan, Prod.Lex.toLex_lt_toLex]
  | fin a m e => cases y with
    | nan => simp [Num.lt, Num.key, Num.isNan, Prod.Lex.toLex_lt_toLex]
    | inf b => cases b <;> simp [Num.lt, Num.key, Num.isNan, Prod.Lex.toLex_lt_toLex]
    | fin b n d => simp [Num.lt, Num.key, Num.isNan, Prod.Lex.toLex_lt_toLex, alignTo_lt_iff]

/-- The NaN lies below every number. -/
theorem Num.key_lt_of_isNan (x y : Num) (hx : x.isNan = true) : x.key < y.key ↔ y.isNan = false := by
  cases x with
  | nan => rcases y with _ | (_ | _) | _ <;> simp [Num.key, Num.isNan, Prod.Lex.toLex_lt_toLex]
  | inf a => exact nomatch hx
  | fin a m e => exact nomatch hx

/-- To rank above is to have the greater key (R211). -/
theorem ranksAbove_iff (a b : F32) : ranksAbove a b = true ↔ (F32.num b).key < (F32.num a).key := by
  simp only [ranksAbove, F32.isNan, Bool.or_eq_true, Bool.and_eq_true, Bool.not_eq_true', Num.lt_iff_key]
  cases hb : (F32.num b).isNan with
  | false => simp
  | true => simp [Num.key_lt_of_isNan _ _ hb]

theorem ranksAbove_eq_false_iff (a b : F32) : ranksAbove a b = false ↔ (F32.num a).key ≤ (F32.num b).key := by
  rw [← Bool.not_eq_true, ranksAbove_iff, not_lt]

end Sys2Proof.Machine
end

section
/-! SUPPORT. Top K as the beginning of a sort by insertion (R183, R211). -/

namespace Sys2Proof.Machine

/-- All of a list of indexed values in the order of top K. -/
def rankSort (l : List (Nat × F32)) : List (Nat × F32) := l.foldl (fun l p => rankInsert p l) []

/-- The elements of a list with their positions. -/
def indexed (xs : List F32) : List (Nat × F32) := xs.zipIdx.map (fun p => (p.2, p.1))

/-- One element comes before another: it does not rank below it, and among equals it has the lower position. -/
def ranksBefore (p q : Nat × F32) : Prop := ranksAbove q.2 p.2 = false ∧ (ranksAbove p.2 q.2 = false → p.1 < q.1)

/-- What an insertion leaves among the first `k` depends on the first `k` alone. -/
theorem take_rankInsert_take (p : Nat × F32) (l : List (Nat × F32)) : ∀ k, (rankInsert p (l.take k)).take k = (rankInsert p l).take k := by
  induction l with
  | nil => simp
  | cons q t ih =>
    intro k
    cases k with
    | zero => simp
    | succ k =>
      rw [List.take_succ_cons, rankInsert, rankInsert]
      split
      · cases k with
        | zero => rfl
        | succ k => simp [List.take_take]
      · rw [List.take_succ_cons, List.take_succ_cons, ih]

theorem topK_eq_take (k : Nat) (xs : List F32) : topK k xs = (rankSort (indexed xs)).take k := by
  have hfold : ∀ (l a : List (Nat × F32)),
      l.foldl (fun l p => (rankInsert p l).take k) (a.take k) = (l.foldl (fun l p => rankInsert p l) a).take k := by
    intro l
    induction l with
    | nil => exact fun _ => rfl
    | cons p t ih =>
      intro a
      rw [List.foldl_cons, List.foldl_cons, take_rankInsert_take, ih]
  have hnil := hfold (indexed xs) []
  rwa [List.take_nil] at hnil

theorem rankInsert_perm (p : Nat × F32) (l : List (Nat × F32)) : (rankInsert p l).Perm (p :: l) := by
  induction l with
  | nil => exact .refl _
  | cons q t ih =>
    rw [rankInsert]
    split
    · exact .refl _
    · exact (ih.cons q).trans (.swap p q t)

/-- An element behind all others, inserted into a list in order, leaves it in order. -/
theorem pairwise_rankInsert {p : Nat × F32} {l : List (Nat × F32)} (hl : l.Pairwise ranksBefore) (hp : ∀ q ∈ l, q.1 < p.1) :
    (rankInsert p l).Pairwise ranksBefore := by
  induction l with
  | nil => exact List.pairwise_singleton _ _
  | cons q t ih =>
    obtain ⟨hq, ht⟩ := List.pairwise_cons.mp hl
    rw [rankInsert]
    split
    next habove =>
      have hkey := (ranksAbove_iff _ _).mp habove
      -- whatever does not rank above q ranks below p
      have hbelow : ∀ r : Nat × F32, ranksAbove r.2 q.2 = false → ranksBefore p r := by
        intro r hr
        have hlt := ((ranksAbove_eq_false_iff _ _).mp hr).trans_lt hkey
        refine ⟨(ranksAbove_eq_false_iff _ _).mpr hlt.le, fun hnot => ?_⟩
        exact absurd ((ranksAbove_eq_false_iff _ _).mp hnot) (not_le.mpr hlt)
      refine List.pairwise_cons.mpr ⟨fun r hr => hbelow r ?_, hl⟩
      rcases List.mem_cons.mp hr with rfl | hr
      · exact (ranksAbove_eq_false_iff _ _).mpr le_rfl
      · exact (hq r hr).1
    next hnot =>
      refine List.pairwise_cons.mpr ⟨fun r hr => ?_, ih ht fun r hr => hp r (List.mem_cons_of_mem q hr)⟩
      rcases List.mem_cons.mp ((rankInsert_perm p t).mem_iff.mp hr) with rfl | hr
      · exact ⟨Bool.not_eq_true _ ▸ hnot, fun _ => hp q List.mem_cons_self⟩
      · exact hq r hr

/-- A list whose positions rise, sorted: the same elements, in order. -/
theorem rankSort_spec (l : List (Nat × F32)) (hl : l.Pairwise (fun p q => p.1 < q.1)) :
    (rankSort l).Perm l ∧ (rankSort l).Pairwise ranksBefore := by
  induction l using List.reverseRecOn with
  | nil => exact ⟨.refl _, List.Pairwise.nil⟩
  | append_singleton t p ih =>
    obtain ⟨ht, -, hp⟩ := List.pairwise_append.mp hl
    obtain ⟨hperm, hsorted⟩ := ih ht
    have hstep : rankSort (t ++ [p]) = rankInsert p (rankSort t) := by simp [rankSort]
    rw [hstep]
    refine ⟨(rankInsert_perm p _).trans ((hperm.cons p).trans (List.perm_append_singleton p t).symm), pairwise_rankInsert hsorted ?_⟩
    exact fun q hq => hp q (hperm.mem_iff.mp hq) p (List.mem_singleton_self p)

theorem mem_indexed {xs : List F32} {p : Nat × F32} : p ∈ indexed xs ↔ xs[p.1]? = some p.2 := by
  simp only [indexed, List.mem_map, Prod.exists]
  constructor
  · rintro ⟨v, n, hmem, rfl⟩
    exact List.mk_mem_zipIdx_iff_getElem?.mp hmem
  · intro h
    exact ⟨p.2, p.1, List.mk_mem_zipIdx_iff_getElem?.mpr h, rfl⟩

theorem length_indexed (xs : List F32) : (indexed xs).length = xs.length := by simp [indexed]

theorem pairwise_indexed (xs : List F32) : (indexed xs).Pairwise (fun p q => p.1 < q.1) := by
  have hrange : (indexed xs).map Prod.fst = List.range xs.length := by
    simp [indexed, Function.comp_def, List.zipIdx_map_snd, List.range_eq_range']
  refine List.Pairwise.of_map Prod.fst (S := (· < ·)) (fun _ _ h => h) ?_
  rw [hrange]
  exact List.pairwise_lt_range

end Sys2Proof.Machine
end

section
/-! SUPPORT. Reductions, normalisation, rotation and top K (R207, R209 to R211), and the statement about them. -/

namespace Sys2Proof.Machine

section
variable {s : State} {x : Issue} {f : VecF} {fm : Fmt} (h : s.runs x) (ht : vecFmt f.t = some fm)
include h ht

theorem State.vecReduce_of_runs (op : F32 → F32 → F32) :
    CoreNext (.next (s.vecReduce x f op)) s x.site ((s.core x.site).setElems fm f.vd.toNat
      (laneReduce op ((s.core x.site).elems fm f.va.toNat (vecN f)) :: List.replicate (1024 / fm.bytes - 1) 0)) := by
  rw [State.vecReduce, ht]
  exact State.issueCore_of_runs _ h

theorem exec_vrms_of_runs :
    let va := (s.core x.site).elems fm f.va.toNat (vecN f)
    let mean := F32.div (laneReduce F32.add (va.map (fun a => F32.mul a a))) (F32.ofInt va.length)
    let rho := F32.of (Num.rsqrt (F32.num (F32.add mean (vecImm f))))
    CoreNext (exec (.vrms x f) s) s x.site ((s.core x.site).setElems fm f.vd.toNat
      (va.zipWith (fun a g => F32.mul (F32.mul a rho) g) ((s.core x.site).elems fm f.vb.toNat (vecN f)))) := by
  intro va mean rho
  show CoreNext (execVrms x f s) s x.site _
  rw [execVrms, ht]
  exact State.issueCore_of_runs _ h

theorem exec_vrope_of_runs {d : Nat} (hd : headDim (f.aux.toNat % 4) = some d) :
    let c := s.core x.site
    let va := c.elems fm f.va.toNat (vecN f)
    CoreNext (exec (.vrope x f) s) s x.site (c.setVreg f.vd.toNat (bytesOf fm.bytes ((chunks d va va.length).flatMap
      (ropePairs fm (((c.elems .fp32 f.vb.toNat 1).take (d / 2)).map (ropeCosSin (c.gr f.vc.toNat).toNat)))))) := by
  intro c va
  show CoreNext (execVrope x f s) s x.site _
  rw [execVrope, ht, hd]
  exact State.issueCore_of_runs _ h

end

/-- Settles O7: each instruction replaces its core; top K is the beginning of the whole list in order, the rest of which ranks above none
of it. -/
theorem vectorGroupResults : Obligations.VectorGroupResults := by
  unfold Obligations.VectorGroupResults
  refine ⟨?_, ?_⟩
  · intro s x f fm d h ht c va vb r mean rho
    exact ⟨State.vecReduce_of_runs h ht _, State.vecReduce_of_runs h ht _, exec_vrms_of_runs h ht, exec_vrope_of_runs h ht,
      State.issueCore_of_runs _ h⟩
  · intro k xs
    obtain ⟨hperm, hsorted⟩ := rankSort_spec (indexed xs) (pairwise_indexed xs)
    rw [topK_eq_take]
    refine ⟨?_, fun p hp => ?_, hsorted.sublist (List.take_sublist k _), fun n v hv hout p hp => ?_⟩
    · rw [List.length_take, hperm.length_eq, length_indexed]
    · exact mem_indexed.mp (hperm.mem_iff.mp (List.mem_of_mem_take hp))
    · have hmem : (n, v) ∈ rankSort (indexed xs) := hperm.mem_iff.mpr (mem_indexed.mpr hv)
      rw [← List.take_append_drop k (rankSort (indexed xs))] at hmem hsorted
      obtain ⟨-, -, hrest⟩ := List.pairwise_append.mp hsorted
      exact (hrest p hp (n, v) ((List.mem_append.mp hmem).resolve_left hout)).1

end Sys2Proof.Machine
end

section
/-! SUPPORT. The acceptance of drafts (R222, R280), and the statement about it. -/

namespace Sys2Proof

/-- A list of bytes that holds `m` words gives `m`. -/
theorem length_wordsOf {n m : Nat} (hn : 0 < n) {bs : List Byte} (h : bs.length = n * m) : (wordsOf n bs).length = m := by
  have hm : bs.length / n = m := by rw [h, Nat.mul_div_cancel_left _ hn]
  rw [wordsOf, hm, chunks_eq_map_range hn m bs m h le_rfl]
  simp

end Sys2Proof

namespace Sys2Proof.Machine

/-! ### How many drafts are accepted -/

theorem accepted_nil (toks : List Nat) : accepted toks [] = 1 := by cases toks <;> rfl

theorem accepted_of_eq {t d : Nat} (ts ds : List Nat) (h : t = d) : accepted (t :: ts) (d :: ds) = accepted ts ds + 1 := if_pos h

theorem accepted_of_ne {t d : Nat} (ts ds : List Nat) (h : t ≠ d) : accepted (t :: ts) (d :: ds) = 1 := if_neg h

/-- Before the last accepted token every draft equals the main model's token; there, if a draft is left, it does not. -/
theorem accepted_spec (ds : List Nat) : ∀ ts : List Nat, ds.length < ts.length →
    1 ≤ accepted ts ds ∧ accepted ts ds ≤ ds.length + 1 ∧ (∀ k, k + 1 < accepted ts ds → ds[k]? = ts[k]?) ∧
      (accepted ts ds ≤ ds.length → ds[accepted ts ds - 1]? ≠ ts[accepted ts ds - 1]?) := by
  induction ds with
  | nil =>
    intro ts _
    rw [accepted_nil]
    exact ⟨le_rfl, le_rfl, fun k hk => by omega, fun h => by simp at h⟩
  | cons d ds ih =>
    intro ts hlen
    cases ts with
    | nil => simp at hlen
    | cons t ts =>
      by_cases h : t = d
      · obtain ⟨hlow, hhigh, hsame, hdiff⟩ := ih ts (by simpa using hlen)
        rw [accepted_of_eq ts ds h]
        refine ⟨by omega, by simpa using hhigh, fun k hk => ?_, fun hle => ?_⟩
        · cases k with
          | zero => simp [h]
          | succ k => simpa using hsame k (by omega)
        · obtain ⟨m, hm⟩ : ∃ m, accepted ts ds = m + 1 := ⟨accepted ts ds - 1, by omega⟩
          rw [hm] at hdiff ⊢
          simpa using hdiff (by simpa [hm] using hle)
      · rw [accepted_of_ne ts ds h]
        exact ⟨le_rfl, by simp, fun k hk => by omega, fun _ => by simpa using Ne.symm h⟩

/-! ### `BRG.ACPT` -/

/-- What `BRG.ACPT` stages for a slot. -/
def State.stagedFor (s : State) (e : AccSlot) : State :=
  { s with seq := { s.seq with accepts := s.seq.accepts.filter (fun z => z.slot != e.slot) ++ [e] } }

theorem exec_brgAcpt_of_clean {s : State} {x : Issue} {f : BrgF} {m : Nat} (h : s.runs x)
    (hm : s.brgBarge x.site f ((s.core x.site).stepIdx x) = some m) (ha : (s.core x.site).spPoisoned f.a.toNat (4 * ((s.barge m).dNow + 1)) = false)
    (hb : (s.core x.site).spPoisoned f.b.toNat (4 * (s.barge m).dNow) = false) :
    let c := s.core x.site
    let t := wordsOf 4 (c.spRead f.a.toNat (4 * ((s.barge m).dNow + 1)))
    let a := accepted t (wordsOf 4 (c.spRead f.b.toNat (4 * (s.barge m).dNow)))
    exec (.brgAcpt x f) s = finish (((s.stagedFor ⟨c.brgSlot f (c.stepIdx x), a, (t.take a).map (BitVec.ofNat 32), false⟩).updCore x.site
      (fun c => c.setGr f.gd.toNat (BitVec.ofNat 64 a))).updCore x.site Core.advance) := by
  show execBrgAcpt x f s = _
  rw [execBrgAcpt, State.issue_of_runs _ h, hm]
  simp only [ha, hb]
  rfl

/-- Settles O24: the number of accepted tokens is the one that the drafts and the main model's tokens give; the core writes it, and the slot's
acceptance is staged. -/
theorem acceptanceIsStaged : Obligations.AcceptanceIsStaged := by
  unfold Obligations.AcceptanceIsStaged
  intro s x f m h hc hm c slot d t dr ha hb
  have ht : t.length = d + 1 := length_wordsOf (by decide) (Core.length_spRead _ _ _)
  have hdr : dr.length = d := length_wordsOf (by decide) (Core.length_spRead _ _ _)
  obtain ⟨hlow, hhigh, hsame, hdiff⟩ := accepted_spec dr t (by omega)
  rw [hdr] at hhigh hdiff
  refine ⟨accepted t dr, hlow, hhigh, hsame, hdiff, fun hd => by omega, _, (exec_brgAcpt_of_clean h hm ha hb).trans (finish_of_calm hc rfl), rfl,
    fun k hk => ?_, ?_, rfl⟩
  · rw [State.core_updCore_of_ne _ _ hk, State.core_updCore_of_ne _ _ hk]
    rfl
  · rw [State.core_updCore_self, State.core_updCore_self]
    rfl

end Sys2Proof.Machine
end

section
/-! SUPPORT. Steering and sampling (R175, R220, R221, R283), and the statement about them. -/

namespace Sys2Proof.Machine

/-! ### Steering -/

/-- Each value of a steered vector. -/
theorem getElem?_steer (l : VarLayer) {xs : List F32} {n : Nat} {y : F32} (h : xs[n]? = some y) :
    (steer l xs)[n]? = some (F32.add (F32.mul l.alpha y) (F32.of (BF16.num (l.v.getD n 0)))) := by
  simp [steer, List.getElem?_zipIdx, h]

/-- Where near memory holds no poison and no stack has failed, a read of a variant meets none. -/
theorem State.variantPoison_of_sound {s : State} (hp : s.poison = []) (hstack : ∀ k, k < 8 → s.rf Reg.MEM_STACKs_STATE k 0 2 0 ≠ 3) :
    s.variantPoison = false := by
  have hany : (List.range 8).any (fun k => s.rf Reg.MEM_STACKs_STATE k 0 2 0 == 3) = false :=
    List.any_eq_false.mpr fun k hk => by simpa using hstack k (List.mem_range.mp hk)
  rw [State.variantPoison, hp, hany]
  rfl

section
variable {s : State} {x : Issue} {f : BrgF} {m : Nat} (h : s.runs x) (hm : s.brgBarge x.site f ((s.core x.site).stepIdx x) = some m)
include h hm

/-- `BRG.VAR` for a barge without a variant. -/
theorem brgVar_of_no_variant (hc : s.calm) (hv : (s.barge m).variant = 0) : CoreNext (exec (.brgVar x f) s) s x.site (s.core x.site) := by
  refine coreNext_finish_issue_of_eq h hc ?_
  rw [hm]
  exact if_pos hv

theorem exec_brgVar_of_layer {l : VarLayer} (hv : (s.barge m).variant ≠ 0) (hl : (s.variant (s.barge m).variant).data[f.x8.toNat]? = some l)
    (hvp : s.variantPoison = false) (ha : (s.core x.site).spPoisoned f.a.toNat (4 * (256 * (f.x12.toNat + 1))) = false) :
    exec (.brgVar x f) s = finish ((s.nextFree.updCore x.site (fun c => c.setSp f.a.toNat
      ((steer l (f32s ((s.core x.site).spRead f.a.toNat (4 * (256 * (f.x12.toNat + 1)))))).flatMap (fun y => toLE 4 y.toNat)))).updCore x.site
        Core.advance) := by
  show execBrgVar x f s = _
  rw [execBrgVar, State.issue_of_runs _ h, hm]
  simp only [hv, hvp, hl, ha]
  rfl

end

/-! ### Sampling -/

/-- What `BRG.SAMP` notes of a slot: whether it has given a token (R175). -/
def State.sampledAs (s : State) (slot : Nat) (given : Bool) : State :=
  { s with seq := { s.seq with sampled := s.seq.sampled.filter (fun z => z.1 != slot) ++ [(slot, given)] } }

/-- What a core makes of the token that it has drawn. -/
def Core.draws (c : Core) (f : BrgF) (tok : Option Nat) : Core :=
  match tok with
  | some t => (c.setGr f.gd.toNat (BitVec.ofNat 64 t)).setSp f.b.toNat (toLE 4 t)
  | none => c

theorem exec_brgSamp_of_clean {s : State} {x : Issue} {f : BrgF} {m : Nat} (h : s.runs x)
    (hm : s.brgBarge x.site f ((s.core x.site).stepIdx x) = some m)
    (ha : (s.core x.site).spPoisoned f.a.toNat (8 * (f.x12.toNat + 1)) = false) :
    let c := s.core x.site
    let slot := c.brgSlot f (c.stepIdx x)
    let ws := wordsOf 4 (c.spRead f.a.toNat (8 * (f.x12.toNat + 1)))
    let cands := (List.range (f.x12.toNat + 1)).map (fun j => (ws.getD (2 * j) 0, (BitVec.ofNat 32 (ws.getD (2 * j + 1) 0) : F32)))
    let tok := sampleToken (s.barge m) ((s.barge m).length + (slot - (s.barge m).runFirst)) cands
    ∃ u : State, exec (.brgSamp x f) s = finish (u.updCore x.site Core.advance) ∧
      u = { s.sampledAs slot tok.isSome with cores := u.cores } ∧ (∀ k, k ≠ x.site → u.core k = s.core k) ∧
        u.core x.site = c.draws f tok := by
  intro c slot ws cands tok
  have hexec : exec (.brgSamp x f) s = finish ((match tok with
      | some t => (s.sampledAs slot tok.isSome).updCore x.site (fun c => (c.setGr f.gd.toNat (BitVec.ofNat 64 t)).setSp f.b.toNat (toLE 4 t))
      | none => s.sampledAs slot tok.isSome).updCore x.site Core.advance) := by
    show execBrgSamp x f s = _
    rw [execBrgSamp, State.issue_of_runs _ h, hm]
    simp only [ha]
    rfl
  refine ⟨_, hexec, ?_⟩
  cases htok : tok with
  | none => exact ⟨rfl, fun _ _ => rfl, rfl⟩
  | some t => exact ⟨rfl, fun _ hk => State.core_updCore_of_ne _ _ hk, State.core_updCore_self _ _ _⟩

/-! ### Temperature 0 -/

section
variable {b : Barge} (hz : F32.isZero (F32.ofF16 b.temp) = true) (n : Nat) {cands : List (Nat × F32)}
include hz

theorem sampleToken_of_nan (hnan : ∃ c ∈ cands, F32.isNan c.2 = true) : sampleToken b n cands = none := by
  have hany : cands.any (fun c => F32.isNan c.2) = true := List.any_eq_true.mpr hnan
  rw [sampleToken, if_pos hz, if_pos hany]

theorem sampleToken_of_numbers (hnum : ∀ c ∈ cands, F32.isNan c.2 = false) : sampleToken b n cands = cands.head?.map (fun c => c.1) := by
  have hany : ¬cands.any (fun c => F32.isNan c.2) = true := by simpa using hnum
  rw [sampleToken, if_pos hz, if_neg hany]

end

/-- Settles O25: a layer steers each value where no poison is met; the token drawn, if any, goes to register and scratchpad, and the slot notes
whether there is one. -/
theorem steeringAndSampling : Obligations.SteeringAndSampling := by
  unfold Obligations.SteeringAndSampling
  refine ⟨?_, ?_, fun b n cands hz => ⟨sampleToken_of_nan hz n, sampleToken_of_numbers hz n⟩⟩
  · intro s x f m h hc hm c v xs
    refine ⟨brgVar_of_no_variant h hm hc, fun l hv hl hp hstack ha => ?_⟩
    have hexec := exec_brgVar_of_layer h hm hv hl (State.variantPoison_of_sound hp hstack) ha
    refine ⟨_, hexec.trans (finish_of_calm hc rfl), rfl, fun k hk => ?_, ?_, fun n y => getElem?_steer l⟩
    · rw [State.core_updCore_of_ne _ _ hk, State.core_updCore_of_ne _ _ hk]
      rfl
    · rw [State.core_updCore_self, State.core_updCore_self]
      rfl
  · intro s x f m h hc hm c slot k ws cands tok ha
    obtain ⟨u, hexec, hu, hothers, hown⟩ := exec_brgSamp_of_clean h hm ha
    have hfcl : u.fcl = s.fcl := by rw [hu]; rfl
    have hown' : (u.updCore x.site Core.advance).core x.site = (c.draws f tok).advance := by rw [State.core_updCore_self, hown]
    refine ⟨_, hexec.trans (finish_of_calm hc hfcl), ?_, fun j hj => ?_, ?_, fun hnone => ?_, fun n hsome => ?_⟩
    · rw [hu]; rfl
    · rw [State.core_updCore_of_ne _ _ hj, hothers j hj]
    · rw [hu]; rfl
    · rw [hown', hnone]; rfl
    · rw [hown', hsome]; rfl

end Sys2Proof.Machine
end

section
/-! SUPPORT. Descriptors (R192, R202). -/

namespace Sys2Proof.Machine

section
variable {s : State} {x : Issue} {f : DescF}

/-- The descriptor that an `SDESC` names. -/
def descOfF (f : DescF) : Desc := ⟨f.ww.toNat, f.oaddr.toNat, f.ocount.toNat⟩

/-- The state with an instruction in the queue of a site's array unit. -/
def State.queueItem (s : State) (site : Nat) (q : ArrItem) : State := s.updCore site (fun c => c.queue q)

theorem exec_sdesc_of_full (h : (s.core x.site).arrQ.length = 8) : exec (.sdesc x f) s = .next s := by
  show execSdesc x f s = _
  rw [execSdesc, State.issueArr, if_pos h.ge]

theorem exec_sdesc_of_room (h : s.runs x) (hroom : (s.core x.site).arrQ.length < 8) :
    exec (.sdesc x f) s = .next (((s.queueItem x.site (.desc (s.core x.site).pc f.la.toNat (descOfF f))).startArrays x.site 8).updCore x.site
      Core.advance) := by
  show execSdesc x f s = _
  rw [execSdesc, State.issueArr, if_neg (Nat.not_le.mpr hroom), State.issue_of_runs _ h]
  rfl

theorem State.core_queueItem (s : State) (site : Nat) (q : ArrItem) : (s.queueItem site q).core site = (s.core site).queue q :=
  State.core_updCore_self _ _ _

/-- Behind a head that waits the descriptor takes its place in the queue. -/
theorem sdesc_waits (h : s.runs x) (hw : (s.core x.site).headWaits = true) (hroom : (s.core x.site).arrQ.length < 8) :
    CoreNext (exec (.sdesc x f) s) s x.site ((s.core x.site).queue (.desc (s.core x.site).pc f.la.toNat (descOfF f))) := by
  rw [exec_sdesc_of_room h hroom, State.startArrays_of_headWaits]
  · exact coreNext_of rfl
  · rw [State.core_queueItem]
    exact Core.headWaits_queue _ hw

/-- A queue of one descriptor: it is set at once. -/
theorem State.startArrays_desc {u : State} {site pc la : Nat} {d : Desc} (n : Nat) (hq : (u.core site).arrQ = [.desc pc la d]) :
    u.startArrays site (n + 2) = (u.setCore site { u.core site with arrQ := [] }).setDesc site la d := by
  rw [State.startArrays]
  simp only [hq]
  refine State.startArrays_of_empty ?_
  rw [State.setDesc, State.core_setReg, State.core_updCore_self, State.core_setCore_self]

theorem Core.descOf_put (c : Core) (la n : Nat) (d : Desc) :
    Core.descOf { c with desc := SMap.put c.desc ⟨0, 0, 0⟩ la d } n = if n = la then d else c.descOf n := by
  by_cases h : n = la
  · rw [if_pos h, h]
    exact SMap.get_put_self _ _ _ _
  · rw [if_neg h]
    exact SMap.get_put_of_ne _ _ _ _ h

/-- A descriptor touches the cores and the registers. -/
theorem State.setDesc_frame (s : State) (site la : Nat) (d : Desc) :
    s.setDesc site la d = { s with cores := (s.setDesc site la d).cores, regs := (s.setDesc site la d).regs } := rfl

/-- The registers after a write of one come from the registers alone. -/
theorem State.regs_setReg_congr {s t : State} (h : t.regs = s.regs) (f : RegFam) (i j v : Nat) :
    (t.setReg f i j v).regs = (s.setReg f i j v).regs := by
  simp only [State.setReg, h]

theorem State.regs_setDesc (s : State) (site la : Nat) (d : Desc) :
    (s.setDesc site la d).regs = (s.setReg Reg.SLU_OLISTa site (s.phys site la) (d.oaddr * 2 ^ 18 + d.ocount)).regs :=
  State.regs_setReg_congr rfl _ _ _ _

/-- The registers alone hold which array stands for a logical one. -/
theorem State.phys_congr {s t : State} (h : t.regs = s.regs) (site la : Nat) : t.phys site la = s.phys site la := State.rf_congr h _ _ _ _ _

/-- With nothing in the queue. -/
theorem sdesc_sets (h : s.runs x) (hq : (s.core x.site).arrQ = []) :
    ∃ t, exec (.sdesc x f) s = .next t ∧ t = { s with cores := t.cores, regs := t.regs } ∧ (∀ k, k ≠ x.site → t.core k = s.core k) ∧
      t.core x.site = { s.core x.site with desc := (t.core x.site).desc }.advance ∧
      (∀ n, (t.core x.site).descOf n = if n = f.la.toNat then descOfF f else (s.core x.site).descOf n) ∧
      t.reg Reg.SLU_OLISTa x.site (s.phys x.site f.la.toNat) = f.oaddr.toNat * 2 ^ 18 + f.ocount.toNat ∧
      ∀ a, a ≠ Reg.SLU_OLISTa.addr x.site (s.phys x.site f.la.toNat) → t.word a = s.word a := by
  set c := s.core x.site with hc
  set u := s.queueItem x.site (.desc c.pc f.la.toNat (descOfF f)) with hu
  have hcore : u.core x.site = c.queue (.desc c.pc f.la.toNat (descOfF f)) := State.core_queueItem _ _ _
  have hstart : u.startArrays x.site 8 = (u.setCore x.site { u.core x.site with arrQ := [] }).setDesc x.site f.la.toNat (descOfF f) :=
    State.startArrays_desc 6 (by rw [hcore, Core.queue, hq]; rfl)
  have hpopped : ({ u.core x.site with arrQ := [] } : Core) = c := by rw [hcore, Core.queue, ← hq]
  have hown : ((u.startArrays x.site 8).updCore x.site Core.advance).core x.site =
      ({ c with desc := SMap.put c.desc ⟨0, 0, 0⟩ f.la.toNat (descOfF f) } : Core).advance := by
    rw [State.core_updCore_self, hstart, State.setDesc, State.core_setReg, State.core_updCore_self, State.core_setCore_self, hpopped]
  have hregs : (u.startArrays x.site 8).regs =
      (s.setReg Reg.SLU_OLISTa x.site (s.phys x.site f.la.toNat) (f.oaddr.toNat * 2 ^ 18 + f.ocount.toNat)).regs := by
    have hsame : (u.setCore x.site { u.core x.site with arrQ := [] }).regs = s.regs := rfl
    rw [hstart, State.regs_setDesc, State.regs_setReg_congr hsame, State.phys_congr hsame]
    rfl
  have hrest : u.startArrays x.site 8 = { s with cores := (u.startArrays x.site 8).cores, regs := (u.startArrays x.site 8).regs } := by
    rw [hstart, State.setDesc_frame]
    rfl
  have hfits : f.oaddr.toNat * 2 ^ 18 + f.ocount.toNat < 2 ^ 64 := by
    have hcount := f.ocount.isLt
    have haddr := f.oaddr.isLt
    omega
  have hroom : (s.core x.site).arrQ.length < 8 := by rw [← hc, hq]; decide
  refine ⟨_, exec_sdesc_of_room h hroom, ?_, fun k hk => ?_, ?_, fun n => ?_, ?_, fun a ha => ?_⟩
  · rw [hrest]; rfl
  · rw [State.core_updCore_of_ne _ _ hk, hstart, State.setDesc, State.core_setReg, State.core_updCore_of_ne _ _ hk,
      State.core_setCore_of_ne _ _ hk, hu, State.queueItem, State.core_updCore_of_ne _ _ hk]
  · rw [hown]; rfl
  · rw [hown]
    exact Core.descOf_put c f.la.toNat n (descOfF f)
  · rw [State.reg_updCore, State.reg_congr hregs, State.reg_setReg_self, Nat.mod_eq_of_lt hfits]
  · have hword : ((u.startArrays x.site 8).updCore x.site Core.advance).word a =
        (s.setReg Reg.SLU_OLISTa x.site (s.phys x.site f.la.toNat) (f.oaddr.toNat * 2 ^ 18 + f.ocount.toNat)).word a := by
      rw [State.word, State.word, ← hregs]
      rfl
    rw [hword, State.word_setReg_of_ne _ _ _ _ _ _ ha]

end

end Sys2Proof.Machine
end

section
/-! SUPPORT. The start of a fill (R28, R67, R68, R201). -/

namespace Sys2Proof.Machine

/-- Without failed tags nothing is poisoned. -/
theorem State.failTags_of_sound (s : State) {addr : Nat} {fails : List Nat} (h : addr < farBase ∨ fails = []) : s.failTags addr fails = s := by
  rw [State.failTags]
  split
  · rfl
  · next hfar =>
    rw [h.resolve_left hfar, List.filter_eq_nil_iff.mpr (by simp)]
    rfl

/-- An image that comes whole. -/
theorem State.fillWay_of_arrives {s : State} {site addr : Nat}
    (h : ∀ k, k < 64 → ∃ r q, s.memWay site (addr + 4096 * k) = .arrives r q ∧ s.way (.site site) r true = .arrives site 0) :
    s.fillWay site addr = (s, false) := by
  refine List.foldlRecOn (List.range 64) _ (motive := fun y => y = (s, false)) rfl fun y hy k hk => ?_
  obtain ⟨r, q, hmem, hway⟩ := h k (List.mem_range.mp hk)
  subst hy
  simp only [hmem, hway]
  simp

section
variable {s : State} {x : Issue} {f : FillF} {fails : List Nat}

/-- The address of the image that a `FILL` names. -/
def fillAddr (f : FillF) (i : Nat) : Nat := ((f.mbase.toNat : Int) + signed 32 f.mstr.toNat * (i : Int)).toNat

/-- A fill as it goes into the queue when its image is sound. -/
def State.fillIssued (s : State) (x : Issue) (f : FillF) (addr : Nat) : FillIn := ⟨f.la.toNat, s.phys x.site f.la.toNat, addr, false, false, 0⟩

/-- `FILL` from a sound image, with room in the queue. -/
theorem exec_fill_of_sound {addr : Nat} (h : s.runs x) (hl : s.latent = []) (hroom : (s.core x.site).arrQ.length < 8)
    (ha : fillAddr f ((s.core x.site).stepIdx x) = addr) (hin : inRegion addr 262144 = true) (hfar : addr < farBase ∨ fails = [])
    (hp : s.memPoisoned x.site addr 262144 = false)
    (hway : ∀ k, k < 64 → ∃ r q, s.memWay x.site (addr + 4096 * k) = .arrives r q ∧ s.way (.site x.site) r true = .arrives x.site 0) :
    exec (.fill x f fails) s = finish (((s.queueItem x.site (.fill (s.core x.site).pc (s.fillIssued x f addr))).startArrays x.site 8).updCore
      x.site Core.advance) := by
  subst ha
  show execFill x f fails s = _
  have hfull : ¬8 ≤ (s.core x.site).arrQ.length := Nat.not_le.mpr hroom
  have hmeet : (s.meet (fillAddr f ((s.core x.site).stepIdx x)) 262144).failTags (fillAddr f ((s.core x.site).stepIdx x)) fails = s := by
    rw [State.meet_of_sound hl, State.failTags_of_sound s hfar]
  unfold fillAddr at hin hp hway hmeet
  rw [execFill, State.memGuard_of_inRegion hin, State.issueArr, if_neg hfull, State.issue_of_runs _ h]
  simp only [hmeet, hp, State.fillWay_of_arrives hway]
  rfl

/-- The core when a fill starts: an array that gets another image loses its tile. -/
def Core.fillStart (c : Core) (w : FillIn) : Core := if (c.arr w.phys).holds = .image w.src then c else c.dropTile w.phys

/-- That leaves the other arrays, the queue and the place in the program. -/
theorem Core.fillStart_keeps (c : Core) (w : FillIn) :
    (∀ b, b ≠ w.phys → (c.fillStart w).arr b = c.arr b) ∧ (c.fillStart w).arrQ = c.arrQ ∧ (c.fillStart w).loops = c.loops ∧
      (c.fillStart w).pc = c.pc := by
  unfold Core.fillStart
  split
  · exact ⟨fun _ _ => rfl, rfl, rfl, rfl⟩
  · exact ⟨fun b hb => Core.arr_setArr_of_ne c _ hb, rfl, rfl, rfl⟩

/-- The core in which the fill is in progress since a time. -/
def Core.fillingSince (c : Core) (w : FillIn) (now : Nat) : Core :=
  (c.fillStart w).setArr w.phys { (c.fillStart w).arr w.phys with fill := some { w with since := now } }

theorem State.startFill_eq (s : State) (site : Nat) (w : FillIn) :
    s.startFill site w = (s.setCore site ((s.core site).fillingSince w (s.reg Reg.FLK_TIME 0 0))).setRf Reg.ARY_STATEa site w.phys 18 16 5 := rfl

/-- The registers after a write of a field come from the registers alone. -/
theorem State.regs_setRf_congr {s t : State} (h : t.regs = s.regs) (f : RegFam) (i j hi lo v : Nat) :
    (t.setRf f i j hi lo v).regs = (s.setRf f i j hi lo v).regs := by
  simp only [State.setRf, State.setReg, State.reg, h]

/-- A write of a core and a field touches the cores and the registers alone. -/
theorem State.setRf_setCore_frame (s : State) (site : Nat) (c : Core) (f : RegFam) (i j hi lo v : Nat) :
    (s.setCore site c).setRf f i j hi lo v =
      { s with cores := (s.setCore site c).cores, regs := ((s.setCore site c).setRf f i j hi lo v).regs } := rfl

theorem State.startFill_frame (s : State) (site : Nat) (w : FillIn) :
    s.startFill site w = { s with cores := (s.startFill site w).cores, regs := (s.startFill site w).regs } :=
  State.setRf_setCore_frame _ _ _ _ _ _ _ _ _

/-- Of the registers, that of its array's state. -/
theorem State.regs_startFill (s : State) (site : Nat) (w : FillIn) :
    (s.startFill site w).regs = (s.setRf Reg.ARY_STATEa site w.phys 18 16 5).regs := by
  rw [State.startFill_eq]
  exact State.regs_setRf_congr rfl _ _ _ _ _ _

/-- A queue of one fill that nothing holds up: it starts at once. -/
theorem State.startArrays_fill {u : State} {site pc : Nat} {w : FillIn} (n : Nat) (hq : (u.core site).arrQ = [.fill pc w])
    (hfill : ((u.core site).arr w.phys).fill = none) (hev : (u.core site).evals.any (fun e => e.selects w.phys) = false) :
    u.startArrays site (n + 2) = (u.setCore site { u.core site with arrQ := [] }).startFill site w := by
  rw [State.startArrays]
  simp only [hq, hfill, hev, Option.isSome_none, Bool.or_self, Bool.false_eq_true, if_false]
  refine State.startArrays_of_empty ?_
  rw [State.startFill_eq, State.core_setRf, State.core_setCore_self, State.core_setCore_self]
  exact (Core.fillStart_keeps _ w).2.1

theorem fill_starts {addr a : Nat} (h : s.runs x) (hc : s.calm) (hl : s.latent = []) (ha : fillAddr f ((s.core x.site).stepIdx x) = addr)
    (hphys : s.phys x.site f.la.toNat = a) (hin : inRegion addr 262144 = true) (hfar : addr < farBase ∨ fails = [])
    (hp : s.memPoisoned x.site addr 262144 = false)
    (hway : ∀ k, k < 64 → ∃ r q, s.memWay x.site (addr + 4096 * k) = .arrives r q ∧ s.way (.site x.site) r true = .arrives x.site 0)
    (hq : (s.core x.site).arrQ = []) (hfill : ((s.core x.site).arr a).fill = none)
    (hev : (s.core x.site).evals.any (fun e => e.selects a) = false) :
    ∃ t, exec (.fill x f fails) s = .next t ∧ t = { s with cores := t.cores, regs := t.regs } ∧ (∀ k, k ≠ x.site → t.core k = s.core k) ∧
      ((t.core x.site).arr a).fill = some ⟨f.la.toNat, a, addr, false, false, s.reg Reg.FLK_TIME 0 0⟩ ∧
      (∀ b, b ≠ a → (t.core x.site).arr b = (s.core x.site).arr b) ∧
      (t.core x.site).pc = (s.core x.site).advance.pc ∧ t.rf Reg.ARY_STATEa x.site a 18 16 = 5 ∧
      ∀ w, w ≠ Reg.ARY_STATEa.addr x.site a → t.word w = s.word w := by
  subst hphys
  set c := s.core x.site with hcore
  set w := s.fillIssued x f addr with hw
  set u := s.queueItem x.site (.fill c.pc w) with hu
  have hucore : u.core x.site = c.queue (.fill c.pc w) := State.core_queueItem _ _ _
  have hpopped : ({ u.core x.site with arrQ := [] } : Core) = c := by rw [hucore, Core.queue, ← hq]
  have hstart : u.startArrays x.site 8 = (u.setCore x.site c).startFill x.site w := by
    rw [← hpopped]
    refine State.startArrays_fill (pc := c.pc) 6 ?_ ?_ ?_
    · rw [hucore, Core.queue, hq]; rfl
    · rw [hucore]; exact hfill
    · rw [hucore]; exact hev
  have hown : ((u.startArrays x.site 8).updCore x.site Core.advance).core x.site = (c.fillingSince w (s.reg Reg.FLK_TIME 0 0)).advance := by
    rw [State.core_updCore_self, hstart, State.startFill_eq, State.core_setRf, State.core_setCore_self, State.core_setCore_self]
    rfl
  obtain ⟨harrs, -, hloops, hpc⟩ := c.fillStart_keeps w
  have hregs : (u.startArrays x.site 8).regs = (s.setRf Reg.ARY_STATEa x.site w.phys 18 16 5).regs := by
    rw [hstart, State.regs_startFill]
    exact State.regs_setRf_congr rfl _ _ _ _ _ _
  have hrest : u.startArrays x.site 8 = { s with cores := (u.startArrays x.site 8).cores, regs := (u.startArrays x.site 8).regs } := by
    rw [hstart]
    exact State.startFill_frame _ _ _
  have hroom : (s.core x.site).arrQ.length < 8 := by rw [← hcore, hq]; decide
  have hexec := exec_fill_of_sound h hl hroom ha hin hfar hp hway
  refine ⟨_, hexec.trans (finish_of_calm hc (congrArg State.fcl hrest :)), ?_, fun k hk => ?_, ?_, fun b hb => ?_, ?_, ?_, fun v hv => ?_⟩
  · rw [hrest]; rfl
  · rw [State.core_updCore_of_ne _ _ hk, hstart, State.startFill_eq, State.core_setRf, State.core_setCore_of_ne _ _ hk,
      State.core_setCore_of_ne _ _ hk, hu, State.queueItem, State.core_updCore_of_ne _ _ hk]
  · rw [hown]
    exact congrArg Arr.fill (Core.arr_setArr_self (c.fillStart w) w.phys _)
  · rw [hown]
    exact (Core.arr_setArr_of_ne (c.fillStart w) _ hb).trans (harrs b hb)
  · rw [hown]
    show (stepLoops (c.fillStart w).loops ((c.fillStart w).pc + 1)).2 = (stepLoops c.loops (c.pc + 1)).2
    rw [hloops, hpc]
  · rw [State.rf_updCore, State.rf_congr hregs]
    exact State.rf_setRf_self _ _ _ _ _ _ (by decide)
  · have hword : ((u.startArrays x.site 8).updCore x.site Core.advance).word v =
        (s.setRf Reg.ARY_STATEa x.site w.phys 18 16 5).word v := by
      rw [State.word, State.word, ← hregs]
      rfl
    have hne : v ≠ Reg.ARY_STATEa.addr x.site w.phys := hv
    rw [hword, State.setRf, State.word_setReg_of_ne _ _ _ _ _ _ hne]

end

end Sys2Proof.Machine
end

section
/-! SUPPORT. The end of a fill (R67, R361), and the statement about descriptors and fills. -/

namespace Sys2Proof

/-- A window of a memory, moved to address 0: the bytes inside it, and nothing beyond. -/
theorem Mem.get_window (m : Mem) (a n k : Nat) :
    Mem.get ((m.filter (fun c => decide (a ≤ c.1) && decide (c.1 < a + n))).map (fun c => (c.1 - a, c.2))) k =
      if k < n then Mem.get m (a + k) else 0 := by
  induction m with
  | nil => simp [Mem.get, SMap.get]
  | cons c t ih =>
    by_cases hin : a ≤ c.1 ∧ c.1 < a + n
    · rw [List.filter_cons_of_pos (by simpa using hin), List.map_cons]
      unfold Mem.get at ih ⊢
      rw [SMap.get, SMap.get, ih]
      by_cases hk : c.1 - a = k
      · have hca : c.1 = a + k := by omega
        have hkn : k < n := by omega
        rw [if_pos hk, if_pos hkn, if_pos hca]
      · have hca : c.1 ≠ a + k := by omega
        rw [if_neg hk, if_neg hca]
    · rw [List.filter_cons_of_neg (by simpa using hin), ih]
      by_cases hkn : k < n
      · have hca : c.1 ≠ a + k := by omega
        rw [if_pos hkn, if_pos hkn, Mem.get, Mem.get, SMap.get, if_neg hca]
      · rw [if_neg hkn, if_neg hkn]

end Sys2Proof

namespace Sys2Proof.Machine

section
variable {s : State} {site la : Nat}

theorem exec_fillDone_of_none (h : ((s.core site).arr (s.phys site la)).fill = none) : exec (.fillDone site la) s = .next s := by
  show execFillDone site la s = _
  simp only [execFillDone, h]

variable {w : FillIn} (hw : ((s.core site).arr (s.phys site la)).fill = some w)
include hw

theorem exec_fillDone_of_cut (hcut : w.cut = true) : exec (.fillDone site la) s = .next s := by
  show execFillDone site la s = _
  simp only [execFillDone, hw, hcut, if_true]

/-- The array that holds the image, before its weight scales are in the table. -/
def State.filled (s : State) (site : Nat) (r : Arr) (w : FillIn) : Arr :=
  { r with
    cells := ((s.memOf site).1.filter (fun k => decide (w.src ≤ k.1) && decide (k.1 < w.src + 262144))).map (fun k => (k.1 - w.src, k.2))
    holds := .image w.src, bad := w.bad, fill := none }

/-- The array once its weight scales are in the table. -/
def State.scaled (s : State) (src : Nat) (r : Arr) : Arr :=
  match s.tileOf (.image src) with
  | some t => r.loadScales t
  | none => r

omit hw in
/-- Scales touch the correction table alone. -/
theorem State.scaled_eq (s : State) (src : Nat) (r : Arr) : s.scaled src r = { r with corr := (s.scaled src r).corr } := by
  unfold State.scaled
  split <;> rfl

/-- The state in which a poisoned image has been written anew (R361). -/
def State.rebuilt (s : State) (w : FillIn) : State :=
  match w.bad, s.tileOf (.image w.src) with
  | true, some tile => s.writeImage w.src tile
  | _, _ => s

omit hw in
/-- Device memory alone has changed. -/
theorem State.rebuilt_eq (s : State) (w : FillIn) :
    s.rebuilt w = { s with mem := (s.rebuilt w).mem, poison := (s.rebuilt w).poison, latent := (s.rebuilt w).latent } := by
  unfold State.rebuilt
  split <;> rfl

theorem exec_fillDone_of_whole (hcut : w.cut = false) :
    let a := s.phys site la
    exec (.fillDone site la) s = finish (((((s.rebuilt w).setCore site
      ((s.core site).setArr a (s.scaled w.src (s.filled site ((s.core site).arr a) w)))).setRf Reg.ARY_STATEa site a 18 16 0).startArrays
        site 8).settleBarrier site) := by
  intro a
  show execFillDone site la s = _
  simp only [execFillDone, hw, hcut, Bool.false_eq_true, if_false]
  rfl

theorem fillDone_ends (hc : s.calm) (hcut : w.cut = false) (hq : (s.core site).arrQ = []) :
    let a := s.phys site la
    ∃ t, exec (.fillDone site la) s = .next t ∧ t = { s.rebuilt w with cores := t.cores, regs := t.regs } ∧
      (∀ k, k ≠ site → t.core k = s.core k) ∧ (t.core site).arr a = s.scaled w.src (s.filled site ((s.core site).arr a) w) ∧
      (∀ b, b ≠ a → (t.core site).arr b = (s.core site).arr b) ∧ t.rf Reg.ARY_STATEa site a 18 16 = 0 ∧
      ∀ v, v ≠ Reg.ARY_STATEa.addr site a → t.word v = s.word v := by
  intro a
  set r := s.scaled w.src (s.filled site ((s.core site).arr a) w) with hr
  set u := ((s.rebuilt w).setCore site ((s.core site).setArr a r)).setRf Reg.ARY_STATEa site a 18 16 0 with hu
  have hucore : u.core site = (s.core site).setArr a r := State.core_setCore_self _ _ _
  have hstart : u.startArrays site 8 = u := State.startArrays_of_empty (by rw [hucore]; exact hq)
  have hexec : exec (.fillDone site la) s = finish (u.settleBarrier site) := by rw [exec_fillDone_of_whole hw hcut, ← hr, ← hu, hstart]
  obtain ⟨heq, hothers, hown⟩ := u.settleBarrier_spec site
  have hregs : (u.settleBarrier site).regs = u.regs := by rw [heq]
  have hfcl : (u.settleBarrier site).fcl = s.fcl := by rw [heq, hu, State.rebuilt_eq]; rfl
  have harr : ∀ b, ((u.settleBarrier site).core site).arr b = ((s.core site).setArr a r).arr b := fun b => by
    rw [hown, hucore]; rfl
  refine ⟨_, hexec.trans (finish_of_calm hc hfcl), ?_, fun k hk => ?_, ?_, fun b hb => ?_, ?_, fun v hv => ?_⟩
  · rw [heq]; rfl
  · rw [hothers k hk, hu, State.core_setRf, State.core_setCore_of_ne _ _ hk, State.rebuilt_eq]
    rfl
  · rw [harr, Core.arr_setArr_self]
  · rw [harr, Core.arr_setArr_of_ne _ _ hb]
  · rw [State.rf_congr hregs]
    exact State.rf_setRf_self _ _ _ _ _ _ (by decide)
  · have hword : (u.settleBarrier site).word v = u.word v := by rw [State.word, hregs]; rfl
    rw [hword, hu, State.setRf, State.word_setReg_of_ne _ _ _ _ _ v hv, State.rebuilt_eq]
    rfl

end

/-- Settles O15: a descriptor is set at once or waits in the queue; a fill starts, with its array given to the image; its end leaves the image
in the array. -/
theorem descriptorAndFill : Obligations.DescriptorAndFill := by
  unfold Obligations.DescriptorAndFill
  refine ⟨?_, ?_, ?_⟩
  · intro s x f h c la
    exact ⟨sdesc_waits h, exec_sdesc_of_full, sdesc_sets h⟩
  · intro s x f fails h hc hl c addr a hin hfar hp hway hq hfill hev
    exact fill_starts h hc hl rfl rfl hin hfar hp hway hq hfill hev
  · intro s site la hc c a
    refine ⟨exec_fillDone_of_none, fun w hw hcut => exec_fillDone_of_cut hw hcut, ?_⟩
    intro w hw hcut hq u
    obtain ⟨t, hexec, hrest, hothers, harr, harrs, hstate, hwords⟩ := fillDone_ends hw hc hcut hq
    rw [State.scaled_eq] at harr
    refine ⟨t, hexec, hrest, hothers, ?_, ?_, ?_, fun k => ?_, harrs, hstate, hwords⟩
    · exact congrArg Arr.fill harr
    · exact congrArg Arr.holds harr
    · exact congrArg Arr.bad harr
    · exact (congrArg (fun r => Mem.get r.cells k) harr).trans (Mem.get_window _ _ _ _)

end Sys2Proof.Machine
end

section
/-! SUPPORT. Which commands go on, and the statement that only an access to memory that does not exist stops (R200). -/

namespace Sys2Proof.Machine

/-- The machine goes on: neither a fault nor a refusal. -/
def GoesOn (o : Out) : Prop := ∃ t, o = .next t

theorem goesOn_next (t : State) : GoesOn (.next t) := ⟨t, rfl⟩

theorem goesOn_ite {p : Prop} [Decidable p] {a b : Out} (ha : GoesOn a) (hb : GoesOn b) : GoesOn (if p then a else b) := by
  split
  · exact ha
  · exact hb

section
variable {s : State}

/-! ### What the host sends -/

theorem State.goesOn_command (h : Hdr) (r : CmdRow) (recov enc range : Bool) (run : State → Session → Reply → State) :
    GoesOn (s.command h r recov enc range run) := by
  fun_cases State.command <;> exact goesOn_next _

theorem State.goesOn_bargeCommand (h : Hdr) (op : Nat) (b : BargeCmd) : GoesOn (s.bargeCommand h op b) := by
  unfold State.bargeCommand
  exact State.goesOn_command _ _ _ _ _ _

theorem State.goesOn_submission (h : Hdr) (r : CmdRow) (enc range : Bool) (run : State → Session → Reply → State) :
    GoesOn (s.submission h r enc range run) := by
  unfold State.submission
  split
  · exact goesOn_next _
  · exact State.goesOn_command _ _ _ _ _ _

theorem State.goesOn_onMessage (m : MsgHdr) (typ : Nat) (control : Bool) (payload tag : List Byte) (streams : Nat → Bool)
    (f : State → List Byte → State) : GoesOn (s.onMessage m typ control payload tag streams f) := by
  fun_cases State.onMessage <;> exact goesOn_next _

/-! ### Events and jobs whose branches all end in a next state -/

theorem goesOn_execSchedValidationDone (img : Image) : GoesOn (execSchedValidationDone img s) := by
  fun_cases execSchedValidationDone <;> exact goesOn_next _

theorem goesOn_execPkgLoadDone (f : PkgFile) : GoesOn (execPkgLoadDone f s) := by
  fun_cases execPkgLoadDone <;> exact goesOn_next _

theorem goesOn_execArrayProgramDone (site arr : Nat) (fails : List VerifyFail) : GoesOn (execArrayProgramDone site arr fails s) := by
  fun_cases execArrayProgramDone <;> exact goesOn_next _

theorem goesOn_execSpareTileStep (site : Nat) (run : TileRun) : GoesOn (execSpareTileStep site run s) := by
  fun_cases execSpareTileStep <;> exact goesOn_next _

theorem goesOn_execMaintCopyDone (x : MaintCopy) : GoesOn (execMaintCopyDone x s) := by
  fun_cases execMaintCopyDone <;> exact goesOn_next _

theorem goesOn_execMaintStep3Done (cal : ArrayCal) (run : MaintEnd) : GoesOn (execMaintStep3Done cal run s) := by
  fun_cases execMaintStep3Done <;> exact goesOn_next _

theorem goesOn_execPowerStateEntry : GoesOn (execPowerStateEntry s) := by
  fun_cases execPowerStateEntry <;> exact goesOn_next _

theorem goesOn_execCalibrationDone (cals : List ArrayCal) (bandgap : List Int) : GoesOn (execCalibrationDone cals bandgap s) := by
  fun_cases execCalibrationDone <;> exact goesOn_next _

theorem goesOn_execSluiceSelfTestDone (site : Nat) (pass : Bool) : GoesOn (execSluiceSelfTestDone site pass s) := by
  fun_cases execSluiceSelfTestDone <;> exact goesOn_next _

theorem goesOn_execFwInstallDone (readBackOk : Bool) : GoesOn (execFwInstallDone readBackOk s) := by
  fun_cases execFwInstallDone <;> exact goesOn_next _

theorem goesOn_execHello (m : Hello) : GoesOn (execHello m s) := by
  fun_cases execHello <;> exact goesOn_next _

theorem goesOn_execConfirm (session : Nat) (sA : List Byte) : GoesOn (execConfirm session sA s) := by
  fun_cases execConfirm <;> exact goesOn_next _

theorem goesOn_execConfirmTimeout (session : Nat) : GoesOn (execConfirmTimeout session s) := by
  fun_cases execConfirmTimeout <;> exact goesOn_next _

theorem goesOn_execAckTimer (session stream : Nat) : GoesOn (execAckTimer session stream s) := by
  fun_cases execAckTimer <;> exact goesOn_next _

theorem goesOn_execRetransmitTimeout (session stream seq : Nat) : GoesOn (execRetransmitTimeout session stream seq s) := by
  fun_cases execRetransmitTimeout <;> exact goesOn_next _

theorem goesOn_execIdleTimeout (session : Nat) : GoesOn (execIdleTimeout session s) := by
  fun_cases execIdleTimeout <;> exact goesOn_next _

theorem goesOn_execMarchTestDone (site : Nat) (fails : List Nat) : GoesOn (execMarchTestDone site fails s) := by
  fun_cases execMarchTestDone <;> exact goesOn_next _

theorem goesOn_execFillDone (site la : Nat) : GoesOn (execFillDone site la s) := by
  fun_cases execFillDone <;> exact goesOn_next _

theorem goesOn_execSluiceCorrection (site : Nat) (codes : List Byte) (checkDelta : Int) : GoesOn (execSluiceCorrection site codes checkDelta s) := by
  fun_cases execSluiceCorrection <;> exact goesOn_next _

theorem goesOn_execMasterColumnArrival (site arr : Nat) (poisoned : Bool) : GoesOn (execMasterColumnArrival site arr poisoned s) := by
  fun_cases execMasterColumnArrival <;> exact goesOn_next _

theorem goesOn_execArbitrationStart (site : Nat) : GoesOn (execArbitrationStart site s) := by
  fun_cases execArbitrationStart <;> exact goesOn_next _

theorem goesOn_execPeerCheck (site : Nat) (poisoned : Bool) (checkDelta : Int) : GoesOn (execPeerCheck site poisoned checkDelta s) := by
  fun_cases execPeerCheck <;> exact goesOn_next _

theorem goesOn_execArbitrationVerdict (site : Nat) (codes : List Byte) : GoesOn (execArbitrationVerdict site codes s) := by
  fun_cases execArbitrationVerdict <;> exact goesOn_next _

theorem goesOn_execNetPacketArrival (site : Nat) (p : Packet) : GoesOn (execNetPacketArrival site p s) := by
  fun_cases execNetPacketArrival <;> exact goesOn_next _

theorem goesOn_execLockageBoundary : GoesOn (execLockageBoundary s) := by
  fun_cases execLockageBoundary <;> exact goesOn_next _

theorem goesOn_execSpillCopyDone (barge layer page : Nat) : GoesOn (execSpillCopyDone barge layer page s) := by
  fun_cases execSpillCopyDone <;> exact goesOn_next _

theorem goesOn_execRestoreCopyDone (barge layer page : Nat) (tagFails : List Nat) : GoesOn (execRestoreCopyDone barge layer page tagFails s) := by
  fun_cases execRestoreCopyDone <;> exact goesOn_next _

theorem goesOn_execCpSelfTestDone (pair : Nat) (pass0 pass1 : Bool) : GoesOn (execCpSelfTestDone pair pass0 pass1 s) := by
  fun_cases execCpSelfTestDone <;> exact goesOn_next _

theorem goesOn_execFlightFrameReceive (port : Nat) (f : FlightFrame) : GoesOn (execFlightFrameReceive port f s) := by
  fun_cases execFlightFrameReceive <;> exact goesOn_next _

theorem goesOn_execControlRetransmit (m : Resend) : GoesOn (execControlRetransmit m s) := by
  fun_cases execControlRetransmit <;> exact goesOn_next _

theorem goesOn_execLaneLockLoss (port lane : Nat) : GoesOn (execLaneLockLoss port lane s) := by
  fun_cases execLaneLockLoss <;> exact goesOn_next _

theorem goesOn_execTimeBaseCorrection (x : TimeStamps) : GoesOn (execTimeBaseCorrection x s) := by
  fun_cases execTimeBaseCorrection <;> exact goesOn_next _

theorem goesOn_execDigestReady (ready : Bool) : GoesOn (execDigestReady ready s) := by
  fun_cases execDigestReady <;> exact goesOn_next _

theorem goesOn_execPwrEnFall : GoesOn (execPwrEnFall s) := by
  fun_cases execPwrEnFall <;> exact goesOn_next _

theorem goesOn_execPatrolScrub (r : Region) (addr : Nat) (err : BitVec 80) : GoesOn (execPatrolScrub r addr err s) := by
  fun_cases execPatrolScrub <;> exact goesOn_next _

theorem goesOn_execBlockReloadDone (slot : Nat) (k : ReloadKind) (e : ReloadEnd) : GoesOn (execBlockReloadDone slot k e s) := by
  fun_cases execBlockReloadDone <;> exact goesOn_next _

/-! ### Accesses to device memory -/

variable {x : Issue} {addr : Nat → Nat} {n : Nat}

theorem State.memGuard_of_absent (h : s.runs x) (hout : inRegion (addr ((s.core x.site).stepIdx x)) n = false) (t : State) :
    s.memGuard x addr n t = .fault (.noSuchAddress (addr ((s.core x.site).stepIdx x))) := by
  obtain ⟨hissue, hon⟩ := h
  simp [State.memGuard, hissue, hon, hout]

/-- A guarded access goes on, or it runs, its range is absent, and it stops with the address. -/
theorem State.memGuard_cases (x : Issue) (addr : Nat → Nat) (n : Nat) (t : State) :
    GoesOn (s.memGuard x addr n t) ∨ s.runs x ∧ inRegion (addr ((s.core x.site).stepIdx x)) n = false ∧
      s.memGuard x addr n t = .fault (.noSuchAddress (addr ((s.core x.site).stepIdx x))) := by
  by_cases h : s.runs x ∧ inRegion (addr ((s.core x.site).stepIdx x)) n = false
  · obtain ⟨hruns, hout⟩ := h
    exact .inr ⟨hruns, hout, State.memGuard_of_absent hruns hout t⟩
  · have hpass : (s.canIssue x.site && (s.core x.site).on x.pred && !inRegion (addr ((s.core x.site).stepIdx x)) n) = false := by
      rw [Bool.eq_false_iff]
      intro hstop
      simp only [Bool.and_eq_true, Bool.not_eq_true'] at hstop
      exact h hstop
    refine .inl ⟨_, (if_neg ?_ : s.memGuard x addr n t = finish t)⟩
    rw [hpass]
    exact Bool.false_ne_true

/-- The commands that reach device memory at an address that the program names. -/
def reachesMemory : Instr → Bool
  | .fill .. | .mrd .. | .mwr .. | .mgath .. => true
  | _ => false

/-- Every other command goes on. -/
theorem goesOn_exec {c : Instr} (hc : reachesMemory c = false) : GoesOn (exec c s) := by
  cases c with
  | drainTimeout | waveStart | wavePreconditionRecheck | progWaitTimeout | linkHoldTimeout | nop | loop | barrier | wopen | wclose | waits |
  waitr | lidx | sysv | li | add | addi | sub | mul | and | or | xor | shl | shr | sar | cmp | cmpi | plog | eval | sdesc | aclr | amrg |
  aaddv | asetv | aldv | astv | alds | asts | ares | rsend | vadd | vsub | vmul | vfma | vmax | vmin | vadds | vmuls | vabs | vneg | vcvt |
  vexp | vrcp | vrsq | vsilu | vsigm | vsum | vmaxr | vtopk | vrms | vrope | vhad | vqnt | vbc | vroute | ldv | stv | ldg | stg | copy |
  nrecv | nsend | attKvw | attRun | attMrg | attFin | attRcmp | brgSlot | brgInfo | brgVar | brgSamp | brgAcpt | brgEmit | spareProgramDone
  | barrierForwardDeadline | resetNRelease | vinUndervoltage | vinOvervoltage | pwmSyncLock | pwmSyncLoss => exact goesOn_next _
  | formationTrainTimeout | hostFrameReceive | hostLaneFailure | hostLinkDown | aryConvRotWrite | flkHaltReqWrite | fclChipResetWrite |
  pendingClear | fclSrcCfgWrite | fclSigEraseWrite | hptRetrainWrite | spmPwrWrite | marchDestructive | marchPreserving | hkaQueueRead |
  errorCounterRead | registerWrite | convHandover | reductionFlitArrival | barrierArrivalSend | rootDecision | barrierCutoff |
  releaseReceive | barrierLost | graceQuantumEnd | collectorCopyMismatch | cpMismatch | cpPeriodicSelfTest | controlMessageReceive |
  laneCorrectionCheck | digestRoundStart | digestCompare | boot | pwrEnRise | vinInRange | tamper | rngHealthFail | systemScan | diodeCheck
  | ageTick | ageRecordCommit | calStatsFit | calBatchCommit | holdupCapMeasure | stackFailure | channelFailure | hostLinkUp |
  flightPortTrained | rngHealthRecovery =>
    exact goesOn_ite ⟨_, rfl⟩ ⟨_, rfl⟩
  | neighborSolicitation | echoRequest | signatureCommit | resetNAssert | hkaTimerTrigger | hkaPwmTrigger | hkaStageRotation | ageEstimation =>
    exact goesOn_ite ⟨_, rfl⟩ (goesOn_ite ⟨_, rfl⟩ ⟨_, rfl⟩)
  | regRead | regWrite | stageOpen | stageData | stageClose | form | schedValidate | schedActivate | pkgLoad | genDiscard | genCommit |
  arrayMaint | varLoad | varUnload | power | elapsed | calibrate | fence | selfTest | sigRead | attest | lifecycle | fwInstall | vx20Abort |
  vx20RegRead =>
    unfold exec
    exact State.goesOn_command _ _ _ _ _ _
  | cancel | park | resume | prefixMap | trim | release => exact State.goesOn_bargeCommand _ _ _
  | submit | vx20Request => exact State.goesOn_submission _ _ _ _ _
  | data | ack | probe | close =>
    unfold exec
    exact State.goesOn_onMessage _ _ _ _ _ _ _
  | schedValidationDone => exact goesOn_execSchedValidationDone _
  | pkgLoadDone => exact goesOn_execPkgLoadDone _
  | arrayProgramDone => exact goesOn_execArrayProgramDone _ _ _
  | spareTileStep => exact goesOn_execSpareTileStep _ _
  | maintCopyDone => exact goesOn_execMaintCopyDone _
  | maintStep3Done => exact goesOn_execMaintStep3Done _ _
  | powerStateEntry => exact goesOn_execPowerStateEntry
  | calibrationDone => exact goesOn_execCalibrationDone _ _
  | sluiceSelfTestDone => exact goesOn_execSluiceSelfTestDone _ _
  | fwInstallDone => exact goesOn_execFwInstallDone _
  | hello => exact goesOn_execHello _
  | confirm => exact goesOn_execConfirm _ _
  | confirmTimeout => exact goesOn_execConfirmTimeout _
  | ackTimer => exact goesOn_execAckTimer _ _
  | retransmitTimeout => exact goesOn_execRetransmitTimeout _ _ _
  | idleTimeout => exact goesOn_execIdleTimeout _
  | marchTestDone => exact goesOn_execMarchTestDone _ _
  | fillDone => exact goesOn_execFillDone _ _
  | sluiceCorrection => exact goesOn_execSluiceCorrection _ _ _
  | masterColumnArrival => exact goesOn_execMasterColumnArrival _ _ _
  | arbitrationStart => exact goesOn_execArbitrationStart _
  | peerCheck => exact goesOn_execPeerCheck _ _ _
  | arbitrationVerdict => exact goesOn_execArbitrationVerdict _ _
  | netPacketArrival => exact goesOn_execNetPacketArrival _ _
  | lockageBoundary => exact goesOn_execLockageBoundary
  | spillCopyDone => exact goesOn_execSpillCopyDone _ _ _
  | restoreCopyDone => exact goesOn_execRestoreCopyDone _ _ _ _
  | cpSelfTestDone => exact goesOn_execCpSelfTestDone _ _ _
  | flightFrameReceive => exact goesOn_execFlightFrameReceive _ _
  | controlRetransmit => exact goesOn_execControlRetransmit _
  | laneLockLoss => exact goesOn_execLaneLockLoss _ _
  | timeBaseCorrection => exact goesOn_execTimeBaseCorrection _
  | digestReady => exact goesOn_execDigestReady _
  | pwrEnFall => exact goesOn_execPwrEnFall
  | patrolScrub => exact goesOn_execPatrolScrub _ _ _
  | blockReloadDone => exact goesOn_execBlockReloadDone _ _ _
  | fill | mrd | mwr | mgath => exact nomatch hc

end

/-- Settles O13: `FILL`, `MRD`, `MWR` and `MGATH` are guarded accesses, and every other command goes on. -/
theorem onlyAbsentMemoryStops : Obligations.OnlyAbsentMemoryStops := by
  unfold Obligations.OnlyAbsentMemoryStops
  intro s stops i image size
  refine ⟨fun x f l h hout => State.memGuard_of_absent (addr := fillAddr f) h hout _,
    fun x f => ⟨fun h hout => State.memGuard_of_absent h hout _, fun h hout => State.memGuard_of_absent h hout _⟩,
    fun x f h hout => State.memGuard_of_absent (addr := fun _ => f.mbase.toNat) h hout _, fun c => ?_⟩
  by_cases hc : reachesMemory c = false
  · exact .inl (goesOn_exec hc)
  · cases c with
    | fill x f l =>
      exact (State.memGuard_cases x (fillAddr f) _ _).imp_right fun ⟨hruns, hout, hexec⟩ =>
        ⟨x, _, hruns, hexec, .inl ⟨f, l, rfl, rfl, hout⟩⟩
    | mrd x f =>
      exact (State.memGuard_cases x (memfAddr f) _ _).imp_right fun ⟨hruns, hout, hexec⟩ =>
        ⟨x, _, hruns, hexec, .inr (.inl ⟨f, .inl rfl, rfl, hout⟩)⟩
    | mwr x f =>
      exact (State.memGuard_cases x (memfAddr f) _ _).imp_right fun ⟨hruns, hout, hexec⟩ =>
        ⟨x, _, hruns, hexec, .inr (.inl ⟨f, .inr rfl, rfl, hout⟩)⟩
    | mgath x f =>
      exact (State.memGuard_cases x (fun _ => f.mbase.toNat) 1 _).imp_right fun ⟨hruns, hout, hexec⟩ =>
        ⟨x, _, hruns, hexec, .inr (.inr ⟨f, rfl, rfl, hout⟩)⟩
    | _ => exact absurd rfl hc

end Sys2Proof.Machine
end

section
/-! SUPPORT. `ATT.RUN` (R217, R218, R228, R239, R240) and the pages of a visit, and the statement about them. -/

namespace Sys2Proof.Machine

/-! ### The pages that a visit takes -/

theorem mem_visitPages {stride phase last j : Nat} (hs : 0 < stride) : j ∈ visitPages stride phase last ↔ (j * stride + phase) * 32 ≤ last := by
  rw [visitPages, List.mem_filter, List.mem_range, decide_eq_true_iff, Nat.lt_succ_iff, Nat.le_div_iff_mul_le hs,
    Nat.le_div_iff_mul_le (by decide), and_iff_right_iff_imp]
  exact fun h => le_trans (Nat.mul_le_mul_right 32 (Nat.le_add_right _ _)) h

theorem visitPages_ascend (stride phase last : Nat) : (visitPages stride phase last).Pairwise (fun a b => a < b) :=
  List.pairwise_lt_range.filter _

/-! ### What a visit of a sound page does -/

/-- A walk through sound tables leaves everything as it is. -/
theorem State.walkCheck_of_clean {s : State} {site n layer j : Nat} (hl : s.latent = [])
    (hw : (s.walk n layer j).any (fun w => s.memPoisoned site w 8) = false) : s.walkCheck site n layer j = s := by
  have hmeet : (s.walk n layer j).foldl (fun (s : State) a => s.meet a 8) s = s := List.foldl_fixed' (fun _ => State.meet_of_sound hl _ _) _
  rw [State.walkCheck, hmeet, hw]
  rfl

/-- The partial states after a page's block of positions. -/
def State.visited (s : State) (site : Nat) (f : AttF) (g : LayerGeom) (d n last : Nat) (qs : List (List F32)) (ps : List Partial) (j : Nat) :
    List Partial :=
  match s.kv.page n f.layer.toNat j with
  | some p =>
    let ts := List.range (visitCount (j * (f.psm1.toNat + 1) + f.pph.toNat) last)
    (ps.zip qs).map (fun y => y.1.block d y.2 (ts.map (fun t => s.kvVec site g d p f.kvh.toNat t false))
      (ts.map (fun t => s.kvVec site g d p f.kvh.toNat t true)))
  | none => ps

/-- A near page of the barge's tenant that carries no poison, on a walk that carries none. -/
def State.visitable (s : State) (fails : List Nat) (site : Nat) (f : AttF) (g : LayerGeom) (d n last j : Nat) : Prop :=
  (s.walk n f.layer.toNat j).any (fun w => s.memPoisoned site w 8) = false ∧ ∃ p, s.kv.page n f.layer.toNat j = some p ∧
    p.tenant = (s.barge n).tenant ∧ p.inFar = false ∧
    s.failedUnits (p.ranges g.heads d [f.kvh.toNat] (visitCount (j * (f.psm1.toNat + 1) + f.pph.toNat) last)) fails = [] ∧
    s.kvPoison site (p.ranges g.heads d [f.kvh.toNat] (visitCount (j * (f.psm1.toNat + 1) + f.pph.toNat) last)) = false

section
variable {s : State} {fails : List Nat} {site : Nat} {f : AttF} {g : LayerGeom} {d n last : Nat} {qs : List (List F32)} {ps : List Partial}

theorem State.visitPage_of_visitable {j : Nat} (hl : s.latent = []) (hj : s.visitable fails site f g d n last j) :
    State.visitPage fails site f g d n last qs (s, ps, true, false) j = (s, s.visited site f g d n last qs ps j, true, false) := by
  obtain ⟨hwalk, p, hpage, htenant, hnear, hfails, hsound⟩ := hj
  have hmeet : ∀ rs : List (Nat × Nat), rs.foldl (fun (s : State) r => s.meet r.1 r.2) s = s := fun rs =>
    List.foldl_fixed' (fun _ => State.meet_of_sound hl _ _) rs
  have hfar : s.kvFar p = s := by rw [State.kvFar, hnear]; rfl
  simp only [State.visitPage, State.visited, State.walkCheck_of_clean hl hwalk, hpage, htenant, hnear, hmeet, hfar, hfails, hsound,
    State.failUnits, List.isEmpty_nil, Bool.not_true, Bool.false_eq_true, if_false, if_true, ne_eq, not_true_eq_false]

/-- All its pages, one after the other. -/
theorem State.foldl_visitPage_of_visitable (hl : s.latent = []) {pages : List Nat} (h : ∀ j ∈ pages, s.visitable fails site f g d n last j) :
    pages.foldl (State.visitPage fails site f g d n last qs) (s, ps, true, false) =
      (s, pages.foldl (s.visited site f g d n last qs) ps, true, false) := by
  induction pages generalizing ps with
  | nil => rfl
  | cons j pages ih =>
    rw [List.forall_mem_cons] at h
    rw [List.foldl_cons, State.visitPage_of_visitable hl h.1, ih h.2, List.foldl_cons]

/-- A page that is missing ends the visit with states of NaNs (R240). -/
theorem State.visitPage_of_missing {j : Nat} (hl : s.latent = []) (hwalk : (s.walk n f.layer.toNat j).any (fun w => s.memPoisoned site w 8) = false)
    (hpage : s.kv.page n f.layer.toNat j = none) :
    State.visitPage fails site f g d n last qs (s, ps, true, false) j = (s.kvMissing n, ps.map (fun _ => nanPartial d), false, false) := by
  simp only [State.visitPage, State.walkCheck_of_clean hl hwalk, hpage, Bool.not_true, Bool.false_eq_true, if_false]

/-! ### What a missing page does (R240) -/

/-- What touches the registers and the collector alone, twice over. -/
theorem State.collected_trans {s t u : State} (h : t = { s with regs := t.regs, fcl := t.fcl, freeCtr := t.freeCtr })
    (k : u = { t with regs := u.regs, fcl := u.fcl, freeCtr := u.freeCtr }) : u = { s with regs := u.regs, fcl := u.fcl, freeCtr := u.freeCtr } := by
  rw [h] at k
  exact k

/-- An error counter outside the collector counts one, and a source is raised: the source is pending, and nothing has changed outside the
registers and the collector. -/
theorem State.err_raise {src unit : Nat} (hs : src < 256) (hu : unit < 1024) (hm : s.mild [src]) (h : RegFam) (i j : Nat)
    (hf : h.addr i j < 0x30000 ∨ 0x40000 ≤ h.addr i j) :
    let t := (s.err h i j 1).raise src unit
    t = { s with regs := t.regs, fcl := t.fcl, freeCtr := t.freeCtr } ∧ (s.calm → t.calm) ∧ t.rf Reg.FCL_SRCn_STAT 0 src 31 31 = 1 := by
  intro t
  have hl : ∀ n ∈ [src], n < 256 := by simpa using hs
  obtain ⟨v, hk⟩ := State.err_keeps hl hm h i j hf
  obtain ⟨hreq, -, -, hrcalm, hstat, -⟩ := State.raise_raised (s := s.err h i j 1) hs hu (hk.mild hl (State.mild_setReg hl hm _ _ _ _ hf))
  have hcount := State.counted_err (State.mild_of_subset hm (by simp)) h i j 1 hf
  exact ⟨State.collected_trans hcount.state hreq, fun hc => hrcalm (hcount.calm hc), hstat⟩

/-- An end cause is noted for the next arrival, and nothing else changes. -/
theorem State.addCause_spec (s : State) (c : EndCause) : s.addCause c = { s with flt := (s.addCause c).flt } ∧ c ∈ (s.addCause c).flt.causes := by
  unfold State.addCause
  split
  case isTrue hin => exact ⟨rfl, by simpa using hin⟩
  case isFalse => exact ⟨rfl, by simp⟩

theorem State.kvMissing_spec (hm : s.mild [0x41]) (n : Nat) :
    let t := s.kvMissing n
    t = { s with regs := t.regs, fcl := t.fcl, freeCtr := t.freeCtr, flt := t.flt } ∧ (s.calm → t.calm) ∧
      (⟨n, 7, 0⟩ : EndCause) ∈ t.flt.causes ∧ t.rf Reg.FCL_SRCn_STAT 0 0x41 31 31 = 1 := by
  obtain ⟨hstate, hcalm, hstat⟩ := State.err_raise (s := s) (src := 0x41) (unit := devUnit) (by decide) (by decide) hm Reg.CNT_KV_MISSING 0 0
    (by decide)
  obtain ⟨hcause, hmem⟩ := ((s.err Reg.CNT_KV_MISSING 0 0 1).raise 0x41 devUnit).addCause_spec ⟨n, 7, 0⟩
  change s.kvMissing n = _ at hcause
  refine ⟨?_, fun hc => ?_, hmem, ?_⟩
  · generalize (s.err Reg.CNT_KV_MISSING 0 0 1).raise 0x41 devUnit = u at hstate hcause
    rw [hcause, hstate]
  · rw [hcause]
    exact hcalm hc
  · rw [hcause]
    exact hstat

end

/-! ### The instruction -/

section
variable {s : State} {x : Issue} {f : AttF} {fails : List Nat} {d : Nat} (h : s.runs x) (hd : headDim f.dh.toNat = some d)
include h hd

/-- The partial states go to `B`. -/
def State.putPartials (s : State) (x : Issue) (f : AttF) (d i : Nat) (ps : List Partial) : State :=
  s.updCore x.site (fun c => c.setSp (attAddr f.b.toNat (stateBytes d * (f.gm1.toNat + 1)) i) (ps.flatMap Partial.bytes))

theorem exec_attRun_of_unoccupied (hb : s.attBarge x.site f = none) :
    exec (.attRun x f fails) s = finish ((s.putPartials x f d ((s.core x.site).stepIdx x)
      (List.replicate (f.gm1.toNat + 1) (emptyPartial d))).updCore x.site Core.advance) := by
  show execAttRun x f fails s = _
  rw [execAttRun, State.issue_of_runs _ h]
  simp only [hd, hb]
  rfl

theorem exec_attRun_of_visit {n last : Nat} {g : LayerGeom} {t : State} {ps : List Partial} {go : Bool} (hb : s.attBarge x.site f = some n)
    (hg : s.geom f.layer.toNat = some g) (hlast : min (attPos (s.barge n) f ((s.core x.site).stepIdx x)) (2 ^ 20 - 1) = last)
    (hp : (s.core x.site).spPoisoned (attAddr f.a.toNat (2 * d * (f.gm1.toNat + 1)) ((s.core x.site).stepIdx x)) (2 * d * (f.gm1.toNat + 1)) = false)
    (hv : (visitPages (f.psm1.toNat + 1) f.pph.toNat last).foldl (State.visitPage fails x.site f g d n last
      ((s.core x.site).heads (attAddr f.a.toNat (2 * d * (f.gm1.toNat + 1)) ((s.core x.site).stepIdx x)) (f.gm1.toNat + 1) d))
      (s, List.replicate (f.gm1.toNat + 1) (emptyPartial d), true, false) = (t, ps, go, false)) :
    exec (.attRun x f fails) s = finish ((t.putPartials x f d ((s.core x.site).stepIdx x) ps).updCore x.site Core.advance) := by
  subst hlast
  show execAttRun x f fails s = _
  have hsound : s.consumed false = s := rfl
  rw [execAttRun, State.issue_of_runs _ h]
  simp only [hd, hb, hg, hp, hsound, hv, Bool.false_eq_true, if_false]
  rfl

omit h hd in
theorem State.core_putPartials (s : State) (x : Issue) (f : AttF) (d i : Nat) (ps : List Partial) :
    (s.putPartials x f d i ps).core x.site =
      (s.core x.site).setSp (attAddr f.b.toNat (stateBytes d * (f.gm1.toNat + 1)) i) (ps.flatMap Partial.bytes) := State.core_updCore_self _ _ _

end

/-- Settles O20: the visit of a sound page takes its block; a missing page ends the visit; the pages are those of the phase up to the last
position. -/
theorem attentionRun : Obligations.AttentionRun := by
  unfold Obligations.AttentionRun
  refine ⟨?_, fun stride phase last j hs _ => ⟨mem_visitPages hs, visitPages_ascend stride phase last⟩⟩
  intro s x f fails d h hc hl hd c i heads a out stride empty r
  refine ⟨fun hb => ?_, fun n g hb hg hp => ⟨fun hclean => ?_, fun j hj hclean hpage hm => ?_⟩⟩
  · show CoreNext _ _ _ _
    rw [exec_attRun_of_unoccupied h hd hb]
    exact coreNext_finish_setCore _ hc
  · show CoreNext _ _ _ _
    rw [exec_attRun_of_visit h hd hb hg rfl hp (State.foldl_visitPage_of_visitable hl hclean)]
    exact coreNext_finish_setCore _ hc
  · obtain ⟨hstate, hcalm, hcause, hstat⟩ := State.kvMissing_spec hm n
    have hvisit := State.visitPage_of_missing (fails := fails) (g := g) (d := d) (last := min ((s.barge n).length + f.poff.toNat + i) (2 ^ 20 - 1))
      (qs := c.heads a heads d) (ps := empty) hl hclean hpage
    have hexec := exec_attRun_of_visit (fails := fails) h hd hb hg rfl hp (by rw [attPos, hj, List.foldl_cons, List.foldl_nil]; exact hvisit)
    have hcore : (s.kvMissing n).core = s.core := by rw [hstate]; rfl
    refine ⟨_, hexec.trans (finish_of_calm (hcalm hc) rfl), ?_, fun k hk => ?_, hcause, hstat⟩
    · rw [State.core_updCore_self, State.core_putPartials, hcore, List.map_replicate]
      rfl
    · rw [State.core_updCore_of_ne _ _ hk, State.putPartials, State.core_updCore_of_ne _ _ hk, hcore]

end Sys2Proof.Machine
end

section
/-! SUPPORT. `ATT.KVW` (R217, R228, R256): posts and counts of head vectors written in a page's format. -/

namespace Sys2Proof.Machine

/-! ### Counts of a narrowed vector -/

theorem length_chunks_le {α : Type} (n : Nat) (l : List α) (fuel : Nat) : (chunks n l fuel).length ≤ fuel := by
  induction fuel generalizing l with
  | zero => simp [chunks]
  | succ fuel ih =>
    rw [chunks]
    split
    · simp
    · simpa using ih (l.drop n)

/-- No element of a vector is counted twice in one counter. -/
theorem narrow_counts_le (fmt : Nat) (xs : List F32) :
    (narrow fmt xs).2.2.1 ≤ xs.length ∧ (narrow fmt xs).2.2.2.1 ≤ xs.length ∧ (narrow fmt xs).2.2.2.2 ≤ xs.length := by
  unfold narrow
  split
  · simp
  · simpa using List.length_filter_le _ _
  · have hblocks : ((chunks 32 xs (xs.length / 32)).map int4Block).length ≤ xs.length := by
      rw [List.length_map]
      exact (length_chunks_le _ _ _).trans (Nat.div_le_self _ _)
    exact ⟨Nat.zero_le _, (List.length_filter_le _ _).trans hblocks, (List.length_filter_le _ _).trans hblocks⟩

/-- The head vectors at a scratchpad address: as many as asked for, of the dimension asked for. -/
theorem Core.length_heads (c : Core) {a n d : Nat} (hd : 0 < d) : (c.heads a n d).length = n ∧ ∀ v ∈ c.heads a n d, v.length = d := by
  have hlen : (c.spRead a (2 * d * n)).length = 2 * d * n := Core.length_spRead _ _ _
  refine ⟨?_, fun v hv => ?_⟩
  · rw [Core.heads, chunks_eq_map_range (by omega) n _ n hlen le_rfl]
    simp
  · obtain ⟨b, hb, rfl⟩ := List.mem_map.mp hv
    rw [widen, List.length_map]
    exact length_wordsOf (by decide) (length_of_mem_chunks n _ hlen b hb)

/-! ### The three counters (R94, R99) -/

/-- The counters of a conversion into a page. -/
def kvCounters : List RegFam := [Reg.CNT_FP8_SAT, Reg.CNT_KV_SCALE_CLAMP, Reg.CNT_QUANT_NONFINITE]

theorem kvCounters_apart : ∀ f ∈ kvCounters, ∀ g ∈ kvCounters, f ≠ g → f.addr 0 0 ≠ g.addr 0 0 := by decide

theorem State.rf_of_word {s t : State} {f : RegFam} {i j : Nat} (h : t.word (f.addr i j) = s.word (f.addr i j)) (hi lo : Nat) :
    t.rf f i j hi lo = s.rf f i j hi lo := by
  rw [State.rf, State.rf, State.reg_of_word h]

/-- A counter with room counts, and every other register stays. -/
theorem State.err_in_room {s : State} {f : RegFam} {i j n : Nat} (hr : s.room f i j n) :
    s.err f i j n = { s with regs := (s.err f i j n).regs } ∧ (s.err f i j n).rf f i j 30 0 = s.rf f i j 30 0 + n ∧
      ∀ a, a ≠ f.addr i j → (s.err f i j n).word a = s.word a := by
  rw [State.err_of_room hr]
  split
  case isTrue hn => exact ⟨rfl, by rw [hn, Nat.add_zero], fun _ _ => rfl⟩
  case isFalse hn =>
    refine ⟨rfl, ?_, fun a ha => State.word_setReg_of_ne _ _ _ _ _ _ ha⟩
    rw [State.rf_setRf_self _ _ _ _ _ _ (by decide)]
    exact Nat.mod_eq_of_lt (lt_trans hr (by decide))

/-- `t` is `s` after posts, and each of the three counters has counted at most its share of `m` more. -/
structure Tallied (s t : State) (l : List Posted) (m : RegFam → Nat) : Prop where
  state : t = { s with regs := t.regs, posted := s.posted ++ l }
  count : ∀ f ∈ kvCounters, t.rf f 0 0 30 0 ≤ s.rf f 0 0 30 0 + m f
  word : ∀ a, (∀ f ∈ kvCounters, a ≠ f.addr 0 0) → t.word a = s.word a

/-- The three counters have room for `n` more. -/
def State.kvRoom (s : State) (n : Nat) : Prop := ∀ f ∈ kvCounters, s.room f 0 0 n

theorem State.kvRoom.mono {s : State} {m n : Nat} (hr : s.kvRoom n) (h : m ≤ n) : s.kvRoom m := fun f hf => State.room_mono (hr f hf) h

section
variable {s t u : State} {l k : List Posted} {m m' : RegFam → Nat} {f : RegFam} {n n' : Nat}

theorem Tallied.trans (h : Tallied s t l m) (g : Tallied t u k m') : Tallied s u (l ++ k) (fun f => m f + m' f) where
  state := by
    have hg := g.state
    rw [h.state] at hg
    rw [← List.append_assoc]
    exact hg
  count f hf := by
    have h1 := h.count f hf
    have h2 := g.count f hf
    omega
  word a ha := (g.word a ha).trans (h.word a ha)

theorem Tallied.mono (h : Tallied s t l m) (hm : ∀ f ∈ kvCounters, m f ≤ m' f) : Tallied s t l m' :=
  ⟨h.state, fun f hf => (h.count f hf).trans (Nat.add_le_add_left (hm f hf) _), h.word⟩

/-- What room is left. -/
theorem Tallied.room (h : Tallied s t l m) (hf : f ∈ kvCounters) (hr : s.room f 0 0 (m f + n)) : t.room f 0 0 n := by
  have hcount := h.count f hf
  unfold State.room at hr ⊢
  omega

theorem tallied_post (s : State) (site a : Nat) (bs : List Byte) : Tallied s (s.post site a bs) [⟨site, a, bs, []⟩] (fun _ => 0) :=
  ⟨rfl, fun _ _ => le_rfl, fun _ _ => rfl⟩

theorem tallied_err (hf : f ∈ kvCounters) (hr : s.room f 0 0 n) : Tallied s (s.err f 0 0 n) [] (fun g => if g = f then n else 0) := by
  obtain ⟨hstate, hrf, hword⟩ := State.err_in_room hr
  refine ⟨by rw [List.append_nil]; exact hstate, fun g hg => ?_, fun a ha => hword a (ha f hf)⟩
  by_cases hgf : g = f
  · rw [if_pos hgf, hgf, hrf]
  · rw [State.rf_of_word (hword _ (kvCounters_apart g hg f hf hgf))]
    exact Nat.le_add_right _ _

theorem tallied_countNarrow (hr : s.kvRoom n) {c : Nat × Nat × Nat} (h1 : c.1 ≤ n) (h2 : c.2.1 ≤ n) (h3 : c.2.2 ≤ n) :
    Tallied s (s.countNarrow c) [] (fun _ => n) := by
  have hroom : ∀ f ∈ kvCounters, ∀ j ≤ n, s.room f 0 0 j := fun f hf j hj => State.room_mono (hr f hf) hj
  have hsat := tallied_err (s := s) (f := Reg.CNT_FP8_SAT) (by decide) (hroom _ (by decide) _ h1)
  have hclamp := tallied_err (f := Reg.CNT_KV_SCALE_CLAMP) (by decide)
    (hsat.room (by decide) ((Nat.zero_add c.2.1).symm ▸ hroom Reg.CNT_KV_SCALE_CLAMP (by decide) _ h2))
  have htwo := hsat.trans hclamp
  have hnan := tallied_err (f := Reg.CNT_QUANT_NONFINITE) (by decide)
    (htwo.room (by decide) ((Nat.zero_add c.2.2).symm ▸ hroom Reg.CNT_QUANT_NONFINITE (by decide) _ h3))
  have hne1 : Reg.CNT_FP8_SAT ≠ Reg.CNT_KV_SCALE_CLAMP := by decide
  have hne2 : Reg.CNT_FP8_SAT ≠ Reg.CNT_QUANT_NONFINITE := by decide
  have hne3 : Reg.CNT_KV_SCALE_CLAMP ≠ Reg.CNT_QUANT_NONFINITE := by decide
  refine (htwo.trans hnan).mono ?_
  simp only [kvCounters, List.forall_mem_cons, if_pos, if_neg hne1, if_neg hne1.symm, if_neg hne2, if_neg hne2.symm, if_neg hne3,
    if_neg hne3.symm, Nat.add_zero, Nat.zero_add]
  exact ⟨h1, h2, h3, fun f hf => absurd hf List.not_mem_nil⟩

end

/-! ### Head vectors into a page -/

/-- The posts of one head vector: its elements, and in INT4 its scales. -/
def kvPosts (site : Nat) (g : LayerGeom) (d : Nat) (p : PageAt) (h t : Nat) (value : Bool) (xs : List F32) : List Posted :=
  ⟨site, p.addr (vecOffset g.heads d p.fmt h t value), (narrow p.fmt xs).1, []⟩ ::
    (if p.fmt = 2 then [⟨site, p.scaleAddr d h t value, (narrow p.fmt xs).2.1, []⟩] else [])

section
variable {s : State} {site d h t : Nat} {g : LayerGeom} {p : PageAt} {value : Bool}

theorem State.kvPut_eq (s : State) (site : Nat) (g : LayerGeom) (d : Nat) (p : PageAt) (h t : Nat) (value : Bool) (xs : List F32) :
    s.kvPut site g d p h t value xs =
      let r := (s.post site (p.addr (vecOffset g.heads d p.fmt h t value)) (narrow p.fmt xs).1).countNarrow (narrow p.fmt xs).2.2
      if p.fmt = 2 then r.post site (p.scaleAddr d h t value) (narrow p.fmt xs).2.1 else r := rfl

theorem tallied_kvPut {xs : List F32} (hr : s.kvRoom xs.length) :
    Tallied s (s.kvPut site g d p h t value xs) (kvPosts site g d p h t value xs) (fun _ => xs.length) := by
  obtain ⟨h1, h2, h3⟩ := narrow_counts_le p.fmt xs
  have hcount := (tallied_post s site (p.addr (vecOffset g.heads d p.fmt h t value)) (narrow p.fmt xs).1).trans
    (tallied_countNarrow (s := s.post site _ _) hr h1 h2 h3)
  simp only [Nat.zero_add] at hcount
  rw [State.kvPut_eq, kvPosts]
  split
  · exact (hcount.trans (tallied_post _ site (p.scaleAddr d h t value) (narrow p.fmt xs).2.1)).mono fun _ _ => le_rfl
  · exact hcount

/-- Head vectors one after the other, with the number of their KV head. -/
theorem tallied_foldl_kvPut {kvh : Nat} {l : List (List F32 × Nat)} (hl : ∀ v ∈ l, v.1.length = d) (hr : s.kvRoom (d * l.length)) :
    Tallied s (l.foldl (fun s v => s.kvPut site g d p (kvh + v.2) t value v.1) s)
      (l.flatMap (fun v => kvPosts site g d p (kvh + v.2) t value v.1)) (fun _ => d * l.length) := by
  induction l generalizing s with
  | nil => exact ⟨by simp, fun _ _ => le_rfl, fun _ _ => rfl⟩
  | cons v l ih =>
    rw [List.forall_mem_cons] at hl
    obtain ⟨hv, hrest⟩ := hl
    have hroom : d * (v :: l).length = v.1.length + d * l.length := by rw [List.length_cons, hv, Nat.mul_succ, Nat.add_comm]
    rw [hroom] at hr ⊢
    have hput := tallied_kvPut (site := site) (g := g) (d := d) (p := p) (h := kvh + v.2) (t := t) (value := value)
      (hr.mono (Nat.le_add_right _ _))
    exact hput.trans (ih hrest fun f hf => hput.room hf (hr f hf))

end

/-! ### `ATT.KVW` -/

theorem headDim_bounds {code d : Nat} (h : headDim code = some d) : 0 < d ∧ d ≤ 256 := by
  unfold headDim at h
  split at h
  case h_1 | h_2 | h_3 => obtain rfl := Option.some.inj h; decide
  case h_4 => exact nomatch h

section
variable {s : State} {x : Issue} {f : AttF} {d n : Nat} {g : LayerGeom} (h : s.runs x)
include h

theorem attKvw_of_unoccupied (hc : s.calm) (hb : s.attBarge x.site f = none) : CoreNext (exec (.attKvw x f) s) s x.site (s.core x.site) := by
  refine coreNext_finish_issue_of_eq h hc ?_
  simp only [hb]

variable (hd : headDim f.dh.toNat = some d) (hb : s.attBarge x.site f = some n) (hg : s.geom f.layer.toNat = some g)
include hd hb hg

/-- Another phase's position, or one past the last. -/
theorem attKvw_of_elsewhere (hc : s.calm) {pos : Nat} (hpos : attPos (s.barge n) f ((s.core x.site).stepIdx x) = pos)
    (hout : pos / 32 % (f.psm1.toNat + 1) ≠ f.pph.toNat ∨ 2 ^ 20 ≤ pos) : CoreNext (exec (.attKvw x f) s) s x.site (s.core x.site) := by
  refine coreNext_finish_issue_of_eq h hc ?_
  simp only [hd, hb, hg, hpos]
  exact if_pos hout.symm

/-- The state after keys and values have been put. -/
def State.kvWritten (s : State) (x : Issue) (f : AttF) (g : LayerGeom) (d pos a : Nat) (p : PageAt) : State :=
  let c := s.core x.site
  let heads := f.gm1.toNat + 1
  ((c.heads (a + 2 * d * heads) heads d).zipIdx).foldl (fun s v => s.kvPut x.site g d p (f.kvh.toNat + v.2) (pos % 32) true v.1)
    (((c.heads a heads d).zipIdx).foldl (fun s k => s.kvPut x.site g d p (f.kvh.toNat + k.2) (pos % 32) false k.1) s)

theorem exec_attKvw_of_page {pos a : Nat} {p : PageAt} (hl : s.latent = []) (hpos : attPos (s.barge n) f ((s.core x.site).stepIdx x) = pos)
    (ha : attAddr f.a.toNat (4 * d * (f.gm1.toNat + 1)) ((s.core x.site).stepIdx x) = a)
    (hphase : pos / 32 % (f.psm1.toNat + 1) = f.pph.toNat) (hlast : pos < 2 ^ 20)
    (hwalk : (s.walk n f.layer.toNat (pos / 32 / (f.psm1.toNat + 1))).any (fun w => s.memPoisoned x.site w 8) = false)
    (hpage : s.kv.page n f.layer.toNat (pos / 32 / (f.psm1.toNat + 1)) = some p) (htenant : p.tenant = (s.barge n).tenant)
    (hp : (s.core x.site).spPoisoned a (4 * d * (f.gm1.toNat + 1)) = false) :
    exec (.attKvw x f) s = finish ((s.kvWritten x f g d pos a p).updCore x.site Core.advance) := by
  have hin : ¬(2 ^ 20 ≤ pos ∨ pos / 32 % (f.psm1.toNat + 1) ≠ f.pph.toNat) := by
    rw [not_or, not_le, not_not]
    exact ⟨hlast, hphase⟩
  show execAttKvw x f s = _
  rw [execAttKvw, State.issue_of_runs _ h]
  simp only [hd, hb, hg, hpos, ha, if_neg hin, State.walkCheck_of_clean hl hwalk, hpage, htenant, hp, ne_eq, not_true_eq_false, if_false]
  rfl

omit h hb hg in
theorem tallied_kvWritten {pos a : Nat} {p : PageAt} (hr : s.kvRoom 8192) :
    Tallied s (s.kvWritten x f g d pos a p)
      (((s.core x.site).heads a (f.gm1.toNat + 1) d).zipIdx.flatMap (fun v => kvPosts x.site g d p (f.kvh.toNat + v.2) (pos % 32) false v.1) ++
        ((s.core x.site).heads (a + 2 * d * (f.gm1.toNat + 1)) (f.gm1.toNat + 1) d).zipIdx.flatMap
          (fun v => kvPosts x.site g d p (f.kvh.toNat + v.2) (pos % 32) true v.1)) (fun _ => 8192) := by
  obtain ⟨hd0, hd256⟩ := headDim_bounds hd
  have hheads : ∀ b, d * ((s.core x.site).heads b (f.gm1.toNat + 1) d).zipIdx.length ≤ 4096 := fun b => by
    rw [List.length_zipIdx, (Core.length_heads _ hd0).1]
    exact Nat.mul_le_mul hd256 (Nat.succ_le_of_lt f.gm1.isLt)
  have hlen : ∀ b, ∀ v ∈ ((s.core x.site).heads b (f.gm1.toNat + 1) d).zipIdx, v.1.length = d := fun b v hv =>
    (Core.length_heads _ hd0).2 v.1 (List.fst_mem_of_mem_zipIdx hv)
  have hkeys := (tallied_foldl_kvPut (s := s) (site := x.site) (g := g) (p := p) (kvh := f.kvh.toNat) (t := pos % 32) (value := false) (hlen a)
    (hr.mono ((hheads a).trans (by decide)))).mono (m' := fun _ => 4096) (fun _ _ => hheads a)
  have hvalues := (tallied_foldl_kvPut (site := x.site) (g := g) (p := p) (kvh := f.kvh.toNat) (t := pos % 32) (value := true)
    (hlen (a + 2 * d * (f.gm1.toNat + 1)))
    ((show State.kvRoom _ 4096 from fun k hk => hkeys.room hk (hr k hk)).mono (hheads _))).mono (m' := fun _ => 4096) (fun _ _ => hheads _)
  exact hkeys.trans hvalues

end

end Sys2Proof.Machine
end

section
/-! SUPPORT. `ATT.RCMP` and the recompression of a page (R101, R217, R254), and the statement about keys and values. -/

namespace Sys2Proof.Machine

/-! ### `ATT.RCMP` -/

section
variable {s : State} {x : Issue} {f : AttF} {n : Nat} (h : s.runs x)
include h

theorem attRcmp_of_unoccupied (hc : s.calm) (hb : s.attBarge x.site f = none) : CoreNext (exec (.attRcmp x f) s) s x.site (s.core x.site) := by
  refine coreNext_finish_issue_of_eq h hc ?_
  simp only [hb]

variable (hb : s.attBarge x.site f = some n)
include hb

/-- The barge's policy does not ask for it. -/
theorem attRcmp_of_policy (hc : s.calm) (hpol : (s.barge n).kvPolicy.testBit 2 = false) :
    CoreNext (exec (.attRcmp x f) s) s x.site (s.core x.site) := by
  refine coreNext_finish_issue_of_eq h hc ?_
  cases hg : s.geom f.layer.toNat with
  | none => simp only [hb]
  | some g => simp only [hb, hpol, Bool.not_false, if_true]

/-- One old page, which may be taken. -/
theorem exec_attRcmp_of_page {j : Nat} {g : LayerGeom} {p : PageAt} (hl : s.latent = []) (hpol : (s.barge n).kvPolicy.testBit 2 = true)
    (hg : s.geom f.layer.toNat = some g)
    (hold : (visitPages (f.psm1.toNat + 1) f.pph.toNat (s.barge n).length).filter (fun k =>
      decide (32 * (k * (f.psm1.toNat + 1) + f.pph.toNat) + 31 + f.imm.toNat < (s.barge n).length)) = [j])
    (hpage : s.kv.page n f.layer.toNat j = some p) (hfmt : p.fmt = 1) (htenant : p.tenant = (s.barge n).tenant) (hshared : p.shared = false)
    (hnear : ∀ y ∈ p.frames, y.2 = false) (hbusy : s.kv.busy n f.layer.toNat j = false) (hedit : s.editNames n = false)
    (hwalk : (s.walk n f.layer.toNat j).any (fun w => s.memPoisoned x.site w 8) = false) :
    exec (.attRcmp x f) s = finish ((s.recompress x.site g n f.layer.toNat j p).updCore x.site Core.advance) := by
  have hrcmps : s.kv.rcmps.any (fun r => r.barge == n && r.layer == f.layer.toNat && r.page == j) = false := (Bool.or_eq_false_iff.mp hbusy).2
  have hframes : p.frames.any (fun y => y.2) = false := by
    rw [List.any_eq_false]
    exact fun y hy => Bool.eq_false_iff.mp (hnear y hy)
  show execAttRcmp x f s = _
  rw [execAttRcmp, State.issue_of_runs _ h]
  simp only [hb, hg, hpol, hold, List.foldl_cons, List.foldl_nil, State.walkCheck_of_clean hl hwalk, hpage, hfmt, htenant, hshared, hframes, hbusy,
    hedit, hrcmps, Bool.not_true, Bool.false_eq_true, ne_eq, not_true_eq_false, Nat.reduceLeDiff, or_self, if_false]

end

/-! ### Recompression -/

/-- What writes device memory, counts and gives out granules: the page tables, the recompressions that wait and the words in error stay, and no
reset is asked for. -/
structure Recompressing (s t : State) : Prop where
  l3 : t.kv.l3 = s.kv.l3
  rcmps : t.kv.rcmps = s.kv.rcmps
  latent : s.latent = [] → t.latent = []
  calm : s.calm → t.calm
  mild : s.mild [] → t.mild []

section
variable {s t u : State}

theorem Recompressing.refl (s : State) : Recompressing s s := ⟨rfl, rfl, id, id, id⟩

theorem Recompressing.trans (h : Recompressing s t) (k : Recompressing t u) : Recompressing s u :=
  ⟨k.l3.trans h.l3, k.rcmps.trans h.rcmps, k.latent ∘ h.latent, k.calm ∘ h.calm, k.mild ∘ h.mild⟩

theorem Counted.recompressing {w : Nat} (h : Counted s t w) : Recompressing s t where
  l3 := by rw [h.state]
  rcmps := by rw [h.state]
  latent hl := by rw [h.state]; exact hl
  calm := h.calm
  mild := h.mild

theorem recompressing_countNarrow (hm : s.mild []) (c : Nat × Nat × Nat) : Recompressing s (s.countNarrow c) := by
  have hsat := (State.counted_err hm Reg.CNT_FP8_SAT 0 0 c.1 (by decide)).recompressing
  have hclamp := (State.counted_err (hsat.mild hm) Reg.CNT_KV_SCALE_CLAMP 0 0 c.2.1 (by decide)).recompressing
  have hnan := (State.counted_err (hclamp.mild (hsat.mild hm)) Reg.CNT_QUANT_NONFINITE 0 0 c.2.2 (by decide)).recompressing
  exact (hsat.trans hclamp).trans hnan

theorem recompressing_memWrite (s : State) (a : Nat) (bs : List Byte) (l : List Nat) : Recompressing s (s.memWrite a bs l) :=
  ⟨rfl, rfl, fun hl => by rw [State.memWrite, hl]; rfl, id, id⟩

theorem recompressing_allocNear {die fr : Nat} {taken : List Nat} (h : s.allocNear die taken = some (fr, t)) : Recompressing s t := by
  unfold State.allocNear at h
  dsimp only at h
  split at h
  case h_2 => exact nomatch h
  case h_1 =>
    obtain ⟨-, rfl⟩ := Prod.mk.inj (Option.some.inj h)
    split
    · exact ⟨rfl, rfl, id, id, id⟩
    · exact ⟨rfl, rfl, id, id, id⟩

/-- A slot for scales in near memory. -/
theorem recompressing_allocSlot {die : Nat} {taken : List (Nat × Bool)} {sc : (Nat × Bool) × Nat}
    (h : s.allocSlot false die taken = some (sc, t)) :
    Recompressing s t := by
  unfold State.allocSlot at h
  dsimp only at h
  split at h
  case h_1 =>
    obtain ⟨-, rfl⟩ := Prod.mk.inj (Option.some.inj h)
    exact ⟨rfl, rfl, id, id, id⟩
  case h_2 =>
    split at h
    case h_1 hnear =>
      obtain ⟨-, rfl⟩ := Prod.mk.inj (Option.some.inj h)
      exact recompressing_allocNear hnear
    case h_2 => exact nomatch h

/-- One head vector of a page narrowed into its place in another, its scales into theirs. -/
def State.narrowInto (t : State) (site : Nat) (g : LayerGeom) (p q : PageAt) (v : Nat × Nat × Bool) : State :=
  let e := narrow 2 (t.kvVec site g g.dim p v.1 v.2.1 v.2.2)
  ((t.memWrite (q.addr (vecOffset g.heads g.dim 2 v.1 v.2.1 v.2.2)) e.1 []).memWrite (q.scaleAddr g.dim v.1 v.2.1 v.2.2) e.2.1 []).countNarrow e.2.2

theorem recompressing_narrowInto (hm : s.mild []) (site : Nat) (g : LayerGeom) (p q : PageAt) (v : Nat × Nat × Bool) :
    Recompressing s (s.narrowInto site g p q v) := by
  have hwrite := (recompressing_memWrite s (q.addr (vecOffset g.heads g.dim 2 v.1 v.2.1 v.2.2))
    (narrow 2 (s.kvVec site g g.dim p v.1 v.2.1 v.2.2)).1 []).trans (recompressing_memWrite _ (q.scaleAddr g.dim v.1 v.2.1 v.2.2)
      (narrow 2 (s.kvVec site g g.dim p v.1 v.2.1 v.2.2)).2.1 [])
  exact hwrite.trans (recompressing_countNarrow (hwrite.mild hm) _)

theorem recompressing_foldl_narrowInto (hm : s.mild []) (site : Nat) (g : LayerGeom) (p q : PageAt) (l : List (Nat × Nat × Bool)) :
    Recompressing s (l.foldl (fun t v => t.narrowInto site g p q v) s) := by
  induction l generalizing s with
  | nil => exact .refl s
  | cons v l ih =>
    have hstep := recompressing_narrowInto hm site g p q v
    exact hstep.trans (ih (hstep.mild hm))

/-- Where no word is in error, the words at the edges of a write are read without an effect. -/
theorem State.meetEdges_of_sound (hl : s.latent = []) (a n : Nat) : s.meetEdges a n = s := by
  simp [State.meetEdges, hl]

/-- So the fold of a recompression is that of `narrowInto`. -/
theorem foldl_recompress_eq (hl : s.latent = []) (hm : s.mild []) (site : Nat) (g : LayerGeom) (p q : PageAt) (l : List (Nat × Nat × Bool)) :
    l.foldl (fun t v =>
      let e := narrow 2 (t.kvVec site g g.dim p v.1 v.2.1 v.2.2)
      let t := t.meetEdges (q.scaleAddr g.dim v.1 v.2.1 v.2.2) e.2.1.length
      ((t.memWrite (q.addr (vecOffset g.heads g.dim 2 v.1 v.2.1 v.2.2)) e.1 []).memWrite (q.scaleAddr g.dim v.1 v.2.1 v.2.2) e.2.1 []).countNarrow
        e.2.2) s = l.foldl (fun t v => t.narrowInto site g p q v) s := by
  induction l generalizing s with
  | nil => rfl
  | cons v l ih =>
    have hstep := recompressing_narrowInto hm site g p q v
    rw [List.foldl_cons, List.foldl_cons, ← ih (hstep.latent hl) (hstep.mild hm)]
    simp only [State.meetEdges_of_sound hl]
    rfl

/-- The page as it is staged: an INT4 page of its tenant. -/
def PageAt.recompressed (p : PageAt) (fr : Nat) (sc : (Nat × Bool) × Nat) : PageAt :=
  { fmt := 2, tenant := p.tenant, shared := false, frames := [(fr, false)], scale := sc }

/-- The state once every head vector of a page has been narrowed into another. -/
def State.narrowedInto (s : State) (site : Nat) (g : LayerGeom) (p q : PageAt) : State :=
  (LayerGeom.vectors g).foldl (fun t v => t.narrowInto site g p q v) s

/-- With a granule and a slot free. -/
theorem State.recompress_of_free {site n layer page fr : Nat} {g : LayerGeom} {p : PageAt} {sc : (Nat × Bool) × Nat} (hm : s.mild [])
    (hl : s.latent = []) (hp : s.kvPoison site (p.ranges g.heads g.dim (List.range g.heads) 32) = false)
    (ht : s.allocNear (dieOf site) [] = some (fr, t)) (hu : t.allocSlot false (dieOf site) [(fr, false)] = some (sc, u)) :
    let w := u.narrowedInto site g p (p.recompressed fr sc)
    s.recompress site g n layer page p = { w with kv := { w.kv with
      rcmps := w.kv.rcmps ++ [⟨n, layer, page, fr, sc.1, sc.2, p.frames.map (fun y => y.1)⟩] } } ∧ Recompressing s w := by
  have halloc := (recompressing_allocNear ht).trans (recompressing_allocSlot hu)
  have hmeet : (p.ranges g.heads g.dim (List.range g.heads) 32).foldl (fun (s : State) r => s.meet r.1 r.2) s = s :=
    List.foldl_fixed' (fun _ => State.meet_of_sound hl _ _) _
  refine ⟨?_, halloc.trans (recompressing_foldl_narrowInto (halloc.mild hm) _ _ _ _ _)⟩
  rw [State.narrowedInto, ← foldl_recompress_eq (halloc.latent hl) (halloc.mild hm), State.recompress]
  simp only [hmeet, hp, ht, hu, Bool.false_eq_true, if_false]
  rfl

end

/-- Settles O21: the head vectors are posted one after the other and counted within the counters' room; a page that may be taken is recompressed,
vector by vector, into the granule and slot given out. -/
theorem keyValuePages : Obligations.KeyValuePages := by
  unfold Obligations.KeyValuePages
  refine ⟨?_, ?_, ?_⟩
  · intro s x f d n g h hc hl hd c i b pos stride heads a
    refine ⟨attKvw_of_unoccupied h hc, fun hb hg hout => attKvw_of_elsewhere h hd hb hg hc rfl hout, ?_⟩
    intro p hb hg hphase hlast hpage htenant _ hp hwalk hr1 hr2 hr3 posts
    have hr : s.kvRoom 8192 := by
      simp only [State.kvRoom, kvCounters, List.forall_mem_cons]
      exact ⟨hr1, hr2, hr3, fun k hk => absurd hk List.not_mem_nil⟩
    have hexec := exec_attKvw_of_page (pos := pos) (a := a) h hd hb hg hl rfl rfl hphase hlast hwalk hpage htenant hp
    obtain ⟨hstate, -, hword⟩ := tallied_kvWritten (x := x) (f := f) (g := g) (pos := pos) (a := a) (p := p) hd hr
    have hcores : (s.kvWritten x f g d pos a p).core = s.core := by rw [hstate]; rfl
    refine ⟨_, hexec.trans (finish_of_calm hc (congrArg State.fcl hstate :)), ?_, fun k hk => ?_, ?_, ?_, fun w hw => ?_⟩
    · rw [hstate]; rfl
    · rw [State.core_updCore_of_ne _ _ hk, hcores]
    · rw [State.core_updCore_self, hcores]
    · exact (congrArg State.posted hstate).trans (List.append_assoc _ _ _).symm
    · exact hword w fun k hk hwk => hw (hwk ▸ List.mem_map_of_mem (f := fun k => RegFam.addr k 0 0) hk)
  · intro s x f h hc hl c layer
    refine ⟨attRcmp_of_unoccupied h hc, fun n hb hpol => attRcmp_of_policy h hb hc hpol, ?_⟩
    intro n j g p hb hpol hg hold hpage hfmt htenant hshared hnear hbusy hedit hwalk
    exact exec_attRcmp_of_page h hb hl hpol hg hold hpage hfmt htenant hshared hnear hbusy hedit hwalk
  · intro s site n layer page fr g p sc t1 t2 hc hm hl hp ht hu q vectors w
    obtain ⟨heq, hkeep⟩ := State.recompress_of_free (n := n) (layer := layer) (page := page) hm hl hp ht hu
    refine ⟨heq, ?_, ?_, ?_⟩
    · rw [heq]; exact hkeep.l3
    · rw [heq, ← hkeep.rcmps]
    · rw [heq]; exact hkeep.calm hc

end Sys2Proof.Machine
end

section
/-! SUPPORT. The copies of pages between near and far memory (R250, R251, R253, R361): what a granule's copy leaves, what failed tags do, and the
statement about them. -/

namespace Sys2Proof

/-- One byte after a range has been copied over another: what the source held, or what stood there before. -/
theorem Mem.get_write_read {m : Mem} (hm : Mem.wf m = true) (a b n k : Nat) :
    Mem.get (Mem.write m b (Mem.read m a n)) k = if b ≤ k ∧ k < b + n then Mem.get m (k - b + a) else Mem.get m k := by
  rw [Mem.get_write, Mem.length_read]
  refine if_ctx_congr Iff.rfl (fun hk => ?_) fun _ => rfl
  rw [List.getD_eq_getElem?_getD, Mem.getElem?_read hm a (by omega), Option.getD_some, Nat.add_comm]

end Sys2Proof

namespace Sys2Proof.Machine

section
variable {s : State}

/-! ### A granule copied in sound memory -/

/-- With no memory failed and no word in error, a copy changes the target's bytes and the poison alone. -/
theorem State.copyMem_of_sound (hd : s.anyDead = false) (hl : s.latent = []) (src dst n : Nat) :
    s.copyMem src dst n =
      { s with mem := Mem.write s.mem dst (Mem.read s.mem src n), poison := (s.copyMem src dst n).poison } := by
  simp [State.copyMem, State.memWrite, State.landing, unspoil, State.meetEdges_of_sound, hd, hl]

/-- `t` is `s` after granule `src` has been copied over granule `dst`, with the pages' state `kv`. -/
structure GranuleCopied (s t : State) (src dst : Nat × Bool) (kv : Kv) : Prop where
  state : t = { s with mem := t.mem, poison := t.poison, kv := kv }
  bytes : ∀ k, Mem.get t.mem k =
    if granAddr dst ≤ k ∧ k < granAddr dst + 32768 then Mem.get s.mem (k - granAddr dst + granAddr src) else Mem.get s.mem k

theorem State.granuleCopied_copyGranule (hd : s.anyDead = false) (hl : s.latent = []) (hm : Mem.wf s.mem = true) (src dst : Nat × Bool) :
    GranuleCopied s (s.copyGranule src dst) src dst s.kv := by
  rw [State.copyGranule, State.copyMem_of_sound hd hl]
  exact ⟨rfl, Mem.get_write_read hm _ _ _⟩

theorem GranuleCopied.setKv {t : State} {src dst : Nat × Bool} {kv : Kv} (h : GranuleCopied s t src dst kv) (kv' : Kv) :
    GranuleCopied s { t with kv := kv' } src dst kv' := by
  refine ⟨?_, h.bytes⟩
  conv_lhs => rw [h.state]

/-- No poison lies in the page-table region. -/
def State.tablesSound (s : State) : Prop :=
  ∀ w ∈ s.poison, ¬(s.reg Reg.MEM_KV_PT_BASE 0 0 ≤ 8 * w ∧
    8 * w < s.reg Reg.MEM_KV_PT_BASE 0 0 + s.rf Reg.MEM_KV_PT_SIZE 0 0 15 0 * 2 ^ 20)

/-- So no counter that a copy reads carries any (R361). -/
theorem State.countersRead_of_sound (h : s.tablesSound) : s.countersRead = s := by
  have hnone : s.poison.any (fun w => decide (s.reg Reg.MEM_KV_PT_BASE 0 0 ≤ 8 * w ∧
      8 * w < s.reg Reg.MEM_KV_PT_BASE 0 0 + s.rf Reg.MEM_KV_PT_SIZE 0 0 15 0 * 2 ^ 20)) = false :=
    List.any_eq_false.mpr fun w hw => by simpa using h w hw
  rw [State.countersRead, hnone]
  rfl

/-! ### Failed tags (R253, R360) -/

theorem eight_dvd_granAddr (g : Nat × Bool) : 8 ∣ granAddr g := by
  unfold granAddr farBase
  split <;> omega

theorem State.mem_poisonGranule {a : Nat} (ha : 8 ∣ a) (w : Nat) :
    w ∈ (s.poisonGranule a).poison ↔ w ∈ s.poison ∨ a ≤ 8 * w ∧ 8 * w < a + 32768 := by
  have hrange : (∃ k < 4096, a / 8 + k = w) ↔ a ≤ 8 * w ∧ 8 * w < a + 32768 :=
    ⟨fun ⟨k, hk, hw⟩ => by omega, fun h => ⟨w - a / 8, by omega, by omega⟩⟩
  simp only [State.poisonGranule, List.mem_append, List.mem_filter, List.mem_map, List.mem_range, decide_eq_true_eq, hrange]
  by_cases hw : w ∈ s.poison
  · simp only [hw, true_and, true_or, iff_true]
    omega
  · simp only [hw, false_and, false_or, or_false]

/-- Every granule of a list is poisoned, and nothing but the poison changes. -/
theorem State.foldl_poisonGranule (fs : List (Nat × Bool)) :
    ∀ s : State, ∃ l, fs.foldl (fun (s : State) f => s.poisonGranule (granAddr f)) s = { s with poison := l } ∧
      ∀ w, w ∈ l ↔ w ∈ s.poison ∨ ∃ g ∈ fs, granAddr g ≤ 8 * w ∧ 8 * w < granAddr g + 32768 := by
  induction fs with
  | nil => exact fun s => ⟨s.poison, rfl, fun w => by simp⟩
  | cons g fs ih =>
    intro s
    obtain ⟨l, hstate, hmem⟩ := ih (s.poisonGranule (granAddr g))
    refine ⟨l, hstate, fun w => ?_⟩
    rw [hmem w, State.mem_poisonGranule (eight_dvd_granAddr g), or_assoc]
    simp only [List.mem_cons, exists_eq_or_imp]

section
variable {l : List Nat} {f : RegFam} {i j : Nat} (hf : f.addr i j < 0x30000 ∨ 0x40000 ≤ f.addr i j) (n : Nat)
include hf

theorem State.mild_bump (hl : ∀ k ∈ l, k < 256) (hm : s.mild l) : (s.bump f i j n).1.mild l := by
  unfold State.bump
  dsimp only
  split
  · exact hm
  · split
    · exact State.mild_setReg hl hm _ _ _ _ hf
    · exact State.mild_setReg hl hm _ _ _ _ hf

/-- What the saturation of a counter outside the collector does besides is a nested raise (R412). -/
theorem State.nestedKeeps_bump_err (hm : s.mild []) : NestedKeeps (s.bump f i j n).1 (s.err f i j n) := by
  have hlast := NestedKeeps.setReg (s.bump f i j n).1 Reg.FCL_SAT_LAST 0 0 (f.addr i j) (by decide) (by decide)
  have hmild := hlast.mild (by simp) (State.mild_bump hf n (by simp) hm)
  unfold State.err
  dsimp only
  split
  · exact hlast.trans (nestedKeeps_raiseN 5 _ 0 devUnit [] (by decide) (by decide) hmild)
  · exact .refl _

theorem State.mild_err (hl : ∀ k ∈ l, k < 256) (hm : s.mild l) : (s.err f i j n).mild l :=
  (State.nestedKeeps_bump_err hf n (State.mild_of_subset hm (by simp))).mild hl (State.mild_bump hf n hl hm)

/-- So every source but the two of a nested raise is as pending as it was. -/
theorem State.rf_stat_err (hm : s.mild []) {src : Nat} (h2 : 2 ≤ src) (hs : src < 256) (hi lo : Nat) :
    (s.err f i j n).rf Reg.FCL_SRCn_STAT 0 src hi lo = s.rf Reg.FCL_SRCn_STAT 0 src hi lo := by
  rw [State.rf, (State.nestedKeeps_bump_err hf n hm).stat src h2 hs, State.reg_bump_of_ne, State.rf]
  simp only [RegFam.addr, Reg.FCL_SRCn_STAT] at hf ⊢
  omega

end

/-- The failed units are remembered. -/
def Kv.withBadTags (k : Kv) (l : List Nat) : Kv := { k with badTags := k.badTags ++ l.filter (fun u => !k.badTags.contains u) }

theorem Kv.mem_badTags_withBadTags {k : Kv} {l : List Nat} {u : Nat} (hu : u ∈ l) : u ∈ (k.withBadTags l).badTags := by
  by_cases h : u ∈ k.badTags <;> simp [Kv.withBadTags, h, hu]

end

/-! ### A raise keeps the reactions' configuration (R404, R406) -/

/-- A register of the collector other than a source's configuration. -/
theorem RaiseKeeps.setReg (s : State) (f : RegFam) (i j v : Nat) (hlow : 0x30000 ≤ f.addr i j) (hhigh : f.addr i j < 0x40000)
    (hcfg : ∀ n, n < 256 → RegFam.addr Reg.FCL_SRCn_CFG 0 n ≠ f.addr i j) : RaiseKeeps s (s.setReg f i j v) where
  eq := rfl
  store := rfl
  pairs := rfl
  host := rfl
  chip := rfl
  safe := rfl
  word _ ha := State.word_setReg_of_ne _ _ _ _ _ _ (by omega)
  cfg n hn := State.reg_setReg_of_ne _ _ _ _ _ _ _ _ (hcfg n hn)

theorem RaiseKeeps.bump (s : State) (f : RegFam) (i j n : Nat) (hlow : 0x30000 ≤ f.addr i j) (hhigh : f.addr i j < 0x40000)
    (hcfg : ∀ n, n < 256 → RegFam.addr Reg.FCL_SRCn_CFG 0 n ≠ f.addr i j) : RaiseKeeps s (s.bump f i j n).1 := by
  unfold State.bump
  dsimp only
  split
  · exact .refl s
  · split
    · exact .setReg _ _ _ _ _ hlow hhigh hcfg
    · exact .setReg _ _ _ _ _ hlow hhigh hcfg

/-- A raise with mild reactions leaves the configuration of every source, and so the reactions of the next raise. -/
theorem State.raiseKeeps_raise {s : State} {src : Nat} (hs : src < 256) (hm : s.mild [src]) (unit : Nat) : RaiseKeeps s (s.raise src unit) := by
  have hnested : ∀ t n, n < 2 → RaiseKeeps s t → NestedKeeps t (State.raiseN 4 t n devUnit []) := fun t n hn ht =>
    nestedKeeps_raiseN 4 t n devUnit [] hn (by decide) (ht.mild (by simp) (State.mild_of_subset hm (by simp)))
  have hcount : RaiseKeeps s (s.countWith (fun t a b => State.raiseN 4 t a b []) Reg.FCL_SRCn_COUNT src) := by
    have hbump := RaiseKeeps.bump s Reg.FCL_SRCn_COUNT 0 src 1 (by simp only [RegFam.addr, Reg.FCL_SRCn_COUNT]; omega)
      (by simp only [RegFam.addr, Reg.FCL_SRCn_COUNT]; omega) (fun n hn => by simp only [RegFam.addr, Reg.FCL_SRCn_COUNT, Reg.FCL_SRCn_CFG]; omega)
    have hlast := hbump.trans (NestedKeeps.setReg _ Reg.FCL_SAT_LAST 0 0 (RegFam.addr Reg.FCL_SRCn_COUNT 0 src) (by decide) (by decide)).toRaiseKeeps
    unfold State.countWith
    split
    · exact hlast.trans (hnested _ 0 (by decide) hlast).toRaiseKeeps
    · exact hbump
  have hstat := fun v => hcount.trans (RaiseKeeps.setReg _ Reg.FCL_SRCn_STAT 0 src v (by simp only [RegFam.addr, Reg.FCL_SRCn_STAT]; omega)
    (by simp only [RegFam.addr, Reg.FCL_SRCn_STAT]; omega) (fun n hn => by simp only [RegFam.addr, Reg.FCL_SRCn_STAT, Reg.FCL_SRCn_CFG]; omega))
  obtain ⟨h2, h3, h7⟩ := hm src (by simp)
  have hreact := fun v fresh => (hstat v).trans (NestedKeeps.react _ src unit _ fresh h2 h3 h7).toRaiseKeeps
  unfold State.raise State.raiseN State.raiseWith
  dsimp only
  split
  · exact (hreact _ _).trans (NestedKeeps.captureWith _ _ _ _ _ fun t n hn ht => hnested t n hn ((hreact _ _).trans ht.toRaiseKeeps)).toRaiseKeeps
  · exact hreact _ _

/-! ### The effect of failed tags, and of a page that carries poison -/

section
variable {s : State}

/-- `t` is `s` after the tags of units `l` of a page have failed, its granules `fs` (R253). -/
structure UnitsFailed (s t : State) (fs : List (Nat × Bool)) (l : List Nat) : Prop where
  state : t = { s with regs := t.regs, fcl := t.fcl, freeCtr := t.freeCtr, poison := t.poison, kv := s.kv.withBadTags l }
  calm : s.calm → t.calm
  mild : t.mild [0x42]
  poison : ∀ g ∈ fs, ∀ w, granAddr g ≤ 8 * w → 8 * w < granAddr g + 32768 → w ∈ t.poison
  pending : t.rf Reg.FCL_SRCn_STAT 0 0x42 31 31 = 1
  count : s.room Reg.CNT_KV_INTEGRITY 0 0 l.length → t.reg Reg.CNT_KV_INTEGRITY 0 0 = s.reg Reg.CNT_KV_INTEGRITY 0 0 + l.length

theorem State.reg_err_of_room {f : RegFam} {i j n : Nat} (h : s.room f i j n) : (s.err f i j n).reg f i j = s.reg f i j + n := by
  rw [State.err_of_room h]
  split
  case isTrue hn => rw [hn, Nat.add_zero]
  case isFalse => exact State.reg_bumped h

theorem State.failUnits_spec (hm : s.mild [0x42]) (fs : List (Nat × Bool)) {l : List Nat} (hl : l ≠ []) :
    UnitsFailed s (s.failUnits fs l) fs l := by
  obtain ⟨po, hfold, hpo⟩ := State.foldl_poisonGranule fs s
  have heq : s.failUnits fs l = (({ s with poison := po, kv := s.kv.withBadTags l } : State).err Reg.CNT_KV_INTEGRITY 0 0 l.length).raise 0x42
      devUnit := by
    rw [State.failUnits, if_neg (by simpa using hl)]
    dsimp only
    rw [hfold]
    rfl
  rw [heq]
  have hu : (({ s with poison := po, kv := s.kv.withBadTags l } : State)).mild [0x42] := hm
  have hcount := State.counted_err (State.mild_of_subset hu (by simp)) Reg.CNT_KV_INTEGRITY 0 0 l.length (by decide)
  have hmild := State.mild_err (f := Reg.CNT_KV_INTEGRITY) (i := 0) (j := 0) (by decide) l.length (by decide) hu
  have hkeeps := State.raiseKeeps_raise (by decide) hmild devUnit
  obtain ⟨hraise, -, -, hcalm, hpend, -, -, hword⟩ := State.raise_raised (unit := devUnit) (by decide) (by decide) hmild
  have hstate := State.collected_trans hcount.state hraise
  have hbad : s.room Reg.CNT_KV_INTEGRITY 0 0 l.length → _ := fun hr => (State.reg_of_word (hword _ (by decide))).trans (State.reg_err_of_room hr)
  refine ⟨?_, fun hc => hcalm (hcount.calm hc), hkeeps.mild (by decide) hmild, fun g hg w h1 h2 => ?_, hpend, hbad⟩
  · generalize State.raise _ _ _ = t at hstate ⊢
    rw [hstate]
  · rw [hstate]
    exact (hpo w).mpr (.inr ⟨g, hg, h1, h2⟩)

theorem State.addCause_eq (s : State) (c : EndCause) : s.addCause c = { s with flt := { s.flt with causes := (s.addCause c).flt.causes } } := by
  unfold State.addCause
  split
  · rfl
  · rfl

/-- `t` is `s` after the poison of a page has been read for barge `n` (R361). -/
structure PoisonRead (s t : State) (n : Nat) : Prop where
  state : t = { s with regs := t.regs, fcl := t.fcl, freeCtr := t.freeCtr, flt := { s.flt with causes := t.flt.causes } }
  calm : s.calm → t.calm
  cause : (⟨n, 4, 0⟩ : EndCause) ∈ t.flt.causes
  stat : ∀ src, 2 ≤ src → src < 256 → ∀ hi lo, t.rf Reg.FCL_SRCn_STAT 0 src hi lo = s.rf Reg.FCL_SRCn_STAT 0 src hi lo
  word : ∀ a, a ≠ RegFam.addr Reg.MEM_POISON_CONSUMED 0 0 → a < 0x30000 ∨ 0x40000 ≤ a → t.word a = s.word a

theorem State.kvPoisoned_spec (hm : s.mild []) (n : Nat) : PoisonRead s (s.kvPoisoned n) n := by
  have hcount := State.counted_err hm Reg.MEM_POISON_CONSUMED 0 0 1 (by decide)
  have hstat := fun src h2 hs => State.rf_stat_err (s := s) (f := Reg.MEM_POISON_CONSUMED) (i := 0) (j := 0) (by decide) 1 hm (src := src) h2 hs
  have hcause := (s.err Reg.MEM_POISON_CONSUMED 0 0 1).addCause_eq ⟨n, 4, 0⟩
  have hmem := ((s.err Reg.MEM_POISON_CONSUMED 0 0 1).addCause_spec ⟨n, 4, 0⟩).2
  change s.kvPoisoned n = _ at hcause
  rw [hcause]
  obtain ⟨hstate, hcalm, -, hword⟩ := hcount
  generalize s.err Reg.MEM_POISON_CONSUMED 0 0 1 = u at *
  exact ⟨by rw [hstate], hcalm, hmem, hstat, hword⟩

/-! ### The two commands, for a page of one granule -/

theorem SMap.get_upd {α : Type} [DecidableEq α] (m : SMap α) (d : α) (k : Nat) (f : α → α) (k' : Nat) :
    SMap.get (SMap.upd m d k f) d k' = if k' = k then f (SMap.get m d k') else SMap.get m d k' := by
  unfold SMap.upd
  split
  case isTrue h => rw [h, SMap.get_put_self]
  case isFalse h => exact SMap.get_put_of_ne _ _ _ _ h

/-- The pages' state after a far granule has been written anew: its version counter has counted, and its tags are fresh (R246, R250). -/
def Kv.rewritten (k : Kv) (b : Nat) : Kv :=
  { k with badTags := k.badTags.filter (fun u => u / 8 != b), versions := SMap.upd k.versions 0 b (fun v => v + 1) }

theorem Kv.get_versions_rewritten (k : Kv) (b n : Nat) :
    SMap.get (k.rewritten b).versions 0 n = SMap.get k.versions 0 n + if n = b then 1 else 0 := by
  rw [Kv.rewritten, SMap.get_upd]
  split
  · rfl
  · exact (BitVec.add_zero _).symm

theorem Kv.versions_copyDone (k : Kv) (spill : Bool) (n layer page : Nat) : (k.copyDone spill n layer page).versions = k.versions := rfl

theorem State.freshTags_renew (s : State) (b : Nat) : (s.renew [b]).kv.freshTags [b] = s.kv.rewritten b := by
  have hbad : s.kv.badTags.filter (fun u => !([b] : List Nat).contains (u / 8)) = s.kv.badTags.filter (fun u => u / 8 != b) :=
    List.filter_congr fun u _ => by rw [List.contains_cons, List.contains_nil, Bool.or_false]; rfl
  simp only [Kv.freshTags, State.renew, hbad]
  rfl

theorem GranuleCopied.finish_rewritten {t : State} {src : Nat × Bool} {b : Nat} (h : GranuleCopied s t src (b, true) s.kv) (hc : s.calm)
    (barge layer page : Nat) :
    let u := t.renew [b]
    ∃ v, finish { u with kv := (u.kv.freshTags [b]).copyDone true barge layer page } = .next v ∧
      GranuleCopied s v src (b, true) ((s.kv.rewritten b).copyDone true barge layer page) := by
  intro u
  rw [State.freshTags_renew, congrArg State.kv h.state]
  exact ⟨_, finish_of_calm hc (congrArg State.fcl h.state :), h.setKv _⟩

/-- A copy that is abandoned. -/
def State.dropCopy (s : State) (c : Copy) : State := { s with kv := { s.kv with copies := s.kv.copies.filter (fun y => y != c) } }

section
variable {barge layer page a b : Nat} {c : Copy} (hc : s.calm) (hd : s.anyDead = false) (hl : s.latent = []) (htab : s.tablesSound)
  (hm : Mem.wf s.mem = true) (hsource : c.source = [a]) (htarget : c.target = [b])
include hc hd hl htab hm hsource htarget

theorem spillCopyDone_of_one (hcopy : s.copyOf true barge layer page = some c) :
    ∃ t, exec (.spillCopyDone barge layer page) s = .next t ∧
      GranuleCopied s t (a, false) (b, true) ((s.kv.rewritten b).copyDone true barge layer page) := by
  show ∃ t, execSpillCopyDone barge layer page s = .next t ∧ _
  have hgran := s.granuleCopied_copyGranule hd hl hm (a, false) (b, true)
  have hfold : (c.source.zip c.target).foldl (fun (s : State) x => s.copyGranule (x.1, false) (x.2, true)) s.countersRead =
      s.copyGranule (a, false) (b, true) := by
    rw [State.countersRead_of_sound htab, hsource, htarget]
    rfl
  rw [execSpillCopyDone, hcopy]
  dsimp only
  rw [hfold, htarget]
  exact hgran.finish_rewritten hc barge layer page

theorem restoreCopyDone_of_one {fails : List Nat} (hcopy : s.copyOf false barge layer page = some c)
    (htags : s.failedUnits [(granAddr (a, true), 32768)] fails = []) (hpoison : poisonOf s.poison (granAddr (a, true)) 32768 = []) :
    ∃ t, exec (.restoreCopyDone barge layer page fails) s = .next t ∧
      GranuleCopied s t (a, true) (b, false) (s.kv.copyDone false barge layer page) := by
  show ∃ t, execRestoreCopyDone barge layer page fails s = .next t ∧ _
  have hgran := s.granuleCopied_copyGranule hd hl hm (a, true) (b, false)
  have hsound : s.poisonAt s.poison (granAddr (a, true)) 32768 = [] := by rw [State.poisonAt, hd]; exact hpoison
  rw [execRestoreCopyDone, hcopy]
  simp only [State.countersRead_of_sound htab, hsource, htarget, List.zip_cons_cons, List.zip_nil_right, List.foldl_cons, List.foldl_nil,
    State.meet_of_sound hl, List.map_cons, List.map_nil, htags, List.isEmpty_nil, Bool.not_true, Bool.false_eq_true, if_false, List.any_cons,
    List.any_nil, hsound, Bool.or_false]
  generalize s.copyGranule (a, true) (b, false) = t at hgran ⊢
  rw [congrArg State.kv hgran.state]
  exact ⟨_, finish_of_calm hc (congrArg State.fcl hgran.state :), hgran.setKv _⟩

omit hc hd hm htarget in
theorem exec_restoreCopyDone_of_badTags {fails l : List Nat} {p : PageAt} (hcopy : s.copyOf false barge layer page = some c)
    (htags : s.failedUnits [(granAddr (a, true), 32768)] fails = l) (hne : l ≠ []) (hpage : s.kv.page barge layer page = some p) :
    exec (.restoreCopyDone barge layer page fails) s =
      finish (((s.dropCopy c).failUnits p.frames l).kvPoisoned barge) := by
  show execRestoreCopyDone barge layer page fails s = _
  have hsome : (!l.isEmpty) = true := by simpa using hne
  rw [execRestoreCopyDone, hcopy]
  simp only [State.countersRead_of_sound htab, hsource, List.foldl_cons, List.foldl_nil, State.meet_of_sound hl, List.map_cons, List.map_nil, htags,
    hsome, if_true, hpage]
  rfl

end
end

/-- Settles O45: in sound memory a copy moves its granule's bytes and is complete, a spill with the counter and the tags of its far granule renewed;
failed tags abandon a restore, poison its page and end its barge. -/
theorem pageCopies : Obligations.PageCopies := by
  unfold Obligations.PageCopies
  intro s barge layer page a b fails l c p hc hd hl htab hwf hsource htarget at_ copied
  refine ⟨fun hcopy => ?_, fun hcopy => ⟨fun htags hpoison => ?_, fun htags hne hpage hm => ?_⟩⟩
  · obtain ⟨t, hexec, hgran⟩ := spillCopyDone_of_one hc hd hl htab hwf hsource htarget hcopy
    have hkv : t.kv = _ := congrArg State.kv hgran.state
    refine ⟨t, hexec, ?_, fun k => ?_, hgran.bytes⟩
    · rw [hkv]
      exact hgran.state
    · rw [hkv, Kv.versions_copyDone, Kv.get_versions_rewritten]
      simp
  · obtain ⟨t, hexec, hgran⟩ := restoreCopyDone_of_one hc hd hl htab hwf hsource htarget hcopy htags hpoison
    have hkv : t.kv = _ := congrArg State.kv hgran.state
    refine ⟨t, hexec, ?_, fun k => ?_, hgran.bytes⟩
    · rw [hkv]
      exact hgran.state
    · rw [hkv, Kv.versions_copyDone]
      simp
  · have hunits := State.failUnits_spec (s := s.dropCopy c) hm p.frames hne
    have hread := State.kvPoisoned_spec (State.mild_of_subset hunits.mild (by simp)) barge
    refine ⟨_, (exec_restoreCopyDone_of_badTags hl htab hsource hcopy htags hne hpage).trans (finish_of_calm (hread.calm (hunits.calm hc)) rfl),
      ?_, fun u hu => ?_, fun g hg w h1 h2 => ?_, hread.cause, ?_, fun hr => ?_⟩
    · obtain ⟨hstate⟩ := hunits
      have hafter := hread.state
      generalize State.kvPoisoned _ _ = t at hafter ⊢
      generalize State.failUnits _ _ _ = v at hafter hstate
      rw [hafter, hstate]
      rfl
    · rw [hread.state, hunits.state]
      exact Kv.mem_badTags_withBadTags hu
    · rw [hread.state]
      exact hunits.poison g hg w h1 h2
    · rw [hread.stat 0x42 (by decide) (by decide)]
      exact hunits.pending
    · rw [State.reg_of_word (hread.word _ (by decide) (by decide))]
      exact hunits.count hr

end Sys2Proof.Machine
end

section
/-! SUPPORT. Commands of the flight on their way into the entry device's queue (R265, R285, R315, R395, R396). -/

namespace Sys2Proof.Machine

section
variable {s : State} {h : Hdr} {x : Session}

/-- Outside a halted flight every command of the flight waits, and in a halted one every command that it does not reject (R315). -/
theorem State.stageCmd_taken {b : BargeCmd} (hgo : s.flightState ≠ 3 ∨ haltRejects b = false) (tenant : Nat) :
    (s.taken h).stageCmd h tenant b = s.queued h tenant b := by
  have hno : ¬((decide ((s.taken h).flightState = 3) && haltRejects b) = true) := by
    rcases hgo with hstate | hbody
    · have hstate' : (s.taken h).flightState ≠ 3 := hstate
      simp [hstate']
    · simp [hbody]
  rw [State.stageCmd, if_neg hno]
  rfl

/-- An accepted command whose meaning puts it into the queue. -/
theorem State.command_queues {r : CmdRow} {enc range : Bool} {run : State → Session → Reply → State} {tenant : Nat} {b : BargeCmd}
    (hc : s.calm) (ha : s.accepts h r false true true x) (henc : enc = true) (hrange : range = true)
    (hrun : run (s.taken h) x (replyTo h r.op) = (s.taken h).stageCmd h tenant b) (hgo : s.flightState ≠ 3 ∨ haltRejects b = false) :
    s.command h r false enc range run = .next (s.queued h tenant b) := by
  rw [henc, hrange, State.command_of_accepts ha, hrun, State.stageCmd_taken hgo]
  exact finish_of_calm (t := s.queued h tenant b) hc rfl

/-- A submission whose encodings and ranges are good is not counted as rejected: it is a command as any other. -/
theorem State.submission_of_good (r : CmdRow) {enc range : Bool} (run : State → Session → Reply → State) (henc : enc = true)
    (hrange : range = true) (hx : s.session h.session = some x) :
    s.submission h r enc range run = s.command h r false enc range run := by
  simp [State.submission, hx, henc, hrange]

/-- A tenant's command that names barges. -/
theorem State.bargeCommand_queues {op : Nat} {b : BargeCmd} (hc : s.calm) (ha : s.accepts h (tenantRow op) false true true x)
    (hgo : s.flightState ≠ 3 ∨ haltRejects b = false) : s.bargeCommand h op b = .next (s.queued h x.tenantNo b) :=
  State.command_queues hc ha rfl rfl rfl hgo

/-- A command to the entry device is accepted by the entry device alone. -/
theorem State.isEntry_of_accepts {r : CmdRow} {recov enc range : Bool} (ha : s.accepts h r recov enc range x) (hentry : r.entry = true) :
    s.isEntry = true := by
  obtain ⟨-, -, -, hcheck⟩ := ha
  by_contra hno
  have htakes : s.takesFlight r.op = false := by simp [State.takesFlight, hno]
  simp only [State.precheck, hentry, htakes, Bool.not_false, Bool.and_true, if_true] at hcheck
  split_ifs at hcheck

end

/-! ### The tenants' commands -/

section
variable {s : State} {h : Hdr} {x : Session}

theorem exec_park_of_halted (hhalt : s.flightState = 3) (ha : s.accepts h (tenantRow 0x0142) false true true x) (n : Nat) :
    exec (.park h n) s = .next ((s.taken h).answer (replyTo h 0x0142) stBusy []).settle := by
  have hhalt' : (s.taken h).flightState = 3 := hhalt
  have hentry : s.isEntry = true := State.isEntry_of_accepts ha rfl
  have hentry' : (s.taken h).isEntry = true := hentry
  show execPark h n s = _
  unfold execPark State.bargeCommand
  rw [State.command_of_accepts ha, State.stageCmd, if_pos (by simp [hhalt', haltRejects])]
  simp only [State.rejectCmd, isAdmission, Bool.false_eq_true, if_false, State.answerCmd, hentry', if_true]
  rfl

theorem submitReserved_of_fits {f : SubmitF} (hpad : f.pad = 0) (hfit : f.kvPolicy.toNat < 8 ∧ f.variant.toNat < 4096 ∧ f.topK.toNat < 4096 ∧
    f.stop.toNat < 2 ^ 24 ∧ f.itl.toNat < 2 ^ 24) : submitReserved f = true := by
  simpa [submitReserved, hpad, and_assoc] using hfit

theorem exec_submit_queues {f : SubmitF} {prompt : List (BitVec 32)} (hc : s.calm) (hstate : s.flightState ≠ 3)
    (ha : s.accepts h (tenantRow 0x0140) false true true x) (hres : submitReserved f = true) (hlen : prompt.length = f.promptLen.toNat)
    (hprio : f.prio.toNat ≤ 7) (hdepth : f.depthMax.toNat ≤ 7) (htokens : ∀ t ∈ prompt, t.toNat < s.vocab) :
    exec (.submit h f prompt) s = .next (s.queued h x.tenantNo (.submit f prompt none)) := by
  have henc : (submitReserved f && prompt.length == f.promptLen.toNat) = true := by simp [hres, hlen]
  have hrange : (decide (f.prio.toNat ≤ 7 ∧ f.depthMax.toNat ≤ 7) && prompt.all (fun t => decide (t.toNat < s.vocab))) = true := by
    simpa [hprio, hdepth] using htokens
  show s.submission _ _ _ _ _ = _
  rw [State.submission_of_good _ _ henc hrange ha.1]
  exact State.command_queues hc ha henc hrange rfl (.inl hstate)

theorem exec_varLoad_queues {n m k gen : Nat} {data : List VarLayer} (hc : s.calm) (hstate : s.flightState ≠ 3)
    (ha : s.accepts h (tenantRow 0x0150) false true true x) (hlow : 1 ≤ n) (hhigh : n ≤ 4095) (hshape : s.varShapeOk m k data = true) :
    exec (.varLoad h n gen m k data) s = .next (s.queued h x.tenantNo (.varLoad n gen data)) := by
  show execVarLoad h n gen m k data s = _
  unfold execVarLoad
  exact State.command_queues hc ha hshape (decide_eq_true ⟨hlow, hhigh⟩) rfl (.inl hstate)

theorem exec_varUnload_queues {n : Nat} (hc : s.calm) (hstate : s.flightState ≠ 3) (ha : s.accepts h (tenantRow 0x0151) false true true x)
    (hlow : 1 ≤ n) (hhigh : n ≤ 4095) : exec (.varUnload h n) s = .next (s.queued h x.tenantNo (.varUnload n)) := by
  show execVarUnload h n s = _
  unfold execVarUnload
  exact State.command_queues hc ha rfl (decide_eq_true ⟨hlow, hhigh⟩) rfl (.inl hstate)

/-! ### The operator's commands, and those of version 1.1 -/

theorem exec_schedActivate_queues {tag lockage : Nat} (hc : s.calm) (ha : s.accepts h (opEntryRow 0x0122) false true true x)
    (hflight : s.inFlight = true) (hlater : s.reg Reg.FLK_LOCKAGE 0 0 < lockage) (hfree : ∀ e ∈ s.seq.barges, e.2.state = .free) :
    exec (.schedActivate h tag lockage) s = .next (s.queued h 0 (.activate tag lockage)) := by
  have hflight' : (s.taken h).inFlight = true := hflight
  have hlater' : ¬lockage ≤ (s.taken h).reg Reg.FLK_LOCKAGE 0 0 := Nat.not_le.mpr hlater
  have hidle : ((s.taken h).seq.barges.any (fun b => b.2.state != .free)) = false := by
    simpa [State.taken, State.updSession] using fun a b hab => hfree (a, b) hab
  show execSchedActivate h tag lockage s = _
  unfold execSchedActivate
  refine State.command_queues (b := .activate tag lockage) hc ha rfl rfl ?_ (.inr rfl)
  simp only [hflight', hlater', hidle, Bool.not_true, Bool.false_eq_true, Bool.and_false, if_false]

theorem exec_genCommit_queues {gen mode mask timeout valid tag : Nat} (hc : s.calm)
    (ha : s.accepts h (opEntryRow 0x0132) false true true x) (henc : gen < 256 ∧ mode < 2 ∧ mask < 65536 ∧ valid < 2)
    (hrange : 1 ≤ timeout ∧ timeout ≤ 1048575) :
    exec (.genCommit h gen mode mask timeout valid tag) s =
      .next (s.queued h 0 (.commit gen (mode == 1) mask timeout (if valid = 1 then some tag else none))) := by
  show execGenCommit h gen mode mask timeout valid tag s = _
  unfold execGenCommit
  exact State.command_queues hc ha (decide_eq_true henc) (decide_eq_true hrange) rfl (.inr rfl)

/-- With no flag but the lowest, that flag says whether the temperature is 0. -/
theorem State.translate_of_flags (s : State) {r : Vx20Rec} (hflags : r.flags.toNat ≤ 1) : s.translate r =
    { prio := r.prio, kvPolicy := BitVec.ofNat 8 (bitsOf s.seq.compatNow 18 16), depthMax := 0, pad := 0, variant := 0, topK := r.topK
      promptLen := r.promptLen, maxNew := r.maxNew, stop := if r.stop = 0xFFFFFFFF then 0xFFFFFF else r.stop, ttft := r.deadline
      itl := 0xFFFFFF, temp := if r.flags = 1 then 0 else r.temp, topP := r.topP, seed := r.seed } := by
  have hflag : r.flags = 0 ∨ r.flags = 1 := by bv_omega
  rcases hflag with hf | hf <;> simp [State.translate, hf]

theorem exec_vx20Request_queues {r : Vx20Rec} {prompt : List (BitVec 32)} (hc : s.calm) (hstate : s.flightState ≠ 3)
    (ha : s.accepts h (tenantRow 0x0001) false true true x) (hversion : r.version = 0x0102) (hmode : s.seq.compatNow.testBit 31 = true)
    (hflags : r.flags.toNat ≤ 1) (hpad : r.pad = 0) (hlen : prompt.length = r.promptLen.toNat) (hlong : r.promptLen.toNat ≤ 1048575)
    (hprio : r.prio.toNat ≤ 7) (hstop : r.stop.toNat < 0xFFFFFF ∨ r.stop = 0xFFFFFFFF) (htokens : ∀ t ∈ prompt, t.toNat < s.vocab) :
    exec (.vx20Request h r prompt) s = .next (s.queued h x.tenantNo (.submit (s.translate r) prompt (some r.request))) := by
  have hshift : r.flags >>> 1 = 0 := by
    have hflag : r.flags = 0 ∨ r.flags = 1 := by bv_omega
    rcases hflag with hf | hf <;> simp [hf]
  have henc : (r.flags >>> 1 == 0 && r.pad == 0 && prompt.length == r.promptLen.toNat) = true := by simp [hshift, hpad, hlen]
  have hrange : (decide (r.prio.toNat ≤ 7) && (decide (r.stop.toNat < 0xFFFFFF) || r.stop == 0xFFFFFFFF) &&
      prompt.all (fun t => decide (t.toNat < s.vocab))) = true := by
    simp only [hprio, decide_true, Bool.true_and, Bool.and_eq_true, Bool.or_eq_true, decide_eq_true_eq, beq_iff_eq, List.all_eq_true]
    exact ⟨hstop, htokens⟩
  have hmode' : (s.taken h).seq.compatNow.testBit 31 = true := hmode
  show s.submission _ _ _ _ _ = _
  rw [State.submission_of_good _ _ henc hrange ha.1]
  refine State.command_queues hc ha henc hrange ?_ (.inl hstate)
  simp only [hversion, hmode', Nat.not_lt.mpr hlong, ne_eq, not_true, Bool.not_true, Bool.false_eq_true, or_self, if_false]
  rfl

theorem exec_vx20Abort_queues {request : BitVec 32} {n : Nat} {b : Barge} (hc : s.calm)
    (ha : s.accepts h (tenantRow 0x0002) false true true x)
    (hmine : s.seq.barges.filter (fun e => e.2.compat && e.2.session == h.session && e.2.request == request) = [(n, b)]) :
    exec (.vx20Abort h request) s = .next (s.queued h x.tenantNo (.cancel n)) := by
  have hmine' : (s.taken h).seq.barges.filter (fun e => e.2.compat && e.2.session == h.session && e.2.request == request) = [(n, b)] := hmine
  show execVx20Abort h request s = _
  unfold execVx20Abort
  refine State.command_queues (b := .cancel n) hc ha rfl rfl ?_ (.inr rfl)
  cases hlive : b.live <;> simp [hmine', hlive]

end

/-- Settles O29: every command that the shared checks pass waits in the queue, each through `State.command_queues`; a halted flight answers a park
`E_BUSY`. -/
theorem flightCommandsAreQueued : Obligations.FlightCommandsAreQueued := by
  unfold Obligations.FlightCommandsAreQueued
  constructor
  · intro s h x n m k gen f prompt data hc q ok
    refine ⟨fun ha => State.bargeCommand_queues hc ha (.inr rfl), fun hhalt ha => exec_park_of_halted hhalt ha n, fun hstate => ?_⟩
    have waits : ∀ (op : Nat) (c : BargeCmd), ok op → s.bargeCommand h op c = .next (s.queued h x.tenantNo c) := fun _ _ ha =>
      State.bargeCommand_queues hc ha (.inl hstate)
    exact ⟨fun ha hpad hpolicy hvariant htop hstop hitl hlen hprio hdepth => exec_submit_queues hc hstate ha
        (submitReserved_of_fits hpad ⟨hpolicy, hvariant, htop, hstop, hitl⟩) hlen hprio hdepth,
      waits _ _, waits _ _, waits _ _, waits _ _, waits _ _, exec_varLoad_queues hc hstate, exec_varUnload_queues hc hstate⟩
  · intro s h x tag lockage gen mode mask timeout valid n r prompt request b hc q
    refine ⟨exec_schedActivate_queues hc, fun ha hgen hmode hmask hvalid hlow hhigh =>
      exec_genCommit_queues hc ha ⟨hgen, hmode, hmask, hvalid⟩ ⟨hlow, hhigh⟩, fun ha hstate hversion hmode hflags => ?_, exec_vx20Abort_queues hc⟩
    rw [← s.translate_of_flags hflags]
    exact exec_vx20Request_queues hc hstate ha hversion hmode hflags

end Sys2Proof.Machine
end


section
/-! SUPPORT. Control messages on their way out of the flight ports, and the broadcasts at the end of a lockage (R265, R266, R306, R398). -/

namespace Sys2Proof.Machine

/-! ### Messages out of ports -/

/-- A message with the key that seals it. -/
abbrev KeyedBody : Type := Option (BitVec 128) × CtlBody

/-- The port after a message has been put behind those that wait. -/
def Port.post (q : Port) (m : KeyedBody) : Port :=
  { q with next := q.next + 1, waiting := q.waiting ++ [⟨⟨q.next, q.lastRx, m.1, m.2⟩, 0⟩] }

/-- The ports after messages have gone, one after another, out of each port of a list that is up. -/
def postAll (up : Nat → Bool) (ds : List Nat) (ms : List KeyedBody) (ports : List Port) : List Port :=
  ms.foldl (fun l m => (ds.filter up).foldl (fun l p => l.set p ((l.getD p portReset).post m)) l) ports

/-- The state after messages have gone out of ports. -/
def State.posts (s : State) (ds : List Nat) (ms : List KeyedBody) : State :=
  { s with flt := { s.flt with ports := postAll s.portUp ds ms s.flt.ports } }

/-- A message under the key that R478 asks for. -/
def State.keyed (s : State) (b : CtlBody) : KeyedBody := (if sealedBody b then s.flt.key else none, b)

/-- The ports by which a broadcast starts. -/
def Tree.ways (t : Tree) : List Nat :=
  match t.parent with
  | some p => [p]
  | none => t.children

theorem postAll_append (up : Nat → Bool) (ds : List Nat) (ms ns : List KeyedBody) (ports : List Port) :
    postAll up ds (ms ++ ns) ports = postAll up ds ns (postAll up ds ms ports) := List.foldl_append

theorem State.posts_append (s : State) (ds : List Nat) (ms ns : List KeyedBody) : s.posts ds (ms ++ ns) = (s.posts ds ms).posts ds ns := by
  rw [State.posts, postAll_append]
  rfl

theorem State.foldl_sendPort (b : CtlBody) (ds : List Nat) : ∀ s : State, ds.foldl (fun s p => s.sendPort p b) s = s.posts ds [s.keyed b] := by
  induction ds with
  | nil => exact fun s => rfl
  | cons p ds ih =>
    intro s
    rw [List.foldl_cons, ih]
    cases hup : s.portUp p with
    | false =>
      have hstays : s.sendPort p b = s := if_neg (by simp [hup])
      rw [hstays, State.posts, State.posts]
      simp [postAll, hup]
    | true =>
      have hsent : s.sendPort p b = s.setPort p ((s.port p).post (s.keyed b)) := if_pos hup
      rw [hsent, State.posts, State.posts]
      have hports : postAll s.portUp (p :: ds) [s.keyed b] s.flt.ports =
          postAll s.portUp ds [s.keyed b] (s.flt.ports.set p ((s.port p).post (s.keyed b))) := by
        simp [postAll, hup, State.port]
      rw [hports]
      rfl

theorem State.sendDown_eq (s : State) (b : CtlBody) : s.sendDown b = s.posts s.flt.tree.children [s.keyed b] := State.foldl_sendPort b _ s

theorem State.sendPort_eq (s : State) (p : Nat) (b : CtlBody) : s.sendPort p b = s.posts [p] [s.keyed b] := State.foldl_sendPort b [p] s

theorem State.broadcast_eq (s : State) (b : CtlBody) : s.broadcast b = s.posts s.flt.tree.ways [s.keyed b] := by
  unfold State.broadcast Tree.ways
  cases hparent : s.flt.tree.parent with
  | some p => exact State.sendPort_eq s p b
  | none => exact State.sendDown_eq s b

/-! ### What goes out before the arrival -/

/-- The closes that the device has made as an exit device. -/
def State.closedMsgs (s : State) : List KeyedBody := s.hpt.closings.map (fun n => (none, .closed n))

theorem State.foldl_closed (l : List Nat) : ∀ s : State, l.foldl (fun (s : State) n => s.broadcast (.closed n)) s =
    s.posts s.flt.tree.ways (l.map (fun n => (none, .closed n))) := by
  induction l with
  | nil => exact fun s => rfl
  | cons n l ih =>
    intro s
    rw [List.foldl_cons, ih, State.broadcast_eq, List.map_cons, ← List.singleton_append, State.posts_append]
    rfl

/-- The closes no longer wait to be reported. -/
def State.closingsGone (s : State) : State := { s with hpt := { s.hpt with closings := [] } }

theorem State.reportClosings_eq (s : State) : s.reportClosings = s.closingsGone.posts s.flt.tree.ways s.closedMsgs := State.foldl_closed _ _

/-- The commands that the list takes as it closes. -/
def State.dueCmds (s : State) : List Staged := (s.seq.queue.filter Queued.due).map (fun q => q.cmd)

/-- The broadcast of the list, none where the list takes nothing. -/
def State.listMsgs (s : State) : List KeyedBody := if s.dueCmds.isEmpty then [] else [(s.flt.key, .commands s.dueCmds)]

/-- The queue once the list holds what is due. -/
def State.listedQueue (s : State) : List Queued := s.seq.queue.map (fun q => { q with listed := q.listed || q.due })

theorem State.closeList_of_open {s : State} (hentry : s.isEntry = true) (hsent : s.flt.sent = false) : s.closeList =
    ({ s with seq := { s.seq with queue := s.listedQueue } } : State).posts s.flt.tree.ways s.listMsgs := by
  have hopen : (s.isEntry && !s.flt.sent) = true := by simp [hentry, hsent]
  rw [State.closeList, if_pos hopen]
  cases hdue : s.dueCmds.isEmpty with
  | true =>
    have hdue' : ((s.seq.queue.filter Queued.due).map (fun q => q.cmd)).isEmpty = true := hdue
    simp only [hdue', if_true, State.listMsgs, hdue]
    rfl
  | false =>
    have hdue' : ((s.seq.queue.filter Queued.due).map (fun q => q.cmd)).isEmpty = false := hdue
    simp only [hdue', Bool.false_eq_true, if_false, State.listMsgs, hdue]
    exact State.broadcast_eq _ _

theorem State.closeList_of_closed {s : State} (h : (s.isEntry && !s.flt.sent) = false) : s.closeList = s := if_neg (by simp [h])

/-! ### The acceptance results -/

/-- End causes are noted, and nothing else changes. -/
theorem State.foldl_endCause (status : Nat) (l : List Accept) : ∀ s : State, ∃ c,
    l.foldl (fun (s : State) a => s.endCause a.barge status) s = { s with flt := { s.flt with causes := c } } := by
  induction l with
  | nil => exact fun s => ⟨_, rfl⟩
  | cons a l ih =>
    intro s
    obtain ⟨c, hc⟩ := ih (s.endCause a.barge status)
    rw [List.foldl_cons, hc, State.endCause, State.addCause_eq]
    exact ⟨_, rfl⟩

theorem State.sendAccepts_of_not {s : State} (h : s.isExit = false ∨ s.flt.accIn = true) : s.sendAccepts = s := by
  refine if_neg ?_
  rcases h with h | h <;> simp [h]

/-- The exit device's results go out once, with the end causes that it has detected (R266, R268). -/
theorem State.sendAccepts_of_exit {s : State} (hexit : s.isExit = true) (hacc : s.flt.accIn = false) : ∃ c p, s.sendAccepts =
    { s with seq := { s.seq with results := s.slotBarges.map s.acceptOf }, flt := { s.flt with causes := c, ports := p, accIn := true } } := by
  have hopen : (s.isExit && !s.flt.accIn) = true := by simp [hexit, hacc]
  rw [State.sendAccepts, if_pos hopen]
  obtain ⟨c, hc⟩ := State.foldl_endCause 7
    ((s.slotBarges.map s.acceptOf).filter (fun a => a.noToken && (s.barge a.barge).repeats + 1 == 3)) s
  simp only [hc, State.broadcast_eq]
  exact ⟨c, _, rfl⟩

/-- The results, with or without them gone out: what they leave. -/
theorem State.sendAccepts_eq (s : State) : ∃ r c p a, s.sendAccepts =
    { s with seq := { s.seq with results := r }, flt := { s.flt with causes := c, ports := p, accIn := a } } := by
  by_cases h : s.isExit = false ∨ s.flt.accIn = true
  · exact ⟨_, _, _, _, State.sendAccepts_of_not h⟩
  · have hopen : s.isExit = true ∧ s.flt.accIn = false := by simpa using h
    obtain ⟨c, p, heq⟩ := State.sendAccepts_of_exit hopen.1 hopen.2
    exact ⟨_, c, p, true, heq⟩

end Sys2Proof.Machine
end

section
/-! SUPPORT. The barrier: the arrival, the root's decision, the release (R309 to R311, R316). -/

namespace Sys2Proof.Machine

/-! ### The arrival -/

theorem foldl_orFlags (kids : List Arrival) : ∀ f : VoteFlags, kids.foldl (fun f a => orFlags f a.flags) f =
    ⟨f.wide || kids.any (fun a => a.flags.wide), f.throttle || kids.any (fun a => a.flags.throttle), f.halt || kids.any (fun a => a.flags.halt),
      f.incomplete || kids.any (fun a => a.flags.incomplete)⟩ := by
  induction kids with
  | nil => simp
  | cons a kids ih =>
    intro f
    rw [List.foldl_cons, ih]
    simp [orFlags, Bool.or_assoc]

/-- The flags of an arrival are the device's own and those of every child. -/
theorem State.arrival_flags (s : State) (b : Bool) :
    let kids := s.flt.arrivals.map (fun a => a.2)
    (s.arrival b).flags = ⟨s.sites.any (fun x => s.rf Reg.ARY_WIDE_REQ x 0 0 0 == 1) || kids.any (fun a => a.flags.wide),
      s.rf Reg.THM_STATE 0 0 1 1 == 1 || kids.any (fun a => a.flags.throttle), s.votesHalt || kids.any (fun a => a.flags.halt),
      b || kids.any (fun a => a.flags.incomplete)⟩ := by
  simp only [State.arrival, foldl_orFlags, State.ownFlags]

/-- The state in which the arrival has left: before it the closes and the list, each by the ports of a broadcast; the root keeps its own. -/
def State.arrivalSent (s : State) (b : Bool) : State :=
  { s with
    hpt := { s.hpt with closings := [] }
    seq := { s.seq with queue := if s.isEntry then s.listedQueue else s.seq.queue }
    flt := { s.flt with
      sent := true, late := b, causes := if s.isRoot then s.flt.causes else (s.arrival b).causes.drop s.causeLimit
      ports := postAll s.portUp s.flt.tree.ways (s.closedMsgs ++ (if s.isEntry then s.listMsgs else []) ++
        (if s.isRoot then [] else [(none, .arrival { s.arrival b with causes := (s.arrival b).causes.take s.causeLimit })])) s.flt.ports } }

/-- The list holds what is due in the entry device. -/
def State.listClosed (s : State) : State := { s with seq := { s.seq with queue := if s.isEntry then s.listedQueue else s.seq.queue } }

/-- The closes and the list leave before the arrival does. -/
theorem State.closeList_reportClosings {s : State} (hsent : s.flt.sent = false) : s.reportClosings.closeList =
    s.closingsGone.listClosed.posts s.flt.tree.ways (s.closedMsgs ++ (if s.isEntry then s.listMsgs else [])) := by
  have hentry' : s.closingsGone.isEntry = s.isEntry := rfl
  rw [State.reportClosings_eq, State.listClosed, hentry']
  cases hentry : s.isEntry with
  | false =>
    have hclosed : ((s.closingsGone.posts s.flt.tree.ways s.closedMsgs).isEntry && !s.flt.sent) = false := congrArg (· && !s.flt.sent) hentry
    rw [State.closeList_of_closed hclosed]
    simp only [Bool.false_eq_true, if_false, List.append_nil]
  | true =>
    refine (State.closeList_of_open (s := s.closingsGone.posts _ _) hentry hsent).trans ?_
    rw [State.posts_append]
    rfl

theorem State.sendArrival_eq {s : State} (hsent : s.flt.sent = false) (b : Bool) : s.sendArrival b = s.arrivalSent b := by
  rw [State.sendArrival, State.closeList_reportClosings hsent, State.arrivalSent]
  cases hparent : s.flt.tree.parent with
  | none =>
    have hroot : s.isRoot = true := by simp [State.isRoot, hparent]
    have hparent' : s.closingsGone.listClosed.flt.tree.parent = none := hparent
    simp only [State.posts, hparent', hroot, if_true, List.append_nil]
    rfl
  | some p =>
    have hroot : s.isRoot = false := by simp [State.isRoot, hparent]
    have hways : s.flt.tree.ways = [p] := by simp [Tree.ways, hparent]
    have hparent' : s.closingsGone.listClosed.flt.tree.parent = some p := hparent
    simp only [State.posts, hparent', State.sendPort_eq, hroot, Bool.false_eq_true, if_false]
    rw [hways, postAll_append _ _ (_ ++ _)]
    rfl

/-- What the results that go out leave of what the arrival rests on. -/
theorem State.sendAccepts_keeps (s : State) : s.sendAccepts.flt.sent = s.flt.sent ∧ s.sendAccepts.flt.arrivals = s.flt.arrivals ∧
    s.sendAccepts.flt.tree = s.flt.tree ∧ s.sendAccepts.holdsEntry = s.holdsEntry ∧ s.sendAccepts.listMsgs = s.listMsgs := by
  obtain ⟨r, c, p, a, heq⟩ := s.sendAccepts_eq
  rw [heq]
  exact ⟨rfl, rfl, rfl, rfl, rfl⟩

/-- A device that is done and has everything sends its arrival (R309). -/
theorem exec_barrierArrivalSend_of_ready {s : State} (hflight : s.inFlight = true) (hsent : s.flt.sent = false) (hdone : s.coresDone = true)
    (hacc : s.sendAccepts.flt.accIn = true) (hentry : s.holdsEntry = true) (hkids : s.flt.arrivals.length = s.flt.tree.children.length) :
    exec .barrierArrivalSend s = .next (s.sendAccepts.arrivalSent false) := by
  obtain ⟨hsent', harrivals, htree, hentry', -⟩ := s.sendAccepts_keeps
  show execBarrierArrivalSend s = _
  unfold execBarrierArrivalSend
  simp only [hflight, hsent, hdone, hentry', hentry, hacc, harrivals, htree, hkids, Bool.not_false, Bool.and_self, decide_true, if_true,
    State.sendArrival_eq (hsent'.trans hsent)]

/-- At its deadline a device sends its arrival as it is (R309). -/
theorem exec_barrierForwardDeadline_of_open {s : State} (hflight : s.inFlight = true) (hsent : s.flt.sent = false) :
    exec .barrierForwardDeadline s = .next (s.acceptsIfDone.arrivalSent true) := by
  have hsent' : s.acceptsIfDone.flt.sent = false := by
    unfold State.acceptsIfDone
    split
    · exact s.sendAccepts_keeps.1.trans hsent
    · exact hsent
  show execBarrierForwardDeadline s = _
  unfold execBarrierForwardDeadline
  simp only [hflight, hsent, Bool.not_false, Bool.and_self, if_true, State.sendArrival_eq hsent']

/-! ### The release -/

/-- The last 15 votes, with a release's. -/
def State.nextVotes (s : State) (r : Release) : List Bool := (r.flags.wide :: s.flt.votes).take 15

/-- `t` is `s` after it has taken a release and passed it on (R311): nothing else has changed outside the registers and the collector. -/
structure ReleaseTaken (s t : State) (r : Release) : Prop where
  state : t = { s with regs := t.regs, fcl := t.fcl, freeCtr := t.freeCtr
                       flt := { s.flt with release := some r, votes := s.nextVotes r, graced := r.grace
                                           ports := postAll s.portUp s.flt.tree.children [(none, .release r)] s.flt.ports } }
  calm : s.calm → t.calm
  vote : t.rf Reg.FLK_VOTE 0 0 5 0 = bit r.persist * 2 ^ 5 + bit r.grace * 2 ^ 4 + bit r.flags.incomplete * 2 ^ 3 + bit r.flags.halt * 2 ^ 2 +
    bit r.flags.throttle * 2 + bit r.flags.wide

theorem bit_le_one (b : Bool) : bit b ≤ 1 := by cases b <;> decide

/-- The word of `FLK_VOTE` that a release makes. -/
def voteWord (votes : List Bool) (r : Release) : Nat :=
  min 255 r.missing * 2 ^ 24 + quiet votes * 2 ^ 20 + bit r.persist * 2 ^ 5 + bit r.grace * 2 ^ 4 + bit r.flags.incomplete * 2 ^ 3 +
    bit r.flags.halt * 2 ^ 2 + bit r.flags.throttle * 2 + bit r.flags.wide

theorem bitsOf_voteWord (votes : List Bool) (r : Release) : bitsOf (voteWord votes r) 5 0 = bit r.persist * 2 ^ 5 + bit r.grace * 2 ^ 4 +
    bit r.flags.incomplete * 2 ^ 3 + bit r.flags.halt * 2 ^ 2 + bit r.flags.throttle * 2 + bit r.flags.wide := by
  have h1 := bit_le_one r.persist
  have h2 := bit_le_one r.grace
  have h3 := bit_le_one r.flags.incomplete
  have h4 := bit_le_one r.flags.halt
  have h5 := bit_le_one r.flags.throttle
  have h6 := bit_le_one r.flags.wide
  unfold bitsOf voteWord
  omega

/-- The reactions rest on the registers alone. -/
theorem State.mild_congr {s t : State} {l : List Nat} (h : t.regs = s.regs) (hm : s.mild l) : t.mild l := by
  intro n hn
  simpa only [State.rf_congr h] using hm n hn

/-- A write of `FLK_VOTE` brings no port up and takes none down. -/
theorem State.portUp_setVote (s : State) (w p : Nat) : (s.setReg Reg.FLK_VOTE 0 0 w).portUp p = s.portUp p := by
  have hne : RegFam.addr Reg.FLK_PORTp_STATE p 0 ≠ RegFam.addr Reg.FLK_VOTE 0 0 := by
    simp only [RegFam.addr, Reg.FLK_PORTp_STATE, Reg.FLK_VOTE]
    omega
  rw [State.portUp, State.rf, State.reg_setReg_of_ne _ _ _ _ _ _ _ _ hne]
  rfl

/-- The release noted with the word `w` of `FLK_VOTE`, and passed on. -/
def State.noted (s : State) (r : Release) (w : Nat) : State :=
  { s.setReg Reg.FLK_VOTE 0 0 w with
    flt := { s.flt with release := some r, votes := s.nextVotes r, graced := r.grace
                        ports := postAll s.portUp s.flt.tree.children [(none, .release r)] s.flt.ports } }

/-- A grace quantum counts and is raised (R173). -/
def State.graceCounted (s : State) (grace : Bool) : State := if grace then (s.err Reg.FLK_GRACE 0 0 1).raise 0x28 devUnit else s

theorem State.takeRelease_eq (s : State) (r : Release) : s.takeRelease r = (s.noted r (voteWord (s.nextVotes r) r)).graceCounted r.grace := by
  have hsends : ∀ w, s.noted r w = ({ s.setReg Reg.FLK_VOTE 0 0 w with
      flt := { s.flt with release := some r, votes := s.nextVotes r, graced := r.grace } } : State).sendDown (.release r) := by
    intro w
    have hup : (s.setReg Reg.FLK_VOTE 0 0 w).portUp = s.portUp := funext (s.portUp_setVote w)
    rw [State.sendDown_eq, State.noted, ← hup]
    rfl
  rw [hsends]
  rfl

section
variable {s : State} {r : Release} {w : Nat}

theorem State.calm_noted (hc : s.calm) : (s.noted r w).calm := hc

theorem State.mild_noted (hm : s.mild [0x28]) : (s.noted r w).mild [0x28] :=
  State.mild_congr (s := s.setReg Reg.FLK_VOTE 0 0 w) rfl (State.mild_setReg (by simp) hm _ _ _ _ (by decide))

theorem State.rf_vote_noted : (s.noted r w).rf Reg.FLK_VOTE 0 0 5 0 = bitsOf w 5 0 := by
  have hregs : (s.noted r w).regs = (s.setReg Reg.FLK_VOTE 0 0 w).regs := rfl
  rw [State.rf, State.reg_congr hregs, State.reg_setReg_self, bitsOf_mod_word _ _ _ (by decide)]

end

/-- `FLK_VOTE` stays as a grace quantum counts. -/
theorem State.rf_vote_graceCounted {s : State} (hm : s.mild [0x28]) (grace : Bool) (hi lo : Nat) :
    (s.graceCounted grace).rf Reg.FLK_VOTE 0 0 hi lo = s.rf Reg.FLK_VOTE 0 0 hi lo := by
  cases grace with
  | false => rfl
  | true =>
    have hcount := State.counted_err (State.mild_of_subset hm (by simp)) Reg.FLK_GRACE 0 0 1 (by decide)
    rw [State.graceCounted, if_pos rfl, State.rf_raise ⟨by decide, by decide⟩, State.rf, hcount.reg (by decide) (by decide), State.rf]

/-- The count of a grace quantum reaches the registers and the collector alone. -/
theorem State.graceCounted_spec {s : State} (hm : s.mild [0x28]) (grace : Bool) :
    s.graceCounted grace = { s with regs := (s.graceCounted grace).regs, fcl := (s.graceCounted grace).fcl,
                                    freeCtr := (s.graceCounted grace).freeCtr } ∧ (s.calm → (s.graceCounted grace).calm) := by
  cases grace with
  | false => exact ⟨rfl, id⟩
  | true =>
    obtain ⟨hstate, hcalm, -⟩ := State.err_raise (src := 0x28) (unit := devUnit) (by decide) (by decide) hm Reg.FLK_GRACE 0 0 (by decide)
    exact ⟨hstate, hcalm⟩

theorem State.releaseTaken_noted {s : State} {r : Release} (hm : s.mild [0x28]) (w : Nat) :
    let t := (s.noted r w).graceCounted r.grace
    (t = { s with regs := t.regs, fcl := t.fcl, freeCtr := t.freeCtr, flt := (s.noted r w).flt } ∧ (s.calm → t.calm)) ∧
      t.rf Reg.FLK_VOTE 0 0 5 0 = bitsOf w 5 0 := by
  have hmild : (s.noted r w).mild [0x28] := State.mild_noted hm
  obtain ⟨hstate, hcalm⟩ := State.graceCounted_spec hmild r.grace
  exact ⟨⟨hstate, fun hc => hcalm (State.calm_noted hc)⟩, (State.rf_vote_graceCounted hmild _ _ _).trans State.rf_vote_noted⟩

theorem State.releaseTaken_takeRelease {s : State} (hm : s.mild [0x28]) (r : Release) : ReleaseTaken s (s.takeRelease r) r := by
  obtain ⟨⟨hstate, hcalm⟩, hvote⟩ := State.releaseTaken_noted (r := r) hm (voteWord (s.nextVotes r) r)
  rw [State.takeRelease_eq]
  exact ⟨hstate, hcalm, hvote.trans (bitsOf_voteWord _ r)⟩

/-- A device other than the root takes the release of its parent. -/
theorem exec_releaseReceive_of_open {s : State} {r : Release} (hc : s.calm) (hflight : s.inFlight = true) (hroot : s.isRoot = false)
    (hopen : s.flt.release = none) (hm : s.mild [0x28]) : exec (.releaseReceive r) s = .next (s.takeRelease r) := by
  show execReleaseReceive r s = _
  unfold execReleaseReceive
  simp only [hflight, hroot, hopen, Option.isNone_none, Bool.not_false, Bool.and_self, if_true]
  exact finish_of_calm ((State.releaseTaken_takeRelease hm r).calm hc) rfl

/-! ### The root's decision -/

/-- What the root decides (R310). -/
def State.decision (s : State) : Release :=
  let a := s.arrival (!s.flt.sent || s.flt.late)
  { time := s.flt.start + s.curLen + (if a.flags.incomplete then 125 else 0)
    wide := a.flags.wide || s.flt.votes.any (fun v => v), stretch := if a.flags.throttle then s.rf Reg.THM_STRETCH 0 0 3 0 else 0
    halt := decide (0 < a.missing) || a.flags.halt || s.groupLost, grace := a.flags.incomplete, persist := s.persistNext
    flags := a.flags, missing := a.missing, expel := s.flt.digest.expelling, rejoin := s.flt.digest.rejoin
    causes := (s.flt.relCauses ++ a.causes).take s.causeLimit, reports := a.reports }

/-- The end causes have gone into the decision but for those beyond the limit. -/
def State.causesTaken (s : State) : State :=
  { s with flt := { s.flt with causes := []
                               relCauses := (s.flt.relCauses ++ (s.arrival (!s.flt.sent || s.flt.late)).causes).drop s.causeLimit } }

theorem State.rootDecide_eq (s : State) : s.rootDecide = s.causesTaken.takeRelease s.decision := rfl

/-- What the list of commands does to the state as the root decides: it closes where the root is the entry device and has not sent its arrival. -/
def State.rootListed (s : State) (opens : Bool) : State :=
  ({ s with seq := { s.seq with queue := if opens then s.listedQueue else s.seq.queue } } : State).posts s.flt.tree.children
    (if opens then s.listMsgs else [])

theorem State.closeList_of_root {s : State} (hroot : s.isRoot = true) : s.closeList = s.rootListed (s.isEntry && !s.flt.sent) := by
  have hparent : s.flt.tree.parent = none := by simpa [State.isRoot] using hroot
  have hways : s.flt.tree.ways = s.flt.tree.children := by simp [Tree.ways, hparent]
  cases hopen : s.isEntry && !s.flt.sent with
  | false =>
    rw [State.closeList_of_closed hopen]
    rfl
  | true =>
    obtain ⟨hentry, hsent⟩ : s.isEntry = true ∧ s.flt.sent = false := by simpa using hopen
    rw [State.closeList_of_open hentry hsent, hways]
    rfl

/-- The list changes nothing that the decision rests on. -/
theorem State.releaseTaken_rootDecide {s : State} (hm : s.mild [0x28]) (opens : Bool) :
    ReleaseTaken (s.rootListed opens).causesTaken (s.rootListed opens).rootDecide s.decision := by
  rw [State.rootDecide_eq]
  exact State.releaseTaken_takeRelease (s := (s.rootListed opens).causesTaken) (State.mild_congr rfl hm) s.decision

/-- Both the decision and the cutoff close the list, if it is open, and decide. -/
theorem exec_decides {s : State} {i : Instr} (hi : i ∈ [Instr.rootDecision, .barrierCutoff]) (hflight : s.inFlight = true) (hroot : s.isRoot = true)
    (hopen : s.flt.release = none) (hall : i = .rootDecision → s.flt.sent = true ∧ s.flt.arrivals.length = s.flt.tree.children.length)
    (hacc : s.isExit = false ∨ s.flt.accIn = true ∨ s.coresDone = false) :
    exec i s = finish (s.rootListed (s.isEntry && !s.flt.sent)).rootDecide := by
  rw [← State.closeList_of_root hroot]
  rcases List.mem_pair.mp hi with rfl | rfl
  · obtain ⟨hsent, hkids⟩ := hall rfl
    have hclosed : s.closeList = s := State.closeList_of_closed (by simp [hsent])
    rw [hclosed]
    show execRootDecision s = _
    unfold execRootDecision
    simp only [hflight, hroot, hopen, hsent, hkids, Option.isNone_none, Bool.and_self, decide_true, if_true]
  · have haccepts : s.acceptsIfDone = s := by
      unfold State.acceptsIfDone
      split
      case isTrue hdone => exact State.sendAccepts_of_not (by simpa [hdone] using hacc)
      case isFalse => rfl
    show execBarrierCutoff s = _
    unfold execBarrierCutoff
    simp only [hflight, hroot, hopen, haccepts, Option.isNone_none, Bool.and_self, if_true]

/-! ### The barrier lost -/

/-- The device halts alone (R316). -/
def State.haltedAlone (s : State) : State :=
  { s.stopIssue.setRf Reg.FLK_FLIGHT_STATE 0 0 2 0 3 with flt := { s.flt with lost := true } }

theorem exec_barrierLost_of_open {s : State} (hc : s.calm) (hflight : s.inFlight = true) (hopen : s.flt.release = none) (hm : s.mild [0x34]) :
    exec .barrierLost s = .next (s.haltedAlone.raise 0x34 devUnit) ∧ Raised s.haltedAlone (s.haltedAlone.raise 0x34 devUnit) 0x34 devUnit := by
  have hmild : s.haltedAlone.mild [0x34] := State.mild_congr rfl (State.mild_setReg (by simp) hm Reg.FLK_FLIGHT_STATE 0 0 _ (by decide))
  have hcalm : s.haltedAlone.calm := hc
  have hrun : exec .barrierLost s = finish (s.haltedAlone.raise 0x34 devUnit) := by
    show execBarrierLost s = _
    unfold execBarrierLost
    simp only [hflight, hopen, Option.isNone_none, Bool.and_self, if_true]
    rfl
  rw [hrun]
  exact finish_raise hcalm (by decide) (by decide) hmild

/-- Settles O37: each event is put in terms of `State.arrivalSent`, of `ReleaseTaken` or of a raise, and the messages that leave are those of
`postAll`. -/
theorem barrierAndRelease : Obligations.BarrierAndRelease := by
  unfold Obligations.BarrierAndRelease
  intro s r hc hflight post toward due listed list ways sent kids
  have hsent : ∀ v : State, v.listMsgs = s.listMsgs → v.flt.tree = s.flt.tree → ∀ b, v.arrivalSent b = sent v b := by
    intro v hlist htree b
    unfold State.arrivalSent
    rw [hlist, htree]
    rfl
  obtain ⟨-, -, htree, -, hlist⟩ := s.sendAccepts_keeps
  refine ⟨fun b => ?_, ⟨State.sendAccepts_of_not, fun hexit hacc => ?_, fun hopen => ⟨fun hdone hacc hentry hkids => ?_, ?_⟩⟩, ?_,
    fun hroot hopen hm => ?_, fun hopen hm => ⟨_, exec_barrierLost_of_open hc hflight hopen hm⟩⟩
  · simp only [State.arrival_flags, kids, true_and]
    rfl
  · obtain ⟨c, p, heq⟩ := State.sendAccepts_of_exit hexit hacc
    rw [heq]
    exact ⟨rfl, rfl⟩
  · rw [exec_barrierArrivalSend_of_ready hflight hopen hdone hacc (by simpa [State.holdsEntry] using hentry) hkids, hsent _ hlist htree]
  · rw [exec_barrierForwardDeadline_of_open hflight hopen]
    unfold State.acceptsIfDone
    split
    · rw [hsent _ hlist htree]
    · rw [hsent s rfl rfl]
  · intro i hi hroot hopen hm hall hacc opens
    have htaken := s.releaseTaken_rootDecide hm opens
    have hrun : exec i s = _ := (exec_decides hi hflight hroot hopen hall hacc).trans (finish_of_calm (htaken.calm hc) rfl)
    have hports : postAll s.portUp s.flt.tree.children ((if opens then s.listMsgs else []) ++ [(none, .release s.decision)]) s.flt.ports =
        toward s s.flt.tree.children ((if opens then list else []) ++ [(none, .release s.decision)]) := rfl
    have hstate := htaken.state
    generalize (s.rootListed opens).rootDecide = t at hrun hstate
    have hflt : t.flt = _ := congrArg State.flt hstate
    refine ⟨t, s.decision, hrun, ?_, congrArg Flt.release hflt, ?_, rfl, rfl, congrArg Flt.graced hflt, rfl, rfl, rfl, rfl, rfl, rfl, rfl,
      congrArg Flt.votes hflt, rfl, congrArg Flt.relCauses hflt⟩
    · rw [hstate]
      rfl
    · rw [hflt, ← hports, postAll_append]
      rfl
  · have hrun := exec_releaseReceive_of_open (r := r) hc hflight hroot hopen hm
    obtain ⟨hstate, -, hvote⟩ := State.releaseTaken_takeRelease hm r
    generalize s.takeRelease r = t at hrun hstate hvote
    have hflt : t.flt = _ := congrArg State.flt hstate
    refine ⟨t, hrun, ?_, congrArg Flt.release hflt, congrArg Flt.ports hflt, congrArg Flt.votes hflt, congrArg Flt.graced hflt,
      (congrArg Flt.tree hflt :), hvote⟩
    rw [hstate]

end Sys2Proof.Machine
end

section
/-! SUPPORT. The step on an empty queue (R301, R400), and the statement about it. -/

namespace Sys2Proof.Machine

/-! ### The time base -/

section
variable {s : State}

theorem State.tickTime_of_apart (hlow : -128 < s.flt.phase) (hhigh : s.flt.phase < 128) : s.tickTime = s.setReg Reg.FLK_TIME 0 0 (s.now + 1) := by
  rw [State.tickTime, if_neg (by omega), if_neg (by omega)]

theorem State.tickTime_of_behind (h : 128 ≤ s.flt.phase) :
    s.tickTime = ({ s with flt := { s.flt with phase := s.flt.phase - 128 } } : State).setReg Reg.FLK_TIME 0 0 (s.now + 2) := if_pos h

theorem State.tickTime_of_ahead (h : s.flt.phase ≤ -128) : s.tickTime = { s with flt := { s.flt with phase := s.flt.phase + 128 } } := by
  rw [State.tickTime, if_neg (by omega), if_pos h]

theorem State.linkState_tickTime (s : State) : s.tickTime.linkState = s.linkState := by
  have hset : ∀ (t : State) (v : Nat), (t.setReg Reg.FLK_TIME 0 0 v).linkState = t.linkState := fun t v => by
    rw [State.linkState, State.rf, State.reg_setReg_of_ne _ _ _ _ _ _ _ _ (by decide)]
    rfl
  unfold State.tickTime
  split
  · exact hset _ _
  · split
    · rfl
    · exact hset _ _

theorem State.pow_tickTime (s : State) : s.tickTime.pow = s.pow := by
  unfold State.tickTime
  split
  · rfl
  · split <;> rfl

/-! ### Negotiation -/

theorem State.negotiate_of_not (h : s.pow.booted = false ∨ s.linkState ≠ 1) : s.negotiate = s := by
  refine if_neg ?_
  rcases h with h | h <;> simp [h]

theorem State.negotiate_of_negotiating (hboot : s.pow.booted = true) (hlink : s.linkState = 1) :
    s.negotiate = (if (s.free 1).getLsbD 0 then s.loadConfig.setRf Reg.HPT_LINK_STATE 0 0 2 0 2 else s).nextFree := if_pos (by simp [hboot, hlink])

/-- As a configuration takes effect, the configuration in force and `HPT_CTL` may change, and nothing else. -/
theorem State.loadConfig_spec (s : State) :
    s.loadConfig = { s with regs := s.loadConfig.regs, hpt := { s.hpt with config := s.loadConfig.hpt.config } } ∧
    ∀ (f : RegFam) (i j : Nat), f.addr i j ≠ Reg.HPT_CTL.addr 0 0 → s.loadConfig.reg f i j = s.reg f i j := by
  unfold State.loadConfig
  split
  · exact ⟨rfl, fun f i j hne => State.reg_setRf_of_ne _ _ _ _ _ _ _ _ _ _ hne⟩
  · exact ⟨rfl, fun _ _ _ _ => rfl⟩

/-- `RETRAIN` puts in force what has been written, and is cleared (R400). -/
theorem State.loadConfig_of_retrain (h : s.rf Reg.HPT_CTL 0 0 0 0 = 1) :
    s.loadConfig.hpt.config = s.portWritten ∧ s.loadConfig.rf Reg.HPT_CTL 0 0 0 0 = 0 := by
  rw [State.loadConfig, if_pos (by simp [h])]
  exact ⟨rfl, State.rf_setRf_self _ _ _ _ _ _ (by decide)⟩

theorem State.portWritten_setTime (s : State) (v : Nat) : (s.setReg Reg.FLK_TIME 0 0 v).portWritten = s.portWritten := by
  have hapart : ∀ r ∈ portRegs, r.1.addr 0 r.2 ≠ Reg.FLK_TIME.addr 0 0 := by decide
  exact List.map_congr_left fun r hr => State.reg_setReg_of_ne _ _ _ _ _ _ _ _ (hapart r hr)

/-! ### The step -/

theorem step_of_on (hempty : s.pending = []) (hon : s.pow.on = true) : step s = .next s.tickTime.negotiate := by
  simp [step, hempty, State.tick, hon]

/-- Where no link negotiates, a tick is one of the time base. -/
theorem step_of_unlinked (hempty : s.pending = []) (hon : s.pow.on = true) (hlink : s.pow.booted = false ∨ s.linkState ≠ 1) :
    step s = .next s.tickTime := by
  rw [step_of_on hempty hon, State.negotiate_of_not (by rwa [State.pow_tickTime, State.linkState_tickTime])]

/-- A negotiating link after a tick that counts one: it stays, or goes over to training, as the next free value says. -/
theorem negotiate_setTime (hboot : s.pow.booted = true) (hlink : s.linkState = 1) (n : Nat) :
    let t := (s.setReg Reg.FLK_TIME 0 0 n).negotiate
    t = { s with regs := t.regs, hpt := { s.hpt with config := t.hpt.config }, freeCtr := s.freeCtr + 1 } ∧
      t.reg Reg.FLK_TIME 0 0 = n % 2 ^ 64 ∧
      ((s.free 1).getLsbD 0 = false → t.linkState = 1 ∧ t.hpt = s.hpt) ∧
      ((s.free 1).getLsbD 0 = true → t.linkState = 2 ∧ (s.rf Reg.HPT_CTL 0 0 0 0 = 1 → t.rf Reg.HPT_CTL 0 0 0 0 = 0) ∧
        (s.rf Reg.HPT_CTL 0 0 0 0 = 1 → t.hpt.config = s.portWritten)) := by
  have hwritten := s.portWritten_setTime n
  have htime := State.reg_setReg_self s Reg.FLK_TIME 0 0 n
  have hlink' : (s.setReg Reg.FLK_TIME 0 0 n).linkState = 1 := by
    rw [State.linkState, State.rf, State.reg_setReg_of_ne _ _ _ _ _ _ _ _ (by decide)]
    exact hlink
  have hctl : (s.setReg Reg.FLK_TIME 0 0 n).rf Reg.HPT_CTL 0 0 0 0 = s.rf Reg.HPT_CTL 0 0 0 0 := by
    rw [State.rf, State.reg_setReg_of_ne _ _ _ _ _ _ _ _ (by decide)]
    rfl
  have hfree : (s.setReg Reg.FLK_TIME 0 0 n).free 1 = s.free 1 := rfl
  intro t
  have ht : t = _ := State.negotiate_of_negotiating (s := s.setReg Reg.FLK_TIME 0 0 n) hboot hlink'
  rw [hfree] at ht
  cases hbit : (s.free 1).getLsbD 0 with
  | false =>
    rw [hbit, if_neg (by simp)] at ht
    rw [ht]
    exact ⟨rfl, htime, fun _ => ⟨hlink', rfl⟩, fun h => absurd h (by simp)⟩
  | true =>
    rw [hbit, if_pos rfl] at ht
    obtain ⟨hstate, hregs⟩ := (s.setReg Reg.FLK_TIME 0 0 n).loadConfig_spec
    rw [ht]
    refine ⟨?_, ?_, fun h => absurd h (by simp), fun _ => ⟨State.rf_setRf_self _ _ _ _ _ _ (by decide), fun hretrain => ?_, fun hretrain => ?_⟩⟩
    · rw [hstate]
      rfl
    · exact (State.reg_setRf_of_ne _ _ _ _ _ _ _ _ _ _ (by decide)).trans ((hregs _ _ _ (by decide)).trans htime)
    · exact (State.rf_setRf_of_ne _ _ _ _ _ _ _ _ _ _ _ _ (by decide)).trans (State.loadConfig_of_retrain (hctl.trans hretrain)).2
    · exact (State.loadConfig_of_retrain (hctl.trans hretrain)).1.trans hwritten

end

/-- Settles O2: a tick counts by the phase of the slew, and then a link that negotiates may go over to training. -/
theorem emptyQueueTicksTheTimeBase : Obligations.EmptyQueueTicksTheTimeBase := by
  unfold Obligations.EmptyQueueTicksTheTimeBase
  intro s hempty slewed counts
  refine ⟨fun hon hlink => ⟨fun hlow hhigh => ?_, fun hbehind => ?_, fun hahead => ?_⟩, fun hon hboot hlink hlow hhigh => ?_, fun hoff => ?_⟩
  · refine ⟨_, ?_, onlyRegs_setReg s Reg.FLK_TIME 0 0 (s.now + 1), State.reg_setReg_self _ _ _ _ _⟩
    rw [step_of_unlinked hempty hon hlink, State.tickTime_of_apart hlow hhigh]
  · refine ⟨_, ?_, onlyRegs_setReg (slewed (-128)) Reg.FLK_TIME 0 0 (s.now + 2), State.reg_setReg_self _ _ _ _ _⟩
    rw [step_of_unlinked hempty hon hlink, State.tickTime_of_behind hbehind]
    rfl
  · rw [step_of_unlinked hempty hon hlink, State.tickTime_of_ahead hahead]
  · refine ⟨_, ?_, negotiate_setTime hboot hlink (s.now + 1)⟩
    rw [step_of_on hempty hon, State.tickTime_of_apart hlow hhigh]
  · simp [step, hempty, State.tick, hoff]

end Sys2Proof.Machine
end

section
/-! SUPPORT. A packet that began in a bad frame (R295): it has bytes there, and is dropped by the good frame that ends it. The statement counts the
frame that ends it between the two, and asks otherwise. -/

namespace Sys2Proof.Machine

/-- The state after a good frame, before its packets are taken: the frame has been counted against the last bad one, its corrected bytes have been
counted, and the spare lane's copy has been compared. -/
def State.frameGood (s : State) (port : Nat) (f : FlightFrame) (corrected : Nat) : State :=
  (s.setPort port { s.port port with
    sinceBad := (s.port port).sinceBad.map (fun n => n + 1)
    spareBad := s.rf Reg.FLK_PORTp_STATE port 0 7 4 == 15 && s.copyDiffers f }).wide Reg.FLK_PORTp_FEC_CORR port 0 corrected

/-- A good frame without a control message, in which one packet ends. The packet is judged by the frames received before this one. -/
theorem exec_flightFrameReceive_of_packet {s : State} {port : Nat} {f : FlightFrame} {l : List Nat} {b : BulkPacket} (hup : s.portUp port = true)
    (hgood : frameErrors f.bytes = some l) (hctl : f.ctl = none) (hbulk : f.bulk = [b]) :
    exec (.flightFrameReceive port f) s = finish ((s.frameGood port f l.length).bulk port (s.port port) b) := by
  show execFlightFrameReceive port f s = _
  unfold execFlightFrameReceive
  simp only [hup, hgood, hctl, hbulk, Bool.not_true, Bool.false_eq_true, if_false]
  rfl

theorem State.bulk_of_spoilt {x : Port} {b : BulkPacket} (s : State) (port : Nat) (h : x.spoilt b.before = true) : s.bulk port x b = s := by
  simp [State.bulk, h]

/-- A device whose port 0 is up and has received a bad frame last. -/
def badFrameLast : State :=
  { State.reset.setReg Reg.FLK_PORTp_STATE 0 0 2 with flt := { fltReset with ports := fltReset.ports.set 0 { portReset with sinceBad := some 0 } } }

/-- A packet of one earlier frame, with a good CRC, of the lockage that runs. -/
def packetAcross : BulkPacket := ⟨0, 0, 1, true, 0, 0, ⟨0, 0, [], [], false, false⟩⟩

/-- A frame of zeros in which that packet ends. -/
def frameAcross : FlightFrame := ⟨[], [], none, [packetAcross]⟩

theorem badFrameLast_portUp : badFrameLast.portUp 0 = true := by decide +kernel

theorem frameAcross_good : frameErrors frameAcross.bytes = some [] := by decide +kernel

/-- The packet has bytes in the bad frame, and is dropped (R295). -/
theorem exec_frameAcross : exec (.flightFrameReceive 0 frameAcross) badFrameLast = .next (badFrameLast.frameGood 0 frameAcross 0) := by
  rw [exec_flightFrameReceive_of_packet badFrameLast_portUp frameAcross_good rfl rfl, State.bulk_of_spoilt _ _ (by decide +kernel)]
  exact finish_of_calm (s := badFrameLast) ⟨rfl, rfl, rfl⟩ rfl

/-- Refutes O39, at the packet that began in the frame before, a bad one. The statement judges it after the frame that ends it has been counted, and
so one frame too far from the bad one: it finds no bytes in a dropped frame, and asks that the packet goes to its core. The model drops it. -/
theorem not_flightPortEvents : ¬ Obligations.FlightPortEvents := by
  unfold Obligations.FlightPortEvents
  intro h
  obtain ⟨hport, -⟩ := h badFrameLast 0 0 0 ⟨0, 0, none, .closed 0⟩ ⟨⟨false, false, false, false⟩, 0, [], []⟩ ⟨⟨0, 0, none, .closed 0⟩, 0⟩ []
    packetAcross frameAcross [] 0 ⟨0, 0⟩ 0 0 ⟨rfl, rfl, rfl⟩ (by decide) rfl
  obtain ⟨-, -, -, -, -, -, -, -, -, -, -, hframe⟩ := hport badFrameLast_portUp
  obtain ⟨v, -, -, -, hgoes, -⟩ := hframe frameAcross_good rfl rfl
  have hnext := exec_frameAcross.symm.trans (hgoes rfl (by decide +kernel) (by decide +kernel))
  have hnet := congrArg State.net (Host.Outcome.next.inj hnext)
  exact absurd hnet (by simp [badFrameLast, State.frameGood, State.setPort, State.wide, State.reset])

end Sys2Proof.Machine
end

section
/-! SUPPORT. Registers of a family that are written one after another, and a control message that is the next in order (R296). -/

namespace Sys2Proof.Machine

/-! ### Families of registers -/

theorem OnlyRegs.mono {s t : State} {l k : List Nat} (h : OnlyRegs s t l) (hlk : ∀ a ∈ l, a ∈ k) : OnlyRegs s t k :=
  ⟨h.1, fun a ha => h.2 a fun hl => ha (hlk a hl)⟩

/-- Elements of a family at addresses of their own, written one after another: each holds its value, and nothing else has changed. -/
theorem State.foldl_setReg {f : RegFam} {i j : Nat → Nat} (v : Nat → Nat) (hinj : ∀ k m, f.addr (i k) (j k) = f.addr (i m) (j m) → k = m)
    (l : List Nat) : ∀ s : State,
    OnlyRegs s (l.foldl (fun t k => t.setReg f (i k) (j k) (v k)) s) (l.map (fun k => f.addr (i k) (j k))) ∧
      ∀ k ∈ l, (l.foldl (fun t k => t.setReg f (i k) (j k) (v k)) s).reg f (i k) (j k) = v k % 2 ^ 64 := by
  induction l with
  | nil => exact fun s => ⟨⟨rfl, fun _ _ => rfl⟩, fun k hk => absurd hk (by simp)⟩
  | cons m l ih =>
    intro s
    obtain ⟨honly, hreg⟩ := ih (s.setReg f (i m) (j m) (v m))
    refine ⟨((onlyRegs_setReg s f (i m) (j m) (v m)).mono (by simp)).trans (honly.mono fun a ha => List.mem_cons_of_mem _ ha), fun k hk => ?_⟩
    by_cases hin : k ∈ l
    · exact hreg k hin
    · obtain rfl : k = m := (List.mem_cons.mp hk).resolve_right hin
      have hapart : f.addr (i k) (j k) ∉ l.map (fun k => f.addr (i k) (j k)) := fun hmem => by
        obtain ⟨n, hn, haddr⟩ := List.mem_map.mp hmem
        exact hin (hinj n k haddr ▸ hn)
      rw [List.foldl_cons, State.reg_of_word (honly.2 _ hapart), State.reg_setReg_self]

/-- The words of a digest in a family of eight registers. -/
theorem State.setWords_spec {f : RegFam} (hstride : f.s2 ≠ 0) (s : State) (d : BitVec 256) :
    OnlyRegs s (s.setWords f d) ((List.range 8).map (fun k => f.addr 0 k)) ∧
      ∀ k, k < 8 → (s.setWords f d).reg f 0 k = d.toNat / 2 ^ (32 * k) % 2 ^ 32 := by
  have hinj : ∀ k m, f.addr 0 k = f.addr 0 m → k = m := fun k m h =>
    Nat.eq_of_mul_eq_mul_left (Nat.pos_of_ne_zero hstride) (Nat.add_left_cancel h)
  obtain ⟨honly, hreg⟩ := State.foldl_setReg (i := fun _ => 0) (j := fun k => k) (fun k => d.toNat / 2 ^ (32 * k) % 2 ^ 32) hinj (List.range 8) s
  refine ⟨honly, fun k hk => (hreg k (List.mem_range.mpr hk)).trans (Nat.mod_eq_of_lt ?_)⟩
  exact (Nat.mod_lt _ (Nat.two_pow_pos 32)).trans (by decide)

/-! ### Control messages -/

/-- One message out of one port that is up. -/
theorem postAll_one {up : Nat → Bool} {p : Nat} (hup : up p = true) (m : KeyedBody) (ports : List Port) :
    postAll up [p] [m] ports = ports.set p ((ports.getD p portReset).post m) := by
  simp [postAll, hup]

/-- The next message in order, which acknowledges nothing that waits, is acted upon. -/
theorem exec_controlMessageReceive_of_next {s : State} {p : Nat} {m : CtlMsg} (hup : s.portUp p = true) (hopen : sealedBody m.body = false)
    (hseq : m.seq = (s.port p).lastRx + 1) (hacks : ∀ y ∈ (s.port p).waiting, y.msg.seq ≠ m.ack) :
    exec (.controlMessageReceive p m) s = finish ((s.setPort p { s.port p with lastRx := m.seq }).ctlBody p m.body) := by
  have hnone : (s.port p).waiting.findIdx? (fun t => t.msg.seq == m.ack) = none :=
    List.findIdx?_eq_none_iff.mpr fun y hy => by simpa using hacks y hy
  show execControlMessageReceive p m s = _
  unfold execControlMessageReceive State.ctlArrive
  simp only [hup, if_true, hopen, Bool.false_and, Bool.false_eq_true, if_false, hnone, if_pos hseq]

end Sys2Proof.Machine
end

section
/-! SUPPORT. Digest rounds (R318 to R321, R331): their start, the digests formed, a late round, and the messages compared. -/

namespace Sys2Proof.Machine

/-! ### Messages kept -/

/-- A list of messages with one more, the last of each device kept (R320). -/
def keepLast (l : List DigestMsg) (y : DigestMsg) : List DigestMsg := l.filter (fun z => z.dev != y.dev) ++ [y]

/-- The state in which other messages have come. -/
def State.withGot (s : State) (l : List DigestMsg) : State := { s with flt := { s.flt with digest := { s.flt.digest with got := l } } }

theorem State.keepDigest_eq (s : State) (m : DigestMsg) : s.keepDigest m = s.withGot (keepLast s.flt.digest.got m) := rfl

theorem State.foldl_keepDigest (l : List DigestMsg) : ∀ s : State, l.foldl State.keepDigest s = s.withGot (l.foldl keepLast s.flt.digest.got) := by
  induction l with
  | nil => exact fun s => rfl
  | cons m l ih =>
    intro s
    rw [List.foldl_cons, ih, State.keepDigest_eq]
    rfl

/-- A digest message from the parent, in a device without children, is kept. -/
theorem exec_controlMessageReceive_digest {s : State} {p : Nat} {c : CtlMsg} {m : DigestMsg} (hc : s.calm) (hbody : c.body = .digest m)
    (hup : s.portUp p = true) (hparent : s.flt.tree.parent = some p) (hleaf : s.flt.tree.children = [])
    (hseq : c.seq = (s.port p).lastRx + 1) (hacks : ∀ y ∈ (s.port p).waiting, y.msg.seq ≠ c.ack) :
    exec (.controlMessageReceive p c) s = .next ((s.setPort p { s.port p with lastRx := c.seq }).keepDigest m) := by
  have hacts : ∀ v : State, v.flt.tree = s.flt.tree → v.ctlBody p (.digest m) = v.keepDigest m := fun v htree => by
    simp [State.ctlBody, State.sendDown, State.actOn, htree, hparent, hleaf]
  rw [exec_controlMessageReceive_of_next hup (by rw [hbody]; rfl) hseq hacks, hbody, ← finish_of_calm (t := State.keepDigest _ m) hc (by rfl)]
  exact congrArg finish (hacts (s.setPort p _) rfl)

/-! ### A round starts -/

/-- The digest round `d` over and the next begun: what a round's start leaves. -/
def State.nextRound (s : State) (d : Digest) : State :=
  { s with flt := { s.flt with digest := { s.flt.digest with
    period := s.reg Reg.FLK_DIGEST_PERIOD 0 0, start := s.reg Reg.FLK_LOCKAGE 0 0, round := d.round + 1
    void := decide (s.reg Reg.FLK_DIGEST_PERIOD 0 0 ≠ d.period), ready := false, own := none
    touched := ((s.slotBarges.map (fun b => (s.runInst (s.barge b).runFirst, b))) :: d.touched).take 3 } } }

section
variable {s : State} (hc : s.calm) (hflight : s.inFlight = true) (hdue : s.reg Reg.FLK_LOCKAGE 0 0 % s.flt.digest.period = 0)
  (hvalid : s.flt.digest.void = false)
include hc hflight hdue hvalid

theorem exec_digestRoundStart_of_none (hown : s.flt.digest.own = none) :
    exec .digestRoundStart s = .next (s.nextRound s.flt.digest) := by
  rw [← finish_of_calm (t := s.nextRound s.flt.digest) hc rfl]
  show execDigestRoundStart s = _
  unfold execDigestRoundStart
  simp only [hflight, hdue, hvalid, hown, decide_true, Bool.and_self, if_true, Bool.false_eq_true, if_false]
  rfl

/-- The digest of a round that was completed is kept, and goes out. -/
theorem exec_digestRoundStart_of_own {m : DigestMsg} (hown : s.flt.digest.own = some m) (hready : s.flt.digest.ready = true) :
    exec .digestRoundStart s = .next (((s.keepDigest m).posts s.flt.tree.ways [(none, .digest m)]).nextRound s.flt.digest) := by
  have hsent : (s.keepDigest m).broadcast (.digest m) = (s.keepDigest m).posts s.flt.tree.ways [(none, .digest m)] := State.broadcast_eq _ _
  rw [← finish_of_calm (t := State.nextRound (State.posts ..) _) hc (by rfl)]
  show execDigestRoundStart s = _
  unfold execDigestRoundStart
  simp only [hflight, hdue, hvalid, hown, hready, decide_true, Bool.and_self, if_true, Bool.false_eq_true, if_false, Bool.not_false, hsent]
  rfl

end

/-! ### The digests of a round -/

/-- The message with the device's digests of a round. -/
def State.digestMsg (s : State) (n : Nat) (p : Package) : DigestMsg :=
  { dev := s.devNo, shard := s.rf Reg.FLK_REPLICA 0 0 15 0, inst := s.rf Reg.FLK_REPLICA 0 0 23 20
    gen := s.rf Reg.WGT_GEN_SLOTn 0 n 7 0, round := s.flt.digest.round, dW := pkgDigest p, dV := s.digestV
    derived := if p.version = 1 then some (s.gens.getD n genReset).derived else none }

/-- Two digests shown. -/
def State.showDigests (s : State) (dW dV : BitVec 256) : State := (s.setWords Reg.FLK_DIGEST_Wn dW).setWords Reg.FLK_DIGEST_Vn dV

theorem State.showDigests_spec (s : State) (dW dV : BitVec 256) :
    OnlyRegs s (s.showDigests dW dV)
        ((List.range 8).map (fun k => Reg.FLK_DIGEST_Wn.addr 0 k) ++ (List.range 8).map (fun k => Reg.FLK_DIGEST_Vn.addr 0 k)) ∧
      ∀ k, k < 8 → (s.showDigests dW dV).reg Reg.FLK_DIGEST_Wn 0 k = dW.toNat / 2 ^ (32 * k) % 2 ^ 32 ∧
        (s.showDigests dW dV).reg Reg.FLK_DIGEST_Vn 0 k = dV.toNat / 2 ^ (32 * k) % 2 ^ 32 := by
  have hapart : ∀ k, k < 8 → Reg.FLK_DIGEST_Wn.addr 0 k ∉ (List.range 8).map (fun k => Reg.FLK_DIGEST_Vn.addr 0 k) := by decide
  obtain ⟨honlyW, hregW⟩ := State.setWords_spec (f := Reg.FLK_DIGEST_Wn) (by decide) s dW
  obtain ⟨honlyV, hregV⟩ := State.setWords_spec (f := Reg.FLK_DIGEST_Vn) (by decide) (s.setWords Reg.FLK_DIGEST_Wn dW) dV
  refine ⟨(honlyW.mono fun a => List.mem_append_left _).trans (honlyV.mono fun a => List.mem_append_right _), fun k hk => ⟨?_, hregV k hk⟩⟩
  exact (State.reg_of_word (honlyV.2 _ (hapart k hk))).trans (hregW k hk)

/-- Words read the same in states that store the same registers. -/
theorem State.word_congr {s t : State} (h : t.regs = s.regs) (a : Nat) : t.word a = s.word a := congrArg (fun r => r.lookup a) h

theorem exec_digestReady_of_held {s : State} (hflight : s.inFlight = true) (hopen : s.flt.digest.ready = false) {n : Nat} {p : Package}
    (hheld : s.heldPkg = some (n, p)) : ∃ t, exec (.digestReady true) s = .next t ∧ t.regs = (s.showDigests (pkgDigest p) s.digestV).regs ∧
      t = { s with regs := t.regs, flt := { s.flt with digest := { s.flt.digest with ready := true, own := some (s.digestMsg n p) } } } := by
  have hshown : (s.setWords Reg.FLK_DIGEST_Wn (pkgDigest p)).setWords Reg.FLK_DIGEST_Vn s.digestV =
      { s with regs := (s.showDigests (pkgDigest p) s.digestV).regs } := (s.showDigests_spec (pkgDigest p) s.digestV).1.1
  refine ⟨{ s with
    regs := (s.showDigests (pkgDigest p) s.digestV).regs
    flt := { s.flt with digest := { s.flt.digest with ready := true, own := some (s.digestMsg n p) } } }, ?_, rfl, rfl⟩
  show execDigestReady true s = _
  unfold execDigestReady
  simp only [hflight, hopen, hheld, hshown, Bool.not_true, Bool.or_self, Bool.false_eq_true, if_false, if_true]
  rfl

/-- A late round is counted and raised. -/
theorem exec_digestReady_of_late {s : State} (hc : s.calm) (hflight : s.inFlight = true) (hopen : s.flt.digest.ready = false)
    (hroom : s.room Reg.FLK_DIGEST_LATE 0 0 1) (hm : s.mild [0x36]) : ∃ t, exec (.digestReady false) s = .next t ∧
      Raised (s.err Reg.FLK_DIGEST_LATE 0 0 1) t 0x36 devUnit := by
  have hmild : (s.err Reg.FLK_DIGEST_LATE 0 0 1).mild [0x36] := by
    rw [State.err_of_room hroom, if_neg (by decide)]
    exact State.mild_setReg (by simp) hm _ _ _ _ (by decide)
  have hcalm : (s.err Reg.FLK_DIGEST_LATE 0 0 1).calm := by
    rw [(State.err_in_room hroom).1]
    exact hc
  obtain ⟨hfinish, hraised⟩ := finish_raise (src := 0x36) (unit := devUnit) hcalm (by decide) (by decide) hmild
  refine ⟨_, ?_, hraised⟩
  rw [← hfinish]
  show execDigestReady false s = _
  unfold execDigestReady
  simp only [hflight, hopen, Bool.not_true, Bool.or_self, Bool.false_eq_true, if_false]

/-! ### The messages compared -/

/-- What a device has heard of the round just over, when `msgs` are the last to come. -/
def State.heard (s : State) (msgs : List DigestMsg) : List DigestMsg :=
  ((msgs.filter (fun y => y.dev != s.devNo)).foldl keepLast s.flt.digest.got).filter (fun y => y.round + 1 == s.flt.digest.round)

/-- The differences of a device's own message, where it is among those heard, from its group's. -/
def State.ownDiffs (s : State) (l : List DigestMsg) : Nat :=
  match l.find? (fun y => y.dev == s.devNo) with
  | some o => peerDiffs (s.rf Reg.FLK_VER_FLIGHT 0 0 15 8) o l
  | none => 0

/-- The messages are gone, and the differences have been counted. -/
def State.compared (s : State) (n : Nat) : State := (s.withGot []).err Reg.FLK_DIGEST_PEER_DIFF 0 0 n

theorem exec_digestCompare_eq {s : State} (hflight : s.inFlight = true) (msgs : List DigestMsg) : exec (.digestCompare msgs) s =
    finish (let t := s.compared (s.ownDiffs (s.heard msgs)); if t.isRoot then t.judge (s.heard msgs) else t) := by
  have hcounted : (match (s.heard msgs).find? (fun y => y.dev == s.devNo) with
      | some o => (s.withGot []).err Reg.FLK_DIGEST_PEER_DIFF 0 0 (peerDiffs (s.rf Reg.FLK_VER_FLIGHT 0 0 15 8) o (s.heard msgs))
      | none => s.withGot []) = s.compared (s.ownDiffs (s.heard msgs)) := by
    unfold State.compared State.ownDiffs
    cases (s.heard msgs).find? (fun y => y.dev == s.devNo) with
    | some o => rfl
    | none => exact (State.err_zero _ _ _ _).symm
  rw [← hcounted]
  show execDigestCompare msgs s = _
  unfold execDigestCompare
  rw [if_neg (by simp [hflight]), State.foldl_keepDigest]
  rfl

theorem State.compared_spec {s : State} {n : Nat} (hroom : s.room Reg.FLK_DIGEST_PEER_DIFF 0 0 n) :
    s.compared n = { s.withGot [] with regs := (s.compared n).regs } ∧
      (∀ w, w ≠ Reg.FLK_DIGEST_PEER_DIFF.addr 0 0 → (s.compared n).word w = s.word w) ∧
      (s.compared n).reg Reg.FLK_DIGEST_PEER_DIFF 0 0 = s.reg Reg.FLK_DIGEST_PEER_DIFF 0 0 + n := by
  have hroom' : (s.withGot []).room Reg.FLK_DIGEST_PEER_DIFF 0 0 n := hroom
  obtain ⟨hstate, -, hword⟩ := State.err_in_room hroom'
  exact ⟨hstate, hword, State.reg_err_of_room hroom'⟩

/-- The references rest on the generation slots, the variants and the level of the flight. -/
theorem State.digestOk_congr {s t : State} (hgens : t.gens = s.gens) (hseq : t.seq = s.seq)
    (hslots : ∀ n, t.reg Reg.WGT_GEN_SLOTn 0 n = s.reg Reg.WGT_GEN_SLOTn 0 n)
    (hver : t.reg Reg.FLK_VER_FLIGHT 0 0 = s.reg Reg.FLK_VER_FLIGHT 0 0) (m : DigestMsg) : t.digestOk m = s.digestOk m := by
  have hrefW : t.refW m = s.refW m := by
    unfold State.refW
    cases m.derived with
    | some r => rfl
    | none =>
      have hgen : ∀ n, t.rf Reg.WGT_GEN_SLOTn 0 n 7 0 = s.rf Reg.WGT_GEN_SLOTn 0 n 7 0 := fun n => by rw [State.rf, hslots, State.rf]
      simp only [hgens, hgen]
  have hrefV : t.refV = s.refV := by simp only [State.refV, State.variantDigest, hseq]
  simp only [State.digestOk, hrefW, hrefV, State.rf, hver]

theorem State.digestOk_compared {s : State} {n : Nat} (hroom : s.room Reg.FLK_DIGEST_PEER_DIFF 0 0 n) (m : DigestMsg) :
    (s.compared n).digestOk m = s.digestOk m := by
  obtain ⟨hstate, hword, -⟩ := State.compared_spec hroom
  have hapart : ∀ k, Reg.WGT_GEN_SLOTn.addr 0 k ≠ Reg.FLK_DIGEST_PEER_DIFF.addr 0 0 := fun k => by
    simp only [RegFam.addr, Reg.WGT_GEN_SLOTn, Reg.FLK_DIGEST_PEER_DIFF]
    omega
  exact State.digestOk_congr (s := s) (congrArg State.gens hstate :) (congrArg State.seq hstate :)
    (fun k => State.reg_of_word (hword _ (hapart k))) (State.reg_of_word (hword _ (by decide))) m

/-- The root's judgement over the messages heard: of a device that has sent one, the digest decides. -/
structure Judged (s t : State) (l : List DigestMsg) : Prop where
  state : t = { s with flt := { s.flt with digest := { s.flt.digest with
    misses := t.flt.digest.misses, expelling := t.flt.digest.expelling, rejoin := t.flt.digest.rejoin } } }
  expelling : ∀ im dev m, s.sched.active = some im → dev ∈ im.devs.map (fun y => y.dev) → dev ∉ s.flt.digest.expelled →
    l.find? (fun y => y.dev == dev) = some m → (dev ∈ t.flt.digest.expelling ↔ s.digestOk m = false)
  rejoin : ∀ im dev m, s.sched.active = some im → dev ∈ s.flt.digest.expelled → l.find? (fun y => y.dev == dev) = some m →
    (dev ∈ t.flt.digest.rejoin ↔ s.digestOk m = true)

theorem State.judged_judge (s : State) (l : List DigestMsg) : Judged s (s.judge l) l := by
  unfold State.judge
  cases hactive : s.sched.active with
  | none => exact ⟨rfl, fun im dev m him => by simp [hactive] at him, fun im dev m him => by simp [hactive] at him⟩
  | some im =>
    refine ⟨rfl, fun im' dev m him hdev hin hheard => ?_, fun im' dev m him hin hheard => ?_⟩
    · obtain rfl : im = im' := Option.some.inj (hactive.symm.trans him)
      simp only [List.mem_filter, hdev, hheard, true_and]
      simp [hin]
    · simp only [List.mem_filter, hin, hheard, true_and]

/-- A comparison in which the counter of differences has room; the root judges what it has heard. -/
theorem exec_digestCompare_of_room {s : State} {msgs : List DigestMsg} (hc : s.calm) (hflight : s.inFlight = true)
    (hroom : s.room Reg.FLK_DIGEST_PEER_DIFF 0 0 (s.ownDiffs (s.heard msgs))) : exec (.digestCompare msgs) s =
    .next (if s.isRoot then (s.compared (s.ownDiffs (s.heard msgs))).judge (s.heard msgs) else s.compared (s.ownDiffs (s.heard msgs))) := by
  have hstate := (State.compared_spec hroom).1
  have hjudged := (s.compared (s.ownDiffs (s.heard msgs))).judged_judge (s.heard msgs)
  have hroot : (s.compared (s.ownDiffs (s.heard msgs))).isRoot = s.isRoot := (congrArg State.isRoot hstate :)
  have hfcl : (s.compared (s.ownDiffs (s.heard msgs))).fcl = s.fcl := (congrArg State.fcl hstate :)
  rw [exec_digestCompare_eq hflight]
  simp only [hroot]
  split
  case isTrue => exact finish_of_calm hc ((congrArg State.fcl hjudged.state).trans hfcl)
  case isFalse => exact finish_of_calm hc hfcl

/-- Settles O40: each event leaves the state that its lemma above names. -/
theorem digestRounds : Obligations.DigestRounds := by
  unfold Obligations.DigestRounds
  intro s n port p msgs im m c hc hflight d keep heard own diffs words
  refine ⟨fun hdue hvalid => ⟨fun hown => ?_, fun hown hready => ?_⟩, fun hbody hup hparent hleaf hseq hacks => ?_, fun hopen hheld => ?_,
    fun hopen hroom hm => ?_, fun hroom => ?_⟩
  · rw [exec_digestRoundStart_of_none hc hflight hdue hvalid hown, State.nextRound, ← hown]
  · refine ⟨_, exec_digestRoundStart_of_own hc hflight hdue hvalid hown hready, rfl, rfl, rfl, rfl, rfl, fun hparent hup hlen => ?_⟩
    have hports : postAll s.portUp s.flt.tree.ways [(none, .digest m)] s.flt.ports =
        s.flt.ports.set port ((s.port port).post (none, .digest m)) := by
      rw [Tree.ways, hparent]
      exact postAll_one hup _ _
    show ((postAll s.portUp s.flt.tree.ways [(none, .digest m)] s.flt.ports).getD port portReset).waiting = _
    rw [hports]
    simp [hlen, Port.post]
  · exact exec_controlMessageReceive_digest hc hbody hup hparent hleaf hseq hacks
  · obtain ⟨⟨-, hword⟩, hshown⟩ := s.showDigests_spec (pkgDigest p) s.digestV
    obtain ⟨t, hrun, hregs, hstate⟩ := exec_digestReady_of_held hflight hopen hheld
    refine ⟨t, s.digestMsg n p, hrun, hstate, rfl, rfl, rfl, rfl, rfl, fun k hk => ?_, fun w hw => (State.word_congr hregs w).trans (hword w hw)⟩
    rw [State.reg_congr hregs, State.reg_congr hregs]
    exact hshown k hk
  · obtain ⟨t, hrun, hraised⟩ := exec_digestReady_of_late hc hflight hopen hroom hm
    obtain ⟨hstate, -, hword⟩ := State.err_in_room hroom
    exact ⟨t, _, hrun, ⟨hstate, fun a ha => hword a (by simpa using ha)⟩, State.reg_err_of_room hroom, hraised⟩
  · obtain ⟨hstate, hword, hreg⟩ := State.compared_spec hroom
    have hok := State.digestOk_compared hroom
    have hrun : exec (.digestCompare msgs) s = .next (if s.isRoot then (s.compared diffs).judge heard else s.compared diffs) :=
      exec_digestCompare_of_room hc hflight hroom
    generalize s.compared diffs = u at hstate hword hreg hok hrun
    have hdigest : u.flt.digest = { d with got := [] } := (congrArg (fun v => v.flt.digest) hstate :)
    have hactive : u.sched = s.sched := (congrArg State.sched hstate :)
    cases hroot : s.isRoot with
    | false =>
      rw [hroot] at hrun
      refine ⟨u, hrun, ?_, hword, hreg, fun _ => hdigest, fun h => absurd h (by simp)⟩
      rw [hstate]
      rfl
    | true =>
      rw [hroot] at hrun
      obtain ⟨hjudged, hexpels, hreturns⟩ := u.judged_judge heard
      generalize u.judge heard = t at hrun hjudged hexpels hreturns
      have hregs : t.regs = u.regs := (congrArg State.regs hjudged :)
      refine ⟨t, hrun, hjudged.trans ?_, fun w hw => (State.word_congr hregs w).trans (hword w hw), (State.reg_congr hregs _ _ _).trans hreg,
        fun h => absurd h (by simp), fun _ him => ⟨fun dev hdev hin hheard => ?_, fun dev hin hheard => ?_⟩⟩
      · rw [hregs, hstate]
        rfl
      · rw [← hok]
        exact hexpels im dev m (by rw [hactive, him]) hdev (by rw [hdigest]; exact hin) hheard
      · rw [← hok]
        exact hreturns im dev m (by rw [hactive, him]) (by rw [hdigest]; exact hin) hheard

end Sys2Proof.Machine
end


section
/-! SUPPORT. Formation of a flight (R290, R323, R324, R478, R481): what its checks rest on, how it completes and how it fails, and the statement
about it. -/

namespace Sys2Proof.Machine

/-! ### What formation rests on -/

/-- `t` holds what formation rests on as `s` does: the shape, the device's place, the anchors, its secrets and the draws of the random source. -/
structure SameForm (s t : State) : Prop where
  shape : t.reg Reg.FLK_FORM 0 0 = s.reg Reg.FLK_FORM 0 0
  place : t.reg Reg.FLK_COORD 0 0 = s.reg Reg.FLK_COORD 0 0
  rng : t.reg Reg.SEC_RNG 0 0 = s.reg Reg.SEC_RNG 0 0
  anchors : t.anchorBytes = s.anchorBytes
  sec : t.sec = s.sec
  draws : t.freeCtr = s.freeCtr

section
variable {s t : State}

theorem SameForm.rfShape (h : SameForm s t) (hi lo : Nat) : t.rf Reg.FLK_FORM 0 0 hi lo = s.rf Reg.FLK_FORM 0 0 hi lo := by
  rw [State.rf, State.rf, h.shape]

theorem SameForm.dims (h : SameForm s t) : t.dims = s.dims := by
  simp only [State.dims, h.rfShape]

theorem SameForm.coords (h : SameForm s t) : t.coords = s.coords := by
  simp only [State.coords, State.rf, h.dims, h.place]

theorem SameForm.defaultTree (h : SameForm s t) : t.defaultTree = s.defaultTree := by
  simp only [State.defaultTree, h.rfShape, h.dims, h.coords]

theorem SameForm.draw (h : SameForm s t) (k : Nat) : t.draw k = s.draw k := by rw [State.draw, State.draw, h.draws]

theorem SameForm.flightKey (h : SameForm s t) (cipher : List Byte) : t.flightKey cipher = s.flightKey cipher := by
  simp only [State.flightKey, h.defaultTree, h.draw, State.identityPrivate, h.sec]

theorem SameForm.peerTrusted (h : SameForm s t) (p : PeerId) : t.peerTrusted p = s.peerTrusted p := by
  simp only [State.peerTrusted, State.endsOtost, h.sec, h.anchors]

/-- A write of a register of the flight other than its shape and the device's place. -/
theorem sameForm_setReg (s : State) (f : RegFam) (i j v : Nat) (hlow : f.addr i j < 0x70000) (hshape : f.addr i j ≠ Reg.FLK_FORM.addr 0 0)
    (hplace : f.addr i j ≠ Reg.FLK_COORD.addr 0 0) : SameForm s (s.setReg f i j v) := by
  have hsec : ∀ (g : RegFam) (k m : Nat), 0x70000 ≤ g.base → (s.setReg f i j v).reg g k m = s.reg g k m := fun g k m hg =>
    State.reg_setReg_of_ne _ _ _ _ _ _ _ _ (by simp only [RegFam.addr] at hlow ⊢; omega)
  refine ⟨State.reg_setReg_of_ne _ _ _ _ _ _ _ _ hshape.symm, State.reg_setReg_of_ne _ _ _ _ _ _ _ _ hplace.symm, hsec _ _ _ (by decide), ?_,
    rfl, rfl⟩
  simp only [State.anchorBytes, hsec Reg.SEC_ANCHOR_ROLESn _ _ (by decide), hsec Reg.SEC_ANCHOR_KEYnw _ _ (by decide)]

theorem sameForm_flt (h : SameForm s t) (x : Flt) : SameForm s { t with flt := x } := ⟨h.shape, h.place, h.rng, h.anchors, h.sec, h.draws⟩

/-- A single device is the root of its flight. -/
theorem State.defaultTree_of_single (h : s.rf Reg.FLK_FORM 0 0 1 0 = 0) : s.defaultTree.parent = none := by
  have hdims : s.dims = (1, 1, 1) := by simp only [State.dims, h]
  have hcoords : s.coords = (0, 0, 0) := by simp [State.coords, hdims]
  simp only [State.defaultTree, h, hdims, hcoords]
  rfl

end

/-! ### A flight formed -/

/-- The registers as formation completes. -/
def State.formRegs (s : State) (level rootTime : Nat) : State :=
  let u := ((s.setReg Reg.FLK_FLIGHT_STATE 0 0 (s.defaultTree.root * 2 ^ 16 + s.defaultTree.depth * 2 ^ 12 + 2)).setReg
    Reg.FLK_VER_FLIGHT 0 0 level).setReg Reg.FLK_LOCKAGE 0 0 0
  ((if s.defaultTree.parent.isSome then u.setReg Reg.FLK_TIME 0 0 rootTime else u).setReg Reg.FLK_LOCK_STATE 0 0 0).setReg Reg.FLK_VOTE 0 0 0

/-- The registers that show a flight formed. -/
structure FormShown (s t : State) (level rootTime : Nat) : Prop where
  formed : t.flightState = 2
  lockage : t.reg Reg.FLK_LOCKAGE 0 0 = 0
  lockState : t.reg Reg.FLK_LOCK_STATE 0 0 = 0
  level : t.reg Reg.FLK_VER_FLIGHT 0 0 = level % 2 ^ 64
  time : s.defaultTree.parent.isSome = true → t.reg Reg.FLK_TIME 0 0 = rootTime % 2 ^ 64

theorem bitsOf_formed (root depth : Nat) : bitsOf (root * 2 ^ 16 + depth * 2 ^ 12 + 2) 2 0 = 2 := by
  unfold bitsOf
  omega

theorem FormShown.congr {s t u : State} {level rootTime : Nat} (h : FormShown s t level rootTime) (hregs : u.regs = t.regs) :
    FormShown s u level rootTime :=
  ⟨(State.rf_congr hregs _ _ _ _ _).trans h.formed, (State.reg_congr hregs _ _ _).trans h.lockage, (State.reg_congr hregs _ _ _).trans h.lockState,
    (State.reg_congr hregs _ _ _).trans h.level, fun hroot => (State.reg_congr hregs _ _ _).trans (h.time hroot)⟩

theorem State.formRegs_state (s : State) (level rootTime : Nat) :
    s.formRegs level rootTime = { s with regs := (s.formRegs level rootTime).regs } := by
  unfold State.formRegs
  dsimp only
  split
  all_goals simp only [State.setReg]

theorem State.formShown_formRegs (s : State) (level rootTime : Nat) : FormShown s (s.formRegs level rootTime) level rootTime := by
  have hword : bitsOf ((s.defaultTree.root * 2 ^ 16 + s.defaultTree.depth * 2 ^ 12 + 2) % 2 ^ 64) 2 0 = 2 := by
    rw [bitsOf_mod_word _ _ _ (by decide), bitsOf_formed]
  unfold State.formRegs
  dsimp only
  split
  all_goals
    rename_i hroot
    constructor
    all_goals simp (disch := decide) only [State.flightState, State.rf, State.reg_setReg_of_ne, State.reg_setReg_self, hword]
    all_goals simp [hroot]

/-- The state of a flight formed on registers `u`, before the entry device starts its broadcasts. -/
def State.formedOn (s u : State) (key : Option (BitVec 128)) : State :=
  { u with
    flt := { fltReset with ports := u.flt.ports, tree := s.defaultTree, start := u.now, key := key }
    seq := { u.seq with barges := [], queue := [], held := [], sampled := [], accepts := [], results := [], outbox := [] }
    slots := [], freeCtr := u.freeCtr + 1 }

/-- `t` is a flight formed on `s`, with its key: the sequence tables are empty, and no lockage has run. -/
structure Formed (s t : State) (key : Option (BitVec 128)) : Prop where
  state : t = { s with
    regs := t.regs, flt := t.flt, slots := [], freeCtr := s.freeCtr + 1
    seq := { s.seq with barges := [], queue := [], held := [], sampled := [], accepts := [], results := [], outbox := [] } }
  tree : t.flt.tree = s.defaultTree
  key : t.flt.key = key
  forming : t.flt.forming = none
  release : t.flt.release = none
  digest : t.flt.digest = digestReset

theorem State.formed_formedOn {s u : State} (h : u = { s with regs := u.regs }) (key : Option (BitVec 128)) : Formed s (s.formedOn u key) key :=
  ⟨by rw [h]; rfl, rfl, rfl, rfl, rfl, rfl⟩

/-- A broadcast reaches the ports alone. -/
theorem Formed.broadcast {s t : State} {key : Option (BitVec 128)} (h : Formed s t key) (b : CtlBody) : Formed s (t.broadcast b) key := by
  rw [State.broadcast_eq]
  exact ⟨(congrArg (fun v : State => ({ v with flt := (t.posts t.flt.tree.ways [t.keyed b]).flt } : State)) h.state :), h.tree, h.key, h.forming,
    h.release, h.digest⟩

theorem State.formDone_eq {s : State} {r : Reply} (hforming : s.flt.forming = some r) (level rootTime : Nat) (key : Option (BitVec 128)) :
    s.formDone level rootTime key = (let t := s.formedOn (s.formRegs level rootTime) key;
      if t.isEntry then t.broadcast (.commands []) else t).answer r stOk [] := by
  unfold State.formDone
  rw [hforming]
  rfl

/-- Formation completes (R323, R478): the flight is formed, and who asked for it is answered. -/
theorem finish_formDone {s : State} {r : Reply} (hc : s.calm) (hforming : s.flt.forming = some r) (level rootTime : Nat)
    (key : Option (BitVec 128)) :
    ∃ t, finish (s.formDone level rootTime key) = .next (t.answer r stOk []) ∧ Formed s t key ∧ FormShown s t level rootTime := by
  have hformed := State.formed_formedOn (s.formRegs_state level rootTime) key
  have hshown : FormShown s (s.formedOn (s.formRegs level rootTime) key) level rootTime := (s.formShown_formRegs level rootTime).congr rfl
  rw [State.formDone_eq hforming]
  generalize s.formedOn (s.formRegs level rootTime) key = u at hformed hshown
  have hnext : ∀ t, Formed s t key → finish (t.answer r stOk []) = .next (t.answer r stOk []) := fun t ht =>
    finish_of_calm hc ((State.answer_ok_fcl _ _ _).trans (congrArg State.fcl ht.state :))
  dsimp only
  split
  case isTrue =>
    have hsent := hformed.broadcast (.commands [])
    exact ⟨_, hnext _ hsent, hsent, hshown.congr (by rw [State.broadcast_eq]; rfl)⟩
  case isFalse => exact ⟨_, hnext _ hformed, hformed, hshown⟩

/-- A flight formed on what differs from `v` in registers and the flight alone is formed on `v`. -/
theorem Formed.of_sameForm {u v t : State} {key : Option (BitVec 128)} (h : Formed u t key)
    (hu : u = { v with regs := u.regs, flt := u.flt }) (hsame : SameForm v u) : Formed v t key := by
  refine ⟨h.state.trans ?_, h.tree.trans hsame.defaultTree, h.key, h.forming, h.release, h.digest⟩
  rw [hu]

theorem levelsOf_lt (cap : BitVec 32) : (levelsOf cap).1 < 2 ^ 64 := by
  have hhigh := bitsOf_lt cap.toNat 31 24
  have hlow := bitsOf_lt cap.toNat 15 8
  simp only [levelsOf]
  omega

/-! ### Formation without a flight -/

theorem State.calm_congr {s t : State} (h : t.fcl = s.fcl) (hc : s.calm) : t.calm := by
  rw [State.calm, h]
  exact hc

/-- The device unformed again. -/
def State.unformed (s : State) : State := ({ s with flt := { s.flt with forming := none } } : State).setRf Reg.FLK_FLIGHT_STATE 0 0 2 0 0

theorem State.flt_unformed (s : State) : s.unformed.flt = { s.flt with forming := none } := rfl

/-- The device unformed, where what has been made of `s` differs from it in registers and the flight alone. -/
theorem State.unformed_state {s u : State} (hu : u = { s with regs := u.regs, flt := u.flt }) :
    u.unformed = { s with regs := u.unformed.regs, flt := { u.unformed.flt with forming := none } } :=
  congrArg (fun v => ({ v with regs := u.unformed.regs, flt := { u.unformed.flt with forming := none } } : State)) hu

theorem State.flightState_unformed (s : State) : s.unformed.flightState = 0 := State.rf_setRf_self _ _ _ _ _ _ (by decide)

theorem finish_formFail {s : State} {r : Reply} (hc : s.calm) (hforming : s.flt.forming = some r) (hroom : s.room Reg.HPT_CMD_REJECT 0 0 1)
    (status : Nat) : finish (s.formFail status) = .next (s.unformed.answer r status []) := by
  have hanswer : s.formFail status = s.unformed.answer r status [] := by
    unfold State.formFail
    rw [hforming]
    rfl
  have hroom' : s.unformed.room Reg.HPT_CMD_REJECT 0 0 1 := by
    rw [State.room, State.unformed, State.rf_setRf_of_ne _ _ _ _ _ _ _ _ _ _ _ _ (by decide)]
    exact hroom
  rw [hanswer]
  exact finish_of_calm hc (State.answer_fcl_of_room _ _ _ _ hroom')

/-! ### `FORM` -/

/-- Formation begun. -/
def State.formBegun (s : State) (r : Reply) : State :=
  ({ s with flt := { s.flt with
    forming := some r, cap := BitVec.ofNat 32 (s.reg Reg.FLK_VER_CAP 0 0), chainBad := false, ports := List.replicate 6 portReset } } : State).setRf
    Reg.FLK_FLIGHT_STATE 0 0 2 0 1

theorem sameForm_formBegun (s : State) (r : Reply) : SameForm s (s.formBegun r) :=
  sameForm_flt (sameForm_setReg s Reg.FLK_FLIGHT_STATE 0 0 (setBits (s.reg Reg.FLK_FLIGHT_STATE 0 0) 2 0 1) (by decide) (by decide) (by decide)) _

/-- The ports train. -/
def State.portsTrain (s : State) : State := (List.range 6).foldl (fun s p => s.setReg Reg.FLK_PORTp_STATE p 0 0xF1) s

theorem State.startForm_eq (s : State) (r : Reply) : s.startForm r = if s.rf Reg.FLK_FORM 0 0 1 0 = 0 then
    (s.formBegun r).formDone (levelsOf (BitVec.ofNat 32 (s.reg Reg.FLK_VER_CAP 0 0))).1 0 ((s.formBegun r).flightKey [])
    else (s.formBegun r).portsTrain := by
  rw [← (sameForm_formBegun s r).rfShape]
  rfl

theorem addr_portState (p : Nat) : Reg.FLK_PORTp_STATE.addr p 0 = 0x20000 + 0x100 * p := by
  simp [RegFam.addr, Reg.FLK_PORTp_STATE]

theorem State.portsTrain_spec (s : State) : OnlyRegs s s.portsTrain ((List.range 6).map (fun p => Reg.FLK_PORTp_STATE.addr p 0)) ∧
    ∀ p, p < 6 → s.portsTrain.reg Reg.FLK_PORTp_STATE p 0 = 0xF1 := by
  have hinj : ∀ k m, Reg.FLK_PORTp_STATE.addr k 0 = Reg.FLK_PORTp_STATE.addr m 0 → k = m := fun k m h => by
    simp only [addr_portState] at h
    omega
  obtain ⟨honly, hreg⟩ := State.foldl_setReg (i := fun p => p) (j := fun _ => 0) (fun _ => 0xF1) hinj (List.range 6) s
  exact ⟨honly, fun p hp => hreg p (List.mem_range.mpr hp)⟩

section
variable {s : State} {h : Hdr} {x : Session} (hc : s.calm) (ha : s.accepts h (opRow 0x0120) false true true x) (hidle : s.flightState = 0)
  (hrng : s.rf Reg.SEC_RNG 0 0 0 0 = 1)
include ha hidle hrng

theorem exec_form_of_accepts : exec (.form h) s = finish ((s.taken h).startForm (replyTo h 0x0120)) := by
  have hgo : ¬((s.taken h).flightState ≠ 0 ∨ (s.taken h).rf Reg.SEC_RNG 0 0 0 0 = 0) := by
    rintro (hstate | hnone)
    · exact hstate hidle
    · exact absurd (hrng.symm.trans hnone) (by decide)
  show execForm h s = _
  unfold execForm
  rw [State.command_of_accepts ha, if_neg hgo]
  rfl

include hc

/-- A single device forms its flight at once. -/
theorem exec_form_of_single (hsingle : s.rf Reg.FLK_FORM 0 0 1 0 = 0) : ∃ t, exec (.form h) s = .next (t.answer (replyTo h 0x0120) stOk []) ∧
    Formed (s.taken h) t (some ((s.draw 0).setWidth 128)) ∧
    FormShown ((s.taken h).formBegun (replyTo h 0x0120)) t (levelsOf (BitVec.ofNat 32 (s.reg Reg.FLK_VER_CAP 0 0))).1 0 := by
  have hsame := sameForm_formBegun (s.taken h) (replyTo h 0x0120)
  have hsingle' : (s.taken h).rf Reg.FLK_FORM 0 0 1 0 = 0 := hsingle
  have hkey : (s.taken h).flightKey [] = some ((s.draw 0).setWidth 128) := if_pos (by rw [State.defaultTree_of_single hsingle']; rfl)
  obtain ⟨t, hrun, hformed, hshown⟩ := finish_formDone (s := (s.taken h).formBegun (replyTo h 0x0120)) (r := replyTo h 0x0120) hc rfl
    (levelsOf (BitVec.ofNat 32 (s.reg Reg.FLK_VER_CAP 0 0))).1 0 (((s.taken h).formBegun (replyTo h 0x0120)).flightKey [])
  rw [hsame.flightKey, hkey] at hformed hrun
  refine ⟨t, ?_, hformed.of_sameForm rfl hsame, hshown⟩
  rw [exec_form_of_accepts ha hidle hrng, State.startForm_eq, if_pos hsingle', hsame.flightKey, hkey]
  exact hrun

/-- In a larger shape the ports train. -/
theorem exec_form_of_several (hseveral : s.rf Reg.FLK_FORM 0 0 1 0 ≠ 0) :
    exec (.form h) s = .next ((s.taken h).formBegun (replyTo h 0x0120)).portsTrain := by
  have hseveral' : (s.taken h).rf Reg.FLK_FORM 0 0 1 0 ≠ 0 := hseveral
  rw [exec_form_of_accepts ha hidle hrng, State.startForm_eq, if_neg hseveral']
  exact finish_of_calm hc (congrArg State.fcl (State.portsTrain_spec _).1.1 :)

end

/-! ### Ports that train -/

theorem all_range_six {f : Nat → Bool} : (List.range 6).all f = true ↔ ∀ p, p < 6 → f p = true := by
  simp only [List.all_eq_true, List.mem_range]

/-- A port that shows the word `w`, with version ranges and the identity of its peer taken in. -/
def State.trained (s : State) (port w : Nat) (who : PeerId) (cap : BitVec 32) : State :=
  { s.setReg Reg.FLK_PORTp_STATE port 0 w with
    flt := { s.flt with cap := capJoin s.flt.cap cap, chainBad := s.flt.chainBad || !s.peerTrusted who } }

theorem sameForm_portState {port : Nat} (hport : port < 6) (s : State) (v : Nat) : SameForm s (s.setReg Reg.FLK_PORTp_STATE port 0 v) := by
  have haddr := addr_portState port
  have hshape : Reg.FLK_FORM.addr 0 0 = 0x22000 := by decide
  have hplace : Reg.FLK_COORD.addr 0 0 = 0x22004 := by decide
  exact sameForm_setReg s _ _ _ _ (by omega) (by omega) (by omega)

theorem bitsOf_portUp {dev peer : Nat} (hdev : dev < 512) (hpeer : peer < 8) : let w := dev * 2 ^ 23 + peer * 2 ^ 20 + 0xF2
    bitsOf w 2 0 = 2 ∧ bitsOf w 31 23 = dev ∧ bitsOf w 22 20 = peer := by
  simp only [bitsOf]
  omega

section
variable {s : State} {port w : Nat} {who : PeerId} {cap : BitVec 32}

theorem trained_state : s.trained port w who cap =
    { s with regs := (s.trained port w who cap).regs, flt := (s.trained port w who cap).flt } := by
  simp only [State.trained, State.setReg]

theorem regs_trained : (s.trained port w who cap).regs = (s.setReg Reg.FLK_PORTp_STATE port 0 w).regs := rfl

theorem flt_trained : (s.trained port w who cap).flt =
    { s.flt with cap := capJoin s.flt.cap cap, chainBad := s.flt.chainBad || !s.peerTrusted who } := rfl

theorem sameForm_trained (hport : port < 6) : SameForm s (s.trained port w who cap) := sameForm_flt (sameForm_portState hport s w) _

theorem word_trained {a : Nat} (hne : a ≠ Reg.FLK_PORTp_STATE.addr port 0) : (s.trained port w who cap).word a = s.word a :=
  (State.word_congr regs_trained a).trans (State.word_setReg_of_ne _ _ _ _ _ _ hne)

theorem rf_portState_trained (hi lo : Nat) (hhi : hi < 64) : (s.trained port w who cap).rf Reg.FLK_PORTp_STATE port 0 hi lo = bitsOf w hi lo := by
  rw [State.rf_congr regs_trained, State.rf, State.reg_setReg_self, bitsOf_mod_word _ _ _ hhi]

theorem portUp_trained_self (hup : bitsOf w 2 0 = 2) : (s.trained port w who cap).portUp port = true := by
  rw [State.portUp, rf_portState_trained _ _ (by decide), hup]
  rfl

theorem portUp_trained_of_ne {p : Nat} (hne : p ≠ port) : (s.trained port w who cap).portUp p = s.portUp p := by
  rw [State.portUp, State.rf_congr regs_trained, State.rf,
    State.reg_setReg_of_ne _ _ _ _ _ _ _ _ (by rw [addr_portState, addr_portState]; omega), State.portUp, State.rf]

theorem room_trained (hroom : s.room Reg.HPT_CMD_REJECT 0 0 1) :
    (s.trained port w who cap).room Reg.HPT_CMD_REJECT 0 0 1 := by
  have haddr := addr_portState port
  have hreject : Reg.HPT_CMD_REJECT.addr 0 0 = 0x1012c := by decide
  rw [State.room, State.rf_congr regs_trained, State.rf, State.reg_setReg_of_ne _ _ _ _ _ _ _ _ (by omega)]
  exact hroom

section
variable {dev peer : Nat} {root : FormRoot} (hforming : s.flightState = 1) (hport : port < 6) (hdev : dev < 512) (hpeer : peer < 8)
  (htrains : s.rf Reg.FLK_PORTp_STATE port 0 2 0 = 1) (hw : dev * 2 ^ 23 + peer * 2 ^ 20 + 0xF2 = w)
include hforming hport hdev hpeer htrains hw

theorem exec_flightPortTrained_eq : exec (.flightPortTrained port dev peer who cap root) s =
    finish (if (List.range 6).all (s.trained port w who cap).portUp then (s.trained port w who cap).formEnd root
      else s.trained port w who cap) := by
  have htrusted := (sameForm_portState hport s w).peerTrusted who
  show execFlightPortTrained port dev peer who cap root s = _
  unfold execFlightPortTrained
  rw [if_pos ⟨hforming, hport, htrains⟩, Nat.mod_eq_of_lt hdev, Nat.mod_eq_of_lt hpeer, hw]
  dsimp only
  rw [htrusted]
  rfl

/-- While another port trains, the port is up and nothing else happens. -/
theorem exec_flightPortTrained_of_more (hc : s.calm) (hdown : ∃ p, p < 6 ∧ p ≠ port ∧ s.portUp p = false) :
    exec (.flightPortTrained port dev peer who cap root) s = .next (s.trained port w who cap) := by
  obtain ⟨p, hp, hne, hpdown⟩ := hdown
  have hsome : (List.range 6).all (s.trained port w who cap).portUp = false :=
    List.all_eq_false.mpr ⟨p, List.mem_range.mpr hp, by simp [portUp_trained_of_ne hne, hpdown]⟩
  rw [exec_flightPortTrained_eq hforming hport hdev hpeer htrains hw, hsome]
  exact finish_of_calm hc (congrArg State.fcl trained_state :)

/-- With the last port formation ends. -/
theorem exec_flightPortTrained_of_last (hall : ∀ p, p < 6 → p ≠ port → s.portUp p = true) :
    exec (.flightPortTrained port dev peer who cap root) s = finish ((s.trained port w who cap).formEnd root) := by
  have hup : bitsOf w 2 0 = 2 := hw ▸ (bitsOf_portUp hdev hpeer).1
  have hevery : (List.range 6).all (s.trained port w who cap).portUp = true := all_range_six.mpr fun p hp => by
    by_cases hne : p = port
    · rw [hne, portUp_trained_self hup]
    · rw [portUp_trained_of_ne hne, hall p hp hne]
  rw [exec_flightPortTrained_eq hforming hport hdev hpeer htrains hw, if_pos hevery]

end

end

/-! ### The last port -/

theorem State.peerOk_congr {s t : State} (h : t.regs = s.regs) (p : Nat) : t.peerOk p = s.peerOk p := by
  have hdims : t.dims = s.dims := by simp only [State.dims, State.rf_congr h]
  have hcoords : t.coords = s.coords := by simp only [State.coords, State.rf_congr h, hdims]
  simp only [State.peerOk, State.rf_congr h, hdims, hcoords]

section
variable {s : State} {root : FormRoot}

theorem State.formEnd_of_noRandom (hrng : s.rf Reg.SEC_RNG 0 0 0 0 = 0) : s.formEnd root = s.formFail stBusy := if_pos hrng

theorem State.formEnd_of_misplaced (hrng : s.rf Reg.SEC_RNG 0 0 0 0 ≠ 0) (hplaces : ¬∀ p, p < 6 → s.peerOk p = true) :
    s.formEnd root = s.formFail stBadField := by
  rw [← all_range_six] at hplaces
  simp [State.formEnd, hrng, hplaces]

variable (hrng : s.rf Reg.SEC_RNG 0 0 0 0 ≠ 0) (hplaces : ∀ p, p < 6 → s.peerOk p = true)
include hrng hplaces

theorem State.formEnd_of_refused (hchain : s.flt.chainBad = true) : s.formEnd root = s.formFail stAuth := by
  simp only [State.formEnd, hrng, all_range_six.mpr hplaces, hchain, Bool.not_true, Bool.false_eq_true, if_true, if_false]

variable (hchain : s.flt.chainBad = false)
include hchain

theorem State.formEnd_of_noLevel (hlevel : (levelsOf s.flt.cap).2 = false) : s.formEnd root = s.formFail stVersion := by
  simp only [State.formEnd, hrng, all_range_six.mpr hplaces, hchain, hlevel, Bool.not_true, Bool.not_false, Bool.false_eq_true, if_true, if_false]

variable (hlevel : (levelsOf s.flt.cap).2 = true)
include hlevel

theorem State.formEnd_of_noKey (hkey : s.flightKey root.key = none) : s.formEnd root = s.formFail stAuth := by
  simp only [State.formEnd, hrng, all_range_six.mpr hplaces, hchain, hlevel, hkey, Option.isNone_none, Bool.not_true, Bool.false_eq_true, if_true,
    if_false]

theorem State.formEnd_of_key {k : BitVec 128} (hkey : s.flightKey root.key = some k) :
    s.formEnd root = s.formDone (levelsOf s.flt.cap).1 root.time (some k) := by
  simp only [State.formEnd, hrng, all_range_six.mpr hplaces, hchain, hlevel, hkey, Option.isNone_some, Bool.not_true, Bool.false_eq_true, if_false]

end

section
variable {s u : State} {r : Reply} {root : FormRoot} (hc : s.calm) (hu : u = { s with regs := u.regs, flt := u.flt })
  (hreply : u.flt.forming = some r)
include hc hu hreply

/-- Formation that ends at the last port with the status of a check that fails. -/
theorem finish_formEnd_of_fail {status : Nat} (hroom : u.room Reg.HPT_CMD_REJECT 0 0 1) (hfails : u.formEnd root = u.formFail status) :
    finish (u.formEnd root) = .next (u.unformed.answer r status []) :=
  (congrArg finish hfails).trans (finish_formFail (State.calm_congr (congrArg State.fcl hu :) hc) hreply hroom status)

/-- Formation that ends at the last port with a flight. -/
theorem finish_formEnd_of_key {level : Nat} {k : BitVec 128} (hsame : SameForm s u)
    (hforms : u.formEnd root = u.formDone level root.time (some k)) :
    ∃ t, finish (u.formEnd root) = .next (t.answer r stOk []) ∧ Formed s t (some k) ∧ FormShown u t level root.time := by
  obtain ⟨t, hend, hformed, hshown⟩ := finish_formDone (State.calm_congr (congrArg State.fcl hu :) hc) hreply level root.time (some k)
  exact ⟨t, (congrArg finish hforms).trans hend, hformed.of_sameForm hu hsame, hshown⟩

end

/-- Settles O36: `FORM` and the timeout by their lemmas, and a port that has trained by the ports still down or else by the checks in their
order. -/
theorem formationOutcomes : Obligations.FormationOutcomes := by
  unfold Obligations.FormationOutcomes
  intro s h x r port dev peer who cap root hc u formed fails
  refine ⟨fun ha hidle hrng => ⟨fun hsingle => ?_, fun hseveral => ?_⟩, fun hforming hreply hroom => ?_, fun hforming hport hdev hpeer htrains => ?_⟩
  · obtain ⟨t, hrun, hformed, hshown⟩ := exec_form_of_single hc ha hidle hrng hsingle
    refine ⟨t, ⟨hrun, hformed.state, hshown.formed, hshown.lockage, hshown.lockState, hformed.tree, hformed.key, hformed.forming, hformed.release,
      hformed.digest⟩, ?_, hshown.level.trans (Nat.mod_eq_of_lt (levelsOf_lt _))⟩
    rw [State.isRoot, hformed.tree, State.defaultTree_of_single (s := u) hsingle]
    rfl
  · obtain ⟨⟨hstate, hword⟩, hports⟩ := (u.formBegun (replyTo h 0x0120)).portsTrain_spec
    have hapart : Reg.FLK_FLIGHT_STATE.addr 0 0 ∉ (List.range 6).map (fun p => Reg.FLK_PORTp_STATE.addr p 0) := by decide
    have hbegun : (u.formBegun (replyTo h 0x0120)).flightState = 1 := State.rf_setRf_self _ _ _ _ _ _ (by decide)
    refine ⟨_, exec_form_of_several hc ha hidle hrng hseveral, ?_, (State.rf_of_word (hword _ hapart) _ _).trans hbegun,
      (congrArg (fun t => t.flt.forming) hstate :), hports⟩
    rw [hstate]
    rfl
  · refine ⟨s.unformed, ?_, rfl, s.flightState_unformed, fun w hw => State.word_setReg_of_ne _ _ _ _ _ _ hw⟩
    rw [← finish_formFail hc hreply hroom]
    exact if_pos hforming
  · intro o bad
    obtain ⟨hup, hshowsDev, hshowsPeer⟩ := bitsOf_portUp hdev hpeer
    have hmore := exec_flightPortTrained_of_more (who := who) (cap := cap) (root := root) hforming hport hdev hpeer htrains rfl hc
    have hlast := exec_flightPortTrained_of_last (who := who) (cap := cap) (root := root) hforming hport hdev hpeer htrains rfl
    generalize dev * 2 ^ 23 + peer * 2 ^ 20 + 0xF2 = w at *
    have hstate : s.trained port w who cap = _ := trained_state
    have hflt : (s.trained port w who cap).flt = _ := flt_trained
    have hsame : SameForm s (s.trained port w who cap) := sameForm_trained hport
    refine ⟨fun hdown => ?_, fun hall hreply hroom => ?_⟩
    · exact ⟨_, hmore hdown, hflt ▸ hstate, portUp_trained_self hup, (rf_portState_trained _ _ (by decide)).trans hshowsDev,
        (rf_portState_trained _ _ (by decide)).trans hshowsPeer, fun a ha => word_trained ha⟩
    · intro v placed meets
      have hrng : (s.trained port w who cap).rf Reg.SEC_RNG 0 0 0 0 = s.rf Reg.SEC_RNG 0 0 0 0 := by rw [State.rf, hsame.rng, State.rf]
      have hplaces : (∀ p, p < 6 → (s.trained port w who cap).peerOk p = true) ↔ placed :=
        forall₂_congr fun p _ => by rw [State.peerOk_congr regs_trained]
      have hroom' := room_trained (port := port) (w := w) (who := who) (cap := cap) hroom
      have hrun := hlast hall
      rw [← hrng, ← hplaces]
      generalize s.trained port w who cap = q at hstate hflt hsame hroom' hrun ⊢
      have hreply' : q.flt.forming = some r := (congrArg Flt.forming hflt :).trans hreply
      have hkeep : q.flt.key = s.flt.key := (congrArg Flt.key hflt :)
      have hchain : q.flt.chainBad = bad := (congrArg Flt.chainBad hflt :)
      have hcap : q.flt.cap = capJoin s.flt.cap cap := (congrArg Flt.cap hflt :)
      have hfail : ∀ st, q.formEnd root = q.formFail st → fails s r st o := fun st hst =>
        ⟨_, hrun.trans (finish_formEnd_of_fail hc hstate hreply' hroom' hst), State.unformed_state hstate, State.flightState_unformed _,
          (congrArg Flt.key q.flt_unformed :).trans hkeep⟩
      have hmeets : (levelsOf q.flt.cap).2 = true ↔ meets := by rw [hcap]
      rw [← hchain, ← hmeets]
      refine ⟨fun hnone => hfail _ (State.formEnd_of_noRandom hnone), fun hsome => ⟨fun hmis => ?_, fun hp hbad => ?_, fun hp hgood hlow => ?_,
        fun hp hgood hlevel hkey => ?_, fun hp hgood hlevel k hkey => ?_⟩⟩
      · exact hfail _ (State.formEnd_of_misplaced hsome hmis)
      · exact hfail _ (State.formEnd_of_refused hsome hp hbad)
      · exact hfail _ (State.formEnd_of_noLevel hsome hp hgood (Bool.eq_false_iff.mpr hlow))
      · exact hfail _ (State.formEnd_of_noKey hsome hp hgood hlevel ((hsame.flightKey _).trans hkey))
      · obtain ⟨t, hend, hformed, hshown⟩ := finish_formEnd_of_key hc hstate hreply' hsame
          (State.formEnd_of_key hsome hp hgood hlevel ((hsame.flightKey _).trans hkey))
        rw [hcap] at hshown
        exact ⟨t, ⟨hrun.trans hend, hformed.state, hshown.formed, hshown.lockage, hshown.lockState, hformed.tree, hformed.key, hformed.forming,
          hformed.release, hformed.digest⟩, hshown.level.trans (Nat.mod_eq_of_lt (levelsOf_lt _)),
          fun hroot => hshown.time (by rw [hsame.defaultTree]; exact hroot)⟩

end Sys2Proof.Machine
end

section
/-! SUPPORT. The step on a queue that is not empty, and the statement about it. -/

namespace Sys2Proof.Machine

/-- The front command leaves the queue before it runs. -/
theorem step_of_cons {s : State} {c : Instr} {rest : List Instr} (h : s.pending = c :: rest) :
    step s = exec c { s with pending := rest } := by
  unfold step
  rw [h]

/-- Settles O1. -/
theorem stepRunsTheFrontCommand : Obligations.StepRunsTheFrontCommand := by
  unfold Obligations.StepRunsTheFrontCommand
  intro c rest s
  exact step_of_cons rfl

end Sys2Proof.Machine
end

section
/-! SUPPORT. Writes to the security block (R483): no register of it can be written, so every write of a range that begins in it fails at the
check of its fields. -/

namespace Sys2Proof.Machine

/-- No field of the security block can be written (R483). -/
theorem access_of_blockSEC : ∀ f ∈ Reg.blockSEC, ∀ y ∈ f.fields, y.acc = .ro ∨ y.acc = .rsc := by decide +kernel

/-- What a search of a block finds is a register of the block, at its own place. -/
theorem findReg_some {l : List RegFam} {a : Nat} {f : RegFam} {p : Nat × Nat × Nat} (h : findReg l a = some (f, p)) :
    f ∈ l ∧ f.find a = some p := by
  induction l with
  | nil => simp [findReg] at h
  | cons g t ih =>
    rw [findReg] at h
    split at h
    · next hfind => cases h; exact ⟨List.mem_cons_self, hfind⟩
    · exact ⟨List.mem_cons_of_mem _ (ih h).1, (ih h).2⟩

/-- Only a register of 64 bits has a high half (R12). -/
theorem RegFam.wide_of_find {f : RegFam} {a i j half : Nat} (h : f.find a = some (i, j, half)) (hhalf : half ≠ 0) : f.wide = true := by
  simp only [RegFam.find, Option.ite_none_left_eq_some, Option.ite_none_right_eq_some, Option.some.injEq, Prod.mk.injEq] at h
  obtain ⟨_, ⟨_, _, ho | ho⟩, _, _, rfl⟩ := h
  · exact absurd (by rw [ho]) hhalf
  · exact ho.1

/-- A range of words that begins at a register writes that register first. -/
theorem gatherWr_first {a : Nat} {f : RegFam} {i j : Nat} (w : BitVec 32) (u : List (Nat × BitVec 32)) (h : regAt a = some (f, i, j, 0)) :
    ∃ y t, gatherWr ((a, w) :: u) = y :: t ∧ y.fam = f := by
  cases u with
  | nil => exact ⟨_, _, gatherWr_narrow w h, rfl⟩
  | cons c u =>
    unfold gatherWr
    simp only [h]
    exact ⟨_, _, rfl, rfl⟩

/-- The block that holds an address of the security block. -/
theorem blockOf_security {a : Nat} (hlow : 0x70000 ≤ a) (hhigh : a < 0x80000) : blockOf a = some Reg.blockSEC := by
  unfold blockOf
  rw [if_neg (by omega), if_neg (by omega), if_neg (by omega), if_neg (by omega), if_neg (by omega), if_neg (by omega), if_neg (by omega),
    if_neg (by omega), if_pos hhigh]

/-- A write of a register of the security block fails at its fields (R13, R483). -/
theorem fieldsOk_of_blockSEC {w : RegWr} (h : w.fam ∈ Reg.blockSEC) : w.fieldsOk = false := by
  have hno : w.fam.fields.any RegField.writable = false := by
    rw [List.any_eq_false]
    intro y hy
    rcases access_of_blockSEC _ h y hy with hacc | hacc <;> simp [RegField.writable, hacc]
  simp [RegWr.fieldsOk, hno]

theorem isSome_ite_some {α : Type} {p : Prop} [Decidable p] {x : α} {y : Option α} (h : ¬p → y.isSome = true) :
    (if p then some x else y).isSome = true := by
  by_cases hp : p
  · rw [if_pos hp]; rfl
  · rw [if_neg hp]; exact h hp

/-- Below the sequence table every address lies in a block, and in no span of a site. -/
theorem State.addrOk_of_low {s : State} {a : Nat} (h : a < 0xC0000) : s.addrOk a = true := by
  have hsite : siteOfAddr a = none := if_neg (by omega)
  have hblock : (blockOf a).isSome = true := by
    unfold blockOf
    iterate 13 refine isSome_ite_some fun _ => ?_
    omega
  simp [State.addrOk, hsite, hblock]

/-- A range of words that begins in the security block and ends in a block is written nowhere: its first word lies in no register, in the high
half of one whose low half the range lacks, or in a register without a field that can be written. -/
theorem State.writeCheck_of_security {s : State} {addr : Nat} {words : List (BitVec 32)} (hne : words ≠ []) (hlow : 0x70000 ≤ addr)
    (hhigh : addr < 0x80000) (hend : addr + 4 * words.length ≤ 0xC0000) :
    s.writeCheck ((rangeAddrs addr words.length).zip words) addr = stBadField := by
  have hlen : ((rangeAddrs addr words.length).zip words).length = words.length := by simp [rangeAddrs]
  have hok : (rangeAddrs addr words.length).all s.addrOk = true := by
    rw [List.all_eq_true]
    intro a ha
    obtain ⟨k, hk, rfl⟩ := List.mem_map.mp ha
    have := List.mem_range.mp hk
    exact State.addrOk_of_low (by omega)
  have hcheck : ∀ b, (rangeAddrs addr words.length).all (halfOk addr words.length) = b →
      s.rangeCheck addr words.length = if b then stOk else stBadField := by
    intro b hb
    cases b <;> simp [State.rangeCheck, hok, hb]
  rw [State.writeCheck, hlen]
  cases hhalf : (rangeAddrs addr words.length).all (halfOk addr words.length) with
  | false => simp [hcheck _ hhalf, stBadField, stOk]
  | true =>
    obtain ⟨w, t, rfl⟩ := List.exists_cons_of_ne_nil hne
    obtain ⟨u, hzip⟩ : ∃ u, (rangeAddrs addr (w :: t).length).zip (w :: t) = (addr, w) :: u :=
      ⟨_, by rw [rangeAddrs, List.length_cons, List.range_succ_eq_map]; rfl⟩
    have hfirst : halfOk addr (w :: t).length addr = true :=
      List.all_eq_true.mp hhalf addr (List.mem_map.mpr ⟨0, List.mem_range.mpr (Nat.succ_pos _), rfl⟩)
    have hno : (((addr, w) :: u).all (fun x => (regAt x.1).isSome) && (gatherWr ((addr, w) :: u)).all RegWr.fieldsOk) = false := by
      cases hreg : regAt addr with
      | none => simp [hreg]
      | some r =>
        obtain ⟨f, i, j, half⟩ := r
        have hfound := hreg
        rw [regAt, blockOf_security hlow hhigh] at hfound
        obtain ⟨hmem, hplace⟩ := findReg_some hfound
        have hlowHalf : half = 0 := by
          by_contra hhigh
          simp [halfOk, hreg, RegFam.wide_of_find hplace hhigh, hhigh] at hfirst
        obtain ⟨y, l, hwr, hy⟩ := gatherWr_first w u (hlowHalf ▸ hreg)
        simp [hwr, fieldsOk_of_blockSEC (w := y) (hy ▸ hmem)]
    rw [hzip, hno, hcheck _ hhalf]
    rfl

/-- Such a write changes nothing. -/
theorem State.regWrite_of_security {s : State} {addr : Nat} {words : List (BitVec 32)} (hne : words ≠ []) (hlow : 0x70000 ≤ addr)
    (hhigh : addr < 0x80000) (hend : addr + 4 * words.length ≤ 0xC0000) : s.regWrite addr words = (s, stBadField, []) := by
  rw [State.regWrite, State.writeCheck_of_security hne hlow hhigh hend]
  simp [stBadField, stOk, stHoldup, State.holdupShort]

theorem length_wordsAt_le (addr : Nat) (v : BitVec 64) : (wordsAt addr v).length ≤ 2 := by
  unfold wordsAt
  split
  · split <;> simp
  · simp

/-- Settles O33. -/
theorem securityRegistersRejectWrites : Obligations.SecurityRegistersRejectWrites := by
  unfold Obligations.SecurityRegistersRejectWrites
  refine ⟨access_of_blockSEC, fun s h x addr v words hc hlow hhigh => ⟨fun hb => ?_, fun ha hal hne hend => ?_⟩⟩
  · have hlen := length_wordsAt_le addr v
    have hne : wordsAt addr v ≠ [] := List.ne_nil_of_length_pos (length_wordsAt_pos addr v)
    exact State.busWrite_of_regWrite hc hb (State.regWrite_of_security hne hlow hhigh (by omega)) rfl State.afterWrite_nil
  · exact exec_regWrite_of_accepts ha hal (State.regWrite_of_security hne hlow hhigh (by omega)) State.afterWrite_nil

end Sys2Proof.Machine
end

section
/-! SUPPORT. States that differ in the registers at some addresses alone: what such a change leaves, and which elementary updates make it. -/

namespace Sys2Proof.Machine

/-! ### What a change of registers leaves -/

section
variable {s t u : State} {l k : List Nat}

theorem OnlyRegs.refl (s : State) (l : List Nat) : OnlyRegs s s l := ⟨rfl, fun _ _ => rfl⟩

theorem OnlyRegs.append (h : OnlyRegs s t l) (g : OnlyRegs t u k) : OnlyRegs s u (l ++ k) :=
  (h.mono fun _ ha => List.mem_append_left _ ha).trans (g.mono fun _ ha => List.mem_append_right _ ha)

theorem OnlyRegs.fcl (h : OnlyRegs s t l) : t.fcl = s.fcl := fcl_of_withRegs h.1

theorem OnlyRegs.calm (h : OnlyRegs s t l) (hc : s.calm) : t.calm := State.calm_congr h.fcl hc

/-- A meaning that changes registers of a calm state alone answers with what it has made. -/
theorem OnlyRegs.finish (h : OnlyRegs s t l) (hc : s.calm) : finish t = .next t := finish_of_calm hc h.fcl

theorem OnlyRegs.reg (h : OnlyRegs s t l) {f : RegFam} {i j : Nat} (ha : f.addr i j ∉ l) : t.reg f i j = s.reg f i j :=
  State.reg_of_word (h.2 _ ha)

theorem OnlyRegs.rf (h : OnlyRegs s t l) {f : RegFam} {i j : Nat} (ha : f.addr i j ∉ l) (hi lo : Nat) : t.rf f i j hi lo = s.rf f i j hi lo :=
  State.rf_of_word (h.2 _ ha) hi lo

theorem OnlyRegs.room (h : OnlyRegs s t l) {f : RegFam} {i j n : Nat} (ha : f.addr i j ∉ l) (hr : s.room f i j n) : t.room f i j n :=
  State.room_of_reg (h.reg ha) hr

theorem OnlyRegs.core (h : OnlyRegs s t l) (n : Nat) : t.core n = s.core n := by rw [h.1]; rfl

/-- Registers outside the sources' own change no reaction's mask (R404). -/
theorem OnlyRegs.mild (h : OnlyRegs s t l) (hl : ∀ a ∈ l, a < 0x31000 ∨ 0x31800 ≤ a) {m : List Nat} (hm : ∀ n ∈ m, n < 256)
    (hs : s.mild m) : t.mild m := by
  intro n hn
  have hlt : n < 256 := by
    rcases List.mem_cons.mp hn with rfl | hn
    · decide
    · rcases List.mem_cons.mp hn with rfl | hn
      · decide
      · exact hm n hn
  have hcfg : Reg.FCL_SRCn_CFG.addr 0 n ∉ l := fun hin => by
    have := hl _ hin
    simp only [RegFam.addr, Reg.FCL_SRCn_CFG] at this
    omega
  rw [h.rf hcfg]
  exact hs n hn

end

/-! ### The elementary updates of registers -/

theorem onlyRegs_setRf (s : State) (f : RegFam) (i j hi lo v : Nat) : OnlyRegs s (s.setRf f i j hi lo v) [f.addr i j] :=
  onlyRegs_setReg s f i j _

theorem onlyRegs_wide (s : State) (f : RegFam) (i j n : Nat) : OnlyRegs s (s.wide f i j n) [f.addr i j] := onlyRegs_setReg s f i j _

/-- An error counter with room changes no register but its own (R412). -/
theorem onlyRegs_err {s : State} {f : RegFam} {i j n : Nat} (hr : s.room f i j n) : OnlyRegs s (s.err f i j n) [f.addr i j] := by
  obtain ⟨hstate, _, hword⟩ := State.err_in_room hr
  exact ⟨hstate, fun a ha => hword a (by simpa using ha)⟩

/-! ### What a raise leaves -/

section
variable {s t : State} {src unit : Nat}

theorem Raised.state (h : Raised s t src unit) : t = { s with regs := t.regs, fcl := t.fcl, freeCtr := t.freeCtr } := h.1

theorem Raised.calm (h : Raised s t src unit) (hc : s.calm) : t.calm := h.2.2.2.1 hc

theorem Raised.pending (h : Raised s t src unit) : t.rf Reg.FCL_SRCn_STAT 0 src 31 31 = 1 := h.2.2.2.2.1

theorem Raised.word (h : Raised s t src unit) {a : Nat} (ha : a < 0x30000 ∨ 0x40000 ≤ a) : t.word a = s.word a := h.2.2.2.2.2.2.2 a ha

theorem Raised.reg (h : Raised s t src unit) {f : RegFam} {i j : Nat} (ha : f.addr i j < 0x30000 ∨ 0x40000 ≤ f.addr i j) :
    t.reg f i j = s.reg f i j := State.reg_of_word (h.word ha)

theorem Raised.rf (h : Raised s t src unit) {f : RegFam} {i j : Nat} (ha : f.addr i j < 0x30000 ∨ 0x40000 ≤ f.addr i j) (hi lo : Nat) :
    t.rf f i j hi lo = s.rf f i j hi lo := State.rf_of_word (h.word ha) hi lo

end

end Sys2Proof.Machine
end

section
/-! SUPPORT. Sessions after one of them has changed, and the configuration of the port (R383, R400). -/

namespace Sys2Proof.Machine

/-! ### Sessions -/

/-- A change of one session leaves the others. -/
theorem State.session_updSession_of_ne (s : State) {n k : Nat} (f : Session → Session) (hf : ∀ x, (f x).number = x.number) (h : k ≠ n) :
    (s.updSession n f).session k = s.session k := by
  have key : ∀ l : List Session, (l.map (fun x => if x.number = n then f x else x)).find? (fun x => x.number == k) =
      l.find? (fun x => x.number == k) := by
    intro l
    induction l with
    | nil => rfl
    | cons x t ih =>
      rw [List.map_cons]
      by_cases hx : x.number = n
      · have hk : (x.number == k) = false := by rw [hx]; simpa using Ne.symm h
        rw [if_pos hx, List.find?_cons_of_neg (by simp [hf, hk]), List.find?_cons_of_neg (by simp [hk]), ih]
      · rw [if_neg hx, List.find?_cons, List.find?_cons, ih]
  exact key _

/-- A session after a change of it, where the change keeps the number. -/
theorem State.session_updSession_some {s : State} {n : Nat} {x : Session} {f : Session → Session} (hx : s.session n = some x)
    (hf : ∀ y, (f y).number = y.number) : (s.updSession n f).session n = some (f x) := by
  rw [State.session_updSession_self s n f hf, hx]
  rfl

theorem State.session_congr {s t : State} (h : t.hpt.sessions = s.hpt.sessions) (n : Nat) : t.session n = s.session n := by
  rw [State.session, State.session, h]

theorem OnlyRegs.session {s t : State} {l : List Nat} (h : OnlyRegs s t l) (n : Nat) : t.session n = s.session n :=
  State.session_congr (by rw [h.1]) n

/-- The session that is found under a number has that number. -/
theorem State.number_of_session {s : State} {n : Nat} {x : Session} (h : s.session n = some x) : x.number = n := by
  simpa using List.find?_some h

/-! ### The configuration of the port -/

/-- The addresses of the registers whose writes wait for a retraining (R400). -/
def portAddrs : List Nat := portRegs.map (fun r => r.1.addr 0 r.2)

theorem OnlyRegs.portWritten {s t : State} {l : List Nat} (h : OnlyRegs s t l) (hl : ∀ a ∈ portAddrs, a ∉ l) : t.portWritten = s.portWritten :=
  List.map_congr_left fun _ hr => h.reg (hl _ (List.mem_map.mpr ⟨_, hr, rfl⟩))

/-- The configuration in force rests on the registers of the port and on what the last training has taken from them (R400). -/
theorem OnlyRegs.portCfg {s t : State} {l : List Nat} (h : OnlyRegs s t l) (hl : ∀ a ∈ portAddrs, a ∉ l) (k : Nat) :
    t.portCfg k = s.portCfg k := by
  have hcfg : t.hpt.config = s.hpt.config := by rw [h.1]
  rw [State.portCfg, State.portCfg, hcfg, h.portWritten hl]

theorem OnlyRegs.maxPayload {s t : State} {l : List Nat} (h : OnlyRegs s t l) (hl : ∀ a ∈ portAddrs, a ∉ l) (udp : Bool) :
    t.maxPayload udp = s.maxPayload udp := by
  rw [State.maxPayload, State.maxPayload, h.portCfg hl]

end Sys2Proof.Machine
end

section
/-! SUPPORT. Answers on the answer stream of a session (R382, R387, R388, R390): a message that fits and that the window takes. -/

namespace Sys2Proof.Machine

/-- A message that fits into one piece is put on a stream whole, and leaves at once where nothing waits and the window takes it (R388). -/
theorem TxStream.push_of_fits {t : TxStream} {mk : Nat → List Byte × Bool → OutMsg} {size : Nat} {bs : List Byte} (hne : bs ≠ [])
    (hsize : bs.length ≤ size) (hwait : t.waiting = []) (hwindow : t.sent.length < 1024) (hnext : t.next < 0xFFFFFFFF) :
    t.push mk size bs = { next := t.next + 1, waiting := [], sent := t.sent ++ [mk t.next (bs, false)] } := by
  have hchunks : chunks (max 1 size) bs bs.length = [bs] := by
    obtain ⟨n, hn⟩ : ∃ n, bs.length = n + 1 := ⟨bs.length - 1, by have := List.length_pos_of_ne_nil hne; omega⟩
    have hlen : bs.length ≤ max 1 size := hsize.trans (le_max_right _ _)
    rw [hn, chunks, List.take_of_length_le hlen, List.drop_of_length_le hlen, if_neg (by simpa using hne)]
    cases n <;> rfl
  rw [TxStream.push, if_neg (by simpa using hne), hchunks, hwait]
  simp [TxStream.fill, hwindow, hnext]

/-- The state after an answer that leaves at once as the next message of the stream. -/
def State.answered (s : State) (n : Nat) (x : Session) (bs : List Byte) : State :=
  (s.updSession n (fun y => { y with
    ans := { next := x.ans.next + 1, waiting := [], sent := x.ans.sent ++ [x.message false x.ans.next (bs, false)] } })).wide
      Reg.HPT_TX_MSGS 0 0 1

theorem State.sendAnswer_of_fits {s : State} {n : Nat} {x : Session} {bs : List Byte} (hx : s.session n = some x) (hne : bs ≠ [])
    (hsize : bs.length ≤ s.maxPayload x.udp) (hwait : x.ans.waiting = []) (hwindow : x.ans.sent.length < 1024) (hnext : x.ans.next < 0xFFFFFFFF) :
    s.sendAnswer n bs = s.answered n x bs := by
  rw [State.sendAnswer, hx]
  simp [TxStream.push_of_fits hne hsize hwait hwindow hnext, TxStream.exhausted, State.answered]

theorem State.session_answered_of_ne (s : State) {n k : Nat} (x : Session) (bs : List Byte) (h : k ≠ n) :
    (s.answered n x bs).session k = s.session k :=
  State.session_updSession_of_ne s (fun y => { y with
    ans := { next := x.ans.next + 1, waiting := [], sent := x.ans.sent ++ [x.message false x.ans.next (bs, false)] } }) (fun _ => rfl) h

/-- A rejection counts (R390). -/
def State.rejected (s : State) (status : Nat) : State :=
  if status = stOk ∨ status = stComplete then s else s.err Reg.HPT_CMD_REJECT 0 0 1

/-- A tag that no longer waits for its answer. -/
def Session.replied (x : Session) (tag : BitVec 16) : Session := { x with unanswered := x.unanswered.erase tag }

theorem State.answer_eq (s : State) (r : Reply) (status : Nat) (data : List Byte) :
    s.answer r status data = ((s.rejected status).updSession r.session (fun x => x.replied r.tag)).sendAnswer r.session
      (answerBytes r.op r.tag status (if status = stOk then data else [])) := rfl

/-- A rejection with room in its counter changes that counter alone. -/
theorem State.onlyRegs_rejected {s : State} (hroom : s.room Reg.HPT_CMD_REJECT 0 0 1) (status : Nat) :
    OnlyRegs s (s.rejected status) [Reg.HPT_CMD_REJECT.addr 0 0] := by
  unfold State.rejected
  split
  · exact .refl s _
  · exact onlyRegs_err hroom

theorem State.reg_rejected {s : State} (hroom : s.room Reg.HPT_CMD_REJECT 0 0 1) (status : Nat) :
    (s.rejected status).reg Reg.HPT_CMD_REJECT 0 0 =
      s.reg Reg.HPT_CMD_REJECT 0 0 + if status = stOk ∨ status = stComplete then 0 else 1 := by
  unfold State.rejected
  split
  · rfl
  · exact State.reg_err_of_room hroom

theorem answerBytes_ne_nil (op : Nat) (tag : BitVec 16) (status : Nat) (data : List Byte) : answerBytes op tag status data ≠ [] := by
  simp [answerBytes, toLE]

/-- Settles O30: the rejection is counted, the tag no longer waits, and the bytes leave as the next message of the stream. -/
theorem answersLeaveInOrder : Obligations.AnswersLeaveInOrder := by
  unfold Obligations.AnswersLeaveInOrder
  intro s r st data x hx bs head wire hwait hwindow hnext hsize hroom t
  have honly := State.onlyRegs_rejected hroom st
  have hcount := State.reg_rejected hroom st
  have hsession : ((s.rejected st).updSession r.session (fun y => y.replied r.tag)).session r.session = some (x.replied r.tag) :=
    State.session_updSession_some ((honly.session _).trans hx) fun _ => rfl
  have ht : t = ((s.rejected st).updSession r.session (fun y => y.replied r.tag)).answered r.session (x.replied r.tag) bs :=
    (s.answer_eq r st data).trans (State.sendAnswer_of_fits hsession (answerBytes_ne_nil _ _ _ _) (hsize.trans (honly.maxPayload (by decide) _).ge)
      hwait hwindow (by show x.ans.next < _; omega))
  generalize s.rejected st = v at *
  have hword : ∀ a, a ≠ Reg.HPT_TX_MSGS.addr 0 0 → t.word a = v.word a := by
    rw [ht]
    exact fun a ha => State.word_setReg_of_ne _ _ _ _ _ _ ha
  refine ⟨?_, ?_, fun k hk => ?_, ?_, ?_, fun a ha => ?_⟩
  · rw [ht, honly.1]
    rfl
  · rw [ht]
    exact State.session_updSession_some hsession fun _ => rfl
  · rw [ht]
    calc _ = (v.updSession r.session (fun y => y.replied r.tag)).session k := State.session_answered_of_ne _ _ _ hk
      _ = v.session k := State.session_updSession_of_ne v (fun y => y.replied r.tag) (fun _ => rfl) hk
      _ = s.session k := honly.session k
  · rw [ht, State.answered, State.reg_wide_self, ← honly.reg (f := Reg.HPT_TX_MSGS) (i := 0) (j := 0) (by decide)]
    rfl
  · exact (State.reg_of_word (hword _ (by decide))).trans hcount
  · simp only [List.mem_cons, List.not_mem_nil, or_false, not_or] at ha
    exact (hword a ha.1).trans (honly.2 a (by simpa using ha.2))

end Sys2Proof.Machine
end

section
/-! SUPPORT. Error counters at their largest value (R412), and the statement about them. -/

namespace Sys2Proof.Machine

section
variable {s : State} {f : RegFam} {i j : Nat}

/-- The count that fills a counter sets `SAT`, names the counter in `FCL_SAT_LAST` and raises `FCL_COUNTER_SAT`. -/
theorem State.err_of_last (hcount : s.rf f i j 30 0 = 0x7FFFFFFE) (hsat : s.rf f i j 31 31 = 0) :
    s.err f i j 1 = ((s.setReg f i j 0xFFFFFFFF).setReg Reg.FCL_SAT_LAST 0 0 (f.addr i j)).raise 0x00 devUnit := by
  simp [State.err, State.bump, hcount, hsat]

/-- A full counter stays full and raises nothing more. -/
theorem State.err_of_full (hcount : s.rf f i j 30 0 = 0x7FFFFFFF) (hsat : s.rf f i j 31 31 = 1) : s.err f i j 1 = s.setReg f i j 0xFFFFFFFF := by
  simp [State.err, State.bump, hcount, hsat]

end

/-- The source that a full counter raises is always among those asked about. -/
theorem State.mild.sat {s : State} (hm : s.mild []) : s.mild [0x00] := fun n hn => hm n (by
  simp only [List.mem_cons, List.not_mem_nil, or_false] at hn ⊢
  omega)

/-- A raise that counts with room and captures nothing writes its source's counter and status register alone (R406). -/
theorem State.raise_word_of_quiet {s : State} {src unit : Nat} (hcapture : (s.rf Reg.FCL_SRCn_CFG 0 src 15 8).testBit 6 = false)
    (hroom : s.room Reg.FCL_SRCn_COUNT 0 src 1) {a : Nat} (hcount : a ≠ Reg.FCL_SRCn_COUNT.addr 0 src)
    (hstat : a ≠ Reg.FCL_SRCn_STAT.addr 0 src) : (s.raise src unit).word a = s.word a := by
  have hbump : (s.bump Reg.FCL_SRCn_COUNT 0 src 1) =
      (s.setRf Reg.FCL_SRCn_COUNT 0 src 30 0 (s.rf Reg.FCL_SRCn_COUNT 0 src 30 0 + 1), false) := by
    unfold State.room at hroom
    simp [State.bump, show ¬ 2147483647 ≤ s.rf Reg.FCL_SRCn_COUNT 0 src 30 0 + 1 by omega]
  unfold State.raise State.raiseN State.raiseWith State.countWith
  simp only [hbump, hcapture, Bool.false_and, Bool.false_eq_true, if_false]
  rw [State.word_congr (State.react_regs _ _ _ _ _), State.word_setReg_of_ne _ _ _ _ _ _ hstat]
  exact State.word_setReg_of_ne _ _ _ _ _ _ hcount

section
variable {s : State}

/-- A missed trigger of the timer group counts (R447). -/
theorem exec_hkaTimerTrigger_missed (hb : s.pow.booted = true) (hon : s.rf Reg.HKA_CTL 0 0 31 31 = 1) (l : List Sample) :
    exec (.hkaTimerTrigger l true) s = finish (s.err Reg.HKA_TRIG_MISSED 0 0 1) := by
  show execHkaTimerTrigger l true s = _
  simp [execHkaTimerTrigger, hb, hon]

/-- So does one of the synchronised group. -/
theorem exec_hkaPwmTrigger_missed (hb : s.pow.booted = true) (hon : s.rf Reg.HKA_PWM 0 0 31 31 = 1) (l : List Sample) :
    exec (.hkaPwmTrigger l true) s = finish (s.err Reg.HKA_TRIG_MISSED 0 0 1) := by
  show execHkaPwmTrigger l true s = _
  simp [execHkaPwmTrigger, hb, hon]

end

/-- Settles O49: a count with room, the count that fills the counter and raises, and a count of a full counter. -/
theorem errorCountersStick : Obligations.ErrorCountersStick := by
  unfold Obligations.ErrorCountersStick
  intro s l hc hb c timer pwm
  have htimer : s.rf Reg.HKA_CTL 0 0 31 31 = 1 → timer = finish (s.err Reg.HKA_TRIG_MISSED 0 0 1) := fun hon =>
    exec_hkaTimerTrigger_missed hb hon l
  refine ⟨fun hon hpwm => (exec_hkaPwmTrigger_missed hb hpwm l).trans (htimer hon).symm, fun hon => ⟨fun hroom => ?_, fun hlast hsat hm => ?_,
    fun hfull hsat => ?_⟩⟩
  · have honly := onlyRegs_err hroom
    exact ⟨_, (htimer hon).trans (honly.finish hc), honly, State.reg_err_of_room hroom⟩
  · have honly := (onlyRegs_setReg s Reg.HKA_TRIG_MISSED 0 0 0xFFFFFFFF).append
      (onlyRegs_setReg (s.setReg Reg.HKA_TRIG_MISSED 0 0 0xFFFFFFFF) Reg.FCL_SAT_LAST 0 0 (Reg.HKA_TRIG_MISSED.addr 0 0))
    have hfilled := State.err_of_last hlast hsat
    have hmissed : ((s.setReg Reg.HKA_TRIG_MISSED 0 0 0xFFFFFFFF).setReg Reg.FCL_SAT_LAST 0 0 (Reg.HKA_TRIG_MISSED.addr 0 0)).reg
        Reg.HKA_TRIG_MISSED 0 0 = 0xFFFFFFFF := by
      rw [State.reg_setReg_of_ne _ _ _ _ _ _ _ _ (by decide), State.reg_setReg_self]
      rfl
    have hnamed : ((s.setReg Reg.HKA_TRIG_MISSED 0 0 0xFFFFFFFF).setReg Reg.FCL_SAT_LAST 0 0 (Reg.HKA_TRIG_MISSED.addr 0 0)).reg
        Reg.FCL_SAT_LAST 0 0 = Reg.HKA_TRIG_MISSED.addr 0 0 := State.reg_setReg_self _ _ _ _ _
    generalize (s.setReg Reg.HKA_TRIG_MISSED 0 0 0xFFFFFFFF).setReg Reg.FCL_SAT_LAST 0 0 (Reg.HKA_TRIG_MISSED.addr 0 0) = v at *
    have hmild : v.mild [0x00] := honly.mild (by decide) (by decide) hm.sat
    obtain ⟨hrun, hraised⟩ := finish_raise (unit := devUnit) (honly.calm hc) (by decide) (by decide) hmild
    refine ⟨_, (htimer hon).trans ((congrArg finish hfilled).trans hrun), (hraised.reg (by decide)).trans hmissed, fun hquiet hroom => ?_,
      hraised.pending, ?_⟩
    · have hkept := State.raise_word_of_quiet (s := v) (src := 0) (unit := devUnit) (a := Reg.FCL_SAT_LAST.addr 0 0)
        (by rwa [honly.rf (by decide)]) (honly.room (by decide) hroom) (by decide) (by decide)
      exact (State.reg_of_word hkept).trans hnamed
    · rw [hraised.state, honly.1]
  · have honly := onlyRegs_setReg s Reg.HKA_TRIG_MISSED 0 0 0xFFFFFFFF
    exact ⟨_, (htimer hon).trans (State.err_of_full hfull hsat ▸ honly.finish hc), honly, State.reg_setReg_self _ _ _ _ _⟩

end Sys2Proof.Machine
end

section
/-! SUPPORT. Messages of a session that are taken: their check, and the states that differ in one session, in the port and in registers alone
(R382, R387, R388). -/

namespace Sys2Proof.Machine

/-! ### A change of one session -/

/-- `t` is `s` with another session `y` under the number `n`, other content of the port that leaves the staging areas, and other registers, at
the addresses of `l`. -/
def SessionOnly (s t : State) (n : Nat) (y : Session) (l : List Nat) : Prop :=
  t.session n = some y ∧ (∀ k, k ≠ n → t.session k = s.session k) ∧ (∀ a, a ∉ l → t.word a = s.word a) ∧
    ∃ regs hpt, t = { s with regs := regs, hpt := hpt } ∧ hpt.areas = s.hpt.areas

section
variable {s t : State} {n : Nat} {x y : Session} {l : List Nat}

theorem SessionOnly.start (hx : s.session n = some x) : SessionOnly s s n x [] :=
  ⟨hx, fun _ _ => rfl, fun _ _ => rfl, _, _, rfl, rfl⟩

theorem SessionOnly.session (h : SessionOnly s t n y l) : t.session n = some y := h.1

theorem SessionOnly.fcl (h : SessionOnly s t n y l) : t.fcl = s.fcl := by
  obtain ⟨_, _, _, _, _, rfl, _⟩ := h
  rfl

/-- The form in which the statement about streams says what a state becomes. -/
theorem SessionOnly.becomes (h : SessionOnly s t n y l) : t.session n = some y ∧ (∀ k, k ≠ n → t.session k = s.session k) ∧
    t = { s with regs := t.regs, hpt := { t.hpt with areas := s.hpt.areas } } := by
  obtain ⟨hy, hother, _, regs, hpt, rfl, hareas⟩ := h
  refine ⟨hy, hother, ?_⟩
  rw [← hareas]

theorem SessionOnly.reg (h : SessionOnly s t n y l) {f : RegFam} {i j : Nat} (ha : f.addr i j ∉ l) : t.reg f i j = s.reg f i j :=
  State.reg_of_word (h.2.2.1 _ ha)

theorem SessionOnly.rf (h : SessionOnly s t n y l) {f : RegFam} {i j : Nat} (ha : f.addr i j ∉ l) (hi lo : Nat) :
    t.rf f i j hi lo = s.rf f i j hi lo := State.rf_of_word (h.2.2.1 _ ha) hi lo

theorem SessionOnly.room (h : SessionOnly s t n y l) {f : RegFam} {i j k : Nat} (ha : f.addr i j ∉ l) (hr : s.room f i j k) : t.room f i j k :=
  State.room_of_reg (h.reg ha) hr

theorem SessionOnly.updSession (h : SessionOnly s t n y l) {f : Session → Session} (hf : ∀ z, (f z).number = z.number) :
    SessionOnly s (t.updSession n f) n (f y) l := by
  obtain ⟨hy, hother, hword, regs, hpt, rfl, hareas⟩ := h
  exact ⟨State.session_updSession_some hy hf, fun k hk => (State.session_updSession_of_ne _ f hf hk).trans (hother k hk), hword, _, _, rfl, hareas⟩

theorem SessionOnly.wide (h : SessionOnly s t n y l) (f : RegFam) (i j k : Nat) : SessionOnly s (t.wide f i j k) n y (f.addr i j :: l) := by
  obtain ⟨hy, hother, hword, regs, hpt, rfl, hareas⟩ := h
  refine ⟨hy, hother, fun a ha => ?_, _, _, rfl, hareas⟩
  exact (State.word_setReg_of_ne _ _ _ _ _ _ fun e => ha (e ▸ List.mem_cons_self)).trans (hword a fun hin => ha (List.mem_cons_of_mem _ hin))

theorem SessionOnly.err (h : SessionOnly s t n y l) {f : RegFam} {i j k : Nat} (hr : t.room f i j k) :
    SessionOnly s (t.err f i j k) n y (f.addr i j :: l) := by
  obtain ⟨hstate, _, hset⟩ := State.err_in_room hr
  obtain ⟨hy, hother, hword, regs, hpt, rfl, hareas⟩ := h
  have hhpt : (State.err { s with regs := regs, hpt := hpt } f i j k).hpt = hpt := by rw [hstate]
  refine ⟨(State.session_congr (congrArg _ hhpt) n).trans hy, fun m hm => (State.session_congr (congrArg _ hhpt) m).trans (hother m hm), fun a ha => ?_,
    _, _, hstate, hareas⟩
  exact (hset a fun e => ha (e ▸ List.mem_cons_self)).trans (hword a fun hin => ha (List.mem_cons_of_mem _ hin))

theorem SessionOnly.emit (h : SessionOnly s t n y l) (m : Sent) : SessionOnly s (t.emit m) n y (Reg.HPT_TX_MSGS.addr 0 0 :: l) := by
  obtain ⟨hy, hother, hword, regs, hpt, rfl, hareas⟩ := h
  exact SessionOnly.wide (t := { s with regs := regs, hpt := { hpt with sent := hpt.sent ++ [m] } }) ⟨hy, hother, hword, _, _, rfl, hareas⟩ _ _ _ _

end

/-! ### The check of a message (R381, R382) -/

/-- What a message must have in common with its session. -/
structure MsgFits (m : MsgHdr) (x : Session) (tag : List Byte) : Prop where
  isOpen : x.isOpen = true
  ver : m.ver = x.ver
  flags : m.flags >>> 1 = 0
  udp : m.udp = x.udp
  host : m.host = x.host
  tag : tag.length = 16

section
variable {s : State} {m : MsgHdr} {x : Session} {payload tag : List Byte} {typ : Nat} {control : Bool} {streams : Nat → Bool}
  {f : State → List Byte → State}

/-- A message that fits its session, with the type, a stream and the length that it may have, comes down to its tag. -/
theorem State.admitMsg_of_fits (hx : s.session m.session = some x) (hfits : MsgFits m x tag) (htyp : m.typ = typ) (hstream : streams m.stream = true)
    (hlen : m.len = payload.length + 16) :
    s.admitMsg m typ control payload tag streams = (x.opened m control payload tag).elim .badTag .ok := by
  obtain ⟨hopen, hver, hflags, hudp, hhost, htag⟩ := hfits
  rw [State.admitMsg, hx]
  cases h : x.opened m control payload tag <;>
    simp [h, hopen, hver, hflags, hudp, hhost, htag, htyp, hstream, hlen]

/-- The content of a message counts once its tag is right. -/
theorem State.onMessage_of_opened (hlink : s.linkUp = true) (hx : s.session m.session = some x) (hfits : MsgFits m x tag) (htyp : m.typ = typ)
    (hstream : streams m.stream = true) (hlen : m.len = payload.length + 16) {bs : List Byte} (hbs : x.opened m control payload tag = some bs) :
    s.onMessage m typ control payload tag streams f = finish (f s bs) := by
  rw [State.onMessage, State.admitMsg_of_fits hx hfits htyp hstream hlen, hbs]
  simp [hlink]

/-- A wrong tag is counted and raised. -/
theorem State.onMessage_of_badTag (hlink : s.linkUp = true) (hx : s.session m.session = some x) (hfits : MsgFits m x tag) (htyp : m.typ = typ)
    (hstream : streams m.stream = true) (hlen : m.len = payload.length + 16) (hbs : x.opened m control payload tag = none) :
    s.onMessage m typ control payload tag streams f = finish ((s.err Reg.HPT_AUTH_FAIL 0 0 1).raise 0x6A devUnit) := by
  rw [State.onMessage, State.admitMsg_of_fits hx hfits htyp hstream hlen, hbs]
  simp [hlink]

/-- A message of another type, length or encapsulation is discarded. -/
theorem State.onMessage_of_misfit (hlink : s.linkUp = true) (hx : s.session m.session = some x)
    (hbad : m.typ ≠ typ ∨ m.len ≠ payload.length + tag.length ∨ m.udp ≠ x.udp) :
    s.onMessage m typ control payload tag streams f = finish s.discardRx := by
  have hdiscard : s.admitMsg m typ control payload tag streams = .discard := by
    rw [State.admitMsg, hx]
    rcases hbad with h | h | h <;> simp [h]
  rw [State.onMessage, hdiscard]
  simp [hlink]

end

end Sys2Proof.Machine
end

section
/-! SUPPORT. The streams of a session with no answer waiting (R388), and the statement about them. -/

namespace Sys2Proof.Machine

section
variable {s t : State} {n : Nat} {x y : Session} {l : List Nat}

/-- An acknowledgement where no answer waits frees what it covers and sends nothing. -/
theorem State.acknowledge_of_noWaiting (hx : s.session n = some x) (hwait : x.ans.waiting = []) (ack : Nat) {sack : BitVec 64}
    (hsack : sack = 0 ∨ x.ans.sent = []) :
    s.acknowledge n false ack sack = (s.updSession n (fun y => { y with
      ans := { x.ans with sent := x.ans.sent.filter (fun z => decide (ack ≤ z.seq)) } })).wide Reg.HPT_TX_MSGS 0 0 0 := by
  have hacked : x.ans.acked (x.message false) ack sack = { x.ans with sent := x.ans.sent.filter (fun z => decide (ack ≤ z.seq)) } := by
    rcases hsack with rfl | hsent
    · simp [TxStream.acked, TxStream.fill, hwait]
    · simp [TxStream.acked, TxStream.fill, hwait, hsent]
  rw [State.acknowledge, hx]
  simp [hacked, TxStream.exhausted, hwait]

theorem SessionOnly.acknowledge (h : SessionOnly s t n y l) (hwait : y.ans.waiting = []) (ack : Nat) {sack : BitVec 64}
    (hsack : sack = 0 ∨ y.ans.sent = []) :
    SessionOnly s (t.acknowledge n false ack sack) n { y with ans := { y.ans with sent := y.ans.sent.filter (fun z => decide (ack ≤ z.seq)) } }
      (Reg.HPT_TX_MSGS.addr 0 0 :: l) := by
  rw [State.acknowledge_of_noWaiting h.session hwait ack hsack]
  exact (h.updSession (f := fun z => { z with ans := { y.ans with sent := y.ans.sent.filter (fun z => decide (ack ≤ z.seq)) } }) fun _ => rfl).wide _ _ _ _

theorem State.sent_acknowledge_of_noWaiting (hx : s.session n = some x) (hwait : x.ans.waiting = []) (ack : Nat) {sack : BitVec 64}
    (hsack : sack = 0 ∨ x.ans.sent = []) : (s.acknowledge n false ack sack).hpt.sent = s.hpt.sent := by
  rw [State.acknowledge_of_noWaiting hx hwait ack hsack]
  rfl

/-- An acknowledgement at once sends an ACK message and counts it in the session. -/
theorem State.ackCmd_of_open (hx : s.session n = some x) (hctl : x.ctl + 1 < 0xFFFFFFFF) :
    s.ackCmd n = ((s.updSession n (fun y => { y with cmd := { y.cmd with unacked := 0 } })).emit x.acking).updSession n
      (fun z => { z with ctl := z.ctl + 1 }) := by
  have hsession : (s.updSession n (fun y => { y with cmd := { y.cmd with unacked := 0 } })).session n =
      some { x with cmd := { x.cmd with unacked := 0 } } := State.session_updSession_some hx fun _ => rfl
  rw [State.ackCmd, hx]
  simp only
  rw [State.sendAck, hsession]
  simp only [hctl, if_true]
  rfl

theorem SessionOnly.ackCmd (h : SessionOnly s t n y l) (hctl : y.ctl + 1 < 0xFFFFFFFF) :
    SessionOnly s (t.ackCmd n) n { y with cmd := { y.cmd with unacked := 0 }, ctl := y.ctl + 1 } (Reg.HPT_TX_MSGS.addr 0 0 :: l) ∧
      (t.ackCmd n).hpt.sent = t.hpt.sent ++ [y.acking] := by
  rw [State.ackCmd_of_open h.session hctl]
  exact ⟨((h.updSession (f := fun z => { z with cmd := { z.cmd with unacked := 0 } }) fun _ => rfl).emit _).updSession
    (f := fun z => { z with ctl := z.ctl + 1 }) fun _ => rfl, rfl⟩

/-- A message that carries more of its command, in order. -/
theorem State.takeData_of_more (hnext : x.cmd.early = []) (hroom : x.cmd.unacked + 1 < 32) (bs : List Byte) :
    s.takeData n x x.cmd.next true bs = (s.updSession n (fun y => { y with
      cmd := ⟨x.cmd.next + 1, [], x.cmd.unacked + 1, x.cmd.buf ++ bs⟩ })).wide Reg.HPT_RX_MSGS 0 0 1 := by
  have hlt : ¬ 32 ≤ x.cmd.unacked + 1 := by omega
  simp [State.takeData, hnext, insertSeq, deliverMsgs, hlt]

/-- A message that ends its command, in order. -/
theorem State.takeData_of_last (hnext : x.cmd.early = []) (hroom : x.cmd.unacked + 1 < 32) (bs : List Byte) :
    s.takeData n x x.cmd.next false bs = ((s.updSession n (fun y => { y with
      cmd := ⟨x.cmd.next + 1, [], x.cmd.unacked + 1, []⟩ })).wide Reg.HPT_RX_MSGS 0 0 1).cmdArrives n (x.cmd.buf ++ bs) := by
  have hlt : ¬ 32 ≤ x.cmd.unacked + 1 := by omega
  simp [State.takeData, hnext, insertSeq, deliverMsgs, hlt]

theorem State.session_dropSession_self (s : State) (n : Nat) : (s.dropSession n).session n = none := by
  simp [State.session, State.dropSession]

/-- A local session that the device closes ends at once (R389). -/
theorem State.closeSession_of_local (hx : s.session n = some x) (hclosing : x.closing = false) (hlocal : isFlight n = false) (why : Nat) :
    s.closeSession n why = (s.emit (x.closeMsg why)).dropSession n := by
  have hemit : (s.emit (x.closeMsg why)).session n = some x := hx
  rw [State.closeSession, hx]
  simp only [hclosing, Bool.false_eq_true, if_false]
  rw [State.shutSession, hemit]
  simp [hlocal]

/-- The registers on which the shared checks of a command rest. -/
def checkAddrs : List Nat := [Reg.SEC_FW.addr 0 0, Reg.PWR_STATE.addr 0 0, Reg.FCL_STATE.addr 0 0, Reg.SEQ_ROLE.addr 0 0,
  Reg.FLK_COORD.addr 0 0]

/-- The shared checks of a command rest on those registers, the schedule and the device's number. -/
theorem SessionOnly.cmdCheck (h : SessionOnly s t n y l) (hl : ∀ a ∈ checkAddrs, a ∉ l) (z : Session) (bs : List Byte) :
    t.cmdCheck z bs = s.cmdCheck z bs := by
  have hrecov : t.recovery = s.recovery := by
    rw [State.recovery, State.recovery, h.rf (hl _ (by decide))]
  have hpower : t.mgmtOnly = s.mgmtOnly := by
    rw [State.mgmtOnly, State.mgmtOnly, h.rf (hl _ (by decide)), h.rf (hl _ (by decide))]
  have htakes : ∀ op, t.takesFlight op = s.takesFlight op := by
    intro op
    have hrole : t.isEntry = s.isEntry := by
      rw [State.isEntry, State.isEntry, State.devNo, State.devNo, h.rf (hl _ (by decide)), h.rf (hl _ (by decide))]
    have hsched : t.sched = s.sched := by
      obtain ⟨_, _, _, _, _, rfl, _⟩ := h
      rfl
    rw [State.takesFlight, State.takesFlight, hrole, hsched]
  simp only [State.cmdCheck, State.precheck, hrecov, hpower, htakes]


/-- A whole command that fits its form waits for its row. -/
theorem State.cmdArrives_of_fits (hx : s.session n = some x) {b : List Byte}
    (hcheck : s.cmdCheck { x with unanswered := x.unanswered ++ [(cmdHead b).2] } b = none) :
    s.cmdArrives n b = s.updSession n (fun y => { y with taken := y.taken ++ [b] }) := by
  rw [State.cmdArrives, hx]
  simp only [hcheck]

/-- A whole command that fails its check is answered at once. -/
theorem State.cmdArrives_of_fails (hx : s.session n = some x) {b : List Byte} {st : Nat}
    (hcheck : s.cmdCheck { x with unanswered := x.unanswered ++ [(cmdHead b).2] } b = some st) :
    s.cmdArrives n b = (s.updSession n (fun y => { y with unanswered := y.unanswered ++ [(cmdHead b).2] })).answer
      ⟨n, (cmdHead b).1, (cmdHead b).2⟩ st [] := by
  rw [State.cmdArrives, hx]
  simp only [hcheck]

end

section
variable {s : State} {g : MsgHdr} {x : Session} {bs tag payload : List Byte}

/-- A DATA message that fits is taken on the state after its acknowledgement, on which the session stands as it was where no answer was unacknowledged. -/
theorem exec_data_of_opened (hlink : s.linkUp = true) (hx : s.session g.session = some x) (hfits : MsgFits g x tag)
    (howns : s.ownsCmd g.session = true) (hwait : x.ans.waiting = []) (hsent : x.ans.sent = []) (htyp : g.typ = 4) (hstream : g.stream = 0)
    (hlen : g.len = payload.length + 16) (hbs : x.opened g false payload tag = some bs) :
    ∃ u, SessionOnly s u g.session x [Reg.HPT_TX_MSGS.addr 0 0] ∧ u.hpt.sent = s.hpt.sent ∧ exec (.data g tag payload) s =
      finish (if g.seq < x.cmd.next ∨ x.cmd.early.any (fun e => e.1 == g.seq) then u.ackCmd g.session
        else if x.cmd.next + 1024 ≤ g.seq then u else u.takeData g.session x g.seq (g.flags.getLsbD 0) bs) := by
  have hacked := (SessionOnly.start hx).acknowledge hwait g.ack (sack := g.sack) (.inr hsent)
  have hsame : ({ x with ans := { x.ans with sent := x.ans.sent.filter (fun z => decide (g.ack ≤ z.seq)) } } : Session) = x := by
    rw [hsent, List.filter_nil, ← hsent]
  rw [hsame] at hacked
  refine ⟨_, hacked, State.sent_acknowledge_of_noWaiting hx hwait _ (.inr hsent), ?_⟩
  show execData g tag payload s = _
  rw [execData, State.onMessage_of_opened hlink hx hfits htyp (by simp [hstream, howns]) hlen hbs]
  simp only [hacked.session]

end

/-- Settles O59, clause by clause. -/
theorem sessionStreams : Obligations.SessionStreams := by
  unfold Obligations.SessionStreams
  intro s g x bs tag payload e hc hlink hx hopen hclosing hver hflags howns hudp hhost htag becomes b asked
  have hfits : MsgFits g x tag := ⟨hopen, hver, hflags, hudp, hhost, htag⟩
  refine ⟨fun hwait hsent htyp hstream hlen hbs => ?_, fun hwait htyp hstream hlen hsack hbs => ?_, fun hpos hctl => ?_, fun he => ⟨fun hless hroom => ?_,
    fun hlast hlocal => ?_⟩⟩
  · obtain ⟨u, hu, husent, hexec⟩ := exec_data_of_opened hlink hx hfits howns hwait hsent htyp hstream hlen hbs
    have hfinish : ∀ {t : State}, t.fcl = s.fcl → finish t = .next t := fun h => finish_of_calm hc h
    refine ⟨fun hseq hearly hunacked => ⟨fun hmore => ?_, fun hmore hcheck => ?_, fun st hmore hcheck hroom => ?_⟩, fun hold hctl => ?_,
      fun hbeyond hnew => ?_⟩
    · rw [if_neg (by simp [hseq, hearly]), if_neg (by omega), hseq, hmore, State.takeData_of_more hearly hunacked] at hexec
      have ht := (hu.updSession (f := fun y => { y with cmd := ⟨x.cmd.next + 1, [], x.cmd.unacked + 1, b⟩ }) fun _ => rfl).wide
        Reg.HPT_RX_MSGS 0 0 1
      refine ⟨_, hexec.trans (hfinish ht.fcl), ?_, husent, ht.becomes⟩
      rw [State.reg_wide_self, ← hu.reg (f := Reg.HPT_RX_MSGS) (i := 0) (j := 0) (by decide)]
      rfl
    · rw [if_neg (by simp [hseq, hearly]), if_neg (by omega), hseq, hmore, State.takeData_of_last hearly hunacked] at hexec
      have hv := (hu.updSession (f := fun y => { y with cmd := ⟨x.cmd.next + 1, [], x.cmd.unacked + 1, []⟩ }) fun _ => rfl).wide
        Reg.HPT_RX_MSGS 0 0 1
      rw [State.cmdArrives_of_fits hv.session ((hv.cmdCheck (by decide) _ _).trans hcheck)] at hexec
      have ht := hv.updSession (f := fun y => { y with taken := y.taken ++ [b] }) fun _ => rfl
      refine ⟨_, hexec.trans (hfinish ht.fcl), ?_, husent, ht.becomes⟩
      show (State.wide _ _ _ _ _).reg _ _ _ = _
      rw [State.reg_wide_self, ← hu.reg (f := Reg.HPT_RX_MSGS) (i := 0) (j := 0) (by decide)]
      rfl
    · rw [if_neg (by simp [hseq, hearly]), if_neg (by omega), hseq, hmore, State.takeData_of_last hearly hunacked] at hexec
      have hv := (hu.updSession (f := fun y => { y with cmd := ⟨x.cmd.next + 1, [], x.cmd.unacked + 1, []⟩ }) fun _ => rfl).wide
        Reg.HPT_RX_MSGS 0 0 1
      rw [State.cmdArrives_of_fails hv.session ((hv.cmdCheck (by decide) _ _).trans hcheck)] at hexec
      have ht := hv.updSession (f := fun y => { y with unanswered := y.unanswered ++ [(cmdHead b).2] }) fun _ => rfl
      exact ⟨_, hexec.trans (hfinish ((State.answer_fcl_of_room _ _ _ _ (ht.room (by decide) hroom)).trans ht.fcl)), ht.becomes⟩
    · rw [if_pos (.inl hold)] at hexec
      obtain ⟨ht, hsent'⟩ := hu.ackCmd hctl
      exact ⟨_, hexec.trans (hfinish ht.fcl), ht.becomes, hsent'.trans (by rw [husent])⟩
    · have hnone : ¬ (g.seq < x.cmd.next ∨ (x.cmd.early.any fun e => e.1 == g.seq) = true) := by
        rw [not_or, List.any_eq_true]
        exact ⟨by omega, fun ⟨y, hy, heq⟩ => hnew y hy (by simpa using heq)⟩
      rw [if_neg hnone, if_pos hbeyond] at hexec
      exact ⟨_, hexec.trans (hfinish hu.fcl), hu.becomes, husent⟩
  · have hheard := (SessionOnly.start hx).wide Reg.HPT_RX_MSGS 0 0 1
    have ht := hheard.acknowledge hwait g.ack (sack := g.sack) (.inl hsack)
    refine ⟨_, ?_, ht.becomes, State.sent_acknowledge_of_noWaiting hheard.session hwait _ (.inl hsack), ?_⟩
    · show execAck g tag s = _
      rw [execAck, State.onMessage_of_opened (payload := []) hlink hx hfits htyp (by simp [hstream, State.acksStream, howns]) hlen hbs, hstream]
      exact finish_of_calm hc ht.fcl
    · rw [State.acknowledge_of_noWaiting hheard.session hwait _ (.inl hsack)]
      exact (State.reg_setReg_of_ne _ _ _ _ _ _ _ _ (by decide)).trans (State.reg_wide_self s Reg.HPT_RX_MSGS 0 0 1)
  · obtain ⟨ht, hsent⟩ := (SessionOnly.start hx).ackCmd hctl
    refine ⟨_, ?_, ht.becomes, hsent⟩
    show execAckTimer g.session 0 s = _
    rw [execAckTimer, hx]
    simp [hlink, hopen, hpos]
  · have hexec : exec (.retransmitTimeout g.session 1 g.seq) s = finish (((s.updSession g.session (fun y => { y with
        ans := y.ans.resent g.seq })).wide Reg.HPT_TX_MSGS 0 0 1).err Reg.HPT_RETX_COUNT 0 0 1) := by
      show execRetransmitTimeout g.session 1 g.seq s = _
      rw [execRetransmitTimeout, hx]
      simp [he, hlink, hopen, hless]
    have hv := ((SessionOnly.start hx).updSession (f := fun y => { y with ans := y.ans.resent g.seq }) fun _ => rfl).wide Reg.HPT_TX_MSGS 0 0 1
    have hroom' := hv.room (f := Reg.HPT_RETX_COUNT) (i := 0) (j := 0) (by decide) hroom
    have ht := hv.err hroom'
    refine ⟨_, hexec.trans (finish_of_calm hc ht.fcl), ht.becomes, ?_, ?_⟩
    · rw [State.reg_err_of_room hroom', hv.reg (by decide)]
    · rw [(onlyRegs_err hroom').reg (by decide), State.reg_wide_self]
      rfl
  · have hexec : exec (.retransmitTimeout g.session 1 g.seq) s = .next (s.closeSession g.session 2) := by
      show execRetransmitTimeout g.session 1 g.seq s = _
      rw [execRetransmitTimeout, hx]
      simp [he, hlink, hopen, hlast]
    rw [State.closeSession_of_local hx hclosing hlocal] at hexec
    exact ⟨_, hexec, State.session_dropSession_self _ _, rfl⟩

end Sys2Proof.Machine
end

section
/-! SUPPORT. The opening of a session (R383 to R385): free numbers, what the checks of a HELLO rest on, and the statement about opening and
ending. -/

namespace Sys2Proof.Machine

/-! ### Numbers in use -/

/-- The number that is left after a rising list is in no place of it, and at most as many places on as the list is long. -/
theorem skipUsed_spec {l : List Nat} (hl : l.Pairwise (· ≤ ·)) (n : Nat) :
    skipUsed l n ∉ l ∧ n ≤ skipUsed l n ∧ skipUsed l n ≤ n + l.length := by
  induction l generalizing n with
  | nil => simp [skipUsed]
  | cons u t ih =>
    obtain ⟨hfirst, hrest⟩ := List.pairwise_cons.mp hl
    rw [skipUsed]
    split
    · next hle =>
      obtain ⟨hnot, hlow, hhigh⟩ := ih hrest (n + 1)
      refine ⟨?_, by omega, by simp only [List.length_cons]; omega⟩
      simp only [List.mem_cons, not_or]
      exact ⟨by omega, hnot⟩
    · next hgt =>
      refine ⟨?_, le_rfl, by omega⟩
      simp only [List.mem_cons, not_or]
      exact ⟨by omega, fun hin => by have := hfirst n hin; omega⟩

section
variable {s t : State} {lo n k : Nat}

theorem State.mem_usedNumbers : k ∈ s.usedNumbers lo n ↔ (∃ x ∈ s.hpt.sessions, x.number = k) ∧ lo ≤ k ∧ k < lo + n := by
  simp [State.usedNumbers]

theorem State.usedNumbers_rising : (s.usedNumbers lo n).Pairwise (· ≤ ·) := by
  have h := List.pairwise_mergeSort (le := fun a b : Nat => decide (a ≤ b)) (by simp; omega) (by simp; omega)
    ((s.hpt.sessions.map (fun x => x.number)).filter (fun k => decide (lo ≤ k ∧ k < lo + n)))
  exact h.imp (by simp)

/-- A number that an opening takes while one is free: no session has it, and it is of the kind that opens. -/
theorem State.freeNumber (hfree : (s.usedNumbers lo n).length < n) (v : Nat) :
    let k := skipUsed (s.usedNumbers lo n) (lo + v % (n - (s.usedNumbers lo n).length))
    (∀ z ∈ s.hpt.sessions, z.number ≠ k) ∧ lo ≤ k ∧ k < lo + n := by
  intro k
  obtain ⟨hnot, hlow, hhigh⟩ := skipUsed_spec (s.usedNumbers_rising (lo := lo) (n := n)) (lo + v % (n - (s.usedNumbers lo n).length))
  have hmod := Nat.mod_lt v (Nat.sub_pos_of_lt hfree)
  have hrange : lo ≤ k ∧ k < lo + n := ⟨by omega, by omega⟩
  exact ⟨fun z hz hk => hnot (State.mem_usedNumbers.mpr ⟨⟨z, hz, hk⟩, hrange⟩), hrange⟩

end

/-! ### What the checks of a HELLO rest on -/

section
variable {s t : State} {l : List Nat}

/-- The roles of anchors rest on the security block and on what it keeps. -/
theorem OnlyRegs.anchorGrants (h : OnlyRegs s t l) (hl : ∀ a ∈ l, a < 0x70000) (c : Chain) (b : Nat) : t.anchorGrants c b = s.anchorGrants c b := by
  have hsec : t.sec = s.sec := by rw [h.1]
  have hstate : t.rf Reg.SEC_LC_STATE 0 0 2 0 = s.rf Reg.SEC_LC_STATE 0 0 2 0 := h.rf (fun hin => by
    have := hl _ hin
    revert this
    decide) _ _
  have hroles : ∀ n, t.reg Reg.SEC_ANCHOR_ROLESn n 0 = s.reg Reg.SEC_ANCHOR_ROLESn n 0 := fun n => h.reg fun hin => by
    have := hl _ hin
    simp only [RegFam.addr, Reg.SEC_ANCHOR_ROLESn] at this
    omega
  have hkey : ∀ n, t.anchorKey n = s.anchorKey n := fun n => by
    have hword : ∀ k, t.reg Reg.SEC_ANCHOR_KEYnw n k = s.reg Reg.SEC_ANCHOR_KEYnw n k := fun k => h.reg fun hin => by
      have := hl _ hin
      simp only [RegFam.addr, Reg.SEC_ANCHOR_KEYnw] at this
      omega
    simp only [State.anchorKey, hword]
  simp only [State.anchorGrants, State.endsOtost, State.endsAnchor, hsec, hstate, hroles, hkey]

theorem OnlyRegs.helloRole (h : OnlyRegs s t l) (hl : ∀ a ∈ l, a < 0x70000) (m : Hello) : t.helloRole m = s.helloRole m := by
  simp only [State.helloRole, h.anchorGrants hl]

end

section
variable {s : State} {m : Hello}

/-- The HELLO itself changes nothing of what its checks rest on. -/
theorem onlyRegs_heard (s : State) : OnlyRegs s (s.wide Reg.HPT_RX_MSGS 0 0 1) [Reg.HPT_RX_MSGS.addr 0 0] := onlyRegs_wide _ _ _ _ _

theorem State.helloRole_heard : (s.wide Reg.HPT_RX_MSGS 0 0 1).helloRole m = s.helloRole m := (onlyRegs_heard s).helloRole (by decide) m

theorem State.rf_heard {f : RegFam} {i j : Nat} (h : f.addr i j ∉ [Reg.HPT_RX_MSGS.addr 0 0]) (hi lo : Nat) :
    (s.wide Reg.HPT_RX_MSGS 0 0 1).rf f i j hi lo = s.rf f i j hi lo := (onlyRegs_heard s).rf h hi lo

theorem State.isEntry_heard : (s.wide Reg.HPT_RX_MSGS 0 0 1).isEntry = s.isEntry := by
  simp only [State.isEntry, State.devNo, State.rf_heard (f := Reg.SEQ_ROLE) (i := 0) (j := 0) (by decide),
    State.rf_heard (f := Reg.FLK_COORD) (i := 0) (j := 0) (by decide)]

theorem State.opensFlight_heard : (s.wide Reg.HPT_RX_MSGS 0 0 1).opensFlight = s.opensFlight := by
  simp only [State.opensFlight, State.isEntry_heard, State.wide_sched]

theorem State.isExit_heard : (s.wide Reg.HPT_RX_MSGS 0 0 1).isExit = s.isExit := by
  simp only [State.isExit, State.devNo, State.rf_heard (f := Reg.SEQ_ROLE) (i := 0) (j := 0) (by decide),
    State.rf_heard (f := Reg.FLK_COORD) (i := 0) (j := 0) (by decide)]

theorem State.numberRange_heard : (s.wide Reg.HPT_RX_MSGS 0 0 1).numberRange = s.numberRange := by
  simp only [State.numberRange, State.opensFlight_heard]

theorem State.chooseVersion_heard (l : List Byte) : (s.wide Reg.HPT_RX_MSGS 0 0 1).chooseVersion l = s.chooseVersion l := by
  have hrecov : (s.wide Reg.HPT_RX_MSGS 0 0 1).recovery = s.recovery := by
    simp only [State.recovery, State.rf_heard (f := Reg.SEC_FW) (i := 0) (j := 0) (by decide)]
  rw [State.chooseVersion, State.chooseVersion, hrecov]

theorem State.helloCheck_heard : (s.wide Reg.HPT_RX_MSGS 0 0 1).helloCheck m = s.helloCheck m := by
  simp only [State.helloCheck, State.chooseVersion_heard, State.helloRole_heard, State.opensFlight_heard, State.numberRange_heard,
    State.rf_heard (f := Reg.SEC_LC_STATE) (i := 0) (j := 0) (by decide), State.rf_heard (f := Reg.SEC_RNG) (i := 0) (j := 0) (by decide)]
  rfl

/-- A HELLO that passes its checks finds a free number of its kind. -/
theorem State.free_of_helloCheck (h : s.helloCheck m = stOk) : (s.usedNumbers s.numberRange.1 s.numberRange.2).length < s.numberRange.2 := by
  by_contra hfull
  unfold State.helloCheck at h
  rw [if_pos (show s.rf Reg.SEC_RNG 0 0 0 0 = 0 ∨ _ from .inr (by omega))] at h
  revert h
  repeat' split
  all_goals decide

end


/-! ### The statement -/

section
variable {s : State} {m : Hello} {n : Nat} {x : Session} {tag payload bs : List Byte} {g : MsgHdr}

/-- What a HELLO that is no repeat and offers one to four versions comes down to. -/
theorem exec_hello_of_new (hlink : s.linkUp = true) (hencap : s.encapOn m.udp = true) (hoffer : m.versions ≠ []) (hfour : m.versions.length ≤ 4)
    (hnew : s.hpt.sessions.find? (fun y => y.nonce == m.nonce && y.host == m.host && y.udp == m.udp && !y.closing && y.cmd.next != 0) = none) :
    (∀ {v : Byte} {role : Role}, s.helloCheck m = stOk → s.chooseVersion m.versions = some v → s.helloRole m = some role →
      exec (.hello m) s = .next ((s.wide Reg.HPT_RX_MSGS 0 0 1).openSession m v role)) ∧
    (s.helloCheck m ≠ stOk → exec (.hello m) s =
      finish (((s.wide Reg.HPT_RX_MSGS 0 0 1).emit (helloRefusal m.udp m.host (s.helloCheck m))).err Reg.HPT_HELLO_REJECT 0 0 1)) := by
  have hne : m.versions.isEmpty = false := by simpa using hoffer
  have hexec : exec (.hello m) s = execHello m s := rfl
  rw [hexec]
  simp only [execHello, hlink, hencap, hne, hnew, State.wide_hpt, State.helloCheck_heard, State.chooseVersion_heard, State.helloRole_heard,
    Nat.not_lt.mpr hfour, decide_false, Bool.not_true, Bool.or_false, Bool.false_eq_true, if_false]
  refine ⟨fun hcheck hver hrole => by simp [hcheck, hver, hrole, stOk], fun hcheck => ?_⟩
  split
  · next hzero _ _ => exact absurd hzero hcheck
  · rfl

/-- What opening a session makes of a state (R383, R384). -/
theorem State.openSession_spec (hcheck : s.helloCheck m = stOk) (v : Byte) (role : Role) :
    ∃ k, let y := newSession k v role m (s.agree m).1 (s.agree m).2
      let t := (s.wide Reg.HPT_RX_MSGS 0 0 1).openSession m v role
      (∀ z ∈ s.hpt.sessions, z.number ≠ k) ∧ isFlight k = s.opensFlight ∧ k < 16384 ∧
      t = { s with regs := t.regs, freeCtr := s.freeCtr + 3,
                   hpt := { s.hpt with sessions := s.hpt.sessions ++ [y], sent := s.hpt.sent ++ [y.helloAck] } } ∧
      ∀ w, w ∉ [Reg.HPT_RX_MSGS.addr 0 0, Reg.HPT_TX_MSGS.addr 0 0] → t.word w = s.word w := by
  obtain ⟨hnew, hlow, hhigh⟩ := State.freeNumber (State.free_of_helloCheck hcheck) (s.free 64).toNat
  refine ⟨_, hnew, ?_, ?_, ?_, fun w hw => ?_⟩
  · revert hlow hhigh
    generalize skipUsed _ _ = k
    unfold State.numberRange isFlight
    cases s.opensFlight
    · simp
      omega
    · simp
  · refine hhigh.trans_le ?_
    unfold State.numberRange
    split <;> decide
  · simp only [State.openSession, State.numberRange_heard]
    rfl
  · simp only [List.mem_cons, List.not_mem_nil, or_false, not_or] at hw
    exact (State.word_setReg_of_ne _ _ _ _ _ _ hw.2).trans (State.word_setReg_of_ne _ _ _ _ _ _ hw.1)

theorem State.shutSession_of_local (hx : s.session n = some x) (hlocal : isFlight n = false) : s.shutSession n = s.dropSession n := by
  rw [State.shutSession, hx]
  simp [hlocal]

/-- A flight session of which both sides have discarded what was not acknowledged, and which waits for its boundary (R389). -/
def Session.shut (x : Session) : Session :=
  let empty : TxStream := { next := 0, sent := [], waiting := [] }
  { x with isOpen := false, closing := true, ctl := x.ctl + 1, ans := empty, out := empty, taken := [], unanswered := [] }

/-- The close of a flight session, as the entry device queues it. -/
def Session.closeQueued (x : Session) (n : Nat) : Queued :=
  { cmd := { session := n, tag := 0, tenant := x.tenantNo, body := .close n }, seen := false, listed := false }

/-- A flight session that ends waits for its boundary: in the entry device's queue, or for the broadcast of another device (R389). -/
theorem State.shutSession_eq_of_flight (hx : s.session n = some x) (hflight : isFlight n = true) :
    s.shutSession n =
      let u := s.updSession n Session.shut
      if s.isEntry then { u with seq := { s.seq with queue := s.seq.queue ++ [x.closeQueued n] } }
      else { u with hpt := { u.hpt with closings := s.hpt.closings ++ [n] } } := by
  rw [State.shutSession, hx]
  simp only [hflight, if_true]
  show (if s.rf Reg.SEQ_ROLE 0 0 8 0 ≠ s.devNo then _ else _) = _
  by_cases hrole : s.rf Reg.SEQ_ROLE 0 0 8 0 = s.devNo
  · rw [if_neg (not_not_intro hrole), if_pos (by simpa [State.isEntry] using hrole)]
    rfl
  · rw [if_pos hrole, if_neg (by simpa [State.isEntry] using hrole)]
    rfl

theorem State.shutSession_of_flight (hx : s.session n = some x) (hflight : isFlight n = true) :
    let t := s.shutSession n
    (s.isEntry = true → t.hpt.closings = s.hpt.closings ∧ t.seq = { s.seq with queue := s.seq.queue ++ [x.closeQueued n] }) ∧
    (s.isEntry = false → t.hpt.closings = s.hpt.closings ++ [n] ∧ t.seq = s.seq) ∧
    (∃ y, t.session n = some y ∧ y.isOpen = false ∧ y.closing = true ∧ y.taken = [] ∧ y.unanswered = []) ∧
    (∀ k, k ≠ n → t.session k = s.session k) ∧ t.cores = s.cores ∧ t.mem = s.mem := by
  intro t
  have ht : t = s.shutSession n := rfl
  have hshut : (s.updSession n Session.shut).session n = some x.shut := State.session_updSession_some hx fun _ => rfl
  have hother : ∀ k, k ≠ n → (s.updSession n Session.shut).session k = s.session k := fun k hk =>
    State.session_updSession_of_ne s _ (fun _ => rfl) hk
  rw [State.shutSession_eq_of_flight hx hflight] at ht
  rw [ht]
  cases s.isEntry with
  | true => exact ⟨fun _ => ⟨rfl, rfl⟩, by simp, ⟨_, hshut, rfl, rfl, rfl, rfl⟩, hother, rfl, rfl⟩
  | false => exact ⟨by simp, fun _ => ⟨rfl, rfl⟩, ⟨_, hshut, rfl, rfl, rfl, rfl⟩, hother, rfl, rfl⟩

theorem exec_probe (g : MsgHdr) (tag : List Byte) : exec (.probe g tag) s =
    s.onMessage g 7 true [] tag (fun k => decide (k ≤ 2)) (fun s _ => s.wide Reg.HPT_RX_MSGS 0 0 1) := rfl

theorem exec_close (g : MsgHdr) (tag payload : List Byte) : exec (.close g tag payload) s =
    s.onMessage g 6 true payload tag (fun k => decide (k ≤ 2)) (fun s _ => (s.wide Reg.HPT_RX_MSGS 0 0 1).shutSession g.session) := rfl

/-- A HELLO that is refused is heard and answered, and then counted. -/
theorem onlyRegs_refused (s : State) (m : Sent) : OnlyRegs { s with hpt := { s.hpt with sent := s.hpt.sent ++ [m] } }
    ((s.wide Reg.HPT_RX_MSGS 0 0 1).emit m) [Reg.HPT_RX_MSGS.addr 0 0, Reg.HPT_TX_MSGS.addr 0 0] :=
  (onlyRegs_wide { s with hpt := { s.hpt with sent := s.hpt.sent ++ [m] } } Reg.HPT_RX_MSGS 0 0 1).append (onlyRegs_wide _ Reg.HPT_TX_MSGS 0 0 1)

theorem exec_confirm_of_agreed (hlink : s.linkUp = true) (hx : s.session n = some x) (hopen : x.isOpen = false) (hclosing : x.closing = false)
    (hplace : isFlight n = false ∨ s.isExit = true) :
    exec (.confirm n x.share.sA) s = .next ((s.wide Reg.HPT_RX_MSGS 0 0 1).updSession n (fun y => { y with isOpen := true })) := by
  have hquiet : ∀ t : State, t.isExit = s.isExit → t.announce x = t := fun t ht => by
    rw [State.announce, ht, State.number_of_session hx]
    rcases hplace with h | h <;> simp [h]
  show execConfirm n x.share.sA s = _
  rw [execConfirm, hx]
  simp only [hlink, hopen, hclosing, bne_self_eq_false, Bool.not_true, Bool.or_false, Bool.false_eq_true, if_false]
  exact congrArg Host.Outcome.next (hquiet _ State.isExit_heard)

/-- The hold time of the link ends the one session that is open, where it is a local one. -/
theorem exec_linkHoldTimeout_of_one (hstate : s.linkState = 0) (hone : s.hpt.sessions = [x]) (hopen : x.isOpen = true)
    (hclosing : x.closing = false) (hlocal : isFlight x.number = false) :
    exec .linkHoldTimeout s = .next ((s.emit (x.closeMsg 4)).dropSession x.number) := by
  have hx : s.session x.number = some x := by simp [State.session, hone]
  show Host.Outcome.next (if s.linkState = 0 then s.closeAll 4 (fun _ => true) else s) = _
  rw [if_pos hstate, State.closeAll, hone]
  simp [hopen, State.closeSession_of_local hx hclosing hlocal]

end

/-- Settles O58, clause by clause. -/
theorem sessionsOpenAndEnd : Obligations.SessionsOpenAndEnd := by
  unfold Obligations.SessionsOpenAndEnd
  intro s m g n v role x tag bs sA payload hc close heard discarded
  have hdiscard : s.room Reg.HPT_RX_DISCARD 0 0 1 → discarded (finish s.discardRx) := fun hroom =>
    ⟨_, (onlyRegs_err hroom).finish hc, onlyRegs_err hroom, State.reg_err_of_room hroom⟩
  refine ⟨fun hlink hencap hoffer hfour hnew => ?_, fun hlink hx hopen hclosing => ⟨fun hplace => ?_, fun hroom hsA => ?_, fun hroom => ?_⟩,
    fun hlink hx hopen hclosing => ⟨fun hlocal => ?_, fun hg hver hflags hstream hudp hhost htag => ?_⟩, fun hstate => ?_,
    fun hstate hone hopen hclosing hlocal => ?_⟩
  · obtain ⟨hopened, hrefused⟩ := exec_hello_of_new hlink hencap hoffer hfour hnew
    refine ⟨fun hcheck hver hrole => ?_, fun hcheck hroom => ?_⟩
    · obtain ⟨k, h⟩ := State.openSession_spec hcheck v role
      exact ⟨k, _, hopened hcheck hver hrole, h⟩
    · have hu := onlyRegs_refused s (helloRefusal m.udp m.host (s.helloCheck m))
      have hroom' := hu.room (f := Reg.HPT_HELLO_REJECT) (i := 0) (j := 0) (n := 1) (by decide) hroom
      have ht := hu.append (onlyRegs_err hroom')
      refine ⟨_, (hrefused hcheck).trans (ht.finish hc), ht.1, ?_⟩
      rw [State.reg_err_of_room hroom', hu.reg (by decide)]
      rfl
  · exact exec_confirm_of_agreed hlink hx hopen hclosing hplace
  · have hexec : exec (.confirm n sA) s = finish s.discardRx := by
      show execConfirm n sA s = _
      rw [execConfirm, hx]
      simp [hlink, hsA]
    exact hexec ▸ hdiscard hroom
  · have hexec : exec (.confirmTimeout n) s = finish ((s.dropSession n).err Reg.HPT_HELLO_REJECT 0 0 1) := by
      show execConfirmTimeout n s = _
      rw [execConfirmTimeout, hx]
      simp [hopen, hclosing]
    have hroom' : (s.dropSession n).room Reg.HPT_HELLO_REJECT 0 0 1 := hroom
    have ht := onlyRegs_err hroom'
    exact ⟨_, hexec.trans (ht.finish hc), ht, (ht.session n).trans (State.session_dropSession_self s n), State.reg_err_of_room hroom'⟩
  · show execIdleTimeout n s = _
    rw [execIdleTimeout, hx]
    simp only [hlink, hopen, Bool.and_self, if_true, State.closeSession_of_local hx hclosing hlocal]
    rfl
  · subst hg
    have hx' : heard.session g.session = some x := hx
    have hfits : MsgFits g x tag := ⟨hopen, hver, hflags, hudp, hhost, htag⟩
    refine ⟨fun htyp hlen hbs => ?_, fun hroom hbad => ?_, fun hroom => ?_, fun htyp hlen hbs => ?_, fun htyp hlen hbs hroom hmild => ?_⟩
    · rw [exec_probe, State.onMessage_of_opened (payload := []) hlink hx hfits htyp (decide_eq_true hstream) hlen hbs]
      exact (onlyRegs_heard s).finish hc
    · rw [exec_probe, State.onMessage_of_misfit hlink hx (hbad.imp id fun h => .inl (by simpa [htag] using h))]
      exact hdiscard hroom
    · rw [exec_probe, State.onMessage_of_misfit (m := { g with udp := !x.udp }) hlink hx (.inr (.inr (by simp)))]
      exact hdiscard hroom
    · rw [exec_close, State.onMessage_of_opened hlink hx hfits htyp (decide_eq_true hstream) hlen hbs, finish_of_calm hc (State.shutSession_fcl heard _)]
      refine ⟨fun hlocal => ?_, fun hflight => ?_⟩
      · rw [State.shutSession_of_local hx' hlocal]
      · have hentry : heard.isEntry = s.isEntry := State.isEntry_heard
        have h := State.shutSession_of_flight hx' hflight
        rw [hentry] at h
        exact ⟨_, rfl, h⟩
    · rw [exec_probe, State.onMessage_of_badTag (payload := []) hlink hx hfits htyp (decide_eq_true hstream) hlen hbs]
      have hq := onlyRegs_err hroom
      obtain ⟨ht, hraised⟩ := finish_raise (src := 0x6A) (unit := devUnit) (hq.calm hc) (by decide) (by decide) (hq.mild (by decide) (by decide) hmild)
      exact ⟨_, _, ht, hraised, hq, State.reg_err_of_room hroom⟩
  · show Host.Outcome.next (if s.linkState = 0 then _ else _) = _
    rw [if_neg hstate]
  · exact exec_linkHoldTimeout_of_one hstate hone hopen hclosing hlocal

end Sys2Proof.Machine
end

section
/-! SUPPORT. Frames of the host port (R380, R381): what the checks of a frame rest on. -/

namespace Sys2Proof.Machine

section
variable {s t : State} {l : List Nat} {f : Frame}

theorem OnlyRegs.encapOn (h : OnlyRegs s t l) (hl : ∀ a ∈ portAddrs, a ∉ l) (udp : Bool) : t.encapOn udp = s.encapOn udp := by
  rw [State.encapOn, State.encapOn, h.portCfg hl]

theorem OnlyRegs.macAddr (h : OnlyRegs s t l) (hl : ∀ a ∈ portAddrs, a ∉ l) : t.macAddr = s.macAddr := by
  simp only [State.macAddr, h.portCfg hl]

theorem OnlyRegs.ipAddr (h : OnlyRegs s t l) (hl : ∀ a ∈ portAddrs, a ∉ l) : t.ipAddr = s.ipAddr := by
  simp only [State.ipAddr, h.portCfg hl]

theorem OnlyRegs.frameTaken (h : OnlyRegs s t l) (hl : ∀ a ∈ portAddrs, a ∉ l) (f : Frame) : t.frameTaken f = s.frameTaken f := by
  simp only [State.frameTaken, h.portCfg hl, h.encapOn hl, h.ipAddr hl]

/-- Counting the FEC codewords of a frame (R380). -/
theorem State.onlyRegs_hostFec (hroom : s.room Reg.HPT_FEC_UNCORR 0 0 f.fecUncorr) :
    OnlyRegs s (s.hostFec f) [Reg.HPT_FEC_CORR.addr 0 0, Reg.HPT_FEC_UNCORR.addr 0 0] := by
  have hcorr := onlyRegs_wide s Reg.HPT_FEC_CORR 0 0 f.fecCorr
  exact hcorr.append (onlyRegs_err (hcorr.room (by decide) hroom))

theorem State.reg_fecCorr_hostFec (hroom : s.room Reg.HPT_FEC_UNCORR 0 0 f.fecUncorr) :
    (s.hostFec f).reg Reg.HPT_FEC_CORR 0 0 = (s.reg Reg.HPT_FEC_CORR 0 0 + f.fecCorr) % 2 ^ 64 := by
  have hcorr := onlyRegs_wide s Reg.HPT_FEC_CORR 0 0 f.fecCorr
  rw [State.hostFec, (onlyRegs_err (hcorr.room (by decide) hroom)).reg (by decide), State.reg_wide_self]

theorem State.reg_fecUncorr_hostFec (hroom : s.room Reg.HPT_FEC_UNCORR 0 0 f.fecUncorr) :
    (s.hostFec f).reg Reg.HPT_FEC_UNCORR 0 0 = s.reg Reg.HPT_FEC_UNCORR 0 0 + f.fecUncorr := by
  have hcorr := onlyRegs_wide s Reg.HPT_FEC_CORR 0 0 f.fecCorr
  rw [State.hostFec, State.reg_err_of_room (hcorr.room (by decide) hroom), hcorr.reg (by decide)]

/-- What the MAC makes of a frame, by its check sequence, its type, its address and what it carries. -/
theorem State.macFrame_cases (s : State) (f : Frame) :
    let mine := f.dst.toNat = s.macAddr ∨ f.dst = 0xFFFFFFFFFFFF
    (f.fcsOk = true → f.isPause = false → f.isPfc = false →
      (mine → f.len ≤ s.portCfg 8 → s.frameTaken f = true → s.macFrame f = s) ∧
      (mine → (s.portCfg 8 < f.len ∨ s.frameTaken f = false) → s.macFrame f = s.discardRx) ∧
      (¬mine → s.macFrame f = s)) ∧
    (f.fcsOk = false → s.macFrame f = s.discardRx) ∧
    (f.fcsOk = true → (f.isPause = true ∨ f.isPfc = true) → s.macFrame f = s.err Reg.HPT_PAUSE_RX 0 0 1) := by
  intro mine
  have hmine : mine ↔ ¬ (f.dst.toNat ≠ s.macAddr ∧ f.dst ≠ 0xFFFFFFFFFFFF) := by
    simp only [mine, not_and_or, not_not]
  refine ⟨fun hfcs hpause hpfc => ⟨fun hm hlen htaken => ?_, fun hm hbad => ?_, fun hm => ?_⟩, fun hfcs => ?_, fun hfcs hpause => ?_⟩
  · rw [State.macFrame, if_neg (by simp [hfcs]), if_neg (by simp [hpause, hpfc]), if_neg (hmine.mp hm), if_neg (by simp [htaken, hlen])]
  · rw [State.macFrame, if_neg (by simp [hfcs]), if_neg (by simp [hpause, hpfc]), if_neg (hmine.mp hm), if_pos (by simpa using hbad)]
  · rw [State.macFrame, if_neg (by simp [hfcs]), if_neg (by simp [hpause, hpfc]), if_pos (not_not.mp fun h => hm (hmine.mpr h))]
  · rw [State.macFrame, if_pos (by simp [hfcs])]
  · rw [State.macFrame, if_neg (by simp [hfcs]), if_pos (by simpa using hpause)]

theorem exec_hostFrameReceive (hlink : s.linkUp = true) : exec (.hostFrameReceive f) s = finish ((s.hostFec f).macFrame f) := by
  show execHostFrameReceive f s = _
  rw [execHostFrameReceive, hlink]
  rfl

end
end Sys2Proof.Machine
end

section
/-! SUPPORT. The host link (R377, R378, R400, R402): what it resolves, a lane that fails, and the statement about frames and the link. -/

namespace Sys2Proof.Machine

section
variable {s t q : State} {l : List Nat} {lane pmd : Nat}

/-- A lane that is marked as failed, in the bits of the lanes. -/
theorem bitsOf_setBit_lane (v : Nat) (hlane : lane < 8) (hclear : (bitsOf v 23 16).testBit lane = false) :
    bitsOf (setBits v (16 + lane) (16 + lane) 1) 23 16 = bitsOf v 23 16 + 2 ^ lane := by
  rw [Nat.testBit_eq_decide_div_mod_eq, decide_eq_false_iff_not] at hclear
  unfold setBits bitsOf at *
  interval_cases lane <;> norm_num at hclear ⊢ <;> omega

theorem State.rf_setLane (hlane : lane < 8) (hclear : (s.rf Reg.HPT_LINK_STATE 0 0 23 16).testBit lane = false) :
    (s.setRf Reg.HPT_LINK_STATE 0 0 (16 + lane) (16 + lane) 1).rf Reg.HPT_LINK_STATE 0 0 23 16 =
      s.rf Reg.HPT_LINK_STATE 0 0 23 16 + 2 ^ lane := by
  rw [State.rf, State.setRf, State.reg_setReg_self, bitsOf_mod_word _ _ _ (by decide), bitsOf_setBit_lane _ hlane hclear, State.rf]

theorem State.onlyRegs_unlink (s : State) (st : Nat) : OnlyRegs s (s.unlink st) [Reg.HPT_LINK_STATE.addr 0 0] :=
  ((onlyRegs_setRf s _ _ _ _ _ _).trans (onlyRegs_setRf _ _ _ _ _ _ _)).trans (onlyRegs_setRf _ _ _ _ _ _ _)

theorem State.linkState_unlink (s : State) (st : Nat) : (s.unlink st).linkState = st % 8 := State.rf_setRf_self _ _ _ _ _ _ (by decide)

/-- The lanes that have failed stay marked. -/
theorem State.lanes_unlink (s : State) (st : Nat) : (s.unlink st).rf Reg.HPT_LINK_STATE 0 0 23 16 = s.rf Reg.HPT_LINK_STATE 0 0 23 16 := by
  rw [State.unlink, State.rf_setRf_apart _ _ _ _ _ (by decide) (by decide), State.rf_setRf_apart _ _ _ _ _ (by decide) (by decide),
    State.rf_setRf_apart _ _ _ _ _ (by decide) (by decide)]

theorem State.onlyRegs_moveLane (s : State) : OnlyRegs s s.moveLane [Reg.HPT_LANE_MAP.addr 0 0] := by
  unfold State.moveLane
  dsimp only
  split
  · split
    · exact onlyRegs_setRf _ _ _ _ _ _ _
    · exact .refl _ _
  · exact .refl _ _

/-- The lane of one-lane PMDs stays where it works. -/
theorem State.moveLane_of_working (h : (s.rf Reg.HPT_LINK_STATE 0 0 23 16).testBit (s.rf Reg.HPT_LANE_MAP 0 0 2 0) = false) : s.moveLane = s := by
  rw [State.moveLane, h]
  rfl

/-- The link after a lane has failed. -/
def State.lostLane (s : State) (lane : Nat) : State := ((s.setRf Reg.HPT_LINK_STATE 0 0 (16 + lane) (16 + lane) 1).moveLane).unlink 1

theorem State.onlyRegs_lostLane (s : State) (lane : Nat) :
    OnlyRegs s (s.lostLane lane) [Reg.HPT_LINK_STATE.addr 0 0, Reg.HPT_LANE_MAP.addr 0 0] :=
  (((onlyRegs_setRf s _ _ _ _ _ _).append (State.onlyRegs_moveLane _)).append (State.onlyRegs_unlink _ _)).mono fun a ha => by
    simp only [List.mem_append, List.mem_cons, List.not_mem_nil, or_false] at ha ⊢
    tauto

theorem State.lanes_lostLane (hlane : lane < 8) (hclear : (s.rf Reg.HPT_LINK_STATE 0 0 23 16).testBit lane = false) :
    (s.lostLane lane).rf Reg.HPT_LINK_STATE 0 0 23 16 = s.rf Reg.HPT_LINK_STATE 0 0 23 16 + 2 ^ lane := by
  rw [State.lostLane, State.lanes_unlink, (State.onlyRegs_moveLane _).rf (by decide), State.rf_setLane hlane hclear]

/-- A failed lane moves no PMD of one lane that runs on another working lane. -/
theorem State.laneMap_lostLane (hlane : lane < 8) (hclear : (s.rf Reg.HPT_LINK_STATE 0 0 23 16).testBit lane = false)
    (hother : s.rf Reg.HPT_LANE_MAP 0 0 2 0 ≠ lane) (hworks : (s.rf Reg.HPT_LINK_STATE 0 0 23 16).testBit (s.rf Reg.HPT_LANE_MAP 0 0 2 0) = false) :
    (s.lostLane lane).rf Reg.HPT_LANE_MAP 0 0 2 0 = s.rf Reg.HPT_LANE_MAP 0 0 2 0 := by
  have hmap : (s.setRf Reg.HPT_LINK_STATE 0 0 (16 + lane) (16 + lane) 1).rf Reg.HPT_LANE_MAP 0 0 2 0 = s.rf Reg.HPT_LANE_MAP 0 0 2 0 :=
    State.rf_setRf_of_ne _ _ _ _ _ _ _ _ _ _ _ _ (by decide)
  have hstill : (s.rf Reg.HPT_LINK_STATE 0 0 23 16 + 2 ^ lane).testBit (s.rf Reg.HPT_LANE_MAP 0 0 2 0) = false := by
    have hkept := hworks
    rw [State.rf, testBit_bitsOf] at hkept
    rw [← State.rf_setLane hlane hclear, State.rf, State.setRf, State.reg_setReg_self, bitsOf_mod_word _ _ _ (by decide), testBit_bitsOf,
      testBit_setBits, if_neg (by omega)]
    exact hkept
  rw [State.lostLane, (State.onlyRegs_unlink _ _).rf (by decide), State.moveLane_of_working, hmap]
  rw [State.rf_setLane hlane hclear, hmap, hstill]


/-- A review of the units changes nothing in flight, while a lane and a control pair of die 0 work. -/
theorem State.review_of_working (hf : s.inFlight = true) (hdie : s.dieWorks 0 = true) (hlanes : s.rf Reg.HPT_LINK_STATE 0 0 23 16 ≠ 0xFF) :
    s.review = s := State.review_of_inFlight hf ((State.mgmtLost_iff s).mpr ⟨hdie, hlanes⟩)

theorem exec_hostLaneFailure_of_up (hc : s.calm) (hlink : s.linkUp = true) (hbooted : s.pow.booted = true) (hlane : lane < 8)
    (hf : s.inFlight = true) (hdie : s.dieWorks 0 = true) (hclear : (s.rf Reg.HPT_LINK_STATE 0 0 23 16).testBit lane = false)
    (hrest : s.rf Reg.HPT_LINK_STATE 0 0 23 16 + 2 ^ lane ≠ 0xFF) (hmild : s.mild [0x68]) :
    ∃ t, exec (.hostLaneFailure lane) s = .next t ∧ Raised (s.lostLane lane) t 0x68 devUnit := by
  have honly := State.onlyRegs_lostLane s lane
  obtain ⟨hnext, hraised⟩ := finish_raise (src := 0x68) (unit := devUnit) (honly.calm hc) (by decide) (by decide)
    (honly.mild (by decide) (by decide) hmild)
  have hreview : ((s.lostLane lane).raise 0x68 devUnit).review = (s.lostLane lane).raise 0x68 devUnit := by
    refine State.review_of_working ?_ ?_ ?_
    · have hflt : (s.lostLane lane).flt = s.flt := by rw [honly.1]
      have hstate : ((s.lostLane lane).raise 0x68 devUnit).flightState = s.flightState := by
        rw [State.flightState, hraised.rf (by decide), honly.rf (by decide), State.flightState]
      rw [State.inFlight, hstate, show ((s.lostLane lane).raise 0x68 devUnit).flt = s.flt from (congrArg State.flt hraised.1).trans hflt]
      exact hf
    · rw [State.dieWorks_iff] at hdie ⊢
      have hpair : ∀ p, ((s.lostLane lane).raise 0x68 devUnit).pairState p = s.pairState p := fun p => by
        rw [State.pairState, State.rf_raise ⟨by decide, by decide⟩, honly.rf (by decide), State.pairState]
      rwa [hpair, hpair]
    · rw [hraised.rf (by decide), State.lanes_lostLane hlane hclear]
      exact hrest
  refine ⟨_, ?_, hraised⟩
  have hexec : exec (.hostLaneFailure lane) s = finish ((s.lostLane lane).raise 0x68 devUnit).review := by
    show execHostLaneFailure lane s = _
    rw [execHostLaneFailure, if_neg (by simp [hbooted, hclear, hlane])]
    simp only [hlink, if_true]
    rfl
  rw [hexec, hreview, hnext]

theorem State.onlyRegs_loadConfig (s : State) :
    OnlyRegs { s with hpt := s.loadConfig.hpt } s.loadConfig [Reg.HPT_CTL.addr 0 0] := by
  unfold State.loadConfig
  split
  · exact onlyRegs_setRf { s with hpt := { s.hpt with config := s.portWritten } } _ _ _ _ _ _
  · exact .refl _ _

/-- What training puts in force: what has been written, before the first training and where `RETRAIN` is set (R400). -/
theorem State.hpt_loadConfig (s : State) :
    (s.hpt.config = [] ∨ s.rf Reg.HPT_CTL 0 0 0 0 = 1 → s.loadConfig.hpt = { s.hpt with config := s.portWritten }) ∧
    (s.hpt.config ≠ [] → s.rf Reg.HPT_CTL 0 0 0 0 = 0 → s.loadConfig.hpt = s.hpt) := by
  refine ⟨fun h => ?_, fun hconfig hctl => ?_⟩
  · rw [State.loadConfig, if_pos (by simpa using h)]
    rfl
  · rw [State.loadConfig, if_neg (by simp [hconfig, hctl])]

/-- The link after a PMD has been resolved and trained (R377). -/
def State.linked (s : State) (pmd : Nat) : State :=
  (((s.loadConfig.setRf Reg.HPT_LINK_STATE 0 0 15 8 pmd).setRf Reg.HPT_LINK_STATE 0 0 7 4 (pmdLanes pmd 0).length).setRf
    Reg.HPT_LINK_STATE 0 0 2 0 (if s.power = 3 then 4 else 3))

theorem State.onlyRegs_linked (s : State) (pmd : Nat) :
    OnlyRegs { s with hpt := s.loadConfig.hpt } (s.linked pmd) [Reg.HPT_CTL.addr 0 0, Reg.HPT_LINK_STATE.addr 0 0] :=
  s.onlyRegs_loadConfig.append (((onlyRegs_setRf _ _ _ _ _ _ _).trans (onlyRegs_setRf _ _ _ _ _ _ _)).trans (onlyRegs_setRf _ _ _ _ _ _ _))

/-- What the PMDs that may be advertised rest on. -/
theorem State.pmdEnabled_linked (s : State) (pmd : Nat) : (s.linked pmd).pmdEnabled = s.pmdEnabled := by
  have honly := s.onlyRegs_linked pmd
  have hpower : (s.linked pmd).power = s.power := honly.rf (by decide) _ _
  have hrecov : (s.linked pmd).recovery = s.recovery := by
    rw [State.recovery, honly.rf (by decide)]
    rfl
  have hadv : (s.linked pmd).rf Reg.HPT_PMD_ADV 0 0 13 0 = s.rf Reg.HPT_PMD_ADV 0 0 13 0 := honly.rf (by decide) _ _
  rw [State.pmdEnabled, hpower, hrecov, hadv, State.pmdEnabled]

theorem State.lanesWork_linked (s : State) (pmd c : Nat) : (s.linked pmd).lanesWork c = s.lanesWork c := by
  have honly := s.onlyRegs_linked pmd
  have hmap : (s.linked pmd).rf Reg.HPT_LANE_MAP 0 0 2 0 = s.rf Reg.HPT_LANE_MAP 0 0 2 0 := honly.rf (by decide) _ _
  have hlanes : (s.linked pmd).rf Reg.HPT_LINK_STATE 0 0 23 16 = s.rf Reg.HPT_LINK_STATE 0 0 23 16 := by
    rw [State.linked, State.rf_setRf_apart _ _ _ _ _ (by decide) (by decide), State.rf_setRf_apart _ _ _ _ _ (by decide) (by decide),
      State.rf_setRf_apart _ _ _ _ _ (by decide) (by decide), s.onlyRegs_loadConfig.rf (by decide)]
    rfl
  rw [State.lanesWork, hmap, hlanes, State.lanesWork]

/-- The numbers of lanes, and of the PMDs that may be advertised. -/
theorem pmdLanes_length_lt (pmd one : Nat) : (pmdLanes pmd one).length < 16 := by
  unfold pmdLanes
  repeat' split
  all_goals simp

theorem State.pmd_lt (h : pmd ∈ s.pmdEnabled) : pmd < 256 := by
  unfold State.pmdEnabled at h
  split at h
  · simp only [List.mem_cons, List.not_mem_nil, or_false] at h
    omega
  · simp only [List.mem_filter, List.mem_map, List.mem_range] at h
    omega

/-- The fields of the link that a PMD has been resolved for. -/
theorem State.fields_linked (h : pmd ∈ s.pmdEnabled) :
    (s.linked pmd).linkState = (if s.power = 3 then 4 else 3) ∧ (s.linked pmd).rf Reg.HPT_LINK_STATE 0 0 15 8 = pmd ∧
    (s.linked pmd).rf Reg.HPT_LINK_STATE 0 0 7 4 = (pmdLanes pmd 0).length := by
  refine ⟨?_, ?_, ?_⟩
  · rw [State.linkState, State.linked, State.rf_setRf_self _ _ _ _ _ _ (by decide)]
    split <;> rfl
  · rw [State.linked, State.rf_setRf_apart _ _ _ _ _ (by decide) (by decide), State.rf_setRf_apart _ _ _ _ _ (by decide) (by decide),
      State.rf_setRf_self _ _ _ _ _ _ (by decide)]
    exact Nat.mod_eq_of_lt (State.pmd_lt h)
  · rw [State.linked, State.rf_setRf_apart _ _ _ _ _ (by decide) (by decide), State.rf_setRf_self _ _ _ _ _ _ (by decide)]
    exact Nat.mod_eq_of_lt (pmdLanes_length_lt _ _)

theorem exec_hostLinkUp (hbooted : s.pow.booted = true) (hlink : s.linkUp = false) (hpmd : pmd ∈ s.pmdEnabled) (hworks : s.lanesWork pmd = true) :
    exec (.hostLinkUp pmd) s = finish (if (s.pmdEnabled.filter s.lanesWork).any (fun c => decide (pmdRate pmd < pmdRate c))
      then (s.linked pmd).raise 0x69 devUnit else s.linked pmd) := by
  have hworks' : (s.linked pmd).lanesWork = s.lanesWork := funext (s.lanesWork_linked pmd)
  have hpower : ((s.loadConfig.setRf Reg.HPT_LINK_STATE 0 0 15 8 pmd).setRf Reg.HPT_LINK_STATE 0 0 7 4 (pmdLanes pmd 0).length).power =
      s.power := ((onlyRegs_setRf _ _ _ _ _ _ _).trans (onlyRegs_setRf _ _ _ _ _ _ _)).rf (by decide) _ _ |>.trans
    (s.onlyRegs_loadConfig.rf (by decide) _ _)
  rw [← State.pmdEnabled_linked s pmd, ← hworks']
  show execHostLinkUp pmd s = _
  rw [execHostLinkUp, if_neg (by simp [hbooted, hlink, hpmd, hworks])]
  dsimp only
  rw [hpower]
  rfl

/-- A PMD comes up; a rate below the highest that could have been resolved is raised (R377, R378). -/
theorem exec_hostLinkUp_outcome (hc : s.calm) (hbooted : s.pow.booted = true) (hlink : s.linkUp = false) (hpmd : pmd ∈ s.pmdEnabled)
    (hworks : s.lanesWork pmd = true) (hmild : s.mild [0x69]) :
    ((∃ c ∈ s.pmdEnabled, s.lanesWork c = true ∧ pmdRate pmd < pmdRate c) →
      ∃ t, exec (.hostLinkUp pmd) s = .next t ∧ Raised (s.linked pmd) t 0x69 devUnit) ∧
    ((∀ c ∈ s.pmdEnabled, s.lanesWork c = true → pmdRate c ≤ pmdRate pmd) → exec (.hostLinkUp pmd) s = .next (s.linked pmd)) := by
  have honly := s.onlyRegs_linked pmd
  rw [exec_hostLinkUp hbooted hlink hpmd hworks]
  refine ⟨fun ⟨c, hc1, hc2, hc3⟩ => ?_, fun hall => ?_⟩
  · rw [if_pos (List.any_eq_true.mpr ⟨c, List.mem_filter.mpr ⟨hc1, hc2⟩, decide_eq_true hc3⟩)]
    exact ⟨_, finish_raise (honly.calm hc) (by decide) (by decide) (honly.mild (by decide) (by decide) hmild)⟩
  · rw [if_neg ?_]
    · exact honly.finish hc
    · rw [List.any_eq_true]
      rintro ⟨c, hin, hlt⟩
      obtain ⟨h1, h2⟩ := List.mem_filter.mp hin
      exact absurd (hall c h1 h2) (by simpa using hlt)

end

/-- Settles O60, clause by clause. -/
theorem hostFramesAndLink : Obligations.HostFramesAndLink := by
  unfold Obligations.HostFramesAndLink
  intro s f a pmd lane hc counted mine u
  refine ⟨fun hlink hdiscard hpause hfec => ?_, fun hlink hmild => ⟨?_, fun hbooted hlane hf hdie hclear hrest => ?_⟩,
    fun hbooted hlink hpmd hworks hmild => ?_⟩
  · have hu : OnlyRegs s u [Reg.HPT_FEC_CORR.addr 0 0, Reg.HPT_FEC_UNCORR.addr 0 0] := State.onlyRegs_hostFec hfec
    have hcounted : ∀ {b : State} {r : RegFam}, b.calm → b.room r 0 0 1 → counted b (finish (b.err r 0 0 1)) r := fun hb hroom =>
      ⟨_, (onlyRegs_err hroom).finish hb, onlyRegs_err hroom, State.reg_err_of_room hroom⟩
    obtain ⟨hgood, hbad, hpaused⟩ := u.macFrame_cases f
    rw [hu.macAddr (by decide), hu.portCfg (by decide), hu.frameTaken (by decide)] at hgood
    have hout : ∀ {v : State}, u.macFrame f = v → exec (.hostFrameReceive f) s = finish v := fun h => (exec_hostFrameReceive hlink).trans (by rw [← h])
    refine ⟨hu, State.reg_fecCorr_hostFec hfec, State.reg_fecUncorr_hostFec hfec, fun hfcs hp hpfc => ⟨fun hm hlen htaken => ?_, fun hm hbig => ?_,
      fun hm => ?_⟩, fun hfcs => ?_, fun hfcs hp => ?_, fun hencap haddr => ⟨?_, ?_⟩, fun haddr => ⟨?_, ?_⟩⟩
    · exact (hout ((hgood hfcs hp hpfc).1 hm hlen htaken)).trans (hu.finish hc)
    · exact hout ((hgood hfcs hp hpfc).2.1 hm hbig) ▸ hcounted (hu.calm hc) (hu.room (by decide) hdiscard)
    · exact (hout ((hgood hfcs hp hpfc).2.2 hm)).trans (hu.finish hc)
    · exact hout (hbad hfcs) ▸ hcounted (hu.calm hc) (hu.room (by decide) hdiscard)
    · exact hout (hpaused hfcs hp) ▸ hcounted (hu.calm hc) (hu.room (by decide) hpause)
    · show execNeighborSolicitation a s = _
      rw [execNeighborSolicitation, if_neg (by simp [hlink]), if_pos (by simp [hencap, haddr])]
    · show execEchoRequest a s = _
      rw [execEchoRequest, if_neg (by simp [hlink]), if_pos (by simp [hencap, haddr])]
    · have hexec : exec (.neighborSolicitation a) s = finish s.discardRx := by
        show execNeighborSolicitation a s = _
        rw [execNeighborSolicitation, if_neg (by simp [hlink]), if_neg (by simp [haddr])]
      exact hexec ▸ hcounted hc hdiscard
    · have hexec : exec (.echoRequest a) s = finish s.discardRx := by
        show execEchoRequest a s = _
        rw [execEchoRequest, if_neg (by simp [hlink]), if_neg (by simp [haddr])]
      exact hexec ▸ hcounted hc hdiscard
  · have honly := s.onlyRegs_unlink 0
    obtain ⟨hnext, hraised⟩ := finish_raise (src := 0x68) (unit := devUnit) (honly.calm hc) (by decide) (by decide)
      (honly.mild (by decide) (by decide) hmild)
    refine ⟨_, ?_, hraised, (hraised.rf (by decide) _ _).trans (s.linkState_unlink 0)⟩
    show execHostLinkDown s = _
    rw [execHostLinkDown, if_pos hlink, hnext]
  · obtain ⟨t, hnext, hraised⟩ := exec_hostLaneFailure_of_up hc hlink hbooted hlane hf hdie hclear hrest hmild
    exact ⟨_, t, hnext, hraised, State.onlyRegs_lostLane s lane, State.linkState_unlink _ 1, State.lanes_lostLane hlane hclear,
      State.laneMap_lostLane hlane hclear⟩
  · obtain ⟨hslow, hfast⟩ := exec_hostLinkUp_outcome hc hbooted hlink hpmd hworks hmild
    obtain ⟨hstate, hcode, hlanes⟩ := State.fields_linked hpmd
    obtain ⟨hloaded, hkept⟩ := s.hpt_loadConfig
    have hhpt : (s.linked pmd).hpt = s.loadConfig.hpt := by rw [(s.onlyRegs_linked pmd).1]
    by_cases hslower : ∃ c ∈ s.pmdEnabled, s.lanesWork c = true ∧ pmdRate pmd < pmdRate c
    · obtain ⟨t, ht, hraised⟩ := hslow hslower
      have hthpt : t.hpt = s.loadConfig.hpt := (congrArg State.hpt hraised.1).trans hhpt
      refine ⟨t, ht, (hraised.rf (by decide) _ _).trans hstate, (hraised.rf (by decide) _ _).trans hcode, (hraised.rf (by decide) _ _).trans hlanes,
        fun h => hthpt.trans (hloaded h), fun h1 h2 => hthpt.trans (hkept h1 h2), fun _ => hraised.pending, fun hall => ?_⟩
      obtain ⟨c, h1, h2, h3⟩ := hslower
      exact absurd (hall c h1 h2) (not_le.mpr h3)
    · refine ⟨_, hfast fun c h1 h2 => not_lt.mp fun h3 => hslower ⟨c, h1, h2, h3⟩, hstate, hcode, hlanes, fun h => hhpt.trans (hloaded h),
        fun h1 h2 => hhpt.trans (hkept h1 h2), fun h => absurd h hslower, fun _ => ?_⟩
      rw [hhpt]
      exact (s.onlyRegs_linked pmd).1

end Sys2Proof.Machine
end

section
/-! SUPPORT. Staging areas (R394) and the validation of a schedule (R171), and the statement about them. -/

namespace Sys2Proof.Machine

section
variable {s u : State} {h : Hdr} {x : Session} {k kind : Nat}

/-- The state with another staging area. -/
def State.withArea (s : State) (k : Nat) (a : Area) : State := { s with hpt := { s.hpt with areas := s.hpt.areas.set k a } }

theorem State.updArea_eq (hk : k < s.hpt.areas.length) (f : Area → Area) : s.updArea k f = s.withArea k (f (s.area k)) := by
  have hget : s.hpt.areas[k]? = some (s.area k) := by rw [State.area, List.getD_eq_getElem?_getD, List.getElem?_eq_getElem hk]; rfl
  rw [State.updArea, State.withArea, modify_eq_set_of_getElem? _ hget]

theorem State.kindOk_of (hlow : 1 ≤ kind) (hhigh : kind ≤ 3) : kindOk kind = true := decide_eq_true ⟨hlow, hhigh⟩

/-- The state after the staged schedule has been dropped. -/
theorem State.dropStaged_spec (s : State) :
    s.dropStaged = { s with regs := s.dropStaged.regs, sched := { s.sched with staged := none } } ∧
    s.dropStaged.rf Reg.WGT_SCHED_STATE 0 0 1 0 = 0 ∧ s.dropStaged.reg Reg.WGT_SCHED_STAGED_TAG 0 0 = 0 ∧
    ∀ w, w ∉ [Reg.WGT_SCHED_STATE.addr 0 0, Reg.WGT_SCHED_STAGED_TAG.addr 0 0] → s.dropStaged.word w = s.word w := by
  refine ⟨rfl, ?_, State.reg_setReg_self _ _ _ _ _, fun w hw => ?_⟩
  · rw [State.dropStaged, (onlyRegs_setReg _ _ _ _ _).rf (by decide)]
    exact State.rf_setRf_self _ _ _ _ _ _ (by decide)
  · simp only [List.mem_cons, List.not_mem_nil, or_false, not_or] at hw
    exact (State.word_setReg_of_ne _ _ _ _ _ _ hw.2).trans (State.word_setReg_of_ne _ _ _ _ _ _ hw.1)

/-- An area opens empty; that of schedules loses the staged schedule. -/
theorem stageOpen_done (hc : s.calm) (hlow : 1 ≤ kind) (hhigh : kind ≤ 3) (hareas : s.hpt.areas.length = 3) (size : Nat)
    (hok : s.accepts h (opRowM 0x0110) (decide (kind = 3)) true true x) (hopen : (s.area (kind - 1)).isOpen = false)
    (hbusy : (s.area (kind - 1)).busy = false) :
    let v := (s.taken h).withArea (kind - 1) ⟨true, false, false, size, []⟩
    Done (exec (.stageOpen h kind size) s) h 0x0110 (if kind = 1 then v.dropStaged else v) [] := by
  intro v
  have hv : (s.taken h).updArea (kind - 1) (fun _ => ⟨true, false, false, size, []⟩) = v :=
    State.updArea_eq (s := s.taken h) (show kind - 1 < s.hpt.areas.length by omega) _
  show Done (execStageOpen h kind size s) _ _ _ _
  rw [execStageOpen, State.kindOk_of hlow hhigh]
  refine done_of_accepts hc hok ?_ (by split <;> rfl)
  have hidle : ((s.taken h).area (kind - 1)).isOpen = false ∧ ((s.taken h).area (kind - 1)).busy = false := ⟨hopen, hbusy⟩
  simp only [hidle, Bool.or_self, Bool.false_eq_true, if_false, hv]

theorem stageData_done (hc : s.calm) (hlow : 1 ≤ kind) (hhigh : kind ≤ 3) (hareas : s.hpt.areas.length = 3) {offset : Nat} {bytes : List Byte}
    (hok : s.accepts h (opRowM 0x0111) (decide (kind = 3)) true true x) (hopen : (s.area (kind - 1)).isOpen = true)
    (hfits : offset + bytes.length ≤ (s.area (kind - 1)).size) (hlen : bytes.length ≤ 4198380) :
    Done (exec (.stageData h kind offset bytes) s) h 0x0111 ((s.taken h).withArea (kind - 1)
      { s.area (kind - 1) with bytes := Mem.write (s.area (kind - 1)).bytes offset bytes }) [] := by
  have hv := State.updArea_eq (s := s.taken h) (show kind - 1 < s.hpt.areas.length by omega) fun a =>
    { a with bytes := Mem.write a.bytes offset bytes }
  have hcommand : decide (20 + bytes.length ≤ maxCommand) = true := decide_eq_true (by unfold maxCommand; omega)
  show Done (execStageData h kind offset bytes s) _ _ _ _
  rw [execStageData, State.kindOk_of hlow hhigh, hcommand]
  refine done_of_accepts hc hok ?_ rfl
  have hopen' : ((s.taken h).area (kind - 1)).isOpen = true := hopen
  have hfits' : ¬ ((s.taken h).area (kind - 1)).size < offset + bytes.length := not_lt.mpr hfits
  simp only [hopen', hfits', Bool.not_true, Bool.false_eq_true, if_false, hv]
  rw [hopen]
  rfl

theorem stageClose_done (hc : s.calm) (hlow : 1 ≤ kind) (hhigh : kind ≤ 3) (hareas : s.hpt.areas.length = 3) {digest : BitVec 256}
    (hok : s.accepts h (opRowM 0x0112) (decide (kind = 3)) true true x) (hopen : (s.area (kind - 1)).isOpen = true)
    (hdigest : sm3 (Mem.read (s.area (kind - 1)).bytes 0 (s.area (kind - 1)).size) = digestBytes digest) :
    Done (exec (.stageClose h kind digest) s) h 0x0112 ((s.taken h).withArea (kind - 1)
      { s.area (kind - 1) with isOpen := false, closed := true }) [] := by
  have hv := State.updArea_eq (s := s.taken h) (show kind - 1 < s.hpt.areas.length by omega) fun a =>
    { a with isOpen := false, closed := true }
  show Done (execStageClose h kind digest s) _ _ _ _
  rw [execStageClose, State.kindOk_of hlow hhigh]
  refine done_of_accepts hc hok ?_ rfl
  have harea : (s.taken h).area (kind - 1) = s.area (kind - 1) := rfl
  simp only [harea, hopen, hdigest, Bool.not_true, Bool.false_eq_true, if_false, ne_eq, not_true_eq_false, hv]

/-- The state in which the validation of the staging area of schedules is under way. -/
def State.validating (s : State) (h : Hdr) : State :=
  ({ (s.taken h).withArea 0 { s.area 0 with busy := true } with jobs := { s.jobs with validate := some (replyTo h 0x0121) } } : State).setRf
    Reg.WGT_SCHED_STATE 0 0 1 0 1

theorem State.validating_spec (s : State) (h : Hdr) :
    OnlyRegs { (s.taken h).withArea 0 { s.area 0 with busy := true } with jobs := { s.jobs with validate := some (replyTo h 0x0121) } }
      (s.validating h) [Reg.WGT_SCHED_STATE.addr 0 0] ∧ (s.validating h).rf Reg.WGT_SCHED_STATE 0 0 1 0 = 1 :=
  ⟨onlyRegs_setRf _ _ _ _ _ _ _, State.rf_setRf_self _ _ _ _ _ _ (by decide)⟩

/-- Validation of a closed staging area starts (R171). -/
theorem exec_schedValidate_of_closed (hc : s.calm) (hareas : s.hpt.areas.length = 3) (hok : s.accepts h (opRow 0x0121) false true true x)
    (hbusy : (s.area 0).busy = false) (hclosed : (s.area 0).closed = true) (hage0 : s.rf Reg.CAL_AGE 0 0 1 0 ≠ 0)
    (hage2 : s.rf Reg.CAL_AGE 0 0 1 0 ≠ 2) : exec (.schedValidate h) s = .next (s.validating h) := by
  have hv : (s.taken h).updArea 0 (fun a => { a with busy := true }) = (s.taken h).withArea 0 { s.area 0 with busy := true } :=
    State.updArea_eq (s := s.taken h) (show 0 < s.hpt.areas.length by omega) _
  have hbusy' : ((s.taken h).area 0).busy = false := hbusy
  have hclosed' : ((s.taken h).area 0).closed = true := hclosed
  have hage : (s.taken h).rf Reg.CAL_AGE 0 0 1 0 = s.rf Reg.CAL_AGE 0 0 1 0 := rfl
  show execSchedValidate h s = _
  rw [execSchedValidate, State.command_of_accepts hok]
  dsimp only
  rw [if_neg (by simp [hbusy', hage, hage0, hage2]), if_neg (by simp [hclosed']), hv]
  exact finish_of_calm (t := s.validating h) hc (s.validating_spec h).1.fcl

/-- The state in which a validation has ended. -/
def State.validated (s : State) : State :=
  ({ s with jobs := { s.jobs with validate := none } } : State).withArea 0 { s.area 0 with busy := false }

theorem State.updArea_validated (hareas : s.hpt.areas.length = 3) :
    ({ s with jobs := { s.jobs with validate := none } } : State).updArea 0 (fun a => { a with busy := false }) = s.validated :=
  State.updArea_eq (s := { s with jobs := { s.jobs with validate := none } }) (show 0 < s.hpt.areas.length by omega) _

/-- A valid image has become the staged schedule (R171). -/
def State.validPassed (s : State) (im : Image) : State :=
  (({ s.validated with sched := { s.sched with staged := some im } } : State).setReg Reg.WGT_SCHED_STATE 0 0 2).setReg
    Reg.WGT_SCHED_STAGED_TAG 0 0 im.head.tag

/-- A failure of an image is shown (R171). -/
def State.validFailed (s : State) (e : LoadFail) : State :=
  (s.validated.setReg Reg.WGT_SCHED_STATE 0 0 (e.status * 2 ^ 8 + 3)).setReg Reg.WGT_SCHED_ERR 0 0 (e.site * 2 ^ 16 + e.idx % 2 ^ 14)

theorem State.onlyRegs_validPassed (s : State) (im : Image) :
    OnlyRegs { s.validated with sched := { s.sched with staged := some im } } (s.validPassed im)
      [Reg.WGT_SCHED_STATE.addr 0 0, Reg.WGT_SCHED_STAGED_TAG.addr 0 0] :=
  (onlyRegs_setReg _ _ _ _ _).append (onlyRegs_setReg _ _ _ _ _)

theorem State.onlyRegs_validFailed (s : State) (e : LoadFail) :
    OnlyRegs s.validated (s.validFailed e) [Reg.WGT_SCHED_STATE.addr 0 0, Reg.WGT_SCHED_ERR.addr 0 0] :=
  (onlyRegs_setReg _ _ _ _ _).append (onlyRegs_setReg _ _ _ _ _)

theorem State.reg_validPassed (s : State) (im : Image) :
    (s.validPassed im).reg Reg.WGT_SCHED_STATE 0 0 = 2 ∧ (s.validPassed im).reg Reg.WGT_SCHED_STAGED_TAG 0 0 = im.head.tag % 2 ^ 64 :=
  ⟨(State.reg_setReg_of_ne _ _ _ _ _ _ _ _ (by decide)).trans (State.reg_setReg_self _ _ _ _ _), State.reg_setReg_self _ _ _ _ _⟩

theorem State.reg_validFailed (s : State) (e : LoadFail) :
    (s.validFailed e).rf Reg.WGT_SCHED_STATE 0 0 1 0 = 3 ∧ (e.status < 256 → (s.validFailed e).rf Reg.WGT_SCHED_STATE 0 0 15 8 = e.status) ∧
    (s.validFailed e).reg Reg.WGT_SCHED_ERR 0 0 = (e.site * 2 ^ 16 + e.idx % 2 ^ 14) % 2 ^ 64 := by
  have hstate : (s.validFailed e).reg Reg.WGT_SCHED_STATE 0 0 = (e.status * 2 ^ 8 + 3) % 2 ^ 64 :=
    (State.reg_setReg_of_ne _ _ _ _ _ _ _ _ (by decide)).trans (State.reg_setReg_self _ _ _ _ _)
  refine ⟨?_, fun hstatus => ?_, State.reg_setReg_self _ _ _ _ _⟩
  · rw [State.rf, hstate]
    unfold bitsOf
    omega
  · rw [State.rf, hstate]
    unfold bitsOf
    omega

theorem exec_schedValidationDone_of_pass {r : Reply} {im : Image} (hc : s.calm) (hareas : s.hpt.areas.length = 3) (hjob : s.jobs.validate = some r)
    (hpass : s.loadFail im = none) : exec (.schedValidationDone im) s = .next ((s.validPassed im).answer r stOk []) := by
  show execSchedValidationDone im s = _
  rw [execSchedValidationDone]
  simp only [hjob, hpass, State.updArea_validated hareas]
  exact finish_of_calm hc (State.answer_ok_fcl (s.validPassed im) r [])

theorem exec_schedValidationDone_of_fail {r : Reply} {im : Image} {e : LoadFail} (hc : s.calm) (hareas : s.hpt.areas.length = 3)
    (hjob : s.jobs.validate = some r) (hfail : s.loadFail im = some e) (hroom : s.room Reg.HPT_CMD_REJECT 0 0 1) :
    exec (.schedValidationDone im) s = .next ((s.validFailed e).answer r e.status []) := by
  have hroom' : (s.validFailed e).room Reg.HPT_CMD_REJECT 0 0 1 := (s.onlyRegs_validFailed e).room (by decide) hroom
  show execSchedValidationDone im s = _
  rw [execSchedValidationDone]
  simp only [hjob, hfail, State.updArea_validated hareas]
  exact finish_of_calm hc (State.answer_fcl_of_room (s.validFailed e) r _ [] hroom')

end

/-- Settles O35, clause by clause. -/
theorem stagingAndValidation : Obligations.StagingAndValidation := by
  unfold Obligations.StagingAndValidation
  refine ⟨fun s h x kind size offset bytes digest hc hlow hhigh hareas => ?_, fun s h x r im hc hareas => ?_⟩
  · intro u a is ok
    refine ⟨fun hok hopen hbusy => ?_, fun hok hopen hfits hlen hwf => ?_, fun hok hopen hdigest => ?_⟩
    · refine ⟨_, _, stageOpen_done hc hlow hhigh hareas size hok hopen hbusy, rfl, fun hkind => if_neg hkind, fun hkind => ?_⟩
      rw [if_pos hkind]
      exact State.dropStaged_spec _
    · exact ⟨_, _, stageData_done hc hlow hhigh hareas hok hopen hfits hlen, rfl, rfl, Mem.read_write_self _ _ _, fun k n hdisjoint =>
        Mem.read_write_of_disjoint _ _ _ hdisjoint⟩
    · exact ⟨_, stageClose_done hc hlow hhigh hareas hok hopen hdigest, rfl⟩
  · intro u shown
    refine ⟨fun hok hbusy hclosed hage0 hage2 => ?_, fun hjob => ⟨fun hpass => ?_, fun e hfail hroom => ?_⟩⟩
    · obtain ⟨honly, hstate⟩ := s.validating_spec h
      exact ⟨_, exec_schedValidate_of_closed hc hareas hok hbusy hclosed hage0 hage2, honly.1, hstate, fun w hw => honly.2 w (by simpa using hw)⟩
    · obtain ⟨hshown, htag⟩ := s.reg_validPassed im
      have honly := s.onlyRegs_validPassed im
      refine ⟨_, exec_schedValidationDone_of_pass hc hareas hjob hpass, honly.1, hshown, htag, fun w hw => honly.2 w fun hin => hw ?_⟩
      simp only [shown, List.mem_cons, List.not_mem_nil, or_false] at hin ⊢
      tauto
    · obtain ⟨hstate, hstatus, hplace⟩ := s.reg_validFailed e
      have honly := s.onlyRegs_validFailed e
      refine ⟨_, exec_schedValidationDone_of_fail hc hareas hjob hfail hroom, honly.1, hstate, hstatus, hplace, fun w hw => honly.2 w fun hin => hw ?_⟩
      simp only [shown, List.mem_cons, List.not_mem_nil, or_false] at hin ⊢
      tauto

end Sys2Proof.Machine
end

section
/-! SUPPORT. What a raise leaves whatever the reactions of its source (R404, R406): it writes the collector's registers of that source and of the
two that a full counter and a full buffer raise, the collector's own state, and the reset of a site's block. -/

namespace Sys2Proof.Machine

/-- The registers that a raise of a source can write. -/
def raiseAddrs (src : Nat) : List Nat :=
  [Reg.FCL_SAT_LAST.addr 0 0, Reg.FCL_SIG_NEXT.addr 0 0, Reg.FCL_SIG_DROPPED.addr 0 0, Reg.FCL_SIG_SUPPRESSED.addr 0 0] ++
    [0, 1, src].flatMap (fun n => [Reg.FCL_SRCn_COUNT.addr 0 n, Reg.FCL_SRCn_STAT.addr 0 n])

theorem mem_raiseAddrs {src a : Nat} : a ∈ raiseAddrs src ↔ a = Reg.FCL_SAT_LAST.addr 0 0 ∨ a = Reg.FCL_SIG_NEXT.addr 0 0 ∨
    a = Reg.FCL_SIG_DROPPED.addr 0 0 ∨ a = Reg.FCL_SIG_SUPPRESSED.addr 0 0 ∨
    ∃ n, (n = 0 ∨ n = 1 ∨ n = src) ∧ (a = Reg.FCL_SRCn_COUNT.addr 0 n ∨ a = Reg.FCL_SRCn_STAT.addr 0 n) := by
  simp only [raiseAddrs, List.mem_append, List.mem_cons, List.not_mem_nil, or_false, List.mem_flatMap, or_assoc]

/-- The sources that come with every raise write no more than it does. -/
theorem raiseAddrs_nested {n : Nat} (hn : n < 2) (src : Nat) : ∀ a ∈ raiseAddrs n, a ∈ raiseAddrs src := by
  intro a hin
  rw [mem_raiseAddrs] at hin ⊢
  obtain h | h | h | h | ⟨m, hm, hrest⟩ := hin
  · exact .inl h
  · exact .inr (.inl h)
  · exact .inr (.inr (.inl h))
  · exact .inr (.inr (.inr (.inl h)))
  · exact .inr (.inr (.inr (.inr ⟨m, by omega, hrest⟩)))

/-- `t` is `s` but for the registers at the addresses of `l`, the collector, the count of free values and, where `blocks` says so, resets of
blocks of cores. -/
structure RaiseFrame (l : List Nat) (blocks : Bool) (s t : State) : Prop where
  state : ∃ regs fcl free cores, t = { s with regs := regs, fcl := fcl, freeCtr := free, cores := cores }
  word : ∀ a, a ∉ l → t.word a = s.word a
  store : t.fcl.store = s.fcl.store
  cores : blocks = false → t.cores = s.cores

section
variable {l k : List Nat} {b : Bool} {src : Nat} {s t u : State}

theorem RaiseFrame.refl (s : State) : RaiseFrame l b s s := ⟨⟨_, _, _, _, rfl⟩, fun _ _ => rfl, rfl, fun _ => rfl⟩

theorem RaiseFrame.trans (h : RaiseFrame l b s t) (k : RaiseFrame l b t u) : RaiseFrame l b s u where
  state := by
    obtain ⟨_, _, _, _, rfl⟩ := h.state
    obtain ⟨_, _, _, _, rfl⟩ := k.state
    exact ⟨_, _, _, _, rfl⟩
  word a ha := (k.word a ha).trans (h.word a ha)
  store := k.store.trans h.store
  cores hs := (k.cores hs).trans (h.cores hs)

theorem RaiseFrame.mono (h : RaiseFrame l false s t) (hl : ∀ a ∈ l, a ∈ k) : RaiseFrame k b s t :=
  ⟨h.state, fun a ha => h.word a fun hin => ha (hl a hin), h.store, fun _ => h.cores rfl⟩

theorem RaiseFrame.reg (h : RaiseFrame l b s t) {f : RegFam} {i j : Nat} (ha : f.addr i j ∉ l) : t.reg f i j = s.reg f i j :=
  State.reg_of_word (h.word _ ha)

theorem RaiseFrame.rf (h : RaiseFrame l b s t) {f : RegFam} {i j : Nat} (ha : f.addr i j ∉ l) (hi lo : Nat) :
    t.rf f i j hi lo = s.rf f i j hi lo := State.rf_of_word (h.word _ ha) hi lo

theorem OnlyRegs.raiseFrame (h : OnlyRegs s t l) : RaiseFrame l b s t :=
  ⟨⟨t.regs, _, _, _, h.1⟩, h.2, by rw [h.1], fun _ => by rw [h.1]⟩

theorem RaiseFrame.setReg (f : RegFam) (i j v : Nat) (hf : f.addr i j ∈ l) : RaiseFrame l b s (s.setReg f i j v) :=
  ((onlyRegs_setReg s f i j v).mono fun _ ha => List.mem_singleton.mp ha ▸ hf).raiseFrame

theorem RaiseFrame.bump (f : RegFam) (i j n : Nat) (hf : f.addr i j ∈ l) : RaiseFrame l b s (s.bump f i j n).1 := by
  unfold State.bump
  dsimp only
  split
  · exact .refl s
  · split
    · exact .setReg _ _ _ _ hf
    · exact .setReg _ _ _ _ hf

theorem RaiseFrame.setFcl (fcl : Fcl) (h : fcl.store = s.fcl.store) : RaiseFrame l b s { s with fcl := fcl } :=
  ⟨⟨_, _, _, _, rfl⟩, fun _ _ => rfl, h, fun _ => rfl⟩

theorem RaiseFrame.react (unit mask : Nat) (fresh : Bool) : RaiseFrame l (unitIsSite src) s (s.react src unit mask fresh) := by
  unfold State.react
  show RaiseFrame l (unitIsSite src) s (if (mask.testBit 2 && unitIsSite src && s.enabled unit) = true then _ else _)
  by_cases h : (mask.testBit 2 && unitIsSite src && s.enabled unit) = true
  · rw [if_pos h]
    refine ⟨⟨_, _, _, _, rfl⟩, fun _ _ => rfl, rfl, fun hs => ?_⟩
    simp [hs] at h
  · rw [if_neg h]
    exact .setFcl _ rfl

section
variable {again : State → Nat → Nat → State}
  (hagain : ∀ t n, n < 2 → RaiseFrame (raiseAddrs src) (unitIsSite src) t (again t n devUnit))
include hagain

theorem RaiseFrame.countWith (f : RegFam) (j : Nat) (hf : f.addr 0 j ∈ raiseAddrs src) :
    RaiseFrame (raiseAddrs src) (unitIsSite src) s (s.countWith again f j) := by
  have hbump := RaiseFrame.bump (s := s) (b := unitIsSite src) f 0 j 1 hf
  unfold State.countWith
  split
  · exact (hbump.trans (.setReg _ _ _ _ (mem_raiseAddrs.mpr (.inl rfl)))).trans (hagain _ 0 (by decide))
  · exact hbump

theorem RaiseFrame.captureWith (unit : Nat) (extra : List Byte) :
    RaiseFrame (raiseAddrs src) (unitIsSite src) s (s.captureWith again src unit extra) := by
  have hput : ∀ (t : State) r, RaiseFrame (raiseAddrs src) (unitIsSite src) t (t.putRecord r) := fun t r =>
    (RaiseFrame.setReg Reg.FCL_SIG_NEXT 0 0 ((r.number + 1) % 2 ^ 32) (mem_raiseAddrs.mpr (.inr (.inl rfl)))).trans (.setFcl _ rfl)
  have hlast := fun v => RaiseFrame.setFcl (l := raiseAddrs src) (b := unitIsSite src) (s := s) { s.fcl with lastCap := v } rfl
  have hfree : ∀ t : State, RaiseFrame (raiseAddrs src) (unitIsSite src) t t.nextFree := fun t =>
    ⟨⟨_, _, _, _, rfl⟩, fun _ _ => rfl, rfl, fun _ => rfl⟩
  unfold State.captureWith
  dsimp only
  split
  · exact .countWith hagain _ _ (mem_raiseAddrs.mpr (.inr (.inr (.inr (.inl rfl)))))
  · split
    · exact ((hlast _).trans (.countWith hagain _ _ (mem_raiseAddrs.mpr (.inr (.inr (.inl rfl)))))).trans (hagain _ 1 (by decide))
    · split
      · exact (((hlast _).trans (hput _ _)).trans (hfree _)).trans (hfree _)
      · exact (hlast _).trans (hput _ _)

theorem RaiseFrame.raiseWith (unit : Nat) (extra : List Byte) :
    RaiseFrame (raiseAddrs src) (unitIsSite src) s (s.raiseWith again src unit extra) := by
  have hreacted := fun v mask fresh => ((RaiseFrame.countWith (s := s) hagain Reg.FCL_SRCn_COUNT src
    (mem_raiseAddrs.mpr (.inr (.inr (.inr (.inr ⟨src, .inr (.inr rfl), .inl rfl⟩)))))).trans
    (.setReg Reg.FCL_SRCn_STAT 0 src v (mem_raiseAddrs.mpr (.inr (.inr (.inr (.inr ⟨src, .inr (.inr rfl), .inr rfl⟩))))))).trans
    (.react unit mask fresh)
  unfold State.raiseWith
  dsimp only
  split
  · exact (hreacted _ _ _).trans (.captureWith hagain _ _)
  · exact hreacted _ _ _

end

theorem raiseFrame_raiseN (fuel : Nat) : ∀ (s : State) (src unit : Nat) (extra : List Byte),
    RaiseFrame (raiseAddrs src) (unitIsSite src) s (s.raiseN fuel src unit extra) := by
  induction fuel with
  | zero => exact fun s _ _ _ => .refl s
  | succ fuel ih =>
    refine fun s src unit extra => .raiseWith (fun t n hn => ?_) unit extra
    have hsite : unitIsSite n = false := by interval_cases n <;> decide
    exact RaiseFrame.mono (hsite ▸ ih t n devUnit []) (raiseAddrs_nested hn src)

theorem raiseFrame_raise (s : State) (src unit : Nat) : RaiseFrame (raiseAddrs src) (unitIsSite src) s (s.raise src unit) :=
  raiseFrame_raiseN 5 s src unit []

/-- An error counter writes itself and, where it fills, what its saturation raises (R412). -/
theorem raiseFrame_err (s : State) (f : RegFam) (i j n : Nat) : RaiseFrame (f.addr i j :: raiseAddrs 0) b s (s.err f i j n) := by
  have hbump := RaiseFrame.bump (s := s) (l := f.addr i j :: raiseAddrs 0) (b := b) f i j n List.mem_cons_self
  unfold State.err
  dsimp only
  split
  · exact (hbump.trans (.setReg _ _ _ _ (List.mem_cons_of_mem _ (mem_raiseAddrs.mpr (.inl rfl))))).trans
      (RaiseFrame.mono (raiseFrame_raise _ 0x00 devUnit) fun _ ha => List.mem_cons_of_mem _ ha)
  · exact hbump

end
end Sys2Proof.Machine
end

section
/-! SUPPORT. Errors that stand in memory (R355, R356): what meeting them leaves, and that meeting them twice is meeting them once. -/

namespace Sys2Proof.Machine

/-! ### What a word read with errors leaves -/

/-- The registers that say which memory is in service, and whether a shutdown holds. -/
def serviceAddrs : List Nat :=
  (List.range 8).map (fun k => Reg.MEM_STACKs_STATE.addr k 0) ++ (List.range 32).map (fun k => Reg.MEM_FARc_STATE.addr k 0) ++
    [Reg.FCL_SRCn_STAT.addr 0 0x72, Reg.FCL_SRCn_STAT.addr 0 0x81]

/-- `t` is `s` as far as the issue of instructions and the service of memories go. -/
structure ReadFrame (s t : State) : Prop where
  cores : t.cores = s.cores
  siteEn : t.siteEn = s.siteEn
  sense : t.sense = s.sense
  latent : t.latent = s.latent
  word : ∀ a ∈ serviceAddrs, t.word a = s.word a

theorem stackOf_lt (a : Nat) : stackOf a < 8 := by
  unfold stackOf nearLoc
  dsimp only
  split <;> omega

theorem channelOf_lt (a : Nat) : channelOf a < 32 := Nat.mod_lt _ (by decide)

section
variable {s t u : State} {l : List Nat}

theorem ReadFrame.refl (s : State) : ReadFrame s s := ⟨rfl, rfl, rfl, rfl, fun _ _ => rfl⟩

theorem ReadFrame.trans (h : ReadFrame s t) (k : ReadFrame t u) : ReadFrame s u :=
  ⟨k.cores.trans h.cores, k.siteEn.trans h.siteEn, k.sense.trans h.sense, k.latent.trans h.latent, fun a ha => (k.word a ha).trans (h.word a ha)⟩

theorem RaiseFrame.readFrame (h : RaiseFrame l false s t) (hl : ∀ a ∈ serviceAddrs, a ∉ l) : ReadFrame s t := by
  refine ⟨h.cores rfl, ?_, ?_, ?_, fun a ha => h.word a (hl a ha)⟩
  all_goals
    obtain ⟨_, _, _, _, rfl⟩ := h.state
    rfl

theorem ReadFrame.setMem (m : Mem) (p : List Nat) (n : Nat) : ReadFrame s { s with mem := m, poison := p, freeCtr := n } :=
  ⟨rfl, rfl, rfl, rfl, fun _ _ => rfl⟩

theorem ReadFrame.wide {f : RegFam} {i j n : Nat} (h : f.addr i j ∉ serviceAddrs) : ReadFrame s (s.wide f i j n) :=
  ((onlyRegs_wide s f i j n).raiseFrame).readFrame fun _ ha hin => h (List.mem_singleton.mp hin ▸ ha)

theorem ReadFrame.err {f : RegFam} {i j n : Nat} (h : f.addr i j ∉ serviceAddrs) : ReadFrame s (s.err f i j n) := by
  refine (raiseFrame_err s f i j n).readFrame fun a ha hin => ?_
  rcases List.mem_cons.mp hin with rfl | hin
  · exact h ha
  · exact (by decide : ∀ a ∈ serviceAddrs, a ∉ raiseAddrs 0) a ha hin

theorem ReadFrame.notePoison (m a : Nat) : ReadFrame s (s.notePoison m a) :=
  (ReadFrame.err (by decide)).trans (((onlyRegs_setReg _ _ _ _ _).raiseFrame).readFrame (by decide))

theorem ReadFrame.raiseWord {src : Nat} (hsrc : src = 0x58 ∨ src = 0x59) (unit syn bit79 : Nat) : ReadFrame s (s.raiseWord src unit syn bit79) := by
  rcases hsrc with rfl | rfl
  · exact (raiseFrame_raiseN 5 s 0x58 unit _).readFrame (by decide)
  · exact (raiseFrame_raiseN 5 s 0x59 unit _).readFrame (by decide)

theorem ReadFrame.nearWord (s : State) (a : Nat) (err : BitVec 80) : ReadFrame s (s.nearWord a err) := by
  have hce : ∀ k < 8, Reg.MEM_STACKs_CE.addr k 0 ∉ serviceAddrs := by decide
  have hue : ∀ k < 8, Reg.MEM_STACKs_UE.addr k 0 ∉ serviceAddrs := by decide
  have hcounted : ∀ e, ReadFrame s (if e = err then s else s.wide Reg.MEM_STACKs_CE (stackOf a) 0 1) := fun e => by
    split
    · exact .refl s
    · exact .wide (hce _ (stackOf_lt a))
  unfold State.nearWord
  dsimp only
  split
  · split
    · exact hcounted _
    · exact (hcounted _).trans (.setMem _ _ _)
  · exact (((ReadFrame.setMem _ _ _).trans (.err (hue _ (stackOf_lt a)))).trans (.notePoison _ _)).trans (.raiseWord (.inl rfl) _ _ _)

theorem ReadFrame.farWord (s : State) (a : Nat) (err : BitVec 80) : ReadFrame s (s.farWord a err) := by
  have hce : ∀ k < 32, Reg.MEM_FARc_CE.addr k 0 ∉ serviceAddrs := by decide
  have hue : ∀ k < 32, Reg.MEM_FARc_UE.addr k 0 ∉ serviceAddrs := by decide
  have hspoil : ∀ t : State, ReadFrame t (t.spoilBlock a) := fun t => .setMem _ _ _
  have hcounted : ∀ e, ReadFrame s (if e = err then s else s.wide Reg.MEM_FARc_CE (channelOf a) 0 1) := fun e => by
    split
    · exact .refl s
    · exact .wide (hce _ (channelOf_lt a))
  unfold State.farWord
  dsimp only
  split
  · split
    · exact (hcounted _).trans (.setMem _ _ _)
    · exact ((hcounted _).trans (.setMem _ _ _)).trans (hspoil _)
  · exact ((((hspoil s).trans (.setMem _ _ _)).trans (.err (hue _ (channelOf_lt a)))).trans (.notePoison _ _)).trans (.raiseWord (.inr rfl) _ _ _)

theorem ReadFrame.readWord (s : State) (w : Nat) (err : BitVec 80) : ReadFrame s (s.readWord w err) := by
  unfold State.readWord
  split
  · exact .nearWord _ _ _
  · exact .farWord _ _ _

theorem ReadFrame.memUp (h : ReadFrame s t) (a : Nat) : t.memUp a = s.memUp a := by
  have hnear : ∀ k < 8, Reg.MEM_STACKs_STATE.addr k 0 ∈ serviceAddrs := by decide
  have hfar : ∀ k < 32, Reg.MEM_FARc_STATE.addr k 0 ∈ serviceAddrs := by decide
  rw [State.memUp, State.rf_of_word (h.word _ (hnear _ (stackOf_lt a))), State.rf_of_word (h.word _ (hfar _ (channelOf_lt a))), State.memUp]

theorem ReadFrame.core (h : ReadFrame s t) (k : Nat) : t.core k = s.core k := by rw [State.core, State.core, h.cores]

theorem ReadFrame.canIssue (h : ReadFrame s t) (site : Nat) : t.canIssue site = s.canIssue site := by
  have hen : t.enabled site = s.enabled site := by rw [State.enabled, State.enabled, h.siteEn]
  have hshut : t.shut = s.shut := by
    rw [State.shut, State.shut, h.sense, State.rf_of_word (h.word _ (by decide)), State.rf_of_word (h.word _ (by decide))]
  rw [State.canIssue, State.canIssue, hen, hshut, h.core]

/-! ### Meeting errors -/

/-- Whether an error that stands is met by a read of `n` bytes at `a`. -/
def State.hits (s : State) (a n : Nat) (x : Nat × BitVec 80) : Bool := decide (a < 8 * x.1 + 8 ∧ 8 * x.1 < a + n) && s.memUp (8 * x.1)

/-- A word is read with the errors that stand in it, which then stand no more. -/
def State.meetWord (s : State) (x : Nat × BitVec 80) : State := { s with latent := SMap.erase s.latent x.1 }.readWord x.1 x.2

theorem State.meet_eq (s : State) (a n : Nat) : s.meet a n = (s.latent.filter (s.hits a n)).foldl State.meetWord s := rfl

/-- Words read one after the other leave the service as it was, and of the errors that stand those of other words. -/
theorem State.foldl_meetWord (l : List (Nat × BitVec 80)) : ∀ s : State, ∃ m, ReadFrame { s with latent := m } (l.foldl State.meetWord s) ∧
    ∀ c ∈ m, c ∈ s.latent ∧ ∀ x ∈ l, c.1 ≠ x.1 := by
  induction l with
  | nil => exact fun s => ⟨s.latent, .refl s, fun c hc => ⟨hc, by simp⟩⟩
  | cons x t ih =>
    intro s
    obtain ⟨m, hframe, hleft⟩ := ih (s.meetWord x)
    have hword : ReadFrame { s with latent := SMap.erase s.latent x.1 } (s.meetWord x) := .readWord _ _ _
    refine ⟨m, ⟨hframe.cores.trans hword.cores, hframe.siteEn.trans hword.siteEn, hframe.sense.trans hword.sense, hframe.latent, fun a ha =>
      (hframe.word a ha).trans (hword.word a ha)⟩, fun c hc => ?_⟩
    obtain ⟨hin, hother⟩ := hleft c hc
    rw [hword.latent] at hin
    obtain ⟨hold, hne⟩ := List.mem_filter.mp hin
    exact ⟨hold, by simpa using ⟨by simpa using hne, fun a b hab => hother (a, b) hab⟩⟩

/-- A read leaves no error that it would meet again. -/
theorem State.meet_meet (s : State) (a n : Nat) : (s.meet a n).meet a n = s.meet a n := by
  obtain ⟨m, hframe, hleft⟩ := State.foldl_meetWord (s.latent.filter (s.hits a n)) s
  rw [← State.meet_eq] at hframe
  have hnone : (s.meet a n).latent.filter ((s.meet a n).hits a n) = [] := by
    rw [hframe.latent, List.filter_eq_nil_iff]
    intro c hc hhit
    obtain ⟨hold, hother⟩ := hleft c hc
    have hup : (s.meet a n).memUp (8 * c.1) = s.memUp (8 * c.1) := hframe.memUp _
    rw [State.hits, hup] at hhit
    exact hother c (List.mem_filter.mpr ⟨hold, hhit⟩) rfl
  rw [State.meet_eq (s.meet a n), hnone]
  rfl

/-- A read from device memory meets the errors of its range before anything else (R355). -/
theorem exec_mrd_meet {x : Issue} (f : MemF) (hruns : s.runs x) :
    let b := memfAddr f ((s.core x.site).stepIdx x)
    let n := 64 * (f.gm1.toNat + 1)
    inRegion b n = true → exec (.mrd x f) s = exec (.mrd x f) (s.meet b n) := by
  intro b n hin
  obtain ⟨m, hframe, -⟩ := State.foldl_meetWord (s.latent.filter (s.hits b n)) s
  rw [← State.meet_eq] at hframe
  have hcore : (s.meet b n).core x.site = s.core x.site := hframe.core x.site
  have hissue : (s.meet b n).canIssue x.site = s.canIssue x.site := hframe.canIssue x.site
  have hruns' : (s.meet b n).runs x := by
    unfold State.runs at hruns ⊢
    rwa [hissue, hcore]
  have hin' : inRegion (memfAddr f (((s.meet b n).core x.site).stepIdx x)) n = true := by rwa [hcore]
  show execMrd x f s = execMrd x f (s.meet b n)
  rw [execMrd, execMrd, State.memGuard_of_inRegion hin, State.memGuard_of_inRegion hin', State.issue_of_runs _ hruns, State.issue_of_runs _ hruns',
    hcore]
  dsimp only
  rw [State.meet_meet]

end
end Sys2Proof.Machine
end

section
/-! SUPPORT. Words in error, and the patrol scrub (R354 to R357). -/

namespace Sys2Proof.Machine

/-! ### Raises with a syndrome -/

section
variable {s t : State} {src unit : Nat}

/-- What a record carries besides changes the record alone. -/
theorem State.captureWith_extra (again : State → Nat → Nat → State) (s : State) (src unit : Nat) (extra : List Byte) :
    ∃ b, s.captureWith again src unit extra =
      { s.captureWith again src unit [] with fcl := { (s.captureWith again src unit []).fcl with buffer := b } } := by
  unfold State.captureWith
  dsimp only
  split
  · exact ⟨_, rfl⟩
  · split
    · exact ⟨_, rfl⟩
    · split
      · exact ⟨_, rfl⟩
      · exact ⟨_, rfl⟩

theorem State.raiseN_extra (s : State) (src unit : Nat) (extra : List Byte) :
    ∃ b, s.raiseN 5 src unit extra = { s.raise src unit with fcl := { (s.raise src unit).fcl with buffer := b } } := by
  unfold State.raise State.raiseN State.raiseWith
  dsimp only
  split
  · exact State.captureWith_extra _ _ _ _ _
  · exact ⟨_, rfl⟩

/-- A raise with a syndrome differs from one without in its record alone. -/
theorem raised_raiseN (hs : src < 256) (hu : unit < 1024) (hm : s.mild [src]) (extra : List Byte) :
    Raised s (s.raiseN 5 src unit extra) src unit := by
  obtain ⟨b, hb⟩ := s.raiseN_extra src unit extra
  obtain ⟨hstate, hstore, hpairs, hcalm, hpending, hunit, hcount, hword⟩ := State.raise_raised hs hu hm
  rw [hb]
  refine ⟨?_, hstore, hpairs, hcalm, hpending, hunit, hcount, hword⟩
  generalize s.raise src unit = r at hstate ⊢
  rw [hstate]

theorem finish_of_raised (h : Raised s t src unit) (hc : s.calm) : finish t = .next t := by
  obtain ⟨h1, h2, h3⟩ := h.calm hc
  rw [finish_eq, State.settle_of_calm _ h1 h2 h3]

end

theorem length_flipWord (bs : List Byte) (err : BitVec 80) : (flipWord bs err).length = 8 := by simp [flipWord, toLE]

/-! ### The scrub -/

/-- Every error of one bit is corrected (R354). -/
theorem bchLeft_oneBit : ∀ b, b < 80 → bchLeft (1 <<< b : BitVec 80) = some 0 := by decide +kernel

theorem bchLeft_zero : bchLeft 0 = some 0 := by decide +kernel

section
variable {s : State} {a : Nat} {err : BitVec 80}

theorem stackOf_word (a : Nat) : stackOf (8 * (a / 8)) = stackOf a := by
  unfold stackOf nearLoc
  dsimp only
  split <;> split <;> omega

theorem State.memUp_word (hnear : a < 0xA000000000) : s.memUp (8 * (a / 8)) = s.memUp a := by
  have hlow : a < farBase := hnear.trans_le (by decide)
  rw [State.memUp, State.memUp, if_pos hlow, if_pos (by omega), stackOf_word]

theorem State.spoil_of_sound (hl : s.latent = []) (w : Nat) (herr : err ≠ 0) : s.spoil w err = { s with latent := [(w, err)] } := by
  have hxor : (0 : BitVec 80) ^^^ err = err := BitVec.zero_xor
  simp only [State.spoil, hl, SMap.upd, SMap.get, SMap.put, hxor, if_neg herr]
  rfl

theorem exec_patrolScrub_near (hnear : a < 0xA000000000) (hup : s.memUp a = true) :
    exec (.patrolScrub .near a err) s =
      finish (if s.rf Reg.MEM_SCRUB 0 0 31 31 = 1 then (s.spoil (a / 8) err).meet a 1 else s.spoil (a / 8) err) := by
  show execPatrolScrub .near a err s = _
  simp [execPatrolScrub, hnear, hup]

/-- The scrub reads the word at once. -/
theorem State.meet_spoil (hl : s.latent = []) (hnear : a < 0xA000000000) (hup : s.memUp a = true) (herr : err ≠ 0) :
    (s.spoil (a / 8) err).meet a 1 = s.nearWord (8 * (a / 8)) err := by
  have hword : ({ s with latent := [(a / 8, err)] } : State).hits a 1 (a / 8, err) = true := by
    have hup' : ({ s with latent := [(a / 8, err)] } : State).memUp (8 * (a / 8)) = true := (State.memUp_word hnear).trans hup
    rw [State.hits, hup', Bool.and_true, decide_eq_true_eq]
    dsimp only
    omega
  have hlow : 8 * (a / 8) < farBase := by
    have : a < farBase := hnear.trans_le (by decide)
    omega
  have hback : ({ s with latent := [] } : State) = s := by rw [← hl]
  rw [State.spoil_of_sound hl _ herr, State.meet_eq]
  simp only [List.filter_cons, hword, if_true, List.filter_nil, List.foldl_cons, List.foldl_nil, State.meetWord]
  rw [State.readWord, if_pos hlow]
  simp [SMap.erase, hback]


theorem exec_patrolScrub_of_corrected (hc : s.calm) (hscrub : s.rf Reg.MEM_SCRUB 0 0 31 31 = 1) (hl : s.latent = []) (hnear : a < 0xA000000000)
    (hup : s.memUp a = true) (herr : err ≠ 0) (hleft : bchLeft err = some 0) :
    exec (.patrolScrub .near a err) s = .next (s.wide Reg.MEM_STACKs_CE (stackOf a) 0 1) := by
  rw [exec_patrolScrub_near hnear hup, if_pos hscrub, State.meet_spoil hl hnear hup herr, State.nearWord]
  simp only [hleft, stackOf_word, if_neg herr.symm, if_true]
  exact (onlyRegs_wide _ _ _ _ _).finish hc

/-- The state after an uncorrectable word of near memory has been poisoned, counted and noted. -/
def State.poisoned (s : State) (a : Nat) (err : BitVec 80) : State :=
  (({ s with mem := Mem.write s.mem (8 * (a / 8)) (flipWord (Mem.read s.mem (8 * (a / 8)) 8) err), poison := addPoison s.poison (a / 8) } :
    State).err Reg.MEM_STACKs_UE (stackOf a) 0 1).notePoison 0 (8 * (a / 8))

theorem State.poisoned_spec (hue : s.room Reg.MEM_STACKs_UE (stackOf a) 0 1) (hcreated : s.room Reg.MEM_POISON_CREATED 0 0 1) :
    OnlyRegs { s with mem := Mem.write s.mem (8 * (a / 8)) (flipWord (Mem.read s.mem (8 * (a / 8)) 8) err), poison := addPoison s.poison (a / 8) }
      (s.poisoned a err) [Reg.MEM_STACKs_UE.addr (stackOf a) 0, Reg.MEM_POISON_CREATED.addr 0 0, Reg.MEM_POISON_LAST.addr 0 0] ∧
    (s.poisoned a err).reg Reg.MEM_STACKs_UE (stackOf a) 0 = s.reg Reg.MEM_STACKs_UE (stackOf a) 0 + 1 ∧
    (s.poisoned a err).reg Reg.MEM_POISON_CREATED 0 0 = s.reg Reg.MEM_POISON_CREATED 0 0 + 1 ∧
    (s.poisoned a err).reg Reg.MEM_POISON_LAST 0 0 = 8 * (a / 8) % 2 ^ 64 := by
  have hne : ∀ k < 8, Reg.MEM_POISON_CREATED.addr 0 0 ∉ [Reg.MEM_STACKs_UE.addr k 0] ∧ Reg.MEM_STACKs_UE.addr k 0 ∉ [Reg.MEM_POISON_CREATED.addr 0 0] ∧
    Reg.MEM_STACKs_UE.addr k 0 ∉ [Reg.MEM_POISON_LAST.addr 0 0] := by decide
  obtain ⟨hne1, hne2, hne3⟩ := hne _ (stackOf_lt a)
  generalize hp : ({ s with mem := Mem.write s.mem (8 * (a / 8)) (flipWord (Mem.read s.mem (8 * (a / 8)) 8) err),
                            poison := addPoison s.poison (a / 8) } : State) = p
  have hregs : p.regs = s.regs := by rw [← hp]
  have hue' : p.room Reg.MEM_STACKs_UE (stackOf a) 0 1 := State.room_of_reg (State.reg_congr hregs _ _ _) hue
  have h1 := onlyRegs_err hue'
  have hcreated' := h1.room (f := Reg.MEM_POISON_CREATED) (i := 0) (j := 0) (n := 1) hne1
    (State.room_of_reg (State.reg_congr hregs _ _ _) hcreated)
  have h2 := onlyRegs_err hcreated'
  have h3 := onlyRegs_setReg ((p.err Reg.MEM_STACKs_UE (stackOf a) 0 1).err Reg.MEM_POISON_CREATED 0 0 1) Reg.MEM_POISON_LAST 0 0
    (0 * 2 ^ 56 + 8 * (a / 8))
  have ht : s.poisoned a err = ((p.err Reg.MEM_STACKs_UE (stackOf a) 0 1).err Reg.MEM_POISON_CREATED 0 0 1).setReg Reg.MEM_POISON_LAST 0 0
      (0 * 2 ^ 56 + 8 * (a / 8)) := by
    rw [State.poisoned, hp]
    rfl
  rw [ht]
  refine ⟨(h1.append h2).append h3, ?_, ?_, ?_⟩
  · rw [h3.reg hne3, h2.reg hne2, State.reg_err_of_room hue', State.reg_congr hregs]
  · rw [h3.reg (by decide), State.reg_err_of_room hcreated', h1.reg hne1, State.reg_congr hregs]
  · rw [State.reg_setReg_self]
    omega

theorem exec_patrolScrub_of_uncorrectable (hc : s.calm) (hscrub : s.rf Reg.MEM_SCRUB 0 0 31 31 = 1) (hl : s.latent = []) (hnear : a < 0xA000000000)
    (hup : s.memUp a = true) (hleft : bchLeft err = none) (hue : s.room Reg.MEM_STACKs_UE (stackOf a) 0 1)
    (hcreated : s.room Reg.MEM_POISON_CREATED 0 0 1) (hmild : s.mild [0x58]) :
    ∃ t, exec (.patrolScrub .near a err) s = .next t ∧ Raised (s.poisoned a err) t 0x58 (stackOf a) := by
  have herr : err ≠ 0 := fun h => by
    rw [h, bchLeft_zero] at hleft
    exact absurd hleft (by decide)
  obtain ⟨honly, -⟩ := State.poisoned_spec (err := err) hue hcreated
  have hlt := stackOf_lt a
  have hraised := raised_raiseN (s := s.poisoned a err) (src := 0x58) (unit := stackOf a) (by decide) (by omega)
    (honly.mild (fun b hb => .inr (by
      have hhigh : ∀ k < 8, ∀ b ∈ [Reg.MEM_STACKs_UE.addr k 0, Reg.MEM_POISON_CREATED.addr 0 0, Reg.MEM_POISON_LAST.addr 0 0], 0x31800 ≤ b := by decide
      exact hhigh _ hlt b hb)) (by decide) hmild) (toLE 2 (bchSyndrome err) ++ toLE 1 (bit (err.getLsbD 79)))
  refine ⟨_, ?_, hraised⟩
  rw [exec_patrolScrub_near hnear hup, if_pos hscrub, State.meet_spoil hl hnear hup herr, State.nearWord]
  have hw : 8 * (a / 8) / 8 = a / 8 := by omega
  simp only [hleft, stackOf_word, hw]
  exact finish_of_raised hraised (honly.calm hc)

end
end Sys2Proof.Machine
end

section
/-! SUPPORT. Failed stacks and channels, march tests, reloads (R351, R361, R363, R369 to R371), and the statement about memory. -/

namespace Sys2Proof.Machine

section
variable {s t : State} {k site src : Nat}

/-- In flight, with the management set kept, a unit that fails is shown and raised, and the review after it changes nothing. -/
theorem finish_failed {q : State} {l : List Nat} (hc : s.calm) (hf : s.inFlight = true) (hm : s.mgmtLost = false) (honly : OnlyRegs s q l)
    (hl : ∀ a ∈ l, 0x90000 ≤ a) (hsrc : src < 256) (hunit : k < 1024) (hmild : s.mild [src]) :
    ∃ t, finish (q.raise src k).review = .next t ∧ Raised q t src k := by
  obtain ⟨hnext, hraised⟩ := finish_raise (honly.calm hc) hsrc hunit
    (honly.mild (fun a ha => .inr (by have := hl a ha; omega)) (by simpa using hsrc) hmild)
  have hapart : ∀ {f : RegFam} {i j : Nat}, f.addr i j < 0x90000 → f.addr i j ∉ l := fun h hin => absurd (hl _ hin) (by omega)
  have hflt : (q.raise src k).flt = s.flt := (congrArg State.flt hraised.1).trans (by rw [honly.1])
  have hstate : (q.raise src k).flightState = s.flightState := (hraised.rf (by decide) _ _).trans (honly.rf (hapart (by decide)) _ _)
  have hpair : ∀ p, (q.raise src k).pairState p = s.pairState p := fun p =>
    (State.rf_raise ⟨by decide, by decide⟩ q src k _ _).trans (honly.rf (hapart (by decide)) _ _)
  have hlanes : (q.raise src k).rf Reg.HPT_LINK_STATE 0 0 23 16 = s.rf Reg.HPT_LINK_STATE 0 0 23 16 :=
    (hraised.rf (by decide) _ _).trans (honly.rf (hapart (by decide)) _ _)
  have hreview : (q.raise src k).review = q.raise src k := by
    refine State.review_of_inFlight ?_ ?_
    · rw [State.inFlight, hstate, hflt]
      exact hf
    · rw [State.mgmtLost_iff, State.dieWorks_iff] at hm ⊢
      rwa [hpair, hpair, hlanes]
  exact ⟨_, hreview.symm ▸ hnext, hraised⟩

theorem exec_stackFailure_of_working (hc : s.calm) (hf : s.inFlight = true) (hm : s.mgmtLost = false) (hk : k < 8)
    (hstate : s.rf Reg.MEM_STACKs_STATE k 0 2 0 = 1 ∨ s.rf Reg.MEM_STACKs_STATE k 0 2 0 = 2) (hmild : s.mild [0x5A]) :
    ∃ t, exec (.stackFailure k) s = .next t ∧ Raised (s.setRf Reg.MEM_STACKs_STATE k 0 2 0 3) t 0x5A k := by
  have hexec : exec (.stackFailure k) s = finish ((s.setRf Reg.MEM_STACKs_STATE k 0 2 0 3).raise 0x5A k).review := by
    show execStackFailure k s = _
    rw [execStackFailure]
    exact if_pos ⟨hk, hstate⟩
  rw [hexec]
  exact finish_failed hc hf hm (onlyRegs_setRf s _ _ _ _ _ _) (by simp [RegFam.addr, Reg.MEM_STACKs_STATE]) (by decide) (by omega) hmild

theorem exec_channelFailure_of_working (hc : s.calm) (hf : s.inFlight = true) (hm : s.mgmtLost = false) (hk : k < 32)
    (hstate : s.rf Reg.MEM_FARc_STATE k 0 2 0 = 1 ∨ s.rf Reg.MEM_FARc_STATE k 0 2 0 = 2) (hmild : s.mild [0x5B]) :
    ∃ t, exec (.channelFailure k) s = .next t ∧ Raised (s.setRf Reg.MEM_FARc_STATE k 0 2 0 3) t 0x5B k := by
  have hexec : exec (.channelFailure k) s = finish ((s.setRf Reg.MEM_FARc_STATE k 0 2 0 3).raise 0x5B k).review := by
    show execChannelFailure k s = _
    rw [execChannelFailure]
    exact if_pos ⟨hk, hstate⟩
  rw [hexec]
  exact finish_failed hc hf hm (onlyRegs_setRf s _ _ _ _ _ _) (by simp [RegFam.addr, Reg.MEM_FARc_STATE]; omega) (by decide) (by omega) hmild

/-! ### March tests -/

/-- The state in which the march test of a site has ended: a destructive one leaves the scratchpad cleared. -/
def State.marched (s : State) (site : Nat) (preserve : Bool) : State :=
  let t : State := { s with jobs := { s.jobs with marches := [] } }
  if preserve then t else t.updCore site Core.clearSpm

theorem State.marched_spec (s : State) (site : Nat) (preserve : Bool) :
    s.marched site preserve = { s with cores := (s.marched site preserve).cores, jobs := { s.jobs with marches := [] } } ∧
    (∀ y, y ≠ site → (s.marched site preserve).core y = s.core y) ∧
    (s.marched site preserve).core site = (if preserve then s.core site else { s.core site with spm := [], spmPoison := [] }) := by
  cases preserve with
  | true => exact ⟨rfl, fun _ _ => rfl, rfl⟩
  | false => exact ⟨rfl, fun y hy => State.core_updCore_of_ne _ _ hy, State.core_updCore_self _ _ _⟩

theorem State.payLists_of_none (s : State) (site : Nat) (h : s.jobs.owed = []) : s.payLists site = s := by
  have hback : ({ s with jobs := { s.jobs with owed := [] } } : State) = s := by rw [← h]
  unfold State.payLists
  simp only [h, List.filter_nil, List.foldl_nil, hback, List.isEmpty_nil, if_true]
  split <;> rfl

theorem exec_marchTestDone_of_one {preserve : Bool} {fails : List Nat} {u : State} (hc : s.calm) (hjob : s.jobs.marches = [(site, preserve)])
    (howed : s.jobs.owed = []) (hu : (s.marched site preserve).marchResult site fails = u) {l : List Nat}
    (honly : OnlyRegs (s.marched site preserve) u l) : exec (.marchTestDone site fails) s = .next u := by
  have hjobs : u.jobs.owed = [] := by
    rw [honly.1, (s.marched_spec site preserve).1]
    exact howed
  have hfcl : u.fcl = s.fcl := honly.fcl.trans (by rw [(s.marched_spec site preserve).1])
  have hexec : exec (.marchTestDone site fails) s = finish (((s.marched site preserve).marchResult site fails).payLists site) := by
    show execMarchTestDone site fails s = _
    rw [execMarchTestDone, hjob]
    simp [State.marched]
  rw [hexec, hu, State.payLists_of_none _ _ hjobs, finish_of_calm hc hfcl]

theorem State.marchResult_of_good (s : State) (site : Nat) : s.marchResult site [] = s.setReg Reg.SPM_MARCH_STATE site 0 2 := by
  simp [State.marchResult]

/-- The first spare takes the one failing word (R371). -/
theorem State.marchResult_of_one {n : Nat} (hn : n < 16384) (hfree : s.rf Reg.SPM_REMAPn site 0 31 31 = 0)
    (hnew : ∀ y, y < 8 → s.reg Reg.SPM_REMAPn site y ≠ 2 ^ 31 + n) :
    s.marchResult site [n] = (s.setReg Reg.SPM_REMAPn site 0 (2 ^ 31 + n)).setReg Reg.SPM_MARCH_STATE site 0 (2 ^ 31 + n * 2 ^ 16 + 2 ^ 8 + 3) := by
  have hremap : s.remapWord site n [] = (s.setReg Reg.SPM_REMAPn site 0 (2 ^ 31 + n), true) := by
    have hnone : (List.range 8).any (fun y => s.reg Reg.SPM_REMAPn site y == 2 ^ 31 + n) = false := by
      rw [List.any_eq_false]
      exact fun y hy => by simpa using hnew y (List.mem_range.mp hy)
    have hfirst : (List.range 8).find? (fun y => s.rf Reg.SPM_REMAPn site y 31 31 == 0 && !([] : List Nat).contains y) = some 0 := by
      rw [show List.range 8 = 0 :: [1, 2, 3, 4, 5, 6, 7] from rfl, List.find?_cons_of_pos (by simp [hfree])]
    rw [State.remapWord, hnone, hfirst]
    rfl
  simp [State.marchResult, hn, hremap, Nat.not_le.mpr hn]

end

/-! ### Reloads -/

section
variable {s : State} {slot n : Nat} {p : Package} {c : Nat × List Byte}

theorem exec_blockReloadDone_of_done (hp : s.pkg slot = some p) (hblock : p.constants[n]? = some c) :
    exec (.blockReloadDone slot (.constants n) .done) s = .next (s.memWrite c.1 c.2 []) := by
  show execBlockReloadDone slot (.constants n) .done s = _
  unfold execBlockReloadDone
  rw [hp]
  simp only [hblock, if_true]

/-- Constants that are lost mark their slot, and the loss is raised (R361, R363). -/
theorem exec_blockReloadDone_of_lost (hc : s.calm) (hp : s.pkg slot = some p) {w : ReloadEnd} (hw : w = .poison ∨ w = .badTag)
    (hroom : s.room Reg.MEM_POISON_CONSUMED 0 0 1) (hmild : s.mild [0x5C]) :
    ∃ v t, exec (.blockReloadDone slot (.constants n) w) s = .next t ∧ Raised v t 0x5C devUnit ∧
      v = { s with regs := v.regs, gens := s.gens.modify slot (fun g => { g with broken := true }) } ∧
      v.reg Reg.MEM_POISON_CONSUMED 0 0 = s.reg Reg.MEM_POISON_CONSUMED 0 0 + (if w = .poison then 1 else 0) ∧
      ∀ k, k ≠ Reg.MEM_POISON_CONSUMED.addr 0 0 → v.word k = s.word k := by
  have hpoison : ∀ {x : State}, x.room Reg.MEM_POISON_CONSUMED 0 0 1 → OnlyRegs x (x.consumed (w == .poison)) [Reg.MEM_POISON_CONSUMED.addr 0 0] ∧
      (x.consumed (w == .poison)).reg Reg.MEM_POISON_CONSUMED 0 0 = x.reg Reg.MEM_POISON_CONSUMED 0 0 + (if w = .poison then 1 else 0) :=
    fun hr => by
      rcases hw with rfl | rfl
      · exact ⟨onlyRegs_err hr, State.reg_err_of_room hr⟩
      · exact ⟨.refl _ _, rfl⟩
  obtain ⟨honly, hcount⟩ := hpoison (x := s.updGen slot (fun g => { g with broken := true })) hroom
  obtain ⟨hnext, hraised⟩ := finish_raise (src := 0x5C) (unit := devUnit) (honly.calm hc) (by decide) (by decide)
    (honly.mild (by decide) (by decide) hmild)
  refine ⟨_, _, ?_, hraised, honly.1, hcount, fun k hk => honly.2 k (by simpa using hk)⟩
  have hdone : w ≠ .done := by rcases hw with rfl | rfl <;> decide
  show execBlockReloadDone slot (.constants n) w s = _
  unfold execBlockReloadDone
  rw [hp]
  simp only [if_neg hdone]
  exact hnext

end

/-- Settles O44, clause by clause. -/
theorem memoryErrorsAndFailures : Obligations.MemoryErrorsAndFailures := by
  unfold Obligations.MemoryErrorsAndFailures
  refine ⟨bchLeft_oneBit, fun s a k site slot n err p c hc => ⟨fun x f hruns => exec_mrd_meet f hruns, fun hscrub hl herr hnear hup => ?_,
    fun hscrub hl hnear hup => ?_, fun hf hm => ⟨exec_stackFailure_of_working hc hf hm, exec_channelFailure_of_working hc hf hm⟩,
    fun preserve hjob howed => ?_, fun hp hblock => ⟨exec_blockReloadDone_of_done hp hblock, fun w hw hroom hmild =>
      exec_blockReloadDone_of_lost hc hp (by simpa using hw) hroom hmild⟩⟩⟩
  · rw [exec_patrolScrub_near hnear hup, if_neg (by omega), State.spoil_of_sound hl _ herr]
    exact finish_of_calm hc rfl
  · intro x
    refine ⟨fun herr hleft => ⟨_, exec_patrolScrub_of_corrected hc hscrub hl hnear hup herr hleft, onlyRegs_wide _ _ _ _ _, State.reg_wide_self s _ _ _ 1⟩,
      fun hleft hue hcreated hmild => ?_⟩
    obtain ⟨t, ht, hraised⟩ := exec_patrolScrub_of_uncorrectable hc hscrub hl hnear hup hleft hue hcreated hmild
    obtain ⟨honly, hcounted, hcreated', hlast⟩ := State.poisoned_spec (err := err) hue hcreated
    refine ⟨_, t, ht, hraised, honly.1.trans ?_, fun b hb _ => ?_, hcounted, hcreated', hlast.trans (by omega), honly.2⟩
    · rw [honly.1]
    · rw [honly.1]
      exact (Mem.get_write _ _ _ _).trans (if_neg (by rw [length_flipWord]; omega))
  · intro done
    obtain ⟨hstate, hother, hcore⟩ := s.marched_spec site preserve
    have hdone : ∀ {u : State} {l : List Nat}, OnlyRegs (s.marched site preserve) u l → done u := fun hu =>
      ⟨by rw [hu.1, hstate], fun y hy => (hu.core y).trans (hother y hy), (hu.core site).trans hcore⟩
    have hwords : ∀ w, (s.marched site preserve).word w = s.word w := fun w => State.word_congr (by rw [hstate]) w
    have hregs : ∀ (f : RegFam) i j, (s.marched site preserve).reg f i j = s.reg f i j := fun f i j => State.reg_of_word (hwords _)
    refine ⟨?_, fun hn hfree hnew => ?_⟩
    · have honly := onlyRegs_setReg (s.marched site preserve) Reg.SPM_MARCH_STATE site 0 2
      exact ⟨_, exec_marchTestDone_of_one hc hjob howed (State.marchResult_of_good _ _) honly, hdone honly, State.reg_setReg_self _ _ _ _ _,
        fun w hw => (honly.2 w (by simpa using hw)).trans (hwords w)⟩
    · have hresult := State.marchResult_of_one (s := s.marched site preserve) (site := site) hn ((State.rf_of_word (hwords _) _ _).trans hfree)
        fun y hy => by rw [hregs]; exact hnew y hy
      have honly := (onlyRegs_setReg (s.marched site preserve) Reg.SPM_REMAPn site 0 (2 ^ 31 + n)).append
        (onlyRegs_setReg _ Reg.SPM_MARCH_STATE site 0 (2 ^ 31 + n * 2 ^ 16 + 2 ^ 8 + 3))
      refine ⟨_, exec_marchTestDone_of_one hc hjob howed hresult honly, hdone honly, ?_, ?_, fun w hw => (honly.2 w ?_).trans (hwords w)⟩
      · rw [State.reg_setReg_self]
        omega
      · rw [State.reg_setReg_of_ne _ _ _ _ _ _ _ _ (by simp only [RegFam.addr, Reg.SPM_REMAPn, Reg.SPM_MARCH_STATE]; omega), State.reg_setReg_self]
        omega
      · simp only [List.mem_append, List.mem_cons, List.not_mem_nil, or_false, not_or] at hw ⊢
        exact ⟨hw.2, hw.1⟩

end Sys2Proof.Machine
end

section
/-! SUPPORT. Programming and calibrating one array (R337, R339, R434): what it leaves of the state, and what the array then holds. -/

namespace Sys2Proof.Machine

/-- `t` is `s` after work on arrays of one site: other cores, the registers outside `l` and all but the calibration store, the digest round and the
count of free values are as before. -/
structure ArrayFrame (s t : State) (site : Nat) (l : List Nat) : Prop where
  state : ∃ cores regs cal digest free, t = { s with cores := cores, regs := regs, cal := cal, flt := { s.flt with digest := digest }, freeCtr := free }
  others : ∀ k, k ≠ site → t.core k = s.core k
  word : ∀ a, a ∉ l → t.word a = s.word a

section
variable {s t u : State} {site a : Nat} {l k : List Nat}

theorem ArrayFrame.refl (s : State) (site : Nat) (l : List Nat) : ArrayFrame s s site l := ⟨⟨_, _, _, _, _, rfl⟩, fun _ _ => rfl, fun _ _ => rfl⟩

theorem ArrayFrame.append (h : ArrayFrame s t site l) (g : ArrayFrame t u site k) : ArrayFrame s u site (l ++ k) where
  state := by
    obtain ⟨_, _, _, _, _, rfl⟩ := h.state
    obtain ⟨_, _, _, _, _, rfl⟩ := g.state
    exact ⟨_, _, _, _, _, rfl⟩
  others y hy := (g.others y hy).trans (h.others y hy)
  word b hb := (g.word b fun hin => hb (List.mem_append_right _ hin)).trans (h.word b fun hin => hb (List.mem_append_left _ hin))

theorem ArrayFrame.fcl (h : ArrayFrame s t site l) : t.fcl = s.fcl := by
  obtain ⟨_, _, _, _, _, rfl⟩ := h.state
  rfl

theorem ArrayFrame.mem (h : ArrayFrame s t site l) : t.mem = s.mem := by
  obtain ⟨_, _, _, _, _, rfl⟩ := h.state
  rfl

theorem ArrayFrame.seq (h : ArrayFrame s t site l) : t.seq = s.seq := by
  obtain ⟨_, _, _, _, _, rfl⟩ := h.state
  rfl

theorem ArrayFrame.rf (h : ArrayFrame s t site l) {f : RegFam} {i j : Nat} (ha : f.addr i j ∉ l) (hi lo : Nat) :
    t.rf f i j hi lo = s.rf f i j hi lo := State.rf_of_word (h.word _ ha) hi lo

theorem ArrayFrame.setCore (c : Core) : ArrayFrame s (s.setCore site c) site [] :=
  ⟨⟨_, _, _, _, _, rfl⟩, fun _ hk => State.core_setCore_of_ne _ _ hk, fun _ _ => rfl⟩

theorem OnlyRegs.arrayFrame (h : OnlyRegs s t l) (site : Nat) : ArrayFrame s t site l :=
  ⟨⟨_, t.regs, _, s.flt.digest, _, h.1⟩, fun k _ => h.core k, h.2⟩

theorem arrayFrame_calAppend (s : State) (die typ arr site : Nat) (p : List Byte) (y : Nat) : ArrayFrame s (s.calAppend die typ arr site p) y [] :=
  ⟨⟨_, _, _, _, _, rfl⟩, fun _ _ => rfl, fun _ _ => rfl⟩

theorem arrayFrame_voidRound (s : State) (site : Nat) : ArrayFrame s s.voidRound site [] := ⟨⟨_, _, _, _, _, rfl⟩, fun _ _ => rfl, fun _ _ => rfl⟩

theorem arrayFrame_nextFree (s : State) (site : Nat) : ArrayFrame s s.nextFree site [] := ⟨⟨_, _, _, _, _, rfl⟩, fun _ _ => rfl, fun _ _ => rfl⟩

/-! ### Programming -/

/-- The array after a tile has been programmed into it with every cell verified. -/
def Arr.programmed (r : Arr) (slot n gen : Nat) (gain : F32) (tile : Tile) : Arr :=
  { r with cells := r.cellsFor tile.levels, holds := .gen slot n, gen := gen, stats := [], meanGain := gain
           retire := r.retire.map (fun (x : Retire) => if x.done then { x with started := false, done := false } else x) }

/-- The registers of an array that programming writes. -/
def programAddrs (site a : Nat) : List Nat :=
  [Reg.ARY_SPAREa.addr site a, Reg.ARY_AGEa.addr site a, Reg.ARY_PROG_CYCLESa.addr site a]

theorem notMem_programAddrs (site a : Nat) : Reg.ARY_STATEa.addr site a ∉ programAddrs site a ∧ Reg.WGT_MAINT.addr 0 0 ∉ programAddrs site a := by
  simp only [programAddrs, RegFam.addr, Reg.ARY_STATEa, Reg.ARY_SPAREa, Reg.ARY_AGEa, Reg.ARY_PROG_CYCLESa, Reg.WGT_MAINT, List.mem_cons,
    List.not_mem_nil, or_false, not_or]
  omega

/-- A cycle below the wear limit is counted, and nothing is raised (R62, R63). -/
theorem State.countCycle_of_young (h : s.rf Reg.ARY_PROG_CYCLESa site a 23 0 < 10000) :
    s.countCycle site a = s.setRf Reg.ARY_PROG_CYCLESa site a 23 0 (s.rf Reg.ARY_PROG_CYCLESa site a 23 0 + 1) := by
  rw [State.countCycle, if_neg (by omega), Nat.min_eq_right (by omega)]

/-- The state with a tile programmed into an array, before its cycle is counted. -/
def State.programmed (s : State) (site a slot n : Nat) (tile : Tile) : State :=
  let c := (s.core site).loseTile a
  ((s.setCore site (c.setArr a ((c.arr a).programmed slot n (s.slotGen slot) (s.free 32) tile))).nextFree.setReg Reg.ARY_SPAREa site a
    (s.reg Reg.ARY_SPAREa site a)).setReg Reg.ARY_AGEa site a 0

theorem State.programmed_spec (s : State) (site a slot n : Nat) (tile : Tile) :
    ArrayFrame s (s.programmed site a slot n tile) site [Reg.ARY_SPAREa.addr site a, Reg.ARY_AGEa.addr site a] ∧
    ((s.programmed site a slot n tile).core site).arr a =
      (((s.core site).loseTile a).arr a).programmed slot n (s.slotGen slot) (s.free 32) tile := by
  constructor
  · exact ((ArrayFrame.setCore _).append (arrayFrame_nextFree _ _)).append
      (((onlyRegs_setReg _ _ _ _ _).append (onlyRegs_setReg _ _ _ _ _)).arrayFrame site)
  · show ((State.setCore _ _ _).core site).arr a = _
    rw [State.core_setCore_self, Core.arr_setArr_self]

theorem State.programArray_eq (s : State) (site a slot n : Nat) (tile : Tile) :
    ∃ p, s.programArray site a slot n tile [] =
      ((((s.programmed site a slot n tile).countCycle site a).calAppend (dieOf site) 3 a site p).voidRound, true) := ⟨_, rfl⟩

/-- An array that is programmed without a failing cell (R337). -/
theorem State.programArray_of_verified (slot n : Nat) (tile : Tile) (hcycles : s.rf Reg.ARY_PROG_CYCLESa site a 23 0 < 10000) :
    ∃ t, s.programArray site a slot n tile [] = (t, true) ∧ ArrayFrame s t site (programAddrs site a) ∧
    (t.core site).arr a = (((s.core site).loseTile a).arr a).programmed slot n (s.slotGen slot) (s.free 32) tile ∧
    t.rf Reg.ARY_PROG_CYCLESa site a 23 0 = s.rf Reg.ARY_PROG_CYCLESa site a 23 0 + 1 := by
  obtain ⟨hframe, hcore⟩ := s.programmed_spec site a slot n tile
  obtain ⟨p, hp⟩ := s.programArray_eq site a slot n tile
  generalize s.programmed site a slot n tile = v at hframe hcore hp
  have hyoung : v.rf Reg.ARY_PROG_CYCLESa site a 23 0 = s.rf Reg.ARY_PROG_CYCLESa site a 23 0 := hframe.rf (by
    simp only [RegFam.addr, Reg.ARY_SPAREa, Reg.ARY_AGEa, Reg.ARY_PROG_CYCLESa, List.mem_cons, List.not_mem_nil, or_false, not_or]
    omega) _ _
  rw [State.countCycle_of_young (hyoung ▸ hcycles)] at hp
  have hall := ((hframe.append ((onlyRegs_setRf v Reg.ARY_PROG_CYCLESa site a 23 0 (v.rf Reg.ARY_PROG_CYCLESa site a 23 0 + 1)).arrayFrame site)).append (arrayFrame_calAppend _ (dieOf site) 3 a site p site)).append
      (arrayFrame_voidRound _ _)
  refine ⟨_, hp, ⟨hall.state, hall.others, fun b hb => hall.word b (by simpa [programAddrs] using hb)⟩, hcore, ?_⟩
  have hlast := State.rf_setRf_self v Reg.ARY_PROG_CYCLESa site a 0 (v.rf Reg.ARY_PROG_CYCLESa site a 23 0 + 1) (hi := 23) (by decide)
  refine (State.rf_congr (s := v.setRf Reg.ARY_PROG_CYCLESa site a 23 0 (v.rf Reg.ARY_PROG_CYCLESa site a 23 0 + 1)) rfl _ _ _ _ _).trans ?_
  rw [hlast, hyoung]
  omega

/-- The cells under an array's maps do not rest on what it loses with its tile. -/
theorem Core.arr_loseTile (c : Core) (a : Nat) : (c.loseTile a).arr a = { c.arr a with draw := none } := by
  show (c.setArr a { c.arr a with draw := none }).arr a = _
  rw [Core.arr_setArr_self]


theorem Arr.cellsFor_draw (r : Arr) (d : Option Draw) (levels : Mem) : ({ r with draw := d } : Arr).cellsFor levels = r.cellsFor levels := rfl

/-- An array programmed with the held tile holds it and its cells (R345). -/
theorem State.programHeld_of_verified {la slot n : Nat} {tile : Tile} (hheld : s.heldTile site la = some (slot, n, tile))
    (hcycles : s.rf Reg.ARY_PROG_CYCLESa site a 23 0 < 10000) :
    ∃ t, s.programHeld site la a [] = (t, true) ∧ ArrayFrame s t site (programAddrs site a) ∧
    ((t.core site).arr a).holds = .gen slot n ∧ ((t.core site).arr a).cells = ((s.core site).arr a).cellsFor tile.levels ∧
    t.rf Reg.ARY_PROG_CYCLESa site a 23 0 = s.rf Reg.ARY_PROG_CYCLESa site a 23 0 + 1 := by
  obtain ⟨u, hu, hframe, hcore, hcount⟩ := State.programArray_of_verified slot n tile hcycles
  have hafter : ((u.updCore site (fun c => c.setArr a ((c.arr a).loadScales tile))).core site).arr a = ((u.core site).arr a).loadScales tile := by
    rw [State.core_updCore_self, Core.arr_setArr_self]
  refine ⟨u.updCore site (fun c => c.setArr a ((c.arr a).loadScales tile)), ?_, ?_, ?_, ?_, hcount⟩
  · rw [State.programHeld, hheld]
    simp only [hu]
  · have hall := hframe.append (ArrayFrame.setCore (s := u) ((u.core site).setArr a (((u.core site).arr a).loadScales tile)))
    exact ⟨hall.state, hall.others, fun b hb => hall.word b (by simpa using hb)⟩
  · rw [hafter, hcore]
    rfl
  · rw [hafter, hcore, Core.arr_loseTile]
    rfl

/-! ### Calibration -/

/-- The entries of an array after a calibration: nominal ones where it holds nothing, else those that were found, with the weight scales of the tile. -/
def Arr.calibrated (r : Arr) (entries : SMap CorrEntry) : SMap CorrEntry :=
  if r.holds = .none then r.corr.foldl (fun m e => SMap.put m corrDefault e.1 { corrDefault with wscale := e.2.wscale }) []
  else entries.foldl (fun m e => SMap.put m corrDefault e.1 { e.2 with wscale := (SMap.get m corrDefault e.1).wscale }) r.corr

theorem State.calArray_eq {cal : ArrayCal} (hconvs : cal.convs = []) (hcols : cal.cols = []) :
    let u := s.setCore site ((s.core site).setArr a { (s.core site).arr a with corr := ((s.core site).arr a).calibrated cal.entries })
    s.calArray { cal with site := site, arr := a } =
      (if a < 17 ∧ 3600000 ≤ u.reg Reg.ARY_AGEa site a then
        u.setRf Reg.ARY_DRIFT_COEFa site a 15 0 (refitNu cal.meanGain ((s.core site).arr a).meanGain (u.reg Reg.ARY_AGEa site a)).toNat
      else u).calAppendArray site a := by
  rw [State.calArray]
  simp only [hconvs, hcols, List.foldl_nil]
  rfl

/-- A calibration that finds nothing of converters and columns leaves what the array holds, and its cells (R434). -/
theorem State.calArray_of_entries {cal : ArrayCal} (hconvs : cal.convs = []) (hcols : cal.cols = []) :
    let t := s.calArray { cal with site := site, arr := a }
    ArrayFrame s t site [Reg.ARY_DRIFT_COEFa.addr site a] ∧ ((t.core site).arr a).holds = ((s.core site).arr a).holds ∧
    ((t.core site).arr a).cells = ((s.core site).arr a).cells := by
  intro t
  generalize hcorr : ((s.core site).arr a).calibrated cal.entries = corr
  obtain ⟨v, ht, hv⟩ : ∃ v, t = v.calAppendArray site a ∧
      let u := s.setCore site ((s.core site).setArr a { (s.core site).arr a with corr := corr })
      (v = u ∨ ∃ nu, v = u.setRf Reg.ARY_DRIFT_COEFa site a 15 0 nu) := by
    rw [← hcorr]
    refine ⟨_, State.calArray_eq hconvs hcols, ?_⟩
    split
    · exact .inr ⟨_, rfl⟩
    · exact .inl rfl
  dsimp only at hv
  generalize hu : s.setCore site ((s.core site).setArr a { (s.core site).arr a with corr := corr }) = u at hv
  have hframe : ArrayFrame s u site [] := hu ▸ ArrayFrame.setCore _
  have hcore : (u.core site).arr a = { (s.core site).arr a with corr := corr } := by
    rw [← hu, State.core_setCore_self, Core.arr_setArr_self]
  have hvframe : ArrayFrame s v site [Reg.ARY_DRIFT_COEFa.addr site a] ∧ v.core site = u.core site := by
    rcases hv with rfl | ⟨nu, rfl⟩
    · exact ⟨⟨hframe.state, hframe.others, fun b _ => hframe.word b (by simp)⟩, rfl⟩
    · exact ⟨hframe.append ((onlyRegs_setRf u _ _ _ _ _ _).arrayFrame site), rfl⟩
  obtain ⟨l, hl⟩ := v.calAppendArray_eq site a
  have hstore : ArrayFrame v (v.calAppendArray site a) site [] := by
    rw [hl]
    exact ⟨⟨_, _, _, _, _, rfl⟩, fun _ _ => rfl, fun _ _ => rfl⟩
  have hall := hvframe.1.append hstore
  rw [ht, State.calAppendArray_core, hvframe.2, hcore]
  exact ⟨⟨hall.state, hall.others, fun b hb => hall.word b (by simpa using hb)⟩, rfl, rfl⟩

end
end Sys2Proof.Machine
end

section
/-! SUPPORT. Maintenance of an array in service (R344, R345), and the statement about it. -/

namespace Sys2Proof.Machine

section
variable {s t : State} {m : Maint} {cal : ArrayCal} {slot n : Nat} {tile : Tile} {l : List Nat}

/-- What the preconditions of a programming step rest on (R345, R411, R453 to R455). -/
theorem State.maintReady_congr {die : Nat} (hsense : t.sense = s.sense)
    (hreg : ∀ (f : RegFam) i j, f.addr i j < 0x70000 → t.reg f i j = s.reg f i j) (hdie : die < 2) : t.maintReady die = s.maintReady die := by
  have hrf : ∀ (f : RegFam) i j hi lo, f.addr i j < 0x70000 → t.rf f i j hi lo = s.rf f i j hi lo := fun f i j hi lo h => by
    rw [State.rf, hreg f i j h, State.rf]
  have hwrites : t.writesOk = s.writesOk := by
    simp only [State.writesOk, State.shut, State.safe, hsense, hrf Reg.FCL_SRCn_STAT 0 0x72 31 31 (by decide),
      hrf Reg.FCL_SRCn_STAT 0 0x81 31 31 (by decide), hrf Reg.FCL_STATE 0 0 2 0 (by decide)]
  have htemp : t.tempWindow die = s.tempWindow die := by
    have hdiodes : (List.range 8).map (fun k => t.reg Reg.THM_DIODEn 0 (8 * die + k)) =
        (List.range 8).map (fun k => s.reg Reg.THM_DIODEn 0 (8 * die + k)) :=
      List.map_congr_left fun k hk => hreg _ _ _ (by
        have := List.mem_range.mp hk
        simp only [RegFam.addr, Reg.THM_DIODEn]
        omega)
    simp only [State.tempWindow, hdiodes]
  have hbank : t.holdup 20 = s.holdup 20 := by
    rw [State.holdup, State.holdup, hrf Reg.HKA_CHn_LAST 0 30 13 0 (by decide), hrf Reg.PWR_HOLDUP_CAP 0 0 15 0 (by decide)]
  have hpairs : t.dieWorks die = s.dieWorks die := by
    simp only [State.dieWorks, State.pairFailed, hrf Reg.FCL_CP_STATE 0 0 _ _ (by decide)]
  simp only [State.maintReady, hwrites, htemp, hbank, hpairs]

/-! ### The request -/

section
variable {h : Hdr} {x : Session} {lcore la action site spare : Nat}

/-- The word that shows a maintenance in step 1. -/
def maintWord (lcore la action : Nat) : Nat := lcore * 2 ^ 22 + action * 2 ^ 20 + la * 2 ^ 8 + 1

/-- The state in which the copy of an array into a spare is shown. -/
def State.maintShown (s : State) (lcore la action site spare : Nat) : State :=
  (s.setReg Reg.WGT_MAINT 0 0 (maintWord lcore la action)).setRf Reg.ARY_STATEa site spare 18 16 2

theorem State.maintShown_only (s : State) (lcore la action site spare : Nat) :
    OnlyRegs s (s.maintShown lcore la action site spare) [Reg.WGT_MAINT.addr 0 0, Reg.ARY_STATEa.addr site spare] :=
  (onlyRegs_setReg _ _ _ _ _).append (onlyRegs_setRf _ _ _ _ _ _ _)

theorem State.maintShown_fields (s : State) (site spare : Nat) (hlcore : lcore < 512) (hla : la < 16) (haction : action = 1 ∨ action = 2) :
    let t := s.maintShown lcore la action site spare
    t.rf Reg.WGT_MAINT 0 0 2 0 = 1 ∧ t.rf Reg.WGT_MAINT 0 0 30 22 = lcore ∧ t.rf Reg.WGT_MAINT 0 0 11 8 = la ∧
    t.rf Reg.WGT_MAINT 0 0 21 20 = action ∧ t.rf Reg.ARY_STATEa site spare 18 16 = 2 := by
  intro t
  have hword : t.reg Reg.WGT_MAINT 0 0 = maintWord lcore la action := by
    have hapart : Reg.WGT_MAINT.addr 0 0 ∉ [Reg.ARY_STATEa.addr site spare] := by
      simp only [RegFam.addr, Reg.WGT_MAINT, Reg.ARY_STATEa, List.mem_singleton]
      omega
    have hkept := (onlyRegs_setRf (s.setReg Reg.WGT_MAINT 0 0 (maintWord lcore la action)) Reg.ARY_STATEa site spare 18 16 2).reg hapart
    refine hkept.trans ((State.reg_setReg_self _ _ _ _ _).trans ?_)
    unfold maintWord
    omega
  refine ⟨?_, ?_, ?_, ?_, State.rf_setRf_self _ _ _ _ _ _ (by decide)⟩
  all_goals
    rw [State.rf, hword]
    unfold maintWord bitsOf
    omega

/-- Registers below those of the arrays that are not that of the maintenance. -/
theorem State.reg_maintShown (s : State) (lcore la action site spare : Nat) {f : RegFam} {i j : Nat} (h : f.addr i j < 0x70000) :
    (s.maintShown lcore la action site spare).reg f i j = s.reg f i j := by
  refine (s.maintShown_only lcore la action site spare).reg ?_
  simp only [List.mem_cons, List.not_mem_nil, or_false, not_or]
  simp only [RegFam.addr, Reg.WGT_MAINT, Reg.ARY_STATEa] at h ⊢
  omega

/-- A step whose preconditions hold, with no other write on its die, does not wait. -/
theorem State.beginMaint_of_ready (hready : s.maintReady (dieOf m.site) = true) (hnv : s.nvWriting (dieOf m.site) = false) :
    s.beginMaint m = { s with maint := some { m with waiting := false } } := by
  rw [State.beginMaint]
  simp only [hready, if_true, hnv]

theorem State.nvWriting_congr {die : Nat} (hprog : t.prog = s.prog) (hcores : t.cores = s.cores) (hs : s.maint = none) (ht : t.maint = none) :
    t.nvWriting die = s.nvWriting die := by
  simp only [State.nvWriting, State.maintWriting, hs, ht, hprog, hcores]

/-- The copy starts at once where its preconditions hold and nothing else writes. -/
theorem State.beginMaint_shown (lcore la action spare : Nat) (hlt : dieOf m.site < 2) (hready : s.maintReady (dieOf m.site) = true)
    (hnv : s.nvWriting (dieOf m.site) = false) (hnone : s.maint = none) :
    (s.maintShown lcore la action m.site spare).beginMaint m =
      { s.maintShown lcore la action m.site spare with maint := some { m with waiting := false } } := by
  have honly := s.maintShown_only lcore la action m.site spare
  have hregs := fun (f : RegFam) i j => s.reg_maintShown lcore la action m.site spare (f := f) (i := i) (j := j)
  generalize s.maintShown lcore la action m.site spare = v at honly hregs ⊢
  refine State.beginMaint_of_ready ((State.maintReady_congr ?_ hregs hlt).trans hready) ((State.nvWriting_congr ?_ ?_ hnone ?_).trans hnv)
  all_goals rw [honly.1]
  exact hnone

theorem State.spare_lt (hspare : s.spareIdle site = some spare) : spare < 17 := List.mem_range.mp (List.mem_of_find?_eq_some hspare)

/-- The array that serves goes on serving while its spare is copied to. -/
theorem State.phys_maintShown (s : State) (lcore la action : Nat) (hspare : spare < 17) :
    (s.maintShown lcore la action site spare).phys site la = s.phys site la := by
  have hapart : Reg.ARY_INDIRn.addr site la ∉ [Reg.WGT_MAINT.addr 0 0, Reg.ARY_STATEa.addr site spare] := by
    simp only [RegFam.addr, Reg.ARY_INDIRn, Reg.WGT_MAINT, Reg.ARY_STATEa, List.mem_cons, List.not_mem_nil, or_false, not_or]
    omega
  rw [State.phys, (s.maintShown_only lcore la action site spare).rf hapart, State.phys]

/-- The request starts the copy into the spare (R344, R345). -/
theorem exec_arrayMaint_of_ready (hc : s.calm) (hok : s.accepts h (opRow 0x0133) false true true x) (haction : action = 1 ∨ action = 2)
    (hsite : s.siteOf lcore = some site) (hla : la < 16) (hfence : s.rf Reg.RTR_FENCE site 0 1 0 = 0) (hnone : s.maint = none)
    (hrepl : s.inRepl s.ownInst = false) (hfresh : s.stoppedMaint site la = none) (hwrites : s.writesOk = true)
    (hdie : s.dieWorks (dieOf site) = true) (hnv : s.nvWriting (dieOf site) = false) (hspare : s.spareIdle site = some spare)
    (htemp : s.tempWindow (dieOf site) = true) (hbank : s.holdup 20 = true) :
    exec (.arrayMaint h lcore la action) s = .next { (s.taken h).maintShown lcore la action site spare with
      maint := some { reply := replyTo h 0x0133, site := site, arr := s.phys site la, spare := spare, copied := false, waiting := false } } := by
  have hlt : dieOf site < 2 := by
    have hin := List.mem_of_getElem? (show s.sites[lcore]? = some site from hsite)
    rcases dieOf_of_enabled (List.mem_filter.mp hin).2 with h | h <;> omega
  have hready : s.maintReady (dieOf site) = true := by simp [State.maintReady, hwrites, htemp, hbank, hdie]
  have hbegin := State.beginMaint_shown (s := s.taken h) (m := ⟨replyTo h 0x0133, site, s.phys site la, spare, false, false⟩) lcore la action spare hlt
    hready hnv hnone
  show execArrayMaint h lcore la action s = _
  rw [execArrayMaint, decide_eq_true haction, State.command_of_accepts hok]
  have hsite' : (s.taken h).siteOf lcore = some site := hsite
  have hfence' : (s.taken h).rf Reg.RTR_FENCE site 0 1 0 = 0 := hfence
  have hfree : ((s.taken h).maint.isSome || (s.taken h).inRepl (s.taken h).ownInst) = false := by
    rw [show (s.taken h).maint = none from hnone]
    exact hrepl
  have hfresh' : (s.taken h).stoppedMaint site la = none := hfresh
  have hspare' : (s.taken h).spareIdle site = some spare := hspare
  have htemp' : (s.taken h).tempWindow (dieOf site) = true := htemp
  have hbank' : (s.taken h).holdup 20 = true := hbank
  simp only [hsite', hfence', hfree, hfresh', hspare', htemp', hbank', Nat.not_le.mpr hla, ne_eq, not_true_eq_false, Bool.not_true, Bool.false_eq_true,
    if_false, Option.getD_some]
  have hfold : ((s.taken h).setReg Reg.WGT_MAINT 0 0 (lcore * 2 ^ 22 + action * 2 ^ 20 + la * 2 ^ 8 + 1)).setRf Reg.ARY_STATEa site spare 18 16 2 =
    (s.taken h).maintShown lcore la action site spare := rfl
  rw [hfold, State.phys_maintShown _ _ _ _ (State.spare_lt hspare)]
  exact (congrArg finish hbegin).trans (finish_of_calm hc ((s.taken h).maintShown_only lcore la action site spare).fcl)

end

/-! ### The copy and the last step -/

/-- The state after a maintenance: the array is the spare, and nothing is under way. -/
def State.maintDone (s : State) (m : Maint) : State :=
  { ((s.setRf Reg.ARY_STATEa m.site m.arr 18 16 1).setRf Reg.WGT_MAINT 0 0 19 12 stOk).setRf Reg.WGT_MAINT 0 0 2 0 0 with maint := none }

theorem State.maintDone_spec {s t : State} {m : Maint} (ht : s.maintDone m = t) :
    t.maint = none ∧ t.rf Reg.ARY_STATEa m.site m.arr 18 16 = 1 ∧ t.rf Reg.WGT_MAINT 0 0 2 0 = 0 ∧ (∀ k, t.core k = s.core k) ∧ t.mem = s.mem ∧
    t.seq = s.seq ∧ (∀ (f : RegFam) i j, f.addr i j ≠ Reg.ARY_STATEa.addr m.site m.arr → f.addr i j ≠ Reg.WGT_MAINT.addr 0 0 →
      t.reg f i j = s.reg f i j) ∧ t.fcl = s.fcl := by
  have hapart : Reg.ARY_STATEa.addr m.site m.arr ≠ Reg.WGT_MAINT.addr 0 0 := by
    simp only [RegFam.addr, Reg.WGT_MAINT, Reg.ARY_STATEa]
    omega
  obtain ⟨v, hv⟩ : ∃ v, ((s.setRf Reg.ARY_STATEa m.site m.arr 18 16 1).setRf Reg.WGT_MAINT 0 0 19 12 stOk).setRf Reg.WGT_MAINT 0 0 2 0 0 = v :=
    ⟨_, rfl⟩
  have honly : OnlyRegs s v [Reg.ARY_STATEa.addr m.site m.arr, Reg.WGT_MAINT.addr 0 0] := by
    rw [← hv]
    exact (onlyRegs_setRf _ _ _ _ _ _ _).append ((onlyRegs_setRf _ _ _ _ _ _ _).trans (onlyRegs_setRf _ _ _ _ _ _ _))
  have hstate : v.rf Reg.ARY_STATEa m.site m.arr 18 16 = 1 := by
    rw [← hv, State.rf_setRf_of_ne _ _ _ _ _ _ _ _ _ _ _ _ hapart, State.rf_setRf_of_ne _ _ _ _ _ _ _ _ _ _ _ _ hapart,
      State.rf_setRf_self _ _ _ _ _ _ (by decide)]
    rfl
  have hstep : v.rf Reg.WGT_MAINT 0 0 2 0 = 0 := hv ▸ State.rf_setRf_self _ _ _ _ _ _ (by decide)
  have hmem : v.mem = s.mem := by rw [honly.1]
  have hseq : v.seq = s.seq := by rw [honly.1]
  have hdone : t = { v with maint := none } := by rw [← ht, ← hv, State.maintDone]
  rw [hdone]
  exact ⟨rfl, (State.rf_congr rfl ..).trans hstate, (State.rf_congr rfl ..).trans hstep, honly.core, hmem, hseq,
    fun f i j h1 h2 => (State.reg_congr rfl ..).trans (honly.reg (by simp [h1, h2])), honly.fcl⟩

section
variable (hc : s.calm) (hjob : s.maint = some m) (hwait : m.waiting = false) (hdata : s.heldWaits = false) (hsafe : s.safe = false)
  (hdie : s.dieWorks (dieOf m.site) = true) (hconvs : cal.convs = []) (hcols : cal.cols = [])
include hc hjob hwait hdata hsafe hdie hconvs hcols

/-- The copy into the spare holds the same tile (R345). -/
theorem exec_maintCopyDone_of_verified (hcopied : m.copied = false) (hheld : s.heldTile m.site (s.rf Reg.WGT_MAINT 0 0 11 8) = some (slot, n, tile))
    (hcycles : s.rf Reg.ARY_PROG_CYCLESa m.site m.spare 23 0 < 10000) :
    ∃ t, exec (.maintCopyDone ⟨cal, ⟨[], false⟩⟩) s = .next t ∧ t.maint = some { m with copied := true } ∧ (∀ k, k ≠ m.site → t.core k = s.core k) ∧
      ((t.core m.site).arr m.spare).holds = .gen slot n ∧
      ((t.core m.site).arr m.spare).cells = ((s.core m.site).arr m.spare).cellsFor tile.levels ∧ t.mem = s.mem ∧ t.seq = s.seq := by
  obtain ⟨u, hu, hframe, hholds, hcells, -⟩ := State.programHeld_of_verified hheld hcycles
  obtain ⟨hcal, hkept, hsame⟩ := State.calArray_of_entries (s := u) (site := m.site) (a := m.spare) hconvs hcols
  have hall := hframe.append hcal
  replace hkept := hkept.trans hholds
  replace hsame := hsame.trans hcells
  obtain ⟨v, hv⟩ : ∃ v, u.calArray { cal with site := m.site, arr := m.spare } = v := ⟨_, rfl⟩
  rw [hv] at hall hkept hsame
  have hrun : exec (.maintCopyDone ⟨cal, ⟨[], false⟩⟩) s = execMaintCopyDone ⟨cal, ⟨[], false⟩⟩ s := rfl
  rw [hrun, execMaintCopyDone, hjob]
  simp only [hcopied, hwait, hdata, hsafe, hdie, Bool.not_true, Bool.or_self, Bool.false_eq_true, if_false, hu, if_true, hv]
  exact ⟨_, finish_of_calm hc hall.fcl, by rw [← hwait], hall.others, hkept, hsame, hall.mem, hall.seq⟩

omit hconvs hcols in
/-- The array that has been taken out of service becomes the spare, and the request is answered (R345). -/
theorem exec_maintStep3Done_of {u : State} {rewrite : Bool} (hstep : s.rf Reg.WGT_MAINT 0 0 2 0 = 3)
    (hstate : s.rf Reg.ARY_STATEa m.site m.arr 18 16 = if rewrite then 4 else 3)
    (hu : (if rewrite then s.programHeld m.site (s.rf Reg.WGT_MAINT 0 0 11 8) m.arr [] else (s.calArray { cal with site := m.site, arr := m.arr }, true)) =
      (u, true)) (hframe : ArrayFrame s u m.site l) (hl : Reg.ARY_STATEa.addr m.site m.arr ∉ l) :
    exec (.maintStep3Done cal ⟨[], false⟩) s = .next ((u.maintDone m).answer m.reply stOk []) := by
  have hworks : u.arrFailed m.site m.arr = false := by
    rw [State.arrFailed, hframe.rf hl, hstate]
    cases rewrite <;> rfl
  have hcode : (s.rf Reg.ARY_STATEa m.site m.arr 18 16 == 4) = rewrite := by
    rw [hstate]
    cases rewrite <;> rfl
  show execMaintStep3Done cal ⟨[], false⟩ s = _
  rw [execMaintStep3Done, hjob]
  simp only [hcode, hstep, hwait, hdata, hsafe, hdie, bne_self_eq_false, Bool.and_false, Bool.not_true, Bool.or_self, Bool.false_eq_true, if_false,
    hu, hworks, if_true]
  have hend : (u.setRf Reg.ARY_STATEa m.site m.arr 18 16 1).endMaint m 0 stOk = (u.maintDone m).answer m.reply stOk [] := by
    rw [State.endMaint, State.maintDone]
  have hfcl : (u.maintDone m).fcl = s.fcl := (State.maintDone_spec (s := u) (m := m) rfl).2.2.2.2.2.2.2.trans hframe.fcl
  rw [hend]
  exact finish_of_calm hc ((State.answer_ok_fcl (u.maintDone m) _ _).trans hfcl)

end

end

/-- Settles O43, clause by clause. -/
theorem arrayMaintenance : Obligations.ArrayMaintenance := by
  unfold Obligations.ArrayMaintenance
  intro s h x lcore la action site spare m cal slot n tile hc u m0
  refine ⟨fun hok haction hsite hlcore hla hfence hnone hrepl hfresh hwrites hdie hnv hspare htemp hbank => ?_,
    fun hjob hwait hdata hsafe hdie hconvs hcols => ⟨fun hcopied hheld hcycles =>
      exec_maintCopyDone_of_verified hc hjob hwait hdata hsafe hdie hconvs hcols hcopied hheld hcycles, fun hstep hstate => ?_,
      fun hstep hstate hheld hcycles => ?_⟩⟩
  · have hexec := exec_arrayMaint_of_ready hc hok haction hsite hla hfence hnone hrepl hfresh hwrites hdie hnv hspare htemp hbank
    have honly := u.maintShown_only lcore la action site spare
    obtain ⟨h1, h2, h3, h4, h5⟩ := u.maintShown_fields site spare hlcore hla haction
    obtain ⟨v, hv⟩ : ∃ v, u.maintShown lcore la action site spare = v := ⟨_, rfl⟩
    rw [hv] at hexec honly h1 h2 h3 h4 h5
    exact ⟨_, hexec, by rw [honly.1], h1, h2, h3, h4, h5, honly.2⟩
  · obtain ⟨hframe, -, hsame⟩ := State.calArray_of_entries (s := s) (site := m.site) (a := m.arr) hconvs hcols
    obtain ⟨hnone, hspare, hidle, hcores, hmem, hseq, -⟩ := State.maintDone_spec (s := s.calArray { cal with site := m.site, arr := m.arr }) (m := m) rfl
    refine ⟨_, exec_maintStep3Done_of (rewrite := false) hc hjob hwait hdata hsafe hdie hstep hstate rfl hframe ?_, hnone, hspare, hidle, ?_, ?_, ?_, ?_⟩
    · simp [RegFam.addr, Reg.ARY_STATEa, Reg.ARY_DRIFT_COEFa]
    · exact fun k hk => (hcores k).trans (hframe.others k hk)
    · rw [hcores]
      exact hsame
    · exact hmem.trans hframe.mem
    · exact hseq.trans hframe.seq
  · obtain ⟨v, hv, hframe, -, hcells, hcount⟩ := State.programHeld_of_verified hheld hcycles
    obtain ⟨hnone, hspare, hidle, hcores, hmem, hseq, hregs, -⟩ := State.maintDone_spec (s := v) (m := m) rfl
    refine ⟨_, exec_maintStep3Done_of (rewrite := true) hc hjob hwait hdata hsafe hdie hstep hstate hv hframe (notMem_programAddrs _ _).1, hnone, hspare,
      hidle, ?_, ?_, ?_, ?_, ?_⟩
    · exact fun k hk => (hcores k).trans (hframe.others k hk)
    · rw [hcores]
      exact hcells
    · rw [State.rf, hregs, ← State.rf, hcount]
      · simp only [RegFam.addr, Reg.ARY_STATEa, Reg.ARY_PROG_CYCLESa]
        omega
      · simp only [RegFam.addr, Reg.WGT_MAINT, Reg.ARY_PROG_CYCLESa]
        omega
    · exact hmem.trans hframe.mem
    · exact hseq.trans hframe.seq

end Sys2Proof.Machine
end

section
/-! SUPPORT. Packages in generation slots (R330 to R333), and the statement about them. -/

namespace Sys2Proof.Machine

section
variable {s : State} {gen shard n : Nat} {f : PkgFile} {p : Package}

/-! ### The slot of a load (R330) -/

/-- A generation that no slot holds goes to the first empty slot. -/
theorem State.loadSlot_of_empty {k : Nat} (hk : k < 2) (hempty : s.slotState k = 0) (hfirst : ∀ j, j < k → s.slotState j ≠ 0) (hgen : gen ≠ 0)
    (hnew : ∀ j, j < 2 → s.slotState j ≠ 0 → s.slotGen j ≠ gen) : s.loadSlot gen = .ok (k, false) := by
  have hfound : (List.range 2).find? (fun j => s.slotState j == 0) = some k :=
    List.find?_range_eq_some.mpr ⟨by simp [hempty], List.mem_range.mpr hk, fun j hj => by simp [hfirst j hj]⟩
  have hlost : (List.range 2).find? (fun j => s.slotState j != 0 && s.slotGen j == gen && s.slotAbsent j) = none := by
    refine List.find?_eq_none.mpr fun j hj hlost => ?_
    simp only [Bool.and_eq_true, bne_iff_ne, beq_iff_eq] at hlost
    exact hnew j (List.mem_range.mp hj) hlost.1.1 hlost.1.2
  have hheld : (List.range 2).any (fun j => s.slotState j != 0 && s.slotGen j == gen && !s.slotAbsent j) = false := by
    refine List.any_eq_false.mpr fun j hj hheld => ?_
    simp only [Bool.and_eq_true, bne_iff_ne, beq_iff_eq] at hheld
    exact hnew j (List.mem_range.mp hj) hheld.1.1 hheld.1.2
  rw [State.loadSlot, hfound, hlost, hheld, if_neg (fun h => absurd h.1 Bool.false_ne_true),
    if_neg (fun h => h.elim hgen Bool.false_ne_true)]

/-! ### The checks of a load (R330 to R332) -/

/-- What the checks look at stands outside the generation slots where the load refills none. -/
theorem State.pkgCheck_updGen (g : Gen → Gen) : (s.updGen n g).pkgCheck n shard false f = s.pkgCheck n shard false f := by
  have harea : (s.updGen n g).area 1 = s.area 1 := rfl
  have hlevel : (s.updGen n g).formatLevel = s.formatLevel := rfl
  have hregs : (s.updGen n g).regs = s.regs := rfl
  have henabled : (s.updGen n g).enabled = s.enabled := rfl
  have hsigned : ∀ m, (s.updGen n g).pkgSigned m f = s.pkgSigned m f := fun _ => rfl
  have hkey : ∀ m, (s.updGen n g).contentKey m f.head = s.contentKey m f.head := fun _ => rfl
  have hsites : (s.updGen n g).sites = s.sites := by rw [State.sites, henabled, State.sites]
  have hsite : ∀ k, (s.updGen n g).siteOf k = s.siteOf k := fun k => by rw [State.siteOf, hsites, State.siteOf]
  have hwindow : ∀ k, (s.updGen n g).secureWindow k = s.secureWindow k := fun k => by
    unfold State.secureWindow
    simp only [hsite, State.rf_congr hregs]
  have hrange : ∀ q, (s.updGen n g).pkgRange q = s.pkgRange q := fun _ => by simp only [State.pkgRange, hwindow, hsites]
  simp only [State.pkgCheck, State.openPackage, Bool.false_and, harea, hlevel, hsigned, hkey, hrange, Bool.false_eq_true, if_false]

theorem State.pkgCheck_of_badVersion (h : f.head.version ≠ 1 ∧ f.head.version ≠ 2 ∨ s.formatLevel < f.head.fmtLevel) :
    s.pkgCheck n shard false f = .error stVersion := by
  have hbad : (!(f.head.version == 1 || f.head.version == 2) || decide (s.formatLevel < f.head.fmtLevel)) = true := by
    rcases h with ⟨h1, h2⟩ | h
    · simp [h1, h2]
    · simp [h]
  simp only [State.pkgCheck, Bool.false_and, Bool.false_eq_true, if_false, hbad, if_true]

theorem State.pkgCheck_of_sealed (hversion : f.head.version = 1 ∨ f.head.version = 2) (hlevel : f.head.fmtLevel ≤ s.formatLevel)
    (hopen : s.openPackage (s.area 1).bytes f shard = none) : s.pkgCheck n shard false f = .error stAuth := by
  have hgood : (!(f.head.version == 1 || f.head.version == 2) || decide (s.formatLevel < f.head.fmtLevel)) = false := by
    rcases hversion with h | h <;> simp [h, hlevel]
  simp only [State.pkgCheck, Bool.false_and, Bool.false_eq_true, if_false, hgood, hopen]

/-- A block that fails leaves the package without plaintexts. -/
theorem openBlocks_of_failing {m : Mem} {key : List Byte} {v : Nat} {l : List IndexEntry} {e : IndexEntry} (he : e ∈ l)
    (hmine : e.isMine v shard = true) (hfail : openBlock m key e = none) : openBlocks m key v shard l = none := by
  induction l with
  | nil => cases he
  | cons a l ih =>
    rw [openBlocks]
    rcases List.mem_cons.mp he with rfl | he
    · rw [if_pos hmine, hfail]
    · rw [ih he]
      split <;> simp_all

/-- A package whose checks all hold is one of version 1 or 2. -/
theorem State.version_of_pkgCheck (h : s.pkgCheck n shard false f = .ok p) : p.version = 1 ∨ p.version = 2 := by
  unfold State.pkgCheck at h
  simp only [Bool.false_and, Bool.false_eq_true, if_false] at h
  split at h
  · cases h
  next hgood =>
    split at h
    · cases h
    · split at h
      · cases h
      · split at h
        · cases h
        · cases h
          simp only [Bool.or_eq_true, not_or, Bool.not_eq_true, Bool.not_eq_false', beq_iff_eq] at hgood
          exact hgood.1

/-- The status of a load that fails its checks. -/
theorem State.status_of_pkgCheck {st : Nat} (h : s.pkgCheck n shard false f = .error st) : st < 256 := by
  unfold State.pkgCheck at h
  simp only [Bool.false_and, Bool.false_eq_true, if_false] at h
  split at h
  · cases h; decide
  · split at h
    · cases h; decide
    · split at h
      · cases h; decide
      · split at h
        · cases h; decide
        · cases h

/-! ### What a load makes of its slot -/

/-- The word of a slot that holds a generation in a state, with the version of its package. -/
def slotWord (state gen version : Nat) : Nat := setBits (setBits (state * 2 ^ 24 + gen) 23 16 0) 9 8 version

end

section
variable {s : State} {h : Hdr} {x : Session} {gen shard n : Nat} {f : PkgFile} {p : Package} {r : Reply}

/-- The slot's register alone says its state. -/
theorem State.slotState_setReg (s : State) (n v : Nat) (hv : v < 2 ^ 64) :
    (s.setReg Reg.WGT_GEN_SLOTn 0 n v).slotState n = bitsOf v 27 24 ∧ (s.setReg Reg.WGT_GEN_SLOTn 0 n v).slotGen n = bitsOf v 7 0 := by
  rw [State.slotState, State.slotGen, State.rf, State.rf, State.reg_setReg_self, Nat.mod_eq_of_lt hv]
  exact ⟨rfl, rfl⟩

/-- A load begins: its slot is `VALIDATING` (R330). -/
theorem exec_pkgLoad_of_slot (hc : s.calm) (hareas : s.hpt.areas.length = 3) (hok : s.accepts h (opRow 0x0130) false true true x) (hgen : gen < 256)
    (hshard : shard < 65536) (hbusy : (s.area 1).busy = false) (hclosed : (s.area 1).closed = true) (hslot : s.loadSlot gen = .ok (n, false)) :
    exec (.pkgLoad h gen shard) s = .next ((((s.taken h).withArea 1 { s.area 1 with busy := true }).updGen n fun g =>
      { g with loading := some (replyTo h 0x0130, gen, shard, false) }).setReg Reg.WGT_GEN_SLOTn 0 n (1 * 2 ^ 24 + gen)) := by
  have harea : (s.taken h).updArea 1 (fun a => { a with busy := true }) = (s.taken h).withArea 1 { s.area 1 with busy := true } :=
    State.updArea_eq (s := s.taken h) (show 1 < s.hpt.areas.length by omega) _
  have hbusy' : ((s.taken h).area 1).busy = false := hbusy
  have hclosed' : ((s.taken h).area 1).closed = true := hclosed
  have hslot' : (s.taken h).loadSlot gen = .ok (n, false) := hslot
  show execPkgLoad h gen shard s = _
  rw [execPkgLoad, decide_eq_true (show gen < 256 ∧ shard < 65536 from ⟨hgen, hshard⟩), State.command_of_accepts hok]
  simp only [hbusy', hclosed', hslot', Bool.not_true, Bool.false_eq_true, if_false, harea]
  exact finish_of_calm hc rfl

/-- The contents of a slot that a package has been loaded into. -/
def Gen.loaded (g : Gen) (p : Package) (shard : Nat) : Gen :=
  { g with
    loading := none, pkg := some p, pkgId := p.pkgId, shard := shard, delivered := p.delivered, broken := false, reload := false, noMaster := []
    derived := if p.version = 1 then pkgDigest p else 0 }

/-- The state in which a slot has become `STAGED`. -/
def State.slotLoaded (s : State) (n gen shard : Nat) (p : Package) : State :=
  ((s.updGen n fun g => g.loaded p shard).setReg Reg.WGT_GEN_SLOTn 0 n (slotWord 2 gen p.version)).withArea 1 areaReset

/-- The state in which a rejected load has left its slot `EMPTY` with the status. -/
def State.slotRejected (s : State) (n st : Nat) : State :=
  (((s.updGen n fun _ => genReset).setReg Reg.WGT_GEN_SLOTn 0 n 0).setRf Reg.WGT_GEN_SLOTn 0 n 23 16 st).withArea 1 areaReset

theorem State.loading_found (hn : n < 2) (hload : (s.gen n).loading = some (r, gen, shard, false)) (hfirst : n = 1 → (s.gen 0).loading = none) :
    (List.range 2).findSome? (fun k => (s.gen k).loading.map (fun l => (k, l))) = some (n, r, gen, shard, false) := by
  rw [show List.range 2 = [0, 1] from rfl]
  obtain rfl | rfl : n = 0 ∨ n = 1 := by omega
  · rw [List.findSome?_cons, hload]
    rfl
  · rw [List.findSome?_cons, hfirst rfl, List.findSome?_cons, hload]
    rfl

theorem slotWord_fields {state version : Nat} (hstate : state < 16) (hgen : gen < 256) (hversion : version < 4) :
    slotWord state gen version < 2 ^ 64 ∧ bitsOf (slotWord state gen version) 27 24 = state ∧ bitsOf (slotWord state gen version) 7 0 = gen ∧
    bitsOf (slotWord state gen version) 9 8 = version ∧ bitsOf (slotWord state gen version) 23 16 = 0 := by
  have hlow : bitsOf (state * 2 ^ 24 + gen) 27 24 = state ∧ bitsOf (state * 2 ^ 24 + gen) 7 0 = gen := by
    simp only [bitsOf]
    omega
  refine ⟨?_, ?_, ?_, ?_, ?_⟩
  · simp only [slotWord, setBits, bitsOf]
    omega
  · rw [slotWord, bitsOf_setBits_apart _ _ (by decide), bitsOf_setBits_apart _ _ (by decide), hlow.1]
  · rw [slotWord, bitsOf_setBits_apart _ _ (by decide), bitsOf_setBits_apart _ _ (by decide), hlow.2]
  · rw [slotWord, bitsOf_setBits_self]
    exact Nat.mod_eq_of_lt hversion
  · rw [slotWord, bitsOf_setBits_apart _ _ (by decide), bitsOf_setBits_self]
    rfl

theorem State.slotLoaded_fields (s : State) (shard : Nat) (hgen : gen < 256) (hversion : p.version < 4) :
    let t := s.slotLoaded n gen shard p
    t.slotState n = 2 ∧ t.slotGen n = gen ∧ t.rf Reg.WGT_GEN_SLOTn 0 n 9 8 = p.version ∧ t.rf Reg.WGT_GEN_SLOTn 0 n 23 16 = 0 := by
  obtain ⟨hlt, h1, h2, h3, h4⟩ := slotWord_fields (state := 2) (by decide) hgen hversion
  have hreg : (s.slotLoaded n gen shard p).reg Reg.WGT_GEN_SLOTn 0 n = slotWord 2 gen p.version :=
    (State.reg_setReg_self _ _ _ _ _).trans (Nat.mod_eq_of_lt hlt)
  simp only [State.slotState, State.slotGen, State.rf, hreg, h1, h2, h3, h4, and_self]

theorem State.gen_slotLoaded (hn : n < s.gens.length) (shard : Nat) : (s.slotLoaded n gen shard p).gen n = (s.gen n).loaded p shard := by
  show (s.gens.modify n _).getD n genReset = _
  rw [State.gen, List.getD_eq_getElem?_getD, List.getD_eq_getElem?_getD, List.getElem?_modify_eq, List.getElem?_eq_getElem hn]
  rfl

theorem State.slotRejected_fields (s : State) {st : Nat} (hst : st < 256) :
    (s.slotRejected n st).slotState n = 0 ∧ (s.slotRejected n st).rf Reg.WGT_GEN_SLOTn 0 n 23 16 = st ∧
    OnlyRegs ((s.updGen n fun _ => genReset).withArea 1 areaReset) (s.slotRejected n st) [Reg.WGT_GEN_SLOTn.addr 0 n] := by
  obtain ⟨u, hu⟩ : ∃ u, s.updGen n (fun _ => genReset) = u := ⟨_, rfl⟩
  obtain ⟨v, hv⟩ : ∃ v, (u.setReg Reg.WGT_GEN_SLOTn 0 n 0).setRf Reg.WGT_GEN_SLOTn 0 n 23 16 st = v := ⟨_, rfl⟩
  have honly : OnlyRegs u v [Reg.WGT_GEN_SLOTn.addr 0 n] := hv ▸ (onlyRegs_setReg _ _ _ _ _).trans (onlyRegs_setRf _ _ _ _ _ _ _)
  have hempty : v.rf Reg.WGT_GEN_SLOTn 0 n 27 24 = 0 := by
    rw [← hv, State.rf_setRf_apart _ _ _ _ _ (by decide) (by decide), State.rf, State.reg_setReg_self]
    rfl
  have hstatus : v.rf Reg.WGT_GEN_SLOTn 0 n 23 16 = st := by
    rw [← hv, State.rf_setRf_self _ _ _ _ _ _ (by decide)]
    exact Nat.mod_eq_of_lt hst
  rw [State.slotRejected, hu, hv]
  have hregs : (v.withArea 1 areaReset).regs = v.regs := rfl
  exact ⟨(State.rf_congr hregs ..).trans hempty, (State.rf_congr hregs ..).trans hstatus,
    by rw [honly.1]; rfl, fun w hw => honly.2 w hw⟩

/-- `GEN_DISCARD` of a `STAGED` slot empties it (R333). -/
theorem genDiscard_done (hc : s.calm) (hn : n < 2) (hok : s.accepts h (opRow 0x0131) false true true x) (hstaged : s.slotState n = 2) :
    Done (exec (.genDiscard h n) s) h 0x0131 ((s.taken h).clearSlot n) [] := by
  show Done (execGenDiscard h n s) _ _ _ _
  rw [execGenDiscard, decide_eq_true hn]
  exact done_of_accepts hc hok (if_pos hstaged) rfl

section
variable (hc : s.calm) (hareas : s.hpt.areas.length = 3) (hn : n < 2) (hload : (s.gen n).loading = some (r, gen, shard, false))
  (hfirst : n = 1 → (s.gen 0).loading = none)
include hc hareas hn hload hfirst

/-- A package that passes every check makes its slot `STAGED` (R330). -/
theorem exec_pkgLoadDone_of_ok (hgen : gen < 256) (hcheck : s.pkgCheck n shard false f = .ok p) :
    exec (.pkgLoadDone f) s = .next ((s.slotLoaded n gen shard p).answer r stOk []) := by
  have hgens : (s.updGen n fun g => { g with loading := none }).updGen n (fun g => { g with
      pkg := some p, pkgId := p.pkgId, shard := shard, delivered := p.delivered, broken := false, reload := false, noMaster := []
      derived := if p.version = 1 then pkgDigest p else 0 }) = s.updGen n fun g => g.loaded p shard := by
    simp only [State.updGen, List.modify_modify_eq]
    rfl
  obtain ⟨v, hv⟩ : ∃ v, (s.updGen n fun g => g.loaded p shard).setReg Reg.WGT_GEN_SLOTn 0 n (slotWord 2 gen p.version) = v := ⟨_, rfl⟩
  have hstate : v.slotState n = 2 := by
    obtain ⟨hlt, hstate, -⟩ := slotWord_fields (state := 2) (by decide) hgen (show p.version < 4 by have := State.version_of_pkgCheck hcheck; omega)
    rw [← hv, (State.slotState_setReg _ n _ hlt).1, hstate]
  have hfcl : v.fcl = s.fcl := by rw [← hv]; rfl
  have hlen : 1 < v.hpt.areas.length := by rw [← hv]; exact hareas ▸ (by decide : 1 < 3)
  have hslot : ((s.updGen n fun g => { g with loading := none }).setReg Reg.WGT_GEN_SLOTn 0 n
      (setBits (setBits (2 * 2 ^ 24 + gen) 23 16 0) 9 8 p.version)).updGen n (fun g => { g with
      pkg := some p, pkgId := p.pkgId, shard := shard, delivered := p.delivered, broken := false, reload := false, noMaster := []
      derived := if p.version = 1 then pkgDigest p else 0 }) = v := by
    rw [← hv, ← hgens]
    rfl
  show execPkgLoadDone f s = _
  rw [execPkgLoadDone, State.loading_found hn hload hfirst]
  have hserves : (v.slotState n = 4) = False := by rw [hstate]; simp
  simp only [State.pkgCheck_updGen, hcheck, Bool.false_eq_true, if_false, hslot, hserves, State.updArea_eq hlen, State.slotLoaded, hv]
  exact finish_of_calm hc ((State.answer_ok_fcl (v.withArea 1 areaReset) _ _).trans hfcl)

/-- A package that fails a check leaves its slot `EMPTY` with the status (R330). -/
theorem exec_pkgLoadDone_of_error {st : Nat} (hroom : s.room Reg.WGT_PKG_REJECT 0 0 1) (hanswer : s.room Reg.HPT_CMD_REJECT 0 0 1)
    (hcheck : s.pkgCheck n shard false f = .error st) :
    exec (.pkgLoadDone f) s = .next (((s.slotRejected n st).err Reg.WGT_PKG_REJECT 0 0 1).answer r st []) := by
  have hgens : (s.updGen n fun g => { g with loading := none }).updGen n (fun _ => genReset) = s.updGen n fun _ => genReset := by
    simp only [State.updGen, List.modify_modify_eq]
    rfl
  obtain ⟨v, hv⟩ : ∃ v, ((s.updGen n fun _ => genReset).setReg Reg.WGT_GEN_SLOTn 0 n 0).setRf Reg.WGT_GEN_SLOTn 0 n 23 16 st = v := ⟨_, rfl⟩
  have hslot : ((s.updGen n fun g => { g with loading := none }).clearSlot n).setRf Reg.WGT_GEN_SLOTn 0 n 23 16 st = v := by
    rw [← hv, ← hgens]
    rfl
  have hlen : 1 < v.hpt.areas.length := by rw [← hv]; exact hareas ▸ (by decide : 1 < 3)
  have honly : OnlyRegs (s.updGen n fun _ => genReset) v [Reg.WGT_GEN_SLOTn.addr 0 n] := by
    rw [← hv]
    exact (onlyRegs_setReg _ _ _ _ _).trans (onlyRegs_setRf _ _ _ _ _ _ _)
  have hcount : (v.withArea 1 areaReset).room Reg.WGT_PKG_REJECT 0 0 1 :=
    State.room_of_reg (honly.reg (by simp [RegFam.addr, Reg.WGT_GEN_SLOTn, Reg.WGT_PKG_REJECT]; omega)) hroom
  obtain ⟨u, hu⟩ : ∃ u, (v.withArea 1 areaReset).err Reg.WGT_PKG_REJECT 0 0 1 = u := ⟨_, rfl⟩
  have hcounted : OnlyRegs (v.withArea 1 areaReset) u [Reg.WGT_PKG_REJECT.addr 0 0] := hu ▸ onlyRegs_err hcount
  have hreply : u.room Reg.HPT_CMD_REJECT 0 0 1 := hcounted.room (by decide)
    (State.room_of_reg (honly.reg (by simp [RegFam.addr, Reg.WGT_GEN_SLOTn, Reg.HPT_CMD_REJECT]; omega)) hanswer)
  show execPkgLoadDone f s = _
  rw [execPkgLoadDone, State.loading_found hn hload hfirst]
  simp only [State.pkgCheck_updGen, hcheck, Bool.false_eq_true, if_false, hslot, State.rejectLoad, State.updArea_eq hlen, State.slotRejected, hv, hu]
  exact finish_of_calm hc ((State.answer_fcl_of_room u _ _ _ hreply).trans (hcounted.fcl.trans honly.fcl))

end

end

/-- Settles O41, clause by clause. -/
theorem packageSlots : Obligations.PackageSlots := by
  unfold Obligations.PackageSlots
  intro s h x r gen shard n f p hc hgens hareas hn u slot free
  have hlen : n < s.gens.length := by omega
  have hget : s.gens[n]? = some (s.gen n) := by rw [State.gen, List.getD_eq_getElem?_getD, List.getElem?_eq_getElem hlen]; rfl
  refine ⟨fun k hk hempty hfirst hgen hnew => State.loadSlot_of_empty hk hempty hfirst hgen hnew, ?_, ?_, ?_, rfl⟩
  · intro hok hgen hshard hbusy hclosed hslot
    refine ⟨_, exec_pkgLoad_of_slot hc hareas hok hgen hshard hbusy hclosed hslot, ?_, ?_, rfl, fun w hw => State.word_setReg_of_ne _ _ _ _ _ _ hw⟩
    · rw [(State.slotState_setReg _ n _ (by omega)).1, bitsOf]
      omega
    · rw [(State.slotState_setReg _ n _ (by omega)).2, bitsOf]
      omega
  · intro hload hfirst hgen
    refine ⟨⟨State.pkgCheck_of_badVersion, fun hversion hlevel => ⟨fun hbad => ?_, fun key hkey ⟨e, he, hmine, hfail⟩ => ?_⟩⟩, fun hcheck => ?_,
      fun st hcheck hroom hanswer => ?_⟩
    · refine State.pkgCheck_of_sealed hversion hlevel ?_
      unfold State.openPackage
      rcases hbad with hbad | hbad | hbad
      · rw [hbad]; rfl
      · rw [hbad, Bool.and_false]; rfl
      · rw [hbad]; exact ite_self _
    · refine State.pkgCheck_of_sealed hversion hlevel ?_
      unfold State.openPackage
      rw [hkey, Option.bind_some, openBlocks_of_failing he hmine hfail]
      exact ite_self _
    · obtain ⟨h1, h2, h3, h4⟩ := s.slotLoaded_fields (n := n) shard hgen (show p.version < 4 by have := State.version_of_pkgCheck hcheck; omega)
      have hgen' := State.gen_slotLoaded (s := s) (gen := gen) (p := p) hlen shard
      refine ⟨_, exec_pkgLoadDone_of_ok hc hareas hn hload hfirst hgen hcheck, h1, h2, h3, h4, by rw [hgen']; rfl, by rw [hgen']; rfl, rfl,
        fun k hk => List.getElem?_modify_ne _ _ (Ne.symm hk), fun w hw => State.word_setReg_of_ne _ _ _ _ _ _ hw⟩
    · obtain ⟨h1, h2, honly⟩ := s.slotRejected_fields (n := n) (State.status_of_pkgCheck hcheck)
      have hexec := exec_pkgLoadDone_of_error hc hareas hn hload hfirst hroom hanswer hcheck
      obtain ⟨v, hv⟩ : ∃ v, s.slotRejected n st = v := ⟨_, rfl⟩
      rw [hv] at h1 h2 honly hexec
      have hslot : Reg.WGT_PKG_REJECT.addr 0 0 ≠ Reg.WGT_GEN_SLOTn.addr 0 n := by
        simp only [RegFam.addr, Reg.WGT_GEN_SLOTn, Reg.WGT_PKG_REJECT]
        omega
      have hcount : v.room Reg.WGT_PKG_REJECT 0 0 1 := honly.room (by simpa using hslot) (State.room_of_reg rfl hroom)
      have hcounted := onlyRegs_err hcount
      have hfields : ∀ hi lo, (v.err Reg.WGT_PKG_REJECT 0 0 1).rf Reg.WGT_GEN_SLOTn 0 n hi lo = v.rf Reg.WGT_GEN_SLOTn 0 n hi lo :=
        hcounted.rf (by simpa using Ne.symm hslot)
      have hall := honly.append hcounted
      have hfree : (s.updGen n fun _ => genReset).withArea 1 areaReset = { free with gens := s.gens.set n genReset } := by
        rw [State.updGen, modify_eq_set_of_getElem? _ hget]
        rfl
      refine ⟨_, hexec, (hfields ..).trans h1, (hfields ..).trans h2, ?_, ?_, fun w hw => hall.2 w hw⟩
      · have hstate := hall.1
        rw [hfree] at hstate
        exact hstate
      · rw [State.reg_err_of_room hcount, honly.reg (by simpa using hslot)]
        rfl
  · intro hok hstaged
    have hgens : (s.taken h).gens.modify n (fun _ => genReset) = s.gens.set n genReset := modify_eq_set_of_getElem? _ hget
    refine ⟨_, genDiscard_done hc hn hok hstaged, ?_, ?_, fun w hw => ?_⟩
    · rw [State.clearSlot]
      exact (State.slotState_setReg (s.taken h) n 0 (by decide)).1
    · rw [State.clearSlot, State.updGen, ← hgens]
      rfl
    · have hregs : ((s.taken h).clearSlot n).regs = ((s.taken h).setReg Reg.WGT_GEN_SLOTn 0 n 0).regs := rfl
      rw [State.word, hregs]
      exact State.word_setReg_of_ne (s.taken h) _ _ _ 0 _ hw

end Sys2Proof.Machine
end

section
/-! SUPPORT. What a chip reset and the last writes before OFF leave (R408, R459, R491). -/

namespace Sys2Proof.Machine

/-! ### The chip reset (R408) -/

theorem keepReg_key {r k : Nat × BitVec 64} (h : keepReg r = some k) : k.1 = r.1 := by
  unfold keepReg at h
  cases hat : regAt r.1 with
  | none => simp [hat] at h
  | some x =>
    simp only [hat] at h
    split_ifs at h <;> simp_all <;> simp [← h]

/-- A register that no reset keeps has its default value after one. -/
theorem get_filterMap_keepReg {d : BitVec 64} {a : Nat} (hlost : ∀ v, keepReg (a, v) = none) (m : SMap (BitVec 64)) :
    SMap.get (m.filterMap keepReg) d a = d := by
  induction m with
  | nil => rfl
  | cons r m ih =>
    rw [List.filterMap_cons]
    cases hr : keepReg r with
    | none => exact ih
    | some k =>
      have hne : ¬ k.1 = a := fun hk => by
        rw [show r = (a, r.2) by rw [← hk, keepReg_key hr], hlost] at hr
        cases hr
      exact (if_neg hne).trans ih

/-- What a chip reset makes of the fields beside the registers. -/
structure ResetFields (s t : State) : Prop where
  mem : t.mem = []
  sessions : t.hpt.sessions = []
  active : t.sched.active = none
  pow : t.pow = { s.pow with booted := false, path := [], toIdle := false }
  sites : t.siteEn = s.siteEn
  store : t.fcl.store = s.fcl.store
  key : t.flt.key = none
  sec : t.sec = s.sec

/-- The registers that a chip reset sets at its end. -/
def resetAddrs : List Nat :=
  [Reg.WGT_GEN_SLOTn.addr 0 0, Reg.WGT_GEN_SLOTn.addr 0 1, Reg.WGT_PROG_STATE.addr 0 0, Reg.DEV_SIDEBAND.addr 0 0, Reg.FCL_STATE.addr 0 0]

theorem onlyRegs_resetEnd (t : State) (a b pins cause : Nat) (stopped : Bool) :
    let u := (if stopped then ((t.setReg Reg.WGT_GEN_SLOTn 0 0 a).setReg Reg.WGT_GEN_SLOTn 0 1 b).setRf Reg.WGT_PROG_STATE 0 0 23 22 3
      else (t.setReg Reg.WGT_GEN_SLOTn 0 0 a).setReg Reg.WGT_GEN_SLOTn 0 1 b)
    let v := (u.setRf Reg.DEV_SIDEBAND 0 0 1 0 pins).setRf Reg.FCL_STATE 0 0 17 16 cause
    OnlyRegs t v resetAddrs ∧ v.rf Reg.DEV_SIDEBAND 0 0 1 0 = pins % 2 ^ 2 ∧ v.rf Reg.FCL_STATE 0 0 17 16 = cause % 2 ^ 2 := by
  intro u v
  have hu : OnlyRegs t u [Reg.WGT_GEN_SLOTn.addr 0 0, Reg.WGT_GEN_SLOTn.addr 0 1, Reg.WGT_PROG_STATE.addr 0 0] := by
    have hslots := (onlyRegs_setReg t Reg.WGT_GEN_SLOTn 0 0 a).append (onlyRegs_setReg _ Reg.WGT_GEN_SLOTn 0 1 b)
    show OnlyRegs t (if stopped then _ else _) _
    split
    · exact hslots.append (onlyRegs_setRf _ _ _ _ _ _ _)
    · exact hslots.mono (by simp)
  have hv : OnlyRegs u v [Reg.DEV_SIDEBAND.addr 0 0, Reg.FCL_STATE.addr 0 0] :=
    (onlyRegs_setRf u Reg.DEV_SIDEBAND 0 0 1 0 pins).append (onlyRegs_setRf _ Reg.FCL_STATE 0 0 17 16 cause)
  refine ⟨hu.append hv, ?_, State.rf_setRf_self _ _ _ _ _ _ (by decide)⟩
  exact (State.rf_setRf_of_ne _ _ _ _ _ _ _ _ _ _ _ _ (by decide)).trans (State.rf_setRf_self _ _ _ _ _ _ (by decide))

theorem State.chipReset_frame (s : State) (cause : Nat) : ∃ t, ResetFields s t ∧ t.regs = s.regs.filterMap keepReg ∧
    OnlyRegs t (s.chipReset cause) resetAddrs ∧ (s.chipReset cause).rf Reg.DEV_SIDEBAND 0 0 1 0 = s.rf Reg.DEV_SIDEBAND 0 0 1 0 % 2 ^ 2 ∧
    (s.chipReset cause).rf Reg.FCL_STATE 0 0 17 16 = cause % 2 ^ 2 := by
  have hcut := s.cutWrites_only
  unfold State.chipReset
  obtain ⟨u, hu⟩ : ∃ u, s.cutWrites = u := ⟨_, rfl⟩
  rw [hu] at hcut ⊢
  obtain ⟨c, n, p, m, rfl⟩ := hcut
  refine ⟨_, ?_, ?_, onlyRegs_resetEnd _ _ _ _ _ _⟩
  · exact ⟨rfl, rfl, rfl, rfl, rfl, rfl, rfl, rfl⟩
  · rfl

theorem State.flightState_chipReset (s : State) (cause : Nat) : (s.chipReset cause).flightState = 0 := by
  obtain ⟨t, -, hregs, honly, -⟩ := s.chipReset_frame cause
  rw [State.flightState, honly.rf (by decide), State.rf, State.reg, hregs, get_filterMap_keepReg]
  · rfl
  · have hat : regAt (Reg.FLK_FLIGHT_STATE.addr 0 0) = some (Reg.FLK_FLIGHT_STATE, 0, 0, 0) := by decide +kernel
    intro v
    simp only [keepReg, hat]
    rfl

/-- What a chip reset makes of the fields beside the registers. -/
theorem State.resetFields_chipReset (s : State) (cause : Nat) : ResetFields s (s.chipReset cause) := by
  obtain ⟨t, hfields, -, honly, -⟩ := s.chipReset_frame cause
  obtain ⟨v, hv⟩ : ∃ v, s.chipReset cause = v := ⟨_, rfl⟩
  rw [hv] at honly ⊢
  obtain ⟨h1, h2, h3, h4, h5, h6, h7, h8⟩ := hfields
  constructor <;> rw [honly.1] <;> assumption

theorem State.sideband_chipReset (s : State) (cause : Nat) :
    (s.chipReset cause).rf Reg.DEV_SIDEBAND 0 0 1 0 = s.rf Reg.DEV_SIDEBAND 0 0 1 0 := by
  obtain ⟨-, -, -, -, hpins, -⟩ := s.chipReset_frame cause
  rw [hpins]
  exact Nat.mod_mod _ _

theorem State.lastReset_chipReset (s : State) {cause : Nat} (hcause : cause < 4) : (s.chipReset cause).rf Reg.FCL_STATE 0 0 17 16 = cause := by
  obtain ⟨-, -, -, -, -, hlast⟩ := s.chipReset_frame cause
  rw [hlast]
  exact Nat.mod_eq_of_lt hcause

/-! ### OFF (R491) -/

/-- The device is off: what is volatile is lost. -/
structure OffFields (s t : State) (input : Bool) : Prop where
  on : t.pow.on = false
  booted : t.pow.booted = false
  power : t.power = 4
  mem : t.mem = []
  sessions : t.hpt.sessions = []
  active : t.sched.active = none
  flight : t.flightState = 0
  pow : t.pow = { s.pow with booted := false, path := [], toIdle := false, on := false, kept := s.pow.kept && input }
  sideband : t.rf Reg.DEV_SIDEBAND 0 0 1 0 = s.rf Reg.DEV_SIDEBAND 0 0 1 0

theorem State.offFields_turnOff (s : State) (input : Bool) : OffFields s (s.turnOff input) input := by
  have hflight := s.flightState_chipReset 0
  have hpins := s.sideband_chipReset 0
  obtain ⟨hmem, hsessions, hactive, hpow, -⟩ := s.resetFields_chipReset 0
  unfold State.turnOff
  obtain ⟨v, hv⟩ : ∃ v, s.chipReset 0 = v := ⟨_, rfl⟩
  rw [hv] at hflight hpins hmem hsessions hactive hpow ⊢
  obtain ⟨u, hu⟩ : ∃ u, v.setReg Reg.PWR_STATE 0 0 0x44 = u := ⟨_, rfl⟩
  have honly : OnlyRegs v u [Reg.PWR_STATE.addr 0 0] := hu ▸ onlyRegs_setReg _ _ _ _ _
  have hpower : u.power = 4 := by
    rw [← hu, State.power, State.rf, State.reg_setReg_self]
    rfl
  have hflight' : u.flightState = 0 := (honly.rf (by decide) _ _).trans hflight
  have hpow' : u.pow = { s.pow with booted := false, path := [], toIdle := false } := by rw [honly.1]; exact hpow
  have hpins' : u.rf Reg.DEV_SIDEBAND 0 0 1 0 = s.rf Reg.DEV_SIDEBAND 0 0 1 0 := (honly.rf (by decide) _ _).trans hpins
  dsimp only
  rw [hu]
  exact ⟨rfl, by rw [hpow'], hpower, by rw [honly.1]; exact hmem, by rw [honly.1]; exact hsessions, by rw [honly.1]; exact hactive, hflight',
    by rw [hpow'], hpins'⟩

end Sys2Proof.Machine
end

section
/-! SUPPORT. The writes that complete before OFF leave the power domain's own state and the pins (R457, R459, R493). -/

namespace Sys2Proof.Machine

/-- The power domain's state and the register of the pins stand. -/
structure PinsKept (s t : State) : Prop where
  pow : t.pow = s.pow
  word : t.word (Reg.DEV_SIDEBAND.addr 0 0) = s.word (Reg.DEV_SIDEBAND.addr 0 0)

section
variable {s t u : State}

theorem PinsKept.refl (s : State) : PinsKept s s := ⟨rfl, rfl⟩

theorem PinsKept.trans (h : PinsKept s t) (k : PinsKept t u) : PinsKept s u := ⟨k.pow.trans h.pow, k.word.trans h.word⟩

/-- A state that differs elsewhere. -/
theorem PinsKept.same (h : PinsKept s t) (hpow : u.pow = t.pow) (hregs : u.regs = t.regs) : PinsKept s u :=
  ⟨hpow.trans h.pow, (congrArg (fun m => m.lookup (Reg.DEV_SIDEBAND.addr 0 0)) hregs).trans h.word⟩

theorem PinsKept.rf (h : PinsKept s t) (hi lo : Nat) : t.rf Reg.DEV_SIDEBAND 0 0 hi lo = s.rf Reg.DEV_SIDEBAND 0 0 hi lo :=
  State.rf_of_word h.word hi lo

theorem PinsKept.foldl {α : Type} {f : State → α → State} (hf : ∀ s x, PinsKept s (f s x)) (l : List α) : ∀ s, PinsKept s (l.foldl f s) := by
  induction l with
  | nil => exact .refl
  | cons x l ih => exact fun s => (hf s x).trans (ih _)

theorem PinsKept.foldl_from {α : Type} {f : State → α → State} (hf : ∀ s x, PinsKept s (f s x)) (l : List α) (h : PinsKept s t) :
    PinsKept s (l.foldl f t) := h.trans (.foldl hf l t)

theorem PinsKept.setReg (f : RegFam) (i j v : Nat) (hf : 0x200 < f.base) (h : PinsKept s t) : PinsKept s (t.setReg f i j v) := by
  refine h.trans ⟨rfl, State.word_setReg_of_ne _ _ _ _ _ _ ?_⟩
  have hbase : f.base ≤ f.addr i j := by rw [RegFam.addr]; omega
  have hpins : Reg.DEV_SIDEBAND.addr 0 0 = 0x200 := rfl
  omega

theorem PinsKept.setRf (f : RegFam) (i j hi lo v : Nat) (hf : 0x200 < f.base) (h : PinsKept s t) : PinsKept s (t.setRf f i j hi lo v) :=
  h.setReg f i j _ hf

theorem PinsKept.ofRaiseFrame {l : List Nat} {b : Bool} (hl : Reg.DEV_SIDEBAND.addr 0 0 ∉ l) (h : RaiseFrame l b s t) : PinsKept s t := by
  obtain ⟨regs, fcl, free, cores, hstate⟩ := h.state
  exact ⟨by rw [hstate], h.word _ hl⟩

theorem pins_notMem_raiseAddrs (src : Nat) : Reg.DEV_SIDEBAND.addr 0 0 ∉ raiseAddrs src := by
  rw [mem_raiseAddrs]
  simp only [RegFam.addr, Reg.DEV_SIDEBAND, Reg.FCL_SAT_LAST, Reg.FCL_SIG_NEXT, Reg.FCL_SIG_DROPPED, Reg.FCL_SIG_SUPPRESSED, Reg.FCL_SRCn_COUNT,
    Reg.FCL_SRCn_STAT]
  omega

theorem PinsKept.raise (src unit : Nat) (h : PinsKept s t) : PinsKept s (t.raise src unit) :=
  h.trans (.ofRaiseFrame (pins_notMem_raiseAddrs src) (raiseFrame_raise t src unit))

theorem PinsKept.err (f : RegFam) (i j n : Nat) (hf : 0x200 < f.base) (h : PinsKept s t) : PinsKept s (t.err f i j n) := by
  refine h.trans (.ofRaiseFrame (b := false) (fun hin => ?_) (raiseFrame_err t f i j n))
  rcases List.mem_cons.mp hin with heq | hin
  · have hbase : f.base ≤ f.addr i j := by rw [RegFam.addr]; omega
    have hpins : Reg.DEV_SIDEBAND.addr 0 0 = 0x200 := rfl
    omega
  · exact pins_notMem_raiseAddrs 0 hin

theorem PinsKept.holdupCheck (die mj : Nat) (h : PinsKept s t) : PinsKept s (t.holdupCheck die mj) := by
  unfold State.holdupCheck
  split
  · exact h
  · exact (h.err _ _ _ _ (by decide)).raise _ _

/-! ### Programming -/

theorem PinsKept.countCycle (site a : Nat) (h : PinsKept s t) : PinsKept s (t.countCycle site a) := by
  have hcount := h.setRf Reg.ARY_PROG_CYCLESa site a 23 0 (min 0xFFFFFF (t.rf Reg.ARY_PROG_CYCLESa site a 23 0 + 1)) (by decide)
  unfold State.countCycle
  dsimp only
  split
  · exact hcount.raise _ _
  · exact hcount

theorem pinsKept_eraseArray (s : State) (site a : Nat) : PinsKept s (s.eraseArray site a) := by
  refine (PinsKept.countCycle site a ?_).setReg Reg.ARY_AGEa site a 0 (by decide)
  exact (PinsKept.refl s).same rfl rfl

theorem PinsKept.calAppend (die typ arr site : Nat) (payload : List Byte) (h : PinsKept s t) :
    PinsKept s (t.calAppend die typ arr site payload) := ⟨h.pow, h.word⟩

theorem PinsKept.voidRound (h : PinsKept s t) : PinsKept s t.voidRound := h.same rfl rfl

theorem pinsKept_programArray (s : State) (site a slot n : Nat) (t : Tile) (fails : List VerifyFail) :
    PinsKept s (s.programArray site a slot n t fails).1 := by
  unfold State.programArray
  dsimp only
  refine PinsKept.voidRound (.calAppend _ _ _ _ _ (.countCycle site a (.setReg Reg.ARY_AGEa site a 0 (by decide)
    (.setReg Reg.ARY_SPAREa site a _ (by decide) ?_))))
  exact (PinsKept.refl s).same rfl rfl

theorem PinsKept.arrayLess (h : PinsKept s t) : PinsKept s t.arrayLess := h.setRf _ _ _ _ _ _ (by decide)

theorem pinsKept_waveArray (s : State) (p : Prog) (site arr : Nat) (fails : List VerifyFail) : PinsKept s (s.waveArray p site arr fails).1 := by
  unfold State.waveArray
  split
  · exact pinsKept_eraseArray s site arr
  · split
    · exact pinsKept_programArray ..
    · exact .refl s

theorem pinsKept_programHeld (s : State) (site la a : Nat) (fails : List VerifyFail) : PinsKept s (s.programHeld site la a fails).1 := by
  unfold State.programHeld
  split
  · next slot n t heq =>
    have hprog := pinsKept_programArray s site a slot n t fails
    exact hprog.same rfl rfl
  · exact ((PinsKept.refl s).countCycle site a).setReg _ _ _ _ (by decide)

theorem pinsKept_spareDone (s : State) (site arr : Nat) : PinsKept s (s.spareDone site arr) := by
  unfold State.spareDone
  dsimp only
  split
  · exact .refl s
  · exact ⟨rfl, rfl⟩

/-- The writes in progress that complete leave the pins. -/
theorem pinsKept_endWrites (s : State) : PinsKept s s.endWrites := by
  have hwave (p : Prog) : ∀ (t : State) (x : Nat × Nat),
      PinsKept t ((State.waveArray t p x.1 x.2 []).1.setRf Reg.ARY_STATEa x.1 x.2 18 16 0).arrayLess := fun t x => by
    refine PinsKept.arrayLess (PinsKept.setRf _ _ _ _ _ _ (by decide) ?_)
    exact pinsKept_waveArray t p x.1 x.2 []
  have hwaves (p : Prog) (t : State) := PinsKept.foldl (hwave p) (p.dies.flatMap DieProg.todo) t
  unfold State.endWrites
  dsimp only
  refine PinsKept.foldl_from (fun v (x : Nat × Nat) => pinsKept_spareDone v x.1 x.2) _ ?_
  have hprog : ∀ t : State, PinsKept s t → PinsKept s (match t.maintWriting with
      | some x => (t.programHeld x.1 (t.rf Reg.WGT_MAINT 0 0 11 8) x.2 []).1
      | none => t) := fun t ht => by
    split
    · exact ht.trans (pinsKept_programHeld ..)
    · exact ht
  refine hprog _ ?_
  split
  · exact .refl s
  · next p hp =>
    exact (hwaves p s).same rfl rfl

/-! ### The last writes -/

theorem PinsKept.withCal (h : PinsKept s t) (cal : List CalStore) : PinsKept s { t with cal := cal } := h.same rfl rfl

theorem PinsKept.commitBatch (die : Nat) (bad : List Nat) (h : PinsKept s t) : PinsKept s (t.commitBatch die bad) := by
  unfold State.commitBatch
  split
  · exact h
  · next c hc =>
    dsimp only
    split
    · exact h
    · refine PinsKept.foldl_from (fun v _ => (PinsKept.refl v).raise _ _) _ (PinsKept.setRf _ _ _ _ _ _ (by decide) ?_)
      refine PinsKept.withCal ?_ _
      split
      · exact h.setRf _ _ _ _ _ _ (by decide)
      · exact h

theorem PinsKept.commitAge (die : Nat) (h : PinsKept s t) : PinsKept s (t.commitAge die) := by
  refine PinsKept.commitBatch die [] (PinsKept.calAppend _ _ _ _ _ ?_)
  exact h.same rfl rfl

theorem PinsKept.commitOldest (h : PinsKept s t) : PinsKept s t.commitOldest := by
  unfold State.commitOldest
  split
  · exact h
  · next r rest heq =>
    obtain ⟨v, hv⟩ : ∃ v, ({ t with fcl := { t.fcl with buffer := rest } } : State) = v := ⟨_, rfl⟩
    have hpopped : PinsKept s v := h.same (by rw [← hv]) (by rw [← hv])
    have hdrop : PinsKept s ((v.err Reg.FCL_SIG_DROPPED 0 0 1).raise 0x01 devUnit) := (hpopped.err _ _ _ _ (by decide)).raise _ _
    subst hv
    dsimp only
    split
    · exact h.same rfl rfl
    · split
      · split
        · exact h.same rfl rfl
        · exact hdrop
      · exact hdrop

theorem PinsKept.commitBuffer (h : PinsKept s t) : PinsKept s t.commitBuffer :=
  h.foldl_from (fun v _ => (PinsKept.refl v).commitOldest) _

/-- The records that are committed last leave the pins. -/
theorem PinsKept.lastWrites (h : PinsKept s t) : PinsKept s t.lastWrites := by
  have hages : PinsKept s ((List.range 2).foldl (fun (s : State) d => if s.holdup 100 then s.commitAge d else s.holdupCheck d 100) t) :=
    h.foldl_from (fun v d => by
      split
      · exact (PinsKept.refl v).commitAge d
      · exact (PinsKept.refl v).holdupCheck d 100) _
  unfold State.lastWrites
  dsimp only
  split
  · exact h
  · split
    · exact hages.commitBuffer
    · exact hages.holdupCheck _ _

theorem PinsKept.stopProg (h : PinsKept s t) : PinsKept s t.stopProg := by
  unfold State.stopProg
  split
  · split
    · exact h
    · refine PinsKept.setRf _ _ _ _ _ _ (by decide) ?_
      exact h.same rfl rfl
  · exact h

end

end Sys2Proof.Machine
end

section
/-! SUPPORT. The events of the pins and of the input (R487 to R494), and the statement about them. -/

namespace Sys2Proof.Machine

section
variable {s : State}

theorem pins_low_of_bits {v : Nat} (h0 : bitsOf v 0 0 = a) (h1 : bitsOf v 1 1 = b) : bitsOf v 1 0 = a + 2 * b := by
  simp only [bitsOf] at *
  omega

/-- A fall of PWR_EN on a device that is powered takes it off (R493, R494). -/
theorem exec_pwrEnFall_of_on (hvin : s.pow.vin = true) (hon : s.pow.on = true) : ∃ u t : State, exec .pwrEnFall s = .next t ∧ OffFields u t true ∧
    u.rf Reg.DEV_SIDEBAND 0 0 0 0 = 0 ∧ u.pow.pwrEn = false := by
  obtain ⟨v, hv⟩ : ∃ v, (s.setPwrEn false).setRf Reg.DEV_SIDEBAND 0 0 0 0 0 = v := ⟨_, rfl⟩
  have hpow : v.pow = { s.pow with pwrEn := false, lowMs := 0 } := by rw [← hv]; rfl
  have hpin : v.rf Reg.DEV_SIDEBAND 0 0 0 0 = 0 := hv ▸ State.rf_setRf_self _ _ _ _ _ _ (by decide)
  have hpwr : v.pow.pwrEn = false := by rw [hpow]
  have hvin' : (s.setPwrEn false).pow.vin = true := hvin
  have hon' : v.pow.on = true := by rw [hpow]; exact hon
  have hrun : exec .pwrEnFall s = if !v.pow.booted then .next (v.turnOff true) else .next ((v.endWrites.stopProg.lastWrites).turnOff true) := by
    show execPwrEnFall s = _
    rw [execPwrEnFall]
    simp only [hvin', hv, hon', Bool.not_true, Bool.false_eq_true, if_false]
  rw [hrun]
  cases hbooted : v.pow.booted with
  | false => exact ⟨v, _, rfl, v.offFields_turnOff true, hpin, hpwr⟩
  | true =>
    have hkept := (pinsKept_endWrites v).stopProg.lastWrites
    exact ⟨_, _, rfl, State.offFields_turnOff _ true, (hkept.rf 0 0).trans hpin, by rw [hkept.pow, hpwr]⟩

/-- A fall of RESET_N with PWR_EN high resets the chip (R494). -/
theorem exec_resetNAssert_of_on (hvin : s.pow.vin = true) (hon : s.pow.on = true) (hpin : s.rf Reg.DEV_SIDEBAND 0 0 0 0 = 1) :
    ∃ v : State, exec .resetNAssert s = .next (v.chipReset 1) ∧ v.rf Reg.DEV_SIDEBAND 0 0 1 0 = 1 ∧ v.siteEn = s.siteEn ∧ v.fcl.store = s.fcl.store := by
  obtain ⟨v, hv⟩ : ∃ v, (s.setResetN false).setRf Reg.DEV_SIDEBAND 0 0 1 1 0 = v := ⟨_, rfl⟩
  have honly : OnlyRegs (s.setResetN false) v [Reg.DEV_SIDEBAND.addr 0 0] := hv ▸ onlyRegs_setRf _ _ _ _ _ _ _
  have hhigh : v.rf Reg.DEV_SIDEBAND 0 0 1 1 = 0 := hv ▸ State.rf_setRf_self _ _ _ _ _ _ (by decide)
  have hlow : v.rf Reg.DEV_SIDEBAND 0 0 0 0 = 1 := by
    rw [← hv, State.rf_setRf_apart _ _ _ _ _ (by decide) (by decide)]
    exact hpin
  have hvin' : (s.setResetN false).pow.vin = true := hvin
  have hon' : v.pow.on = true := by rw [honly.1]; exact hon
  refine ⟨v, ?_, pins_low_of_bits hlow hhigh, by rw [honly.1]; rfl, by rw [honly.1]; rfl⟩
  show execResetNAssert s = _
  rw [execResetNAssert]
  simp only [hvin', hv, hon', hlow, Bool.not_true, Bool.false_eq_true, if_false, one_ne_zero, or_self]

/-- The device is off and the input is lost. -/
def State.inputLost (s : State) : State := { s.turnOff false with pow := { (s.turnOff false).pow with vin := false } }

theorem State.inputLost_fields (s : State) : s.inputLost.pow.vin = false ∧ s.inputLost.pow.on = false ∧ s.inputLost.pow.kept = false ∧
    s.inputLost.mem = [] ∧ s.inputLost.hpt.sessions = [] ∧ s.inputLost.flightState = 0 := by
  obtain ⟨hon, -, -, hmem, hsessions, -, hflight, hpow, -⟩ := s.offFields_turnOff false
  unfold State.inputLost
  obtain ⟨t, ht⟩ : ∃ t, s.turnOff false = t := ⟨_, rfl⟩
  rw [ht] at hon hmem hsessions hflight hpow ⊢
  exact ⟨rfl, hon, by rw [hpow]; exact Bool.and_false _, hmem, hsessions, hflight⟩

theorem State.inputFail_of_on (hvin : s.pow.vin = true) (hon : s.pow.on = true) : ∃ u : State, s.inputFail = u.inputLost := by
  unfold State.inputFail
  cases hbooted : s.pow.booted with
  | false =>
    simp only [hvin, hon, Bool.not_true, Bool.not_false, Bool.false_eq_true, if_false, if_true]
    exact ⟨s, rfl⟩
  | true =>
    simp only [hvin, hon, Bool.not_true, Bool.false_eq_true, if_false]
    exact ⟨_, rfl⟩

theorem State.inputFail_of_off (hvin : s.pow.vin = true) (hon : s.pow.on = false) : s.inputFail =
    { s with pow := { s.pow with kept := false, vin := false }, fcl := { s.fcl with buffer := [] } } := by
  unfold State.inputFail
  simp only [hvin, hon, Bool.not_true, Bool.not_false, Bool.false_eq_true, if_false, if_true]

/-- A failure of the input takes the device off (R457, R490). -/
theorem State.inputFail_off (hvin : s.pow.vin = true) : s.inputFail.pow.vin = false ∧ s.inputFail.pow.on = false ∧ s.inputFail.pow.kept = false ∧
    (s.pow.on = true → s.inputFail.mem = [] ∧ s.inputFail.hpt.sessions = [] ∧ s.inputFail.flightState = 0) := by
  cases hon : s.pow.on with
  | false =>
    rw [State.inputFail_of_off hvin hon]
    exact ⟨rfl, hon, rfl, fun h => nomatch h⟩
  | true =>
    obtain ⟨u, hu⟩ := State.inputFail_of_on hvin hon
    obtain ⟨h1, h2, h3, h4⟩ := u.inputLost_fields
    rw [hu]
    exact ⟨h1, h2, h3, fun _ => h4⟩

/-! ### The synchronisation clock (R488) -/

/-- The sideband register after a measurement of the synchronisation clock. -/
theorem State.sideband_sync (s : State) {khz locked : Nat} (hkhz : khz < 2 ^ 12) (hlocked : locked < 2) :
    let t := (s.setRf Reg.DEV_SIDEBAND 0 0 19 8 khz).setRf Reg.DEV_SIDEBAND 0 0 2 2 locked
    OnlyRegs s t [Reg.DEV_SIDEBAND.addr 0 0] ∧ t.rf Reg.DEV_SIDEBAND 0 0 19 8 = khz ∧ t.rf Reg.DEV_SIDEBAND 0 0 2 2 = locked ∧
    t.rf Reg.DEV_SIDEBAND 0 0 1 0 = s.rf Reg.DEV_SIDEBAND 0 0 1 0 := by
  refine ⟨(onlyRegs_setRf _ _ _ _ _ _ _).trans (onlyRegs_setRf _ _ _ _ _ _ _), ?_, ?_, ?_⟩
  · rw [State.rf_setRf_apart _ _ _ _ _ (by decide) (by decide), State.rf_setRf_self _ _ _ _ _ _ (by decide)]
    exact Nat.mod_eq_of_lt hkhz
  · rw [State.rf_setRf_self _ _ _ _ _ _ (by decide)]
    exact Nat.mod_eq_of_lt hlocked
  · rw [State.rf_setRf_apart _ _ _ _ _ (by decide) (by decide), State.rf_setRf_apart _ _ _ _ _ (by decide) (by decide)]

end

/-- Settles O51, clause by clause. -/
theorem pinsAndInput : Obligations.PinsAndInput := by
  unfold Obligations.PinsAndInput
  intro s khz off pwr rst shows
  refine ⟨fun hvin => ⟨fun hwake => ?_, fun hlatch hlow => ?_, fun hon => ?_, fun hon => ?_, fun hpin => ?_, fun hpin hon => ?_, ?_,
    ⟨s.inputFail, rfl, rfl, State.inputFail_off hvin⟩, fun hon => ?_, ?_⟩, fun hvin => ⟨?_, ?_, ?_, ?_, ?_⟩⟩
  · show execPwrEnRise s = _
    have hwakes : (!s.pow.offLatch || decide (10 ≤ s.pow.lowMs)) = true := by simpa using hwake
    rw [execPwrEnRise]
    simp only [hwakes, if_true, show (s.setPwrEn true).pow.vin = true from hvin, Bool.not_true, Bool.false_eq_true, if_false]
    rfl
  · show execPwrEnRise s = _
    have hwakes : (!s.pow.offLatch || decide (10 ≤ s.pow.lowMs)) = false := by simpa [hlatch] using hlow
    rw [execPwrEnRise]
    simp only [hwakes, show (s.setPwrEn true).pow.vin = true from hvin, Bool.not_true, Bool.false_eq_true, if_false]
    rfl
  · show execPwrEnFall s = _
    have hoff : ((s.setPwrEn false).setRf Reg.DEV_SIDEBAND 0 0 0 0 0).pow.on = false := hon
    rw [execPwrEnFall]
    simp only [hoff, show (s.setPwrEn false).pow.vin = true from hvin, Bool.not_true, Bool.not_false, Bool.false_eq_true, if_false, if_true]
    rfl
  · obtain ⟨u, t, hexec, ⟨h1, h2, h3, h4, h5, h6, h7, hpow, hpins⟩, hpin, hpwr⟩ := exec_pwrEnFall_of_on hvin hon
    refine ⟨t, hexec, ⟨h1, h2, h3, h4, h5, h6, h7⟩, ?_, by rw [hpow]; exact hpwr⟩
    have hbit : ∀ v, bitsOf v 0 0 = bitsOf v 1 0 % 2 := fun v => by simp only [bitsOf]; omega
    rw [State.rf, hbit, ← State.rf, hpins, State.rf, ← hbit]
    exact hpin
  · show execResetNAssert s = _
    have hzero : ((s.setResetN false).setRf Reg.DEV_SIDEBAND 0 0 1 1 0).rf Reg.DEV_SIDEBAND 0 0 0 0 = 0 :=
      (State.rf_setRf_apart _ _ _ _ _ (by decide) (by decide)).trans hpin
    rw [execResetNAssert]
    simp only [hzero, show (s.setResetN false).pow.vin = true from hvin, Bool.not_true, Bool.false_eq_true, if_false, true_or, if_true]
    rfl
  · obtain ⟨v, hexec, hpins, hsites, hstore⟩ := exec_resetNAssert_of_on hvin hon hpin
    have hfields := v.resetFields_chipReset 1
    exact ⟨_, hexec, v.lastReset_chipReset (by decide), (v.sideband_chipReset 1).trans hpins, hfields.mem, hfields.sessions, hfields.active,
      v.flightState_chipReset 1, by rw [hfields.pow], hfields.sites.trans hsites, hfields.store.trans hstore⟩
  · show execResetNRelease s = _
    rw [execResetNRelease]
    simp only [show (s.setResetN true).pow.vin = true from hvin, if_true]
    rfl
  · refine ⟨_, ?_, s.sideband_sync (khz := min 0xFFF khz) (by omega) (locked := bit (decide (600 ≤ khz ∧ khz ≤ 1000))) (by unfold bit; split <;> decide)⟩
    show execPwmSyncLock khz s = _
    rw [execPwmSyncLock, hvin, hon]
    rfl
  · refine ⟨_, ?_, s.sideband_sync (khz := 0) (by decide) (locked := 0) (by decide)⟩
    show execPwmSyncLoss s = _
    rw [execPwmSyncLoss, hvin]
    rfl
  · show execPwrEnRise s = _
    rw [execPwrEnRise]
    simp only [show (s.setPwrEn true).pow.vin = false from hvin, Bool.not_false, if_true]
    rfl
  · show execPwrEnFall s = _
    rw [execPwrEnFall]
    simp only [show (s.setPwrEn false).pow.vin = false from hvin, Bool.not_false, if_true]
    rfl
  · show execResetNAssert s = _
    rw [execResetNAssert]
    simp only [show (s.setResetN false).pow.vin = false from hvin, Bool.not_false, if_true]
    rfl
  · show execResetNRelease s = _
    rw [execResetNRelease]
    simp only [show (s.setResetN true).pow.vin = false from hvin, Bool.false_eq_true, if_false]
    rfl
  · show execVinInRange s = _
    rw [execVinInRange, hvin]
    rfl

end Sys2Proof.Machine
end

section
/-! SUPPORT. What an answer and the entry into a power state leave (R390, R458, R459). -/

namespace Sys2Proof.Machine

/-! ### An answer -/

/-- `t` is `s` but for sessions, commands that wait, and the count of messages sent. -/
structure AnswerFrame (s t : State) : Prop where
  state : ∃ regs hpt seq, t = { s with regs := regs, hpt := hpt, seq := seq }
  word : ∀ a, a ≠ Reg.HPT_TX_MSGS.addr 0 0 → t.word a = s.word a

section
variable {s t u : State}

theorem AnswerFrame.refl (s : State) : AnswerFrame s s := ⟨⟨_, _, _, rfl⟩, fun _ _ => rfl⟩

theorem AnswerFrame.trans (h : AnswerFrame s t) (k : AnswerFrame t u) : AnswerFrame s u where
  state := by
    obtain ⟨_, _, _, rfl⟩ := h.state
    obtain ⟨regs, hpt, seq, rfl⟩ := k.state
    exact ⟨regs, hpt, seq, rfl⟩
  word a ha := (k.word a ha).trans (h.word a ha)

theorem AnswerFrame.rf (h : AnswerFrame s t) {f : RegFam} {i j : Nat} (ha : f.addr i j ≠ Reg.HPT_TX_MSGS.addr 0 0) (hi lo : Nat) :
    t.rf f i j hi lo = s.rf f i j hi lo := State.rf_of_word (h.word _ ha) hi lo

theorem AnswerFrame.pinsKept (h : AnswerFrame s t) : PinsKept s t := by
  obtain ⟨regs, hpt, seq, hstate⟩ := h.state
  exact ⟨by rw [hstate], h.word _ (by decide)⟩

theorem AnswerFrame.core (h : AnswerFrame s t) (k : Nat) : t.core k = s.core k := by
  obtain ⟨regs, hpt, seq, hstate⟩ := h.state
  rw [hstate]
  rfl

theorem answerFrame_shutSession (s : State) (n : Nat) : AnswerFrame s (s.shutSession n) := by
  unfold State.shutSession
  split
  · exact .refl s
  · split
    · dsimp only
      split
      · exact ⟨⟨_, _, _, rfl⟩, fun _ _ => rfl⟩
      · exact ⟨⟨_, _, _, rfl⟩, fun _ _ => rfl⟩
    · exact ⟨⟨_, _, _, rfl⟩, fun _ _ => rfl⟩

theorem answerFrame_closeSession (s : State) (n reason : Nat) : AnswerFrame s (s.closeSession n reason) := by
  unfold State.closeSession
  split
  · exact .refl s
  · next x hx =>
    split
    · exact .refl s
    · have hemit : AnswerFrame s (s.emit (x.closeMsg reason)) :=
        ⟨⟨_, _, _, rfl⟩, fun a ha => (onlyRegs_wide { s with hpt := { s.hpt with sent := s.hpt.sent ++ [x.closeMsg reason] } } _ 0 0 1).2 a (by simpa using ha)⟩
      exact hemit.trans (answerFrame_shutSession _ n)

theorem answerFrame_sendAnswer (s : State) (n : Nat) (bs : List Byte) : AnswerFrame s (s.sendAnswer n bs) := by
  unfold State.sendAnswer
  split
  · exact .refl s
  · next x hx =>
    dsimp only
    have hpush : ∀ (f : Session → Session) (k : Nat), AnswerFrame s ((s.updSession n f).wide Reg.HPT_TX_MSGS 0 0 k) := fun f k =>
      ⟨⟨_, _, _, rfl⟩, fun a ha => (onlyRegs_wide (s.updSession n f) _ 0 0 k).2 a (by simpa using ha)⟩
    split
    · exact (hpush _ _).trans (answerFrame_closeSession _ n 6)
    · exact hpush _ _

theorem answerFrame_answer_ok (s : State) (r : Reply) (d : List Byte) : AnswerFrame s (s.answer r stOk d) := by
  have htag : AnswerFrame s (s.updSession r.session (fun x => x.replied r.tag)) := ⟨⟨_, _, _, rfl⟩, fun _ _ => rfl⟩
  exact htag.trans (answerFrame_sendAnswer _ _ _)

end

/-! ### Entries into power states (R459) -/

/-- The registers outside the collector and the blocks of the sites. -/
def deviceZone (a : Nat) : Prop := a < 0x30000 ∨ (0x40000 ≤ a ∧ a < 0x1000000)

/-- No reset and no safe state has come, the reactions of a wiped window stay mild, and the device's own registers stand. -/
structure Steady (s t : State) : Prop where
  calm : s.calm → s.mild [0x60] → t.calm ∧ t.mild [0x60]
  word : ∀ a, deviceZone a → t.word a = s.word a

section
variable {s t u : State}

theorem Steady.refl (s : State) : Steady s s := ⟨fun h k => ⟨h, k⟩, fun _ _ => rfl⟩

theorem Steady.trans (h : Steady s t) (k : Steady t u) : Steady s u :=
  ⟨fun hc hm => (h.calm hc hm).elim k.calm, fun a ha => (k.word a ha).trans (h.word a ha)⟩

theorem Steady.foldl {α : Type} {f : State → α → State} (hf : ∀ s x, Steady s (f s x)) (l : List α) : ∀ s, Steady s (l.foldl f s) := by
  induction l with
  | nil => exact .refl
  | cons x l ih => exact fun s => (hf s x).trans (ih _)

theorem Steady.same (h : Steady s t) (hfcl : u.fcl = t.fcl) (hregs : u.regs = t.regs) : Steady s u where
  calm hc hm := by
    obtain ⟨hcalm, hmild⟩ := h.calm hc hm
    refine ⟨State.calm_congr hfcl hcalm, fun n hn => ?_⟩
    rw [State.rf_congr hregs]
    exact hmild n hn
  word a ha := (congrArg (fun m => m.lookup a) hregs).trans (h.word a ha)

theorem Steady.setRf (f : RegFam) (i j hi lo v : Nat) (hf : 0x1000000 ≤ f.base) (h : Steady s t) : Steady s (t.setRf f i j hi lo v) := by
  have hbase : f.base ≤ f.addr i j := by rw [RegFam.addr]; omega
  have honly := onlyRegs_setRf t f i j hi lo v
  refine h.trans ⟨fun hc hm => ⟨honly.calm hc, honly.mild (fun a ha => ?_) (by decide) hm⟩, fun a ha => honly.2 a fun hin => ?_⟩
  · rw [List.mem_singleton] at ha
    omega
  · rw [List.mem_singleton] at hin
    unfold deviceZone at ha
    omega

/-- A raise of mild reactions is steady while the reactions are mild; where they are not, it still leaves the device's registers. -/
theorem Steady.raiseWipe (unit : Nat) (h : Steady s t) : Steady s (t.raise 0x60 unit) := by
  refine h.trans ⟨fun hc hm => ?_, fun a ha => (raiseFrame_raise t 0x60 unit).word a fun hin => ?_⟩
  · have hkeeps := State.raiseKeeps_raise (by decide) hm unit
    exact ⟨hkeeps.calm hc, hkeeps.mild (by decide) hm⟩
  · rw [mem_raiseAddrs] at hin
    simp only [RegFam.addr, Reg.FCL_SAT_LAST, Reg.FCL_SIG_NEXT, Reg.FCL_SIG_DROPPED, Reg.FCL_SIG_SUPPRESSED, Reg.FCL_SRCn_COUNT,
      Reg.FCL_SRCn_STAT] at hin
    unfold deviceZone at ha
    omega

theorem Steady.wipeWindows (h : Steady s t) : Steady s t.wipeWindows := by
  refine h.trans (.foldl (fun v x => ?_) _ t)
  refine Steady.raiseWipe x (Steady.setRf _ _ _ _ _ _ (by decide) ?_)
  exact (Steady.refl v).same rfl rfl

theorem Steady.writeOutliers (slot site : Nat) (sel : Tile → Bool) (h : Steady s t) : Steady s (t.writeOutliers slot site sel) := by
  unfold State.writeOutliers
  split
  · exact h
  · split
    · unfold State.oweLists
      split
      · exact h
      · exact h.same rfl rfl
    · refine h.trans (.foldl (fun v _ => ?_) _ t)
      exact (Steady.refl v).same rfl rfl

theorem Steady.spmMode (site mode : Nat) (h : Steady s t) : Steady s (t.spmMode site mode) := by
  have hmode := h.setRf Reg.SPM_PWR site 0 9 8 mode (by decide)
  unfold State.spmMode
  obtain ⟨v, hv⟩ : ∃ v, t.setRf Reg.SPM_PWR site 0 9 8 mode = v := ⟨_, rfl⟩
  rw [hv] at hmode ⊢
  have hclear : Steady s (v.updCore site Core.clearSpm) := hmode.same rfl rfl
  dsimp only
  split
  · split
    · split
      · exact hclear.writeOutliers _ _ _
      · exact hclear
    · exact hclear
  · exact hmode

theorem Steady.allSpm (f : Nat → Nat) (h : Steady s t) : Steady s (t.allSpm f) := by
  unfold State.allSpm
  dsimp only
  have hmodes : ∀ v, Steady v (v.sites.foldl (fun s x => s.spmMode x (f (s.rf Reg.SPM_PWR x 0 1 0))) v) := fun v =>
    .foldl (fun w x => (Steady.refl w).spmMode x _) _ v
  split
  · exact h.wipeWindows.trans (hmodes _)
  · exact h.trans (hmodes _)

theorem Steady.loseStreamed (h : Steady s t) : Steady s t.loseStreamed := by
  unfold State.loseStreamed
  refine h.trans (.foldl (fun v x => .foldl (fun w a => Steady.setRf _ _ _ _ _ _ (by decide) ?_) _ v) _ t)
  exact (Steady.refl w).same rfl rfl

/-! ### The device's own registers at an entry -/

theorem OnlyRegs.steadyCalm {l : List Nat} (h : OnlyRegs s t l) (hl : ∀ a ∈ l, a < 0x31000 ∨ 0x31800 ≤ a) (hc : s.calm) (hm : s.mild [0x60]) :
    t.calm ∧ t.mild [0x60] := ⟨h.calm hc, h.mild hl (by decide) hm⟩

/-- One step of `State.setMemories`. -/
def State.setUnlessFailed (s : State) (f : RegFam) (k st : Nat) : State := if s.rf f k 0 2 0 = 3 then s else s.setRf f k 0 2 0 st

theorem State.onlyRegs_setUnlessFailed (s : State) (f : RegFam) (st : Nat) (l : List Nat) :
    OnlyRegs s (l.foldl (fun (s : State) k => s.setUnlessFailed f k st) s) (l.map fun k => f.addr k 0) := by
  induction l generalizing s with
  | nil => exact .refl s _
  | cons k l ih =>
    have hstep : OnlyRegs s (s.setUnlessFailed f k st) [f.addr k 0] := by
      unfold State.setUnlessFailed
      split
      · exact .refl s _
      · exact onlyRegs_setRf ..
    exact hstep.append (ih _)

theorem State.rf_setUnlessFailed (s : State) {f : RegFam} (hf : 0 < f.s1) {st : Nat} (hst : st < 8) (l : List Nat) (hl : l.Nodup) {k : Nat} (hk : k ∈ l) :
    (l.foldl (fun (s : State) k => s.setUnlessFailed f k st) s).rf f k 0 2 0 = if s.rf f k 0 2 0 = 3 then 3 else st := by
  have haddr : ∀ i, f.addr k 0 = f.addr i 0 → k = i := fun i h => by
    simp only [RegFam.addr] at h
    exact Nat.eq_of_mul_eq_mul_left hf (by omega)
  induction l generalizing s with
  | nil => cases hk
  | cons i l ih =>
    obtain ⟨hi, hnodup⟩ := List.nodup_cons.mp hl
    rw [List.foldl_cons]
    by_cases hki : k = i
    · subst hki
      have hrest : f.addr k 0 ∉ l.map fun k => f.addr k 0 := fun hin => by
        obtain ⟨j, hj, heq⟩ := List.mem_map.mp hin
        exact hi (haddr j heq.symm ▸ hj)
      rw [(State.onlyRegs_setUnlessFailed _ f st l).rf hrest, State.setUnlessFailed]
      split
      · assumption
      · rw [State.rf_setRf_self _ _ _ _ _ _ (by decide)]
        exact Nat.mod_eq_of_lt hst
    · rw [ih _ hnodup ((List.mem_cons.mp hk).resolve_left hki), State.setUnlessFailed]
      split
      · rfl
      · rw [State.rf_setRf_of_ne _ _ _ _ _ _ _ _ _ _ _ _ (fun h => hki (haddr i h))]

theorem State.setMemories_frame (s : State) {st : Nat} (hst : st < 8) :
    OnlyRegs s (s.setMemories st) ((List.range 8).map (fun k => Reg.MEM_STACKs_STATE.addr k 0) ++
      (List.range 32).map (fun k => Reg.MEM_FARc_STATE.addr k 0)) ∧
    ∀ k, k < 8 → (s.setMemories st).rf Reg.MEM_STACKs_STATE k 0 2 0 = if s.rf Reg.MEM_STACKs_STATE k 0 2 0 = 3 then 3 else st := by
  have hstacks := s.onlyRegs_setUnlessFailed Reg.MEM_STACKs_STATE st (List.range 8)
  have hvalues := fun k hk => s.rf_setUnlessFailed (f := Reg.MEM_STACKs_STATE) (k := k) (by decide) hst (List.range 8) List.nodup_range hk
  obtain ⟨v, hv⟩ : ∃ v, (List.range 8).foldl (fun (s : State) k => s.setUnlessFailed Reg.MEM_STACKs_STATE k st) s = v := ⟨_, rfl⟩
  rw [hv] at hstacks hvalues
  have hfar := v.onlyRegs_setUnlessFailed Reg.MEM_FARc_STATE st (List.range 32)
  have hdef : s.setMemories st = (List.range 32).foldl (fun (s : State) k => s.setUnlessFailed Reg.MEM_FARc_STATE k st) v := by
    rw [← hv]
    rfl
  rw [hdef]
  refine ⟨hstacks.append hfar, fun k hk => ?_⟩
  rw [hfar.rf (fun hin => ?_), hvalues k (List.mem_range.mpr hk)]
  obtain ⟨j, -, heq⟩ := List.mem_map.mp hin
  simp only [RegFam.addr, Reg.MEM_STACKs_STATE, Reg.MEM_FARc_STATE] at heq
  omega

theorem State.onlyRegs_portsDown (s : State) : OnlyRegs s s.portsDown ((List.range 6).map fun k => Reg.FLK_PORTp_STATE.addr k 0) := by
  have h : ∀ (l : List Nat) (s : State), OnlyRegs s (l.foldl (fun (s : State) p => s.setRf Reg.FLK_PORTp_STATE p 0 2 0 0) s)
      (l.map fun k => Reg.FLK_PORTp_STATE.addr k 0) := fun l => by
    induction l with
    | nil => exact fun s => .refl s _
    | cons k l ih => exact fun s => (onlyRegs_setRf s _ _ _ _ _ _).append (ih _)
  exact h _ s

end

end Sys2Proof.Machine
end

section
/-! SUPPORT. `POWER` and the entries into power states (R458, R459), and the statement about them. -/

namespace Sys2Proof.Machine

section
variable {s : State} {h : Hdr} {x : Session} {state n : Nat} {rest : List Nat}

/-! ### The request (R459) -/

/-- The register of the power state while a change to a state is under way. -/
def State.changeShown (s : State) (state : Nat) : State := (s.setRf Reg.PWR_STATE 0 0 8 8 1).setRf Reg.PWR_STATE 0 0 6 4 state

theorem State.changeShown_spec (s : State) (hstate : state ≤ 4) :
    OnlyRegs s (s.changeShown state) [Reg.PWR_STATE.addr 0 0] ∧ (s.changeShown state).rf Reg.PWR_STATE 0 0 8 8 = 1 ∧
    (s.changeShown state).rf Reg.PWR_STATE 0 0 6 4 = state ∧ (s.changeShown state).rf Reg.PWR_STATE 0 0 2 0 = s.power := by
  unfold State.changeShown
  refine ⟨(onlyRegs_setRf _ _ _ _ _ _ _).trans (onlyRegs_setRf _ _ _ _ _ _ _), ?_, ?_, ?_⟩
  · rw [State.rf_setRf_apart _ _ _ _ _ (by decide) (by decide), State.rf_setRf_self _ _ _ _ _ _ (by decide)]
    rfl
  · rw [State.rf_setRf_self _ _ _ _ _ _ (by decide)]
    exact Nat.mod_eq_of_lt (by omega)
  · rw [State.rf_setRf_apart _ _ _ _ _ (by decide) (by decide), State.rf_setRf_apart _ _ _ _ _ (by decide) (by decide), State.power]

/-- The state in which a change of the power state is under way. -/
def State.powerChanging (s : State) (h : Hdr) (state : Nat) : State :=
  let u := (s.taken h).changeShown state
  { u with
    jobs := { u.jobs with power := some (replyTo h 0x0160) }
    pow := { u.pow with
      path := powerPath s.power state, toIdle := u.inFlight && (powerPath s.power state).head? == some 1 && u.power == 0 } }

theorem power_done (hc : s.calm) (hok : s.accepts h (opRowM 0x0160) false true true x) (hstate : state ≤ 4) (hthere : s.power = state)
    (hidle : s.rf Reg.PWR_STATE 0 0 8 8 = 0) : Done (exec (.power h state) s) h 0x0160 (s.taken h) [] := by
  show Done (execPower h state s) _ _ _ _
  rw [execPower, decide_eq_true hstate]
  exact done_of_accepts hc hok (if_pos ⟨hthere, hidle⟩) rfl

theorem exec_power_of_free (hc : s.calm) (hok : s.accepts h (opRowM 0x0160) false true true x) (hstate : state ≤ 4) (hother : s.power ≠ state)
    (hfree : s.powerBusy state = false) : exec (.power h state) s = .next (s.powerChanging h state) := by
  have hnot : ¬ ((s.taken h).power = state ∧ (s.taken h).rf Reg.PWR_STATE 0 0 8 8 = 0) := fun hd => hother hd.1
  have hfree' : (s.taken h).powerBusy state = false := hfree
  show execPower h state s = _
  rw [execPower, decide_eq_true hstate, State.command_of_accepts hok]
  dsimp only
  rw [if_neg hnot, hfree']
  exact finish_of_calm (t := s.powerChanging h state) hc rfl

/-! ### What an entry does -/

theorem State.unform_frame (s : State) : s.unform.flightState = 0 ∧ s.unform.fcl = s.fcl ∧
    ∀ a, a ∉ (List.range 6).map (fun k => Reg.FLK_PORTp_STATE.addr k 0) ++ [Reg.FLK_FLIGHT_STATE.addr 0 0] → s.unform.word a = s.word a := by
  obtain ⟨v, hv⟩ : ∃ v, s.portsDown.setReg Reg.FLK_FLIGHT_STATE 0 0 0 = v := ⟨_, rfl⟩
  have honly : OnlyRegs s v _ := hv ▸ s.onlyRegs_portsDown.append (onlyRegs_setReg _ _ _ _ _)
  have hflight : v.flightState = 0 := by
    rw [← hv, State.flightState, State.rf, State.reg_setReg_self]
    rfl
  unfold State.unform
  rw [hv]
  exact ⟨hflight, honly.fcl, honly.2⟩

/-- DOZE from IDLE takes the memories into self-refresh and the flight apart (R459). -/
theorem State.enterPower_doze (s : State) (hc : s.calm) (hm : s.mild [0x60]) {old : Nat} (hold : old ≠ 3) :
    (s.enterPower old 2).calm ∧ (s.enterPower old 2).flightState = 0 ∧
    ∀ k, k < 8 → (s.enterPower old 2).rf Reg.MEM_STACKs_STATE k 0 2 0 = if s.rf Reg.MEM_STACKs_STATE k 0 2 0 = 3 then 3 else 4 := by
  obtain ⟨u, hu⟩ : ∃ u, s.loseStreamed = u := ⟨_, rfl⟩
  obtain ⟨v, hv⟩ : ∃ v, u.unform = v := ⟨_, rfl⟩
  obtain ⟨w, hw⟩ : ∃ w, v.setMemories 4 = w := ⟨_, rfl⟩
  have hlost : Steady s u := hu ▸ (Steady.refl s).loseStreamed
  obtain ⟨hflight, hfcl, hword⟩ := u.unform_frame
  obtain ⟨hmem, hstacks⟩ := v.setMemories_frame (st := 4) (by decide)
  rw [hv] at hflight hfcl hword
  rw [hw] at hmem hstacks
  have hend : Steady w (w.allSpm (fun m => if m = 2 then 2 else 1)) := (Steady.refl w).allSpm _
  have hdoze : s.enterPower old 2 = w.allSpm (fun m => if m = 2 then 2 else 1) := by
    rw [← hw, ← hv, ← hu]
    exact if_neg hold
  have hzone : ∀ k, k < 8 → deviceZone (Reg.MEM_STACKs_STATE.addr k 0) := fun k hk => by
    simp only [deviceZone, RegFam.addr, Reg.MEM_STACKs_STATE]
    omega
  rw [hdoze]
  refine ⟨(hend.calm (hmem.calm ?_) ?_).1, ?_, fun k hk => ?_⟩
  · exact State.calm_congr hfcl (hlost.calm hc hm).1
  · refine hmem.mild (fun a ha => ?_) (by decide) (fun i hi => ?_)
    · simp only [List.mem_append, List.mem_map, List.mem_range, RegFam.addr, Reg.MEM_STACKs_STATE, Reg.MEM_FARc_STATE] at ha
      omega
    · rw [State.rf_of_word (hword _ fun hin => ?_)]
      · exact (hlost.calm hc hm).2 i hi
      · simp only [List.mem_append, List.mem_map, List.mem_range, List.mem_singleton, RegFam.addr, Reg.FLK_PORTp_STATE, Reg.FLK_FLIGHT_STATE,
          Reg.FCL_SRCn_CFG] at hin
        omega
  · rw [State.flightState, State.rf_of_word (hend.word _ (Or.inl (by decide))), hmem.rf (by decide)]
    exact hflight
  · rw [State.rf_of_word (hend.word _ (hzone k hk)), hstacks k hk, State.rf_of_word (hword _ fun hin => ?_), State.rf_of_word (hlost.word _ (hzone k hk))]
    simp only [List.mem_append, List.mem_map, List.mem_range, List.mem_singleton, RegFam.addr, Reg.FLK_PORTp_STATE, Reg.FLK_FLIGHT_STATE,
      Reg.MEM_STACKs_STATE] at hin
    omega

/-- The link retrains at an entry into TOWPATH (R459). -/
theorem State.linkState_enterPower (s : State) (old : Nat) : (s.enterPower old 3).linkState = 1 := State.linkState_unlink _ 1

/-- The entry into IDLE from RUN stops issue (R459). -/
theorem State.stopped_enterPower (s : State) (k : Nat) : ((s.enterPower 0 1).core k).stopped := s.stopIssue_stopped k

/-- No entry asks for a reset or for the safe state. -/
theorem State.calm_enterPower (hc : s.calm) (hm : s.mild [0x60]) (old : Nat) (hn : n < 4) : (s.enterPower old n).calm := by
  have hspm : ∀ {u v : State} (f : Nat → Nat), Steady u v → Steady u (v.allSpm f) := fun f h => h.allSpm f
  have hunlink : ∀ {v : State}, Steady s v → (v.unlink 1).calm := fun {v} h => State.calm_congr (v.onlyRegs_unlink 1).fcl (h.calm hc hm).1
  obtain rfl | rfl | rfl | rfl : n = 0 ∨ n = 1 ∨ n = 2 ∨ n = 3 := by omega
  · exact hc
  · by_cases hold : old = 2
    · have hdef : s.enterPower old 1 = ((s.setMemories 2).allSpm (fun m => m)).sites.foldl (fun (s : State) x =>
          [17, 18].foldl (fun (s : State) a => s.setRf Reg.ARY_STATEa x a 18 16 0) s) ((s.setMemories 2).allSpm (fun m => m)) := if_pos hold
      obtain ⟨hmem, -⟩ := s.setMemories_frame (st := 2) (by decide)
      have hready := hmem.steadyCalm (fun a ha => by
        simp only [List.mem_append, List.mem_map, List.mem_range, RegFam.addr, Reg.MEM_STACKs_STATE, Reg.MEM_FARc_STATE] at ha
        omega) hc hm
      rw [hdef]
      exact ((hspm _ (.refl _)).trans (.foldl (fun v y => .foldl (fun w a => (Steady.refl w).setRf _ _ _ _ _ _ (by decide)) _ v) _ _)).calm
        hready.1 hready.2 |>.1
    · rw [show s.enterPower old 1 = s.stopIssue from if_neg hold]
      exact hc
  · by_cases hold : old = 3
    · rw [show s.enterPower old 2 = ((s.allSpm (fun m => if m = 2 then 2 else 0)).allSpm (fun m => if m = 2 then 2 else 1)).unlink 1 from if_pos hold]
      exact hunlink (hspm _ (hspm _ (.refl s)))
    · exact (s.enterPower_doze hc hm hold).1
  · exact hunlink (hspm _ (.refl s))

/-! ### The entry -/

/-- The state in which a power state has been entered. -/
def State.powerEntered (s : State) (n : Nat) (rest : List Nat) : State :=
  { (s.enterPower s.power n).setRf Reg.PWR_STATE 0 0 2 0 n with pow := { ((s.enterPower s.power n).setRf Reg.PWR_STATE 0 0 2 0 n).pow with path := rest } }

/-- The state in which the change has ended, without the answer. -/
def State.powerSettled (s : State) (n : Nat) : State := (s.powerEntered n []).setRf Reg.PWR_STATE 0 0 8 8 0

theorem State.powerEntered_spec (s : State) (hn : n < 4) (rest : List Nat) :
    (s.powerEntered n rest).power = n ∧ (s.powerEntered n rest).pow.path = rest ∧ (s.powerEntered n rest).fcl = (s.enterPower s.power n).fcl ∧
    (∀ k, (s.powerEntered n rest).core k = (s.enterPower s.power n).core k) ∧
    ∀ a, a ≠ Reg.PWR_STATE.addr 0 0 → (s.powerEntered n rest).word a = (s.enterPower s.power n).word a := by
  obtain ⟨u, hu⟩ : ∃ u, s.enterPower s.power n = u := ⟨_, rfl⟩
  obtain ⟨v, hv⟩ : ∃ v, u.setRf Reg.PWR_STATE 0 0 2 0 n = v := ⟨_, rfl⟩
  have honly : OnlyRegs u v [Reg.PWR_STATE.addr 0 0] := hv ▸ onlyRegs_setRf _ _ _ _ _ _ _
  have hpower : v.power = n := by
    rw [← hv, State.power, State.rf_setRf_self _ _ _ _ _ _ (by decide)]
    exact Nat.mod_eq_of_lt (by omega)
  rw [State.powerEntered, hu, hv]
  exact ⟨hpower, rfl, honly.fcl, honly.core, fun a ha => honly.2 a (by simpa using ha)⟩

/-- An entry on the way (R459). -/
theorem exec_entry_of_more (hc : s.calm) (hm : s.mild [0x60]) (hpath : s.pow.path = n :: rest) (hwait : s.pow.toIdle = false) (hn : n < 4)
    (hrest : rest ≠ []) : exec .powerStateEntry s = .next (s.powerEntered n rest) := by
  have hfcl := (s.powerEntered_spec hn rest).2.2.1
  show execPowerStateEntry s = _
  rw [execPowerStateEntry, hpath]
  have hempty : rest.isEmpty = false := by simpa using hrest
  simp only [hwait, hempty, Bool.false_eq_true, if_false, show ¬ n = 4 by omega]
  exact finish_of_calm (State.calm_enterPower hc hm s.power hn) hfcl

/-- The last entry ends the change (R459). -/
theorem exec_entry_of_last (hc : s.calm) (hm : s.mild [0x60]) (hpath : s.pow.path = [n]) (hwait : s.pow.toIdle = false) (hn : n < 4) :
    exec .powerStateEntry s = .next (match (s.powerSettled n).jobs.power with
      | some r => ({ s.powerSettled n with jobs := { (s.powerSettled n).jobs with power := none } } : State).answer r stOk []
      | none => s.powerSettled n) := by
  have hfcl : (s.powerSettled n).fcl = (s.enterPower s.power n).fcl := (onlyRegs_setRf _ _ _ _ _ _ _).fcl.trans (s.powerEntered_spec hn []).2.2.1
  have hcalm := State.calm_enterPower hc hm s.power hn
  show execPowerStateEntry s = _
  rw [execPowerStateEntry, hpath]
  simp only [hwait, Bool.false_eq_true, if_false, show ¬ n = 4 by omega, List.isEmpty_nil, if_true]
  show finish (match (s.powerSettled n).jobs.power with
      | some r => ({ s.powerSettled n with jobs := { (s.powerSettled n).jobs with power := none } } : State).answer r stOk []
      | none => s.powerSettled n) = _
  obtain ⟨v, hv⟩ : ∃ v, s.powerSettled n = v := ⟨_, rfl⟩
  rw [hv] at hfcl ⊢
  split
  · next r hr => exact finish_of_calm hcalm ((State.answer_ok_fcl _ _ _).trans hfcl)
  · exact finish_of_calm hcalm hfcl

/-- What every entry but that of OFF shows (R458, R459). -/
theorem exec_entry (hc : s.calm) (hm : s.mild [0x60]) (hpath : s.pow.path = n :: rest) (hwait : s.pow.toIdle = false) (hn : n < 4) :
    ∃ t, exec .powerStateEntry s = .next t ∧ t.power = n ∧ t.pow.path = rest ∧
      (rest = [] → t.rf Reg.PWR_STATE 0 0 8 8 = 0 ∧ t.jobs.power = none) ∧ (∀ k, t.core k = (s.enterPower s.power n).core k) ∧
      ∀ a, a ≠ Reg.PWR_STATE.addr 0 0 → a ≠ Reg.HPT_TX_MSGS.addr 0 0 → t.word a = (s.enterPower s.power n).word a := by
  obtain ⟨h1, h2, -, h4, h5⟩ := s.powerEntered_spec hn rest
  by_cases hrest : rest = []
  · subst hrest
    have hexec := exec_entry_of_last hc hm hpath hwait hn
    obtain ⟨u, hu⟩ : ∃ u, s.powerEntered n [] = u := ⟨_, rfl⟩
    obtain ⟨v, hv⟩ : ∃ v, s.powerSettled n = v := ⟨_, rfl⟩
    rw [hu] at h1 h2 h4 h5
    have hset : u.setRf Reg.PWR_STATE 0 0 8 8 0 = v := by rw [← hu, ← hv, State.powerSettled]
    have honly : OnlyRegs u v [Reg.PWR_STATE.addr 0 0] := hset ▸ onlyRegs_setRf _ _ _ _ _ _ _
    have hpower : v.power = n := by
      rw [← hset, State.power, State.rf_setRf_apart _ _ _ _ _ (by decide) (by decide)]
      exact h1
    have hdone : v.rf Reg.PWR_STATE 0 0 8 8 = 0 := hset ▸ State.rf_setRf_self _ _ _ _ _ _ (by decide)
    have hpow : v.pow = u.pow := by rw [honly.1]
    have hword : ∀ a, a ≠ Reg.PWR_STATE.addr 0 0 → v.word a = (s.enterPower s.power n).word a := fun a ha =>
      (honly.2 a (by simpa using ha)).trans (h5 a ha)
    have hcore : ∀ k, v.core k = (s.enterPower s.power n).core k := fun k => (honly.core k).trans (h4 k)
    rw [hv] at hexec
    cases hjob : v.jobs.power with
    | none =>
      rw [hjob] at hexec
      exact ⟨v, hexec, hpower, by rw [hpow]; exact h2, fun _ => ⟨hdone, hjob⟩, hcore, fun a ha _ => hword a ha⟩
    | some r =>
      rw [hjob] at hexec
      obtain ⟨w, hw⟩ : ∃ w, ({ v with jobs := { v.jobs with power := none } } : State) = w := ⟨_, rfl⟩
      have hregs : w.regs = v.regs := by rw [← hw]
      have hcores : w.cores = v.cores := by rw [← hw]
      have hans := answerFrame_answer_ok w r []
      obtain ⟨regs, hpt, seq, hstate⟩ := hans.state
      refine ⟨w.answer r stOk [], by rw [← hw]; exact hexec, ?_, ?_, fun _ => ⟨?_, ?_⟩, fun k => ?_, fun a ha hmsgs => ?_⟩
      · rw [State.power, hans.rf (by decide), State.rf_congr hregs]
        exact hpower
      · rw [hstate, ← hw]
        exact (congrArg Pow.path hpow).trans h2
      · rw [hans.rf (by decide), State.rf_congr hregs]
        exact hdone
      · rw [hstate, ← hw]
      · rw [hans.core, State.core, hcores]
        exact hcore k
      · rw [hans.word a hmsgs, State.word, hregs]
        exact hword a ha
  · exact ⟨_, exec_entry_of_more hc hm hpath hwait hn hrest, h1, h2, fun h => absurd h hrest, h4, fun a ha _ => h5 a ha⟩

/-- The device while it turns off by `POWER` (R459). -/
theorem exec_entry_of_off (hpath : s.pow.path = 4 :: rest) (hwait : s.pow.toIdle = false) : ∃ u t : State,
    exec .powerStateEntry s = .next { t with pow := { t.pow with offLatch := u.rf Reg.DEV_SIDEBAND 0 0 0 0 == 1 } } ∧ OffFields u t true ∧ PinsKept s u := by
  have hlast := (pinsKept_endWrites s).lastWrites
  obtain ⟨v, hv⟩ : ∃ v, s.endWrites.lastWrites = v := ⟨_, rfl⟩
  rw [hv] at hlast
  have hrun : exec .powerStateEntry s = execPowerStateEntry s := rfl
  cases hjob : v.jobs.power with
  | none =>
    refine ⟨v, v.turnOff true, ?_, v.offFields_turnOff true, hlast⟩
    rw [hrun, execPowerStateEntry, hpath]
    dsimp only
    rw [hwait, if_neg Bool.false_ne_true, if_pos rfl, hv, hjob]
  | some r =>
    refine ⟨v.answer r stOk [], (v.answer r stOk []).turnOff true, ?_, State.offFields_turnOff _ true,
      hlast.trans (answerFrame_answer_ok v r []).pinsKept⟩
    rw [hrun, execPowerStateEntry, hpath]
    dsimp only
    rw [hwait, if_neg Bool.false_ne_true, if_pos rfl, hv, hjob]

end

/-- Settles O50, clause by clause. -/
theorem powerStates : Obligations.PowerStates := by
  unfold Obligations.PowerStates
  intro s h x state n rest hc u
  refine ⟨fun hok hstate => ⟨power_done hc hok hstate, fun hother hfree => ?_⟩, fun hpath hwait hm => ⟨fun hzero hrest hjob => ?_, fun hn => ?_, fun hoff => ?_⟩⟩
  · have hregs : (s.powerChanging h state).regs = ((s.taken h).changeShown state).regs := rfl
    obtain ⟨honly, h1, h2, h3⟩ := (s.taken h).changeShown_spec hstate
    refine ⟨_, exec_power_of_free hc hok hstate hother hfree, rfl, rfl, (State.rf_congr hregs ..).trans h1, (State.rf_congr hregs ..).trans h2,
      (State.rf_congr hregs ..).trans h3, fun w hw => ?_⟩
    rw [State.word, hregs]
    exact honly.2 w (by simpa using hw)
  · subst hzero hrest
    have hexec := exec_entry_of_last hc hm hpath hwait (by decide)
    have hidle : (s.powerSettled 0).jobs.power = none := hjob
    rw [hidle] at hexec
    refine ⟨s.powerSettled 0, hexec, ?_, rfl, State.rf_setRf_self _ _ _ _ _ _ (by decide), fun w hw => ?_⟩
    · exact (State.rf_setRf_apart _ _ _ _ _ (by decide) (by decide)).trans (s.powerEntered_spec (n := 0) (by decide) []).1
    · exact ((onlyRegs_setRf (s.powerEntered 0 []) _ 0 0 8 8 0).2 w (by simpa using hw)).trans ((s.powerEntered_spec (by decide) []).2.2.2.2 w hw)
  · obtain ⟨t, hexec, h1, h2, h3, hcore, hword⟩ := exec_entry hc hm hpath hwait hn
    refine ⟨t, hexec, h1, h2, h3, fun hidle hrun k => ?_, fun hdoze hidle => ?_, fun htow => ?_⟩
    · subst hidle
      rw [hcore k, hrun]
      exact s.stopped_enterPower k
    · subst hdoze
      obtain ⟨-, hflight, hstacks⟩ := s.enterPower_doze hc hm (old := s.power) (by omega)
      refine ⟨?_, fun k hk => ?_⟩
      · rw [State.flightState, State.rf_of_word (hword _ (by decide) (by decide))]
        exact hflight
      · rw [State.rf_of_word (hword _ _ _)]
        · exact hstacks k hk
        · simp only [RegFam.addr, Reg.MEM_STACKs_STATE, Reg.PWR_STATE]
          omega
        · simp only [RegFam.addr, Reg.MEM_STACKs_STATE, Reg.HPT_TX_MSGS]
          omega
    · subst htow
      rw [State.linkState, State.rf_of_word (hword _ (by decide) (by decide))]
      exact s.linkState_enterPower _
  · subst hoff
    obtain ⟨v, t, hexec, ⟨h1, h2, h3, h4, h5, h6, h7, -, -⟩, hkept⟩ := exec_entry_of_off hpath hwait
    exact ⟨_, hexec, h3, h1, congrArg (· == 1) (hkept.rf 0 0), h2, h4, h5, h6, h7⟩

end Sys2Proof.Machine
end

section
/-! SUPPORT. What the steps of a boot leave (R476, R477). -/

namespace Sys2Proof.Machine

/-- The sources whose reactions a boot may carry out. -/
def bootSources : List Nat := [0x05, 0x11, 0x5A, 0x5B, 0x5E, 0x7A, 0x91, 0x92]

/-- The registers that a boot shows: the device's own, without those of the flight's ports, and the state of the source of a failed random
source. -/
def bootZone (a : Nat) : Prop :=
  a = Reg.FCL_SRCn_STAT.addr 0 0x91 ∨
  ((a < 0x20000 ∨ (0x21000 ≤ a ∧ a < 0x30000) ∨ (0x40000 ≤ a ∧ a < 0x1000000)) ∧ a ≠ Reg.WGT_PROG_STATE.addr 0 0 ∧ a ≠ Reg.CAL_CRC_FAIL.addr 0 0)

theorem bootZone_device {a : Nat} (h : 0x40000 ≤ a) (h' : a < 0xB0000) (hcrc : a ≠ Reg.CAL_CRC_FAIL.addr 0 0) : bootZone a := by
  refine .inr ⟨.inr (.inr ⟨h, by omega⟩), ?_, hcrc⟩
  simp only [RegFam.addr, Reg.WGT_PROG_STATE]
  omega

/-- What steps of a boot keep: power, security block and memory, no reset and no safe state is asked for, the safe state stays, and no register
of the boot's zone changes but those at the addresses of `l`. -/
structure Boots (l : List Nat) (s t : State) : Prop where
  pow : t.pow = s.pow
  sec : t.sec = s.sec
  mem : t.mem = s.mem
  calm : t.calm
  mild : t.mild bootSources
  safe : s.safe = true → t.safe = true
  word : ∀ a, bootZone a → a ∉ l → t.word a = s.word a

section
variable {s t u : State} {l k : List Nat}

theorem Boots.refl (hc : s.calm) (hm : s.mild bootSources) : Boots l s s := ⟨rfl, rfl, rfl, hc, hm, id, fun _ _ _ => rfl⟩

theorem Boots.append (h : Boots l s t) (g : Boots k t u) : Boots (l ++ k) s u where
  pow := g.pow.trans h.pow
  sec := g.sec.trans h.sec
  mem := g.mem.trans h.mem
  calm := g.calm
  mild := g.mild
  safe hs := g.safe (h.safe hs)
  word a ha hin := by
    rw [List.mem_append, not_or] at hin
    exact (g.word a ha hin.2).trans (h.word a ha hin.1)

theorem Boots.rf (h : Boots l s t) {f : RegFam} {i j : Nat} (ha : bootZone (f.addr i j)) (hl : f.addr i j ∉ l) (hi lo : Nat) :
    t.rf f i j hi lo = s.rf f i j hi lo := State.rf_of_word (h.word _ ha hl) hi lo

theorem Boots.reg (h : Boots l s t) {f : RegFam} {i j : Nat} (ha : bootZone (f.addr i j)) (hl : f.addr i j ∉ l) :
    t.reg f i j = s.reg f i j := State.reg_of_word (h.word _ ha hl)

theorem Boots.foldl {α : Type} {f : State → α → State} (hf : ∀ v x, Boots l s v → Boots l s (f v x)) (xs : List α) :
    ∀ {t}, Boots l s t → Boots l s (xs.foldl f t) := by
  induction xs with
  | nil => exact id
  | cons x xs ih => exact fun h => ih (hf _ x h)

/-- A change of registers that leaves the reactions. -/
theorem Boots.onlyRegs (h : Boots l s t) (g : OnlyRegs t u k) (hk : ∀ a ∈ k, a < 0x31000 ∨ 0x31800 ≤ a) (hl : ∀ a ∈ k, bootZone a → a ∈ l)
    (hsafe : t.safe = true → u.safe = true) : Boots l s u where
  pow := Eq.trans (by rw [g.1]) h.pow
  sec := Eq.trans (by rw [g.1]) h.sec
  mem := Eq.trans (by rw [g.1]) h.mem
  calm := g.calm h.calm
  mild := g.mild hk (by decide) h.mild
  safe hs := hsafe (h.safe hs)
  word a ha hin := (g.2 a fun hk' => hin (hl a hk' ha)).trans (h.word a ha hin)

/-- A change of registers outside the collector's. -/
theorem Boots.regs (h : Boots l s t) (g : OnlyRegs t u k) (hk : ∀ a ∈ k, a < 0x30000 ∨ 0x40000 ≤ a) (hl : ∀ a ∈ k, bootZone a → a ∈ l) : Boots l s u := by
  refine h.onlyRegs g (fun a ha => by have := hk a ha; omega) hl fun hs => ?_
  rw [State.safe, g.rf (fun hin => ?_)]
  · exact hs
  · have := hk _ hin
    simp only [RegFam.addr, Reg.FCL_STATE] at this
    omega

theorem Boots.setReg (f : RegFam) (i j v : Nat) (hf : 0x1000000 ≤ f.base) (h : Boots l s t) : Boots l s (t.setReg f i j v) := by
  have hbase : f.base ≤ f.addr i j := by rw [RegFam.addr]; omega
  refine h.regs (onlyRegs_setReg t f i j v) (fun a ha => ?_) (fun a ha hz => ?_)
  · rw [List.mem_singleton] at ha
    omega
  · rw [List.mem_singleton] at ha
    simp only [bootZone, RegFam.addr, Reg.FCL_SRCn_STAT] at hz
    omega

theorem Boots.setRf (f : RegFam) (i j hi lo v : Nat) (hf : 0x1000000 ≤ f.base) (h : Boots l s t) : Boots l s (t.setRf f i j hi lo v) :=
  h.setReg f i j _ hf

theorem Boots.same (h : Boots l s t) (hpow : u.pow = t.pow) (hsec : u.sec = t.sec) (hmem : u.mem = t.mem) (hfcl : u.fcl = t.fcl)
    (hregs : u.regs = t.regs) : Boots l s u where
  pow := hpow.trans h.pow
  sec := hsec.trans h.sec
  mem := hmem.trans h.mem
  calm := State.calm_congr hfcl h.calm
  mild n hn := by
    rw [State.rf_congr hregs]
    exact h.mild n hn
  safe hs := by
    rw [State.safe, State.rf_congr hregs]
    exact h.safe hs
  word a ha hin := (congrArg (fun m => m.lookup a) hregs).trans (h.word a ha hin)

theorem bootZone_notMem_raiseAddrs {a src : Nat} (ha : bootZone a) (hlt : src < 256) (hsrc : src ≠ 0x91) : a ∉ raiseAddrs src := fun hin => by
  rw [mem_raiseAddrs] at hin
  simp only [bootZone, RegFam.addr, Reg.FCL_SAT_LAST, Reg.FCL_SIG_NEXT, Reg.FCL_SIG_DROPPED, Reg.FCL_SIG_SUPPRESSED, Reg.FCL_SRCn_COUNT,
    Reg.FCL_SRCn_STAT] at hin ha
  omega

theorem state_notMem_raiseAddrs (src : Nat) : Reg.FCL_STATE.addr 0 0 ∉ raiseAddrs src := fun hin => by
  rw [mem_raiseAddrs] at hin
  simp only [RegFam.addr, Reg.FCL_STATE, Reg.FCL_SAT_LAST, Reg.FCL_SIG_NEXT, Reg.FCL_SIG_DROPPED, Reg.FCL_SIG_SUPPRESSED, Reg.FCL_SRCn_COUNT,
    Reg.FCL_SRCn_STAT] at hin
  omega

/-- A raise of a source of the boot other than that of the random source. -/
theorem Boots.raise {src : Nat} (hsrc : src ∈ bootSources) (hne : src ≠ 0x91) (unit : Nat) (h : Boots l s t) : Boots l s (t.raise src unit) := by
  have hlt : ∀ n ∈ bootSources, n < 256 := by decide
  have hkeeps := State.raiseKeeps_raise (hlt src hsrc) (State.mild_of_subset h.mild (by simpa using hsrc)) unit
  have hframe := raiseFrame_raise t src unit
  exact ⟨Eq.trans (by rw [hkeeps.eq]) h.pow, Eq.trans (by rw [hkeeps.eq]) h.sec, Eq.trans (by rw [hkeeps.eq]) h.mem, hkeeps.calm h.calm,
    hkeeps.mild hlt h.mild, fun hs => by rw [State.safe, hframe.rf (state_notMem_raiseAddrs src)]; exact h.safe hs,
    fun a ha hin => (hframe.word a (bootZone_notMem_raiseAddrs ha (hlt src hsrc) hne)).trans (h.word a ha hin)⟩

/-- The count of records that fail their check. -/
theorem Boots.errCrc (h : Boots l s t) : Boots l s (t.err Reg.CAL_CRC_FAIL 0 0 1) := by
  obtain ⟨v, hkeeps⟩ := State.err_keeps (by decide) h.mild Reg.CAL_CRC_FAIL 0 0 (by decide)
  have hset := h.regs (onlyRegs_setReg t Reg.CAL_CRC_FAIL 0 0 v) (by decide) (fun a ha hz => by
    rw [List.mem_singleton] at ha
    simp only [bootZone, ha, ne_eq, not_true_eq_false, and_false, or_false] at hz
    exact absurd hz (by decide))
  have hframe := raiseFrame_err (b := false) t Reg.CAL_CRC_FAIL 0 0 1
  have hnot : ∀ a, bootZone a → a ∉ Reg.CAL_CRC_FAIL.addr 0 0 :: raiseAddrs 0 := fun a ha hin => by
    rcases List.mem_cons.mp hin with rfl | hin
    · exact absurd ha (by unfold bootZone; decide)
    · exact bootZone_notMem_raiseAddrs ha (by decide) (by decide) hin
  exact ⟨Eq.trans (by rw [hkeeps.eq]) hset.pow, Eq.trans (by rw [hkeeps.eq]) hset.sec, Eq.trans (by rw [hkeeps.eq]) hset.mem, hkeeps.calm hset.calm,
    hkeeps.mild (by decide) hset.mild, fun hs => by rw [State.safe, hframe.rf (by decide)]; exact h.safe hs,
    fun a ha hin => (hframe.word a (hnot a ha)).trans (h.word a ha hin)⟩

theorem Boots.stopIssue (h : Boots l s t) : Boots l s t.stopIssue := h.same rfl rfl rfl rfl rfl

theorem Boots.stopProg (h : Boots l s t) : Boots l s t.stopProg := by
  unfold State.stopProg
  split
  · split
    · exact h
    · refine Boots.regs ?_ (onlyRegs_setRf _ _ _ _ _ _ _) (by decide) (fun a ha hz => ?_)
      · exact h.same rfl rfl rfl rfl rfl
      · rw [List.mem_singleton] at ha
        subst ha
        exact absurd hz (by unfold bootZone; decide)
  · exact h

/-- Entry to the safe state shows in no register of the boot's zone. -/
theorem Boots.enterSafe (cause : Nat) (h : Boots l s t) : Boots l s (t.enterSafe cause) := by
  cases hsafe : t.safe with
  | true =>
    rw [State.enterSafe, hsafe]
    exact h
  | false =>
    have hcut : Boots l s t.cutWrites := by
      obtain ⟨c, n, p, m, hcut⟩ := t.cutWrites_only
      rw [hcut]
      exact h.same rfl rfl rfl rfl rfl
    have hdown := hcut.stopIssue.stopProg.regs (State.onlyRegs_portsDown _) (by decide) (fun a ha hz => by
      simp only [List.mem_map, List.mem_range, RegFam.addr, Reg.FLK_PORTp_STATE] at ha
      simp only [bootZone, RegFam.addr, Reg.FCL_SRCn_STAT] at hz
      omega)
    rw [State.enterSafe_of_not_safe hsafe]
    refine hdown.onlyRegs ((onlyRegs_setRf _ Reg.FCL_STATE 0 0 2 0 3).trans (onlyRegs_setRf _ Reg.FCL_STATE 0 0 7 4 cause)) (by decide)
      (fun a ha hz => ?_) (fun _ => ?_)
    · rw [List.mem_singleton] at ha
      subst ha
      exact absurd hz (by unfold bootZone; decide)
    · rw [State.safe, State.rf_setRf_apart _ _ _ _ _ (by decide) (by decide), State.rf_setRf_self _ _ _ _ _ _ (by decide)]
      rfl

theorem Boots.review (h : Boots l s t) : Boots l s t.review := by
  unfold State.review
  split
  · exact h.enterSafe 3
  · split
    · exact h
    · unfold State.applyService
      split
      · exact h
      · next hsafe =>
        have hshown : ∀ n, Boots l s (t.setRf Reg.FCL_STATE 0 0 2 0 n) := fun n =>
          h.onlyRegs (onlyRegs_setRf t Reg.FCL_STATE 0 0 2 0 n) (by decide) (fun a ha hz => by
            rw [List.mem_singleton] at ha
            subst ha
            exact absurd hz (by unfold bootZone; decide)) (fun hs => absurd hs hsafe)
        dsimp only
        split
        · exact (hshown _).stopIssue.raise (by decide) (by decide) devUnit
        · exact hshown _

theorem Boots.remapWord (site word : Nat) (bad : List Nat) (h : Boots l s t) : Boots l s (t.remapWord site word bad).1 := by
  unfold State.remapWord
  split
  · exact h
  · split
    · exact h.setReg _ _ _ _ (by decide)
    · exact h

theorem Boots.marchResult (site : Nat) (fails : List Nat) (h : Boots l s t) : Boots l s (t.marchResult site fails) := by
  have hcleared : ∀ xs : List Nat, Boots l s (xs.foldl (fun s n => s.setReg Reg.SPM_REMAPn site n 0) t) := fun xs =>
    .foldl (fun v _ hv => hv.setReg _ _ _ _ (by decide)) xs h
  have hmapped : ∀ (bad xs : List Nat) (v : State × Bool), Boots l s v.1 →
      Boots l s (xs.foldl (fun (x : State × Bool) w => ((x.1.remapWord site w bad).1, x.2 && (x.1.remapWord site w bad).2)) v).1 := by
    intro bad xs
    induction xs with
    | nil => exact fun _ hv => hv
    | cons w xs ih => exact fun v hv => ih _ (hv.remapWord site w bad)
  unfold State.marchResult
  dsimp only
  split
  · exact ((h.setReg _ _ _ _ (by decide)).raise (by decide) (by decide) site).review
  · exact (hmapped _ _ _ (hcleared _)).setReg _ _ _ _ (by decide)

theorem Boots.loadRecord (die : Nat) (ages : Bool) (r : CalRec) (h : Boots l s t) : Boots l s (t.loadRecord die ages r) := by
  unfold State.loadRecord
  split
  · exact h.same rfl rfl rfl rfl rfl
  · exact h.same rfl rfl rfl rfl rfl
  · refine Boots.same (h.setRf Reg.ARY_DRIFT_COEFa r.site r.arr 15 0 _ (by decide)) rfl rfl rfl rfl rfl
  · exact h.setReg _ _ _ _ (by decide)
  · split
    · refine Boots.foldl (fun v x hv => ?_) _ h
      split
      · exact hv.setReg _ _ _ _ (by decide)
      · exact hv
    · exact h
  · exact h

theorem Boots.scanStore (die : Nat) (good : Option Nat) (ages : Bool) (h : Boots l s t) : Boots l s (t.scanStore die good ages) := by
  unfold State.scanStore
  split
  · exact h
  · next c hc =>
    have hscan : ∀ (recs : List CalRec) (xs : List CalRec), Boots l s (xs.foldl (fun s r => s.loadRecord die ages r)
        { t with cal := t.cal.set die { c with recs := recs } }) := fun recs xs =>
      .foldl (fun v r hv => hv.loadRecord die ages r) xs (h.same rfl rfl rfl rfl rfl)
    have hend : ∀ (bad : Bool) (v : State), Boots l s v → Boots l s (if bad then (v.err Reg.CAL_CRC_FAIL 0 0 1).raise 0x7A die else v) :=
      fun bad v hv => by
        cases bad with
        | false => exact hv
        | true => exact hv.errCrc.raise (by decide) (by decide) die
    cases good with
    | none => exact hscan _ _
    | some n => exact hend _ _ (hscan _ _)

end

end Sys2Proof.Machine
end

section
/-! SUPPORT. The stages of a boot (R476, R477), and the statement about it. -/

namespace Sys2Proof.Machine

section
variable {s t u : State} {l k : List Nat}

/-! ### The random source (R477) -/

/-- The raise of a random source that fails its test: besides its own source, no register of the boot's zone changes. -/
theorem boots_raiseRandom (h : Boots l s t) (hl : Reg.FCL_SRCn_STAT.addr 0 0x91 ∈ l) :
    Boots l s (t.raise 0x91 devUnit) ∧ (t.raise 0x91 devUnit).rf Reg.FCL_SRCn_STAT 0 0x91 31 31 = 1 := by
  have hm : t.mild [0x91] := State.mild_of_subset h.mild (by decide)
  have hkeeps := State.raiseKeeps_raise (by decide) hm devUnit
  have hframe := raiseFrame_raise t 0x91 devUnit
  refine ⟨⟨Eq.trans (by rw [hkeeps.eq]) h.pow, Eq.trans (by rw [hkeeps.eq]) h.sec, Eq.trans (by rw [hkeeps.eq]) h.mem, hkeeps.calm h.calm,
    hkeeps.mild (by decide) h.mild, fun hs => ?_, fun a ha hin => ?_⟩, (State.raise_raised (by decide) (by decide) hm).pending⟩
  · rw [State.safe, hframe.rf (state_notMem_raiseAddrs 0x91)]
    exact h.safe hs
  · refine (hframe.word a fun hin' => ?_).trans (h.word a ha hin)
    have hne : a ≠ Reg.FCL_SRCn_STAT.addr 0 0x91 := fun heq => hin (heq ▸ hl)
    rw [mem_raiseAddrs] at hin'
    simp only [bootZone, RegFam.addr, Reg.FCL_SAT_LAST, Reg.FCL_SIG_NEXT, Reg.FCL_SIG_DROPPED, Reg.FCL_SIG_SUPPRESSED, Reg.FCL_SRCn_COUNT,
      Reg.FCL_SRCn_STAT] at hin' ha hne
    obtain h | h | h | h | ⟨n, hn, h⟩ := hin' <;> omega

/-! ### The memories (R350) -/

def stackAddrs : List Nat := (List.range 8).map fun k => Reg.MEM_STACKs_STATE.addr k 0

def farAddrs : List Nat := (List.range 32).map fun k => Reg.MEM_FARc_STATE.addr k 0

theorem stack_zone {k : Nat} (hk : k < 8) : bootZone (Reg.MEM_STACKs_STATE.addr k 0) := by
  refine bootZone_device ?_ ?_ ?_ <;> simp only [RegFam.addr, Reg.MEM_STACKs_STATE, Reg.CAL_CRC_FAIL] <;> omega

theorem stack_notMem_farAddrs {k : Nat} (hk : k < 8) : Reg.MEM_STACKs_STATE.addr k 0 ∉ farAddrs := fun hin => by
  simp only [farAddrs, List.mem_map, List.mem_range, RegFam.addr, Reg.MEM_FARc_STATE, Reg.MEM_STACKs_STATE] at hin
  omega

/-- Stacks that fail at boot show it (R351). -/
theorem boots_failStacks (xs : List Nat) (hxs : ∀ k ∈ xs, k < 8) (hl : ∀ a ∈ stackAddrs, a ∈ l) : ∀ {t}, Boots l s t →
    Boots l s (xs.foldl (fun (s : State) k => (s.setRf Reg.MEM_STACKs_STATE k 0 2 0 3).raise 0x5A k) t) ∧
    ∀ j, j < 8 → (xs.foldl (fun (s : State) k => (s.setRf Reg.MEM_STACKs_STATE k 0 2 0 3).raise 0x5A k) t).rf Reg.MEM_STACKs_STATE j 0 2 0 =
      if j ∈ xs then 3 else t.rf Reg.MEM_STACKs_STATE j 0 2 0 := by
  induction xs with
  | nil => exact fun h => ⟨h, fun j _ => by simp⟩
  | cons i xs ih =>
    intro t h
    have hi : i < 8 := hxs i List.mem_cons_self
    have haddr : Reg.MEM_STACKs_STATE.addr i 0 ∈ stackAddrs := List.mem_map.mpr ⟨i, List.mem_range.mpr hi, rfl⟩
    obtain ⟨v, hv⟩ : ∃ v, t.setRf Reg.MEM_STACKs_STATE i 0 2 0 3 = v := ⟨_, rfl⟩
    have honly : OnlyRegs t v [Reg.MEM_STACKs_STATE.addr i 0] := hv ▸ onlyRegs_setRf _ _ _ _ _ _ _
    have hset : Boots l s v := h.regs honly (fun a ha => by
      simp only [List.mem_singleton, RegFam.addr, Reg.MEM_STACKs_STATE] at ha
      omega) fun a ha _ => by
      rw [List.mem_singleton] at ha
      exact ha ▸ hl _ haddr
    have hraised := (Boots.refl (l := []) hset.calm hset.mild).raise (src := 0x5A) (by decide) (by decide) i
    have hfold := ih (fun k hk => hxs k (List.mem_cons_of_mem _ hk)) (hset.raise (src := 0x5A) (by decide) (by decide) i)
    rw [List.foldl_cons, hv]
    refine ⟨hfold.1, fun j hj => ?_⟩
    rw [hfold.2 j hj, hraised.rf (stack_zone hj) List.not_mem_nil]
    by_cases hji : j = i
    · subst hji
      have hself : v.rf Reg.MEM_STACKs_STATE j 0 2 0 = 3 := hv ▸ State.rf_setRf_self _ _ _ _ _ _ (by decide)
      rw [hself, ite_self, if_pos List.mem_cons_self]
    · have hother : v.rf Reg.MEM_STACKs_STATE j 0 2 0 = t.rf Reg.MEM_STACKs_STATE j 0 2 0 := honly.rf (by
        simp only [List.mem_singleton, RegFam.addr, Reg.MEM_STACKs_STATE]
        omega) _ _
      simp only [hother, List.mem_cons, hji, false_or]

theorem Boots.failChannels (xs : List Nat) (hxs : ∀ k ∈ xs, k < 32) (hl : ∀ a ∈ farAddrs, a ∈ l) (h : Boots l s t) :
    Boots l s (xs.foldl (fun (s : State) k => (s.setRf Reg.MEM_FARc_STATE k 0 2 0 3).raise 0x5B k) t) := by
  induction xs generalizing t with
  | nil => exact h
  | cons i xs ih =>
    have hi : i < 32 := hxs i List.mem_cons_self
    refine ih (fun k hk => hxs k (List.mem_cons_of_mem _ hk)) ((h.regs (onlyRegs_setRf _ _ _ _ _ _ _) (fun a ha => ?_) fun a ha _ => ?_).raise
      (by decide) (by decide) i)
    · simp only [List.mem_singleton, RegFam.addr, Reg.MEM_FARc_STATE] at ha
      omega
    · rw [List.mem_singleton] at ha
      exact ha ▸ hl _ (List.mem_map.mpr ⟨i, List.mem_range.mpr hi, rfl⟩)

/-- Memories are up but those that failed (R476). -/
theorem boots_memories (hc : s.calm) (hm : s.mild bootSources) (stks channels : List Nat) (marches : List (Nat × List Nat)) :
    Boots (stackAddrs ++ farAddrs) s (s.bootMemories stks channels marches) ∧ ∀ k, k < 8 →
      (s.bootMemories stks channels marches).rf Reg.MEM_STACKs_STATE k 0 2 0 = if s.rf Reg.MEM_STACKs_STATE k 0 2 0 = 3 ∨ k ∈ stks then 3 else 2 := by
  obtain ⟨honly, hvalues⟩ := s.setMemories_frame (st := 2) (by decide)
  obtain ⟨v, hv⟩ : ∃ v, s.setMemories 2 = v := ⟨_, rfl⟩
  rw [hv] at honly hvalues
  have hset : Boots (stackAddrs ++ farAddrs) s v := (Boots.refl hc hm).regs honly (fun a ha => by
    simp only [List.mem_append, List.mem_map, List.mem_range, RegFam.addr, Reg.MEM_STACKs_STATE, Reg.MEM_FARc_STATE] at ha
    omega) fun a ha _ => ha
  obtain ⟨hstacks, hfailed⟩ := boots_failStacks (stks.filter (fun k => decide (k < 8)))
    (fun k hk => by simpa using (List.mem_filter.mp hk).2) (fun a ha => List.mem_append_left farAddrs ha) hset
  obtain ⟨w, hw⟩ : ∃ w, (stks.filter (fun k => decide (k < 8))).foldl
    (fun (s : State) k => (s.setRf Reg.MEM_STACKs_STATE k 0 2 0 3).raise 0x5A k) v = w := ⟨_, rfl⟩
  rw [hw] at hstacks hfailed
  have hend : ∀ {l} {r : State}, (∀ a ∈ farAddrs, a ∈ l) → Boots l r w → Boots l r (s.bootMemories stks channels marches) := fun {l r} hl h => by
    have hchannels := h.failChannels (channels.filter (fun k => decide (k < 32))) (fun k hk => by simpa using (List.mem_filter.mp hk).2) hl
    rw [State.bootMemories, hv, hw]
    exact Boots.foldl (fun y x hy => hy.marchResult x _) _ hchannels
  refine ⟨hend (fun a ha => List.mem_append_right _ ha) hstacks, fun k hk => ?_⟩
  have hrest := hend (fun a ha => ha) (Boots.refl (l := farAddrs) hstacks.calm hstacks.mild)
  rw [hrest.rf (stack_zone hk) (stack_notMem_farAddrs hk), hfailed k hk, hvalues k hk]
  simp only [List.mem_filter, decide_eq_true_eq, hk, and_true]
  by_cases hin : k ∈ stks
  · simp [hin]
  · simp [hin]

/-! ### The image that runs (R476) -/

def diodeAddrs : List Nat := [Reg.THM_DIODEn.addr 0 16, Reg.THM_DIODEn.addr 0 17]

/-- Only the registers of the external diodes show their check (R449). -/
theorem Boots.bootDiodes (external : List Nat) (hl : ∀ a ∈ diodeAddrs, a ∈ l) (h : Boots l s t) : Boots l s (t.bootDiodes external) := by
  refine Boots.foldl (fun v b hv => ?_) _ h
  split
  · next hb =>
    refine hv.regs (onlyRegs_setRf _ _ _ _ _ _ _) (fun a ha => ?_) fun a ha _ => hl a ?_
    · simp only [List.mem_singleton, RegFam.addr, Reg.THM_DIODEn] at ha
      omega
    · rw [List.mem_singleton] at ha
      obtain hb | hb : b.2 = 0 ∨ b.2 = 1 := by omega
      · rw [ha, hb]
        exact List.mem_cons_self
      · rw [ha, hb]
        exact List.mem_cons_of_mem _ List.mem_cons_self
  · exact hv

theorem State.diode_fitted (s : State) (v w : Nat) : (s.bootDiodes [v, w]).rf Reg.THM_DIODEn 0 16 31 31 = 1 ↔ 100 ≤ v ∧ v ≤ 1000 := by
  have hdef : s.bootDiodes [v, w] = (s.setRf Reg.THM_DIODEn 0 16 31 31 (bit (decide (100 ≤ v ∧ v ≤ 1000)))).setRf Reg.THM_DIODEn 0 17 31 31
      (bit (decide (100 ≤ w ∧ w ≤ 1000))) := rfl
  rw [hdef, State.rf_setRf_of_ne _ _ _ _ _ _ _ _ _ _ _ _ (by decide), State.rf_setRf_self _ _ _ _ _ _ (by decide)]
  by_cases hv : 100 ≤ v ∧ v ≤ 1000
  · simp [hv, bit]
  · simp [hv, bit]

/-- The state in which a boot from an image shows it (R476). -/
def State.imageShown (s : State) (f : FwImage) : State :=
  ((s.setRf Reg.SEC_FW 0 0 16 16 0).setRf Reg.SEC_FW 0 0 5 0 f.svn).setWords Reg.SEC_FW_MEASn (fwMeasure f)

def measAddrs : List Nat := (List.range 8).map fun k => Reg.SEC_FW_MEASn.addr 0 k

theorem State.imageShown_spec (s : State) (f : FwImage) : OnlyRegs s (s.imageShown f) (Reg.SEC_FW.addr 0 0 :: measAddrs) ∧
    (s.imageShown f).rf Reg.SEC_FW 0 0 16 16 = 0 ∧ (s.imageShown f).rf Reg.SEC_FW 0 0 5 0 = f.svn % 2 ^ 6 ∧
    ∀ k, k < 8 → (s.imageShown f).reg Reg.SEC_FW_MEASn 0 k = (fwMeasure f).toNat / 2 ^ (32 * k) % 2 ^ 32 := by
  obtain ⟨v, hv⟩ : ∃ v, (s.setRf Reg.SEC_FW 0 0 16 16 0).setRf Reg.SEC_FW 0 0 5 0 f.svn = v := ⟨_, rfl⟩
  have honly : OnlyRegs s v [Reg.SEC_FW.addr 0 0] := hv ▸ (onlyRegs_setRf _ _ _ _ _ _ _).trans (onlyRegs_setRf _ _ _ _ _ _ _)
  have hrecovery : v.rf Reg.SEC_FW 0 0 16 16 = 0 := by
    rw [← hv, State.rf_setRf_apart _ _ _ _ _ (by decide) (by decide), State.rf_setRf_self _ _ _ _ _ _ (by decide)]
    rfl
  have hsvn : v.rf Reg.SEC_FW 0 0 5 0 = f.svn % 2 ^ 6 := hv ▸ State.rf_setRf_self _ _ _ _ _ _ (by decide)
  obtain ⟨hwords, hmeas⟩ := State.setWords_spec (f := Reg.SEC_FW_MEASn) (by decide) v (fwMeasure f)
  rw [State.imageShown, hv]
  exact ⟨honly.append hwords, (hwords.rf (by decide) _ _).trans hrecovery, (hwords.rf (by decide) _ _).trans hsvn, hmeas⟩

/-- The state in which a boot has brought stores, memories, diodes and the host link up. -/
def State.imageLoaded (s : State) (stks channels : List Nat) (marches : List (Nat × List Nat)) (external bad : List Nat) : State :=
  let s := s.sites.foldl (fun (s : State) x => (List.range 17).foldl (fun (s : State) a => s.setReg Reg.ARY_DRIFT_COEFa x a 7193) s) s
  let s := (List.range 2).foldl (fun (s : State) d => s.scanStore d (bad[d]?) (!s.pow.kept)) s
  let s := (s.bootMemories stks channels marches).bootDiodes external
  let s := s.setRf Reg.HPT_LINK_STATE 0 0 2 0 1
  s.setRf Reg.CAL_AGE 0 0 1 0 (if s.pow.kept then 1 else 0)

/-- The state at the end of a boot from an image. -/
def State.imageRuns (s : State) : State :=
  let t : State := { s with pow := { s.pow with booted := true, kept := true }, sec := { s.sec with recovered := false } }
  (if s.sec.recovered then t.raise 0x92 devUnit else t).review

/-- The state with an image in flash. -/
def State.withFlash (s : State) (f : FwImage) : State := { s with sec := { s.sec with flash := some f } }

theorem State.bootFlash_eq (s : State) (f : FwImage) (stks channels : List Nat) (marches : List (Nat × List Nat)) (external bad : List Nat) :
    s.bootFlash f stks channels marches external bad =
      ((((s.imageShown f).withFlash f).imageLoaded stks channels marches external bad).imageRuns : State) := rfl

def loadAddrs : List Nat := stackAddrs ++ farAddrs ++ diodeAddrs ++ [Reg.HPT_LINK_STATE.addr 0 0] ++ [Reg.CAL_AGE.addr 0 0]

/-- What a boot from an image brings up (R449, R476). -/
theorem boots_imageLoaded (hc : s.calm) (hm : s.mild bootSources) (stks channels : List Nat) (marches : List (Nat × List Nat))
    (external bad : List Nat) :
    let t := s.imageLoaded stks channels marches external bad
    Boots loadAddrs s t ∧ t.linkState = 1 ∧ t.rf Reg.CAL_AGE 0 0 1 0 = (if s.pow.kept then 1 else 0) ∧
    (∀ v w, external = [v, w] → (t.rf Reg.THM_DIODEn 0 16 31 31 = 1 ↔ 100 ≤ v ∧ v ≤ 1000)) ∧
    ∀ k, k < 8 → t.rf Reg.MEM_STACKs_STATE k 0 2 0 = if s.rf Reg.MEM_STACKs_STATE k 0 2 0 = 3 ∨ k ∈ stks then 3 else 2 := by
  obtain ⟨u, hu⟩ : ∃ u, (List.range 2).foldl (fun (s : State) d => s.scanStore d (bad[d]?) (!s.pow.kept)) (s.sites.foldl
    (fun (s : State) x => (List.range 17).foldl (fun (s : State) a => s.setReg Reg.ARY_DRIFT_COEFa x a 7193) s) s) = u := ⟨_, rfl⟩
  have hstores : Boots [] s u := hu ▸ Boots.foldl (fun v d hv => hv.scanStore d _ _) _
    (Boots.foldl (fun v x hv => Boots.foldl (fun w a hw => hw.setReg _ _ _ _ (by decide)) _ hv) _ (Boots.refl hc hm))
  obtain ⟨hmemories, hstacks⟩ := boots_memories hstores.calm hstores.mild stks channels marches
  obtain ⟨v, hv⟩ : ∃ v, u.bootMemories stks channels marches = v := ⟨_, rfl⟩
  rw [hv] at hmemories hstacks
  have hdiodes := (Boots.refl (l := diodeAddrs) hmemories.calm hmemories.mild).bootDiodes external fun _ ha => ha
  have hfitted : ∀ x y, external = [x, y] → ((v.bootDiodes external).rf Reg.THM_DIODEn 0 16 31 31 = 1 ↔ 100 ≤ x ∧ x ≤ 1000) :=
    fun x y hxy => hxy ▸ v.diode_fitted x y
  obtain ⟨w, hw⟩ : ∃ w, v.bootDiodes external = w := ⟨_, rfl⟩
  rw [hw] at hdiodes hfitted
  obtain ⟨y, hy⟩ : ∃ y, w.setRf Reg.HPT_LINK_STATE 0 0 2 0 1 = y := ⟨_, rfl⟩
  have hlink : OnlyRegs w y [Reg.HPT_LINK_STATE.addr 0 0] := hy ▸ onlyRegs_setRf _ _ _ _ _ _ _
  have htrains : y.linkState = 1 := hy ▸ State.rf_setRf_self _ _ _ _ _ _ (by decide)
  obtain ⟨z, hz⟩ : ∃ z, y.setRf Reg.CAL_AGE 0 0 1 0 (if y.pow.kept then 1 else 0) = z := ⟨_, rfl⟩
  have hage : OnlyRegs y z [Reg.CAL_AGE.addr 0 0] := hz ▸ onlyRegs_setRf _ _ _ _ _ _ _
  have hknown : z.rf Reg.CAL_AGE 0 0 1 0 = (if y.pow.kept then 1 else 0) := by
    rw [← hz, State.rf_setRf_self _ _ _ _ _ _ (by decide)]
    split <;> rfl
  have hlinkB : Boots [Reg.HPT_LINK_STATE.addr 0 0] w y := (Boots.refl hdiodes.calm hdiodes.mild).regs hlink (by decide) fun _ ha _ => ha
  have hageB : Boots [Reg.CAL_AGE.addr 0 0] y z := (Boots.refl hlinkB.calm hlinkB.mild).regs hage (by decide) fun _ ha _ => ha
  have hall := ((((hstores.append hmemories).append hdiodes).append hlinkB).append hageB)
  have hlate := (hdiodes.append hlinkB).append hageB
  have hpow : y.pow = s.pow := (((hstores.append hmemories).append hdiodes).append hlinkB).pow
  have hdef : s.imageLoaded stks channels marches external bad = z := by
    rw [← hz, ← hy, ← hw, ← hv, ← hu]
    rfl
  rw [hdef]
  refine ⟨hall, (hage.rf (by decide) _ _).trans htrains, hknown.trans (by rw [hpow]), fun a b hab => ?_, fun k hk => ?_⟩
  · rw [(hlinkB.append hageB).rf (bootZone_device (by decide) (by decide) (by decide)) (by decide)]
    exact hfitted a b hab
  · rw [hlate.rf (stack_zone hk), hstacks k hk, hstores.rf (stack_zone hk) List.not_mem_nil]
    simp only [diodeAddrs, List.mem_append, List.mem_cons, List.not_mem_nil, or_false, RegFam.addr, Reg.MEM_STACKs_STATE, Reg.THM_DIODEn,
      Reg.HPT_LINK_STATE, Reg.CAL_AGE]
    omega

/-- The image runs: the device is booted and keeps what it has brought up (R476). -/
theorem imageRuns_frame (hc : s.calm) (hm : s.mild bootSources) : ∃ v, Boots [] v s.imageRuns ∧ v.regs = s.regs ∧ v.mem = s.mem ∧
    v.pow = { s.pow with booted := true, kept := true } ∧ v.sec = { s.sec with recovered := false } := by
  obtain ⟨v, hv⟩ : ∃ v, ({ s with pow := { s.pow with booted := true, kept := true }, sec := { s.sec with recovered := false } } : State) = v :=
    ⟨_, rfl⟩
  have hregs : v.regs = s.regs := by rw [← hv]
  have hstart : Boots [] v v := .refl (State.calm_congr (by rw [← hv]) hc) fun n hn => by
    rw [State.rf_congr hregs]
    exact hm n hn
  refine ⟨v, ?_, hregs, by rw [← hv], by rw [← hv], by rw [← hv]⟩
  have hrun : s.imageRuns = (if s.sec.recovered then v.raise 0x92 devUnit else v).review := by rw [← hv]; rfl
  rw [hrun]
  refine Boots.review ?_
  split
  · exact hstart.raise (by decide) (by decide) devUnit
  · exact hstart

/-- The registers that a boot from an image writes. -/
def imageAddrs : List Nat := Reg.SEC_FW.addr 0 0 :: measAddrs ++ loadAddrs

/-- A boot from an image that verifies (R476). -/
theorem bootFlash_spec (hc : s.calm) (hm : s.mild bootSources) (f : FwImage) (stks channels : List Nat) (marches : List (Nat × List Nat))
    (external bad : List Nat) :
    let t := s.bootFlash f stks channels marches external bad
    t.calm ∧ t.pow = { s.pow with booted := true, kept := true } ∧ t.sec = { s.sec with flash := some f, recovered := false } ∧ t.mem = s.mem ∧
    (s.safe = true → t.safe = true) ∧ (∀ a, bootZone a → a ∉ imageAddrs → t.word a = s.word a) ∧ t.linkState = 1 ∧
    t.rf Reg.SEC_FW 0 0 16 16 = 0 ∧ t.rf Reg.SEC_FW 0 0 5 0 = f.svn % 2 ^ 6 ∧
    (∀ k, k < 8 → t.reg Reg.SEC_FW_MEASn 0 k = (fwMeasure f).toNat / 2 ^ (32 * k) % 2 ^ 32) ∧
    t.rf Reg.CAL_AGE 0 0 1 0 = (if s.pow.kept then 1 else 0) ∧
    (∀ v w, external = [v, w] → (t.rf Reg.THM_DIODEn 0 16 31 31 = 1 ↔ 100 ≤ v ∧ v ≤ 1000)) ∧
    ∀ k, k < 8 → t.rf Reg.MEM_STACKs_STATE k 0 2 0 = if s.rf Reg.MEM_STACKs_STATE k 0 2 0 = 3 ∨ k ∈ stks then 3 else 2 := by
  obtain ⟨hshown, hrecovery, hsvn, hmeas⟩ := s.imageShown_spec f
  obtain ⟨u, hu⟩ : ∃ u, s.imageShown f = u := ⟨_, rfl⟩
  rw [hu] at hshown hrecovery hsvn hmeas
  have hshownB : Boots (Reg.SEC_FW.addr 0 0 :: measAddrs) s u := (Boots.refl hc hm).regs hshown (by decide) fun _ ha _ => ha
  obtain ⟨v, hv⟩ : ∃ v, u.withFlash f = v := ⟨_, rfl⟩
  have hvregs : v.regs = u.regs := by rw [← hv]; rfl
  have hvcalm : v.calm := State.calm_congr (by rw [← hv]; rfl) hshownB.calm
  have hvmild : v.mild bootSources := fun n hn => by
    rw [State.rf_congr hvregs]
    exact hshownB.mild n hn
  have hvpow : v.pow = s.pow := Eq.trans (by rw [← hv]; rfl) hshownB.pow
  have hvsec : v.sec = { s.sec with flash := some f } := by
    rw [← hv, ← hshownB.sec]
    rfl
  have hvmem : v.mem = s.mem := Eq.trans (by rw [← hv]; rfl) hshownB.mem
  have hvsafe : s.safe = true → v.safe = true := fun hs => by
    rw [State.safe, State.rf_congr hvregs]
    exact hshownB.safe hs
  obtain ⟨hload, htrains, hage, hfitted, hstacks⟩ := boots_imageLoaded hvcalm hvmild stks channels marches external bad
  obtain ⟨w, hw⟩ : ∃ w, v.imageLoaded stks channels marches external bad = w := ⟨_, rfl⟩
  rw [hw] at hload htrains hage hfitted hstacks
  obtain ⟨y, hruns, hyregs, hymem, hypow, hysec⟩ := imageRuns_frame hload.calm hload.mild
  have hdef : s.bootFlash f stks channels marches external bad = w.imageRuns := by rw [← hw, ← hv, ← hu, State.bootFlash_eq]
  rw [hdef]
  obtain ⟨t, ht⟩ : ∃ t, w.imageRuns = t := ⟨_, rfl⟩
  rw [ht] at hruns ⊢
  have hend : ∀ {g : RegFam} {i j : Nat}, bootZone (g.addr i j) → t.reg g i j = w.reg g i j := fun {g i j} hz =>
    (hruns.reg hz List.not_mem_nil).trans (State.reg_congr hyregs ..)
  have hend' : ∀ {g : RegFam} {i j : Nat} (hi lo : Nat), bootZone (g.addr i j) → t.rf g i j hi lo = w.rf g i j hi lo := fun hi lo hz => by
    rw [State.rf, hend hz, ← State.rf]
  have hkept : ∀ {g : RegFam} {i j : Nat}, bootZone (g.addr i j) → g.addr i j ∉ loadAddrs → t.reg g i j = u.reg g i j := fun hz hl =>
    (hend hz).trans ((hload.reg hz hl).trans (State.reg_congr hvregs ..))
  refine ⟨hruns.calm, ?_, ?_, ?_, fun hs => hruns.safe ?_, fun a hz hin => ?_, ?_, ?_, ?_, fun k hk => ?_, ?_, fun x z hxz => ?_, fun k hk => ?_⟩
  · rw [hruns.pow, hypow, hload.pow, hvpow]
  · rw [hruns.sec, hysec, hload.sec, hvsec]
  · rw [hruns.mem, hymem, hload.mem, hvmem]
  · rw [State.safe, State.rf_congr hyregs]
    exact hload.safe (hvsafe hs)
  · rw [imageAddrs, List.mem_append, not_or] at hin
    rw [hruns.word a hz List.not_mem_nil, State.word, hyregs, ← State.word, hload.word a hz hin.2, State.word, hvregs]
    exact hshownB.word a hz hin.1
  · rw [State.linkState, hend' _ _ (.inr (by decide))]
    exact htrains
  · rw [State.rf, hkept (bootZone_device (by decide) (by decide) (by decide)) (by decide)]
    exact hrecovery
  · rw [State.rf, hkept (bootZone_device (by decide) (by decide) (by decide)) (by decide)]
    exact hsvn
  · rw [hkept]
    · exact hmeas k hk
    · refine bootZone_device ?_ ?_ ?_ <;> simp only [RegFam.addr, Reg.SEC_FW_MEASn, Reg.CAL_CRC_FAIL] <;> omega
    · simp only [loadAddrs, stackAddrs, farAddrs, diodeAddrs, List.mem_append, List.mem_map, List.mem_range, List.mem_cons, List.not_mem_nil, or_false,
        RegFam.addr, Reg.SEC_FW_MEASn, Reg.MEM_STACKs_STATE, Reg.MEM_FARc_STATE, Reg.THM_DIODEn, Reg.HPT_LINK_STATE, Reg.CAL_AGE]
      omega
  · rw [hend' _ _ (bootZone_device (by decide) (by decide) (by decide)), hage, hvpow]
  · rw [hend' _ _ (bootZone_device (by decide) (by decide) (by decide))]
    exact hfitted x z hxz
  · rw [hend' _ _ (stack_zone hk), hstacks k hk, State.rf_congr hvregs, hshownB.rf (stack_zone hk)]
    simp only [measAddrs, List.mem_cons, List.mem_map, List.mem_range, RegFam.addr, Reg.SEC_FW_MEASn, Reg.MEM_STACKs_STATE, Reg.SEC_FW]
    omega

/-! ### The boot's tests (R410, R476, R477) -/

/-- The state after the boot's tests of the collector and of the random source. -/
def State.bootTested (s : State) (found : BootTest) : State :=
  let s := s.setReg Reg.PWR_STATE 0 0 0x11
  let s := if found.collector then s else s.enterSafe 1
  let s : State := { s with sec := { s.sec with root := true, rootDraws := s.sec.rootDraws + 1 } }
  if found.random then s else (s.setRf Reg.SEC_RNG 0 0 0 0 0).raise 0x91 devUnit

def testAddrs : List Nat := [Reg.PWR_STATE.addr 0 0, Reg.SEC_RNG.addr 0 0, Reg.FCL_SRCn_STAT.addr 0 0x91]

theorem bootTested_spec (hc : s.calm) (hm : s.mild bootSources) (found : BootTest) :
    let t := s.bootTested found
    t.calm ∧ t.mild bootSources ∧ t.pow = s.pow ∧ t.sec = { s.sec with root := true, rootDraws := s.sec.rootDraws + 1 } ∧ t.mem = s.mem ∧
    (found.collector = false → t.safe = true) ∧ t.reg Reg.PWR_STATE 0 0 = 0x11 ∧
    (found.random = false → t.rf Reg.SEC_RNG 0 0 0 0 = 0 ∧ t.rf Reg.FCL_SRCn_STAT 0 0x91 31 31 = 1) ∧
    ∀ a, bootZone a → a ∉ testAddrs → t.word a = s.word a := by
  obtain ⟨u, hu⟩ : ∃ u, s.setReg Reg.PWR_STATE 0 0 0x11 = u := ⟨_, rfl⟩
  have hshown : u.reg Reg.PWR_STATE 0 0 = 0x11 := hu ▸ State.reg_setReg_self _ _ _ _ _
  have hushown : Boots [Reg.PWR_STATE.addr 0 0] s u :=
    (Boots.refl hc hm).regs (hu ▸ onlyRegs_setReg _ _ _ _ _) (by decide) fun _ ha _ => ha
  obtain ⟨v, hv⟩ : ∃ v, (if found.collector then u else u.enterSafe 1) = v := ⟨_, rfl⟩
  have htest : Boots [] u v ∧ (found.collector = false → v.safe = true) := by
    rw [← hv]
    cases found.collector with
    | true => exact ⟨.refl hushown.calm hushown.mild, fun h => nomatch h⟩
    | false =>
      refine ⟨(Boots.refl hushown.calm hushown.mild).enterSafe 1, fun _ => ?_⟩
      cases hs : u.safe with
      | true => simp [State.enterSafe, hs]
      | false => exact State.enterSafe_safe hs 1
  obtain ⟨w, hw⟩ : ∃ w, ({ v with sec := { v.sec with root := true, rootDraws := v.sec.rootDraws + 1 } } : State) = w := ⟨_, rfl⟩
  have hwregs : w.regs = v.regs := by rw [← hw]
  have hwcalm : w.calm := State.calm_congr (by rw [← hw]) htest.1.calm
  have hwmild : w.mild bootSources := fun n hn => by
    rw [State.rf_congr hwregs]
    exact htest.1.mild n hn
  have hwsec : w.sec = { s.sec with root := true, rootDraws := s.sec.rootDraws + 1 } := by
    rw [← hw, ← hushown.sec, ← htest.1.sec]
  have hwsafe : found.collector = false → w.safe = true := fun h => by
    rw [State.safe, State.rf_congr hwregs]
    exact htest.2 h
  obtain ⟨t, ht⟩ : ∃ t, (if found.random then w else (w.setRf Reg.SEC_RNG 0 0 0 0 0).raise 0x91 devUnit) = t := ⟨_, rfl⟩
  have hdrawn : Boots [Reg.SEC_RNG.addr 0 0, Reg.FCL_SRCn_STAT.addr 0 0x91] w t ∧
      (found.random = false → t.rf Reg.SEC_RNG 0 0 0 0 = 0 ∧ t.rf Reg.FCL_SRCn_STAT 0 0x91 31 31 = 1) := by
    rw [← ht]
    cases found.random with
    | true => exact ⟨.refl hwcalm hwmild, fun h => nomatch h⟩
    | false =>
      obtain ⟨y, hy⟩ : ∃ y, w.setRf Reg.SEC_RNG 0 0 0 0 0 = y := ⟨_, rfl⟩
      have hset : Boots [Reg.SEC_RNG.addr 0 0, Reg.FCL_SRCn_STAT.addr 0 0x91] w y :=
        (Boots.refl hwcalm hwmild).regs (hy ▸ onlyRegs_setRf _ _ _ _ _ _ _) (by decide) fun a ha _ => by simp_all
      have hzero : y.rf Reg.SEC_RNG 0 0 0 0 = 0 := hy ▸ State.rf_setRf_self _ _ _ _ _ _ (by decide)
      have hraised := boots_raiseRandom hset (by simp)
      have hother := boots_raiseRandom (Boots.refl (l := [Reg.FCL_SRCn_STAT.addr 0 0x91]) hset.calm hset.mild) (by simp)
      simp only [Bool.false_eq_true, if_false, hy]
      exact ⟨hraised.1, fun _ => ⟨(hother.1.rf (bootZone_device (by decide) (by decide) (by decide)) (by decide) _ _).trans hzero, hraised.2⟩⟩
  have hdef : s.bootTested found = t := by
    rw [← ht, ← hw, ← hv, ← hu]
    rfl
  rw [hdef]
  refine ⟨hdrawn.1.calm, hdrawn.1.mild, ?_, ?_, ?_, fun h => hdrawn.1.safe (hwsafe h), ?_, hdrawn.2, fun a hz hin => ?_⟩
  · rw [hdrawn.1.pow, ← hushown.pow, ← htest.1.pow, ← hw]
  · rw [hdrawn.1.sec, hwsec]
  · rw [hdrawn.1.mem, ← hushown.mem, ← htest.1.mem, ← hw]
  · rw [hdrawn.1.reg (bootZone_device (by decide) (by decide) (by decide)) (by decide), State.reg_congr hwregs,
      htest.1.reg (bootZone_device (by decide) (by decide) (by decide)) List.not_mem_nil]
    exact hshown
  · simp only [testAddrs, List.mem_cons, List.not_mem_nil, or_false, not_or] at hin
    rw [hdrawn.1.word a hz (by simp [hin]), State.word, hwregs, ← State.word, htest.1.word a hz List.not_mem_nil,
      hushown.word a hz (by simp [hin])]

/-! ### The two boots -/

/-- The boot for recovery (R477). -/
theorem recoveryBoot_spec (s : State) : s.recoveryBoot.pow = { s.pow with booted := true, kept := true } ∧ s.recoveryBoot.sec = s.sec ∧
    s.recoveryBoot.mem = s.mem ∧ s.recoveryBoot.fcl = s.fcl ∧ s.recoveryBoot.linkState = 1 ∧ s.recoveryBoot.rf Reg.SEC_FW 0 0 16 16 = 1 ∧
    ∀ a, a ∉ [Reg.SEC_FW.addr 0 0, Reg.MEM_STACKs_STATE.addr 0 0, Reg.HPT_LINK_STATE.addr 0 0] → s.recoveryBoot.word a = s.word a := by
  obtain ⟨u, hu⟩ : ∃ u, s.setRf Reg.SEC_FW 0 0 16 16 1 = u := ⟨_, rfl⟩
  have hfw : OnlyRegs s u [Reg.SEC_FW.addr 0 0] := hu ▸ onlyRegs_setRf _ _ _ _ _ _ _
  have hrecovery : u.rf Reg.SEC_FW 0 0 16 16 = 1 := hu ▸ State.rf_setRf_self _ _ _ _ _ _ (by decide)
  obtain ⟨v, hv⟩ : ∃ v, (u.setRf Reg.MEM_STACKs_STATE 0 0 2 0 2).setRf Reg.HPT_LINK_STATE 0 0 2 0 1 = v := ⟨_, rfl⟩
  have hrest : OnlyRegs u v [Reg.MEM_STACKs_STATE.addr 0 0, Reg.HPT_LINK_STATE.addr 0 0] :=
    hv ▸ (onlyRegs_setRf u Reg.MEM_STACKs_STATE 0 0 2 0 2).append (onlyRegs_setRf _ Reg.HPT_LINK_STATE 0 0 2 0 1)
  have hlink : v.linkState = 1 := hv ▸ State.rf_setRf_self _ _ _ _ _ _ (by decide)
  have hall : OnlyRegs s v [Reg.SEC_FW.addr 0 0, Reg.MEM_STACKs_STATE.addr 0 0, Reg.HPT_LINK_STATE.addr 0 0] := hfw.append hrest
  have hboot : v.rf Reg.SEC_FW 0 0 16 16 = 1 := (hrest.rf (by decide) _ _).trans hrecovery
  have hpow : v.pow = s.pow := by rw [hall.1]
  have hsec : v.sec = s.sec := by rw [hall.1]
  have hmem : v.mem = s.mem := by rw [hall.1]
  have hdef : s.recoveryBoot = { v with pow := { v.pow with booted := true, kept := true } } := by
    rw [← hv, ← hu]
    rfl
  rw [hdef]
  exact ⟨by rw [hpow], hsec, hmem, hall.fcl, hlink, hboot, hall.2⟩

theorem exec_boot_of_pins (found : BootTest) (fwOk : Bool) (img : FwImage) (stks channels : List Nat) (marches : List (Nat × List Nat))
    (diodes bad : List Nat) (hvin : s.pow.vin = true) (hon : s.pow.on = true) (hboot : s.pow.booted = false) (hlatch : s.pow.offLatch = false)
    (hpins : s.rf Reg.DEV_SIDEBAND 0 0 1 0 = 3) (hflash : (s.bootTested found).sec.flash = s.sec.flash) :
    exec (.boot found fwOk img stks channels marches diodes bad) s =
      finish (if !fwOk || !(s.bootTested found).imageBoots (s.sec.flash.getD img) || !found.managed then (s.bootTested found).recoveryBoot
        else (s.bootTested found).bootFlash (s.sec.flash.getD img) stks channels marches diodes bad) := by
  show execBoot found fwOk img stks channels marches diodes bad s = _
  rw [execBoot]
  simp only [hvin, hon, hboot, hlatch, hpins, Bool.not_true, Bool.or_self, bne_self_eq_false, Bool.false_eq_true, if_false]
  obtain ⟨t, ht⟩ : ∃ t, s.bootTested found = t := ⟨_, rfl⟩
  rw [ht] at hflash ⊢
  rw [← hflash, ← ht]
  rfl

end

/-- Settles O52: the boot's tests, then the boot for recovery or from the image. -/
theorem boot : Obligations.Boot := by
  unfold Obligations.Boot
  intro s found fwOk img stks channels marches diodes bad hc hvin hon hboot hlatch hpins hm f good
  obtain ⟨hcalm, hmild, hpow, hsec, hmem, hsafe, hstate, hrandom, hword⟩ := bootTested_spec hc hm found
  have hexec := exec_boot_of_pins found fwOk img stks channels marches diodes bad hvin hon hboot hlatch hpins (by rw [hsec])
  obtain ⟨u, hu⟩ : ∃ u, s.bootTested found = u := ⟨_, rfl⟩
  rw [hu] at hcalm hmild hpow hsec hmem hsafe hstate hrandom hword hexec
  have htested : ∀ {g : RegFam} {i j : Nat}, bootZone (g.addr i j) → g.addr i j ∉ testAddrs → ∀ hi lo, u.rf g i j hi lo = s.rf g i j hi lo :=
    fun hz hl hi lo => State.rf_of_word (hword _ hz hl) hi lo
  have hboots : u.imageBoots f = s.imageBoots f := by
    have hfw := htested (g := Reg.SEC_FW) (i := 0) (j := 0) (bootZone_device (by decide) (by decide) (by decide)) (by decide) 13 8
    have hotost : u.sec.otost = s.sec.otost := by rw [hsec]
    simp only [State.imageBoots, State.fwSigned, State.endsOtost, hfw, hotost]
  have hgood : (!fwOk || !u.imageBoots f || !found.managed) = !good := by
    rw [hboots, Bool.not_and, Bool.not_and]
  rw [hgood] at hexec
  cases hg : good with
  | false =>
    obtain ⟨hrpow, hrsec, hrmem, hrfcl, hrlink, hrboot, hrword⟩ := recoveryBoot_spec u
    rw [hg] at hexec
    obtain ⟨t, ht⟩ : ∃ t, u.recoveryBoot = t := ⟨_, rfl⟩
    rw [ht] at hrpow hrsec hrmem hrfcl hrlink hrboot hrword hexec
    refine ⟨t, hexec.trans (finish_of_calm hcalm hrfcl), by rw [hrpow], by rw [hrpow], hrlink, ?_, by rw [hrsec, hsec], by rw [hrsec, hsec], ?_,
      hrmem.trans hmem, fun hcol => ?_, fun hran => ?_, fun h => nomatch h⟩
    · exact (State.reg_of_word (hrword _ (by decide))).trans hstate
    · rw [State.recovery, hrboot]
      rfl
    · rw [State.safe, State.rf_of_word (hrword _ (by decide))]
      exact hsafe hcol
    · rw [State.rf_of_word (hrword _ (by decide)), State.rf_of_word (hrword _ (by decide))]
      exact hrandom hran
  | true =>
    obtain ⟨hfcalm, hfpow, hfsec, hfmem, hfsafe, hfword, hflink, hfboot, hfsvn, hfmeas, hfage, hffit, hfstacks⟩ :=
      bootFlash_spec hcalm hmild f stks channels marches diodes bad
    rw [hg] at hexec
    obtain ⟨t, ht⟩ : ∃ t, u.bootFlash f stks channels marches diodes bad = t := ⟨_, rfl⟩
    have hrun : exec (.boot found fwOk img stks channels marches diodes bad) s = finish t := by rw [hexec, ← ht]; rfl
    rw [ht] at hfcalm hfpow hfsec hfmem hfsafe hfword hflink hfboot hfsvn hfmeas hfage hffit hfstacks
    refine ⟨t, hrun.trans (finish_of_calm hfcalm rfl), by rw [hfpow], by rw [hfpow], hflink, ?_, by rw [hfsec, hsec], by rw [hfsec, hsec], ?_,
      hfmem.trans hmem, fun hcol => hfsafe (hsafe hcol), fun hran => ?_, fun _ => ⟨by rw [hfsec], by rw [hfsec], fun hsvn => ?_, hfmeas, ?_, hffit,
        fun k hk => ?_⟩⟩
    · exact (State.reg_of_word (hfword _ (bootZone_device (by decide) (by decide) (by decide)) (by decide))).trans hstate
    · rw [State.recovery, hfboot]
      rfl
    · rw [State.rf_of_word (hfword _ (bootZone_device (by decide) (by decide) (by decide)) (by decide)), State.rf_of_word (hfword _ (.inl rfl) (by decide))]
      exact hrandom hran
    · rw [hfsvn]
      exact Nat.mod_eq_of_lt hsvn
    · rw [hfage, hpow]
    · rw [hfstacks k hk, htested (stack_zone hk)]
      simp only [testAddrs, List.mem_cons, List.not_mem_nil, or_false, RegFam.addr, Reg.MEM_STACKs_STATE, Reg.PWR_STATE, Reg.SEC_RNG, Reg.FCL_SRCn_STAT]
      omega

end Sys2Proof.Machine
end

section
/-! SUPPORT. Folds whose steps each concern one key. -/

namespace Sys2Proof.Machine

section
variable {σ α β : Type} {f : σ → α → σ} {xs : List α}

/-- Where each step changes what belongs to its own key alone, a key's own step is the one that counts. -/
theorem foldl_at {P : σ → Prop} {key : α → Nat} {g : σ → Nat → β} (hP : ∀ v x, P v → P (f v x))
    (hkeep : ∀ v x m, P v → m ≠ key x → g (f v x) m = g v m) : ∀ {s}, P s → (xs.map key).Nodup →
    P (xs.foldl f s) ∧ (∀ m, m ∉ xs.map key → g (xs.foldl f s) m = g s m) ∧
    ∀ x ∈ xs, ∃ v, P v ∧ g v (key x) = g s (key x) ∧ g (xs.foldl f s) (key x) = g (f v x) (key x) := by
  induction xs with
  | nil => exact fun h _ => ⟨h, fun _ _ => rfl, fun x hx => nomatch hx⟩
  | cons a xs ih =>
    intro s hs hnodup
    obtain ⟨hout, hnodup⟩ := List.nodup_cons.mp hnodup
    obtain ⟨hend, hother, hown⟩ := ih (hP s a hs) hnodup
    refine ⟨hend, fun m hm => ?_, fun x hx => ?_⟩
    · simp only [List.map_cons, List.mem_cons, not_or] at hm
      exact (hother m hm.2).trans (hkeep s a m hs hm.1)
    · rcases List.mem_cons.mp hx with rfl | hx
      · exact ⟨s, hs, rfl, hother _ hout⟩
      · obtain ⟨v, hv, hsame, hset⟩ := hown x hx
        refine ⟨v, hv, hsame.trans (hkeep s a _ hs fun heq => hout ?_), hset⟩
        exact heq ▸ List.mem_map.mpr ⟨x, hx, rfl⟩

/-- A fold all of whose steps but one do nothing. -/
theorem foldl_eq_of_only {a : α} {s : σ} (ha : a ∈ xs) (hnodup : xs.Nodup) (hidle : ∀ v, ∀ x ∈ xs, x ≠ a → f v x = v) :
    xs.foldl f s = f s a := by
  induction xs generalizing s with
  | nil => nomatch ha
  | cons x xs ih =>
    obtain ⟨hout, hnodup⟩ := List.nodup_cons.mp hnodup
    have hrest : ∀ v, ∀ y ∈ xs, y ≠ a → f v y = v := fun v y hy => hidle v y (List.mem_cons_of_mem _ hy)
    rw [List.foldl_cons]
    by_cases hx : x = a
    · subst hx
      have hnone : ∀ (ys : List α) (v : σ), (∀ y ∈ ys, y ∈ xs) → ys.foldl f v = v := fun ys => by
        induction ys with
        | nil => exact fun _ _ => rfl
        | cons y ys ihy =>
          intro v hys
          have hy := hys y List.mem_cons_self
          rw [List.foldl_cons, hrest v y hy (fun heq => hout (heq ▸ hy))]
          exact ihy v fun z hz => hys z (List.mem_cons_of_mem _ hz)
      exact hnone xs _ fun _ hy => hy
    · rw [hidle s x List.mem_cons_self hx]
      exact ih ((List.mem_cons.mp ha).resolve_left (Ne.symm hx)) hnodup hrest

end

end Sys2Proof.Machine
end

section
/-! SUPPORT. Housekeeping and the hold-up capacitance (R444 to R448, R455). -/

namespace Sys2Proof.Machine

section
variable {s : State} {ch : Nat} {code : BitVec 14}

theorem code_lt (code : BitVec 14) : code.toNat < 2 ^ 14 := code.isLt

/-- The result of a channel is shown (R446). -/
def State.hkaShown (s : State) (ch : Nat) (code : BitVec 14) : State := s.setRf Reg.HKA_CHn_LAST 0 ch 13 0 code.toNat

theorem State.onlyRegs_hkaShown (s : State) (ch : Nat) (code : BitVec 14) : OnlyRegs s (s.hkaShown ch code) [Reg.HKA_CHn_LAST.addr 0 ch] :=
  onlyRegs_setRf _ _ _ _ _ _ _

theorem State.rf_hkaShown (s : State) (ch : Nat) (code : BitVec 14) : (s.hkaShown ch code).rf Reg.HKA_CHn_LAST 0 ch 13 0 = code.toNat :=
  (State.rf_setRf_self _ _ _ _ _ _ (by decide)).trans (Nat.mod_eq_of_lt (code_lt code))

theorem State.hkaResult_of_unwatched (hwin : bitsOf (s.reg Reg.HKA_CHn_WIN 0 ch) 31 31 = 0) : s.hkaResult ch code = s.hkaShown ch code := by
  unfold State.hkaResult
  dsimp only
  rw [if_pos hwin]
  rfl

/-- A result that leaves its window is raised (R446). -/
theorem State.hkaResult_of_out (hwin : bitsOf (s.reg Reg.HKA_CHn_WIN 0 ch) 31 31 = 1)
    (hout : code.toNat < bitsOf (s.reg Reg.HKA_CHn_WIN 0 ch) 13 0 ∨ bitsOf (s.reg Reg.HKA_CHn_WIN 0 ch) 29 16 < code.toNat)
    (hin : s.rf Reg.HKA_CHn_LAST 0 ch 31 31 = 0) :
    s.hkaResult ch code = ((s.hkaShown ch code).setRf Reg.HKA_CHn_LAST 0 ch 31 31 1).raise 0x75 ch := by
  unfold State.hkaResult
  dsimp only
  rw [if_neg (by rw [hwin]; decide), if_pos hout, if_pos hin]
  rfl

/-- A trigger converts the channels of its group (R444). -/
theorem State.hkaGroup_of_only {y : Sample} {group : Nat} (seq : Nat) (hchan : y.chan < 32) (hcfg : s.rf Reg.HKA_CHn_CFG 0 y.chan 1 0 = group) :
    s.hkaGroup group seq [y] = (s.hkaResult y.chan y.code).hkaPush { trig := group, chan := y.chan, seq := seq, code := y.code.toNat } := by
  unfold State.hkaGroup
  rw [foldl_eq_of_only (a := y.chan) (List.mem_range.mpr hchan) List.nodup_range]
  · rw [if_pos hcfg]
    simp
  · intro v x _ hx
    have hnone : [y].find? (fun z => z.chan == x) = none := by simpa using Ne.symm hx
    rw [hnone]
    exact ite_self _

theorem State.hkaPush_of_room (hroom : s.sense.queue.length < 512) (e : HkaEntry) :
    s.hkaPush e = { s with sense := { s.sense with queue := s.sense.queue ++ [e] } } := if_neg (by omega)

/-- The hold-up bank's capacitance and energy are shown (R455). -/
theorem holdupCap_shown (s : State) {uf : Nat} (huf : uf ≤ 65535) : let q := (s.setReg Reg.PWR_HOLDUP_CAP 0 0 uf).showHoldup
    q.rf Reg.PWR_HOLDUP_CAP 0 0 15 0 = uf ∧ OnlyRegs s q [Reg.PWR_HOLDUP_CAP.addr 0 0, Reg.PWR_HOLDUP.addr 0 0] := by
  refine ⟨?_, (onlyRegs_setReg _ _ _ _ _).append (onlyRegs_setReg _ _ _ _ _)⟩
  obtain ⟨v, hv⟩ : ∃ v, s.setReg Reg.PWR_HOLDUP_CAP 0 0 uf = v := ⟨_, rfl⟩
  have hset : v.reg Reg.PWR_HOLDUP_CAP 0 0 = uf := by
    rw [← hv, State.reg_setReg_self]
    exact Nat.mod_eq_of_lt (by omega)
  rw [hv]
  have honly : OnlyRegs v v.showHoldup [Reg.PWR_HOLDUP.addr 0 0] := onlyRegs_setReg _ _ _ _ _
  rw [honly.rf (by decide), State.rf, hset, bitsOf]
  omega

theorem exec_holdupCapMeasure (hboot : s.pow.booted = true) {drop : BitVec 16} (hdrop : drop ≠ 0) :
    let uf := min 65535 (2000000 / drop.toNat)
    let q := (s.setReg Reg.PWR_HOLDUP_CAP 0 0 uf).showHoldup
    exec (.holdupCapMeasure drop) s = finish (if uf < 3200 ∧ 3200 ≤ s.rf Reg.PWR_HOLDUP_CAP 0 0 15 0 then q.raise 0x7E devUnit else q) := by
  have hcap : bankCap drop.toNat = min 65535 (2000000 / drop.toNat) := if_neg fun h => hdrop (BitVec.eq_of_toNat_eq h)
  show execHoldupCapMeasure drop s = _
  rw [execHoldupCapMeasure, hboot, hcap]
  rfl

end

end Sys2Proof.Machine
end

section
/-! SUPPORT. The system scan and the diodes (R445, R449 to R453). -/

namespace Sys2Proof.Machine

/-- The sources that a scan raises. -/
def scanSources : List Nat := [0x70, 0x71, 0x72, 0x75, 0x78, 0x80, 0x81]

/-- What the steps of a scan keep, where the reactions of the sources in `m` are mild: all but registers, cores, the collector, free values and
what sensing remembers; of that the queue, the die of the band-gap and the shutdown; cores that have stopped; and every register outside the
collector but those at the addresses of `l`. -/
structure Scans (m l : List Nat) (s t : State) : Prop where
  state : t = { s with regs := t.regs, cores := t.cores, fcl := t.fcl, freeCtr := t.freeCtr, sense := t.sense }
  calm : t.calm
  mild : t.mild m
  queue : t.sense.queue = s.sense.queue
  die : t.sense.bandgapDie = s.sense.bandgapDie
  shutdown : t.sense.shutdown = s.sense.shutdown
  stopped : (∀ z, (s.core z).stopped) → ∀ z, (t.core z).stopped
  word : ∀ a, (a < 0x30000 ∨ 0x40000 ≤ a) → a ∉ l → t.word a = s.word a

section
variable {s t u : State} {m l k : List Nat}

theorem Scans.refl (hc : s.calm) (hm : s.mild m) : Scans m l s s := ⟨rfl, hc, hm, rfl, rfl, rfl, id, fun _ _ _ => rfl⟩

theorem Scans.append (h : Scans m l s t) (g : Scans m k t u) : Scans m (l ++ k) s u where
  state := by
    have h1 := h.state
    have h2 := g.state
    rw [h1] at h2
    exact h2
  calm := g.calm
  mild := g.mild
  queue := g.queue.trans h.queue
  die := g.die.trans h.die
  shutdown := g.shutdown.trans h.shutdown
  stopped hs := g.stopped (h.stopped hs)
  word a ha hin := by
    rw [List.mem_append, not_or] at hin
    exact (g.word a ha hin.2).trans (h.word a ha hin.1)

theorem Scans.mono (h : Scans m l s t) (hl : ∀ a ∈ l, a ∈ k) : Scans m k s t := { h with word := fun a ha hin => h.word a ha fun h' => hin (hl a h') }

theorem Scans.reg (h : Scans m l s t) {f : RegFam} {i j : Nat} (ha : f.addr i j < 0x30000 ∨ 0x40000 ≤ f.addr i j) (hl : f.addr i j ∉ l) :
    t.reg f i j = s.reg f i j := State.reg_of_word (h.word _ ha hl)

theorem Scans.rf (h : Scans m l s t) {f : RegFam} {i j : Nat} (ha : f.addr i j < 0x30000 ∨ 0x40000 ≤ f.addr i j) (hl : f.addr i j ∉ l) (hi lo : Nat) :
    t.rf f i j hi lo = s.rf f i j hi lo := State.rf_of_word (h.word _ ha hl) hi lo

theorem Scans.foldl {α : Type} {f : State → α → State} (xs : List α) (hf : ∀ v, ∀ x ∈ xs, Scans m l s v → Scans m l s (f v x)) :
    ∀ {t}, Scans m l s t → Scans m l s (xs.foldl f t) := by
  induction xs with
  | nil => exact id
  | cons x xs ih => exact fun h => ih (fun v y hy => hf v y (List.mem_cons_of_mem _ hy)) (hf _ x List.mem_cons_self h)

theorem Scans.regs (h : Scans m l s t) (g : OnlyRegs t u k) (hm : ∀ n ∈ m, n < 256) (hk : ∀ a ∈ k, a < 0x30000 ∨ 0x40000 ≤ a)
    (hl : ∀ a ∈ k, a ∈ l) : Scans m l s u where
  state := by
    have h1 := h.state
    have h2 := g.1
    rw [h1] at h2
    rw [h2]
  calm := g.calm h.calm
  mild := g.mild (fun a ha => by have := hk a ha; omega) hm h.mild
  queue := Eq.trans (by rw [g.1]) h.queue
  die := Eq.trans (by rw [g.1]) h.die
  shutdown := Eq.trans (by rw [g.1]) h.shutdown
  stopped hs z := by
    rw [g.core]
    exact h.stopped hs z
  word a ha hin := (g.2 a fun hk' => hin (hl a hk')).trans (h.word a ha hin)

theorem Scans.raise {src : Nat} (hm : ∀ n ∈ m, n < 256) (hsrc : src ∈ m) (unit : Nat) (h : Scans m l s t) : Scans m l s (t.raise src unit) := by
  have hkeeps := State.raiseKeeps_raise (hm src hsrc) (State.mild_of_subset h.mild (by simpa using hsrc)) unit
  obtain ⟨v, hv⟩ : ∃ v, t.raise src unit = v := ⟨_, rfl⟩
  rw [hv] at hkeeps ⊢
  refine ⟨?_, hkeeps.calm h.calm, hkeeps.mild hm h.mild, Eq.trans (by rw [hkeeps.eq]) h.queue, Eq.trans (by rw [hkeeps.eq]) h.die,
    Eq.trans (by rw [hkeeps.eq]) h.shutdown, fun hs z => ?_, fun a ha hin => (hkeeps.word a ha).trans (h.word a ha hin)⟩
  · have h1 := h.state
    have h2 := hkeeps.eq
    rw [h1] at h2
    rw [h2]
  · have hcores : v.cores = t.cores := by rw [hkeeps.eq]
    rw [State.core, hcores]
    exact h.stopped hs z

/-- A change of what else sensing remembers. -/
theorem Scans.sense (h : Scans m l s t) (o : Sense) (hq : o.queue = t.sense.queue) (hd : o.bandgapDie = t.sense.bandgapDie)
    (hs : o.shutdown = t.sense.shutdown) : Scans m l s { t with sense := o } := by
  refine ⟨?_, h.calm, h.mild, hq.trans h.queue, hd.trans h.die, hs.trans h.shutdown, h.stopped, h.word⟩
  have h1 := h.state
  rw [h1]

theorem Scans.stopIssue (h : Scans m l s t) : Scans m l s t.stopIssue := by
  refine ⟨?_, h.calm, h.mild, h.queue, h.die, h.shutdown, fun _ => t.stopIssue_stopped, h.word⟩
  have h1 := h.state
  rw [h1]
  rfl

theorem OnlyRegs.foldl {α : Type} {f : State → α → State} (xs : List α) (hf : ∀ v, ∀ x ∈ xs, OnlyRegs v (f v x) l) :
    ∀ {s}, OnlyRegs s (xs.foldl f s) l := by
  induction xs with
  | nil => exact .refl _ _
  | cons x xs ih => exact (hf _ x List.mem_cons_self).trans (ih fun v y hy => hf v y (List.mem_cons_of_mem _ hy))

/-! ### Channels (R446) -/

section
variable (hm : ∀ n ∈ m, n < 256)
include hm

omit hm in
theorem last_addr (ch : Nat) : 0x40000 ≤ Reg.HKA_CHn_LAST.addr 0 ch := by
  simp only [RegFam.addr, Reg.HKA_CHn_LAST]
  omega

theorem Scans.hkaResult {ch : Nat} (code : BitVec 14) (hsrc : 0x75 ∈ m) (hl : Reg.HKA_CHn_LAST.addr 0 ch ∈ l) (h : Scans m l s t) :
    Scans m l s (t.hkaResult ch code) := by
  have hset : ∀ {v} (hi lo x : Nat), Scans m l s v → Scans m l s (v.setRf Reg.HKA_CHn_LAST 0 ch hi lo x) := fun hi lo x hv =>
    hv.regs (onlyRegs_setRf _ _ _ _ _ _ _) hm (fun a ha => .inr (by rw [List.mem_singleton.mp ha]; exact last_addr ch))
      fun a ha => by rw [List.mem_singleton.mp ha]; exact hl
  have hshown := hset 13 0 code.toNat h
  unfold State.hkaResult
  dsimp only
  split
  · exact hshown
  · split
    · split
      · exact (hset _ _ _ hshown).raise hm hsrc ch
      · exact hshown
    · exact hset _ _ _ hshown

omit hm in
theorem State.rf_hkaResult (s : State) (ch : Nat) (code : BitVec 14) : (s.hkaResult ch code).rf Reg.HKA_CHn_LAST 0 ch 13 0 = code.toNat := by
  have hshown := s.rf_hkaShown ch code
  have hbit : ∀ x, ((s.hkaShown ch code).setRf Reg.HKA_CHn_LAST 0 ch 31 31 x).rf Reg.HKA_CHn_LAST 0 ch 13 0 = code.toNat := fun x =>
    (State.rf_setRf_apart _ _ _ _ _ (by decide) (by decide)).trans hshown
  unfold State.hkaResult
  dsimp only
  split
  · exact hshown
  · split
    · split
      · refine ((raiseFrame_raise _ 0x75 ch).rf (fun hin => ?_) _ _).trans (hbit 1)
        have hlow := last_addr ch
        rw [mem_raiseAddrs] at hin
        simp only [RegFam.addr, Reg.HKA_CHn_LAST, Reg.FCL_SAT_LAST, Reg.FCL_SIG_NEXT, Reg.FCL_SIG_DROPPED, Reg.FCL_SIG_SUPPRESSED, Reg.FCL_SRCn_COUNT,
          Reg.FCL_SRCn_STAT] at hin hlow
        omega
      · exact hshown
    · exact hbit 0

def lastAddrs : List Nat := (List.range 32).map fun ch => Reg.HKA_CHn_LAST.addr 0 ch

omit hm in
theorem mem_lastAddrs {ch : Nat} (hch : ch < 32) : Reg.HKA_CHn_LAST.addr 0 ch ∈ lastAddrs :=
  List.mem_map.mpr ⟨ch, List.mem_range.mpr hch, rfl⟩

/-- The results of channels 22 to 31 in a scan. -/
def State.scanCodes (s : State) (codes : List (BitVec 14)) : State :=
  codes.zipIdx.foldl (fun (s : State) x => if x.2 < 10 then s.hkaResult (22 + x.2) x.1 else s) s

/-- The raw codes of a scan. -/
def State.scanRaw (s : State) (raw : List (BitVec 14)) : State :=
  raw.zipIdx.foldl (fun (s : State) x => if x.2 < 32 then s.hkaResult (x.2 / 2) x.1 else s) s

theorem Scans.scanRaw (raw : List (BitVec 14)) (hsrc : 0x75 ∈ m) (h : Scans m lastAddrs s t) : Scans m lastAddrs s (t.scanRaw raw) := by
  refine Scans.foldl _ (fun v x _ hv => ?_) h
  split
  · exact hv.hkaResult hm x.1 hsrc (mem_lastAddrs (by omega))
  · exact hv

theorem Scans.scanCodes (codes : List (BitVec 14)) (hsrc : 0x75 ∈ m) (h : Scans m lastAddrs s t) : Scans m lastAddrs s (t.scanCodes codes) := by
  refine Scans.foldl _ (fun v x _ hv => ?_) h
  split
  · exact hv.hkaResult hm x.1 hsrc (mem_lastAddrs (by omega))
  · exact hv

/-- A scan shows what it has converted (R445). -/
theorem State.rf_scanCodes (hc : s.calm) (hs : s.mild m) (hsrc : 0x75 ∈ m) {codes : List (BitVec 14)} {n : Nat} {v : BitVec 14} (hn : n < 10)
    (hcode : codes[n]? = some v) : (s.scanCodes codes).rf Reg.HKA_CHn_LAST 0 (22 + n) 13 0 = v.toNat := by
  have hfold := foldl_at (f := fun (s : State) (x : BitVec 14 × Nat) => if x.2 < 10 then s.hkaResult (22 + x.2) x.1 else s) (xs := codes.zipIdx)
    (P := fun w => w.calm ∧ w.mild m) (key := fun x => x.2) (g := fun w n => w.rf Reg.HKA_CHn_LAST 0 (22 + n) 13 0)
    (fun w x hw => by
      split
      · have h := (Scans.refl (l := [Reg.HKA_CHn_LAST.addr 0 (22 + x.2)]) hw.1 hw.2).hkaResult hm (ch := 22 + x.2) x.1 hsrc (by simp)
        exact ⟨h.calm, h.mild⟩
      · exact hw)
    (fun w x k hw hk => by
      split
      · have h := (Scans.refl (l := [Reg.HKA_CHn_LAST.addr 0 (22 + x.2)]) hw.1 hw.2).hkaResult hm (ch := 22 + x.2) x.1 hsrc (by simp)
        refine h.rf (.inr (last_addr _)) (fun hin => hk ?_) _ _
        simp only [List.mem_singleton, RegFam.addr, Reg.HKA_CHn_LAST] at hin
        omega
      · rfl)
    (s := s) ⟨hc, hs⟩ (by rw [List.zipIdx_map_snd]; exact List.nodup_range')
  obtain ⟨w, -, -, hset⟩ := hfold.2.2 (v, n) (List.mem_zipIdx_iff_getElem?.mpr hcode)
  refine hset.trans ?_
  rw [if_pos hn]
  exact State.rf_hkaResult w _ v

end

/-! ### Diodes (R449, R450) -/

def diodesAddrs : List Nat := (List.range 18).map (fun n => Reg.THM_DIODEn.addr 0 n) ++ (List.range 2).map (fun d => Reg.THM_TJd.addr 0 d)

theorem mem_diodesAddrs {n : Nat} (hn : n < 18) : Reg.THM_DIODEn.addr 0 n ∈ diodesAddrs :=
  List.mem_append_left _ (List.mem_map.mpr ⟨n, List.mem_range.mpr hn, rfl⟩)

/-- The readings of the on-die diodes are taken (R449). -/
def State.diodesRead (s : State) (temps : List Int) : State :=
  (List.range 16).foldl (fun (s : State) n =>
    match temps[n]? with
    | some v => if s.rf Reg.THM_DIODEn 0 n 30 30 = 1 then s else s.setReg Reg.THM_DIODEn 0 n (2 ^ 31 + temp16 v)
    | none => s) s

/-- The readings of the external diodes are taken (R449). -/
def State.externalRead (s : State) (temps : List Int) : State :=
  [16, 17].foldl (fun (s : State) n =>
    match temps[n]? with
    | some v => if s.diodeValid n then s.setRf Reg.THM_DIODEn 0 n 15 0 (temp16 v) else s
    | none => s) s

/-- A failed diode shows the maximum of its valid neighbours (R450). -/
def State.failedStep (s : State) (n : Nat) : State :=
  if s.rf Reg.THM_DIODEn 0 n 30 30 = 1 then
    match maxTemp (((neighbours n).filter s.diodeValid).map s.diodeTemp) with
    | some v => s.setRf Reg.THM_DIODEn 0 n 15 0 (temp16 v)
    | none => s
  else s

def State.failedShown (s : State) : State := (List.range 16).foldl State.failedStep s

/-- The junction temperature of a die is taken from its valid diodes (R451). -/
def State.tjShown (s : State) (d : Nat) : State :=
  let l := ((List.range 8).map (fun k => 8 * d + k)).filter s.diodeValid
  let s := s.setRf Reg.THM_TJd 0 d 19 16 l.length
  match maxTemp (l.map s.diodeTemp) with
  | some v => s.setRf Reg.THM_TJd 0 d 15 0 (temp16 v)
  | none => s

theorem State.setDiodes_eq (s : State) (temps : List Int) :
    s.setDiodes temps = (List.range 2).foldl State.tjShown ((s.diodesRead temps).externalRead temps).failedShown := rfl

theorem State.onlyRegs_tjShown (s : State) (d : Nat) : OnlyRegs s (s.tjShown d) [Reg.THM_TJd.addr 0 d] := by
  have hcount := fun x => onlyRegs_setRf s Reg.THM_TJd 0 d 19 16 x
  unfold State.tjShown
  dsimp only
  split
  · exact (hcount _).trans (onlyRegs_setRf _ _ _ _ _ _ _)
  · exact hcount _

/-- Diodes at other places than `n` stand. -/
theorem diode_addr_ne {n k : Nat} (h : k ≠ n) : Reg.THM_DIODEn.addr 0 k ∉ [Reg.THM_DIODEn.addr 0 n] := by
  simp only [List.mem_singleton, RegFam.addr, Reg.THM_DIODEn]
  omega

theorem State.failedStep_spec (s : State) (n : Nat) : OnlyRegs s (s.failedStep n) [Reg.THM_DIODEn.addr 0 n] ∧
    (∀ b, b = 30 ∨ b = 31 → (s.failedStep n).rf Reg.THM_DIODEn 0 n b b = s.rf Reg.THM_DIODEn 0 n b b) ∧
    (s.rf Reg.THM_DIODEn 0 n 30 30 = 0 → s.failedStep n = s) := by
  unfold State.failedStep
  split
  · next hfailed =>
    split
    · exact ⟨onlyRegs_setRf _ _ _ _ _ _ _, fun b hb => State.rf_setRf_apart _ _ _ _ _ (by omega) (by omega), fun h => by omega⟩
    · exact ⟨.refl s _, fun _ _ => rfl, fun _ => rfl⟩
  · exact ⟨.refl s _, fun _ _ => rfl, fun _ => rfl⟩

theorem nodup_range_id (n : Nat) : ((List.range n).map id).Nodup := by
  rw [List.map_id]
  exact List.nodup_range

/-- What failed diodes show leaves whether a diode is valid or failed, and the readings of the others. -/
theorem State.failedShown_spec (s : State) : OnlyRegs s s.failedShown ((List.range 16).map fun n => Reg.THM_DIODEn.addr 0 n) ∧
    (∀ n b, b = 30 ∨ b = 31 → s.failedShown.rf Reg.THM_DIODEn 0 n b b = s.rf Reg.THM_DIODEn 0 n b b) ∧
    ∀ n, s.rf Reg.THM_DIODEn 0 n 30 30 = 0 → s.failedShown.reg Reg.THM_DIODEn 0 n = s.reg Reg.THM_DIODEn 0 n := by
  obtain ⟨-, hother, hown⟩ := foldl_at (f := State.failedStep) (xs := List.range 16) (P := fun _ => True) (key := id)
    (g := fun w n => w.reg Reg.THM_DIODEn 0 n) (fun _ _ _ => trivial)
    (fun w x k _ hk => (w.failedStep_spec x).1.reg (diode_addr_ne hk)) (s := s) trivial (nodup_range_id 16)
  have hstep : ∀ n, ∃ w : State, w.reg Reg.THM_DIODEn 0 n = s.reg Reg.THM_DIODEn 0 n ∧
      (s.failedShown.reg Reg.THM_DIODEn 0 n = w.reg Reg.THM_DIODEn 0 n ∨
        s.failedShown.reg Reg.THM_DIODEn 0 n = (w.failedStep n).reg Reg.THM_DIODEn 0 n) := fun n => by
    by_cases hn : n ∈ List.range 16
    · obtain ⟨w, -, hw, hset⟩ := hown n hn
      exact ⟨w, hw, .inr hset⟩
    · exact ⟨s, rfl, .inl (hother n (by rwa [List.map_id]))⟩
  refine ⟨OnlyRegs.foldl _ fun v x hx => (v.failedStep_spec x).1.mono fun a ha => ?_, fun n b hb => ?_, fun n hn => ?_⟩
  · exact List.mem_map.mpr ⟨x, hx, (List.mem_singleton.mp ha).symm⟩
  · obtain ⟨w, hw, hset | hset⟩ := hstep n
    · rw [State.rf, hset, hw, ← State.rf]
    · rw [State.rf, hset, ← State.rf, (w.failedStep_spec n).2.1 b hb, State.rf, hw, ← State.rf]
  · obtain ⟨w, hw, hset | hset⟩ := hstep n
    · exact hset.trans hw
    · rw [hset, (w.failedStep_spec n).2.2 (by rw [State.rf, hw]; exact hn), hw]

theorem State.externalRead_frame (s : State) (temps : List Int) :
    OnlyRegs s (s.externalRead temps) [Reg.THM_DIODEn.addr 0 16, Reg.THM_DIODEn.addr 0 17] := by
  refine OnlyRegs.foldl _ fun v n hn => ?_
  have hin : Reg.THM_DIODEn.addr 0 n ∈ [Reg.THM_DIODEn.addr 0 16, Reg.THM_DIODEn.addr 0 17] := by
    rcases List.mem_cons.mp hn with rfl | hn
    · exact List.mem_cons_self
    · exact List.mem_cons_of_mem _ (by rw [List.mem_singleton.mp hn]; exact List.mem_cons_self)
  split
  · split
    · exact (onlyRegs_setRf _ _ _ _ _ _ _).mono fun a ha => by rw [List.mem_singleton.mp ha]; exact hin
    · exact .refl v _
  · exact .refl v _

theorem temp16_lt (v : Int) : temp16 v < 2 ^ 16 := by
  unfold temp16
  omega

theorem State.diodesRead_spec (s : State) (temps : List Int) : OnlyRegs s (s.diodesRead temps) ((List.range 16).map fun n => Reg.THM_DIODEn.addr 0 n) ∧
    ∀ n v, n < 16 → temps[n]? = some v → s.rf Reg.THM_DIODEn 0 n 30 30 = 0 → (s.diodesRead temps).reg Reg.THM_DIODEn 0 n = 2 ^ 31 + temp16 v := by
  have honly : ∀ (w : State) n, OnlyRegs w (match temps[n]? with
      | some v => if w.rf Reg.THM_DIODEn 0 n 30 30 = 1 then w else w.setReg Reg.THM_DIODEn 0 n (2 ^ 31 + temp16 v)
      | none => w) [Reg.THM_DIODEn.addr 0 n] := fun w n => by
    split
    · split
      · exact .refl w _
      · exact onlyRegs_setReg _ _ _ _ _
    · exact .refl w _
  refine ⟨OnlyRegs.foldl _ fun v x hx => (honly v x).mono fun a ha => ?_, fun n v hn htemp hworks => ?_⟩
  · exact List.mem_map.mpr ⟨x, hx, (List.mem_singleton.mp ha).symm⟩
  · obtain ⟨-, -, hown⟩ := foldl_at (f := fun (s : State) n => match temps[n]? with
        | some v => if s.rf Reg.THM_DIODEn 0 n 30 30 = 1 then s else s.setReg Reg.THM_DIODEn 0 n (2 ^ 31 + temp16 v)
        | none => s) (xs := List.range 16) (P := fun _ => True) (key := id) (g := fun w n => w.reg Reg.THM_DIODEn 0 n) (fun _ _ _ => trivial)
      (fun w x k _ hk => (honly w x).reg (diode_addr_ne hk)) (s := s) trivial (nodup_range_id 16)
    obtain ⟨w, -, hw, hset⟩ := hown n (List.mem_range.mpr hn)
    have hworks' : ¬ w.rf Reg.THM_DIODEn 0 n 30 30 = 1 := by
      have hw' : w.reg Reg.THM_DIODEn 0 n = s.reg Reg.THM_DIODEn 0 n := hw
      rw [State.rf, hw', ← State.rf, hworks]
      decide
    refine hset.trans ?_
    have hlt := temp16_lt v
    simp only [id, htemp, hworks', if_false, State.reg_setReg_self]
    omega

/-! ### The scan's diodes -/

theorem State.onlyRegs_setDiodes (s : State) (temps : List Int) : OnlyRegs s (s.setDiodes temps) diodesAddrs := by
  have hdiode : ∀ n, n < 18 → Reg.THM_DIODEn.addr 0 n ∈ diodesAddrs := fun n hn => mem_diodesAddrs hn
  have hread := (s.diodesRead_spec temps).1.mono fun a ha => show a ∈ diodesAddrs by
    obtain ⟨n, hn, rfl⟩ := List.mem_map.mp ha
    exact hdiode n (by have := List.mem_range.mp hn; omega)
  have hexternal := ((s.diodesRead temps).externalRead_frame temps).mono fun a ha => show a ∈ diodesAddrs by
    simp only [List.mem_cons, List.not_mem_nil, or_false] at ha
    rcases ha with rfl | rfl
    · exact hdiode 16 (by decide)
    · exact hdiode 17 (by decide)
  have hfailed := (((s.diodesRead temps).externalRead temps).failedShown_spec).1.mono fun a ha => show a ∈ diodesAddrs by
    obtain ⟨n, hn, rfl⟩ := List.mem_map.mp ha
    exact hdiode n (by have := List.mem_range.mp hn; omega)
  have htj : OnlyRegs (((s.diodesRead temps).externalRead temps).failedShown) (s.setDiodes temps) diodesAddrs :=
    OnlyRegs.foldl _ fun v d hd => (v.onlyRegs_tjShown d).mono fun a ha => by
      rw [List.mem_singleton.mp ha]
      exact List.mem_append_right _ (List.mem_map.mpr ⟨d, hd, rfl⟩)
  exact ((hread.trans hexternal).trans hfailed).trans htj

theorem State.onlyRegs_tjs (s : State) : OnlyRegs s ((List.range 2).foldl State.tjShown s) ((List.range 2).map fun d => Reg.THM_TJd.addr 0 d) :=
  OnlyRegs.foldl _ fun v d hd => (v.onlyRegs_tjShown d).mono fun a ha => by
    rw [List.mem_singleton.mp ha]
    exact List.mem_map.mpr ⟨d, hd, rfl⟩

theorem diode_notMem_tjs {n : Nat} (hn : n < 18) : Reg.THM_DIODEn.addr 0 n ∉ (List.range 2).map fun d => Reg.THM_TJd.addr 0 d := by
  simp only [List.mem_map, List.mem_range, RegFam.addr, Reg.THM_DIODEn, Reg.THM_TJd]
  omega

/-- A diode that works shows its reading (R449). -/
theorem State.reg_setDiodes (s : State) {temps : List Int} {n : Nat} {v : Int} (hn : n < 16) (htemp : temps[n]? = some v)
    (hworks : s.rf Reg.THM_DIODEn 0 n 30 30 = 0) :
    (s.setDiodes temps).reg Reg.THM_DIODEn 0 n = 2 ^ 31 + temp16 v ∧
    ((s.diodesRead temps).externalRead temps).failedShown.reg Reg.THM_DIODEn 0 n = 2 ^ 31 + temp16 v := by
  have hread := (s.diodesRead_spec temps).2 n v hn htemp hworks
  have hexternal : ((s.diodesRead temps).externalRead temps).reg Reg.THM_DIODEn 0 n = 2 ^ 31 + temp16 v := by
    rw [((s.diodesRead temps).externalRead_frame temps).reg (by
      simp only [List.mem_cons, List.not_mem_nil, or_false, RegFam.addr, Reg.THM_DIODEn]
      omega), hread]
  have hlt := temp16_lt v
  have hfailed := ((s.diodesRead temps).externalRead temps).failedShown_spec.2.2 n (by
    rw [State.rf, hexternal, bitsOf]
    omega)
  refine ⟨?_, hfailed.trans hexternal⟩
  rw [State.setDiodes_eq, (State.onlyRegs_tjs _).reg (diode_notMem_tjs (by omega)), hfailed, hexternal]

/-- Without readings, whether a diode is valid or failed stands. -/
theorem State.rf_setDiodes_nil (s : State) {n b : Nat} (hn : n < 16) (hb : b = 30 ∨ b = 31) :
    (s.setDiodes []).rf Reg.THM_DIODEn 0 n b b = s.rf Reg.THM_DIODEn 0 n b b := by
  have hread : s.diodesRead [] = s := rfl
  have hexternal : s.externalRead [] = s := rfl
  rw [State.setDiodes_eq, (State.onlyRegs_tjs _).rf (diode_notMem_tjs (by omega)), (State.failedShown_spec _).2.1 n b hb, hread, hexternal]

/-! ### Junction temperatures (R451) -/

theorem maxTemp_mem {l : List Int} (h : l ≠ []) : ∃ v ∈ l, maxTemp l = some v := by
  have hfold : ∀ (t : List Int) (a : Int), t.foldl max a ∈ a :: t := fun t => by
    induction t with
    | nil => exact fun a => List.mem_cons_self
    | cons b t ih =>
      intro a
      rcases List.mem_cons.mp (ih (max a b)) with h | h
      · rcases max_choice a b with hab | hab
        · rw [List.foldl_cons, h, hab]
          exact List.mem_cons_self
        · rw [List.foldl_cons, h, hab]
          exact List.mem_cons_of_mem _ List.mem_cons_self
      · exact List.mem_cons_of_mem _ (List.mem_cons_of_mem _ h)
  cases l with
  | nil => exact absurd rfl h
  | cons a t => exact ⟨_, hfold t a, rfl⟩

theorem signed_temp16 {v : Int} (hlow : 0 ≤ v) (hhigh : v < 32768) : signed 16 (temp16 v) = v := by
  have hnat : temp16 v % 2 ^ 16 = v.toNat := by
    unfold temp16
    omega
  unfold signed
  rw [hnat, if_pos (by omega)]
  omega

/-- The diodes of a die. -/
def dieDiodes (d : Nat) : List Nat := (List.range 8).map fun k => 8 * d + k

theorem State.tj_tjShown {s : State} {d : Nat} (hd : d < 2) {low : Int} (hzero : 0 ≤ low)
    (hall : ∀ n ∈ dieDiodes d, ∃ v, low ≤ v ∧ v < 32768 ∧ s.reg Reg.THM_DIODEn 0 n = 2 ^ 31 + temp16 v) :
    low ≤ (s.tjShown d).tj d := by
  have hvalid : (dieDiodes d).filter s.diodeValid = dieDiodes d := List.filter_eq_self.mpr fun n hn => by
    obtain ⟨v, -, -, hreg⟩ := hall n hn
    have hlt := temp16_lt v
    have hbit : s.rf Reg.THM_DIODEn 0 n 31 31 = 1 := by
      rw [State.rf, hreg, bitsOf]
      omega
    rw [State.diodeValid, hbit]
    rfl
  obtain ⟨u, hu⟩ : ∃ u, s.setRf Reg.THM_TJd 0 d 19 16 (dieDiodes d).length = u := ⟨_, rfl⟩
  have honly : OnlyRegs s u [Reg.THM_TJd.addr 0 d] := hu ▸ onlyRegs_setRf _ _ _ _ _ _ _
  have htemp : ∀ n ∈ dieDiodes d, low ≤ u.diodeTemp n ∧ u.diodeTemp n < 32768 := fun n hn => by
    obtain ⟨v, hlow, hhigh, hreg⟩ := hall n hn
    have hn8 : n < 8 * d + 8 := by
      obtain ⟨k, hk, rfl⟩ := List.mem_map.mp hn
      have := List.mem_range.mp hk
      omega
    have hlt := temp16_lt v
    have hsame : u.rf Reg.THM_DIODEn 0 n 15 0 = temp16 v := by
      rw [State.rf, honly.reg, hreg, bitsOf]
      · omega
      · simp only [List.mem_singleton, RegFam.addr, Reg.THM_DIODEn, Reg.THM_TJd]
        omega
    rw [State.diodeTemp, hsame, signed_temp16 (by omega) hhigh]
    exact ⟨hlow, hhigh⟩
  obtain ⟨v, hv, hmax⟩ := maxTemp_mem (l := (dieDiodes d).map u.diodeTemp) (by simp [dieDiodes])
  obtain ⟨n, hn, rfl⟩ := List.mem_map.mp hv
  obtain ⟨hlow, hhigh⟩ := htemp n hn
  have hdef : s.tjShown d = u.setRf Reg.THM_TJd 0 d 15 0 (temp16 (u.diodeTemp n)) := by
    have hlist : (List.range 8).map (fun k => 8 * d + k) = dieDiodes d := rfl
    unfold State.tjShown
    simp only [hlist, hvalid, hu, hmax]
  rw [hdef, State.tj, State.rf_setRf_self _ _ _ _ _ _ (by decide), Nat.mod_eq_of_lt (temp16_lt _), signed_temp16 (by omega) hhigh]
  exact hlow

/-- A die all of whose diodes are valid and hot is hot (R451). -/
theorem State.tj_setDiodes (s : State) {temps : List Int} {low : Int} (hzero : 0 ≤ low)
    (hall : ∀ n, n < 16 → s.rf Reg.THM_DIODEn 0 n 30 30 = 0 ∧ ∃ v, temps[n]? = some v ∧ low ≤ v ∧ v < 32768) {d : Nat} (hd : d < 2) :
    low ≤ (s.setDiodes temps).tj d := by
  obtain ⟨u, hu⟩ : ∃ u, ((s.diodesRead temps).externalRead temps).failedShown = u := ⟨_, rfl⟩
  have hdiodes : ∀ n, n < 16 → ∃ v, low ≤ v ∧ v < 32768 ∧ u.reg Reg.THM_DIODEn 0 n = 2 ^ 31 + temp16 v := fun n hn => by
    obtain ⟨hworks, v, htemp, hlow, hhigh⟩ := hall n hn
    exact ⟨v, hlow, hhigh, hu ▸ (s.reg_setDiodes hn htemp hworks).2⟩
  obtain ⟨-, -, hown⟩ := foldl_at (f := State.tjShown) (xs := List.range 2) (P := fun w => ∀ n, n < 16 → w.reg Reg.THM_DIODEn 0 n = u.reg Reg.THM_DIODEn 0 n)
    (key := id) (g := fun w d => w.reg Reg.THM_TJd 0 d)
    (fun w x hw n hn => ((w.onlyRegs_tjShown x).reg (by
      simp only [List.mem_singleton, RegFam.addr, Reg.THM_DIODEn, Reg.THM_TJd]
      omega)).trans (hw n hn))
    (fun w x k _ hk => (w.onlyRegs_tjShown x).reg (by
      simp only [id] at hk
      simp only [List.mem_singleton, RegFam.addr, Reg.THM_TJd]
      omega))
    (s := u) (fun _ _ => rfl) (nodup_range_id 2)
  obtain ⟨w, hw, -, hset⟩ := hown d (List.mem_range.mpr hd)
  have htj : (s.setDiodes temps).tj d = (w.tjShown d).tj d := by
    have hset' : (s.setDiodes temps).reg Reg.THM_TJd 0 d = (w.tjShown d).reg Reg.THM_TJd 0 d := by
      rw [State.setDiodes_eq, hu]
      exact hset
    rw [State.tj, State.rf, hset', State.tj, State.rf]
  rw [htj]
  refine State.tj_tjShown hd hzero fun n hn => ?_
  have hlt : n < 16 := by
    obtain ⟨k, hk, rfl⟩ := List.mem_map.mp hn
    have := List.mem_range.mp hk
    omega
  obtain ⟨v, h1, h2, h3⟩ := hdiodes n hlt
  exact ⟨v, h1, h2, (hw n hlt).trans h3⟩

end

end Sys2Proof.Machine
end

section
/-! SUPPORT. Thermal limits, input power and the check of the diodes (R450 to R453), and the statement about sensing. -/

namespace Sys2Proof.Machine

section
variable {s t u : State} {m l k : List Nat} (hm : ∀ n ∈ m, n < 256)

theorem State.onlyRegs_showThermal (s : State) : OnlyRegs s s.showThermal [Reg.THM_STATE.addr 0 0] :=
  ((onlyRegs_setRf s _ _ _ _ _ _).trans (onlyRegs_setRf _ _ _ _ _ _ _)).trans (onlyRegs_setRf _ _ _ _ _ _ _)

include hm

theorem Scans.showThermal (hl : Reg.THM_STATE.addr 0 0 ∈ l) (h : Scans m l s t) : Scans m l s t.showThermal :=
  h.regs t.onlyRegs_showThermal hm (by decide) fun a ha => by rw [List.mem_singleton.mp ha]; exact hl

theorem Scans.raiseNew {src : Nat} (hsrc : src ∈ m) (old new : List Bool) (h : Scans m l s t) : Scans m l s (t.raiseNew src old new) := by
  refine Scans.foldl _ (fun v d _ hv => ?_) h
  split
  · exact hv.raise hm hsrc d
  · exact hv

/-- The conditions of the dies' temperatures (R451). -/
def State.thermalJudged (s : State) : State :=
  { s with sense := { s.sense with
    warn := hyst s.sense.warn s.tj 95 90, throttle := hyst s.sense.throttle s.tj 105 100, shutdown := hyst s.sense.shutdown s.tj 115 110 } }

/-- The thresholds of the dies' temperatures (R451, R453). -/
theorem scans_thermal (hc : s.calm) (hs : s.mild m) (h70 : 0x70 ∈ m) (h71 : 0x71 ∈ m) (h72 : 0x72 ∈ m) :
    Scans m [Reg.THM_STATE.addr 0 0] s.thermalJudged s.thermal ∧
    (s.thermalJudged.sense.shutdown.any (fun b => b) = true → ∀ z, (s.thermal.core z).stopped) := by
  have hstart : Scans m [Reg.THM_STATE.addr 0 0] s.thermalJudged s.thermalJudged := .refl hc hs
  have hshown := hstart.showThermal hm (by simp)
  obtain ⟨v, hv⟩ : ∃ v, (if s.thermalJudged.sense.shutdown.any (fun b => b) then s.thermalJudged.showThermal.stopIssue else s.thermalJudged.showThermal) = v := ⟨_, rfl⟩
  have hstops : Scans m [Reg.THM_STATE.addr 0 0] s.thermalJudged v := by
    rw [← hv]
    split
    · exact hshown.stopIssue
    · exact hshown
  have hraises : ∀ {r : State}, Scans m [Reg.THM_STATE.addr 0 0] r v → Scans m [Reg.THM_STATE.addr 0 0] r s.thermal := fun {r} h => by
    have hend := ((h.raiseNew hm h70 s.sense.warn s.thermalJudged.sense.warn).raiseNew hm h71 s.sense.throttle s.thermalJudged.sense.throttle).raiseNew hm h72
      s.sense.shutdown s.thermalJudged.sense.shutdown
    rw [← hv] at hend
    exact hend
  refine ⟨hraises hstops, fun hhot => (hraises (.refl hstops.calm hstops.mild)).stopped fun z => ?_⟩
  rw [← hv, if_pos hhot]
  exact State.stopIssue_stopped _ z

theorem Scans.inputPower (x i : Nat) (h80 : 0x80 ∈ m) (h81 : 0x81 ∈ m) (hl : Reg.THM_STATE.addr 0 0 ∈ l) (hl' : Reg.PWR_INPUT.addr 0 0 ∈ l)
    (h : Scans m l s t) : Scans m l s (t.inputPower x i) := by
  have hset : ∀ {v} (f : RegFam) (hi lo y : Nat), f.addr 0 0 ∈ l → 0x40000 ≤ f.addr 0 0 → Scans m l s v → Scans m l s (v.setRf f 0 0 hi lo y) :=
    fun f hi lo y hf hhigh hv => hv.regs (onlyRegs_setRf _ _ _ _ _ _ _) hm
      (fun a ha => .inr (by rw [List.mem_singleton.mp ha]; exact hhigh)) fun a ha => by rw [List.mem_singleton.mp ha]; exact hf
  unfold State.inputPower
  dsimp only
  have hsense : ∀ o : Sense, o.queue = t.sense.queue → o.bandgapDie = t.sense.bandgapDie → o.shutdown = t.sense.shutdown →
      Scans m l s { t with sense := o } := fun o => h.sense o
  have hshown : ∀ (v : State) (y : Nat), Scans m l s v → Scans m l s (v.setRf Reg.THM_STATE 0 0 3 3 y).showThermal := fun v y hv =>
    (hset Reg.THM_STATE 3 3 y hl (by decide) hv).showThermal hm hl
  have hraised : ∀ (b : Bool) (v : State), Scans m l s v → Scans m l s (if b then v.raise 0x80 devUnit else v) := fun b v hv => by
    cases b with
    | false => exact hv
    | true => exact hv.raise hm h80 devUnit
  have hpower : ∀ (v : State) (y : Nat), Scans m l s v → Scans m l s (v.setReg Reg.PWR_INPUT 0 0 y) := fun v y hv =>
    hv.regs (onlyRegs_setReg _ _ _ _ _) hm (fun a ha => .inr (by rw [List.mem_singleton.mp ha]; decide))
      fun a ha => by rw [List.mem_singleton.mp ha]; exact hl'
  have htrip : ∀ (b : Bool) (v : State), Scans m l s v → Scans m l s (if b then v.stopIssue.raise 0x81 devUnit else v) := fun b v hv => by
    cases b with
    | false => exact hv
    | true => exact hv.stopIssue.raise hm h81 devUnit
  exact htrip _ _ (hpower _ _ (hraised _ _ (hshown _ _ (hsense _ rfl rfl rfl))))

theorem Scans.showHoldup (hl : Reg.PWR_HOLDUP.addr 0 0 ∈ l) (h : Scans m l s t) : Scans m l s t.showHoldup :=
  h.regs (onlyRegs_setReg _ _ _ _ _) hm (by decide) fun a ha => by rw [List.mem_singleton.mp ha]; exact hl

theorem Scans.bandgap (die : Nat) (x : Int) (hl : Reg.CAL_BANDGAP.addr 0 0 ∈ l) (h78 : 0x78 ∈ m) (h : Scans m l s t) :
    Scans m l s (t.bandgap die x) := by
  have hset : ∀ {v} (hi lo y : Nat), Scans m l s v → Scans m l s (v.setRf Reg.CAL_BANDGAP 0 0 hi lo y) := fun hi lo y hv =>
    hv.regs (onlyRegs_setRf _ _ _ _ _ _ _) hm (by decide) fun a ha => by rw [List.mem_singleton.mp ha]; exact hl
  have hend : ∀ (b : Bool) (v : State), Scans m l s v → Scans m l s (if b then v else v.raise 0x78 die) := fun b v hv => by
    cases b with
    | false => exact hv.raise hm h78 die
    | true => exact hv
  unfold State.bandgap
  dsimp only
  exact hend _ _ (hset _ _ _ (hset _ _ _ h))

end

/-! ### The scan (R445) -/

/-- The scan up to the diodes. -/
def State.scanRead (s : State) (sc : Scan) : State := ((s.scanRaw sc.raw).scanCodes sc.codes).setDiodes sc.diodes

/-- The scan from the temperatures on. -/
def State.scanJudged (s : State) : State :=
  let s := s.thermal
  (s.inputPower (s.rf Reg.HKA_CHn_LAST 0 22 13 0) (s.rf Reg.HKA_CHn_LAST 0 26 13 0)).showHoldup

/-- The band-gap of the next die is judged. -/
def State.scanBandgap (s : State) : State :=
  ({ s with sense := { s.sense with bandgapDie := 1 - s.sense.bandgapDie } } : State).bandgap s.sense.bandgapDie (8 * s.rf Reg.HKA_CHn_LAST 0 31 13 0)

/-- The scan from the temperatures on. -/
def State.scanEnd (s : State) : Out :=
  let s := s.thermal
  let s := (s.inputPower (s.rf Reg.HKA_CHn_LAST 0 22 13 0) (s.rf Reg.HKA_CHn_LAST 0 26 13 0)).showHoldup
  let d := s.sense.bandgapDie
  let s : State := { s with sense := { s.sense with bandgapDie := 1 - d } }
  finish (s.bandgap d (8 * s.rf Reg.HKA_CHn_LAST 0 31 13 0))

theorem State.scanEnd_eq (s : State) : s.scanEnd = finish s.scanJudged.scanBandgap := by
  unfold State.scanEnd
  obtain ⟨v, hv⟩ : ∃ v, s.scanJudged = v := ⟨_, rfl⟩
  rw [hv]
  unfold State.scanJudged at hv
  dsimp only at hv ⊢
  rw [hv]
  rfl

theorem exec_systemScan_eq {s : State} (hboot : s.pow.booted = true) (sc : Scan) :
    exec (.systemScan sc) s = finish ((s.scanRead sc).scanJudged).scanBandgap := by
  have hrun : execSystemScan sc s = (s.scanRead sc).scanEnd := by
    unfold execSystemScan State.scanEnd State.scanRead State.scanCodes State.scanRaw
    exact if_neg (by rw [hboot]; decide)
  exact hrun.trans (State.scanEnd_eq _)

/-- The addresses of what a scan judges. -/
def judgedAddrs : List Nat := [Reg.THM_STATE.addr 0 0, Reg.PWR_INPUT.addr 0 0, Reg.PWR_HOLDUP.addr 0 0, Reg.CAL_BANDGAP.addr 0 0]

theorem scanSources_lt : ∀ n ∈ scanSources, n < 256 := by decide

theorem le_of_mem_diodesAddrs {a : Nat} (h : a ∈ diodesAddrs) : 0x40000 ≤ a := by
  simp only [diodesAddrs, List.mem_append, List.mem_map, RegFam.addr, Reg.THM_DIODEn, Reg.THM_TJd] at h
  omega

theorem last_notMem_diodes (ch : Nat) (h : ch < 32) : Reg.HKA_CHn_LAST.addr 0 ch ∉ diodesAddrs := by
  simp only [diodesAddrs, List.mem_append, List.mem_map, List.mem_range, RegFam.addr, Reg.THM_DIODEn, Reg.THM_TJd, Reg.HKA_CHn_LAST]
  omega

theorem diode_notMem_lasts (n : Nat) (h : n < 18) : Reg.THM_DIODEn.addr 0 n ∉ lastAddrs := by
  simp only [lastAddrs, List.mem_map, List.mem_range, RegFam.addr, Reg.THM_DIODEn, Reg.HKA_CHn_LAST]
  omega

theorem last_notMem_judged (ch : Nat) (h : ch < 32) : Reg.HKA_CHn_LAST.addr 0 ch ∉ judgedAddrs := by
  simp only [judgedAddrs, List.mem_cons, List.not_mem_nil, or_false, RegFam.addr, Reg.THM_STATE, Reg.PWR_INPUT, Reg.PWR_HOLDUP, Reg.CAL_BANDGAP, Reg.HKA_CHn_LAST]
  omega

theorem diode_notMem_judged (n : Nat) (h : n < 18) : Reg.THM_DIODEn.addr 0 n ∉ judgedAddrs := by
  simp only [judgedAddrs, List.mem_cons, List.not_mem_nil, or_false, RegFam.addr, Reg.THM_STATE, Reg.PWR_INPUT, Reg.PWR_HOLDUP, Reg.CAL_BANDGAP, Reg.THM_DIODEn]
  omega

theorem diode_addr (n : Nat) : 0x40000 ≤ Reg.THM_DIODEn.addr 0 n := by
  simp only [RegFam.addr, Reg.THM_DIODEn]
  omega

section
variable {s : State} (hc : s.calm) (hs : s.mild scanSources)
include hc hs

/-- What the conversions of a scan leave and show (R445, R449). -/
theorem State.scanRead_spec (sc : Scan) : Scans scanSources (lastAddrs ++ diodesAddrs) s (s.scanRead sc) ∧
    (∀ m v, m < 10 → sc.codes[m]? = some v → (s.scanRead sc).rf Reg.HKA_CHn_LAST 0 (22 + m) 13 0 = v.toNat) ∧
    (∀ m v, m < 16 → sc.diodes[m]? = some v → s.rf Reg.THM_DIODEn 0 m 30 30 = 0 →
      (s.scanRead sc).reg Reg.THM_DIODEn 0 m = 2 ^ 31 + temp16 v) ∧
    ((∀ m, m < 16 → s.rf Reg.THM_DIODEn 0 m 30 30 = 0 ∧ ∃ v, sc.diodes[m]? = some v ∧ 16 * 115 ≤ v ∧ v < 32768) →
      ∀ d, d < 2 → 16 * 115 ≤ (s.scanRead sc).tj d) := by
  have hraw := (Scans.refl hc hs).scanRaw scanSources_lt sc.raw (by decide)
  have hcodes := hraw.scanCodes scanSources_lt sc.codes (by decide)
  have hshown : ∀ m v, m < 10 → sc.codes[m]? = some v → ((s.scanRaw sc.raw).scanCodes sc.codes).rf Reg.HKA_CHn_LAST 0 (22 + m) 13 0 = v.toNat :=
    fun m v hm hv => State.rf_scanCodes scanSources_lt hraw.calm hraw.mild (by decide) hm hv
  have hfailed : ∀ m, m < 16 → ((s.scanRaw sc.raw).scanCodes sc.codes).rf Reg.THM_DIODEn 0 m 30 30 = s.rf Reg.THM_DIODEn 0 m 30 30 :=
    fun m hm => hcodes.rf (.inr (diode_addr m)) (diode_notMem_lasts m (by omega)) _ _
  unfold State.scanRead
  obtain ⟨u, hu⟩ : ∃ u, (s.scanRaw sc.raw).scanCodes sc.codes = u := ⟨_, rfl⟩
  rw [hu] at hcodes hshown hfailed ⊢
  have hdiodes := u.onlyRegs_setDiodes sc.diodes
  refine ⟨(hcodes.mono fun a => List.mem_append_left _).regs hdiodes scanSources_lt (fun a ha => .inr (le_of_mem_diodesAddrs ha))
    fun a => List.mem_append_right _, fun m v hm hv => ?_, fun m v hm hv hworks => ?_, fun hall d hd => ?_⟩
  · rw [hdiodes.rf (last_notMem_diodes _ (by omega)), hshown m v hm hv]
  · exact (u.reg_setDiodes hm hv ((hfailed m hm).trans hworks)).1
  · exact u.tj_setDiodes (by decide) (fun n hn => ⟨(hfailed n hn).trans (hall n hn).1, (hall n hn).2⟩) hd

/-- What judging the temperatures and the input power leaves, and what it stops (R451 to R453). -/
theorem State.scanJudged_spec : Scans scanSources judgedAddrs s.thermalJudged s.scanJudged ∧
    (s.thermalJudged.sense.shutdown.any (fun b => b) = true → ∀ z, (s.scanJudged.core z).stopped) := by
  obtain ⟨hthermal, hstops⟩ := scans_thermal scanSources_lt hc hs (by decide) (by decide) (by decide)
  unfold State.scanJudged
  obtain ⟨v, hv⟩ : ∃ v, s.thermal = v := ⟨_, rfl⟩
  rw [hv] at hthermal hstops ⊢
  dsimp only
  have hrest : ∀ {r : State} (x i : Nat), Scans scanSources judgedAddrs r v → Scans scanSources judgedAddrs r (v.inputPower x i).showHoldup :=
    fun x i h => (h.inputPower scanSources_lt x i (by decide) (by decide) (by decide) (by decide)).showHoldup scanSources_lt (by decide)
  exact ⟨hrest _ _ (hthermal.mono (by decide)), fun hhot => (hrest _ _ (.refl hthermal.calm hthermal.mild)).stopped (hstops hhot)⟩

end

/-- The die of the band-gap is the other one. -/
def State.otherBandgap (s : State) : State := { s with sense := { s.sense with bandgapDie := 1 - s.sense.bandgapDie } }

theorem State.scanBandgap_spec {s : State} (hc : s.calm) (hs : s.mild scanSources) :
    Scans scanSources judgedAddrs s.otherBandgap s.scanBandgap :=
  (Scans.refl (s := s.otherBandgap) hc hs).bandgap scanSources_lt _ _ (by decide) (by decide)

theorem hyst_hot {old : List Bool} {tj : Nat → Int} {hi lo : Int} (hle : lo ≤ hi) (h : ∀ d, d < 2 → 16 * hi ≤ tj d) :
    hyst old tj hi lo = [true, true] := by
  have hset : ∀ d, d < 2 → (if old.getD d false then decide (16 * lo ≤ tj d) else decide (16 * hi ≤ tj d)) = true := fun d hd => by
    have hd := h d hd
    split
    · exact decide_eq_true (by omega)
    · exact decide_eq_true hd
  exact congrArg₂ (fun a b => [a, b]) (hset 0 (by decide)) (hset 1 (by decide))

/-- A scan changes registers, cores, the collector and what sensing remembers. -/
def SameButSensing (s t : State) : Prop := t = { s with regs := t.regs, cores := t.cores, fcl := t.fcl, freeCtr := t.freeCtr, sense := t.sense }

theorem SameButSensing.trans {s t u : State} (h : SameButSensing s t) (g : SameButSensing t u) : SameButSensing s u := by
  unfold SameButSensing at h g ⊢
  rw [h] at g
  exact g

/-- A system scan (R445, R449, R451, R453). -/
theorem exec_systemScan {s : State} (hc : s.calm) (hboot : s.pow.booted = true) (hs : s.mild scanSources) (sc : Scan) :
    ∃ t, exec (.systemScan sc) s = .next t ∧ SameButSensing s t ∧
      t.sense.bandgapDie = 1 - s.sense.bandgapDie ∧ t.sense.queue = s.sense.queue ∧
      (∀ m v, m < 10 → sc.codes[m]? = some v → t.rf Reg.HKA_CHn_LAST 0 (22 + m) 13 0 = v.toNat) ∧
      (∀ m v, m < 16 → sc.diodes[m]? = some v → s.rf Reg.THM_DIODEn 0 m 30 30 = 0 → t.reg Reg.THM_DIODEn 0 m = 2 ^ 31 + temp16 v) ∧
      ((∀ m, m < 16 → s.rf Reg.THM_DIODEn 0 m 30 30 = 0 ∧ ∃ v, sc.diodes[m]? = some v ∧ 16 * 115 ≤ v ∧ v < 32768) →
        t.sense.shutdown = [true, true] ∧ t.shut = true ∧ ∀ z, (t.core z).stopped) := by
  obtain ⟨hread, hcodes, hdiodes, hhot⟩ := State.scanRead_spec hc hs sc
  rw [exec_systemScan_eq hboot]
  obtain ⟨b, hb⟩ : ∃ b, s.scanRead sc = b := ⟨_, rfl⟩
  rw [hb] at hread hcodes hdiodes hhot ⊢
  obtain ⟨hjudged, hstops⟩ := State.scanJudged_spec hread.calm hread.mild
  obtain ⟨j, hj⟩ : ∃ j, b.scanJudged = j := ⟨_, rfl⟩
  rw [hj] at hjudged hstops ⊢
  have hend := State.scanBandgap_spec hjudged.calm hjudged.mild
  obtain ⟨t, ht⟩ : ∃ t, j.scanBandgap = t := ⟨_, rfl⟩
  rw [ht] at hend ⊢
  have hword : ∀ a, 0x40000 ≤ a → a ∉ judgedAddrs → t.word a = b.word a := fun a ha hin =>
    (hend.word a (.inr ha) hin).trans (hjudged.word a (.inr ha) hin)
  refine ⟨t, finish_of_calm hend.calm rfl, ?_, ?_, ?_, fun m v hm hv => ?_, fun m v hm hv hworks => ?_, fun hall => ?_⟩
  · have hthermal : SameButSensing b b.thermalJudged := rfl
    have hother : SameButSensing j j.otherBandgap := rfl
    exact ((SameButSensing.trans hread.state hthermal).trans hjudged.state).trans (hother.trans hend.state)
  · rw [hend.die]
    exact congrArg (1 - ·) (hjudged.die.trans hread.die)
  · exact hend.queue.trans (hjudged.queue.trans hread.queue)
  · rw [State.rf_of_word (hword _ (last_addr _) (last_notMem_judged _ (by omega))), hcodes m v hm hv]
  · rw [State.reg_of_word (hword _ (diode_addr m) (diode_notMem_judged m (by omega))), hdiodes m v hm hv hworks]
  · have hboth : b.thermalJudged.sense.shutdown = [true, true] := hyst_hot (by decide) (hhot hall)
    have hshut : t.sense.shutdown = [true, true] := hend.shutdown.trans (hjudged.shutdown.trans hboth)
    refine ⟨hshut, ?_, hend.stopped (hstops ?_)⟩
    · rw [State.shut, hshut]
      simp
    · rw [hboth]
      rfl

end Sys2Proof.Machine
end

section
/-! SUPPORT. Triggers, the spare stage and the check of the diodes (R444, R446 to R448, R450). -/

namespace Sys2Proof.Machine

/-! ### Triggers -/

section
variable {s : State} {y : Sample} {o : Sense} {group : Nat} (seq : Nat)

/-- A trigger that enters one result: what its state is made of. -/
theorem State.hkaGroup_of_queue (hq : o.queue = s.sense.queue) (hchan : y.chan < 32) (hroom : s.sense.queue.length < 512)
    (hcfg : s.rf Reg.HKA_CHn_CFG 0 y.chan 1 0 = group) {v : State} (hv : ({ s with sense := o } : State).hkaResult y.chan y.code = v)
    (hsense : v.sense = o) : ({ s with sense := o } : State).hkaGroup group seq [y] =
      { v with sense := { o with queue := s.sense.queue ++ [⟨group, y.chan, seq, y.code.toNat⟩] } } := by
  have honly := State.hkaGroup_of_only (s := { s with sense := o }) (y := y) seq hchan hcfg
  rw [hv, State.hkaPush_of_room (by rw [hsense, hq]; exact hroom), hsense, hq] at honly
  exact honly

/-- A trigger enters the result of its channel (R444, R447). -/
theorem trigger_unwatched (hc : s.calm) (hq : o.queue = s.sense.queue) (hchan : y.chan < 32) (hroom : s.sense.queue.length < 512)
    (hcfg : s.rf Reg.HKA_CHn_CFG 0 y.chan 1 0 = group) (hwin : bitsOf (s.reg Reg.HKA_CHn_WIN 0 y.chan) 31 31 = 0) :
    ∃ t, finish (({ s with sense := o } : State).hkaGroup group seq [y]) = .next t ∧
      (OnlyRegs { s with sense := t.sense } t [Reg.HKA_CHn_LAST.addr 0 y.chan] ∧ t.rf Reg.HKA_CHn_LAST 0 y.chan 13 0 = y.code.toNat) ∧
      t.sense = { o with queue := s.sense.queue ++ [⟨group, y.chan, seq, y.code.toNat⟩] } := by
  obtain ⟨v, hv⟩ : ∃ v, ({ s with sense := o } : State).hkaShown y.chan y.code = v := ⟨_, rfl⟩
  have honly : OnlyRegs { s with sense := o } v [Reg.HKA_CHn_LAST.addr 0 y.chan] := hv ▸ State.onlyRegs_hkaShown _ _ _
  have hset : v.rf Reg.HKA_CHn_LAST 0 y.chan 13 0 = y.code.toNat := hv ▸ State.rf_hkaShown _ _ _
  have hcalm : v.calm := honly.calm hc
  obtain ⟨heq, hword⟩ := honly
  rw [State.hkaGroup_of_queue seq hq hchan hroom hcfg ((State.hkaResult_of_unwatched (s := { s with sense := o }) hwin).trans hv)
    (by rw [heq])]
  refine ⟨_, finish_of_calm hcalm rfl, ⟨⟨?_, hword⟩, hset⟩, rfl⟩
  rw [heq]

/-- A result that leaves its window is entered, shown and raised (R446). -/
theorem trigger_watched (hc : s.calm) (hs : s.mild [0x75]) (hq : o.queue = s.sense.queue) (hchan : y.chan < 32) (hroom : s.sense.queue.length < 512)
    (hcfg : s.rf Reg.HKA_CHn_CFG 0 y.chan 1 0 = group) (hwin : bitsOf (s.reg Reg.HKA_CHn_WIN 0 y.chan) 31 31 = 1)
    (hout : y.code.toNat < bitsOf (s.reg Reg.HKA_CHn_WIN 0 y.chan) 13 0 ∨ bitsOf (s.reg Reg.HKA_CHn_WIN 0 y.chan) 29 16 < y.code.toNat)
    (hin : s.rf Reg.HKA_CHn_LAST 0 y.chan 31 31 = 0) :
    ∃ t, finish (({ s with sense := o } : State).hkaGroup group seq [y]) = .next t ∧ t.rf Reg.HKA_CHn_LAST 0 y.chan 31 31 = 1 ∧
      t.rf Reg.HKA_CHn_LAST 0 y.chan 13 0 = y.code.toNat ∧ t.rf Reg.FCL_SRCn_STAT 0 0x75 31 31 = 1 ∧
      t.sense.queue = s.sense.queue ++ [⟨group, y.chan, seq, y.code.toNat⟩] := by
  obtain ⟨v, hv⟩ : ∃ v, (({ s with sense := o } : State).hkaShown y.chan y.code).setRf Reg.HKA_CHn_LAST 0 y.chan 31 31 1 = v := ⟨_, rfl⟩
  have honly : OnlyRegs { s with sense := o } v [Reg.HKA_CHn_LAST.addr 0 y.chan] :=
    hv ▸ (State.onlyRegs_hkaShown _ _ _).trans (onlyRegs_setRf _ _ _ _ _ _ _)
  have hbit : v.rf Reg.HKA_CHn_LAST 0 y.chan 31 31 = 1 := hv ▸ State.rf_setRf_self _ _ _ _ _ _ (by decide)
  have hcode : v.rf Reg.HKA_CHn_LAST 0 y.chan 13 0 = y.code.toNat :=
    hv ▸ (State.rf_setRf_apart _ _ _ _ _ (by decide) (by decide)).trans (State.rf_hkaShown _ _ _)
  have hmild : v.mild [0x75] := honly.mild (fun a ha => .inr (by
    rw [List.mem_singleton.mp ha]
    exact Nat.le_trans (by decide) (last_addr _))) (by decide) hs
  obtain ⟨u, hu⟩ : ∃ u, v.raise 0x75 y.chan = u := ⟨_, rfl⟩
  have hraised : Raised v u 0x75 y.chan := hu ▸ State.raise_raised (by decide) (by omega) hmild
  have hresult := (State.hkaResult_of_out (s := { s with sense := o }) (ch := y.chan) hwin hout hin).trans ((congrArg (State.raise · 0x75 y.chan) hv).trans hu)
  obtain ⟨heq, -, -, hcalm, hpending, -, -, hword⟩ := hraised
  have hhigh : Reg.HKA_CHn_LAST.addr 0 y.chan < 0x30000 ∨ 0x40000 ≤ Reg.HKA_CHn_LAST.addr 0 y.chan := .inr (last_addr _)
  rw [State.hkaGroup_of_queue seq hq hchan hroom hcfg hresult (by rw [heq, honly.1])]
  exact ⟨_, finish_of_calm (hcalm (honly.calm hc)) rfl, (State.rf_of_word (hword _ hhigh) _ _).trans hbit,
    (State.rf_of_word (hword _ hhigh) _ _).trans hcode, hpending, rfl⟩

end

theorem exec_hkaTimerTrigger {s : State} (hboot : s.pow.booted = true) (hctl : s.rf Reg.HKA_CTL 0 0 31 31 = 1) (y : List Sample) :
    exec (.hkaTimerTrigger y false) s =
      finish (({ s with sense := { s.sense with timerSeq := s.sense.timerSeq + 1 } } : State).hkaGroup 1 (s.sense.timerSeq + 1) y) := by
  show execHkaTimerTrigger y false s = _
  unfold execHkaTimerTrigger
  rw [if_neg (by rw [hboot, hctl]; decide)]
  exact if_neg (by decide)

theorem exec_hkaPwmTrigger {s : State} (hboot : s.pow.booted = true) (hctl : s.rf Reg.HKA_PWM 0 0 31 31 = 1) (y : List Sample) :
    exec (.hkaPwmTrigger y false) s =
      finish (({ s with sense := { s.sense with pwmSeq := s.sense.pwmSeq + 1 } } : State).hkaGroup 2 (s.sense.pwmSeq + 1) y) := by
  show execHkaPwmTrigger y false s = _
  unfold execHkaPwmTrigger
  rw [if_neg (by rw [hboot, hctl]; decide)]
  exact if_neg (by decide)

/-! ### The spare stage (R448) -/

/-- The spare serves the next stage. -/
def State.stageRotated (s : State) : State := s.setRf Reg.HKA_STAGE 0 0 3 0 ((s.rf Reg.HKA_STAGE 0 0 3 0 + 1) % 12)

theorem State.rf_stageRotated (s : State) : s.stageRotated.rf Reg.HKA_STAGE 0 0 3 0 = (s.rf Reg.HKA_STAGE 0 0 3 0 + 1) % 12 :=
  (State.rf_setRf_self _ _ _ _ _ _ (by decide)).trans (Nat.mod_eq_of_lt (by omega))

theorem exec_hkaStageRotation {s : State} (hboot : s.pow.booted = true) (hstage : s.rf Reg.HKA_STAGE 0 0 4 4 = 0) (pass : Bool) :
    exec (.hkaStageRotation pass) s =
      if pass then .next s.stageRotated else finish ((s.stageRotated.setRf Reg.HKA_STAGE 0 0 4 4 1).raise 0x77 devUnit) := by
  show execHkaStageRotation pass s = _
  unfold execHkaStageRotation
  rw [if_neg (by rw [hboot, hstage]; decide)]
  rfl

/-- A stage that passes its calibration is relieved; one that fails is replaced for good. -/
theorem stageRotation {s : State} (hc : s.calm) (hboot : s.pow.booted = true) (hstage : s.rf Reg.HKA_STAGE 0 0 4 4 = 0) :
    let next := (s.rf Reg.HKA_STAGE 0 0 3 0 + 1) % 12
    (∃ t, exec (.hkaStageRotation true) s = .next t ∧ OnlyRegs s t [Reg.HKA_STAGE.addr 0 0] ∧ t.rf Reg.HKA_STAGE 0 0 3 0 = next ∧
      t.rf Reg.HKA_STAGE 0 0 4 4 = 0) ∧
    (s.mild [0x77] → ∃ q t, exec (.hkaStageRotation false) s = .next t ∧ Raised q t 0x77 devUnit ∧
      OnlyRegs s q [Reg.HKA_STAGE.addr 0 0] ∧ q.rf Reg.HKA_STAGE 0 0 3 0 = next ∧ q.rf Reg.HKA_STAGE 0 0 4 4 = 1) := by
  have honly : OnlyRegs s s.stageRotated [Reg.HKA_STAGE.addr 0 0] := onlyRegs_setRf _ _ _ _ _ _ _
  refine ⟨⟨_, exec_hkaStageRotation hboot hstage true, honly, s.rf_stageRotated, ?_⟩, fun hs => ?_⟩
  · exact (State.rf_setRf_apart _ _ _ _ _ (by decide) (by decide)).trans hstage
  · have hfailed := honly.trans (onlyRegs_setRf s.stageRotated Reg.HKA_STAGE 0 0 4 4 1)
    obtain ⟨hrun, hraised⟩ := finish_raise (src := 0x77) (unit := devUnit) (hfailed.calm hc) (by decide) (by decide)
      (hfailed.mild (by decide) (by decide) hs)
    exact ⟨_, _, (exec_hkaStageRotation hboot hstage false).trans hrun, hraised, hfailed,
      (State.rf_setRf_apart _ _ _ _ _ (by decide) (by decide)).trans s.rf_stageRotated, State.rf_setRf_self _ _ _ _ _ _ (by decide)⟩

/-! ### The check of the diodes (R450) -/

/-- Whether a diode is judged: it is valid, and so are two of its neighbours. -/
def State.diodeJudged (s : State) (n : Nat) : Bool := s.diodeValid n && decide (2 ≤ ((neighbours n).filter s.diodeValid).length)

/-- Whether a diode lies far from the mean of its valid neighbours. -/
def State.diodeFar (s : State) (n : Nat) : Bool :=
  let l := ((neighbours n).filter s.diodeValid).map s.diodeTemp
  decide (192 * l.length < (l.length * s.diodeTemp n - l.sum).natAbs)

def State.judgedDiodes (s : State) : List Nat := (List.range 16).filter s.diodeJudged

/-- How often in a row each diode has deviated. -/
def State.diodeStreaks (s : State) : SMap Nat :=
  s.judgedDiodes.foldl (fun m n => SMap.put m 0 n (if s.diodeFar n then SMap.get m 0 n + 1 else 0)) s.sense.streaks

def State.badDiodes (s : State) : List Nat := s.judgedDiodes.filter fun n => decide (10 ≤ SMap.get s.diodeStreaks 0 n)

/-- A diode has failed. -/
def State.failDiode (s : State) (n : Nat) : State := (s.setRf Reg.THM_DIODEn 0 n 31 31 0).setRf Reg.THM_DIODEn 0 n 30 30 1

def State.withStreaks (s : State) : State := { s with sense := { s.sense with streaks := s.diodeStreaks } }

/-- The dies that show too few diodes. -/
def State.lowDies (s : State) : List Bool :=
  (List.range 2).map (fun d => s.sense.diodesLow.getD d false || decide (s.rf Reg.THM_TJd 0 d 19 16 < 4) &&
    (List.range 8).any (fun k => s.rf Reg.THM_DIODEn 0 (8 * d + k) 30 30 == 1))

/-- The end of a check: the dies that show too few diodes are raised. -/
def State.lowShown (s : State) : State := (({ s with sense := { s.sense with diodesLow := s.lowDies } } : State).showThermal).raiseNew 0x74 s.sense.diodesLow s.lowDies

/-- The bad diodes fail, are shown as failed, and are raised. -/
def State.badShown (s : State) (bad : List Nat) : State :=
  let s := bad.foldl State.failDiode s
  let s := if bad.isEmpty then s else s.setDiodes []
  bad.foldl (fun (s : State) n => s.raise 0x73 n) s

theorem exec_diodeCheck {s : State} (hboot : s.pow.booted = true) : exec .diodeCheck s = finish (s.withStreaks.badShown s.badDiodes).lowShown := by
  show execDiodeCheck s = _
  unfold execDiodeCheck
  refine (if_neg (by rw [hboot]; decide)).trans ?_
  obtain ⟨v, hv⟩ : ∃ v, s.withStreaks.badShown s.badDiodes = v := ⟨_, rfl⟩
  rw [hv]
  unfold State.badShown State.badDiodes State.withStreaks State.diodeStreaks State.judgedDiodes at hv
  exact (congrArg (fun v : State => finish v.lowShown) hv)

section
variable {s : State} {n : Nat}

theorem State.mem_judgedDiodes : n ∈ s.judgedDiodes ↔ n < 16 ∧ s.diodeJudged n = true := by
  rw [State.judgedDiodes, List.mem_filter, List.mem_range]

theorem State.nodup_judgedDiodes (s : State) : (s.judgedDiodes.map id).Nodup := by
  rw [List.map_id]
  exact List.nodup_range.filter _

/-- A diode that is judged counts a deviation, or starts again. -/
theorem State.get_diodeStreaks (s : State) : (∀ n, n ∉ s.judgedDiodes → SMap.get s.diodeStreaks 0 n = SMap.get s.sense.streaks 0 n) ∧
    ∀ n ∈ s.judgedDiodes, SMap.get s.diodeStreaks 0 n = if s.diodeFar n then SMap.get s.sense.streaks 0 n + 1 else 0 := by
  obtain ⟨-, hother, hown⟩ := foldl_at (f := fun m n => SMap.put m 0 n (if s.diodeFar n then SMap.get m 0 n + 1 else 0)) (xs := s.judgedDiodes)
    (P := fun _ => True) (key := id) (g := fun m n => SMap.get m 0 n) (fun _ _ _ => trivial)
    (fun m x k _ hk => SMap.get_put_of_ne m 0 0 _ hk) (s := s.sense.streaks) trivial s.nodup_judgedDiodes
  refine ⟨fun n hn => hother n (by rwa [List.map_id]), fun n hn => ?_⟩
  obtain ⟨m, -, hsame, hset⟩ := hown n hn
  have hsame : SMap.get m 0 n = SMap.get s.sense.streaks 0 n := hsame
  refine hset.trans ((SMap.get_put_self m 0 n _).trans ?_)
  rw [hsame]

theorem State.badDiodes_eq_nil (h : ∀ n, n < 16 → SMap.get s.sense.streaks 0 n < 9) : s.badDiodes = [] :=
  List.filter_eq_nil_iff.mpr fun n hn => by
    have hlow := h n (State.mem_judgedDiodes.mp hn).1
    rw [s.get_diodeStreaks.2 n hn]
    split
    · simpa using hlow
    · simp

theorem State.mem_badDiodes (hn : n < 16) (hjudged : s.diodeJudged n = true) (hfar : s.diodeFar n = true) (h : 9 ≤ SMap.get s.sense.streaks 0 n) :
    n ∈ s.badDiodes := by
  have hin := State.mem_judgedDiodes.mpr ⟨hn, hjudged⟩
  refine List.mem_filter.mpr ⟨hin, decide_eq_true ?_⟩
  rw [s.get_diodeStreaks.2 n hin, if_pos hfar]
  omega

end

/-- A check that finds no diode bad counts deviations alone. -/
theorem diodeCheck_none {s : State} (hc : s.calm) (hboot : s.pow.booted = true)
    (hgood : ∀ m, m < 16 → SMap.get s.sense.streaks 0 m < 9 ∧ s.rf Reg.THM_DIODEn 0 m 30 30 = 0) (hlow : s.sense.diodesLow = [false, false]) :
    exec .diodeCheck s = .next s.withStreaks.showThermal := by
  have hdies : s.withStreaks.lowDies = [false, false] := by
    have hworks : ∀ d, d < 2 → ((List.range 8).any fun k => s.rf Reg.THM_DIODEn 0 (8 * d + k) 30 30 == 1) = false := fun d hd =>
      List.any_eq_false.mpr fun k hk => by
        rw [(hgood (8 * d + k) (by have := List.mem_range.mp hk; omega)).2]
        decide
    have heach : ∀ d, d < 2 → (s.sense.diodesLow.getD d false || decide (s.rf Reg.THM_TJd 0 d 19 16 < 4) &&
        (List.range 8).any (fun k => s.rf Reg.THM_DIODEn 0 (8 * d + k) 30 30 == 1)) = false := fun d hd => by
      rw [hworks d hd, Bool.and_false, Bool.or_false, hlow]
      exact (by decide : ∀ d, d < 2 → [false, false].getD d false = false) d hd
    exact congrArg₂ (fun a b => [a, b]) (heach 0 (by decide)) (heach 1 (by decide))
  have hshown : s.withStreaks.lowShown = s.withStreaks.showThermal := by
    have hsame : ({ s.withStreaks with sense := { s.withStreaks.sense with diodesLow := [false, false] } } : State) = s.withStreaks := by
      rw [← hlow]
      rfl
    unfold State.lowShown
    rw [hdies, hsame]
    rfl
  rw [exec_diodeCheck hboot, State.badDiodes_eq_nil fun m hm => (hgood m hm).1]
  have hnone : s.withStreaks.badShown [] = s.withStreaks := rfl
  rw [hnone, hshown]
  exact (OnlyRegs.finish (State.onlyRegs_showThermal _) hc)

/-! ### A diode fails -/

/-- The sources that a check of the diodes raises. -/
def checkSources : List Nat := [0x73, 0x74]

theorem checkSources_lt : ∀ n ∈ checkSources, n < 256 := by decide

/-- What is kept from `s` on and pending: a failed diode. -/
structure DiodeRaised (s t : State) : Prop where
  scans : Scans checkSources [Reg.THM_STATE.addr 0 0] s t
  pending : t.rf Reg.FCL_SRCn_STAT 0 0x73 31 31 = 1

section
variable {s t : State} {n : Nat} {bad : List Nat}

theorem Scans.raiseFailed (h : Scans checkSources [Reg.THM_STATE.addr 0 0] s t) (hn : n < 1024) : DiodeRaised s (t.raise 0x73 n) :=
  ⟨h.raise checkSources_lt (by decide) n, (State.raise_raised (by decide) hn (State.mild_of_subset h.mild (by decide))).2.2.2.2.1⟩

/-- Raising the bad diodes leaves their source pending. -/
theorem diodeRaised_bad (hc : s.calm) (hs : s.mild checkSources) (hbad : ∀ x ∈ bad, x < 16) (hin : n ∈ bad) :
    DiodeRaised s (bad.foldl (fun (s : State) n => s.raise 0x73 n) s) := by
  have hend : ∀ (l : List Nat) (t : State), (∀ x ∈ l, x < 16) → DiodeRaised s t → DiodeRaised s (l.foldl (fun (s : State) n => s.raise 0x73 n) t) := fun l => by
    induction l with
    | nil => exact fun _ _ h => h
    | cons x l ih =>
      exact fun t hl h => ih _ (fun y hy => hl y (List.mem_cons_of_mem _ hy)) (h.scans.raiseFailed (by have := hl x List.mem_cons_self; omega))
  cases bad with
  | nil => exact absurd hin List.not_mem_nil
  | cons x l =>
    exact hend l _ (fun y hy => hbad y (List.mem_cons_of_mem _ hy))
      ((Scans.refl hc hs).raiseFailed (by have := hbad x List.mem_cons_self; omega))

theorem DiodeRaised.lowShown (h : DiodeRaised s t) : DiodeRaised s t.lowShown := by
  have hthermal : DiodeRaised s ({ t with sense := { t.sense with diodesLow := t.lowDies } } : State).showThermal :=
    ⟨Scans.showThermal checkSources_lt (by decide) (h.scans.sense _ rfl rfl rfl),
      ((State.onlyRegs_showThermal _).rf (by decide) _ _).trans h.pending⟩
  unfold State.lowShown State.raiseNew
  have hend : ∀ (l : List Nat) (v : State), DiodeRaised s v → DiodeRaised s (l.foldl (fun (v : State) d =>
      if t.lowDies.getD d false && !t.sense.diodesLow.getD d false then v.raise 0x74 d else v) v) := fun l => by
    induction l with
    | nil => exact fun _ h => h
    | cons d l ih =>
      refine fun v hv => ih _ ?_
      dsimp only
      split
      · exact ⟨hv.scans.raise checkSources_lt (by decide) d, ((raiseFrame_raise v 0x74 d).rf (by decide) _ _).trans hv.pending⟩
      · exact hv
  exact hend _ _ hthermal

theorem State.onlyRegs_failDiode (s : State) (n : Nat) : OnlyRegs s (s.failDiode n) [Reg.THM_DIODEn.addr 0 n] :=
  (onlyRegs_setRf _ _ _ _ _ _ _).trans (onlyRegs_setRf _ _ _ _ _ _ _)

theorem State.rf_failDiode (s : State) (n : Nat) : (s.failDiode n).rf Reg.THM_DIODEn 0 n 30 30 = 1 ∧ (s.failDiode n).rf Reg.THM_DIODEn 0 n 31 31 = 0 :=
  ⟨State.rf_setRf_self _ _ _ _ _ _ (by decide), (State.rf_setRf_apart _ _ _ _ _ (by decide) (by decide)).trans (State.rf_setRf_self _ _ _ _ _ _ (by decide))⟩

/-- Bad diodes have failed. -/
theorem rf_failDiodes (s : State) (hnodup : (bad.map id).Nodup) (hin : n ∈ bad) : let t := bad.foldl State.failDiode s
    t.rf Reg.THM_DIODEn 0 n 30 30 = 1 ∧ t.rf Reg.THM_DIODEn 0 n 31 31 = 0 := by
  obtain ⟨-, -, hown⟩ := foldl_at (f := State.failDiode) (xs := bad) (P := fun _ => True) (key := id) (g := fun w n => w.reg Reg.THM_DIODEn 0 n)
    (fun _ _ _ => trivial) (fun w x k _ hk => (w.onlyRegs_failDiode x).reg (diode_addr_ne hk)) (s := s) trivial hnodup
  obtain ⟨w, -, -, hset⟩ := hown n hin
  have hset : (bad.foldl State.failDiode s).reg Reg.THM_DIODEn 0 n = (w.failDiode n).reg Reg.THM_DIODEn 0 n := hset
  dsimp only
  rw [State.rf, State.rf, hset]
  exact w.rf_failDiode n

end

/-- A diode that deviates for the tenth time has failed. -/
theorem diodeCheck_bad {s : State} {n : Nat} (hc : s.calm) (hboot : s.pow.booted = true) (hs : s.mild checkSources) (hn : n < 16)
    (hbad : n ∈ s.badDiodes) : ∃ t, exec .diodeCheck s = .next t ∧
      t.rf Reg.THM_DIODEn 0 n 30 30 = 1 ∧ t.rf Reg.THM_DIODEn 0 n 31 31 = 0 ∧ t.rf Reg.FCL_SRCn_STAT 0 0x73 31 31 = 1 := by
  have hsmall : ∀ x ∈ s.badDiodes, x < 16 := fun x hx => (State.mem_judgedDiodes.mp (List.mem_filter.mp hx).1).1
  have hnodup : (s.badDiodes.map id).Nodup := by
    rw [List.map_id]
    exact (List.nodup_range.filter _).filter _
  rw [exec_diodeCheck hboot]
  obtain ⟨bad, hl⟩ : ∃ bad, s.badDiodes = bad := ⟨_, rfl⟩
  rw [hl] at hbad hsmall hnodup ⊢
  have hfailed := rf_failDiodes s.withStreaks hnodup hbad
  have honly : OnlyRegs s.withStreaks (bad.foldl State.failDiode s.withStreaks) diodesAddrs := OnlyRegs.foldl _ fun v x hx =>
    (v.onlyRegs_failDiode x).mono fun a ha => by
      rw [List.mem_singleton.mp ha]
      exact mem_diodesAddrs (by have := hsmall x hx; omega)
  unfold State.badShown
  obtain ⟨u, hu⟩ : ∃ u, bad.foldl State.failDiode s.withStreaks = u := ⟨_, rfl⟩
  rw [hu] at hfailed honly ⊢
  dsimp only at hfailed ⊢
  rw [if_neg (by cases bad with
    | nil => nomatch hbad
    | cons _ _ => exact Bool.false_ne_true)]
  have hdiodes := honly.trans (u.onlyRegs_setDiodes [])
  have hshown : (u.setDiodes []).rf Reg.THM_DIODEn 0 n 30 30 = 1 ∧ (u.setDiodes []).rf Reg.THM_DIODEn 0 n 31 31 = 0 :=
    ⟨(u.rf_setDiodes_nil hn (.inl rfl)).trans hfailed.1, (u.rf_setDiodes_nil hn (.inr rfl)).trans hfailed.2⟩
  obtain ⟨v, hv⟩ : ∃ v, u.setDiodes [] = v := ⟨_, rfl⟩
  rw [hv] at hdiodes hshown ⊢
  have hmild : v.mild checkSources := hdiodes.mild (fun a ha => .inr (Nat.le_trans (by decide) (le_of_mem_diodesAddrs ha))) checkSources_lt hs
  have hend := (diodeRaised_bad (hdiodes.calm hc) hmild hsmall hbad).lowShown
  obtain ⟨t, ht⟩ : ∃ t, (bad.foldl (fun (s : State) n => s.raise 0x73 n) v).lowShown = t := ⟨_, rfl⟩
  rw [ht] at hend ⊢
  have hkept : ∀ hi lo, t.rf Reg.THM_DIODEn 0 n hi lo = v.rf Reg.THM_DIODEn 0 n hi lo := hend.scans.rf (.inr (diode_addr n)) (by
    simp only [List.mem_singleton, RegFam.addr, Reg.THM_DIODEn, Reg.THM_STATE]
    omega)
  exact ⟨t, finish_of_calm hend.scans.calm rfl, (hkept 30 30).trans hshown.1, (hkept 31 31).trans hshown.2, hend.pending⟩

end Sys2Proof.Machine
end

section
/-! PROOFS. The statement about sensing. -/

namespace Sys2Proof.Machine

theorem State.diodeJudged_iff {s : State} {n : Nat} :
    s.diodeJudged n = true ↔ s.diodeValid n = true ∧ 2 ≤ ((neighbours n).filter s.diodeValid).length := by
  rw [State.diodeJudged, Bool.and_eq_true, decide_eq_true_eq]

theorem State.diodeFar_iff {s : State} {n : Nat} : let l := ((neighbours n).filter s.diodeValid).map s.diodeTemp
    s.diodeFar n = true ↔ 192 * l.length < (l.length * s.diodeTemp n - l.sum).natAbs := decide_eq_true_iff

/-- A measurement of the hold-up bank (R455). -/
theorem holdupCapMeasure_spec {s : State} {drop : BitVec 16} (hc : s.calm) (hboot : s.pow.booted = true) (hs : s.mild [0x7E]) (hdrop : drop ≠ 0) :
    let uf := min 65535 (2000000 / drop.toNat)
    ∃ q t, exec (.holdupCapMeasure drop) s = .next t ∧ q.rf Reg.PWR_HOLDUP_CAP 0 0 15 0 = uf ∧
      OnlyRegs s q [Reg.PWR_HOLDUP_CAP.addr 0 0, Reg.PWR_HOLDUP.addr 0 0] ∧
      (3200 ≤ uf ∨ s.rf Reg.PWR_HOLDUP_CAP 0 0 15 0 < 3200 → t = q) ∧
      (uf < 3200 → 3200 ≤ s.rf Reg.PWR_HOLDUP_CAP 0 0 15 0 → Raised q t 0x7E devUnit) := by
  intro uf
  obtain ⟨hshown, honly⟩ := holdupCap_shown s (uf := uf) (Nat.min_le_left _ _)
  have hrun := exec_holdupCapMeasure hboot hdrop
  dsimp only at hrun hshown honly
  obtain ⟨q, hq⟩ : ∃ q, (s.setReg Reg.PWR_HOLDUP_CAP 0 0 uf).showHoldup = q := ⟨_, rfl⟩
  rw [hq] at hshown honly hrun
  rw [hrun]
  by_cases hlow : uf < 3200 ∧ 3200 ≤ s.rf Reg.PWR_HOLDUP_CAP 0 0 15 0
  · obtain ⟨hend, hraised⟩ := finish_raise (src := 0x7E) (unit := devUnit) (honly.calm hc) (by decide) (by decide)
      (honly.mild (by decide) (by decide) hs)
    rw [if_pos hlow, hend]
    exact ⟨q, _, rfl, hshown, honly, fun h => by omega, fun _ _ => hraised⟩
  · rw [if_neg hlow, honly.finish hc]
    exact ⟨q, _, rfl, hshown, honly, fun _ => rfl, fun h1 h2 => absurd ⟨h1, h2⟩ hlow⟩

/-- Settles O54: triggers, the spare stage, the scan, the check of the diodes and the hold-up bank, each by what its steps leave. -/
theorem sensing : Obligations.Sensing := by
  unfold Obligations.Sensing
  intro s y sc drop n hc hboot
  dsimp only
  refine ⟨fun hchan hroom hwin => ⟨fun hctl hcfg => ?_, fun hctl hcfg => ?_⟩, fun hchan hroom hwin hout hin hctl hcfg hs => ?_,
    fun hstage => stageRotation hc hboot hstage, fun hs => exec_systemScan hc hboot hs sc, fun hgood hlow => ?_, fun hn hjudged hfar hstreak hs => ?_,
    holdupCapMeasure_spec hc hboot⟩
  · rw [exec_hkaTimerTrigger hboot hctl]
    exact trigger_unwatched _ hc rfl hchan hroom hcfg hwin
  · rw [exec_hkaPwmTrigger hboot hctl]
    exact trigger_unwatched _ hc rfl hchan hroom hcfg hwin
  · rw [exec_hkaTimerTrigger hboot hctl]
    exact trigger_watched _ hc hs rfl hchan hroom hcfg hwin (of_decide_eq_true hout) hin
  · obtain ⟨hother, hown⟩ := s.get_diodeStreaks
    refine ⟨_, diodeCheck_none hc hboot hgood hlow, State.onlyRegs_showThermal _, fun m hm => ⟨fun hjudged hfar => ?_, fun hjudged hnear => ?_, fun hno => ?_⟩⟩
    · exact (hown m (State.mem_judgedDiodes.mpr ⟨hm, State.diodeJudged_iff.mpr hjudged⟩)).trans (if_pos (State.diodeFar_iff.mpr hfar))
    · exact (hown m (State.mem_judgedDiodes.mpr ⟨hm, State.diodeJudged_iff.mpr hjudged⟩)).trans (if_neg fun h => hnear (State.diodeFar_iff.mp h))
    · exact hother m fun h => hno (State.diodeJudged_iff.mp (State.mem_judgedDiodes.mp h).2)
  · exact diodeCheck_bad hc hboot hs hn (State.mem_badDiodes hn (State.diodeJudged_iff.mpr hjudged) (State.diodeFar_iff.mpr hfar) hstreak)

end Sys2Proof.Machine
end

section
/-! SUPPORT. The attestation report (R470, R471). -/

namespace Sys2Proof.Machine

@[simp] theorem length_toLE (n v : Nat) : (toLE n v).length = n := by
  induction n generalizing v with
  | zero => rfl
  | succ n ih => rw [toLE, List.length_cons, ih]

@[simp] theorem length_toBE (n v : Nat) : (toBE n v).length = n := by rw [toBE, List.length_reverse, length_toLE]

@[simp] theorem length_sm3 (msg : List Byte) : (sm3 msg).length = 32 := by
  unfold sm3
  obtain ⟨zeros, hzeros⟩ : ∃ z, (119 - msg.length % 64) % 64 = z := ⟨_, rfl⟩
  rw [hzeros]
  dsimp only
  simp only [List.flatMap_cons, List.flatMap_nil, List.length_append, List.length_nil, length_toBE]

@[simp] theorem length_digestBytes (d : BitVec 256) : (digestBytes d).length = 32 := length_toLE 32 _

@[simp] theorem State.length_wordBytes (s : State) (f : RegFam) : (s.wordBytes f).length = 32 := by
  simp [State.wordBytes, List.length_flatMap]

@[simp] theorem State.length_sm2Signed (s : State) (msg : List Byte) : (s.sm2Signed msg).length = 64 := by
  have hsign : ∀ d ks, (sm2Sign d ks msg).length = 64 := fun d ks => by
    unfold sm2Sign
    split
    · rw [List.length_append, length_toBE, length_toBE]
    · exact List.length_replicate
  unfold State.sm2Signed
  split
  · exact hsign _ _
  · rw [List.length_append, length_toLE, length_toLE]

theorem State.length_report352 (s : State) (nonce : BitVec 256) (tenant : Nat) : (s.report352 nonce tenant).length = 288 := by
  unfold State.report352 State.calDigest
  simp only [List.length_append, length_toLE, length_digestBytes, State.length_wordBytes, length_sm3, List.length_replicate]

/-- The state after an attestation has been counted. -/
def State.attested (s : State) : State := ({ s with freeCtr := s.freeCtr + 4 } : State).wide Reg.SEC_ATTESTS 0 0 1

/-- The signed report. -/
def State.attestation (s : State) (nonce : BitVec 256) (tenant : Nat) : List Byte :=
  let b := s.report352 nonce tenant
  b ++ s.sm2Signed b

theorem State.length_attestation (s : State) (nonce : BitVec 256) (tenant : Nat) : (s.attestation nonce tenant).length = 352 := by
  unfold State.attestation
  dsimp only
  rw [List.length_append, State.length_report352, State.length_sm2Signed]

theorem execAttest_eq (h : Hdr) (nonce : BitVec 256) (s : State) :
    execAttest h nonce s = s.command h attestRow true true true fun s x r => s.attested.answer r stOk (s.attestation nonce x.tenantNo) := rfl

/-- An attestation answers with the signed report (R470). -/
theorem exec_attest {s : State} {h : Hdr} {x : Session} {nonce : BitVec 256} (hc : s.calm) (ha : s.accepts h attestRow true true true x) :
    Done (exec (.attest h nonce) s) h 0x0180 (s.taken h).attested ((s.taken h).attestation nonce x.tenantNo) := by
  show Done (execAttest h nonce s) h attestRow.op _ _
  rw [execAttest_eq]
  exact done_of_accepts hc ha rfl rfl

/-! ### The random source (R481) -/

theorem rngHealth {s : State} (hc : s.calm) (hboot : s.pow.booted = true) :
    exec .rngHealthRecovery s = .next (s.setRf Reg.SEC_RNG 0 0 0 0 1) ∧
    (s.mild [0x91] → ∃ t, exec .rngHealthFail s = .next t ∧ Raised (s.setRf Reg.SEC_RNG 0 0 0 0 0) t 0x91 devUnit) := by
  have honly := onlyRegs_setRf s Reg.SEC_RNG 0 0 0 0 0
  refine ⟨if_pos hboot, fun hs => ?_⟩
  obtain ⟨hrun, hraised⟩ := finish_raise (src := 0x91) (unit := devUnit) (honly.calm hc) (by decide) (by decide) (honly.mild (by decide) (by decide) hs)
  exact ⟨_, (if_pos hboot).trans hrun, hraised⟩

end Sys2Proof.Machine
end

section
/-! SUPPORT. Tamper and the installation of firmware (R475, R477, R482). -/

namespace Sys2Proof.Machine

/-! ### Tamper (R482) -/

theorem exec_tamper {s : State} (cause : BitVec 3) (hon : s.pow.on = true) : ∃ t, exec (.tamper cause) s = .next t ∧
    t.rf Reg.SEC_TAMPER 0 0 2 0 = cause.toNat ∧ t.rf Reg.FCL_STATE 0 0 17 16 = 3 ∧ t.sec.root = false ∧ t.flt.key = none ∧
    t.hpt.sessions = [] ∧ t.pow.booted = false ∧ ∀ k, (t.core k).spm = [] := by
  obtain ⟨v, hv⟩ : ∃ v : State, ({ s.wipeWindows with sec := { s.wipeWindows.sec with root := false }, flt := { s.wipeWindows.flt with key := none } } : State).setReg
    Reg.SEC_TAMPER 0 0 cause.toNat = v := ⟨_, rfl⟩
  have hroot : v.sec.root = false := by rw [← hv]; rfl
  obtain ⟨u, hu⟩ : ∃ u, v.raise 0x90 devUnit = u := ⟨_, rfl⟩
  have hroot' : u.sec.root = false := by
    obtain ⟨_, _, _, _, hstate⟩ := (hu ▸ raiseFrame_raise v 0x90 devUnit : RaiseFrame _ _ v u).state
    rw [hstate]
    exact hroot
  have hrun : exec (.tamper cause) s = .next ((u.chipReset 3).setReg Reg.SEC_TAMPER 0 0 cause.toNat) := by
    show execTamper cause s = _
    unfold execTamper
    rw [if_neg (by rw [hon]; decide)]
    dsimp only
    rw [hv, hu]
  obtain ⟨-, hsessions, -, hpow, -, -, hkey, hsec⟩ := u.resetFields_chipReset 3
  have hlast := u.lastReset_chipReset (cause := 3) (by decide)
  have hspm := u.chipReset_spm 3
  obtain ⟨w, hw⟩ : ∃ w, u.chipReset 3 = w := ⟨_, rfl⟩
  rw [hw] at hrun hsessions hpow hkey hsec hlast hspm
  have honly := onlyRegs_setReg w Reg.SEC_TAMPER 0 0 cause.toNat
  refine ⟨_, hrun, ?_, (honly.rf (by decide) _ _).trans hlast, ?_, hkey, hsessions, ?_, fun k => (congrArg Core.spm (honly.core k)).trans (hspm k)⟩
  · have hlt := cause.isLt
    rw [State.rf, State.reg_setReg_self, bitsOf]
    omega
  · exact (congrArg Sec.root hsec).trans hroot'
  · exact congrArg Pow.booted hpow

/-! ### An installation begins (R475) -/

section
variable {s t : State} {h : Hdr} {x : Session} {f g : FwImage} {r : Reply}

/-- Whether firmware may be written rests on what sensing remembers and on words outside `SEC_FW`. -/
theorem State.fwWriteOk_congr (hsense : t.sense = s.sense) (hword : ∀ a, a ≠ Reg.SEC_FW.addr 0 0 → t.word a = s.word a) :
    t.fwWriteOk = s.fwWriteOk := by
  have hrf : ∀ (f : RegFam) i j hi lo, f.addr i j ≠ Reg.SEC_FW.addr 0 0 → t.rf f i j hi lo = s.rf f i j hi lo := fun f i j hi lo ha =>
    State.rf_of_word (hword _ ha) _ _
  simp only [State.fwWriteOk, State.writesOk, State.shut, State.safe, State.holdup, hsense]
  rw [hrf Reg.FCL_SRCn_STAT _ _ _ _ (by decide), hrf Reg.FCL_SRCn_STAT _ _ _ _ (by decide), hrf Reg.FCL_STATE _ _ _ _ (by decide),
    hrf Reg.HKA_CHn_LAST _ _ _ _ (by decide), hrf Reg.PWR_HOLDUP_CAP _ _ _ _ (by decide)]

/-- Whether a die writes rests on what writes and on words outside `SEC_FW`. -/
theorem State.nvWriting_of_words (hprog : t.prog = s.prog) (hmaint : t.maint = s.maint) (hcores : t.cores = s.cores)
    (hword : ∀ a, a ≠ Reg.SEC_FW.addr 0 0 → t.word a = s.word a) (die : Nat) : t.nvWriting die = s.nvWriting die := by
  have hstep : t.rf Reg.WGT_MAINT 0 0 2 0 = s.rf Reg.WGT_MAINT 0 0 2 0 := State.rf_of_word (hword _ (by decide)) _ _
  have harr : ∀ x a, t.rf Reg.ARY_STATEa x a 18 16 = s.rf Reg.ARY_STATEa x a 18 16 := fun x a =>
    State.rf_of_word (hword _ (by simp only [RegFam.addr, Reg.ARY_STATEa, Reg.SEC_FW]; omega)) _ _
  have hwriting : t.maintWriting = s.maintWriting := by
    unfold State.maintWriting
    simp only [hmaint, hstep, harr]
  unfold State.nvWriting
  rw [hprog, hcores, hwriting]

/-- The job of an installation has begun. -/
def State.fwBegun (s : State) (g : FwImage) (r : Reply) : State :=
  let s := (s.setRf Reg.SEC_FW 0 0 25 24 2).updArea 2 (fun a => { a with busy := true })
  { s with jobs := { s.jobs with fw := some r, fwImage := some g } }

/-- An installation that passes its checks. -/
def State.fwStart (s : State) (g : FwImage) : State :=
  if !s.fwWriteOk then s.holdupCheck 0 400 else if s.nvWriting 0 then s else s.fwBegin g

/-- What an installation makes of the state in which its command has been taken. -/
def State.fwRun (f : FwImage) (s : State) (r : Reply) : State :=
  if s.fwCheck (s.staged f) ≠ stOk then s.answer r (s.fwCheck (s.staged f)) [] else (s.fwBegun (s.staged f) r).fwStart (s.staged f)

theorem execFwInstall_eq : execFwInstall h f s = s.command h (opRowM 0x0182) true true true fun s _ r => s.fwRun f r := rfl

theorem exec_fwInstall (ha : s.accepts h (opRowM 0x0182) true true true x) :
    exec (.fwInstall h f) s = finish ((s.taken h).fwRun f (replyTo h 0x0182)) :=
  Eq.trans execFwInstall_eq (State.command_of_accepts ha)

theorem fwInstall_rejected (hc : s.calm) (ha : s.accepts h (opRowM 0x0182) true true true x) (hcheck : s.fwCheck (s.staged f) ≠ stOk)
    (hroom : s.room Reg.HPT_CMD_REJECT 0 0 1) :
    exec (.fwInstall h f) s = .next ((s.taken h).answer (replyTo h 0x0182) (s.fwCheck (s.staged f)) []) := by
  have hrun : (s.taken h).fwRun f (replyTo h 0x0182) = (s.taken h).answer (replyTo h 0x0182) (s.fwCheck (s.staged f)) [] := if_pos hcheck
  rw [exec_fwInstall ha, hrun]
  exact finish_of_calm hc (State.answer_fcl_of_room _ _ _ _ hroom)

/-- The state that an installation that has begun leaves, with its registers. -/
def State.fwWith (s : State) (g : FwImage) (r : Reply) (regs : SMap (BitVec 64)) : State :=
  { s with
    regs := regs
    jobs := { s.jobs with fw := some r, fwImage := some g }
    hpt := { s.hpt with areas := s.hpt.areas.modify 2 (fun a => { a with busy := true }) } }

theorem State.fwBegun_spec (s : State) (g : FwImage) (r : Reply) : ∃ regs, s.fwBegun g r = s.fwWith g r regs ∧
    (s.fwBegun g r).rf Reg.SEC_FW 0 0 25 24 = 2 ∧ ∀ a, a ≠ Reg.SEC_FW.addr 0 0 → (s.fwBegun g r).word a = s.word a := by
  have honly := onlyRegs_setRf s Reg.SEC_FW 0 0 25 24 2
  have hset : (s.setRf Reg.SEC_FW 0 0 25 24 2).rf Reg.SEC_FW 0 0 25 24 = 2 := State.rf_setRf_self _ _ _ _ _ _ (by decide)
  unfold State.fwBegun
  obtain ⟨v, hv⟩ : ∃ v, s.setRf Reg.SEC_FW 0 0 25 24 2 = v := ⟨_, rfl⟩
  rw [hv] at honly hset ⊢
  refine ⟨v.regs, ?_, hset, fun a ha => honly.2 a (by simpa using ha)⟩
  rw [honly.1]
  rfl

theorem State.fwBegun_writes (s : State) (g : FwImage) (r : Reply) :
    (s.fwBegun g r).fwWriteOk = s.fwWriteOk ∧ (s.fwBegun g r).nvWriting 0 = s.nvWriting 0 := by
  obtain ⟨regs, hstate, -, hword⟩ := s.fwBegun_spec g r
  rw [hstate] at hword ⊢
  exact ⟨State.fwWriteOk_congr rfl hword, State.nvWriting_of_words (s := s) (t := s.fwWith g r regs) rfl rfl rfl hword 0⟩

theorem fwInstall_accepted (ha : s.accepts h (opRowM 0x0182) true true true x) (hcheck : s.fwCheck (s.staged f) = stOk) :
    ∃ v : State, exec (.fwInstall h f) s = finish (v.fwStart (s.staged f)) ∧
      v = (s.taken h).fwWith (s.staged f) (replyTo h 0x0182) v.regs ∧
      v.rf Reg.SEC_FW 0 0 25 24 = 2 ∧ (∀ a, a ≠ Reg.SEC_FW.addr 0 0 → v.word a = s.word a) ∧
      v.fwWriteOk = s.fwWriteOk ∧ v.nvWriting 0 = s.nvWriting 0 := by
  have hrun : (s.taken h).fwRun f (replyTo h 0x0182) = ((s.taken h).fwBegun (s.staged f) (replyTo h 0x0182)).fwStart (s.staged f) :=
    if_neg fun hne => hne hcheck
  obtain ⟨regs, hstate, hshown, hword⟩ := (s.taken h).fwBegun_spec (s.staged f) (replyTo h 0x0182)
  obtain ⟨hok, hnv⟩ := (s.taken h).fwBegun_writes (s.staged f) (replyTo h 0x0182)
  have hexec := (exec_fwInstall ha).trans (congrArg finish hrun)
  rw [hstate] at hexec hshown hword hok hnv
  exact ⟨_, hexec, rfl, hshown, hword, hok, hnv⟩

/-- An installation that may write marks the flash invalid, where no other write runs. -/
theorem fwInstall_writes (hc : s.calm) (ha : s.accepts h (opRowM 0x0182) true true true x) (hcheck : s.fwCheck (s.staged f) = stOk)
    (hok : s.fwWriteOk = true) : ∃ t, exec (.fwInstall h f) s = .next t ∧
      (s.nvWriting 0 = false →
        t = { (s.taken h).fwWith (s.staged f) (replyTo h 0x0182) t.regs with sec := { s.sec with flash := some { s.staged f with bytes := [] } } }) ∧
      (s.nvWriting 0 = true → t = (s.taken h).fwWith (s.staged f) (replyTo h 0x0182) t.regs) ∧
      t.rf Reg.SEC_FW 0 0 25 24 = 2 ∧ ∀ w, w ≠ Reg.SEC_FW.addr 0 0 → t.word w = s.word w := by
  obtain ⟨v, hrun, hstate, hshown, hword, hok', hnv⟩ := fwInstall_accepted ha hcheck
  have hfcl : v.fcl = s.fcl := by rw [hstate]; rfl
  have hstart : v.fwStart (s.staged f) = if s.nvWriting 0 then v else v.fwBegin (s.staged f) := by
    unfold State.fwStart
    rw [hok', hok, hnv]
    rfl
  rw [hrun, hstart]
  cases hwriting : s.nvWriting 0 with
  | true => exact ⟨v, finish_of_calm hc hfcl, Bool.noConfusion, fun _ => hstate, hshown, hword⟩
  | false =>
    refine ⟨v.fwBegin (s.staged f), finish_of_calm hc hfcl, fun _ => ?_, Bool.noConfusion, hshown, hword⟩
    have hbegin : ∀ u : State, u.fwBegin (s.staged f) = { u with sec := { u.sec with flash := some { s.staged f with bytes := [] } } } := fun _ => rfl
    rw [hbegin, hstate]
    rfl

/-- An installation short of hold-up waits, and counts a deferral. -/
theorem fwInstall_defers (hc : s.calm) (ha : s.accepts h (opRowM 0x0182) true true true x) (hcheck : s.fwCheck (s.staged f) = stOk)
    (hbank : s.holdup 400 = false) (hroom : s.room Reg.PWR_HOLDUP_DEFER 0 0 1) (hs : s.mild [0x7D]) :
    ∃ q t, exec (.fwInstall h f) s = .next t ∧ Raised q t 0x7D 0 ∧ q = (s.taken h).fwWith (s.staged f) (replyTo h 0x0182) q.regs ∧ q.rf Reg.SEC_FW 0 0 25 24 = 2 ∧
      q.reg Reg.PWR_HOLDUP_DEFER 0 0 = s.reg Reg.PWR_HOLDUP_DEFER 0 0 + 1 ∧
      ∀ w, w ∉ [Reg.SEC_FW.addr 0 0, Reg.PWR_HOLDUP_DEFER.addr 0 0] → q.word w = s.word w := by
  obtain ⟨v, hrun, hstate, hshown, hword, hok, -⟩ := fwInstall_accepted ha hcheck
  have hstart : v.fwStart (s.staged f) = v.holdupCheck 0 400 := by
    unfold State.fwStart
    rw [hok, State.fwWriteOk, hbank, Bool.and_false]
    rfl
  have hcalm : v.calm := State.calm_congr (by rw [hstate]; rfl) hc
  have hdefer : v.reg Reg.PWR_HOLDUP_DEFER 0 0 = s.reg Reg.PWR_HOLDUP_DEFER 0 0 := State.reg_of_word (hword _ (by decide))
  have hbank' : v.holdup 400 = false := by
    rw [← hbank]
    have hcode : v.rf Reg.HKA_CHn_LAST 0 30 13 0 = s.rf Reg.HKA_CHn_LAST 0 30 13 0 := State.rf_of_word (hword _ (by decide)) _ _
    have hcap : v.rf Reg.PWR_HOLDUP_CAP 0 0 15 0 = s.rf Reg.PWR_HOLDUP_CAP 0 0 15 0 := State.rf_of_word (hword _ (by decide)) _ _
    rw [State.holdup, State.holdup, hcode, hcap]
  have hmild : v.mild [0x7D] := fun n hn => by
    have hsmall : n < 256 := (by decide : ∀ n ∈ [0, 1, 0x7D], n < 256) n hn
    have hcfg : v.rf Reg.FCL_SRCn_CFG 0 n 15 8 = s.rf Reg.FCL_SRCn_CFG 0 n 15 8 := State.rf_of_word (hword _ (by
      simp only [RegFam.addr, Reg.FCL_SRCn_CFG, Reg.SEC_FW]
      omega)) _ _
    rw [hcfg]
    exact hs n hn
  obtain ⟨q, t, hend, hraised, honly, hcount⟩ := holdupCheck_defers (die := 0) hcalm (by decide) hbank' (State.room_of_reg hdefer hroom) hmild
  refine ⟨q, t, by rw [hrun, hstart, hend], hraised, ?_, (honly.rf (by decide) _ _).trans hshown, hcount.trans (by rw [hdefer]), fun w hw => ?_⟩
  · rw [honly.1, hstate]
    rfl
  · simp only [List.mem_cons, List.not_mem_nil, or_false, not_or] at hw
    exact (honly.2 w (by simpa using hw.2)).trans (hword w hw.1)

end

end Sys2Proof.Machine
end

section
/-! SUPPORT. The firmware's security version across a chip reset (R408, R477). -/

namespace Sys2Proof.Machine

/-! ### The words at one address -/

section
variable {α : Type}

/-- The entries that a map holds at a key. -/
def entriesAt (m : SMap α) (a : Nat) : SMap α := m.filter fun c => c.1 == a

theorem get_entriesAt (m : SMap α) (d : α) (a : Nat) : SMap.get (entriesAt m a) d a = SMap.get m d a :=
  SMap.get_filter m d a _ fun _ _ hc => beq_iff_eq.mpr hc

theorem entriesAt_filter {m : SMap α} {a : Nat} {p : Nat × α → Bool} (h : ∀ c : Nat × α, c.1 = a → p c = true) :
    entriesAt (m.filter p) a = entriesAt m a := by
  unfold entriesAt
  rw [List.filter_filter]
  refine List.filter_congr fun c _ => ?_
  by_cases hc : c.1 = a
  · simp [hc, h c hc]
  · simp [hc]

theorem entriesAt_filter_none {m : SMap α} {a : Nat} {p : Nat × α → Bool} (h : ∀ c : Nat × α, c.1 = a → p c = false) :
    entriesAt (m.filter p) a = [] :=
  List.filter_eq_nil_iff.mpr fun c hc hca => by
    have := (List.mem_filter.mp hc).2
    rw [h c (beq_iff_eq.mp hca)] at this
    cases this

theorem entriesAt_append (l r : SMap α) (a : Nat) : entriesAt (l ++ r) a = entriesAt l a ++ entriesAt r a := List.filter_append l r

/-- Writing elsewhere leaves the entries at a key. -/
theorem entriesAt_put_of_ne [DecidableEq α] (m : SMap α) (d : α) {a b : Nat} (v : α) (h : b ≠ a) : entriesAt (SMap.put m d b v) a = entriesAt m a := by
  unfold SMap.put
  split
  · exact entriesAt_filter fun c hc => by simpa [hc] using Ne.symm h
  · have hmid : entriesAt ((b, v) :: m.filter fun c => decide (b < c.1)) a = entriesAt (m.filter fun c => decide (b < c.1)) a :=
      List.filter_cons_of_neg (by simpa using h)
    rw [SMap.insert, entriesAt_append, hmid]
    rcases Nat.lt_or_gt_of_ne h with hlt | hgt
    · rw [entriesAt_filter_none fun c hc => by simp; omega, List.nil_append]
      exact entriesAt_filter fun c hc => by simpa [hc] using hlt
    · rw [entriesAt_filter_none (p := fun c => decide (b < c.1)) fun c hc => by simp; omega, List.append_nil]
      exact entriesAt_filter fun c hc => by simpa [hc] using hgt

/-- A key that has been written has one entry at most. -/
theorem length_entriesAt_put [DecidableEq α] (m : SMap α) (d : α) (a : Nat) (v : α) : (entriesAt (SMap.put m d a v) a).length ≤ 1 := by
  unfold SMap.put
  split
  · rw [SMap.erase, entriesAt_filter_none fun c hc => by simp [hc]]
    exact Nat.zero_le _
  · have hmid : entriesAt ((a, v) :: m.filter fun c => decide (a < c.1)) a = (a, v) :: entriesAt (m.filter fun c => decide (a < c.1)) a :=
      List.filter_cons_of_pos (by simp)
    rw [SMap.insert, entriesAt_append, hmid, entriesAt_filter_none fun c hc => by simp; omega,
      entriesAt_filter_none fun c hc => by simp; omega]
    exact Nat.le_refl _

end

/-! ### What a chip reset keeps of `SEC_FW` -/

theorem entriesAt_filterMap_keepReg (m : SMap (BitVec 64)) (a : Nat) :
    entriesAt (m.filterMap keepReg) a = (entriesAt m a).filterMap keepReg := by
  induction m with
  | nil => rfl
  | cons r m ih =>
    have hcons : entriesAt (r :: m) a = if r.1 = a then r :: entriesAt m a else entriesAt m a := by
      simp only [entriesAt, List.filter_cons, beq_iff_eq]
    rw [List.filterMap_cons, hcons]
    cases hr : keepReg r with
    | none =>
      by_cases hra : r.1 = a
      · rw [if_pos hra, List.filterMap_cons, hr]
        exact ih
      · rw [if_neg hra]
        exact ih
    | some k =>
      have hcons' : entriesAt (k :: m.filterMap keepReg) a = if r.1 = a then k :: entriesAt (m.filterMap keepReg) a else entriesAt (m.filterMap keepReg) a := by
        simp only [entriesAt, List.filter_cons, beq_iff_eq, keepReg_key hr]
      refine hcons'.trans ?_
      by_cases hra : r.1 = a
      · rw [if_pos hra, if_pos hra, List.filterMap_cons, hr, ih]
      · rw [if_neg hra, if_neg hra, ih]

/-- Of the word of the firmware a chip reset keeps the least version alone (R408). -/
theorem keepReg_fw (v : BitVec 64) : keepReg (Reg.SEC_FW.addr 0 0, v) =
    let w := BitVec.ofNat 64 (bitsOf v.toNat 13 8 * 2 ^ 8)
    if w = 0 then none else some (Reg.SEC_FW.addr 0 0, w) := by
  have hat : regAt (Reg.SEC_FW.addr 0 0) = some (Reg.SEC_FW, 0, 0, 0) := by decide +kernel
  simp only [keepReg, hat]
  rfl

theorem bits_kept (v : Nat) : bitsOf (BitVec.ofNat 64 (bitsOf v 13 8 * 2 ^ 8)).toNat 13 8 = bitsOf v 13 8 := by
  rw [BitVec.toNat_ofNat, bitsOf, bitsOf]
  omega

/-- The least version stands across a chip reset, where its register has been written (R408). -/
theorem State.minVersion_chipReset {s : State} (cause : Nat) (hone : (entriesAt s.regs (Reg.SEC_FW.addr 0 0)).length ≤ 1) :
    (s.chipReset cause).rf Reg.SEC_FW 0 0 13 8 = s.rf Reg.SEC_FW 0 0 13 8 := by
  obtain ⟨t, -, hregs, honly, -⟩ := s.chipReset_frame cause
  rw [honly.rf (by decide), State.rf, State.rf, State.reg, State.reg, hregs, ← get_entriesAt (s.regs.filterMap keepReg), ← get_entriesAt s.regs,
    entriesAt_filterMap_keepReg]
  obtain ⟨l, hl⟩ : ∃ l, entriesAt s.regs (Reg.SEC_FW.addr 0 0) = l := ⟨_, rfl⟩
  have hkeys : ∀ c ∈ l, c.1 = Reg.SEC_FW.addr 0 0 := fun c hc => beq_iff_eq.mp (List.mem_filter.mp (hl ▸ hc : c ∈ entriesAt s.regs _)).2
  rw [hl] at hone ⊢
  match l, hone, hkeys with
  | [], _, _ => rfl
  | [(a, v)], _, hkeys =>
    have ha : a = Reg.SEC_FW.addr 0 0 := hkeys (a, v) List.mem_cons_self
    have hself : SMap.get [(Reg.SEC_FW.addr 0 0, v)] (BitVec.ofNat 64 (Reg.SEC_FW.default 0)) (Reg.SEC_FW.addr 0 0) = v := if_pos rfl
    have hbits := bits_kept v.toNat
    rw [ha, hself, List.filterMap_cons, keepReg_fw]
    dsimp only
    obtain ⟨w, hw⟩ : ∃ w, BitVec.ofNat 64 (bitsOf v.toNat 13 8 * 2 ^ 8) = w := ⟨_, rfl⟩
    rw [hw] at hbits ⊢
    by_cases hzero : w = 0
    · rw [if_pos hzero, ← hbits, hzero]
      rfl
    · rw [if_neg hzero, ← hbits]
      exact congrArg (fun x : BitVec 64 => bitsOf x.toNat 13 8) (if_pos rfl)
  | _ :: _ :: _, hone, _ => simp at hone

/-! ### What an answer leaves of a register's entries -/

theorem entriesAt_setReg {s : State} {f : RegFam} {i j a : Nat} (v : Nat) (h : f.addr i j ≠ a) :
    entriesAt (s.setReg f i j v).regs a = entriesAt s.regs a := entriesAt_put_of_ne _ _ _ h

theorem State.shutSession_regs (s : State) (n : Nat) : (s.shutSession n).regs = s.regs := by
  unfold State.shutSession
  split
  · rfl
  · split
    · dsimp only
      split
      · rfl
      · rfl
    · rfl

theorem entriesAt_closeSession {a : Nat} (h : Reg.HPT_TX_MSGS.addr 0 0 ≠ a) (s : State) (n reason : Nat) :
    entriesAt (s.closeSession n reason).regs a = entriesAt s.regs a := by
  unfold State.closeSession
  split
  · rfl
  · split
    · rfl
    · rw [State.shutSession_regs]
      exact entriesAt_setReg _ h

theorem entriesAt_answer_ok {a : Nat} (h : Reg.HPT_TX_MSGS.addr 0 0 ≠ a) (s : State) (r : Reply) (d : List Byte) :
    entriesAt (s.answer r stOk d).regs a = entriesAt s.regs a := by
  have hsend : ∀ (s : State) (n : Nat) (bs : List Byte), entriesAt (s.sendAnswer n bs).regs a = entriesAt s.regs a := fun s n bs => by
    unfold State.sendAnswer
    split
    · rfl
    · dsimp only
      split
      · exact (entriesAt_closeSession h _ _ _).trans (entriesAt_setReg _ h)
      · exact entriesAt_setReg _ h
  exact hsend (s.updSession r.session fun x => { x with unanswered := x.unanswered.erase r.tag }) _ _

theorem State.calm_chipReset (s : State) (cause : Nat) : (s.chipReset cause).calm := by
  unfold State.chipReset
  dsimp only
  split
  · exact ⟨rfl, rfl, rfl⟩
  · exact ⟨rfl, rfl, rfl⟩

end Sys2Proof.Machine
end

section
/-! SUPPORT. The end of an installation of firmware (R475, R477). -/

namespace Sys2Proof.Machine

section
variable {s : State} {f : FwImage} {r : Reply}

/-- An installation's end that meets a short bank counts a deferral. -/
theorem fwInstallDone_defers (hc : s.calm) (hjob : s.jobs.fw = some r) (himage : s.jobs.fwImage = some f) (hbank : s.holdup 400 = false)
    (hroom : s.room Reg.PWR_HOLDUP_DEFER 0 0 1) (hs : s.mild [0x7D]) (b : Bool) : ∃ q t, exec (.fwInstallDone b) s = .next t ∧ Raised q t 0x7D 0 ∧
      OnlyRegs s q [Reg.PWR_HOLDUP_DEFER.addr 0 0] ∧ q.reg Reg.PWR_HOLDUP_DEFER 0 0 = s.reg Reg.PWR_HOLDUP_DEFER 0 0 + 1 := by
  have hrun : exec (.fwInstallDone b) s = finish (s.holdupCheck 0 400) := by
    show execFwInstallDone b s = _
    unfold execFwInstallDone
    rw [hjob, himage]
    exact if_pos (by rw [State.fwWriteOk, hbank, Bool.and_false]; rfl)
  obtain ⟨q, t, hend, hrest⟩ := holdupCheck_defers (die := 0) hc (by decide) hbank hroom hs
  exact ⟨q, t, hrun.trans hend, hrest⟩

/-- The state in which an installation has ended, its image in flash. -/
def State.fwEnded (s : State) (f : FwImage) : State :=
  let s := ({ s with jobs := { s.jobs with fw := none, fwImage := none } } : State).updArea 2 (fun _ => areaReset)
  { s with sec := { s.sec with flash := some f } }

/-- An image that has been read back is shown. -/
def State.fwShown (s : State) (f : FwImage) : State := ((s.fwEnded f).setRf Reg.SEC_FW 0 0 13 8 f.svn).setRf Reg.SEC_FW 0 0 25 24 0

/-- An image that has not been read back is shown. -/
def State.fwFailed (s : State) (f : FwImage) : State := (s.fwEnded { f with bytes := [] }).setRf Reg.SEC_FW 0 0 25 24 3

/-- After a recovery boot a chip reset follows. -/
def State.fwRecovered (s : State) : Out :=
  if s.recovery then finish (({ s with sec := { s.sec with recovered := true } } : State).chipReset 3) else finish s

/-- The end of an installation whose write may go on. -/
def State.fwEnd (readBackOk : Bool) (r : Reply) (f : FwImage) (s : State) : Out :=
  let s := ({ s with jobs := { s.jobs with fw := none, fwImage := none } } : State).updArea 2 (fun _ => areaReset)
  if readBackOk then
    let s : State := { s with sec := { s.sec with flash := some f } }
    let s := ((s.setRf Reg.SEC_FW 0 0 13 8 f.svn).setRf Reg.SEC_FW 0 0 25 24 0).answer r stOk []
    if s.recovery then finish (({ s with sec := { s.sec with recovered := true } } : State).chipReset 3) else finish s
  else finish ((((s.fwBegin f).setRf Reg.SEC_FW 0 0 25 24 3).answer r stAuth []).raise 0x93 devUnit)

theorem State.fwEnd_true (s : State) : s.fwEnd true r f = ((s.fwShown f).answer r stOk []).fwRecovered := by
  unfold State.fwEnd State.fwRecovered
  extract_lets _ _ _ _ c
  have hc : (s.fwShown f).answer r stOk [] = c := rfl
  rw [hc]
  exact if_pos rfl

theorem State.fwEnd_false (s : State) : s.fwEnd false r f = finish (((s.fwFailed f).answer r stAuth []).raise 0x93 devUnit) := by
  unfold State.fwEnd
  extract_lets _ a
  have ha : s.fwFailed f = (a.fwBegin f).setRf Reg.SEC_FW 0 0 25 24 3 := rfl
  rw [ha]
  exact if_neg Bool.false_ne_true

theorem exec_fwInstallDone (hjob : s.jobs.fw = some r) (himage : s.jobs.fwImage = some f) (hok : s.fwWriteOk = true) (hnv : s.nvWriting 0 = false)
    (b : Bool) : exec (.fwInstallDone b) s = s.fwEnd b r f := by
  show execFwInstallDone b s = _
  unfold execFwInstallDone
  rw [hjob, himage]
  exact (if_neg (by rw [hok]; decide)).trans (if_neg (by rw [hnv]; decide))

theorem State.fwShown_spec (s : State) {f : FwImage} (hsvn : f.svn < 64) : OnlyRegs (s.fwEnded f) (s.fwShown f) [Reg.SEC_FW.addr 0 0] ∧
    (s.fwShown f).rf Reg.SEC_FW 0 0 13 8 = f.svn ∧ (s.fwShown f).rf Reg.SEC_FW 0 0 25 24 = 0 ∧
    (s.fwShown f).recovery = s.recovery ∧ (entriesAt (s.fwShown f).regs (Reg.SEC_FW.addr 0 0)).length ≤ 1 := by
  obtain ⟨v, hv⟩ : ∃ v, (s.fwEnded f).setRf Reg.SEC_FW 0 0 13 8 f.svn = v := ⟨_, rfl⟩
  have honly : OnlyRegs (s.fwEnded f) v [Reg.SEC_FW.addr 0 0] := hv ▸ onlyRegs_setRf _ _ _ _ _ _ _
  have hversion : v.rf Reg.SEC_FW 0 0 13 8 = f.svn := by
    rw [← hv, State.rf_setRf_self _ _ _ _ _ _ (by decide)]
    exact Nat.mod_eq_of_lt hsvn
  have hsource : v.rf Reg.SEC_FW 0 0 16 16 = s.rf Reg.SEC_FW 0 0 16 16 := hv ▸ State.rf_setRf_apart _ _ _ _ _ (by decide) (by decide)
  unfold State.fwShown
  rw [hv]
  refine ⟨honly.trans (onlyRegs_setRf _ _ _ _ _ _ _), (State.rf_setRf_apart _ _ _ _ _ (by decide) (by decide)).trans hversion,
    State.rf_setRf_self _ _ _ _ _ _ (by decide), ?_, length_entriesAt_put _ _ _ _⟩
  rw [State.recovery, State.recovery, State.rf_setRf_apart _ _ _ _ _ (by decide) (by decide), hsource]

theorem AnswerFrame.recovery {s t : State} (h : AnswerFrame s t) : t.recovery = s.recovery := by
  rw [State.recovery, State.recovery, h.rf (by decide)]

/-- An image written and read back is answered. -/
theorem fwInstallDone_good (hc : s.calm) (hjob : s.jobs.fw = some r) (himage : s.jobs.fwImage = some f) (hok : s.fwWriteOk = true)
    (hnv : s.nvWriting 0 = false) (hrecovery : s.recovery = false) (hsvn : f.svn < 64) :
    ∃ t : State, exec (.fwInstallDone true) s = .next (t.answer r stOk []) ∧ t = { s.fwEnded f with regs := t.regs } ∧
      t.rf Reg.SEC_FW 0 0 13 8 = f.svn ∧ t.rf Reg.SEC_FW 0 0 25 24 = 0 ∧ ∀ w, w ≠ Reg.SEC_FW.addr 0 0 → t.word w = s.word w := by
  obtain ⟨honly, hversion, hinstall, hsource, -⟩ := s.fwShown_spec hsvn
  have hframe := answerFrame_answer_ok (s.fwShown f) r []
  have hrun : ((s.fwShown f).answer r stOk []).fwRecovered = finish ((s.fwShown f).answer r stOk []) :=
    if_neg (by rw [hframe.recovery, hsource, hrecovery]; decide)
  refine ⟨s.fwShown f, ?_, honly.1, hversion, hinstall, fun w hw => honly.2 w (by simpa using hw)⟩
  rw [exec_fwInstallDone hjob himage hok hnv, State.fwEnd_true, hrun]
  exact finish_of_calm hc ((State.answer_ok_fcl _ _ _).trans honly.fcl)

/-- After a recovery boot the device resets, and keeps what has been installed. -/
theorem fwInstallDone_recovery (hjob : s.jobs.fw = some r) (himage : s.jobs.fwImage = some f) (hok : s.fwWriteOk = true)
    (hnv : s.nvWriting 0 = false) (hrecovery : s.recovery = true) (hsvn : f.svn < 64) :
    ∃ t, exec (.fwInstallDone true) s = .next t ∧ t.rf Reg.FCL_STATE 0 0 17 16 = 3 ∧ t.sec.flash = some f ∧ t.sec.recovered = true ∧
      t.pow.booted = false ∧ t.hpt.sessions = [] ∧ t.rf Reg.SEC_FW 0 0 13 8 = f.svn := by
  obtain ⟨honly, hversion, -, hsource, hone⟩ := s.fwShown_spec hsvn
  have hframe := answerFrame_answer_ok (s.fwShown f) r []
  have hentries := entriesAt_answer_ok (a := Reg.SEC_FW.addr 0 0) (by decide) (s.fwShown f) r []
  have hflash : ((s.fwShown f).answer r stOk []).sec.flash = some f := by
    obtain ⟨_, _, _, hstate⟩ := hframe.state
    rw [hstate, honly.1]
    rfl
  obtain ⟨w, hw⟩ : ∃ w, (s.fwShown f).answer r stOk [] = w := ⟨_, rfl⟩
  rw [hw] at hframe hentries hflash
  have hrun : w.fwRecovered = finish (({ w with sec := { w.sec with recovered := true } } : State).chipReset 3) :=
    if_pos (by rw [hframe.recovery, hsource, hrecovery])
  obtain ⟨v, hv⟩ : ∃ v : State, ({ w with sec := { w.sec with recovered := true } } : State) = v := ⟨_, rfl⟩
  have hregs : v.regs = w.regs := by rw [← hv]
  have hsec : v.sec = { w.sec with recovered := true } := by rw [← hv]
  rw [hv] at hrun
  have hcalm := v.calm_chipReset 3
  have hfields := v.resetFields_chipReset 3
  refine ⟨v.chipReset 3, ?_, v.lastReset_chipReset (by decide), ?_, ?_, by rw [hfields.pow], hfields.sessions, ?_⟩
  · rw [exec_fwInstallDone hjob himage hok hnv, State.fwEnd_true, hw, hrun]
    exact finish_of_calm hcalm rfl
  · rw [hfields.sec, hsec]
    exact hflash
  · rw [hfields.sec, hsec]
  · rw [State.minVersion_chipReset 3 (by rw [hregs, hentries]; exact hone), State.rf_congr hregs, hframe.rf (by decide)]
    exact hversion

/-- A rejection that has room counts, and leaves what an answer leaves. -/
theorem answerFrame_answer_rejected (s : State) (r : Reply) {st : Nat} (hst : ¬(st = stOk ∨ st = stComplete)) :
    AnswerFrame (s.err Reg.HPT_CMD_REJECT 0 0 1) (s.answer r st []) := by
  obtain ⟨v, hv⟩ : ∃ v, s.err Reg.HPT_CMD_REJECT 0 0 1 = v := ⟨_, rfl⟩
  have htag : AnswerFrame v (v.updSession r.session (fun x => x.replied r.tag)) := ⟨⟨_, _, _, rfl⟩, fun _ _ => rfl⟩
  unfold State.answer
  rw [if_neg hst, hv]
  exact htag.trans (answerFrame_sendAnswer _ _ _)

theorem AnswerFrame.mild {s t : State} {m : List Nat} (h : AnswerFrame s t) (hm : ∀ n ∈ m, n < 256) (hs : s.mild m) : t.mild m := fun n hn => by
  have hlt : n < 256 := by
    simp only [List.mem_cons] at hn
    rcases hn with rfl | rfl | hn
    · decide
    · decide
    · exact hm n hn
  rw [h.rf (by
    simp only [RegFam.addr, Reg.FCL_SRCn_CFG, Reg.HPT_TX_MSGS]
    omega)]
  exact hs n hn

/-- An image that reads back otherwise is rejected and raised. -/
theorem fwInstallDone_bad (hc : s.calm) (hjob : s.jobs.fw = some r) (himage : s.jobs.fwImage = some f) (hok : s.fwWriteOk = true)
    (hnv : s.nvWriting 0 = false) (hs : s.mild [0x93]) (hroom : s.room Reg.HPT_CMD_REJECT 0 0 1) :
    ∃ t : State, ∃ v, exec (.fwInstallDone false) s = .next v ∧ Raised (t.answer r stAuth []) v 0x93 devUnit ∧
      t = { s.fwEnded { f with bytes := [] } with regs := t.regs } ∧ t.rf Reg.SEC_FW 0 0 25 24 = 3 ∧
      ∀ w, w ≠ Reg.SEC_FW.addr 0 0 → t.word w = s.word w := by
  have honly : OnlyRegs (s.fwEnded { f with bytes := [] }) (s.fwFailed f) [Reg.SEC_FW.addr 0 0] := onlyRegs_setRf _ _ _ _ _ _ _
  have hinstall : (s.fwFailed f).rf Reg.SEC_FW 0 0 25 24 = 3 := State.rf_setRf_self _ _ _ _ _ _ (by decide)
  have hrun := (exec_fwInstallDone hjob himage hok hnv false).trans s.fwEnd_false
  obtain ⟨t, ht⟩ : ∃ t, s.fwFailed f = t := ⟨_, rfl⟩
  rw [ht] at honly hinstall hrun
  have hroom' : t.room Reg.HPT_CMD_REJECT 0 0 1 := honly.room (by decide) hroom
  have hmild : (t.answer r stAuth []).mild [0x93] := (answerFrame_answer_rejected t r (by decide)).mild (by decide)
    ((onlyRegs_err hroom').mild (by decide) (by decide) (honly.mild (by decide) (by decide) hs))
  have hcalm : (t.answer r stAuth []).calm := State.calm_congr ((State.answer_fcl_of_room _ _ _ _ hroom').trans honly.fcl) hc
  obtain ⟨hend, hraised⟩ := finish_raise (src := 0x93) (unit := devUnit) hcalm (by decide) (by decide) hmild
  exact ⟨t, _, hrun.trans hend, hraised, honly.1, hinstall, fun w hw => honly.2 w (by simpa using hw)⟩

end

end Sys2Proof.Machine
end

section
/-! SUPPORT. The life cycle (R472, R473): what a rejected record, the end of a transition and the start of an erasure make of the state. -/

namespace Sys2Proof.Machine

/-! ### The anchor table -/

/-- An entry of the anchor table is written. -/
def State.setAnchor (s : State) (n : Nat) (e : AnchorEntry) : State :=
  (List.range 8).foldl (fun (s : State) k => s.setReg Reg.SEC_ANCHOR_KEYnw n k (e.key.toNat / 2 ^ (32 * k) % 2 ^ 32))
    (s.setReg Reg.SEC_ANCHOR_ROLESn n 0 e.roles.toNat)

theorem State.setAnchors_eq (s : State) (t : List AnchorEntry) :
    s.setAnchors t = (List.range 8).foldl (fun (s : State) n => s.setAnchor n (t.getD n ⟨0, 0, 0⟩)) s := rfl

/-- The addresses of an entry of the anchor table. -/
def anchorAddrs (n : Nat) : List Nat := Reg.SEC_ANCHOR_ROLESn.addr n 0 :: (List.range 8).map fun k => Reg.SEC_ANCHOR_KEYnw.addr n k

theorem State.setAnchor_spec (s : State) (n : Nat) (e : AnchorEntry) : OnlyRegs s (s.setAnchor n e) (anchorAddrs n) ∧
    (s.setAnchor n e).reg Reg.SEC_ANCHOR_ROLESn n 0 = e.roles.toNat := by
  obtain ⟨v, hv⟩ : ∃ v, s.setReg Reg.SEC_ANCHOR_ROLESn n 0 e.roles.toNat = v := ⟨_, rfl⟩
  have honly : OnlyRegs s v [Reg.SEC_ANCHOR_ROLESn.addr n 0] := hv ▸ onlyRegs_setReg _ _ _ _ _
  have hroles : v.reg Reg.SEC_ANCHOR_ROLESn n 0 = e.roles.toNat := by
    have hlt := e.roles.isLt
    rw [← hv, State.reg_setReg_self]
    exact Nat.mod_eq_of_lt (by omega)
  have hkeys : OnlyRegs v (s.setAnchor n e) ((List.range 8).map fun k => Reg.SEC_ANCHOR_KEYnw.addr n k) := by
    unfold State.setAnchor
    rw [hv]
    exact OnlyRegs.foldl _ fun w k hk => (onlyRegs_setReg _ _ _ _ _).mono fun a ha => by
      rw [List.mem_singleton.mp ha]
      exact List.mem_map.mpr ⟨k, hk, rfl⟩
  refine ⟨honly.append hkeys, (hkeys.reg ?_).trans hroles⟩
  simp only [List.mem_map, List.mem_range, RegFam.addr, Reg.SEC_ANCHOR_ROLESn, Reg.SEC_ANCHOR_KEYnw]
  omega

theorem le_of_mem_anchorAddrs {n a : Nat} (h : a ∈ anchorAddrs n) : 0x70100 + 0x40 * n ≤ a ∧ a < 0x70140 + 0x40 * n := by
  rcases List.mem_cons.mp h with rfl | hkey
  · simp only [RegFam.addr, Reg.SEC_ANCHOR_ROLESn]
    omega
  · obtain ⟨k, hk, rfl⟩ := List.mem_map.mp hkey
    have := List.mem_range.mp hk
    simp only [RegFam.addr, Reg.SEC_ANCHOR_KEYnw]
    omega

/-- Writing the anchor table changes its registers alone, and shows its roles. -/
theorem State.setAnchors_spec (s : State) (t : List AnchorEntry) :
    OnlyRegs s (s.setAnchors t) ((List.range 8).flatMap anchorAddrs) ∧
    ∀ n, n < 8 → (s.setAnchors t).reg Reg.SEC_ANCHOR_ROLESn n 0 = (t.getD n ⟨0, 0, 0⟩).roles.toNat := by
  rw [State.setAnchors_eq]
  refine ⟨OnlyRegs.foldl _ fun v n hn => (v.setAnchor_spec n _).1.mono fun a ha => List.mem_flatMap.mpr ⟨n, hn, ha⟩, fun n hn => ?_⟩
  obtain ⟨-, -, hown⟩ := foldl_at (f := fun (s : State) n => s.setAnchor n (t.getD n ⟨0, 0, 0⟩)) (xs := List.range 8) (P := fun _ => True) (key := id)
    (g := fun w n => w.reg Reg.SEC_ANCHOR_ROLESn n 0) (fun _ _ _ => trivial)
    (fun w x k _ hk => (w.setAnchor_spec x _).1.reg fun hin => by
      have hbounds := le_of_mem_anchorAddrs hin
      simp only [RegFam.addr, Reg.SEC_ANCHOR_ROLESn, id] at hbounds hk
      omega) (s := s) trivial (nodup_range_id 8)
  obtain ⟨w, -, -, hset⟩ := hown n (List.mem_range.mpr hn)
  exact hset.trans (w.setAnchor_spec n _).2

theorem notMem_anchors {a : Nat} (h : a < 0x70100 ∨ 0x70340 ≤ a) : a ∉ (List.range 8).flatMap anchorAddrs := fun hin => by
  obtain ⟨n, hn, hin⟩ := List.mem_flatMap.mp hin
  have hbounds := le_of_mem_anchorAddrs hin
  have hsmall := List.mem_range.mp hn
  omega

/-! ### Sessions close -/

theorem State.variants_closeSession (s : State) (n reason : Nat) : (s.closeSession n reason).seq.variants = s.seq.variants := by
  have hshut : ∀ s : State, (s.shutSession n).seq.variants = s.seq.variants := fun s => by
    unfold State.shutSession
    split
    · rfl
    · split
      · dsimp only
        split
        · rfl
        · rfl
      · rfl
  unfold State.closeSession
  split
  · rfl
  · split
    · rfl
    · exact hshut _

theorem State.variants_answer (s : State) (r : Reply) (d : List Byte) : (s.answer r stOk d).seq.variants = s.seq.variants := by
  have hsend : ∀ (s : State) (n : Nat) (bs : List Byte), (s.sendAnswer n bs).seq.variants = s.seq.variants := fun s n bs => by
    unfold State.sendAnswer
    split
    · rfl
    · dsimp only
      split
      · exact State.variants_closeSession _ _ _
      · rfl
  exact hsend (s.updSession r.session fun x => { x with unanswered := x.unanswered.erase r.tag }) _ _

theorem closeAll_frame (s : State) (reason : Nat) (sel : Session → Bool) :
    AnswerFrame s (s.closeAll reason sel) ∧ (s.closeAll reason sel).fcl = s.fcl ∧ (s.closeAll reason sel).seq.variants = s.seq.variants := by
  have hall : ∀ (l : List Nat) (s : State), AnswerFrame s (l.foldl (fun s n => s.closeSession n reason) s) ∧
      (l.foldl (fun s n => s.closeSession n reason) s).fcl = s.fcl ∧
      (l.foldl (fun s n => s.closeSession n reason) s).seq.variants = s.seq.variants := fun l => by
    induction l with
    | nil => exact fun s => ⟨.refl s, rfl, rfl⟩
    | cons n l ih =>
      intro s
      obtain ⟨hframe, hfcl, hvariants⟩ := ih (s.closeSession n reason)
      exact ⟨(answerFrame_closeSession s n reason).trans hframe, hfcl.trans (s.closeSession_fcl n reason),
        hvariants.trans (s.variants_closeSession n reason)⟩
  exact hall _ s

/-! ### The end of a transition (steps 5 and 6 of R473) -/

/-- What the end of a transition keeps. -/
structure Transits (s t : State) : Prop where
  mem : t.mem = s.mem
  prog : t.prog = s.prog
  variants : t.seq.variants = s.seq.variants
  root : t.sec.root = s.sec.root
  draws : t.sec.rootDraws = s.sec.rootDraws

/-- The new state of the life cycle, with its count. -/
def State.lcState (s : State) (to_ : Nat) : State :=
  let n := s.rf Reg.SEC_LC_STATE 0 0 13 8
  (s.setReg Reg.SEC_LC_STATE 0 0 ((if n = 63 then (s.free 6).toNat else n + 1) * 2 ^ 8 + to_)).nextFree

/-- What becomes of the anchor table. -/
def State.lcAnchors (s : State) (r : LcRecord) (kind : Nat) : State :=
  if kind = 2 then s.setAnchors [] else if r.hasTable = 1 then s.setAnchors r.table else s

/-- A device that is RETIRED loses its secret. -/
def State.lcBlown (s : State) (r : LcRecord) : State := if r.to_.toNat = 4 then { s with sec := { s.sec with blown := true } } else s

/-- A device that is RETIRED has no session left. -/
def State.lcClosed (s : State) (r : LcRecord) : State := if r.to_ = 4 then s.closeAll 8 (fun _ => true) else s

section
variable {s : State} {rep : Reply} {r : LcRecord} {kind : Nat}

theorem State.lcFinish_eq : s.lcFinish rep r kind =
    (((((s.lcState r.to_.toNat).lcAnchors r kind).lcBlown r).raise 0x94 devUnit).answer rep stOk []).lcClosed r := rfl

theorem State.lcState_spec (s : State) {to_ : Nat} (hto : to_ < 8) : ∃ n, s.lcState to_ = { s with regs := (s.lcState to_).regs, freeCtr := n } ∧
    (∀ a, a ≠ Reg.SEC_LC_STATE.addr 0 0 → (s.lcState to_).word a = s.word a) ∧ (s.lcState to_).rf Reg.SEC_LC_STATE 0 0 2 0 = to_ ∧
    (s.rf Reg.SEC_LC_STATE 0 0 13 8 < 63 → (s.lcState to_).rf Reg.SEC_LC_STATE 0 0 13 8 = s.rf Reg.SEC_LC_STATE 0 0 13 8 + 1) := by
  obtain ⟨x, hx, hcount⟩ : ∃ x, x < 64 ∧ (s.rf Reg.SEC_LC_STATE 0 0 13 8 < 63 → x = s.rf Reg.SEC_LC_STATE 0 0 13 8 + 1) ∧
      s.lcState to_ = (s.setReg Reg.SEC_LC_STATE 0 0 (x * 2 ^ 8 + to_)).nextFree := by
    refine ⟨if s.rf Reg.SEC_LC_STATE 0 0 13 8 = 63 then (s.free 6).toNat else s.rf Reg.SEC_LC_STATE 0 0 13 8 + 1, ?_, fun h => if_neg (by omega), rfl⟩
    have hfree := (s.free 6).isLt
    have hold : s.rf Reg.SEC_LC_STATE 0 0 13 8 < 64 := by
      rw [State.rf, bitsOf]
      omega
    split
    · omega
    · omega
  obtain ⟨hcount, hstate⟩ := hcount
  have honly := onlyRegs_setReg s Reg.SEC_LC_STATE 0 0 (x * 2 ^ 8 + to_)
  have hset := State.reg_setReg_self s Reg.SEC_LC_STATE 0 0 (x * 2 ^ 8 + to_)
  rw [hstate]
  obtain ⟨v, hv⟩ : ∃ v, s.setReg Reg.SEC_LC_STATE 0 0 (x * 2 ^ 8 + to_) = v := ⟨_, rfl⟩
  rw [hv] at honly hset ⊢
  have hbits : ∀ hi lo, v.nextFree.rf Reg.SEC_LC_STATE 0 0 hi lo = bitsOf ((x * 2 ^ 8 + to_) % 2 ^ 64) hi lo := fun hi lo => by
    rw [← hset]
    rfl
  refine ⟨s.freeCtr + 1, ?_, fun a ha => honly.2 a (by simpa using ha), ?_, fun hlow => ?_⟩
  · have hfree : v.freeCtr = s.freeCtr := by rw [honly.1]
    rw [State.nextFree, hfree, honly.1]
  · rw [hbits, bitsOf]
    omega
  · rw [hbits, ← hcount hlow, bitsOf]
    omega

theorem State.lcAnchors_spec (s : State) (r : LcRecord) (kind : Nat) : OnlyRegs s (s.lcAnchors r kind) ((List.range 8).flatMap anchorAddrs) ∧
    (kind = 2 → ∀ n, n < 8 → (s.lcAnchors r kind).reg Reg.SEC_ANCHOR_ROLESn n 0 = 0) ∧
    (kind ≠ 2 → r.hasTable = 1 → ∀ n e, n < 8 → r.table[n]? = some e → (s.lcAnchors r kind).reg Reg.SEC_ANCHOR_ROLESn n 0 = e.roles.toNat) := by
  unfold State.lcAnchors
  by_cases hkind : kind = 2
  · rw [if_pos hkind]
    obtain ⟨honly, hroles⟩ := s.setAnchors_spec []
    exact ⟨honly, fun _ n hn => hroles n hn, fun h => absurd hkind h⟩
  · rw [if_neg hkind]
    by_cases htable : r.hasTable = 1
    · rw [if_pos htable]
      obtain ⟨honly, hroles⟩ := s.setAnchors_spec r.table
      refine ⟨honly, fun h => absurd h hkind, fun _ _ n e hn he => (hroles n hn).trans ?_⟩
      rw [List.getD_eq_getElem?_getD, he]
      rfl
    · rw [if_neg htable]
      exact ⟨.refl s _, fun h => absurd h hkind, fun _ h => absurd h htable⟩

/-- Blowing the secret changes nothing else. -/
theorem State.lcBlown_spec (s : State) (r : LcRecord) : ∃ sec, s.lcBlown r = { s with sec := sec } ∧ sec.root = s.sec.root ∧
    sec.rootDraws = s.sec.rootDraws ∧ (r.to_.toNat = 4 → sec.blown = true) := by
  unfold State.lcBlown
  by_cases hto : r.to_.toNat = 4
  · rw [if_pos hto]
    exact ⟨_, rfl, rfl, rfl, fun _ => rfl⟩
  · rw [if_neg hto]
    exact ⟨s.sec, rfl, rfl, rfl, fun h => absurd h hto⟩

theorem State.lcClosed_spec (s : State) (r : LcRecord) : AnswerFrame s (s.lcClosed r) ∧ (s.lcClosed r).fcl = s.fcl ∧
    (s.lcClosed r).seq.variants = s.seq.variants := by
  unfold State.lcClosed
  split
  · exact closeAll_frame s _ _
  · exact ⟨.refl s, rfl, rfl⟩

/-- The addresses that the end of a transition writes. -/
def lcAddrs : List Nat := Reg.SEC_LC_STATE.addr 0 0 :: (List.range 8).flatMap anchorAddrs

theorem notMem_lcAddrs {a : Nat} (h : a < 0x70000 ∨ 0x70340 ≤ a) : a ∉ lcAddrs := fun hin => by
  rcases List.mem_cons.mp hin with rfl | hin
  · simp only [RegFam.addr, Reg.SEC_LC_STATE] at h
    omega
  · exact notMem_anchors (by omega) hin

/-- What a transition's end has written before its answer. -/
structure Lapsed (s t : State) (r : LcRecord) (kind : Nat) : Prop where
  transits : Transits s t
  state : t.rf Reg.SEC_LC_STATE 0 0 2 0 = r.to_.toNat
  count : s.rf Reg.SEC_LC_STATE 0 0 13 8 < 63 → t.rf Reg.SEC_LC_STATE 0 0 13 8 = s.rf Reg.SEC_LC_STATE 0 0 13 8 + 1
  blown : r.to_.toNat = 4 → t.sec.blown = true
  erased : kind = 2 → ∀ n, n < 8 → t.reg Reg.SEC_ANCHOR_ROLESn n 0 = 0
  replaced : kind ≠ 2 → r.hasTable = 1 → ∀ n e, n < 8 → r.table[n]? = some e → t.reg Reg.SEC_ANCHOR_ROLESn n 0 = e.roles.toNat

theorem State.lapsed_lcBlown (s : State) (hto : r.to_.toNat < 8) : let t := ((s.lcState r.to_.toNat).lcAnchors r kind).lcBlown r
    Lapsed s t r kind ∧ t.fcl = s.fcl ∧ ∀ a, a ∉ lcAddrs → t.word a = s.word a := by
  obtain ⟨n, hstate, hword, hnew, hcount⟩ := s.lcState_spec hto
  obtain ⟨a, ha⟩ : ∃ a, s.lcState r.to_.toNat = a := ⟨_, rfl⟩
  rw [ha] at hstate hword hnew hcount ⊢
  obtain ⟨honly, herased, hreplaced⟩ := a.lcAnchors_spec r kind
  obtain ⟨b, hb⟩ : ∃ b, a.lcAnchors r kind = b := ⟨_, rfl⟩
  rw [hb] at honly herased hreplaced ⊢
  obtain ⟨sec, hblown, hroot, hdraws, hburnt⟩ := b.lcBlown_spec r
  dsimp only
  rw [hblown]
  have hlc : ∀ hi lo, b.rf Reg.SEC_LC_STATE 0 0 hi lo = a.rf Reg.SEC_LC_STATE 0 0 hi lo := honly.rf (notMem_anchors (by decide))
  have hsec : b.sec = s.sec := by rw [honly.1, hstate]
  refine ⟨⟨⟨?_, ?_, ?_, ?_, ?_⟩, (hlc 2 0).trans hnew, fun h => (hlc 13 8).trans (hcount h), hburnt, herased, hreplaced⟩, ?_, fun x hx => ?_⟩
  · rw [honly.1, hstate]
  · rw [honly.1, hstate]
  · rw [honly.1, hstate]
  · exact hroot.trans (by rw [hsec])
  · exact hdraws.trans (by rw [hsec])
  · show b.fcl = s.fcl
    rw [honly.1, hstate]
  · rw [lcAddrs, List.mem_cons, not_or] at hx
    exact (honly.2 x hx.2).trans (hword x hx.1)

/-- What a transition's end writes stands where the state's fields, its own registers and the variants stand. -/
theorem Lapsed.keep {t u : State} (h : Lapsed s t r kind) (hmem : u.mem = t.mem) (hprog : u.prog = t.prog) (hvariants : u.seq.variants = t.seq.variants)
    (hsec : u.sec = t.sec) (hword : ∀ a ∈ lcAddrs, u.word a = t.word a) : Lapsed s u r kind := by
  have hlc : ∀ hi lo, u.rf Reg.SEC_LC_STATE 0 0 hi lo = t.rf Reg.SEC_LC_STATE 0 0 hi lo := State.rf_of_word (hword _ List.mem_cons_self)
  have hroles : ∀ n, n < 8 → u.reg Reg.SEC_ANCHOR_ROLESn n 0 = t.reg Reg.SEC_ANCHOR_ROLESn n 0 := fun n hn =>
    State.reg_of_word (hword _ (List.mem_cons_of_mem _ (List.mem_flatMap.mpr ⟨n, List.mem_range.mpr hn, List.mem_cons_self⟩)))
  obtain ⟨⟨h1, h2, h3, h4, h5⟩, h6, h7, h8, h9, h10⟩ := h
  exact ⟨⟨hmem.trans h1, hprog.trans h2, hvariants.trans h3, by rw [hsec, h4], by rw [hsec, h5]⟩, (hlc 2 0).trans h6, fun h => (hlc 13 8).trans (h7 h),
    fun h => by rw [hsec, h8 h], fun h n hn => (hroles n hn).trans (h9 h n hn), fun h ht n e hn he => (hroles n hn).trans (h10 h ht n e hn he)⟩

theorem le_of_mem_lcAddrs {a : Nat} (h : a ∈ lcAddrs) : 0x70000 ≤ a ∧ a < 0x70340 := by
  by_contra hno
  exact notMem_lcAddrs (by omega) h

/-- A transition ends: the new state and its count, the anchor table, the blown secret, and the raise. -/
theorem State.lcFinish_spec (hc : s.calm) (hs : s.mild [0x94]) (hto : r.to_.toNat < 8) : (s.lcFinish rep r kind).calm ∧
    Lapsed s (s.lcFinish rep r kind) r kind ∧ (s.lcFinish rep r kind).rf Reg.FCL_SRCn_STAT 0 0x94 31 31 = 1 := by
  obtain ⟨hlapsed, hfcl, hword⟩ := s.lapsed_lcBlown (kind := kind) hto
  rw [State.lcFinish_eq]
  obtain ⟨c, hcdef⟩ : ∃ c, ((s.lcState r.to_.toNat).lcAnchors r kind).lcBlown r = c := ⟨_, rfl⟩
  rw [hcdef] at hlapsed hfcl hword ⊢
  have hmild : c.mild [0x94] := fun n hn => by
    have hsmall : n < 256 := (by decide : ∀ n ∈ [0, 1, 0x94], n < 256) n hn
    rw [State.rf_of_word (hword _ (notMem_lcAddrs (by
      simp only [RegFam.addr, Reg.FCL_SRCn_CFG]
      omega)))]
    exact hs n hn
  have hraised : Raised c (c.raise 0x94 devUnit) 0x94 devUnit := State.raise_raised (by decide) (by decide) hmild
  obtain ⟨d, hd⟩ : ∃ d, c.raise 0x94 devUnit = d := ⟨_, rfl⟩
  rw [hd] at hraised ⊢
  obtain ⟨hdstate, -, -, hdcalm, hpending, -, -, hdword⟩ := hraised
  have hanswer := answerFrame_answer_ok d rep []
  have hanswerFcl := State.answer_ok_fcl d rep []
  have hanswerVariants := d.variants_answer rep []
  obtain ⟨e, he⟩ : ∃ e, d.answer rep stOk [] = e := ⟨_, rfl⟩
  rw [he] at hanswer hanswerFcl hanswerVariants ⊢
  obtain ⟨hclosed, hclosedFcl, hclosedVariants⟩ := e.lcClosed_spec r
  have hframe := hanswer.trans hclosed
  obtain ⟨regs, hpt, seq, htstate⟩ := hframe.state
  refine ⟨State.calm_congr (hclosedFcl.trans hanswerFcl) (hdcalm (State.calm_congr hfcl hc)), ?_, (hframe.rf (by decide) _ _).trans hpending⟩
  refine hlapsed.keep ?_ ?_ ?_ ?_ fun a ha => ?_
  · rw [htstate, hdstate]
  · rw [htstate, hdstate]
  · rw [hclosedVariants, hanswerVariants, hdstate]
  · rw [htstate, hdstate]
  · have hbounds := le_of_mem_lcAddrs ha
    refine (hframe.word a fun h => ?_).trans (hdword a (.inr (by omega)))
    rw [h] at hbounds
    exact absurd hbounds (by decide)

end

end Sys2Proof.Machine
end

section
/-! SUPPORT. A transition takes effect (R473): windows wiped, sessions closed, and the erasure of the arrays. -/

namespace Sys2Proof.Machine

/-! ### What a transition closes -/

/-- What the wiping of windows and the closing of sessions keep. -/
structure Wiped (s t : State) : Prop where
  state : ∃ regs fcl free cores hpt seq, t = { s with regs := regs, fcl := fcl, freeCtr := free, cores := cores, hpt := hpt, seq := seq }
  calm : t.calm
  mild : t.mild [0x60, 0x94]
  word : ∀ a, deviceZone a → a ≠ Reg.HPT_TX_MSGS.addr 0 0 → t.word a = s.word a

section
variable {s t : State}

theorem Wiped.window (h : Wiped s t) (x : Nat) (f : Core → Core) (v : Nat) :
    Wiped s (((t.updCore x f).setRf Reg.SPM_SECURE x 0 31 16 v).raise 0x60 x) := by
  have honly := onlyRegs_setRf (t.updCore x f) Reg.SPM_SECURE x 0 31 16 v
  have hsite : 0x1000000 ≤ Reg.SPM_SECURE.addr x 0 := by
    simp only [RegFam.addr, Reg.SPM_SECURE]
    omega
  obtain ⟨u, hu⟩ : ∃ u, (t.updCore x f).setRf Reg.SPM_SECURE x 0 31 16 v = u := ⟨_, rfl⟩
  rw [hu] at honly ⊢
  have hmild : u.mild [0x60, 0x94] := honly.mild (fun a ha => by rw [List.mem_singleton.mp ha]; omega) (by decide) h.mild
  have hkeeps := State.raiseKeeps_raise (src := 0x60) (by decide) (State.mild_of_subset hmild (by decide)) x
  obtain ⟨w, hw⟩ : ∃ w, u.raise 0x60 x = w := ⟨_, rfl⟩
  rw [hw] at hkeeps ⊢
  refine ⟨?_, hkeeps.calm (honly.calm h.calm), hkeeps.mild (by decide) hmild, fun a ha hne => ?_⟩
  · obtain ⟨_, _, _, _, _, _, hstate⟩ := h.state
    have hu := honly.1
    have hw := hkeeps.eq
    rw [hu, hstate] at hw
    exact ⟨_, _, _, _, _, _, hw⟩
  · unfold deviceZone at ha
    refine (hkeeps.word a (by omega)).trans ((honly.2 a fun hin => ?_).trans (h.word a ha hne))
    rw [List.mem_singleton] at hin
    omega

theorem wiped_wipeWindows (hc : s.calm) (hs : s.mild [0x60, 0x94]) : Wiped s s.wipeWindows := by
  have hall : ∀ (l : List Nat) (t : State), Wiped s t → Wiped s (l.foldl (fun s x =>
      ((s.updCore x (fun c => { c with spm := Mem.clear c.spm 0xF0000 0x10000, spmPoison := unpoison c.spmPoison 0xF0000 0x10000 })).setRf
        Reg.SPM_SECURE x 0 31 16 (min 0xFFFF ((s.updCore x (fun c =>
          { c with spm := Mem.clear c.spm 0xF0000 0x10000, spmPoison := unpoison c.spmPoison 0xF0000 0x10000 })).rf Reg.SPM_SECURE x 0 31 16 + 1))).raise
        0x60 x) t) := fun l => by
    induction l with
    | nil => exact fun _ h => h
    | cons x l ih => exact fun t h => ih _ (h.window x _ _)
  exact hall _ s ⟨⟨_, _, _, _, _, _, rfl⟩, hc, hs, fun _ _ _ => rfl⟩

theorem Wiped.closeAll (h : Wiped s t) (reason : Nat) (sel : Session → Bool) : Wiped s (t.closeAll reason sel) := by
  obtain ⟨hframe, hfcl, -⟩ := closeAll_frame t reason sel
  obtain ⟨u, hu⟩ : ∃ u, t.closeAll reason sel = u := ⟨_, rfl⟩
  rw [hu] at hframe hfcl ⊢
  refine ⟨?_, State.calm_congr hfcl h.calm, hframe.mild (by decide) h.mild, fun a ha hne => (hframe.word a hne).trans (h.word a ha hne)⟩
  obtain ⟨_, _, _, _, _, _, hstate⟩ := h.state
  obtain ⟨_, _, _, hclosed⟩ := hframe.state
  rw [hstate] at hclosed
  exact ⟨_, _, _, _, _, _, hclosed⟩

end

/-! ### The erasure (step 4 of R473) -/

/-- The erasure that a transition starts. -/
def erasing (rep : Reply) (r : LcRecord) (kind : Nat) : Prog :=
  let d : DieProg := ⟨0, [], false, false, false⟩
  { slot := 0, erase := some (rep, r, kind), resumed := false, dies := [d, d], spares := [], placed := [], unplaced := [], complete := false }

/-- Both slots are empty. -/
def State.slotsCleared (s : State) : State := (s.clearSlot 0).clearSlot 1

/-- Near memory is zero, and the erasure is to be done. -/
def State.erasureSet (s : State) (rep : Reply) (r : LcRecord) (kind : Nat) : State :=
  { s with
    mem := s.mem.filter (fun c => decide (farBase ≤ c.1)), poison := s.poison.filter (fun w => decide (farBase ≤ 8 * w))
    latent := s.latent.filter (fun x => decide (farBase ≤ 8 * x.1)), prog := some (erasing rep r kind) }

theorem State.eraseWeights_eq (s : State) (rep : Reply) (r : LcRecord) (kind : Nat) : s.eraseWeights rep r kind =
    (((s.slotsCleared.erasureSet rep r kind).setReg Reg.WGT_PROG_STATE 0 0 (17 * s.slotsCleared.sites.length)).showProg) := rfl

theorem State.slotsCleared_spec (s : State) : ∃ gens, s.slotsCleared = { s with regs := s.slotsCleared.regs, gens := gens } ∧
    s.slotsCleared.slotState 0 = 0 ∧ s.slotsCleared.slotState 1 = 0 ∧
    ∀ a, a ∉ [Reg.WGT_GEN_SLOTn.addr 0 0, Reg.WGT_GEN_SLOTn.addr 0 1] → s.slotsCleared.word a = s.word a := by
  have hclear : ∀ (s : State) n, ∃ gens, s.clearSlot n = { s with regs := (s.clearSlot n).regs, gens := gens } ∧
      (s.clearSlot n).slotState n = 0 ∧ ∀ a, a ≠ Reg.WGT_GEN_SLOTn.addr 0 n → (s.clearSlot n).word a = s.word a := fun s n => by
    have honly := onlyRegs_setReg s Reg.WGT_GEN_SLOTn 0 n 0
    have hset := State.reg_setReg_self s Reg.WGT_GEN_SLOTn 0 n 0
    unfold State.clearSlot
    obtain ⟨v, hv⟩ : ∃ v, s.setReg Reg.WGT_GEN_SLOTn 0 n 0 = v := ⟨_, rfl⟩
    rw [hv] at honly hset ⊢
    have hzero : v.slotState n = 0 := by
      rw [State.slotState, State.rf, hset]
      rfl
    refine ⟨s.gens.modify n (fun _ => genReset), ?_, hzero, fun a ha => honly.2 a (by simpa using ha)⟩
    rw [honly.1]
    rfl
  obtain ⟨gens0, hstate0, hzero0, hword0⟩ := hclear s 0
  obtain ⟨v, hv⟩ : ∃ v, s.clearSlot 0 = v := ⟨_, rfl⟩
  obtain ⟨gens1, hstate1, hzero1, hword1⟩ := hclear v 1
  have hdef : s.slotsCleared = v.clearSlot 1 := by rw [State.slotsCleared, hv]
  rw [hv] at hstate0 hzero0 hword0
  rw [hdef]
  refine ⟨gens1, ?_, (State.rf_of_word (hword1 _ (by decide)) _ _).trans hzero0, hzero1, fun a ha => ?_⟩
  · rw [hstate0] at hstate1
    rw [hstate0]
    exact hstate1
  · simp only [List.mem_cons, List.not_mem_nil, or_false, not_or] at ha
    exact (hword1 a ha.2).trans (hword0 a ha.1)

theorem State.onlyRegs_showProg (s : State) : OnlyRegs s s.showProg [Reg.WGT_PROG_STATE.addr 0 0] ∧
    s.showProg.rf Reg.WGT_PROG_STATE 0 0 15 0 = s.rf Reg.WGT_PROG_STATE 0 0 15 0 := by
  unfold State.showProg
  split
  · exact ⟨.refl s _, rfl⟩
  · exact ⟨(onlyRegs_setRf _ _ _ _ _ _ _).trans (onlyRegs_setRf _ _ _ _ _ _ _),
      (State.rf_setRf_apart _ _ _ _ _ (by decide) (by decide)).trans (State.rf_setRf_apart _ _ _ _ _ (by decide) (by decide))⟩

/-- The addresses that the start of an erasure writes. -/
def eraseAddrs : List Nat := [Reg.WGT_GEN_SLOTn.addr 0 0, Reg.WGT_GEN_SLOTn.addr 0 1, Reg.WGT_PROG_STATE.addr 0 0]

theorem get_filter_far (m : Mem) {a : Nat} (ha : a < farBase) : Mem.get (m.filter fun c => decide (farBase ≤ c.1)) a = 0 :=
  SMap.get_of_notMem _ _ _ fun c hc hca => by
    have := of_decide_eq_true (List.mem_filter.mp hc).2
    omega

theorem length_sites_le (s : State) : s.sites.length ≤ 544 := by
  rw [State.sites]
  exact (List.length_filter_le _ _).trans_eq List.length_range

/-- The start of an erasure. -/
theorem State.eraseWeights_spec (s : State) (rep : Reply) (r : LcRecord) (kind : Nat) : let t := s.eraseWeights rep r kind
    t.fcl = s.fcl ∧ t.sec = s.sec ∧ t.seq = s.seq ∧ (∀ a, a ∉ eraseAddrs → t.word a = s.word a) ∧ t.slotState 0 = 0 ∧ t.slotState 1 = 0 ∧
    (∀ a, a < farBase → Mem.get t.mem a = 0) ∧ t.rf Reg.WGT_PROG_STATE 0 0 15 0 = 17 * s.sites.length ∧
    t.prog = some (erasing rep r kind) := by
  obtain ⟨gens, hstate, hzero0, hzero1, hword⟩ := s.slotsCleared_spec
  have hsites : s.slotsCleared.sites = s.sites := by
    have hen : s.slotsCleared.siteEn = s.siteEn := by rw [hstate]
    unfold State.sites State.enabled
    rw [hen]
  have hlength := length_sites_le s
  rw [State.eraseWeights_eq, hsites]
  obtain ⟨a, ha⟩ : ∃ a, s.slotsCleared = a := ⟨_, rfl⟩
  rw [ha] at hstate hzero0 hzero1 hword ⊢
  obtain ⟨b, hb⟩ : ∃ b, a.erasureSet rep r kind = b := ⟨_, rfl⟩
  have hbregs : b.regs = a.regs := by rw [← hb]; rfl
  have hbprog : b.prog = some (erasing rep r kind) := by rw [← hb]; rfl
  have hbmem : b.mem = a.mem.filter fun c => decide (farBase ≤ c.1) := by rw [← hb]; rfl
  have hbfcl : b.fcl = s.fcl := by rw [← hb, hstate]; rfl
  have hbsec : b.sec = s.sec := by rw [← hb, hstate]; rfl
  have hbseq : b.seq = s.seq := by rw [← hb, hstate]; rfl
  rw [hb]
  have hset := State.reg_setReg_self b Reg.WGT_PROG_STATE 0 0 (17 * s.sites.length)
  have honly := onlyRegs_setReg b Reg.WGT_PROG_STATE 0 0 (17 * s.sites.length)
  obtain ⟨c, hc⟩ : ∃ c, b.setReg Reg.WGT_PROG_STATE 0 0 (17 * s.sites.length) = c := ⟨_, rfl⟩
  rw [hc] at hset honly ⊢
  obtain ⟨hshow, hleft⟩ := c.onlyRegs_showProg
  have hall := honly.trans hshow
  obtain ⟨t, ht⟩ : ∃ t, c.showProg = t := ⟨_, rfl⟩
  rw [ht] at hleft hall ⊢
  have hslot : ∀ n, Reg.WGT_GEN_SLOTn.addr 0 n ∉ [Reg.WGT_PROG_STATE.addr 0 0] → t.slotState n = a.slotState n := fun n hn =>
    (hall.rf hn _ _).trans (State.rf_congr hbregs _ _ _ _ _)
  refine ⟨?_, ?_, ?_, fun x hx => ?_, (hslot 0 (by decide)).trans hzero0, (hslot 1 (by decide)).trans hzero1, fun x hx => ?_, ?_, ?_⟩
  · rw [hall.1]; exact hbfcl
  · rw [hall.1]; exact hbsec
  · rw [hall.1]; exact hbseq
  · simp only [eraseAddrs, List.mem_cons, List.not_mem_nil, or_false, not_or] at hx
    refine (hall.2 x (by simpa using hx.2.2)).trans ((congrArg (fun m => m.lookup x) hbregs).trans (hword x ?_))
    simp only [List.mem_cons, List.not_mem_nil, or_false, not_or]
    exact ⟨hx.1, hx.2.1⟩
  · have hmem : t.mem = b.mem := by rw [hall.1]
    rw [hmem, hbmem]
    exact get_filter_far _ hx
  · rw [hleft, State.rf, hset, bitsOf]
    omega
  · rw [hall.1]; exact hbprog

/-! ### `LIFECYCLE` -/

section
variable {s : State} {h : Hdr} {q : LcRecord} {x : Session} {rep : Reply} {kind : Nat}

/-- A transition leads to a state that there is, and replaces or keeps the anchor table below RETURNED. -/
theorem transition_to {a b k : Nat} {y z : Bool} (ht : transition a b = some (y, z, k)) : b ≤ 4 ∧ (b < 3 → k ≠ 2) := by
  unfold transition at ht
  split at ht
  case h_11 => cases ht
  all_goals
    cases ht
    decide

theorem State.transition_of_lcCheck (hcheck : s.lcCheck q = stOk) :
    ∃ y z k, transition (s.rf Reg.SEC_LC_STATE 0 0 2 0) q.to_.toNat = some (y, z, k) := by
  unfold State.lcCheck at hcheck
  dsimp only at hcheck
  split at hcheck
  · exact absurd hcheck (by decide)
  · split at hcheck
    · exact absurd hcheck (by decide)
    · next y z k ht => exact ⟨y, z, k, ht⟩

/-- What a taken record does. -/
def State.lcRun (q : LcRecord) (s : State) (rep : Reply) : State :=
  let st := s.lcCheck q
  if st ≠ stOk then (s.err Reg.SEC_LC_REJECT 0 0 1).answer rep st []
  else
    match transition (s.rf Reg.SEC_LC_STATE 0 0 2 0) q.to_.toNat with
    | none => s
    | some (_, _, kind) => s.lcApply rep q kind

theorem execLifecycle_eq : execLifecycle h q s = s.command h (opRowM 0x0181) false true true fun s _ rep => s.lcRun q rep := rfl

theorem exec_lifecycle (ha : s.accepts h (opRowM 0x0181) false true true x) :
    exec (.lifecycle h q) s = finish ((s.taken h).lcRun q (replyTo h 0x0181)) :=
  Eq.trans execLifecycle_eq (State.command_of_accepts ha)

theorem State.lcCheck_taken (s : State) (h : Hdr) (q : LcRecord) : (s.taken h).lcCheck q = s.lcCheck q := rfl

/-- A record that fails its checks counts and is rejected (R472). -/
theorem lifecycle_rejected (hc : s.calm) (ha : s.accepts h (opRowM 0x0181) false true true x) {st : Nat} (hcheck : s.lcCheck q = st)
    (hst : st ≠ stOk) (hroom : s.room Reg.SEC_LC_REJECT 0 0 1) (hreject : s.room Reg.HPT_CMD_REJECT 0 0 1) : ∃ t : State,
      exec (.lifecycle h q) s = .next (t.answer (replyTo h 0x0181) st []) ∧ OnlyRegs (s.taken h) t [Reg.SEC_LC_REJECT.addr 0 0] ∧
      t.reg Reg.SEC_LC_REJECT 0 0 = s.reg Reg.SEC_LC_REJECT 0 0 + 1 := by
  have hroom' : (s.taken h).room Reg.SEC_LC_REJECT 0 0 1 := hroom
  have honly := onlyRegs_err hroom'
  have hcount : ((s.taken h).err Reg.SEC_LC_REJECT 0 0 1).reg Reg.SEC_LC_REJECT 0 0 = s.reg Reg.SEC_LC_REJECT 0 0 + 1 := State.reg_err_of_room hroom'
  have hrun : (s.taken h).lcRun q (replyTo h 0x0181) = ((s.taken h).err Reg.SEC_LC_REJECT 0 0 1).answer (replyTo h 0x0181) st [] := by
    unfold State.lcRun
    dsimp only
    rw [State.lcCheck_taken, hcheck]
    exact if_pos hst
  rw [exec_lifecycle ha, hrun]
  have hreject' : ((s.taken h).err Reg.SEC_LC_REJECT 0 0 1).room Reg.HPT_CMD_REJECT 0 0 1 := honly.room (by decide) hreject
  exact ⟨_, finish_of_calm hc ((State.answer_fcl_of_room _ _ _ _ hreject').trans honly.fcl), honly, hcount⟩

/-- The state of a transition whose windows are wiped and whose tenants' sessions are closed. -/
def State.lcWiped (s : State) : State :=
  s.wipeWindows.closeAll 8 (fun x => match x.role with | .tenant _ => true | .operator => false)

/-- A new root, and no variants. -/
def State.lcRooted (s : State) : State :=
  { s with seq := { s.seq with variants := [] }, sec := { s.sec with root := true, rootDraws := s.sec.rootDraws + 1 } }

theorem State.lcApply_eq : s.lcApply rep q kind =
    if 3 ≤ q.to_.toNat then s.lcWiped.lcRooted.eraseWeights rep q kind else s.lcWiped.lcRooted.lcFinish rep q kind := by
  unfold State.lcApply
  extract_lets a _ _ b
  have ha : s.lcWiped = a := rfl
  have hb : a.lcRooted = b := rfl
  rw [ha, hb]

theorem wiped_lcWiped (hc : s.calm) (hs : s.mild [0x60, 0x94]) : Wiped s s.lcWiped := (wiped_wipeWindows hc hs).closeAll _ _

/-- What a passed record has made of the state before its anchor table, or its erasure. -/
theorem State.lcRooted_spec (hc : s.calm) (hs : s.mild [0x60, 0x94]) : let w := s.lcWiped.lcRooted
    w.calm ∧ w.mild [0x60, 0x94] ∧ (∀ a, deviceZone a → a ≠ Reg.HPT_TX_MSGS.addr 0 0 → w.word a = s.word a) ∧ w.mem = s.mem ∧ w.siteEn = s.siteEn ∧
    w.sec.root = true ∧ w.sec.rootDraws = s.sec.rootDraws + 1 ∧ w.seq.variants = [] := by
  have hwiped := wiped_lcWiped hc hs
  obtain ⟨v, hv⟩ : ∃ v, s.lcWiped = v := ⟨_, rfl⟩
  rw [hv] at hwiped ⊢
  obtain ⟨⟨_, _, _, _, _, _, hstate⟩, hcalm, hmild, hword⟩ := hwiped
  refine ⟨hcalm, hmild, hword, ?_, ?_, rfl, ?_, rfl⟩
  · show v.mem = s.mem
    rw [hstate]
  · show v.siteEn = s.siteEn
    rw [hstate]
  · show v.sec.rootDraws + 1 = s.sec.rootDraws + 1
    rw [hstate]

/-- A passed record (R473). -/
theorem lifecycle_accepted (hc : s.calm) (ha : s.accepts h (opRowM 0x0181) false true true x) (hcheck : s.lcCheck q = stOk)
    (hs : s.mild [0x60, 0x94]) : ∃ t, exec (.lifecycle h q) s = .next t ∧
        t.sec.root = true ∧ t.sec.rootDraws = s.sec.rootDraws + 1 ∧ t.seq.variants = [] ∧
        (q.to_.toNat < 3 → t.rf Reg.SEC_LC_STATE 0 0 2 0 = q.to_.toNat ∧
          (s.rf Reg.SEC_LC_STATE 0 0 13 8 < 63 → t.rf Reg.SEC_LC_STATE 0 0 13 8 = s.rf Reg.SEC_LC_STATE 0 0 13 8 + 1) ∧
          t.rf Reg.FCL_SRCn_STAT 0 0x94 31 31 = 1 ∧ t.mem = s.mem ∧
          (q.hasTable = 1 → ∀ n e, n < 8 → q.table[n]? = some e → t.reg Reg.SEC_ANCHOR_ROLESn n 0 = e.roles.toNat)) ∧
        (3 ≤ q.to_.toNat → t.reg Reg.SEC_LC_STATE 0 0 = s.reg Reg.SEC_LC_STATE 0 0 ∧ t.slotState 0 = 0 ∧ t.slotState 1 = 0 ∧
          (∀ a, a < farBase → Mem.get t.mem a = 0) ∧ t.rf Reg.WGT_PROG_STATE 0 0 15 0 = 17 * s.sites.length ∧
          ∃ v k, t.prog = some v ∧ v.erase = some (replyTo h 0x0181, q, k) ∧ v.complete = false) := by
  obtain ⟨y, z, kind, ht⟩ := State.transition_of_lcCheck hcheck
  obtain ⟨hto, hkind⟩ := transition_to ht
  have hrun : (s.taken h).lcRun q (replyTo h 0x0181) = (s.taken h).lcApply (replyTo h 0x0181) q kind := by
    have ht' : transition ((s.taken h).rf Reg.SEC_LC_STATE 0 0 2 0) q.to_.toNat = some (y, z, kind) := ht
    unfold State.lcRun
    dsimp only
    rw [State.lcCheck_taken, hcheck, if_neg (fun hne => hne rfl), ht']
  obtain ⟨hcalm, hmild, hword, hmem, hsites, hroot, hdraws, hvariants⟩ := State.lcRooted_spec (s := s.taken h) hc hs
  rw [exec_lifecycle ha, hrun, State.lcApply_eq]
  obtain ⟨w, hw⟩ : ∃ w, (s.taken h).lcWiped.lcRooted = w := ⟨_, rfl⟩
  rw [hw] at hcalm hmild hword hmem hsites hroot hdraws hvariants ⊢
  have hlc : w.reg Reg.SEC_LC_STATE 0 0 = s.reg Reg.SEC_LC_STATE 0 0 :=
    State.reg_of_word (hword _ (.inr (by decide)) (by decide))
  by_cases hlow : q.to_.toNat < 3
  · rw [if_neg (by omega)]
    obtain ⟨htcalm, hlapsed, hpending⟩ := State.lcFinish_spec (rep := replyTo h 0x0181) (kind := kind) hcalm (State.mild_of_subset hmild (by decide))
      (r := q) (by omega)
    obtain ⟨t, htdef⟩ : ∃ t, w.lcFinish (replyTo h 0x0181) q kind = t := ⟨_, rfl⟩
    rw [htdef] at htcalm hlapsed hpending ⊢
    obtain ⟨⟨hmem', -, hvariants', hroot', hdraws'⟩, hstate, hcount, -, -, hreplaced⟩ := hlapsed
    have hcount' : s.rf Reg.SEC_LC_STATE 0 0 13 8 < 63 → t.rf Reg.SEC_LC_STATE 0 0 13 8 = s.rf Reg.SEC_LC_STATE 0 0 13 8 + 1 := by
      rw [State.rf, hlc, ← State.rf] at hcount
      exact hcount
    exact ⟨t, finish_of_calm htcalm rfl, hroot'.trans hroot, hdraws'.trans hdraws, hvariants'.trans hvariants,
      fun _ => ⟨hstate, hcount', hpending, hmem'.trans hmem, hreplaced (hkind hlow)⟩, fun h => absurd h (by omega)⟩
  · rw [if_pos (by omega)]
    obtain ⟨hfcl, hsec, hseq, hword', hslot0, hslot1, hzero, hleft, hprog⟩ := w.eraseWeights_spec (replyTo h 0x0181) q kind
    obtain ⟨t, htdef⟩ : ∃ t, w.eraseWeights (replyTo h 0x0181) q kind = t := ⟨_, rfl⟩
    rw [htdef] at hfcl hsec hseq hword' hslot0 hslot1 hzero hleft hprog ⊢
    have hall : w.sites = s.sites := by
      have hen : w.siteEn = s.siteEn := hsites
      unfold State.sites State.enabled
      rw [hen]
    refine ⟨t, finish_of_calm hcalm hfcl, by rw [hsec]; exact hroot, by rw [hsec]; exact hdraws, by rw [hseq]; exact hvariants, fun h => absurd h hlow,
      fun _ => ⟨(State.reg_of_word (hword' _ (by decide))).trans hlc, hslot0, hslot1, hzero, by rw [hleft, hall], _, kind, hprog, rfl, rfl⟩⟩

end

end Sys2Proof.Machine
end

section
/-! SUPPORT. The last array of an erasure (R473). -/

namespace Sys2Proof.Machine

/-- The state but for programming, cores and the words of the sites and of `WGT_PROG_STATE`. -/
structure Erases (s t : State) : Prop where
  fcl : t.fcl = s.fcl
  word : ∀ a, a < 0x1000000 → a ≠ Reg.WGT_PROG_STATE.addr 0 0 → t.word a = s.word a

section
variable {s t u : State} {l : List Nat} {site arr : Nat}

theorem Erases.refl (s : State) : Erases s s := ⟨rfl, fun _ _ _ => rfl⟩

theorem Erases.trans (h : Erases s t) (g : Erases t u) : Erases s u :=
  ⟨g.fcl.trans h.fcl, fun a ha hne => (g.word a ha hne).trans (h.word a ha hne)⟩

theorem OnlyRegs.erases (g : OnlyRegs s t l) (hl : ∀ a ∈ l, 0x1000000 ≤ a ∨ a = Reg.WGT_PROG_STATE.addr 0 0) : Erases s t :=
  ⟨g.fcl, fun a ha hne => g.2 a fun hin => by
    rcases hl a hin with hge | heq
    · omega
    · exact hne heq⟩

theorem le_arr_addr (f : RegFam) (h : 0x1000000 ≤ f.base) (i j : Nat) : 0x1000000 ≤ f.addr i j := by
  rw [RegFam.addr]
  omega

/-- An array of few cycles is erased, and its registers alone change. -/
theorem State.eraseArray_spec (hcycles : s.rf Reg.ARY_PROG_CYCLESa site arr 23 0 < 10000) :
    Erases s (s.eraseArray site arr) ∧ (s.eraseArray site arr).prog = s.prog := by
  unfold State.eraseArray
  dsimp only
  obtain ⟨v, hv⟩ : ∃ v, s.updCore site (fun c => (c.loseTile arr).setArr arr
    { c.arr arr with cells := level8, holds := .none, gen := 0, draw := none, stats := [] }) = v := ⟨_, rfl⟩
  have hregs : v.regs = s.regs := by rw [← hv]; rfl
  have hfcl : v.fcl = s.fcl := by rw [← hv]; rfl
  have hprog : v.prog = s.prog := by rw [← hv]; rfl
  have hyoung : v.rf Reg.ARY_PROG_CYCLESa site arr 23 0 < 10000 := by rw [State.rf_congr hregs]; exact hcycles
  have honly := (onlyRegs_setRf v Reg.ARY_PROG_CYCLESa site arr 23 0 (v.rf Reg.ARY_PROG_CYCLESa site arr 23 0 + 1)).append
    (onlyRegs_setReg _ Reg.ARY_AGEa site arr 0)
  rw [hv, State.countCycle_of_young hyoung]
  obtain ⟨u, hu⟩ : ∃ u, (v.setRf Reg.ARY_PROG_CYCLESa site arr 23 0 (v.rf Reg.ARY_PROG_CYCLESa site arr 23 0 + 1)).setReg Reg.ARY_AGEa site arr 0 = u := ⟨_, rfl⟩
  rw [hu] at honly ⊢
  refine ⟨Erases.trans ⟨hfcl, fun a _ _ => congrArg (fun m => m.lookup a) hregs⟩ (honly.erases fun a ha => .inl ?_), by rw [honly.1]; exact hprog⟩
  simp only [List.mem_append, List.mem_singleton] at ha
  rcases ha with rfl | rfl
  · exact le_arr_addr _ (by decide) _ _
  · exact le_arr_addr _ (by decide) _ _

/-- The last array's state is shown, and one array fewer is left. -/
theorem State.arrayShown_spec (s : State) (site arr v : Nat) : let t := (s.setRf Reg.ARY_STATEa site arr 18 16 v).arrayLess
    Erases s t ∧ t.prog = s.prog := by
  have honly := (onlyRegs_setRf s Reg.ARY_STATEa site arr 18 16 v).append
    (onlyRegs_setRf _ Reg.WGT_PROG_STATE 0 0 13 0 ((s.setRf Reg.ARY_STATEa site arr 18 16 v).rf Reg.WGT_PROG_STATE 0 0 13 0 - 1))
  unfold State.arrayLess
  dsimp only
  obtain ⟨t, ht⟩ : ∃ t, (s.setRf Reg.ARY_STATEa site arr 18 16 v).setRf Reg.WGT_PROG_STATE 0 0 13 0
    ((s.setRf Reg.ARY_STATEa site arr 18 16 v).rf Reg.WGT_PROG_STATE 0 0 13 0 - 1) = t := ⟨_, rfl⟩
  rw [ht] at honly ⊢
  refine ⟨honly.erases fun a ha => ?_, by rw [honly.1]⟩
  simp only [List.mem_append, List.mem_singleton] at ha
  rcases ha with rfl | rfl
  · exact .inl (le_arr_addr _ (by decide) _ _)
  · exact .inr rfl

theorem erases_showProg (s : State) (p : Option Prog) : Erases s ({ s with prog := p } : State).showProg ∧
    ({ s with prog := p } : State).showProg.prog = p := by
  have honly := ({ s with prog := p } : State).onlyRegs_showProg.1
  obtain ⟨t, ht⟩ : ∃ t, ({ s with prog := p } : State).showProg = t := ⟨_, rfl⟩
  rw [ht] at honly ⊢
  exact ⟨Erases.trans (t := { s with prog := p }) ⟨rfl, fun _ _ _ => rfl⟩ (honly.erases fun a ha => .inr (List.mem_singleton.mp ha)), by rw [honly.1]⟩

theorem State.updDie_spec {p : Prog} (hprog : s.prog = some p) (die : Nat) (f : DieProg → DieProg) :
    Erases s (s.updDie die f) ∧ (s.updDie die f).prog = some { p with dies := p.dies.modify die f } := by
  have hdef : s.updDie die f = ({ s with prog := some { p with dies := p.dies.modify die f } } : State).showProg := by
    rw [State.updDie, hprog]
  rw [hdef]
  exact erases_showProg s _

/-- What a die's programming becomes once no array of its wave is left. -/
def DieProg.settled (d : DieProg) : DieProg :=
  if d.todo.isEmpty && !d.waiting && !d.done then { d with wave := d.wave + 1, done := decide (7 ≤ d.wave) } else d

/-- An erasure whose dies are done lets its transition go on (R473). -/
theorem State.settleProg_of_erased {p : Prog} {rep : Reply} {q : LcRecord} {kind die : Nat} (hprog : s.prog = some p)
    (herase : p.erase = some (rep, q, kind)) (hspares : p.spares = []) (hdone : (p.dies.modify die DieProg.settled).all (fun d => d.done) = true) :
    ∃ v : State, s.settleProg die = v.lcFinish rep q kind ∧ v.prog = none ∧ Erases s v := by
  unfold State.settleProg
  split
  · next hnone => cases hprog.symm.trans hnone
  · next p' hsome =>
    obtain rfl : p = p' := Option.some.inj (hprog.symm.trans hsome)
    extract_lets a b c
    have hcomplete : b.complete = true := by
      show ((p.dies.modify die DieProg.settled).all (fun d => d.done) && p.spares.isEmpty) = true
      rw [hdone, hspares]
      rfl
    have herase' : b.erase = some (rep, q, kind) := herase
    have hshown : Erases s c := (erases_showProg s (some b)).1
    have hended : ∀ v : State, Erases v { v with prog := none } := fun v => ⟨rfl, fun _ _ _ => rfl⟩
    refine ⟨{ c with prog := none }, ?_, rfl, hshown.trans (hended c)⟩
    clear_value c
    rw [herase']
    exact if_pos hcomplete

end

section
variable {s : State} {site arr kind : Nat} {p : Prog} {d : DieProg} {rep : Reply} {q : LcRecord}

/-- Both dies are done once the last array of the last wave is. -/
theorem dies_done {l : List DieProg} {die : Nat} {f : DieProg → DieProg} (hd : l[die]? = some d) (hf : (f d).settled.done = true)
    (hothers : ∀ k e, k ≠ die → l[k]? = some e → e.done = true) : ((l.modify die f).modify die DieProg.settled).all (fun d => d.done) = true := by
  rw [List.all_eq_true]
  intro e he
  obtain ⟨k, hk⟩ := List.mem_iff_getElem?.mp he
  rw [List.getElem?_modify, List.getElem?_modify] at hk
  by_cases hkd : die = k
  · subst hkd
    simp only [hd, if_true, Option.map_eq_map, Option.map_some, Option.some.injEq] at hk
    rw [← hk]
    exact hf
  · simp only [hkd, if_false, Option.map_eq_map, Option.map_id_fun', id] at hk
    exact hothers k e (Ne.symm hkd) hk

/-- An array is taken from those still to program. -/
def DieProg.without (x : Nat × Nat) (d : DieProg) : DieProg := { d with todo := d.todo.filter fun y => y != x }

theorem DieProg.settled_last (htodo : d.todo = [(site, arr)]) (hwaiting : d.waiting = false) (hdone : d.done = false) (hwave : 7 ≤ d.wave) :
    (d.without (site, arr)).settled.done = true := by
  have hempty : (d.without (site, arr)).todo = [] := by
    rw [DieProg.without, htodo]
    simp
  have hw : (d.without (site, arr)).waiting = false := hwaiting
  have hn : (d.without (site, arr)).done = false := hdone
  rw [DieProg.settled, if_pos (by rw [hempty, hw, hn]; rfl)]
  exact decide_eq_true hwave

/-- An array of an erasure is programmed: what the state becomes. -/
theorem exec_arrayProgramDone_erasing (hprog : s.prog = some p) (herase : p.erase = some (rep, q, kind)) (hdie : p.dies[dieOf site]? = some d)
    (htodo : (site, arr) ∈ d.todo) (hworks : s.dieWorks (dieOf site) = true) : ∃ v, exec (.arrayProgramDone site arr []) s =
      finish (((((s.eraseArray site arr).setRf Reg.ARY_STATEa site arr 18 16 v).arrayLess).updDie (dieOf site) (DieProg.without (site, arr))).settleProg
        (dieOf site)) := by
  have hwave : s.waveArray p site arr [] = (s.eraseArray site arr, true) := by
    unfold State.waveArray
    rw [herase]
    exact if_pos rfl
  refine ⟨if s.arrFailed site arr || !true then 6 else
    if p.erase.isSome && (s.eraseArray site arr).rf Reg.ARY_STATEa site arr 12 8 == 0x1F then 1 else 0, ?_⟩
  show execArrayProgramDone site arr [] s = _
  unfold execArrayProgramDone
  simp only [hprog, hdie, hwave]
  refine (if_neg ?_).trans rfl
  rw [List.contains_iff_mem.mpr htodo, hworks]
  decide

/-- The last array of an erasure lets its transition end (R473). -/
theorem arrayProgramDone_last (hc : s.calm) (hs : s.mild [0x94]) (hprog : s.prog = some p) (herase : p.erase = some (rep, q, kind))
    (hspares : p.spares = []) (hdie : p.dies[dieOf site]? = some d) (htodo : d.todo = [(site, arr)]) (hwaiting : d.waiting = false)
    (hdone : d.done = false) (hwave : 7 ≤ d.wave) (hothers : ∀ k e, k ≠ dieOf site → p.dies[k]? = some e → e.done = true)
    (hworks : s.dieWorks (dieOf site) = true) (hcycles : s.rf Reg.ARY_PROG_CYCLESa site arr 23 0 < 10000) (hto : q.to_ = 3 ∨ q.to_ = 4) :
    ∃ t, exec (.arrayProgramDone site arr []) s = .next t ∧ t.prog = none ∧ t.rf Reg.SEC_LC_STATE 0 0 2 0 = q.to_.toNat ∧
      (q.to_ = 4 → t.sec.blown = true) ∧ t.rf Reg.FCL_SRCn_STAT 0 0x94 31 31 = 1 ∧
      (kind = 2 → ∀ n, n < 8 → t.reg Reg.SEC_ANCHOR_ROLESn n 0 = 0) := by
  obtain ⟨x, hrun⟩ := exec_arrayProgramDone_erasing hprog herase hdie (by rw [htodo]; exact List.mem_cons_self) hworks
  obtain ⟨herased, hprog1⟩ := State.eraseArray_spec hcycles
  obtain ⟨hshown, hprog2⟩ := (s.eraseArray site arr).arrayShown_spec site arr x
  obtain ⟨a, ha⟩ : ∃ a, ((s.eraseArray site arr).setRf Reg.ARY_STATEa site arr 18 16 x).arrayLess = a := ⟨_, rfl⟩
  rw [ha] at hrun hshown hprog2
  obtain ⟨hless, hprog3⟩ := State.updDie_spec (hprog2.trans (hprog1.trans hprog)) (dieOf site) (DieProg.without (site, arr))
  obtain ⟨v, hsettled, hnone, hlast⟩ := State.settleProg_of_erased hprog3 herase hspares
    (dies_done hdie (DieProg.settled_last htodo hwaiting hdone hwave) hothers)
  have herases := ((herased.trans hshown).trans hless).trans hlast
  have hmild : v.mild [0x94] := fun n hn => by
    have hsmall : n < 256 := (by decide : ∀ n ∈ [0, 1, 0x94], n < 256) n hn
    rw [State.rf_of_word (herases.word _ (by
      simp only [RegFam.addr, Reg.FCL_SRCn_CFG]
      omega) (by
      simp only [RegFam.addr, Reg.FCL_SRCn_CFG, Reg.WGT_PROG_STATE]
      omega))]
    exact hs n hn
  have hsmall : q.to_.toNat < 8 := by
    rcases hto with h | h
    · rw [h]; decide
    · rw [h]; decide
  obtain ⟨hcalm, hlapsed, hpending⟩ := State.lcFinish_spec (rep := rep) (r := q) (kind := kind) (State.calm_congr herases.fcl hc) hmild hsmall
  rw [hrun, hsettled]
  exact ⟨_, finish_of_calm hcalm rfl, hlapsed.transits.prog.trans hnone, hlapsed.state, fun h => hlapsed.blown (by rw [h]; rfl), hpending,
    hlapsed.erased⟩

end

end Sys2Proof.Machine
end

section
/-! PROOFS. The statement about the security block. -/

namespace Sys2Proof.Machine

/-- Settles O57: attestation, records of transitions, the erasure's last array, firmware, tamper and the random source. -/
theorem securityBlock : Obligations.SecurityBlock := by
  unfold Obligations.SecurityBlock
  intro s h x r nonce q st kind site arr f cause p d hc
  dsimp only
  refine ⟨fun ha => ⟨exec_attest hc ha, State.length_attestation _ _ _⟩,
    fun ha => ⟨lifecycle_rejected hc ha, fun hcheck hs => lifecycle_accepted hc ha hcheck (State.mild_of_subset hs (by decide))⟩,
    fun hprog herase hspares hdie htodo hwaiting hdone hwave hothers hworks hcycles hto hs =>
      arrayProgramDone_last hc hs hprog herase hspares hdie htodo hwaiting hdone hwave hothers hworks hcycles hto,
    fun ha => ⟨fwInstall_rejected hc ha, fun hcheck => ⟨fwInstall_writes hc ha hcheck, fwInstall_defers hc ha hcheck⟩⟩,
    fwInstallDone_defers hc, fun hjob himage hok hnv => ⟨fwInstallDone_good hc hjob himage hok hnv, fwInstallDone_recovery hjob himage hok hnv,
      fwInstallDone_bad hc hjob himage hok hnv⟩, exec_tamper cause, rngHealth hc⟩

end Sys2Proof.Machine
end
